-- ==== Sys2Proof/Word.lean ====
section
/-!
DEFINITION. Words of the LT-820: the widths the manual names, and the byte.
Multi-byte fields are little-endian and bit 0 is the least significant bit (R8).
-/
namespace Sys2Proof

/-- One byte of memory. -/
abbrev Byte := BitVec 8
/-- A 16-bit word. -/
abbrev Half := BitVec 16
/-- A 32-bit word: an instruction word, a register, a lane of the vector engine. -/
abbrev Word := BitVec 32
/-- A 64-bit word: a scalar register, a counter, a 64-bit register of control space. -/
abbrev DWord := BitVec 64

end Sys2Proof
end

