-- ==== Sys2Proof/Syntax.lean ====
section
/-!
DEFINITION. The commands of the block: one constructor per row of the spec's table of operations and events.
-/
namespace Sys2Proof

/-! ## What an operation code means

Novgar's output format defines the operation codes inside each instruction class (R56); a command carries the
operation its word's code stands for, `none` for a code the format does not define. -/

/-- Integer operations of classes 0x0 and 0x1. -/
inductive IntOp where
  | add | sub | mul | divu | remu | div | rem | and | or | xor | shl | shr | sra
deriving DecidableEq, Repr

/-- Comparisons of class 0x2. -/
inductive Cmp where
  | eq | ne | lt | ltu | le | leu | gt | gtu | ge | geu
deriving DecidableEq, Repr

/-- A class 0x2 operation: a comparison of two s-registers, or a logic function of two predicates given by its truth
table, bit 2a + b for inputs a and b. -/
inductive PredOp where
  | compare (c : Cmp)
  | logic (table : BitVec 4)
deriving DecidableEq, Repr

/-- Size (log2 of its bytes, 0–3) and sign extension of a class 0x4 or 0x5 access. -/
structure MemOp where
  log2 : Nat
  sext : Bool
deriving DecidableEq, Repr

/-- Class 0xA: jump, or jump and link. -/
inductive JumpOp where
  | jump | jumpLink
deriving DecidableEq, Repr

/-! ### The vector engine's operations (R127) -/

/-- Formats of float arithmetic (R122). -/
inductive FloatFmt where
  | fp32 | bf16 | fp16
deriving DecidableEq, Repr

/-- Formats of integer arithmetic (R122). -/
inductive IntFmt where
  | int32 | int16 | int8
deriving DecidableEq, Repr

/-- Element widths: 32, 16 or 8 bits. -/
inductive ElemWidth where
  | w32 | w16 | w8
deriving DecidableEq, Repr

/-- Operations of class 0x0. -/
inductive FloatOp where
  | add | sub | mul | fma | div | sqrt | min | max | abs | neg
deriving DecidableEq, Repr

/-- Operations of class 0x1; `shrRound` is the right shift with rounding of R130. -/
inductive VIntOp where
  | add | sub | mul | mulAdd | satAdd | satSub | shl | shr | sra | shrRound | and | or | xor | not | min | max
deriving DecidableEq, Repr

/-- Comparisons of class 0x2. -/
inductive VCmp where
  | eq | ne | lt | le | gt | ge
deriving DecidableEq, Repr

/-- Class 0x2: a compare of floats or integers, or mask logic given by its truth table, bit 2a + b. -/
inductive MaskOp where
  | compareF (c : VCmp) (f : FloatFmt)
  | compareI (c : VCmp) (f : IntFmt)
  | logic (table : BitVec 4)
deriving DecidableEq, Repr

/-- Class 0x3. -/
inductive ScratchOp where
  | lineLoad (w : ElemWidth)
  | lineStore (w : ElemWidth)
  | maskLoad
  | maskStore
  | compressStore (w : ElemWidth)
  | expandLoad (w : ElemWidth)
deriving DecidableEq, Repr

/-- Class 0x4. -/
inductive TileOp where
  | load | store
deriving DecidableEq, Repr

/-- Class 0x5: source and destination format codes (0–10) and the part q. -/
structure ConvertOp where
  src : Nat
  dst : Nat
  part : Nat
deriving DecidableEq, Repr

/-- How a reduce combines (R132 names no operations). [DESIGN CHOICE, log entry 178] -/
inductive ReduceOp where
  | add | min | max
deriving DecidableEq, Repr

/-- Class 0x6. -/
inductive CrossOp where
  | reduceF (r : ReduceOp) (f : FloatFmt)
  | reduceI (r : ReduceOp) (f : IntFmt)
  | permute (w : ElemWidth)
  | broadcastElem (w : ElemWidth) (elem : Nat)
  | broadcastConst (w : ElemWidth) (n : Nat)
  | compress (w : ElemWidth)
  | prefixCount
deriving DecidableEq, Repr

/-! ### Other operands -/

/-- What `FRAME_ROUTE` takes up: the oldest message of this device, its oldest waggle, the frame at the head of a port's
receive buffer, or the oldest frame that waits for a port that is no longer there. -/
inductive RouteFrom where
  | own
  | waggle
  | port (p : Nat)
  | waiting (p : Nat)
deriving DecidableEq, Repr

/-- What a RoCEv2 packet asks for (R399). `first` and `last`: an Only packet is both. -/
inductive RoceOp where
  | send (first last : Bool) (imm : Option Nat) (bytes : List Byte)
  /-- A WRITE; the RETH of its First or Only packet: virtual address, remote key, length. -/
  | write (first last : Bool) (imm : Option Nat) (va rkey length : Nat) (bytes : List Byte)
  | read (va rkey length : Nat)
  | unsupported
deriving DecidableEq, Repr

/-- A RoCEv2 packet: ICRC and UDP port right; local QPN and PSN; CE mark. -/
structure RocePkt where
  intact : Bool
  qpn : Nat
  psn : Nat
  ce : Bool
  op : RoceOp
deriving DecidableEq, Repr

/-- What the verifier meets on an image in flash: it could be read without error (R490). -/
structure ImageVerdict where
  readOk : Bool
deriving DecidableEq, Repr

/-- Where a request to the keeper comes from: the field network, by source address (as a little-endian number) and UDP port, or
the mailbox (R472, R477). -/
inductive KdpPath where
  | field (addr port : Nat)
  | mailbox
deriving DecidableEq, Repr

/-- What the flash meets for a request: on a staged image, and on the keeper images of banks A and B where the request makes the boot
ROM run. -/
structure KdpAux where
  image : ImageVerdict
  bankA : ImageVerdict
  bankB : ImageVerdict
deriving DecidableEq, Repr

/-- What a frame at the keeper's field port is (R468): a UDP datagram, an ICMPv6 neighbour solicitation or echo request, or another. -/
inductive FieldFrame where
  | udp | solicit | echo | other
deriving DecidableEq, Repr

/-- A frame at the keeper's field port: source address and port, destination address and port (addresses as little-endian numbers; the
ports of a datagram alone), its payload (of a solicitation the target, of an echo request what follows its checksum), and what the flash
meets. -/
structure KdpRequest where
  frame : FieldFrame
  addr : Nat
  port : Nat
  dst : Nat
  dstPort : Nat
  bytes : List (BitVec 8)
  aux : KdpAux
deriving DecidableEq, Repr

/-- What times out on a queue (R291). -/
inductive TimeoutOf where
  | launch (lid : Nat)
  | work (index : Nat)
deriving DecidableEq, Repr

/-- What a read that comes back flagged serves (R416, R417). -/
inductive ReadFor where
  /-- Data of a requester. -/
  | data
  /-- Page tables, staged patches, forward lines, dispatcher state or a table descriptor of a partition. -/
  | partition (p : Nat)
  /-- The firmware and microcode images, or a structure that serves every partition. -/
  | device
deriving DecidableEq, Repr

/-- Who asked for a translation (R341, R344). -/
inductive Requester where
  | load (cell thread : Nat)
  | store (cell thread : Nat)
  | fetch (cell thread : Nat)
  | vecFetch (cell : Nat)
  /-- A stream slot; side 0 source, 1 destination. -/
  | stream (cell slot side : Nat)
  /-- The skimmer's reads of a work (item 0), and row fetch `item − 1` of it. -/
  | bag (forager work item : Nat)
  /-- The read of a bag block that a cell's comb fans out. -/
  | fanout (cell : Nat)
  /-- The resident-region load of a cell, and the save or restore of a launch through the comb of a cell. -/
  | resident (cell : Nat)
  | save (launch cell : Nat)
  /-- A PATCH block of a queue, and the resolution of a row by a stack's row cache. -/
  | patchBlock (queue index : Nat)
  | patchRow (stack handle table row epoch : Nat)
deriving DecidableEq, Repr

/-- An instruction word of class 0x6 or 0x7; `known` says that its op is one that the output format of Novgar defines (R56). -/
structure OpWord where
  word : Word
  known : Bool
deriving DecidableEq, Repr

/-- The 280 bytes of a flit from the link, and the lane to take out should a NAK in it end sixteen replays (R381, R383). -/
structure LinkFlit where
  bytes : List Byte
  lane : Nat
deriving DecidableEq, Repr

/-- The granule that a read means and the one where the access lands (R40, R42). -/
structure DramPlace where
  granule : Nat
  landed : Nat
deriving DecidableEq, Repr

/-- A granule that the nurse accesses; `act` says that its row must be activated (R38). -/
structure NurseAccess where
  granule : Nat
  act : Bool
deriving DecidableEq, Repr

/-- The order key of a patch entry (R204). -/
structure PatchKey where
  pver : Nat
  src : Nat
  seq : Nat
  idx : Nat
deriving DecidableEq, Repr

/-- An entry of a patch: what is staged, and what is sent to a member (R200, R202). -/
structure PatchEntry where
  key : PatchKey
  epoch : Nat
  table : Nat
  row : Nat
  /-- 0 REPLACE, 1 ACCUMULATE. -/
  mode : Nat
  /-- This member's slice of the data, and the 64 B sectors of it that carry poison. -/
  data : List Byte
  poison : List Nat
  /-- The data was read from a region marked SUSPECT (R411); a Hante frame carries no such mark. -/
  suspect : Bool
deriving DecidableEq, Repr

/-- The commands: one constructor per row of the table, in its order. -/
inductive Instr where
  /-- INT_ARITH (R545): A class 0x0 or 0x1 integer instruction issues and computes its wrapped 64-bit result. -/
  | intArith (c t : Nat) (w : Word) (op : Option IntOp)
  /-- DIVIDE_COMPLETE (R54): A 64-bit divide or remainder delivers its result 34 cycles after issue and unblocks its thread. -/
  | divideComplete (c t : Nat)
  /-- COMPARE_PREDICATE (R56): A class 0x2 compare or predicate-logic instruction writes a predicate. -/
  | comparePredicate (c t : Nat) (w : Word) (op : Option PredOp)
  /-- BRANCH (R546): A class 0x3 PC-relative branch issues, taken or not. -/
  | branch (c t : Nat) (w : Word)
  /-- INDIRECT_JUMP (R546): A class 0xA jump or jump-and-link through an s-register issues. -/
  | indirectJump (c t : Nat) (w : Word) (op : Option JumpOp)
  /-- SP_LOAD (R57): A class 0x4 scratchpad load issues and blocks its thread until its SCALAR_RD slot. -/
  | spLoad (c t : Nat) (w : Word) (op : Option MemOp)
  /-- SP_LOAD_RETURN (R54): Scratchpad load data returns one cycle after the granted slot and the thread unblocks. -/
  | spLoadReturn (c t : Nat)
  /-- SP_STORE (R57): A class 0x4 scratchpad store is posted to its next SCALAR_WR slot. -/
  | spStore (c t : Nat) (w : Word) (op : Option MemOp)
  /-- VA_LOAD (R54): A class 0x5 virtual-address load issues through the cell TLB and blocks its thread. -/
  | vaLoad (c t : Nat) (w : Word) (op : Option MemOp)
  /-- VA_LOAD_RETURN (R54): Virtual-address load data returns after the load-to-use time and the thread unblocks. -/
  | vaLoadReturn (c t : Nat)
  /-- VA_STORE (R54): A class 0x5 virtual-address store is posted, up to eight outstanding per thread. -/
  | vaStore (c t : Nat) (w : Word) (op : Option MemOp)
  /-- FENCE (R54): FENCE blocks its thread until every earlier store of the thread is globally visible. -/
  | fence (c t : Nat) (w : Word)
  /-- FENCE_COMPLETE (R54): The last earlier store of a fenced thread becomes globally visible and the thread unblocks. -/
  | fenceComplete (c t : Nat)
  /-- ICACHE_MISS_FILL (R54): An instruction-cache miss fill completes and the thread or vector engine that missed resumes. -/
  | icacheMissFill (c : Nat) (t : Option Nat) (off : Nat)
  /-- SYSTEM_VALUE_READ (R58): A class 0x9 read copies a system value such as THREAD_ID or TIME into rd. -/
  | systemValueRead (c t : Nat) (w : Word)
  /-- SIG (R61): SIG adds n to a semaphore, and waiters are granted in arrival order after the cycle's signals. -/
  | sig (c t : Nat) (w : OpWord)
  /-- WAIT (R62): WAIT blocks until the count is at least n, then subtracts n. -/
  | wait (c t : Nat) (w : OpWord)
  /-- TRY (R61): TRY subtracts n if possible with no waiter queued and sets a predicate, without blocking. -/
  | tryOp (c t : Nat) (w : OpWord)
  /-- SEM_READ (R61): READ copies a semaphore count into rd. -/
  | semRead (c t : Nat) (w : OpWord)
  /-- TSPAWN (R59): TSPAWN starts an IDLE thread at a start offset with cleared registers. -/
  | tspawn (c t : Nat) (w : OpWord)
  /-- TEXIT (R59): TEXIT returns the issuing thread to IDLE. -/
  | texit (c t : Nat) (w : OpWord)
  /-- ARRAY_CMD (R65): An ARRAY engine command is issued and queued for the matrix array. -/
  | arrayCmd (c t : Nat) (w w1 : Word)
  /-- VECTOR_CMD (R65): A VECTOR engine command is issued and queued for the vector engine. -/
  | vectorCmd (c t : Nat) (w w1 : Word)
  /-- STREAM_CMD (R309): A STREAM engine command is issued naming a 64 B descriptor. -/
  | streamCmd (c t : Nat) (w w1 : Word)
  /-- BAG_CMD (R165): A BAG engine command is issued naming a bag block, count and table-group handle. -/
  | bagCmd (c t : Nat) (w w1 : Word)
  /-- SAMPLE_CMD (R65): A SAMPLE engine command is issued and queued for the sampler. -/
  | sampleCmd (c t : Nat) (w w1 : Word)
  /-- LAYER (R68): A thread reaches LAYER, the barrier over the cell's RUNNING threads. -/
  | layer (c t : Nat) (w : Word)
  /-- LAYER_DRAIN_DONE (R68): After the last thread arrives, engines and the ingress buffer drain; the new calendar loads and the layer count rises. -/
  | layerDrainDone (c : Nat)
  /-- LAYERW (R115): A thread reaches LAYERW, the widen-check form of LAYER. -/
  | layerw (c t : Nat) (w : Word)
  /-- LAYERW_VERDICT (R115): Once every cell of the footprint has reported its trip bit, the dispatcher returns replay or no replay and each cell loads the chosen calendar. -/
  | layerwVerdict (l : Nat)
  /-- ENGINE_SAFE_POINT_ABANDON (R71): An engine reaches its next safe point and abandons the ended launch's commands. -/
  | engineSafePointAbandon (c e rows : Nat)
  /-- ARRAY_PASS_START (R83): A pass at the head of the array queue with its register loaded, buffer free and ramp done feeds its first row. -/
  | arrayPassStart (c : Nat) (sampled : Bool)
  /-- ARRAY_PASS_COMPLETE (R76): A pass writes its last output at cycle M + 192, finalises its clip count and signals SEM_DONE. -/
  | arrayPassComplete (c : Nat)
  /-- LOAD_ONLY (R87): A LOAD_ONLY command starts loading a weight tile into a register through the weight loader. -/
  | loadOnly (c : Nat)
  /-- WEIGHT_LOAD_COMPLETE (R87): The weight loader finishes a tile and the register becomes fully loaded. -/
  | weightLoadComplete (c : Nat)
  /-- RAMP_DOWN (R91): After 32 idle cycles the array lowers its active-column count towards 0. -/
  | rampDown (c cols : Nat)
  /-- VECTOR_COMMAND_START (R126): A VECTOR command at the head takes all its tile buffers, reads its parameter block and starts its program. -/
  | vectorCommandStart (c : Nat)
  /-- VEC_FLOAT_OP (R129): A class 0x0 float instruction computes and rounds once under IEEE 754. -/
  | vecFloatOp (c : Nat) (w : Word) (op : Option (FloatOp × FloatFmt))
  /-- VEC_INT_OP (R130): A class 0x1 integer instruction computes with wrapping or saturation. -/
  | vecIntOp (c : Nat) (w : Word) (op : Option (VIntOp × IntFmt))
  /-- VEC_COMPARE (R127): A class 0x2 compare or mask-logic instruction writes a mask. -/
  | vecCompare (c : Nat) (w : Word) (op : Option MaskOp)
  /-- VEC_SCRATCH_ACCESS (R134): A class 0x3 line, mask, compress-store or expand-load access moves data with the scratchpad. -/
  | vecScratchAccess (c : Nat) (w : Word) (op : Option ScratchOp)
  /-- VEC_TILE_ACCESS (R135): A class 0x4 tile-buffer load or store moves 64 words. -/
  | vecTileAccess (c : Nat) (w : Word) (op : Option TileOp)
  /-- VEC_CONVERT (R131): A class 0x5 conversion widens or narrows elements with the chosen rounding. -/
  | vecConvert (c : Nat) (w : Word) (op : Option ConvertOp)
  /-- VEC_CROSS_LANE (R132): A class 0x6 reduce, permute, broadcast, compress or prefix count runs in fixed order. -/
  | vecCrossLane (c : Nat) (w : Word) (op : Option CrossOp)
  /-- VEC_RANDOM_DRAW (R133): A class 0x7 random draw writes one generator word to each enabled lane. -/
  | vecRandomDraw (c : Nat) (w : Word) (op : Bool)
  /-- VNEXT (R124): VNEXT advances the strip index, reloads m7 and branches, or falls through in the last strip. -/
  | vnext (c : Nat) (w : Word)
  /-- VEND (R124): VEND ends the vector program. -/
  | vend (c : Nat) (w : Word)
  /-- VECTOR_COMPLETE (R126): With VEND issued, stores drained and the count record written, the command ORs its flags into the sticky word and signals SEM_DONE. -/
  | vectorComplete (c : Nat)
  /-- SAMPLE_START (R151): A SAMPLE command at the head reads its block and state and starts scanning scores. -/
  | sampleStart (c : Nat)
  /-- SAMPLE_COMPLETE (R153): The sampler finishes its scan and finish phase, writes state or result, and signals completion. -/
  | sampleComplete (c : Nat)
  /-- BAG_DISPATCH (R159): The comb dispatcher cuts a BAG command into runs of 64 bags and sends them to pooling foragers. -/
  | bagDispatch (c : Nat)
  /-- LOOKUP_INTAKE (R171): The skimmer takes lookups into windows and issues one row fetch per new key. -/
  | lookupIntake (f id : Nat)
  /-- ROW_REQUEST (R189): The owning forager receives a row request and serves it from a forward line, base line or DRAM. -/
  | rowRequest (id n : Nat)
  /-- RC_MISS_FILL (R191): A missed row arrives from the stack, is served, and is admitted or bypassed by the admission filter. -/
  | rcMissFill (id n : Nat)
  /-- ROW_SECTORS_RETURN (R160): Row sectors reach the pooling forager and are accumulated into their bags. -/
  | rowSectorsReturn (id n : Nat)
  /-- SLICE_WRITE (R179): A completed bag's slice is converted to OUT_FMT and written into the cell's scratchpad. -/
  | sliceWrite (id bag : Nat)
  /-- BAG_COMMAND_COMPLETE (R165): Every local slice of a BAG command is readable and SEM_DONE is signalled. -/
  | bagCommandComplete (id : Nat)
  /-- FORAGER_ABANDON (R182): At the next bag boundary a forager abandons an ended launch's bags and releases its slots. -/
  | foragerAbandon (f : Nat)
  /-- RC_DECAY_PASS (R192): Each decay period the row cache halves every line and sketch counter. -/
  | rcDecayPass (f : Nat)
  /-- PIN_ROWS (R194): The admin command pins up to 256 rows of a table in every non-FREE slot. -/
  | pinRows
  /-- UNPIN_ROWS (R194): The admin command removes pins from up to 256 rows. -/
  | unpinRows
  /-- TABLE_QUERY (R195): The admin command returns the 192 B table descriptor. -/
  | tableQuery
  /-- TABLE_REGISTER (R304): The admin command registers a table with its lookup record in a group. -/
  | tableRegister
  /-- TABLE_UNREGISTER (R304): The admin command drops a table's pins and descriptor, or is refused with BUSY. -/
  | tableUnregister
  /-- PUBLISH (R196): A PUBLISH command checks a new version and moves a FREE slot to STAGED. -/
  | publish (q : Nat)
  /-- ABORT_PUBLISH (R197): The admin command frees a matching STAGED slot on every member. -/
  | abortPublish
  /-- VERSION_RELEASED (R199): A SUPERSEDED slot with no readers, L at its epoch and forward lines written back is freed with a notice. -/
  | versionReleased (h t n : Nat)
  /-- PATCH (R201): A PATCH command checks its block and stages its own entries as tentative, then forwards slices to members. -/
  | patch (q : Nat)
  /-- PATCH_STAGE_RECEIVE (R202): A member receives patch entries, checks them, stages them tentative and answers. -/
  | patchStageReceive (groupId src seq : Nat) (records : List (Nat × List Byte)) (es : List PatchEntry)
  /-- PATCH_ANSWER_RECEIVE (R202): The entry member receives a member's answer and, when all are in, sends commit or cancel. -/
  | patchAnswerReceive (src seq rank status code : Nat)
  /-- PATCH_COMMIT_RECEIVE (R206): A member commits its tentative entries and resolves their forward lines. -/
  | patchCommitReceive (src seq : Nat)
  /-- PATCH_CANCEL_RECEIVE (R202): A member drops its tentative entries on cancel. -/
  | patchCancelReceive (src seq : Nat)
  /-- PATCH_OUTCOME_QUERY (R202): A member holding a tentative entry 10 ms without outcome asks the entry member, every 10 ms. -/
  | patchOutcomeQuery (src seq : Nat)
  /-- PATCH_WRITEBACK (R207): Once L reaches its epoch, a forward line is written to DRAM and becomes the base line. -/
  | patchWriteback (h t row e : Nat)
  /-- GROUP_CREATE (R214): The admin command creates a table group or span on a member and returns a handle. -/
  | groupCreate
  /-- GROUP_DESTROY (R304): The admin command frees a group handle. -/
  | groupDestroy
  /-- SPAN_BIND (R304): The admin command binds a span queue and hop image to a span. -/
  | spanBind
  /-- FANOUT_RECEIVE (R217): A peer stages a received bag block in its fan-out staging, withholding credit when full. -/
  | fanoutReceive (home launch block groupId : Nat) (epoch : DWord) (versions : List (Nat × Nat)) (bytes : List Byte) (poison : List Nat)
  /-- BAG_REQ_RECEIVE (R216): A peer receives a 32 B bag request and pools the requested bags from its staged block. -/
  | bagReqReceive (home launch block first count rank tag : Nat)
  /-- GATHER_RECEIVE (R218): The home device lands a peer's pooled slices at their full-row positions. -/
  | gatherReceive (tag rank seg row : Nat) (bytes : List Byte) (poison : Bool)
  /-- FANOUT_TIMEOUT (R221): A peer's slices not landed within FANOUT_TIMEOUT_US are written as poisoned zeros and the peer is counted lost. -/
  | fanoutTimeout (tag rank : Nat)
  /-- ABANDON_RECEIVE (R222): A peer receives abandon and release, stops the launch's bags and frees the staged block. -/
  | abandonReceive (home launch : Nat)
  /-- RETURN_ENTRY_EXPIRY (R222): A return-table entry is freed 1 ms after the launch end if peers have not acknowledged. -/
  | returnEntryExpiry (tag : Nat)
  /-- EPOCH_ADVANCE (R224): An EPOCH_ADVANCE command completes at once or forwards its target to the coordinator. -/
  | epochAdvance (q : Nat)
  /-- PREPARE_RECEIVE (R225): A member receives PREPARE(T) and answers READY with its digest once nothing tentative remains. -/
  | prepareReceive (groupId : Nat) (e : DWord)
  /-- READY_RECEIVE (R225): The coordinator receives a READY and, when all digests agree, broadcasts the EPOCH waggle. -/
  | readyReceive (groupId rank : Nat) (e : DWord) (digest : Nat)
  /-- PREPARE_RETRY (R225): While digests differ the coordinator repeats PREPARE every 1 ms. -/
  | prepareRetry (h : Nat)
  /-- LOW_REPORT (R226): Every LOW_US, or when l rises, a member sends its low-water mark to the coordinator. -/
  | lowReport (h : Nat)
  /-- LOW_REPORT_RECEIVE (R226): The coordinator receives a member's l. -/
  | lowReportReceive (groupId rank : Nat) (low : DWord)
  /-- LOW_BROADCAST (R226): Every LOW_US the coordinator broadcasts L as a LOW waggle. -/
  | lowBroadcast (h : Nat)
  /-- GROUP_DEGRADED (R227): A member silent for 10 ms to PREPARE or low reports is logged and GROUP_DEGRADED sent. -/
  | groupDegraded (h : Nat) (silent : List Nat)
  /-- SPAN_RECORD_ARRIVAL (R231): A span record reaching rank j places a hop launch from its span queue. -/
  | spanRecordArrival (bytes : List Byte) (poison : List Nat)
  /-- SPAN_RETURN_ARRIVAL (R233): A span return lands in the home cell named by its return-table entry and signals its semaphore. -/
  | spanReturnArrival (bytes : List Byte) (poison : List Nat)
  /-- SPAN_TIMEOUT (R233): No return within SPAN_TIMEOUT_US writes a TIMEOUT header and sends SPAN_LOST. -/
  | spanTimeout (tag : Nat)
  /-- OPEN_WINDOW (R235): The admin command opens a fabric window over DRAM. -/
  | openWindow
  /-- IMPORT_WINDOW (R236): The admin command probes the owner and, if accepted, takes an import slot. -/
  | importWindow
  /-- WINDOW_PROBE_RECEIVE (R236): The owner answers an import probe. -/
  | windowProbeReceive (src tag part window key perm : Nat)
  /-- WINDOW_ACCESS_AT_OWNER (R237): The owner checks a window read or write in six steps and applies it or refuses it. -/
  | windowAccessAtOwner (src tag part window key offset : Nat) (write : Bool) (bytes : List Byte) (n : Nat) (poison : Bool)
  /-- WINDOW_RESPONSE (R238): A requester receives WIN_ACK or WIN_DATA, or a refusal that ends its launch. -/
  | windowResponse (tag check : Nat) (bytes : List Byte) (poison : Bool)
  /-- WINDOW_TIMEOUT (R237): No response within WINDOW_TIMEOUT_US is treated as refusal at check 1. -/
  | windowTimeout (tag : Nat)
  /-- CLOSE_WINDOW (R239): The admin command moves a window to CLOSING. -/
  | closeWindow
  /-- WINDOW_CLOSED (R239): Every accepted access completes and the CLOSING window is freed. -/
  | windowClosed (p win : Nat)
  /-- RELEASE_IMPORT (R304): The admin command drains an import slot's translations and frees it. -/
  | releaseImport
  /-- PART_CREATE (R242): The admin command creates a partition, assigns and zeroes its resources. -/
  | partCreate
  /-- PART_DESTROY (R268): The admin command removes a context-free partition's objects and frees it. -/
  | partDestroy
  /-- PART_RESET (R267): The admin command puts a partition into RESETTING. -/
  | partReset
  /-- PARTITION_RESET_DONE (R268): When every engine has left the partition's work, reset actions apply, final records post and it returns ACTIVE. -/
  | partitionResetDone (p : Nat)
  /-- CTX_CREATE (R335): The admin command creates a context with an empty level-1 table. -/
  | ctxCreate
  /-- CTX_DESTROY (R267): The admin command starts teardown of a context's launches at safe points. -/
  | ctxDestroy
  /-- CONTEXT_TORN_DOWN (R267): All launches of the context reach safe points and the context is torn down and its tables freed. -/
  | contextTornDown (ctx : Nat)
  /-- TEARDOWN_TIMEOUT (R267): Teardown not done within TEARDOWN_TIMEOUT_MS resets the whole partition. -/
  | teardownTimeout (ctx : Nat)
  /-- NOP (R280): A NOP command completes when taken. -/
  | nop (q : Nat)
  /-- LAUNCH (R282): A LAUNCH command is taken, header-checked and admitted, recording each named group's epoch. -/
  | launch (q : Nat)
  /-- LAUNCH_PLACE (R254): The lead dispatcher places a taken launch on cells when a placement exists, binding ranks. -/
  | launchPlace (l : Nat)
  /-- RESIDENT_LOAD_DONE (R252): A cell's resident region finishes loading, its tag is set and thread 0 may start. -/
  | residentLoadDone (c : Nat)
  /-- PREEMPT_WAIT_EXPIRY (R248): A LAUNCH that has waited PREEMPT_WAIT_US triggers victim choice and marking. -/
  | preemptWaitExpiry (q : Nat)
  /-- PREEMPT_MARK_REPLY (R261): All marked cells report their counts and the dispatcher sends the halt target. -/
  | preemptMarkReply (l : Nat)
  /-- SAVE_START (R261): With every cell halted and engines idle, the save of the victim starts. -/
  | saveStart (l : Nat)
  /-- SAVE_COMPLETE (R264): The lead hub writes the save header last and the cells are free. -/
  | saveComplete (l : Nat)
  /-- RESUME (R265): A pre-empted launch is restored onto cells and continues after its LAYER site. -/
  | resume (l : Nat)
  /-- RESTORE_LAUNCH (R266): The admin command reads a save and queues it as a pre-empted launch. -/
  | restoreLaunch
  /-- DROP_SAVE (R266): The admin command removes a saved launch and returns its save address. -/
  | dropSave
  /-- SET_PIN (R259): The admin command sets or clears a quarter, queue or image pin. -/
  | setPin
  /-- PLACEMENT_PERIOD (R256): Each placement period quarter heats are updated and a migration may start. -/
  | placementPeriod
  /-- MIGRATION_COPY_DONE (R258): The nurse finishes copying a quarter and the atomic remap starts. -/
  | migrationCopyDone
  /-- FRAME_MOVED (R258): The remap's invalidation completes, the source is freed and FRAME_MOVED is noticed. -/
  | frameMoved
  /-- DB_TAIL (R274): A write to a queue's DB_TAIL announces new commands, or is ignored and counted. -/
  | dbTail (q : Nat) (whole : Bool) (v : DWord)
  /-- DB_CQ_HEAD (R274): A write to DB_CQ_HEAD reports consumed completion records. -/
  | dbCqHead (q : Nat) (whole : Bool) (v : DWord)
  /-- COMPLETION_POST (R287): When R24 holds, the host port writes the record to the shadow and posts it behind the launch's writes. -/
  | completionPost (q : Nat)
  /-- MSIX_MOD_TIMER (R288): MOD_US after the first uncovered IRQ record the MSI-X vector is raised. -/
  | msixModTimer (q : Nat)
  /-- QUEUE_TIMEOUT (R291): A command's timer expires and it ends with TIMEOUT. -/
  | queueTimeout (q : Nat) (what : TimeoutOf)
  /-- QUEUE_CREATE (R303): The admin command creates a queue and clears its shadow. -/
  | queueCreate
  /-- QUEUE_DESTROY (R295): The admin command moves a queue to DYING. -/
  | queueDestroy
  /-- QUEUE_FINAL_RECORD (R295): When every engine has acknowledged and pending PUBLISH/PATCH are decided, the final record posts and the queue is FREE. -/
  | queueFinalRecord (q : Nat)
  /-- QUEUE_REATTACH (R296): The admin command gives an ORPHANED queue a new ring, writes parked records and returns it to ACTIVE. -/
  | queueReattach
  /-- ADM_DB_TAIL (R298): A write to ADM_DB_TAIL announces admin commands. -/
  | admDbTail (v : DWord)
  /-- ADM_CQ_HEAD (R298): A write to ADM_CQ_HEAD reports admin records consumed. -/
  | admCqHead (v : DWord)
  /-- NOTE_HEAD (R306): A write to NOTE_HEAD frees notice ring room and held notices are written. -/
  | noteHead (v : DWord)
  /-- ADM_CTRL (R298): Writing 1 to ADM_CTRL resets admin counts and starts the admin queue. -/
  | admCtrl (v : DWord)
  /-- IMAGE_LOAD (R305): The admin command reads and checks a program image and returns an IMAGE_ID. -/
  | imageLoad
  /-- IMAGE_UNLOAD (R302): The admin command unloads an image, or is refused with BUSY while in use. -/
  | imageUnload
  /-- REG_READ (R302): The admin command returns the value of a control-space register. -/
  | regRead
  /-- REG_CLEAR (R302): The admin command writes 1 to a register's VALID bit. -/
  | regClear
  /-- STREAM_ACCEPT (R309): The comb hub reads and checks a descriptor and makes it the slot's active stream or pending re-arm. -/
  | streamAccept (c : Nat)
  /-- STREAM_CHUNK_START (R313): A stream's FREE and GO waits are granted and it moves a chunk. -/
  | streamChunkStart (c k : Nat)
  /-- STREAM_SRC_DONE (R313): Every source read of a chunk has returned and SRC_DONE is signalled. -/
  | streamSrcDone (c k : Nat)
  /-- STREAM_CHUNK_FILL (R314): A chunk becomes visible at its destination and FILL is signalled at PEER. -/
  | streamChunkFill (c k : Nat)
  /-- STREAM_COMPLETE (R321): The last chunk finishes; a pending re-arm becomes active in the same cycle or the slot goes IDLE. -/
  | streamComplete (c k : Nat)
  /-- STREAM_STOP (R326): At the next granule boundary an ended launch's stream stops and its slot returns to IDLE. -/
  | streamStop (c k : Nat)
  /-- TLB_WALK_COMPLETE (R341): A walker finishes a walk and installs the translation or raises a fault. -/
  | tlbWalkComplete (who : Requester)
  /-- MAP (R336): The admin command allocates quarters and maps device memory. -/
  | map
  /-- PT_SYNC (R338): The admin command writes driver-supplied leaf entries. -/
  | ptSync
  /-- UNMAP (R339): The admin command clears leaves, drains and frees empty quarters. -/
  | unmap
  /-- INVALIDATE (R346): The admin command starts draining translations of a range. -/
  | invalidate
  /-- DRAIN_COMPLETE (R346): No TLB holds the range and every access through it has finished, so the drain completes. -/
  | drainComplete (id : Nat)
  /-- RESOLVE (R345): The admin command frees every fault record of a page and retries or aborts its requesters. -/
  | resolve
  /-- WIN_SLOT_WRITE (R353): A driver write to a window slot register retargets it or is refused with BAD. -/
  | winSlotWrite (k : Nat) (v : DWord)
  /-- WINDOW_WRITE (R355): A CXL.mem write through a window slot is committed to its target in order. -/
  | windowWrite (off : Nat) (bytes : List Byte) (poison : Bool) (aux : KdpAux)
  /-- WINDOW_READ (R356): A CXL.mem read completes after all earlier writes are committed. -/
  | windowRead (off n : Nat)
  /-- HOST_FN_DISABLE (R366): A DISABLE write to HOST_FN_CTRL moves the function to DRAINING. -/
  | hostFnDisable
  /-- HOST_FN_ENABLE (R366): An ENABLE write with Bus Master Enable set returns the function to ACTIVE. -/
  | hostFnEnable
  /-- BUS_MASTER_CLEAR (R366): A configuration write clearing Bus Master Enable starts the drain. -/
  | busMasterClear (mse : Bool)
  /-- FUNCTION_DRAINED (R366): Every launch has ended and the function enters DISABLED. -/
  | functionDrained
  /-- DRAIN_TIMEOUT (R366): DRAIN_MS expires and remaining launches end with FUNCTION_DISABLED. -/
  | drainTimeout
  /-- LINK_RETRAIN_START (R367): The UCIe link begins a retrain and host-bound writes stall. -/
  | linkRetrainStart
  /-- LINK_RETRAIN_END (R367): The retrain finishes and stalled traffic resumes. -/
  | linkRetrainEnd
  /-- RETRAIN_OVERRUN (R368): A retrain unfinished 50 ms after it began becomes a host reset. -/
  | retrainOverrun
  /-- HOST_RESET (R368): Link down or a received reset orphans ACTIVE queues and discards host-bound writes. -/
  | hostReset (linkDown : Bool)
  /-- UCIE_LINK_TRAIN (R350): The UCIe link trains to the highest rate every active module passes. -/
  | ucieLinkTrain (passes : List Nat) (half : BitVec 4)
  /-- REGION_REGISTER (R361): The admin command registers an OUTPUT, WINDOW_IN or ROCE_IN region. -/
  | regionRegister
  /-- REGION_RELEASE (R365): The admin command releases a registered region. -/
  | regionRelease
  /-- PORT_SIGNAL_DETECT (R376): Signal on any lane moves an ABSENT port to TRAINING. -/
  | portSignalDetect (p : Nat)
  /-- TRAINING_COMPLETE (R378): The bring-up phases complete and the port enters UP. -/
  | trainingComplete (p : Nat) (lanes polInv : BitVec 4) (reversed : Bool) (neighbour nport : Nat)
  /-- TRAINING_ATTEMPT_FAIL (R378): A training attempt exceeds a phase max or meets a mode mismatch; the third in a row enters FAILED. -/
  | trainingAttemptFail (p : Nat) (mismatch : Bool)
  /-- LANE_FAIL (R380): A lane loses lock or exceeds its FEC limit and the port retrains narrower. -/
  | laneFail (p lane : Nat)
  /-- PORT_ELECTRICAL_IDLE (R377): Every lane goes to electrical idle and the port becomes ABSENT, dropping unacknowledged flits. -/
  | portElectricalIdle (p : Nat)
  /-- PORT_RETRAIN_COMPLETE (R376): A retrain finishes within 1 ms and the retry buffer is replayed. -/
  | portRetrainComplete (p : Nat)
  /-- PORT_RETRAIN_TIMEOUT (R376): A retrain not complete in 1 ms drops the retry buffer and re-enters TRAINING. -/
  | portRetrainTimeout (p : Nat)
  /-- PORT_FAILED_RETRY (R376): 10 s in FAILED returns the port to TRAINING. -/
  | portFailedRetry (p : Nat)
  /-- PORT_RESTART (R376): A PORT_RESTART command drops buffers and restarts training. -/
  | portRestart (req : KdpRequest)
  /-- FLIT_RECEIVE (R383): A flit arrives, is checked by FEC and CRC, and is accepted or triggers a NAK. -/
  | flitReceive (p : Nat) (flit : LinkFlit)
  /-- NAK_RECEIVE (R383): A NAK makes the sender replay from ACK + 1. -/
  | nakReceive (p ack lane : Nat)
  /-- FRAME_ROUTE (R391): A sent or received frame is routed by source route or tables, or dropped. -/
  | frameRoute (src : RouteFrom)
  /-- FRAME_DELIVER (R387): A frame reaching its destination is checked by E2E_CRC and delivered or dropped. -/
  | frameDeliver (p : Nat)
  /-- WAGGLE_RECEIVE (R395): A waggle is filtered, acted on and forwarded on every enabled port. -/
  | waggleReceive (p : Nat)
  /-- WAGGLE_CREDIT_TIMEOUT (R395): A waggle copy finding no CTRL credit in 10 µs is dropped on that port. -/
  | waggleCreditTimeout (p : Nat)
  /-- WAGGLE_FILTER_AGE (R395): A filter pair older than 10 ms leaves the waggle filter. -/
  | waggleFilterAge
  /-- ETH_FRAME_RECEIVE (R398): An Ethernet frame is answered (ARP, ND), passed to RoCEv2 or dropped. -/
  | ethFrameReceive (p : Nat) (bytes : List Byte) (fcsOk : Bool)
  /-- ROCE_PACKET (R401): The responder checks a RoCEv2 packet and applies, acknowledges or NAKs it. -/
  | rocePacket (p : Nat) (pkt : RocePkt)
  /-- CNP_RECEIVE (R403): A received CNP cuts the QP's send rate. -/
  | cnpReceive (p qpn : Nat)
  /-- RATE_RECOVER (R403): Each RECOVER_US without a CNP raises the QP's rate by RATE_STEP. -/
  | rateRecover (qpn : Nat)
  /-- QP_CREATE (R400): Writing QP_CREATE creates a QP ready to receive. -/
  | qpCreate (req : KdpRequest)
  /-- QP_DESTROY (R400): Writing QP_DESTROY removes a QP. -/
  | qpDestroy (req : KdpRequest)
  /-- TASTER_CHECKER_DISPATCH (R420): After a sampled pass the hub finds a checker and moves the capture to it. -/
  | tasterCheckerDispatch (id c : Nat)
  /-- TASTER_SEARCH_TIMEOUT (R420): No checker within 2 µs skips the sample. -/
  | tasterSearchTimeout (id : Nat)
  /-- TASTER_CHECK_COMPLETE (R421): A checker's checksum is compared and a verdict, third run or strike follows. -/
  | tasterCheckComplete (id : Nat) (err : DWord)
  /-- QUARANTINE_EFFECTIVE (R423): A pending quarantine takes effect when the launch leaves the cell. -/
  | quarantineEffective (c : Nat)
  /-- QUARANTINED_WRITE (R424): An operator write to QUARANTINED releases or quarantines cells. -/
  | quarantinedWrite (req : KdpRequest)
  /-- REPLICA_DEFINE (R425): Writing REPLICA_DEFINE defines a replica copy. -/
  | replicaDefine (req : KdpRequest)
  /-- REPLICA_VERSION (R427): Writing REPLICA_VERSION sets a copy's content version. -/
  | replicaVersion (req : KdpRequest)
  /-- REPLICA_REMOVE (R425): Writing REPLICA_REMOVE ends a copy. -/
  | replicaRemove (req : KdpRequest)
  /-- REPLICA_CLEAR (R431): Writing REPLICA_CLEAR clears a set's SUSPECT marks. -/
  | replicaClear (req : KdpRequest)
  /-- DIGEST_PASS_START (R428): Every REPLICA_MINUTES the nurse starts a digest pass on each copy. -/
  | digestPassStart (k : Nat)
  /-- DIGEST_PASS_DONE (R429): A digest pass posts its record and the copy decides winner, divergence or repair. -/
  | digestPassDone (k : Nat)
  /-- REPLICA_REPAIRED (R430): A repair copy finishes, takes the winner's version and posts a new pass. -/
  | replicaRepaired (k : Nat) (w : Nat)
  /-- BRIDGE_RETRY_EXHAUSTED (R15): A die-bridge transfer failing after 16 retries is a device-fatal error. -/
  | bridgeRetryExhausted
  /-- DEVICE_RECOVER (R417): Writing DEVICE_RECOVER reloads images, restarts the data path and resets every partition. -/
  | deviceRecover (req : KdpRequest)
  /-- DRAM_READ (R42): A channel controller completes a read and decodes its codeword. -/
  | dramRead (g : DramPlace) (errs : List (Nat × Nat)) (stays act stepping : Bool) (what : ReadFor)
  /-- DRAM_WRITE (R43): A channel controller completes a write, merging partial writes by read-modify-write. -/
  | dramWrite (pa : Nat) (bytes : List Byte) (poison : Bool) (errs again : List (Nat × Nat)) (act stepping : Bool)
  /-- CORRECTIVE_WRITE (R44): A queued corrective or poison write-back is issued, or cancelled by a later foreground write. -/
  | correctiveWrite (g : NurseAccess)
  /-- REFRESH_COMMAND (R34): The controller issues a paced per-bank refresh. -/
  | refreshCommand (u rank bank row16 : Nat)
  /-- TARGETED_REFRESH (R38): A queued targeted refresh of neighbour rows is issued and clears the aggressor's counter. -/
  | targetedRefresh (u : Nat)
  /-- DRAM_SENSOR_SAMPLE (R35): Every 100 µs the memory interface samples die sensors, setting refresh pace and throttle stage. -/
  | dramSensorSample (k : Nat) (readings : List Int)
  /-- REFRESH_PACE_RESTORE (R35): 10 ms with every sensor at or below 82.0 °C returns tREFW to 32 ms. -/
  | refreshPaceRestore (k : Nat)
  /-- HOT_MINUTE (R36): Each minute the keeper updates operating and hot minutes and HOT_RATIO. -/
  | hotMinute
  /-- PATROL_SCRUB (R46): The nurse issues patrol scrub reads within its budget. -/
  | patrolScrub (g : NurseAccess) (errs : List (Nat × Nat)) (stays : Bool)
  /-- RECENTRE_STEP (R47): After 200 ns of an empty queue a channel recentring step starts. -/
  | recentreStep (u : Nat) (aborted : Bool)
  /-- CALIB_OVERDUE (R47): A channel without completed recentring in four intervals is logged overdue. -/
  | calibOverdue (u : Nat)
  /-- RECENTRE_NOW (R48): Writing RECENTRE_NOW queues recentring of every channel of a stack. -/
  | recentreNow (req : KdpRequest)
  /-- VAUX_GOOD (R437): VAUX becomes good; straps are latched and the boot ROM starts. -/
  | vauxGood (mode strapId : Nat) (bankA bankB : ImageVerdict)
  /-- KEEPER_START (R465): The keeper starts, samples straps, joins the field PHY and logs KEEPER_START. -/
  | keeperStart (plca reversed swapped : Bool)
  /-- DAD_COMPLETE (R465): Duplicate address detection ends and the address is usable or FIELD_ADDR_DUP is logged. -/
  | dadComplete (dup : Bool)
  /-- DAD_REPROBE (R465): Every 60 s a device with a duplicate address probes again. -/
  | dadReprobe
  /-- KEEPER_WATCHDOG (R466): A keeper core watchdog expires and the keeper restarts. -/
  | keeperWatchdog (bankA bankB : ImageVerdict)
  /-- KEEPER_RESTART (R466): Writing KEEPER_RESTART restarts the keeper, leaving the data path running. -/
  | keeperRestart (req : KdpRequest)
  /-- POWER_UP (R438): Writing POWER_UP starts self-sequencing in standby mode. -/
  | powerUp (req : KdpRequest)
  /-- RAIL_GOOD (R438): A sequenced rail reaches good and its wait timer starts. -/
  | railGood (rail : Nat)
  /-- SEQ_WAIT_EXPIRY (R438): The wait after a rail is good ends and the keeper enables the next rail. -/
  | seqWaitExpiry
  /-- DATA_PATH_RELEASE (R438): With every rail good, PWROK and RESET_N high and REFCLK locked, the data path is released and images load. -/
  | dataPathRelease
  /-- FIRMWARE_LOADED (R494): Device firmware and microcode pass verification, comb hubs start and UCIe training begins, or BOOT_FAIL. -/
  | firmwareLoaded (fwA fwB ucA ucB : ImageVerdict)
  /-- PWROK_RISE (R438): PWROK rises, permitting sequencing or data-path release. -/
  | pwrokRise
  /-- PWROK_FALL (R439): PWROK falls and power-down begins. -/
  | pwrokFall
  /-- POWER_DOWN (R439): Writing POWER_DOWN powers the rails down in reverse order. -/
  | powerDown (req : KdpRequest)
  /-- RAIL_ORDER_FAULT (R440): A rail-order monitor sees a broken rule; the data path is held and SUPPLY_ORDER sent. -/
  | railOrderFault (code rail : Nat)
  /-- PMB_ALERT (R441): PMB_ALERT_N asserts; the keeper reads and logs the regulator status and clears faults. -/
  | pmbAlert (addr page word : Nat)
  /-- PMBUS_TRANSACTION (R441): A PMBus transaction completes, a third consecutive failure during sequencing aborting it. -/
  | pmbusTransaction (rail : Nat) (ok : Bool)
  /-- RESET_N_ASSERT (R442): RESET_N low for at least 1 µs holds the data path and host port in reset. -/
  | resetNAssert
  /-- RESET_N_RELEASE (R442): RESET_N rises and the data path restarts as after power-up. -/
  | resetNRelease
  /-- RAIL_POWER_POLL (R448): Every 1 ms the keeper reads READ_POUT of each mapped regulator. -/
  | railPowerPoll (mw mv : List Nat)
  /-- POWER_WINDOW (R449): Every 10 µs the power manager evaluates package power and lowers or raises comb cap settings. -/
  | powerWindow (combs rest : Nat)
  /-- POINT_CHANGE_COMPLETE (R446): A comb's voltage and clock settle at a new operating point. -/
  | pointChangeComplete (k : Nat)
  /-- LOGIC_SENSOR_SAMPLE (R453): Every 10 µs each comb's temperature is sampled and its logic stage updated. -/
  | logicSensorSample (combs : List (List Int)) (edge : List Int)
  /-- THERMAL_TRIP (R454): A trip comparator reads a limit temperature; THERMTRIP_N is driven and the device stops fatally. -/
  | thermalTrip (dram : Bool) (sensor : Nat) (value : Int)
  /-- SUPPLY_TRIP (R454): A rail out of limits while running trips the device fatally. -/
  | supplyTrip (rail mv : Nat)
  /-- REFCLK_LOSS (R452): REFCLK is lost; the counter runs on the internal oscillator and the host link goes down. -/
  | refclkLoss
  /-- REFCLK_RETURN (R452): REFCLK returns and the counter re-locks without stepping. -/
  | refclkReturn
  /-- SREFCLK_LOSS (R452): SREFCLK is lost and every fabric port becomes ABSENT. -/
  | srefclkLoss
  /-- LANE_TUNING (R458): Every TUNE_S the nurse tunes one lane of a Hante port. -/
  | laneTuning (p lane : Nat)
  /-- GUARDBAND_RUN (R458): A comb idle 50 µs runs its daily path-delay measurement and adjusts GUARD_MV. -/
  | guardbandRun (k : Nat) (delta : Int) (abandoned : Bool)
  /-- NURSE_OVERDUE (R459): A task without a completed run in four periods is logged overdue. -/
  | nurseOverdue (task k : Nat)
  /-- TUNE_NOW (R460): Writing TUNE_NOW queues tuning of every lane of a port. -/
  | tuneNow (req : KdpRequest)
  /-- GUARD_NOW (R460): Writing GUARD_NOW queues a guardband run of a comb. -/
  | guardNow (req : KdpRequest)
  /-- PART_SELFTEST (R460): Writing PART_SELFTEST starts a self-test of an idle partition. -/
  | partSelftest (req : KdpRequest)
  /-- SELFTEST_DONE (R460): A partition self-test ends and writes SELFTEST_RESULT. -/
  | selftestDone (p failing : Nat)
  /-- TELEMETRY_COPY (R506): Every 1 ms task 14 copies the always-on counters to the keeper. -/
  | telemetryCopy
  /-- PLCA_BEACON_LOSS (R467): A follower seeing no beacon for 4 ms falls back to CSMA/CD. -/
  | plcaBeaconLoss
  /-- PLCA_REJOIN (R467): A fallen-back node rejoins PLCA at the next beacon. -/
  | plcaRejoin
  /-- DISCOVER (R473): A DISCOVER request is answered with identity and uptime. -/
  | discover (req : KdpRequest)
  /-- KDP_READ (R473): A READ request returns an entry's value from an offset. -/
  | kdpRead (req : KdpRequest)
  /-- KDP_WRITE (R470): A WRITE request applies a value to a dictionary entry without a row of its own. -/
  | kdpWrite (req : KdpRequest)
  /-- DESCRIBE (R473): A DESCRIBE request returns an entry's type, access, limits and name. -/
  | describe (req : KdpRequest)
  /-- SESSION_OPEN (R477): SESSION_OPEN allocates a session and nonce for a key slot. -/
  | sessionOpen (req : KdpRequest)
  /-- SESSION_AUTH (R478): The last SESSION_AUTH segment verifies both signatures and opens the session or fails. -/
  | sessionAuth (req : KdpRequest)
  /-- LOCKOUT_END (R480): A 60 s authentication lockout ends. -/
  | lockoutEnd (path : Nat)
  /-- SESSION_CLOSE (R479): SESSION_CLOSE ends a session. -/
  | sessionClose (req : KdpRequest)
  /-- SESSION_AUTH_TIMEOUT (R477): A session not authenticated within 30 s is discarded. -/
  | sessionAuthTimeout (n : Nat)
  /-- SESSION_EXPIRY (R479): A session ends after SESSION_IDLE_S idle or 8 h after opening. -/
  | sessionExpiry (n : Nat)
  /-- SEGMENT_GAP_TIMEOUT (R474): A segment assembly idle more than 5 s ends with nothing applied. -/
  | segmentGapTimeout (path : KdpPath)
  /-- EMCY_ACK (R483): An EMCY_ACK stops repeats to that subscriber. -/
  | emcyAck (req : KdpRequest)
  /-- EMCY_REPEAT (R483): An unacknowledged emergency message is resent after 0.1 s, 1 s and 10 s. -/
  | emcyRepeat (n seq : Nat)
  /-- MB_DOORBELL (R481): A write to MB_DOORBELL submits a mailbox request, answered by raising MB_DONE. -/
  | mbDoorbell (v : DWord) (aux : KdpAux)
  /-- UPDATE_BEGIN (R495): UPDATE_BEGIN erases the inactive bank's area and enters STAGING. -/
  | updateBegin (req : KdpRequest)
  /-- UPDATE_DATA (R495): UPDATE_DATA writes staged image bytes at an offset. -/
  | updateData (req : KdpRequest)
  /-- UPDATE_VERIFY (R495): UPDATE_VERIFY checks the staged image and enters VERIFIED on success. -/
  | updateVerify (req : KdpRequest)
  /-- UPDATE_ACTIVATE (R495): UPDATE_ACTIVATE writes a trial boot record with three tries. -/
  | updateActivate (req : KdpRequest)
  /-- UPDATE_COMMIT (R496): UPDATE_COMMIT makes the trial bank active and blows SVN and revocation fuses. -/
  | updateCommit (req : KdpRequest)
  /-- UPDATE_ABORT (R495): UPDATE_ABORT discards staging or a trial not yet booted. -/
  | updateAbort (req : KdpRequest)
  /-- KEY_SLOT_WRITE (R499): Writing a key slot sets or empties an operator key pair. -/
  | keySlotWrite (req : KdpRequest)
  /-- OWNER_RELEASE (R499): OWNER_RELEASE empties every key slot. -/
  | ownerRelease (req : KdpRequest)
  /-- ALIAS_KEYS_READY (R497): Alias key generation for a new keeper measurement completes. -/
  | aliasKeysReady
  /-- ATTEST_NONCE (R500): Writing ATTEST_NONCE requests a signed attestation report. -/
  | attestNonce (req : KdpRequest)
  /-- ATTEST_REPORT_SIGNED (R500): The report is signed by both Alias keys and becomes readable. -/
  | attestReportSigned (sub : Nat) (rsa slh : List Byte)
  /-- TRIGGER_NOW (R510): Writing TRIGGER_NOW fires the global trigger with an identifier. -/
  | triggerNow (req : KdpRequest)
  /-- DBG_TRIG_N_FALL (R536): DBG_TRIG_N falls and stays low 20 ns, firing the global trigger. -/
  | dbgTrigNFall (rested : Bool)
  /-- TRACE_DRAIN_BLOCK (R519): A staging block of 64 records drains into the trace array and the header updates. -/
  | traceDrainBlock (k : Nat)
  /-- TRACE_ARM (R518): TRACE_CTRL ARM clears header counts and enters ARMED. -/
  | traceArm (req : KdpRequest)
  /-- TRACE_OFF (R518): TRACE_CTRL OFF turns the trace off. -/
  | traceOff (req : KdpRequest)
  /-- CTR_FULL_EN (R507): Writing CTR_FULL_EN starts or stops full-set counting. -/
  | ctrFullEn (req : KdpRequest)
  /-- CTR_CLEAR (R507): CTR_CLEAR zeroes the full counter set. -/
  | ctrClear (req : KdpRequest)
  /-- CTR_RELEASE (R514): CTR_RELEASE resumes counting from frozen values. -/
  | ctrRelease (req : KdpRequest)
  /-- PIN_READBACK (R535): Every 1 ms the keeper reads back CMOS outputs and flags faulty pins. -/
  | pinReadback (bad : List (Nat × Nat))
  /-- REGISTER_WRITE (R12): A write to a register without behaviour of its own stores or ignores the value per its access code. -/
  | registerWrite (a : Nat) (v : DWord)
  /-- RAIL_OFF (R439): During power-down a rail falls below off, and after 0.1 ms the keeper disables the next rail in reverse order. -/
  | railOff (rail : Nat)
  /-- VAUX_LOSS (R537): VAUX goes off, the keeper and all islands stop, and every pin enters its unpowered behaviour. -/
  | vauxLoss
  /-- BUS_MASTER_SET (R366): A configuration write sets Bus Master Enable, and the post buffer releases the host-bound writes it held. -/
  | busMasterSet (mse : Bool)
  /-- SREFCLK_RETURN (R452): SREFCLK returns, the fabric SerDes PLLs lock, and ports can train again. -/
  | srefclkReturn
  /-- EPOCH_REQUEST_RECEIVE (R225): The coordinator receives an advance request forwarded by a member and starts an advance to the highest epoch requested, or folds it into the next one. -/
  | epochRequestReceive (groupId : Nat) (e : DWord)
  /-- VERSION_LIST_RECEIVE (R197): A member receives the version lists exchanged after a digest mismatch, then logs the mismatching tables and sends VERSION_MISMATCH. -/
  | versionListReceive (groupId rank : Nat) (e : DWord) (versions : List (Nat × Nat × Nat))
  /-- PATCH_QUERY_RECEIVE (R202): The entry member receives a member's outcome query for a tentative PATCH and answers commit or cancel, or cancel if it no longer holds the PATCH. -/
  | patchQueryReceive (src seq asker : Nat)
  /-- ABORT_PUBLISH_RECEIVE (R197): A member receives a forwarded ABORT_PUBLISH and frees its matching STAGED slot. -/
  | abortPublishReceive (groupId table tver : Nat)
  /-- ABANDON_ACK_RECEIVE (R222): The home device receives a peer's acknowledgement of abandon and release, and frees the return-table entry once every peer has acknowledged. -/
  | abandonAckReceive (src launch : Nat)
  /-- PROBE_ANSWER_RECEIVE (R236): The importer receives the owner's probe answer and takes an import slot, or refuses the import with the owner's check number. -/
  | probeAnswerReceive (tag check size : Nat)
  /-- ADMIN_IRQ_HOLDOFF_EXPIRY (R298): The 1 µs holdoff after the last admin interrupt ends, and the ADM_IRQ vector is raised for admin records or notices posted meanwhile. -/
  | adminIrqHoldoffExpiry
deriving DecidableEq, Repr

end Sys2Proof
end

