-- ==== Sys2Proof/Decode.lean ====
section
/-!
DEFINITION. Words that spell commands: the table of operations gives no row any bits, so no word does.
-/
namespace Sys2Proof

/-- The command that a word spells by the table's bits: the table gives bits to no row. [DESIGN CHOICE, log entry 4] -/
def decodeTableWord (_nbits _w : Nat) : Option Instr := none

end Sys2Proof
end

