-- ==== Sys2Proof/Machine/Bits.lean ====
section
/-!
DEFINITION. Bit fields, byte order and sign extension (R8): the helpers every chapter's layouts use.
-/
namespace Sys2Proof.Machine

/-- Bits `[hi:lo]` of a natural number read as a bit string (R8: both ends included). -/
def field (x hi lo : Nat) : Nat := (x >>> lo) % 2 ^ (hi + 1 - lo)

/-- Bit `i` of a number. -/
def bitAt (x i : Nat) : Bool := x.testBit i

/-- A Bool as the bit it stands for. -/
def b2n (b : Bool) : Nat := if b then 1 else 0

/-- `n` bytes of `x`, least significant first (R8). -/
def bytesLE : Nat → Nat → List Byte
  | 0, _ => []
  | n + 1, x => BitVec.ofNat 8 x :: bytesLE n (x / 256)

/-- The number that little-endian bytes spell (R8). -/
def leNat : List Byte → Nat
  | [] => 0
  | b :: bs => b.toNat + 256 * leNat bs

/-- Little-endian number of `n` bytes at offset `off` of a byte list; bytes past the end read as zero. -/
def leAt (bs : List Byte) (off n : Nat) : Nat := leNat ((bs.drop off).take n)

/-- The signed reading of the low `w` bits of `x`. -/
def signed (w x : Nat) : Int :=
  let y := x % 2 ^ w
  if 2 * y < 2 ^ w then (y : Int) else (y : Int) - (2 ^ w : Nat)

/-- A signed number as a `w`-bit field (two's complement, wrapping). -/
def unsigned (w : Nat) (x : Int) : Nat := (x % (2 ^ w : Nat)).toNat

/-- An integer limited to `[lo, hi]`. -/
def clampInt (lo hi x : Int) : Int := if x < lo then lo else if hi < x then hi else x

/-- A count that saturates at the top of its `w`-bit width. -/
def satAdd (w x y : Nat) : Nat := min (x + y) (2 ^ w - 1)

/-- Is every byte of the list zero? (R9: a reserved field of a structure read from memory must be.) -/
def allZero (bs : List Byte) : Bool := bs.all (· == 0#8)

/-- `x` rounded up to a multiple of `m`. -/
def roundUp (x m : Nat) : Nat := ((x + m - 1) / m) * m

/-- Exact base-2 logarithm of a power of two, by search among the first 64. -/
def log2Exact (x : Nat) : Option Nat := (List.range 64).find? (fun k => x == 2 ^ k)

end Sys2Proof.Machine
end

