-- ==== Sys2Proof/Machine/Codes.lean ====
section
/-!
DEFINITION. Check codes: the CRC-64 of pass checksums (Silent-error chapter, R96), CRC-32 of frames, and the
Reed–Solomon code over GF(2^16) of a DRAM granule (R40–R42).
-/
namespace Sys2Proof.Machine

/-- One byte into a non-reflected CRC of `w` bits. [DEDUCED, log entry 16] -/
def crcByte {w : Nat} (poly crc : BitVec w) (b : Byte) : BitVec w :=
  (List.range 8).foldl (fun c _ => if c.msb then (c <<< 1) ^^^ poly else c <<< 1)
    (crc ^^^ (BitVec.ofNat w b.toNat <<< (w - 8)))

/-- CRC-64 with polynomial 0x42F0_E1EB_A9EA_3693, initial value and final XOR all ones. [DEDUCED, log entry 16] -/
def crc64 (bs : List Byte) : DWord :=
  ~~~ bs.foldl (crcByte 0x42F0E1EBA9EA3693#64) (BitVec.allOnes 64)

/-- CRC-32 with polynomial 0x04C1_1DB7, initial value and final XOR all ones (R382, R386, R488). [DEDUCED, log entry 16] -/
def crc32 (bs : List Byte) : Word := ~~~ bs.foldl (crcByte 0x04C11DB7#32) (BitVec.allOnes 32)

/-! ## Finite fields -/

/-- Product in GF(2^w) with field polynomial `poly`, bit j standing for x^j. -/
def gfMul (w poly a b : Nat) : Nat :=
  ((List.range w).foldl (fun (s : Nat × Nat) i =>
    let (acc, x) := s
    let acc' := if b.testBit i then acc ^^^ x else acc
    let y := 2 * x
    (acc', if y.testBit w then y ^^^ poly else y)) (0, a)).1

/-- Power of an element of GF(2^w), by repeated squaring over the low 16 bits of the exponent. -/
def gfPow (w poly a n : Nat) : Nat :=
  ((List.range 16).foldl (fun (s : Nat × Nat) i =>
    (if n.testBit i then gfMul w poly s.1 s.2 else s.1, gfMul w poly s.2 s.2)) (1, a)).1

/-! ## The code of a DRAM granule (R40–R42) -/

/-- GF(2^16), polynomial x^16 + x^12 + x^3 + x + 1. -/
def mul16 (a b : Nat) : Nat := gfMul 16 0x1100B a b
/-- α^n. -/
def alpha16 (n : Nat) : Nat := gfPow 16 0x1100B 2 n

/-- Syndrome j of a difference from a codeword: (position, symbol) pairs. -/
def syndrome16 (j : Nat) (errs : List (Nat × Nat)) : Nat :=
  errs.foldl (fun acc e => acc ^^^ mul16 e.2 (alpha16 (j * e.1))) 0
/-- The four syndromes. -/
def syndromes16 (errs : List (Nat × Nat)) : List Nat := (List.range 4).map (fun j => syndrome16 j errs)

/-- The poison marker: the pattern on the check symbols (R41). -/
def poisonPattern : List (Nat × Nat) := [(3, 0x2369), (2, 0xB7D2), (1, 0x4E1A), (0, 0x9C35)]

/-- What a decode finds (R42). -/
inductive Decoded where
  | clean
  | corrected (pos : Nat)
  | address
  | poison
  | bad
deriving DecidableEq, Repr

/-- The outcome of a read whose codeword differs from a clean one by `errs` (R42). -/
def decode16 (errs : List (Nat × Nat)) : Decoded :=
  let s := syndromes16 errs
  if s == [0, 0, 0, 0] then .clean
  else if s == syndromes16 poisonPattern then .poison
  else
    let e := s.headD 0
    match (List.range 38).find? (fun p => e != 0 && (List.range 4).all (fun j => s.getD j 0 == mul16 e (alpha16 (j * p)))) with
    | some p => if p < 36 then .corrected p else .address
    | none => .bad

/-- The 64 bytes of a granule with the differences of its data symbols applied: position 4 + i holds bytes 2i and 2i + 1. -/
def withErrs (bs : List Byte) (errs : List (Nat × Nat)) : List Byte :=
  errs.foldl (fun acc e =>
    if 4 ≤ e.1 ∧ e.1 < 36 then
      let i := 2 * (e.1 - 4)
      (acc.set i (acc.getD i 0#8 ^^^ BitVec.ofNat 8 e.2)).set (i + 1) (acc.getD (i + 1) 0#8 ^^^ BitVec.ofNat 8 (e.2 / 256))
    else acc) bs

/-- The bytes a decode gives (R42): those read, the one symbol it corrects put right. -/
def decodedData (bs : List Byte) (errs : List (Nat × Nat)) : List Byte :=
  match decode16 errs with
  | .corrected p => withErrs (withErrs bs errs) [(p, (syndromes16 errs).headD 0)]
  | _ => withErrs bs errs

/-! ## The code of a flit (R381): RS(140,132) over GF(2^8), polynomial x^8 + x^4 + x^3 + x^2 + 1, roots α^0 to α^7 -/

def mul8 (a b : Nat) : Nat := gfMul 8 0x11D a b
def alpha8 (n : Nat) : Nat := gfPow 8 0x11D 2 (n % 255)
/-- The inverse of a non-zero element. -/
def inv8 (a : Nat) : Nat := gfPow 8 0x11D a 254

/-- Value of a polynomial (coefficients from x^0) at a point. -/
def eval8 (p : List Nat) (x : Nat) : Nat := p.foldr (fun c acc => mul8 acc x ^^^ c) 0

/-- Sum of two polynomials. -/
def polyAdd (p q : List Nat) : List Nat :=
  (List.range (max p.length q.length)).map (fun i => p.getD i 0 ^^^ q.getD i 0)

/-- The generator's coefficients from x^7 down to x^0; that of x^8 is 1. -/
def gen8 : List Nat := (((List.range 8).foldl (fun (p : List Nat) j => polyAdd (0 :: p) (p.map (mul8 (alpha8 j)))) [1]).reverse).tail

/-- The eight parity bytes of a word, its first byte the highest power: what remains of it, times x^8, under the generator. -/
def parity8 (word : List Nat) : List Nat :=
  word.foldl (fun (r : List Nat) b =>
    let f := b ^^^ r.headD 0
    (List.range 8).map (fun i => r.getD (i + 1) 0 ^^^ mul8 f (gen8.getD i 0))) (List.replicate 8 0)

/-- Syndromes of a received word, its first byte the highest power. -/
def syndromes8 (word : List Nat) : List Nat := (List.range 8).map (fun j => eval8 word.reverse (alpha8 j))

/-- The error locator that fits the syndromes, by Berlekamp and Massey: locator, its last version, length, gap, last
discrepancy. -/
def locator8 (s : List Nat) : List Nat × Nat :=
  let st := (List.range 8).foldl (fun (st : List Nat × List Nat × Nat × Nat × Nat) n =>
    let (c, b, l, m, bd) := st
    let d := (List.range (l + 1)).foldl (fun acc i => acc ^^^ mul8 (c.getD i 0) (if i ≤ n then s.getD (n - i) 0 else 0)) 0
    if d = 0 then (c, b, l, m + 1, bd)
    else
      let k := mul8 d (inv8 bd)
      let c' := polyAdd c (List.replicate m 0 ++ b.map (mul8 k))
      if 2 * l ≤ n then (c', c, n + 1 - l, 1, d) else (c', b, l, m + 1, bd)) ([1], [1], 0, 1, 1)
  (st.1, st.2.2.1)

/-- Correct up to four byte errors of a 140-byte word; none where it cannot. [DEDUCED, log entry 84] -/
def correct8 (word : List Nat) : Option (List Nat) :=
  let s := syndromes8 word
  if s.all (· == 0) then some word
  else
    let (c, l) := locator8 s
    let places := (List.range word.length).filter (fun p => eval8 c (alpha8 (255 - p % 255)) == 0)
    if 4 < l ∨ places.length ≠ l then none
    else
      let omega := (List.range 8).map (fun i => (List.range (i + 1)).foldl (fun acc k => acc ^^^ mul8 (s.getD k 0) (c.getD (i - k) 0)) 0)
      let deriv := (List.range c.length).map (fun i => if i % 2 = 0 then c.getD (i + 1) 0 else 0)
      let fixed := places.foldl (fun (w : List Nat) p =>
        let xi := alpha8 (255 - p % 255)
        let e := mul8 (alpha8 p) (mul8 (eval8 omega xi) (inv8 (eval8 deriv xi)))
        let i := word.length - 1 - p
        w.set i (w.getD i 0 ^^^ e)) word
      if (syndromes8 fixed).all (· == 0) then some fixed else none

end Sys2Proof.Machine
end

