-- ==== Sys2Proof/Machine/Table.lean ====
section
/-!
DEFINITION. Sparse tables: a list of (key, entry) pairs in rising key order, with one default for absent keys.
The register files, cells, queues, partitions and every other numbered thing of the device are held in them, so
that the state after reset is small and equal contents are equal data.
-/
namespace Sys2Proof.Machine

/-- A sparse table from numbers to entries, keys strictly rising. -/
abbrev Table (α : Type) := List (Nat × α)

/-- The entry of a key, if listed. -/
def tabFind {α : Type} (t : Table α) (k : Nat) : Option α :=
  match t with
  | [] => none
  | (i, a) :: r => if i == k then some a else if k < i then none else tabFind r k

/-- The entry of a key; `d` where none is listed. -/
def tabGet {α : Type} (d : α) (t : Table α) (k : Nat) : α := (tabFind t k).getD d

/-- The table with the entry of `k` set to `a`. -/
def tabSet {α : Type} (t : Table α) (k : Nat) (a : α) : Table α :=
  match t with
  | [] => [(k, a)]
  | (i, b) :: r => if i == k then (k, a) :: r else if k < i then (k, a) :: (i, b) :: r else (i, b) :: tabSet r k a

/-- The table with the entry of `k` removed. -/
def tabErase {α : Type} (t : Table α) (k : Nat) : Table α :=
  match t with
  | [] => []
  | (i, b) :: r => if i == k then r else if k < i then (i, b) :: r else (i, b) :: tabErase r k

/-- The entry of `k` changed by `f`, from the default `d` where none is listed. -/
def tabMod {α : Type} (d : α) (t : Table α) (k : Nat) (f : α → α) : Table α := tabSet t k (f (tabGet d t k))

/-- Keys strictly rising: the canonical form of a table. -/
def tabSorted {α : Type} (t : Table α) : Bool :=
  match t with
  | [] => true
  | [_] => true
  | (i, _) :: (j, b) :: r => decide (i < j) && tabSorted ((j, b) :: r)

/-- The smallest key below `bound` that is not listed (a free slot), searched upwards from `start`. [DESIGN CHOICE, log entry 40] -/
def tabFree {α : Type} (t : Table α) (start bound : Nat) : Option Nat :=
  ((List.range (bound - start)).map (· + start)).find? (fun k => (tabFind t k).isNone)

/-- Replace the first element of a list that satisfies `p`. -/
def replaceFirst {α : Type} (p : α → Bool) (f : α → α) : List α → List α
  | [] => []
  | a :: r => if p a then f a :: r else a :: replaceFirst p f r

end Sys2Proof.Machine
end

