-- ==== Sys2Proof/Machine/Dict.lean ====
section
/-!
DEFINITION. The entries of the object dictionary: index, type, access, default and limits
(R50, R186, R213, R240, R269, R307, R329, R349, R374, R408, R435, R463, R486, R504, R523, R544; R469, R470).
-/
namespace Sys2Proof.Machine

/-- Access codes of dictionary entries (R12). -/
inductive DAccess where
  | ro | rw | rwp | wo | cmd
deriving DecidableEq, Repr

/-- Types of dictionary entries (R469). -/
inductive DType where
  | bool | u8 | u16 | u32 | u64 | i16 | i32 | f32 | str | blob
deriving DecidableEq, Repr

/-- Type code of R469. -/
def DType.code : DType → Nat
  | .bool => 1 | .u8 => 2 | .u16 => 3 | .u32 => 4 | .u64 => 5 | .i16 => 6 | .i32 => 7 | .f32 => 8 | .str => 9 | .blob => 10

/-- Width of a number in bits; 0 for strings and BLOBs. -/
def DType.bits : DType → Nat
  | .bool => 8 | .u8 => 8 | .u16 => 16 | .u32 => 32 | .u64 => 64 | .i16 => 16 | .i32 => 32 | .f32 => 32 | .str => 0 | .blob => 0

/-- Is a value of a type one that its encoding allows: a binary32 that is no NaN (R469)? -/
def DType.encodes (t : DType) (x : Nat) : Bool := t != .f32 || x / 2 ^ 23 % 256 != 255 || x % 2 ^ 23 == 0

/-- One dictionary entry, or a run of sub-indices of one kind. For a string or BLOB `hi` is its length, or its largest. -/
structure DictRow where
  index : Nat
  first : Nat
  last : Nat
  type : DType
  access : DAccess
  default : Nat
  lo : Nat
  hi : Nat
  /-- It takes effect at keeper start. -/
  atStart : Bool
  name : String
deriving DecidableEq, Repr

/-- The key of an entry in `State.dict`. -/
def dkey (index sub : Nat) : Nat := index * 256 + sub

/-- Entries of R50. -/
def dictMemory : List DictRow :=
  [⟨0x4001, 1, 4, .i16, .ro, 0, 0, 65535, false, "DRAM_TEMP"⟩,
   ⟨0x4002, 1, 4, .u8, .ro, 0, 0, 255, false, "DRAM_STAGE"⟩,
   ⟨0x4003, 0, 0, .u32, .rwp, 24, 4, 168, false, "SCRUB_PERIOD_H"⟩,
   ⟨0x4004, 0, 0, .u16, .rwp, 1024, 256, 1024, false, "ACT_THRESHOLD"⟩,
   ⟨0x4005, 1, 4, .u64, .ro, 0, 0, 18446744073709551615, false, "HOT_MINUTES"⟩,
   ⟨0x4005, 5, 5, .u16, .ro, 0, 0, 65535, false, "HOT_RATIO"⟩,
   ⟨0x4005, 6, 6, .u64, .ro, 0, 0, 18446744073709551615, false, "OPER_MINUTES"⟩,
   ⟨0x4006, 1, 4, .u64, .ro, 0, 0, 18446744073709551615, false, "CORRECTED"⟩,
   ⟨0x4007, 1, 4, .u64, .ro, 0, 0, 18446744073709551615, false, "UNCORRECTABLE"⟩,
   ⟨0x4008, 1, 4, .u32, .ro, 0, 0, 4294967295, false, "ADDR_ERRORS"⟩,
   ⟨0x4009, 1, 4, .u64, .ro, 0, 0, 18446744073709551615, false, "TARGETED_REFRESH"⟩,
   ⟨0x400A, 0, 0, .u32, .rwp, 600, 60, 3600, false, "RECENTRE_S"⟩,
   ⟨0x400B, 1, 4, .u8, .cmd, 0, 0, 255, false, "RECENTRE_NOW"⟩]

/-- Entries of R186. -/
def dictForagers : List DictRow :=
  [⟨0x4101, 1, 4, .u64, .ro, 0, 0, 18446744073709551615, false, "LOOKUPS"⟩,
   ⟨0x4102, 1, 4, .u64, .ro, 0, 0, 18446744073709551615, false, "FETCHES"⟩,
   ⟨0x4103, 1, 4, .u64, .ro, 0, 0, 18446744073709551615, false, "COLLAPSED"⟩,
   ⟨0x4104, 1, 4, .u64, .ro, 0, 0, 18446744073709551615, false, "OOR_EVENTS"⟩,
   ⟨0x4105, 1, 4, .u32, .ro, 0, 0, 4294967295, false, "BAD_HEADER"⟩,
   ⟨0x4106, 1, 4, .u32, .ro, 0, 0, 4294967295, false, "POISON_ROWS"⟩]

/-- Entries of R213. -/
def dictRowCache : List DictRow :=
  [⟨0x4201, 1, 4, .u64, .ro, 0, 0, 18446744073709551615, false, "RC_HITS"⟩,
   ⟨0x4202, 1, 4, .u64, .ro, 0, 0, 18446744073709551615, false, "RC_MISSES"⟩,
   ⟨0x4203, 1, 4, .u64, .ro, 0, 0, 18446744073709551615, false, "RC_BYPASSED"⟩,
   ⟨0x4204, 1, 4, .u64, .ro, 0, 0, 18446744073709551615, false, "RC_EVICTED"⟩,
   ⟨0x4205, 0, 0, .u32, .rwp, 1000, 100, 100000, false, "DECAY_US"⟩,
   ⟨0x4206, 1, 4, .u64, .ro, 0, 0, 18446744073709551615, false, "PATCH_ENTRIES"⟩,
   ⟨0x4207, 1, 4, .u64, .ro, 0, 0, 18446744073709551615, false, "PATCH_SAT"⟩,
   ⟨0x4208, 1, 4, .u64, .ro, 0, 0, 18446744073709551615, false, "WRITEBACKS"⟩,
   ⟨0x4209, 1, 4, .u32, .ro, 0, 0, 4294967295, false, "VER_MISMATCH"⟩,
   ⟨0x420A, 0, 0, .u32, .ro, 0, 0, 4294967295, false, "VERSIONS_RELEASED"⟩]

/-- Entries of R240. -/
def dictGroups : List DictRow :=
  [⟨0x5301, 0, 0, .u64, .ro, 0, 0, 18446744073709551615, false, "FANOUT_WAITS"⟩,
   ⟨0x5302, 0, 0, .u32, .rwp, 100, 10, 10000, false, "LOW_US"⟩,
   ⟨0x5303, 0, 0, .u32, .ro, 0, 0, 4294967295, false, "PEER_LOST"⟩,
   ⟨0x5304, 0, 0, .u32, .rwp, 100, 10, 10000, false, "FANOUT_TIMEOUT_US"⟩,
   ⟨0x5305, 0, 0, .u32, .rwp, 10000, 100, 1000000, false, "SPAN_TIMEOUT_US"⟩,
   ⟨0x5306, 0, 0, .u32, .rwp, 1000, 100, 100000, false, "WINDOW_TIMEOUT_US"⟩,
   ⟨0x5307, 0, 0, .u32, .ro, 0, 0, 4294967295, false, "SPAN_LOST"⟩,
   ⟨0x5308, 0, 0, .u64, .ro, 0, 0, 18446744073709551615, false, "WINDOW_REFUSED"⟩,
   ⟨0x5309, 0, 0, .u64, .ro, 0, 0, 18446744073709551615, false, "LATE_RETURNS"⟩,
   ⟨0x530A, 0, 0, .u64, .ro, 0, 0, 18446744073709551615, false, "EPOCH_ADVANCES"⟩]

/-- Entries of R269. -/
def dictPlacement : List DictRow :=
  [⟨0x6001, 1, 16, .u16, .ro, 0, 0, 65535, false, "PART_COMBS"⟩,
   ⟨0x6002, 1, 16, .u16, .ro, 0, 0, 65535, false, "PART_FRAMES"⟩,
   ⟨0x6003, 1, 16, .u8, .ro, 0, 0, 255, false, "PART_RC_SHARE"⟩,
   ⟨0x6004, 1, 16, .u8, .ro, 0, 0, 255, false, "PART_FORAGER_WT"⟩,
   ⟨0x6005, 1, 16, .u8, .ro, 0, 0, 255, false, "PART_STATE"⟩,
   ⟨0x6010, 0, 0, .u32, .rwp, 100, 10, 10000, false, "PLACE_PERIOD_MS"⟩,
   ⟨0x6011, 0, 0, .u16, .rwp, 1250, 1050, 4000, false, "HEAT_RATIO"⟩,
   ⟨0x6012, 0, 0, .bool, .rwp, 1, 0, 1, false, "MIGRATE_EN"⟩,
   ⟨0x6013, 0, 0, .u32, .rwp, 20, 1, 1000000, false, "PREEMPT_WAIT_US"⟩,
   ⟨0x6014, 0, 0, .u32, .rwp, 10, 1, 10000, false, "TEARDOWN_TIMEOUT_MS"⟩,
   ⟨0x6020, 1, 4, .u64, .ro, 0, 0, 18446744073709551615, false, "STACK_HEAT"⟩,
   ⟨0x6021, 0, 0, .u64, .ro, 0, 0, 18446744073709551615, false, "MIGRATIONS"⟩,
   ⟨0x6022, 0, 0, .u64, .ro, 0, 0, 18446744073709551615, false, "PREEMPTIONS"⟩,
   ⟨0x6023, 0, 0, .u64, .ro, 0, 0, 18446744073709551615, false, "RESTORES"⟩,
   ⟨0x6024, 0, 0, .u32, .ro, 0, 0, 4294967295, false, "SHAPE_REFUSED"⟩,
   ⟨0x6025, 0, 0, .u64, .ro, 0, 0, 18446744073709551615, false, "NOT_PREEMPTABLE"⟩,
   ⟨0x6026, 0, 0, .u64, .ro, 0, 0, 18446744073709551615, false, "RESIDENT_HITS"⟩,
   ⟨0x6027, 0, 0, .u64, .ro, 0, 0, 18446744073709551615, false, "RESIDENT_LOADS"⟩,
   ⟨0x6028, 0, 0, .u32, .ro, 0, 0, 4294967295, false, "PARTITION_RESETS"⟩]

/-- Entries of R307. -/
def dictQueues : List DictRow :=
  [⟨0xA101, 0, 0, .u64, .ro, 0, 0, 18446744073709551615, false, "DB_IGNORED"⟩,
   ⟨0xA102, 0, 0, .u64, .ro, 0, 0, 18446744073709551615, false, "HEADER_FAULTS"⟩,
   ⟨0xA103, 0, 0, .u64, .ro, 0, 0, 18446744073709551615, false, "TIMEOUTS"⟩,
   ⟨0xA104, 0, 0, .u32, .ro, 0, 0, 4294967295, false, "PARKED_LOST"⟩,
   ⟨0xA105, 0, 0, .u32, .ro, 0, 0, 4294967295, false, "NOTICES_LOST"⟩,
   ⟨0xA106, 0, 0, .u16, .ro, 0, 0, 65535, false, "QUEUES_ACTIVE"⟩,
   ⟨0xA107, 0, 0, .u64, .ro, 0, 0, 18446744073709551615, false, "ADMIN_COMMANDS"⟩]

/-- Entries of R329. -/
def dictStreams : List DictRow :=
  [⟨0x6030, 0, 0, .u64, .ro, 0, 0, 18446744073709551615, false, "STREAM_HALTS"⟩,
   ⟨0x6031, 0, 0, .u64, .ro, 0, 0, 18446744073709551615, false, "REARMS_HELD"⟩,
   ⟨0x6032, 0, 0, .u32, .ro, 0, 0, 4294967295, false, "REARM_CONFLICTS"⟩,
   ⟨0x6033, 0, 0, .u64, .ro, 0, 0, 18446744073709551615, false, "STREAM_POISON"⟩]

/-- Entries of R349. -/
def dictTranslation : List DictRow :=
  [⟨0x6040, 0, 0, .u64, .ro, 0, 0, 18446744073709551615, false, "FAULTS_RESUMABLE"⟩,
   ⟨0x6041, 0, 0, .u64, .ro, 0, 0, 18446744073709551615, false, "FAULTS_FATAL"⟩,
   ⟨0x6042, 0, 0, .u64, .ro, 0, 0, 18446744073709551615, false, "FAULT_WAITS"⟩,
   ⟨0x6043, 0, 0, .u64, .ro, 0, 0, 18446744073709551615, false, "INVALIDATIONS"⟩,
   ⟨0x6044, 0, 0, .u32, .ro, 0, 0, 4294967295, false, "PT_STORE_USED"⟩]

/-- Entries of R374. -/
def dictHost : List DictRow :=
  [⟨0xA001, 0, 0, .u32, .ro, 0, 0, 4294967295, false, "LINK_STATE"⟩,
   ⟨0xA002, 0, 0, .u64, .ro, 0, 0, 18446744073709551615, false, "RETRAINS"⟩,
   ⟨0xA003, 0, 0, .u32, .ro, 0, 0, 4294967295, false, "HOST_RESETS"⟩,
   ⟨0xA004, 0, 0, .u64, .ro, 0, 0, 18446744073709551615, false, "HOST_WRITES_DISCARDED"⟩,
   ⟨0xA005, 0, 0, .u64, .ro, 0, 0, 18446744073709551615, false, "STALE_WRITES"⟩,
   ⟨0xA006, 0, 0, .u32, .rwp, 100, 1, 10000, false, "DRAIN_MS"⟩,
   ⟨0xA007, 0, 0, .u64, .ro, 0, 0, 18446744073709551615, false, "WINDOW_DROPPED"⟩,
   ⟨0xA008, 0, 0, .u32, .ro, 0, 0, 4294967295, false, "SLOT_REFUSED"⟩,
   ⟨0xA009, 0, 0, .u64, .ro, 0, 0, 18446744073709551615, false, "POISON_TO_HOST"⟩,
   ⟨0xA00A, 0, 0, .u64, .ro, 0, 0, 18446744073709551615, false, "POISON_FROM_HOST"⟩]

/-- Entries of R408. -/
def dictFabric1 : List DictRow :=
  [⟨0x5001, 0, 0, .u32, .rwp, 0, 0, 16777214, true, "FABRIC_ADDR"⟩,
   ⟨0x5002, 1, 4, .u8, .rwp, 0, 0, 1, false, "PAIR_MODE"⟩,
   ⟨0x5003, 1, 8, .bool, .rwp, 0, 0, 1, false, "PORT_DATELINE"⟩,
   ⟨0x5004, 1, 8, .u8, .rwp, 0, 0, 2, false, "ETH_PHY"⟩,
   ⟨0x5005, 0, 0, .u8, .rwp, 255, 0, 255, false, "WAGGLE_PORTS"⟩,
   ⟨0x5006, 0, 0, .u8, .rwp, 64, 2, 255, false, "FRAME_TTL"⟩,
   ⟨0x5007, 1, 8, .u8, .cmd, 0, 0, 255, false, "PORT_RESTART"⟩,
   ⟨0x5010, 0, 255, .u8, .rwp, 0, 0, 255, false, "ROUTE_T0"⟩,
   ⟨0x5011, 0, 255, .u8, .rwp, 0, 0, 255, false, "ROUTE_T1"⟩,
   ⟨0x5012, 0, 255, .u8, .rwp, 0, 0, 255, false, "ROUTE_T2"⟩,
   ⟨0x5020, 1, 8, .u64, .ro, 0, 0, 18446744073709551615, false, "FLIT_RETRIES"⟩,
   ⟨0x5021, 1, 8, .u32, .ro, 0, 0, 4294967295, false, "NARROWINGS"⟩,
   ⟨0x5022, 0, 0, .u64, .ro, 0, 0, 18446744073709551615, false, "UNREACHABLE"⟩,
   ⟨0x5023, 0, 0, .u64, .ro, 0, 0, 18446744073709551615, false, "TTL_DROPS"⟩,
   ⟨0x5024, 0, 0, .u64, .ro, 0, 0, 18446744073709551615, false, "LOOP_DROPS"⟩,
   ⟨0x5025, 1, 8, .u64, .ro, 0, 0, 18446744073709551615, false, "LINK_DROPS"⟩,
   ⟨0x5026, 0, 0, .u64, .ro, 0, 0, 18446744073709551615, false, "E2E_ERRORS"⟩,
   ⟨0x5027, 0, 0, .u64, .ro, 0, 0, 18446744073709551615, false, "WAGGLE_DROPS"⟩,
   ⟨0x5101, 1, 8, .blob, .rwp, 0, 0, 16, false, "PORT_IPV6"⟩,
   ⟨0x5102, 1, 8, .u32, .rwp, 0, 0, 4294967295, false, "PORT_IPV4"⟩]

/-- Entries of R408. -/
def dictFabric2 : List DictRow :=
  [⟨0x5103, 1, 8, .blob, .ro, 0, 0, 6, false, "PORT_MAC"⟩,
   ⟨0x5104, 1, 8, .u16, .rwp, 65535, 0, 65535, false, "PORT_VLAN"⟩,
   ⟨0x5110, 0, 0, .blob, .cmd, 0, 0, 64, false, "QP_CREATE"⟩,
   ⟨0x5111, 0, 0, .u16, .cmd, 0, 0, 65535, false, "QP_DESTROY"⟩,
   ⟨0x5112, 0, 0, .u32, .rwp, 50, 1, 10000, false, "CNP_GAP_US"⟩,
   ⟨0x5113, 0, 0, .u8, .rwp, 64, 1, 255, false, "RATE_CUT"⟩,
   ⟨0x5114, 0, 0, .u32, .rwp, 1000, 100, 800000, false, "RATE_MIN"⟩,
   ⟨0x5115, 0, 0, .u8, .rwp, 14, 0, 31, false, "RNR_TIMER"⟩,
   ⟨0x5116, 0, 0, .u32, .rwp, 55, 1, 10000, false, "RECOVER_US"⟩,
   ⟨0x5117, 0, 0, .u32, .rwp, 5000, 100, 100000, false, "RATE_STEP"⟩,
   ⟨0x5120, 0, 0, .u64, .ro, 0, 0, 18446744073709551615, false, "ROCE_NAKS"⟩,
   ⟨0x5121, 0, 0, .u64, .ro, 0, 0, 18446744073709551615, false, "ETH_DROPPED"⟩,
   ⟨0x5122, 0, 0, .u64, .ro, 0, 0, 18446744073709551615, false, "CNP_SENT"⟩,
   ⟨0x5123, 0, 0, .u64, .ro, 0, 0, 18446744073709551615, false, "CNP_RECEIVED"⟩,
   ⟨0x5124, 0, 0, .u64, .ro, 0, 0, 18446744073709551615, false, "POISON_TO_NET"⟩]

/-- Entries of R435. -/
def dictIntegrity1 : List DictRow :=
  [⟨0x4301, 0, 0, .blob, .cmd, 0, 0, 128, false, "REPLICA_DEFINE"⟩,
   ⟨0x4302, 0, 0, .blob, .cmd, 0, 0, 16, false, "REPLICA_VERSION"⟩,
   ⟨0x4303, 0, 0, .u32, .cmd, 0, 0, 4294967295, false, "REPLICA_REMOVE"⟩,
   ⟨0x4304, 0, 0, .u32, .cmd, 0, 0, 4294967295, false, "REPLICA_CLEAR"⟩,
   ⟨0x4305, 0, 0, .u16, .rwp, 10, 1, 1440, false, "REPLICA_MINUTES"⟩,
   ⟨0x4306, 0, 0, .u32, .rwp, 20000, 1000, 100000, false, "REPAIR_RATE"⟩,
   ⟨0x4307, 0, 0, .u32, .ro, 0, 0, 4294967295, false, "REPLICA_DIVERGENCES"⟩,
   ⟨0x4308, 0, 0, .u32, .ro, 0, 0, 4294967295, false, "REPLICA_REPAIRS"⟩,
   ⟨0x4309, 0, 0, .u32, .ro, 0, 0, 4294967295, false, "REPLICA_SILENT"⟩,
   ⟨0x6050, 0, 0, .u8, .rwp, 10, 0, 10, false, "TASTER_LOG2"⟩,
   ⟨0x6051, 0, 0, .u64, .ro, 0, 0, 18446744073709551615, false, "TASTER_CHECKS"⟩,
   ⟨0x6052, 0, 0, .u64, .ro, 0, 0, 18446744073709551615, false, "TASTER_SKIPPED"⟩,
   ⟨0x6053, 0, 0, .u64, .ro, 0, 0, 18446744073709551615, false, "TASTER_MISMATCHES"⟩,
   ⟨0x6054, 0, 0, .u32, .ro, 0, 0, 4294967295, false, "TASTER_UNDECIDED"⟩,
   ⟨0x6055, 0, 0, .u8, .rwp, 2, 1, 7, false, "QUARANTINE_STRIKES"⟩,
   ⟨0x6056, 0, 0, .u16, .rwp, 24, 1, 720, false, "QUARANTINE_WINDOW_H"⟩,
   ⟨0x6057, 0, 0, .blob, .rwp, 0, 0, 16, false, "QUARANTINED"⟩,
   ⟨0x6058, 0, 0, .u8, .cmd, 0, 0, 255, false, "DEVICE_RECOVER"⟩,
   ⟨0x6060, 0, 0, .u64, .ro, 0, 0, 18446744073709551615, false, "POISON_CONSUMED_LAUNCHES"⟩,
   ⟨0x6061, 0, 0, .u32, .ro, 0, 0, 4294967295, false, "PARTITION_ERRORS"⟩]

/-- Entries of R435. -/
def dictIntegrity2 : List DictRow :=
  [⟨0x6062, 0, 0, .u32, .ro, 0, 0, 4294967295, false, "DEVICE_FATALS"⟩]

/-- Entries of R463. -/
def dictPower1 : List DictRow :=
  [⟨0x2001, 1, 8, .u16, .ro, 0, 0, 65535, false, "RAIL_MV"⟩,
   ⟨0x2002, 1, 8, .u32, .ro, 0, 0, 4294967295, false, "RAIL_MW"⟩,
   ⟨0x2003, 0, 0, .u32, .ro, 0, 0, 4294967295, false, "PKG_POWER_MW"⟩,
   ⟨0x2004, 0, 0, .u16, .rwp, 950, 600, 950, false, "POWER_CAP_W"⟩,
   ⟨0x2005, 0, 0, .u8, .ro, 0, 0, 255, false, "SEQ_MODE"⟩,
   ⟨0x2006, 0, 0, .u32, .ro, 0, 0, 4294967295, false, "SEQ_FAULT"⟩,
   ⟨0x2007, 0, 0, .u8, .cmd, 0, 0, 255, false, "POWER_UP"⟩,
   ⟨0x2008, 0, 0, .u8, .cmd, 0, 0, 255, false, "POWER_DOWN"⟩,
   ⟨0x2009, 1, 8, .u16, .rwp, 65535, 0, 65535, false, "PMB_ADDR"⟩,
   ⟨0x200A, 0, 0, .u16, .rwp, 200, 50, 400, false, "OTHER_RAILS_W"⟩,
   ⟨0x200B, 0, 0, .u16, .rwp, 400, 100, 400, false, "PMB_KHZ"⟩,
   ⟨0x200C, 0, 0, .u64, .ro, 0, 0, 18446744073709551615, false, "CAP_LIMITED_MS"⟩,
   ⟨0x200D, 0, 0, .u32, .ro, 0, 0, 4294967295, false, "SUPPLY_TRIPS"⟩,
   ⟨0x3001, 1, 16, .i16, .ro, 0, 0, 65535, false, "COMB_TEMP"⟩,
   ⟨0x3002, 1, 16, .u8, .ro, 1, 0, 255, false, "COMB_POINT"⟩,
   ⟨0x3003, 1, 16, .u8, .rwp, 0, 0, 7, false, "COMB_CEILING"⟩,
   ⟨0x3004, 0, 0, .i16, .ro, 0, 0, 65535, false, "TJ_MAX"⟩,
   ⟨0x3005, 0, 0, .u32, .ro, 0, 0, 4294967295, false, "THERMTRIPS"⟩,
   ⟨0x3006, 0, 0, .u8, .ro, 0, 0, 255, false, "REFCLK_STATE"⟩,
   ⟨0x3007, 1, 16, .u8, .ro, 0, 0, 255, false, "GUARD_MV"⟩]

/-- Entries of R463. -/
def dictPower2 : List DictRow :=
  [⟨0x3008, 0, 0, .u8, .rwp, 0, 0, 255, false, "ALERT_MASK"⟩,
   ⟨0x9001, 1, 14, .u8, .ro, 0, 0, 255, false, "TASK_STATE"⟩,
   ⟨0x9002, 1, 14, .u64, .ro, 0, 0, 18446744073709551615, false, "TASK_RUNS"⟩,
   ⟨0x9003, 1, 14, .u32, .ro, 0, 0, 4294967295, false, "TASK_OVERDUE"⟩,
   ⟨0x9004, 1, 14, .bool, .rwp, 1, 0, 1, false, "TASK_ENABLE"⟩,
   ⟨0x9010, 0, 0, .u32, .rwp, 60, 10, 3600, false, "TUNE_S"⟩,
   ⟨0x9011, 1, 8, .u8, .cmd, 0, 0, 255, false, "TUNE_NOW"⟩,
   ⟨0x9012, 1, 16, .u8, .cmd, 0, 0, 255, false, "GUARD_NOW"⟩,
   ⟨0x9020, 1, 16, .u8, .cmd, 0, 0, 255, false, "PART_SELFTEST"⟩,
   ⟨0x9021, 1, 16, .u32, .ro, 0, 0, 4294967295, false, "SELFTEST_RESULT"⟩]

/-- Entries of R486. -/
def dictManagement1 : List DictRow :=
  [⟨0x1001, 0, 0, .str, .ro, 0, 0, 6, false, "VENDOR"⟩,
   ⟨0x1002, 0, 0, .str, .ro, 0, 0, 6, false, "PRODUCT"⟩,
   ⟨0x1003, 0, 0, .str, .ro, 0, 0, 16, false, "ORDERING_CODE"⟩,
   ⟨0x1004, 0, 0, .str, .ro, 0, 0, 2, false, "STEPPING"⟩,
   ⟨0x1005, 0, 0, .str, .ro, 0, 0, 16, false, "SERIAL"⟩,
   ⟨0x1006, 0, 0, .u32, .ro, 2080, 0, 4294967295, false, "MEMBER_CODE"⟩,
   ⟨0x1007, 0, 0, .blob, .ro, 0, 0, 6, false, "KEEPER_MAC"⟩,
   ⟨0x1008, 0, 0, .u64, .ro, 0, 0, 18446744073709551615, false, "KEEPER_UPTIME_MS"⟩,
   ⟨0x1009, 0, 0, .u32, .ro, 0, 0, 4294967295, false, "KEEPER_RESTARTS"⟩,
   ⟨0x100A, 0, 0, .str, .rwp, 0, 0, 64, false, "ASSET_TAG"⟩,
   ⟨0x100B, 0, 0, .u8, .cmd, 0, 0, 255, false, "KEEPER_RESTART"⟩,
   ⟨0x100C, 0, 0, .u8, .cmd, 0, 0, 255, false, "RESTORE_DEFAULTS"⟩,
   ⟨0x1010, 0, 0, .u8, .rwp, 1, 0, 239, true, "PLCA_ID_OFFSET"⟩,
   ⟨0x1011, 0, 0, .u8, .rwp, 17, 2, 255, true, "PLCA_NODES"⟩,
   ⟨0x1012, 0, 0, .u8, .rwp, 24, 1, 255, true, "PLCA_TO_TIMER"⟩,
   ⟨0x1013, 0, 0, .u8, .ro, 0, 0, 255, false, "NODE_ID"⟩,
   ⟨0x1014, 0, 0, .u8, .ro, 0, 0, 255, false, "FIELD_STATE"⟩,
   ⟨0x1015, 0, 0, .u16, .rwp, 49820, 1024, 65535, true, "KDP_PORT"⟩,
   ⟨0x1016, 0, 0, .blob, .rwp, 0, 0, 16, false, "EMCY_GROUP"⟩,
   ⟨0x1017, 1, 4, .blob, .rwp, 0, 0, 18, false, "EMCY_SUBSCRIBER"⟩]

/-- Entries of R486. -/
def dictManagement2 : List DictRow :=
  [⟨0x1018, 0, 0, .u16, .rwp, 300, 30, 3600, false, "SESSION_IDLE_S"⟩,
   ⟨0x1019, 0, 0, .u8, .ro, 0, 0, 255, false, "SESSIONS"⟩,
   ⟨0x101A, 0, 0, .u32, .ro, 0, 0, 4294967295, false, "AUTH_FAILURES"⟩,
   ⟨0x101B, 0, 0, .u32, .ro, 0, 0, 4294967295, false, "KDP_DROPPED"⟩,
   ⟨0x101C, 0, 0, .u32, .ro, 0, 0, 4294967295, false, "MB_IGNORED"⟩,
   ⟨0x1020, 0, 0, .u32, .ro, 0, 0, 4294967295, false, "EVENT_SEQ"⟩,
   ⟨0x1021, 0, 0, .blob, .ro, 0, 0, 32768, false, "EVENT_LOG"⟩,
   ⟨0x1022, 0, 0, .blob, .ro, 0, 0, 2048, false, "FATAL_LOG"⟩,
   ⟨0x1023, 0, 0, .u32, .ro, 0, 0, 4294967295, false, "EVENTS_LOST"⟩,
   ⟨0x1024, 0, 0, .u32, .ro, 0, 0, 4294967295, false, "EMCY_SUPPRESSED"⟩]

/-- Entries of R504. -/
def dictSecurity1 : List DictRow :=
  [⟨0x7001, 0, 0, .u32, .ro, 0, 0, 4294967295, false, "BOOT_STATUS"⟩,
   ⟨0x7002, 1, 3, .u32, .ro, 0, 0, 4294967295, false, "IMAGE_VERSION"⟩,
   ⟨0x7003, 1, 3, .u8, .ro, 0, 0, 255, false, "IMAGE_SVN"⟩,
   ⟨0x7004, 1, 3, .u8, .ro, 0, 0, 255, false, "FUSE_SVN"⟩,
   ⟨0x7005, 0, 0, .u8, .ro, 0, 0, 255, false, "REVOKED"⟩,
   ⟨0x7006, 0, 0, .blob, .ro, 0, 0, 64, false, "BOOT_RECORD"⟩,
   ⟨0x7007, 1, 4, .blob, .ro, 0, 0, 48, false, "ROM_KEY_HASH"⟩,
   ⟨0x7010, 0, 0, .u8, .cmd, 0, 1, 3, false, "UPDATE_BEGIN"⟩,
   ⟨0x7011, 0, 0, .blob, .wo, 0, 0, 1048576, false, "UPDATE_DATA"⟩,
   ⟨0x7012, 0, 0, .u8, .cmd, 0, 0, 255, false, "UPDATE_VERIFY"⟩,
   ⟨0x7013, 0, 0, .u8, .cmd, 0, 0, 255, false, "UPDATE_ACTIVATE"⟩,
   ⟨0x7014, 0, 0, .u8, .cmd, 0, 0, 255, false, "UPDATE_COMMIT"⟩,
   ⟨0x7015, 0, 0, .u8, .cmd, 0, 0, 255, false, "UPDATE_ABORT"⟩,
   ⟨0x7016, 0, 0, .u8, .ro, 0, 0, 255, false, "UPDATE_STATE"⟩,
   ⟨0x7020, 1, 8, .blob, .rwp, 0, 0, 432, false, "KEY_SLOT"⟩,
   ⟨0x7021, 0, 0, .u8, .cmd, 0, 0, 255, false, "OWNER_RELEASE"⟩,
   ⟨0x7030, 1, 2, .blob, .cmd, 0, 0, 48, false, "ATTEST_NONCE"⟩,
   ⟨0x7031, 1, 2, .blob, .ro, 0, 0, 17248, false, "ATTEST_REPORT"⟩,
   ⟨0x7032, 1, 2, .blob, .ro, 0, 0, 32768, false, "DEVID_CERT"⟩,
   ⟨0x7033, 1, 2, .blob, .ro, 0, 0, 32768, false, "ALIAS_CERT"⟩]

/-- Entries of R504. -/
def dictSecurity2 : List DictRow :=
  [⟨0x7034, 1, 2, .blob, .ro, 0, 0, 32768, false, "CA_CERT"⟩,
   ⟨0x7035, 1, 2, .blob, .ro, 0, 0, 32768, false, "DEVID_E_CERT"⟩,
   ⟨0x7036, 0, 0, .str, .ro, 0, 0, 256, false, "CERT_EXT_OID"⟩,
   ⟨0x7040, 0, 0, .u32, .ro, 0, 0, 4294967295, false, "IMAGE_REJECTS"⟩]

/-- Entries of R523. -/
def dictTelemetry : List DictRow :=
  [⟨0x8001, 0, 0, .blob, .ro, 0, 0, 520, false, "CTR_ALWAYS"⟩,
   ⟨0x8002, 0, 0, .bool, .rwp, 0, 0, 1, false, "CTR_FULL_EN"⟩,
   ⟨0x8003, 0, 0, .u8, .cmd, 0, 0, 255, false, "CTR_CLEAR"⟩,
   ⟨0x8004, 0, 0, .u8, .cmd, 0, 0, 255, false, "CTR_RELEASE"⟩,
   ⟨0x8005, 0, 0, .u8, .rw, 0, 0, 15, false, "CTR_WIN_PART"⟩,
   ⟨0x8010, 0, 0, .u32, .cmd, 0, 0, 4294967295, false, "TRIGGER_NOW"⟩,
   ⟨0x8011, 0, 0, .u8, .rwp, 15, 0, 255, false, "TRIG_SOURCES"⟩,
   ⟨0x8012, 0, 0, .u8, .rwp, 0, 0, 255, false, "TRIG_OUT"⟩,
   ⟨0x8013, 0, 0, .u8, .ro, 0, 0, 255, false, "FREEZE_STATE"⟩,
   ⟨0x8014, 0, 0, .blob, .ro, 0, 0, 1304, false, "CUT_STAMPS"⟩,
   ⟨0x8015, 0, 0, .u32, .ro, 0, 0, 4294967295, false, "TRIGGERS_IGNORED"⟩,
   ⟨0x8016, 0, 0, .blob, .ro, 0, 0, 128, false, "PORT_SNAPSHOT"⟩,
   ⟨0x8020, 0, 0, .u8, .cmd, 0, 0, 255, false, "TRACE_CTRL"⟩,
   ⟨0x8021, 0, 0, .u32, .rwp, 1030, 0, 4294967295, false, "TRACE_KINDS"⟩,
   ⟨0x8022, 0, 0, .u8, .rwp, 50, 0, 100, false, "TRACE_PRE_PCT"⟩,
   ⟨0x8023, 1, 16, .blob, .rw, 0, 0, 40, false, "TRACE_MATCH"⟩,
   ⟨0x8024, 0, 0, .blob, .ro, 0, 0, 4096, false, "TRACE_HEADER"⟩,
   ⟨0x8025, 1, 16, .blob, .ro, 0, 0, 1048576, false, "TRACE_DATA"⟩,
   ⟨0x8026, 0, 0, .u64, .ro, 0, 0, 18446744073709551615, false, "TRACE_LOST"⟩,
   ⟨0x8030, 1, 11, .blob, .ro, 0, 0, 0, false, "CTR_GROUP"⟩]

/-- Entries of R544. -/
def dictPins : List DictRow :=
  [⟨0x2010, 0, 0, .blob, .ro, 0, 0, 6, false, "PIN_FAULT_MAP"⟩,
   ⟨0x2011, 0, 0, .u32, .ro, 0, 0, 4294967295, false, "PIN_FAULTS"⟩,
   ⟨0x2012, 0, 0, .u8, .ro, 0, 0, 255, false, "STRAPS"⟩]

/-- Every entry. -/
def dictRows : List DictRow :=
  dictMemory ++ dictForagers ++ dictRowCache ++ dictGroups ++ dictPlacement ++ dictQueues ++ dictStreams ++ dictTranslation ++ dictHost ++ dictFabric1 ++ dictFabric2 ++ dictIntegrity1 ++ dictIntegrity2 ++ dictPower1 ++ dictPower2 ++ dictManagement1 ++ dictManagement2 ++ dictSecurity1 ++ dictSecurity2 ++ dictTelemetry ++ dictPins

/-- The row of an entry. -/
def dictRow (index sub : Nat) : Option DictRow :=
  dictRows.find? (fun r => r.index == index && decide (r.first ≤ sub) && decide (sub ≤ r.last))

/-- The value an entry has before it is written or counted. -/
def dictDefault (key : Nat) : Nat :=
  match dictRow (key / 256) (key % 256) with
  | some r => r.default
  | none => 0

/-- The width of an entry's type; 64 where it is not listed. -/
def dictBits (key : Nat) : Nat :=
  match dictRow (key / 256) (key % 256) with
  | some r => r.type.bits
  | none => 64

/-- The always-on counter that counts with a dictionary count (R506), if any. -/
def alwaysOf (index : Nat) : Option Nat :=
  match index with
  | 0x4101 => some 41 | 0x4006 => some 44 | 0x4007 => some 45 | 0x6060 => some 46 | 0x5020 => some 47 | 0x5026 => some 48
  | 0xA002 => some 49 | 0x6051 => some 50 | 0x6053 => some 51 | 0x6040 => some 53 | 0x8026 => some 54 | 0xA102 => some 59
  | 0x9003 => some 63 | _ => none

/-- The counter of the full set that counts with a dictionary count (R507), if any. -/
def fullOf (index sub : Nat) : Option Nat :=
  match index with
  | 0x4103 => some (0x40000 + 0x400 * (sub - 1) + 8 * 55) | 0x4201 => some (0x40000 + 0x400 * (sub - 1) + 8 * 2)
  | 0x4202 => some (0x40000 + 0x400 * (sub - 1) + 8 * 3) | 0x4203 => some (0x40000 + 0x400 * (sub - 1) + 8 * 4)
  | 0xA002 => some (0x41100 + 8 * 6) | 0xA004 => some (0x41100 + 8 * 7) | _ => none

/-- Counters of cycles and of traffic that the model does not follow: their values are open (R506, R507).
[DESIGN CHOICE, log entry 10; DESIGN CHOICE, log entry 78] -/
def timedCounter (off : Nat) : Bool :=
  let i := fun (base stride : Nat) => (off - base) % stride / 8
  if off < 0x200 then (decide (16 ≤ off / 8) && decide (off / 8 ≤ 19)) || (decide (36 ≤ off / 8) && decide (off / 8 ≤ 40))
  else if off < 0x10000 then false
  else if off < 0x20000 then [0, 1, 2, 3, 4, 6, 7, 10, 11, 12, 16, 17, 20].contains (i 0x10000 0x200)
  else if off < 0x24000 then decide (i 0x20000 0x400 < 16) || i 0x20000 0x400 == 21 || (decide (30 ≤ i 0x20000 0x400) && decide (i 0x20000 0x400 ≤ 45))
  else if off < 0x40000 then i 0x30000 0x40 == 7
  else if off < 0x41000 then
    i 0x40000 0x400 == 54
  else if off < 0x41020 then true
  else if off < 0x41100 then false
  else if off < 0x41110 then true
  else if off < 0x43000 then false
  else if off < 0x44000 then i 0x43000 0x100 == 2
  else if off < 0x45000 then false
  else decide (0x45000 + 8 * 14 ≤ off) && decide (off < 0x45000 + 8 * 28)

end Sys2Proof.Machine
end

