-- ==== Sys2Proof/Machine/DebugState.lean ====
section
/-!
DEFINITION. The state types of counters, the global trigger and the trace (R505–R523).
-/
namespace Sys2Proof.Machine

/-- Trace states (R515). -/
inductive TraceMode where
  | off | armed | post | stopped
deriving DecidableEq, Repr

/-- When a set of counters counts: the spans in which it has, in the numbering of the free values, and the start of the one under way
(R506, R507, R511). -/
structure Counting where
  spans : List (Nat × Nat)
  since : Option Nat
deriving DecidableEq, Repr

/-- A set that has never counted. -/
def Counting.off : Counting := { spans := [], since := none }

/-- Counters' freeze state, the trigger and the trace. -/
structure Debug where
  /-- When the always-on and the full set count. -/
  always : Counting
  full : Counting
  frozen : Bool
  source : Nat
  island : Nat
  id : Nat
  trigTime : DWord
  /-- Cut stamps by island. -/
  stamps : Table DWord
  /-- Port snapshot: retry-buffer and receive-buffer flits by port. -/
  ports : Table (Nat × Nat)
  /-- Arrival stamp of the last TRIGGER waggle: port, counter value, `STAMP`, `HOPS`. -/
  arrival : Option (Nat × Nat × Nat × Nat)
  /-- `DBG_TRIG_N` is driven low by this device until this time (R510). -/
  driveUntil : DWord
  mode : TraceMode
  prePct : Nat
  written : Nat
  next : Nat
  trigIndex : Option Nat
  lost : Nat
  tail : Nat
  lostComb : Table Nat
  /-- Records still to be written after the TRIGGER record. -/
  left : Nat
  /-- Staged records of each comb, and records lost since space last returned. -/
  staged : Table (List (List Byte))
  lostPending : Table Nat
  /-- The always-on copy: sample time and values (R506). -/
  copyTime : DWord
  copy : Table Nat
deriving DecidableEq, Repr

/-- Counting, with no trace. [DESIGN CHOICE, log entry 2] -/
def Debug.reset : Debug :=
  { always := Counting.off, full := Counting.off, frozen := false, source := 0, island := 0, id := 0, trigTime := 0#64, stamps := [], ports := [], arrival := none,
    driveUntil := 0#64, mode := .off, prePct := 0, written := 0, next := 0, trigIndex := none, lost := 0,
    tail := 0, lostComb := [], left := 0, staged := [], lostPending := [], copyTime := 0#64, copy := [] }

end Sys2Proof.Machine
end

