-- ==== Sys2Proof/Config.lean ====
section
/-!
DEFINITION. What the manual leaves open, as constants without a body: nothing in Lean can evaluate them, so a claim
about them holds whatever they are. `State.free` counts how many have been drawn.
-/
namespace Sys2Proof

/-- A byte whose contents the manual leaves undefined: the `k`-th undefined memory, address `a` (R51, R121). [DESIGN CHOICE, log entry 7] -/
opaque Config.freeByte (k a : Nat) : BitVec 8
/-- The `k`-th undefined 64-bit value. [DESIGN CHOICE, log entry 7] -/
opaque Config.freeWord (k : Nat) : BitVec 64
/-- The `k`-th undefined number (a random draw of the security engine, a choice the manual leaves to the device).
[DESIGN CHOICE, log entry 7] -/
opaque Config.freeNat (k : Nat) : Nat
/-- What the factory wrote: byte `i` of dictionary entry `index`.`sub` (serial number, addresses, certificates, R486,
R504). [DESIGN CHOICE, log entry 121] -/
opaque Config.factory (index sub i : Nat) : BitVec 8
/-- Length of a factory entry that the manual bounds but does not fix (R504). [DESIGN CHOICE, log entry 121] -/
opaque Config.factoryLen (index sub : Nat) : Nat
/-- Byte `i` of the Alias certificate `sub` for a keeper measurement (R497, R504). [DESIGN CHOICE, log entry 121] -/
opaque Config.aliasByte (measurement sub i : Nat) : BitVec 8

/-- By how much the counter at offset `off` of counter space rises at the `k`-th free value, for counters of cycles and of traffic that
the model does not follow (R505–R507). [DESIGN CHOICE, log entry 10; DESIGN CHOICE, log entry 78] -/
opaque Config.timedCounter (off k : Nat) : BitVec 64
/-- The byte that stands for an access code in a dictionary reply; the manual gives none (R12, R473). [DESIGN CHOICE, log entry 128] -/
opaque Config.accessCode : Nat → BitVec 8
/-- Where the local copy that an island keeps of the device counter stands against the reference, at a device time (R16).
[DESIGN CHOICE, log entry 142] -/
opaque Config.skew (island time : Nat) : Nat

/-- Byte `i` that stands for fields of a Hante frame or control flit of a kind whose places the manual does not give (R378, R388).
[DESIGN CHOICE, log entry 41; DESIGN CHOICE, log entry 162] -/
opaque Config.frameByte (kind : Nat) (fields : List Nat) (i : Nat) : BitVec 8

/-- What a session key ciphertext decrypts to, as RSAES-OAEP under the device's identity key DevID-E, which never leaves the security
engine (R478, R497). [DESIGN CHOICE, log entry 116] -/
opaque Config.sessionUnwrap (cipher : List (BitVec 8)) : Option (List (BitVec 8))
/-- `REQ_ID` of an emergency message, which answers no requester (R472, R483). [DESIGN CHOICE, log entry 170] -/
opaque Config.emcyReqId (seq : Nat) : BitVec 32
/-- The completion status of a CMD entry whose action ends without its effect; the manual gives none (R470).
[DESIGN CHOICE, log entry 169] -/
opaque Config.actionFailed (index : Nat) : BitVec 8
/-- Whether at a device time a nurse task runs, waits for its budget or is idle, where the model does not tell (R457, R463).
[DESIGN CHOICE, log entry 167] -/
opaque Config.taskPhase (task : Nat) (time : BitVec 64) : BitVec 8

end Sys2Proof
end

