-- ==== Sys2Proof/Machine/Memory.lean ====
section
/-!
DEFINITION. Byte memories: the DRAM stacks, the scratchpads, tile buffers and the other buffers the manual gives the
device. A memory is a list of (address, byte) cells in one canonical form, with the poison and suspect flags its
units carry (R411, R412) beside it.
-/
namespace Sys2Proof.Machine

/-- A memory. `bytes` lists cells at strictly rising addresses. `base = none`: an unlisted address reads as zero and
no zero is listed. `base = some k`: an unlisted address reads as the free value `Config.freeByte k a` (contents the
manual leaves undefined, R51). `poison` and `suspect` list the units that carry the flag, rising. [DESIGN CHOICE, log entry 9] -/
structure Memory where
  bytes : List Host.Cell
  base : Option Nat
  poison : List Nat
  suspect : List Nat
  /-- Every unit carries poison but those that `poison` lists (R454). -/
  inv : Bool
deriving DecidableEq, Repr

/-- A memory of zeros with no flag. [DESIGN CHOICE, log entry 8] -/
def Memory.zero : Memory := { bytes := [], base := none, poison := [], suspect := [], inv := false }

/-- A memory whose contents are all undefined: free values of index `k`. [DESIGN CHOICE, log entry 7] -/
def Memory.undefined (k : Nat) : Memory := { bytes := [], base := some k, poison := [], suspect := [], inv := false }

/-- What an unlisted address reads as. [DESIGN CHOICE, log entry 7; DESIGN CHOICE, log entry 8] -/
def Memory.unlisted (m : Memory) (a : Nat) : Byte :=
  match m.base with
  | none => 0#8
  | some k => Config.freeByte k a

/-- One byte. [DESIGN CHOICE, log entry 8] -/
def Memory.get (m : Memory) (a : Nat) : Byte := (tabFind m.bytes a).getD (m.unlisted a)

/-- The memory with one byte stored, in canonical form. [DESIGN CHOICE, log entry 9] -/
def Memory.set (m : Memory) (a : Nat) (b : Byte) : Memory :=
  if m.base.isNone && b == 0#8 then { m with bytes := tabErase m.bytes a } else { m with bytes := tabSet m.bytes a b }

/-- `n` bytes from address `a`. -/
def Memory.read (m : Memory) (a n : Nat) : List Byte := (List.range n).map (fun i => m.get (a + i))

/-- Bytes stored from address `a` upwards. -/
def Memory.write (m : Memory) (a : Nat) : List Byte → Memory
  | [] => m
  | b :: bs => (m.set a b).write (a + 1) bs

/-- Insert a unit number into a rising list. -/
def flagAdd (l : List Nat) (u : Nat) : List Nat :=
  match l with
  | [] => [u]
  | v :: r => if v == u then v :: r else if u < v then u :: v :: r else v :: flagAdd r u

/-- Remove a unit number from a list. -/
def flagDel (l : List Nat) (u : Nat) : List Nat := l.filter (· != u)

/-- Does unit `u` carry poison? -/
def Memory.hasPoison (m : Memory) (u : Nat) : Bool := m.inv != m.poison.contains u

/-- Set or clear the poison flag of unit `u`. -/
def Memory.setPoison (m : Memory) (u : Nat) (p : Bool) : Memory :=
  { m with poison := if p != m.inv then flagAdd m.poison u else flagDel m.poison u }

/-- Set or clear the suspect flag of unit `u`. -/
def Memory.setSuspect (m : Memory) (u : Nat) (p : Bool) : Memory :=
  { m with suspect := if p then flagAdd m.suspect u else flagDel m.suspect u }

/-- Is any unit of `unit` bytes that the span `[a, a+n)` touches poisoned? -/
def Memory.poisoned (m : Memory) (unit a n : Nat) : Bool :=
  n != 0 && (if m.inv then (List.range ((a + n - 1) / unit - a / unit + 1)).any (fun i => !m.poison.contains (a / unit + i))
             else m.poison.any (fun u => decide (a / unit ≤ u) && decide (u ≤ (a + n - 1) / unit)))

/-- Is any unit of the span marked suspect? -/
def Memory.suspected (m : Memory) (unit a n : Nat) : Bool :=
  n != 0 && m.suspect.any (fun u => decide (a / unit ≤ u) && decide (u ≤ (a + n - 1) / unit))

/-- All bytes of `[a, a+n)` set to zero and their units' flags cleared. -/
def Memory.clear (m : Memory) (unit a n : Nat) : Memory :=
  let out := fun (x : Nat) => decide (x < a) || decide (a + n ≤ x)
  let outU := fun (u : Nat) => decide (u < a / unit) || decide ((a + n + unit - 1) / unit ≤ u)
  let units := (List.range ((a + n + unit - 1) / unit - a / unit)).map (· + a / unit)
  let kept := { m with bytes := m.bytes.filter (fun c => out c.1)
                       poison := if m.inv then units.foldl flagAdd m.poison else m.poison.filter outU
                       suspect := m.suspect.filter outU }
  match m.base with
  | none => kept
  | some _ => kept.write a (List.replicate n 0#8)

/-- A span moved inside a memory as data with its flags: `[src, src+n)` to `[dst, dst+n)`, unit by unit. -/
def Memory.copySpan (m : Memory) (unit src dst n : Nat) : Memory :=
  let moved := m.bytes.filterMap (fun c => if src ≤ c.1 ∧ c.1 < src + n then some (c.1 - src + dst, c.2) else none)
  let cleared := m.clear unit dst n
  let units := fun (l : List Nat) => l.filterMap (fun u =>
    if src / unit ≤ u ∧ u < (src + n) / unit then some (u - src / unit + dst / unit) else none)
  let filled := if m.base.isSome then cleared.write dst (m.read src n) else moved.foldl (fun acc c => acc.set c.1 c.2) cleared
  let p := if m.inv then (List.range (n / unit)).foldl (fun (acc : Memory) i => acc.setPoison (dst / unit + i) (m.hasPoison (src / unit + i))) filled
           else (units m.poison).foldl (fun acc u => acc.setPoison u true) filled
  (units m.suspect).foldl (fun acc u => acc.setSuspect u true) p

/-- Addresses strictly rising. -/
def cellsRising : List Host.Cell → Bool
  | [] => true
  | [_] => true
  | c :: d :: r => decide (c.1 < d.1) && cellsRising (d :: r)

/-- Unit numbers strictly rising. -/
def flagsRising : List Nat → Bool
  | [] => true
  | [_] => true
  | u :: v :: r => decide (u < v) && flagsRising (v :: r)

/-- The canonical form: addresses and flagged units strictly rising, and where unlisted addresses read as zero, no zero listed.
[DESIGN CHOICE, log entry 9] -/
def Memory.wf (m : Memory) : Bool :=
  cellsRising m.bytes && flagsRising m.poison && flagsRising m.suspect && (m.base.isSome || m.bytes.all (fun c => c.2 != 0#8))

end Sys2Proof.Machine
end

