-- ==== Sys2Proof/Machine/CellState.lean ====
section
/-!
DEFINITION. The state types of one cell: threads, semaphores, engine queues, stream slots, and its share of the
scratchpad calendar (R51, R65, R70, R74, R328).
-/
namespace Sys2Proof.Machine

/-- Thread status (R51). -/
inductive ThreadStatus where
  | idle | running | blocked
deriving DecidableEq, Repr

/-- An engine command as its queue holds it: operand values read at issue (R64, R65). -/
structure EngineCmd where
  /-- 0 ARRAY, 1 VECTOR, 2 STREAM, 3 BAG, 4 SAMPLE. -/
  engine : Nat
  /-- Value of operand A's register. -/
  opA : DWord
  /-- Value of operand B's register. -/
  opB : DWord
  imm : BitVec 24
  semDone : Nat
  doneEn : Bool
  waitEn : Bool
  semWait : Nat
  serial : Bool
  /-- Issuing thread and the image offset of word 0. -/
  thread : Nat
  pc : Word
  /-- Position in the cell's order of issue, for `SERIAL`. -/
  seq : Nat
  /-- The start semaphore has been granted (true at once without `WAIT_EN`). -/
  granted : Bool
deriving DecidableEq, Repr

/-- What a BLOCKED thread waits for (R54). -/
inductive ThreadWait where
  | nothing
  | divide (rd : Nat) (value : DWord)
  | spLoad (rd off size : Nat) (sext : Bool)
  | vaLoad (rd va size : Nat) (sext : Bool) (pa : Option Nat)
  | vaStore (va : Nat) (bytes : List Byte)
  | fence
  | semaphore (sem n : Nat)
  | engine (cmd : EngineCmd)
  | layer (site cal : Nat)
  | layerW (site cal wide pred : Nat)
  | fetch (va : Nat)
deriving DecidableEq, Repr

/-- A posted virtual-address store that is not yet globally visible: waiting for its walk, for its write to device memory, or for
a window owner (R54). -/
structure PostedStore where
  va : Nat
  bytes : List Byte
  /-- Its address in device memory, once translated. -/
  pa : Option Nat
  /-- The window transaction that carries it, once sent. -/
  window : Option Nat
deriving DecidableEq, Repr

/-- One hardware thread (R51). -/
structure Thread where
  /-- s1–s31; s0 reads 0 and is not stored. -/
  regs : Table DWord
  /-- p0–p7; bit 0 reads 1. -/
  preds : BitVec 8
  pc : Word
  status : ThreadStatus
  sticky : Word
  waits : ThreadWait
  /-- Posted virtual-address stores that are not yet globally visible, oldest first; up to eight (R54). -/
  stores : List PostedStore
  /-- Scratchpad stores that await a granted slot, oldest first: offset and bytes; up to four (R54). -/
  spStores : List (Nat × List Byte)
deriving DecidableEq, Repr

/-- The state of an idle thread. [DESIGN CHOICE, log entry 2] -/
def Thread.idle : Thread :=
  { regs := [], preds := 1#8, pc := 0#32, status := .idle, sticky := 0#32, waits := .nothing, stores := [], spStores := [] }

/-- Who sent a write that waits in a cell's ingress buffer (R70). -/
inductive IngressSender where
  | host
  | stream (cell slot : Nat)
  | forager (work : Nat)
  | peer (tag : Nat)
deriving DecidableEq, Repr

/-- A write that waits in a cell's ingress buffer (R70). -/
structure IngressWrite where
  sender : IngressSender
  off : Nat
  bytes : List Byte
  poison : Bool
  suspect : Bool
deriving DecidableEq, Repr

/-- Who waits on a semaphore (R62): a thread, an engine command at the head of its queue, or a stream. -/
inductive SemWaiter where
  | thread (t : Nat)
  | engine (e : Nat)
  | streamFree (cell slot : Nat)
  | streamGo (cell slot : Nat)
deriving DecidableEq, Repr

/-- The boot calendar (R547). -/
def bootCalendar : List Word :=
  [0x00000037#32, 0x000FC000#32, 0x0011C000#32, 0x00002780#32, 0x00000037#32, 0x000FC000#32, 0x0011C000#32,
   0x00002780#32, 0x00000037#32, 0x000FC000#32, 0x0011C000#32, 0x00002780#32, 0x00000037#32, 0x000FC000#32,
   0x0011C000#32, 0x00002780#32]

/-- Where a cell stands in a layer boundary (R68, R115, R261). -/
inductive LayerPhase where
  /-- No barrier complete. -/
  | running
  /-- Every RUNNING thread has arrived; `last` arrived last; engines drain. -/
  | draining (last : Nat)
  /-- `LAYERW`: drained and its trip bit reported; the verdict is awaited. -/
  | voting (last : Nat)
  /-- Held at the end of `LAYER` by a pre-emption mark whose target is not known, or halted at the target. -/
  | held
  | halted
deriving DecidableEq, Repr

/-- A residency tag (R252). -/
structure ResTag where
  partition : Nat
  image : Nat
  footprint : Nat
  rank : Nat
deriving DecidableEq, Repr

/-- Pre-emption mark on a cell (R261). -/
inductive CellMark where
  | none
  | marked
  | target (n : Nat)
deriving DecidableEq, Repr

/-- Where a stream stands in the current chunk (R313). -/
inductive StreamPhase where
  | waitFree | waitGo | moving | walking | filling
  /-- The destination cell's crossing withholds credit (R70). -/
  | credit
deriving DecidableEq, Repr

/-- State of a stream slot (R328). -/
inductive SlotState where
  | idle | active | halted
deriving DecidableEq, Repr

/-- Bytes that a stream has read and holds: those of a span record, and those that must follow earlier elements through a
window (R312, R314). -/
structure StreamData where
  elem : Nat
  off : Nat
  bytes : List Byte
  poison : Bool
  suspect : Bool
  /-- The translated destination, in a window. -/
  dstPa : Nat
deriving DecidableEq, Repr

/-- A stream slot: the active descriptor, the pending re-arm and the position (R309–R328). -/
structure StreamSlot where
  state : SlotState
  /-- The active descriptor's 64 bytes. -/
  desc : List Byte
  /-- The pending re-arm: descriptor, thread and pc of its command. -/
  rearm : Option (List Byte × Nat × Word)
  phase : StreamPhase
  /-- Chunks begun and filled, elements already moved of the whole stream, byte offset within the element. -/
  chunks : Nat
  elem : Nat
  byteOff : Nat
  granules : BitVec 32
  /-- `SRC_DONE` of the current chunk has been signalled; the chunk's bytes have all been moved. -/
  srcDone : Bool
  moved : Bool
  /-- Issuing launch, thread and pc. -/
  launch : Nat
  thread : Nat
  pc : Word
  prio : Nat
  /-- Position registers at a halt: coordinates i0–i4, byte and side. -/
  haltCoord : List Nat
  haltByte : Nat
  haltSide : Nat
  /-- Window writes of the stream that no owner has acknowledged. -/
  outstanding : Nat
  /-- Window reads of the chunk that have not returned. -/
  reads : Nat
  /-- Return-table entry of a span send (R312). -/
  returnTag : Option Nat
  /-- Bytes read and not yet sent on, in element order. -/
  held : List StreamData
  /-- The span record handed to the fabric ports, with its poisoned granules (R314). -/
  record : Option (List Byte × List Nat)
  /-- A span send that waits for its record header before it is checked: 1 its command stands at the head of the queue, 2 it was a
  pending re-arm, 0 no such wait (R312, R316). -/
  checking : Nat
  /-- What has been read of that header through a window: offset and bytes. -/
  head : List (Nat × List Byte)
  /-- The destination granules last counted as poisoned (R315) and as discarded (R368, R371). -/
  marked : Option Nat
  lost : Option Nat
deriving DecidableEq, Repr

/-- An idle slot. -/
def StreamSlot.idle : StreamSlot :=
  { state := .idle, desc := [], rearm := none, phase := .moving, chunks := 0, elem := 0, byteOff := 0,
    granules := 0#32, srcDone := false, moved := false, launch := 0, thread := 0, pc := 0#32, prio := 0,
    haltCoord := [], haltByte := 0, haltSide := 0, outstanding := 0, reads := 0, returnTag := none, held := [], record := none
    checking := 0, head := [], marked := none, lost := none }

end Sys2Proof.Machine
end

