-- ==== Sys2Proof/Machine/VecState.lean ====
section
/-!
DEFINITION. The state types of the vector engine and the sampler (R121, R149–R157).
-/
namespace Sys2Proof.Machine

/-- The vector engine of a cell (R121). -/
structure VecState where
  /-- The running command; none: the engine is idle. -/
  cmd : Option EngineCmd
  /-- Its parameter block. -/
  block : List Byte
  /-- Image offset of the next vector word. -/
  pc : Word
  strip : Nat
  /-- v0–v31 as 8,192 bytes; a flag for each 32-bit lane (R138). -/
  regs : Memory
  /-- m1–m7; m0 is all ones and is not stored. -/
  masks : Table (BitVec 256)
  cursors : Table Nat
  /-- Elements that moved through each cursor (R134). -/
  moved : Table Nat
  /-- Lane flags (R136). -/
  lanes : Table Nat
  /-- Random draws issued in the current strip (R133). -/
  draws : Nat
  /-- Pointers used for line access, and for cursor access. -/
  lineUse : BitVec 8
  curUse : BitVec 8
  /-- Compress-stored bytes of the line a cursor is in, not yet written: offset, byte, poison, suspect. -/
  part : Table (List (Nat × Byte × Bool × Bool))
  /-- A poisoned value has been stored. -/
  stored : Bool
  /-- `VEND` has issued. -/
  ended : Bool
deriving DecidableEq, Repr

/-- An idle vector engine: no state survives a command (R121). [DESIGN CHOICE, log entry 2] -/
def VecState.idle : VecState :=
  { cmd := none, block := [], pc := 0#32, strip := 0, regs := Memory.zero, masks := [], cursors := [], moved := [],
    lanes := [], draws := 0, lineUse := 0#8, curUse := 0#8, part := [], stored := false, ended := false }

/-- The sampler of a cell (R149–R157). -/
structure SampState where
  cmd : Option EngineCmd
  block : List Byte
  /-- The list so far: index and fp32 score, best first. -/
  list : List (Nat × Nat)
  nans : Nat
  seen : Nat
  poison : Bool
  suspect : Bool
  /-- `SEG_OPEN`, and `TOP_K` of the running or last command (R157). -/
  segOpen : Bool
  topK : Nat
  /-- Scores that entered the list (R507). -/
  inserts : Nat
deriving DecidableEq, Repr

/-- A sampler that has done nothing. [DESIGN CHOICE, log entry 2] -/
def SampState.idle : SampState :=
  { cmd := none, block := [], list := [], nans := 0, seen := 0, poison := false, suspect := false, segOpen := false, topK := 0,
    inserts := 0 }

end Sys2Proof.Machine
end

