-- ==== Sys2Proof/Machine/EngineState.lean ====
section
/-!
DEFINITION. The state types of a cell's engines: matrix array, vector engine, sampler, and the cell itself.
-/
namespace Sys2Proof.Machine

/-- A weight register (R87, R548): stored bytes, the class it was loaded with (none: undefined), flags. -/
structure WReg where
  bytes : List Byte
  cls : Option Nat
  poison : Bool
  suspect : Bool
deriving DecidableEq, Repr

/-- A weight register that has not been loaded. -/
def WReg.empty : WReg := { bytes := [], cls := none, poison := false, suspect := false }

/-- A load the weight loader holds, in the order the commands started (R87). `pass` is the `seq` of a `WLOAD` pass. -/
structure LoadReq where
  reg : Nat
  off : Nat
  fmt : Nat
  only : Option EngineCmd
  pass : Option Nat
deriving DecidableEq, Repr

/-- What one row of a pass reads: its activation row, its `b` row (R93), and its row of the tile buffer (R85). -/
structure RowIn where
  act : List Byte
  brow : List Byte
  acc : List Byte
deriving DecidableEq, Repr

/-- A pass that has started: its control data, and the rows that have entered behind the pass before it (R83). -/
structure ArrayPass where
  cmd : EngineCmd
  block : List Byte
  operand : List Byte
  quant : List Byte
  wblk : List Byte
  cols : List Byte
  rows : List Byte
  weights : List Byte
  poison : Bool
  suspect : Bool
  /-- Outputs written, its load awaited (R87). -/
  written : Bool
  /-- Chosen for sampling by the taster (R418). -/
  sampled : Bool
  /-- Rows that have entered and are not written: row, output codes; the clips among them; the flags of what they read. -/
  early : List (Nat × List Nat)
  earlyClips : Nat
  earlyFlags : Bool × Bool
  /-- What the rows of a sampled pass have read (R419). -/
  captured : List RowIn
deriving DecidableEq, Repr

/-- The matrix array (R75–R98). -/
structure ArrayState where
  passes : List ArrayPass
  wregs : Table WReg
  loader : List LoadReq
  /-- Active-column count 0–96, and the ramp length of the last pass (R90, R91). -/
  actCols : Nat
  rampLen : Nat
  lastAct : Nat
  lastWt : Nat
  /-- The checksum of the last pass written (R96). -/
  checksum : DWord
deriving DecidableEq, Repr

/-- An array that has done nothing. [DESIGN CHOICE, log entry 2] -/
def ArrayState.reset : ArrayState :=
  { passes := [], wregs := [], loader := [], actCols := 0, rampLen := 48, lastAct := 0, lastWt := 0,
    checksum := 0#64 }

/-- `QUANT_STATE` (R120). -/
structure QuantState where
  trip : Bool
  voteWait : Bool
  tripLayer : BitVec 14
  widened : BitVec 8
  clipped : BitVec 8
deriving DecidableEq, Repr

/-- `QUANT_STATE` after placement. [DESIGN CHOICE, log entry 2] -/
def QuantState.reset : QuantState :=
  { trip := false, voteWait := false, tripLayer := 0#14, widened := 0#8, clipped := 0#8 }

/-- One cell (R51). -/
structure Cell where
  /-- The launch placed on the cell, and the rank it has there. -/
  launch : Option Nat
  rank : Nat
  threads : Table Thread
  sems : Table Half
  waiters : Table (List (SemWaiter × Nat))
  scratch : Memory
  tbufs : Table Memory
  calendar : List Word
  layerCount : BitVec 14
  layer : LayerPhase
  mark : CellMark
  /-- Engine command queues, by engine number. -/
  queues : Table (List EngineCmd)
  /-- Order in which the ARRAY and VECTOR heads came to wait on a tile buffer (R88). -/
  headAt : Table Nat
  nextSeq : Nat
  /-- The threads of the last three issues, newest first (R53). -/
  recent : List Nat
  /-- The thread that arrived last at the barrier (R68). -/
  arrived : Nat
  /-- The cell's cycle count since launch start, and the generator's step count, as far as a read or a draw has seen them (R58, R147). -/
  cycles : DWord
  genSteps : DWord
  /-- The ingress buffer, oldest first (R70). -/
  ingress : List IngressWrite
  fault : DWord
  faultCount : Nat
  residency : Option ResTag
  /-- The launch has ended on this cell (R60). -/
  done : Bool
  streams : Table StreamSlot
  array : ArrayState
  quant : QuantState
  /-- BAG commands dispatched to the foragers and not complete. -/
  bags : List EngineCmd
  vec : VecState
  samp : SampState
deriving DecidableEq, Repr
end Sys2Proof.Machine
end

