-- ==== Sys2Proof/Machine/GroupState.lean ====
section
/-!
DEFINITION. The state types of table groups, spans, tables, versions, patches and fabric windows (R161, R195–R210,
R214–R240), and the messages that members exchange.
-/
namespace Sys2Proof.Machine

/-- States of a version slot (R199). -/
inductive SlotSt where
  | free | staged | live | superseded
deriving DecidableEq, Repr

/-- A version slot (R195). -/
structure VerSlot where
  state : SlotSt
  tver : Nat
  epochFrom : Nat
  rowBase : Nat
  dirBase : Nat
  /-- The context of the publishing queue, whose tables translate the bases. -/
  context : Nat
  /-- `EPOCH_FROM` of the slot that superseded it (E_s, R199). -/
  supAt : Nat
deriving DecidableEq, Repr

/-- A FREE slot. -/
def VerSlot.none : VerSlot :=
  { state := .free, tver := 0, epochFrom := 0, rowBase := 0, dirBase := 0, context := 0, supAt := 0 }

/-- A registered table (R161, R195). -/
structure TableDesc where
  /-- The 16 B lookup record. -/
  record : List Byte
  tverLast : Nat
  slots : List VerSlot
  /-- Pinned rows (R194). -/
  pins : List Nat
deriving DecidableEq, Repr

/-- A table group or sequence span on this member (R214, R224–R227). -/
structure Group where
  partition : Nat
  id : Nat
  /-- Its slot in the group counters: the lowest free at creation (R507). -/
  slot : Nat
  /-- 0 TABLE, 1 SPAN. -/
  kind : Nat
  size : Nat
  rank : Nat
  stretch : Nat
  members : List Nat
  /-- The group epoch in force here, and the latest low-water mark L received. -/
  epoch : DWord
  low : DWord
  /-- The highest epoch an advance has been requested to, as this member knows. -/
  asked : DWord
  /-- Coordinator: the highest target received, the advance under way, the digests and low reports by rank. -/
  goal : DWord
  advance : Option DWord
  ready : Table Nat
  lows : Table Nat
  /-- Member: a PREPARE not yet answered. -/
  prepared : Option DWord
  /-- Member: the l last reported. -/
  reported : DWord
  /-- Versions (table, `TVER`, `EPOCH_FROM`) that another member listed for a held advance and this one lacks (R197, R225). -/
  missing : List (Nat × Nat × Nat)
  /-- Coordinator: the ranks that GROUP_DEGRADED found silent and that have not spoken since; L stays meanwhile (R227). -/
  silent : List Nat
deriving DecidableEq, Repr

/-- A staged entry (R202, R203, R209). -/
structure Staged where
  handle : Nat
  entry : PatchEntry
  committed : Bool
  /-- The version slot it targets, set when it commits. -/
  slot : Nat
  /-- Virtual address of the row, its physical address once known, and the stack whose forager holds the entry. -/
  va : Nat
  stack : Nat
  /-- The row has been resolved into its forward line. -/
  resolved : Bool
  /-- The base cannot be read: the row resolves from a poisoned base of zeros (R206). -/
  lost : Bool
deriving DecidableEq, Repr

/-- A PATCH at its entry member, undecided (R202). -/
structure PatchWork where
  queue : Nat
  index : Nat
  launchId : DWord
  irq : Bool
  handle : Nat
  /-- Answers by rank: status and `RC_ERR` code; (0, 0) accepts. -/
  answers : Table (Nat × Nat)
deriving DecidableEq, Repr

/-- A window an owner holds (R235, R237, R239). -/
structure Window where
  opened : Bool
  closing : Bool
  perm : Nat
  context : Nat
  key : Nat
  /-- The last four keys used for this number, newest first. -/
  lastKeys : List Nat
  vbase : Nat
  size : Nat
  reqAddr : Nat
  reqMask : Nat
deriving DecidableEq, Repr

/-- A window number never used. -/
def Window.none : Window :=
  { opened := false, closing := false, perm := 0, context := 0, key := 0, lastKeys := [], vbase := 0, size := 0,
    reqAddr := 0, reqMask := 0 }

/-- An import slot in use (R236). -/
structure Import where
  context : Nat
  partition : Nat
  owner : Nat
  ownerPart : Nat
  window : Nat
  key : Nat
  perm : Nat
  size : Nat
  /-- Being drained by `RELEASE_IMPORT` or a teardown. -/
  releasing : Bool
deriving DecidableEq, Repr

/-- A probe awaiting its answer (R236). -/
structure Probe where
  context : Nat
  perm : Nat
  window : Nat
  owner : Nat
  ownerPart : Nat
  key : Nat
deriving DecidableEq, Repr

/-- Who waits for a window response (R238). -/
inductive WindowUser where
  | load (cell thread : Nat)
  | store (cell thread va : Nat)
  | streamRead (cell slot : Nat)
  | streamWrite (cell slot : Nat)
  /-- The header of a span send that is being checked (R312). -/
  | streamHead (cell slot : Nat)
  /-- The nurse posts a digest record (R428). -/
  | nurse
  /-- The nurse repairs replica copy `k` (R430). -/
  | repair (k : Nat)
deriving DecidableEq, Repr

/-- A window access in flight at the requester. -/
structure WindowReq where
  user : WindowUser
  launch : Nat
  slot : Nat
  va : Nat
  write : Bool
  length : Nat
  /-- For a stream read: position of its bytes in the stream. -/
  elem : Nat
  byteOff : Nat
  /-- For a stream read: the translated destination of its bytes, where the destination is virtual. -/
  dstPa : Nat
deriving DecidableEq, Repr

/-- What a return-table entry waits for (R219, R233). -/
inductive RetKind where
  /-- A group BAG command: the semaphore for peers (none without `DONE_EN`), thread and pc, the segments' `OUT_OFF` and
  `OUT_STRIDE`, its output rows as (segment, row, slice bytes), per-peer state (0 awaited, 1 landed, 2 lost, 3 lost with its
  zeros on the way), and the rows landed by rank. -/
  | bag (sem : Option Nat) (thread : Nat) (pc : Word) (segs : List (Nat × Nat)) (rows : List (Nat × Nat × Nat))
        (peers : Table Nat) (landed : Table (List (Nat × Nat)))
  /-- A span send: landing offset, semaphore. -/
  | span (offset sem : Nat)
  /-- The same, once the return or the lost pass's header has entered the cell's crossing. -/
  | spanLanding (sem : Nat)
deriving DecidableEq, Repr

/-- A return-table entry (R219). -/
structure RetEntry where
  launch : Nat
  launchId : DWord
  handle : Nat
  cell : Nat
  kind : RetKind
  /-- The launch has ended; peers whose acknowledgement is awaited (R222). -/
  ended : Bool
  acks : List Nat
deriving DecidableEq, Repr

/-- A bag block staged for a home device (R217). -/
structure FanStage where
  home : Nat
  /-- The home's number of the launch, and of the block within it. -/
  launch : Nat
  block : Nat
  handle : Nat
  epoch : DWord
  versions : List (Nat × Nat)
  bytes : List Byte
  /-- Poisoned granules. -/
  poison : List Nat
  /-- The port withholds credit: the block waits for staging room, and so do the bag requests that name it (first, count,
  rank, tag). -/
  held : Bool
  requests : List (Nat × Nat × Nat × Nat)
  /-- Some bag request has named it. -/
  served : Bool
deriving DecidableEq, Repr

/-- Bodies of the messages members exchange (R202, R216–R238, R388). [DESIGN CHOICE, log entry 41] -/
inductive FabBody where
  | fanout (launch block groupId : Nat) (epoch : DWord) (versions : List (Nat × Nat)) (bytes : List Byte) (poison : List Nat)
  | bagReq (launch block first count rank tag : Nat)
  | gather (tag rank seg row : Nat) (bytes : List Byte) (poison : Bool)
  | abandon (launch : Nat)
  | abandonAck (launch : Nat)
  | patchStage (groupId src seq : Nat) (records : Table (List Byte)) (entries : List PatchEntry)
  | patchAnswer (src seq rank status code : Nat)
  | patchOutcome (src seq : Nat) (commit : Bool)
  | patchQuery (src seq asker : Nat)
  | epochRequest (groupId : Nat) (target : DWord)
  | prepare (groupId : Nat) (target : DWord)
  | ready (groupId rank : Nat) (target : DWord) (digest : Nat)
  | versions (groupId rank : Nat) (target : DWord) (list : List (Nat × Nat × Nat))
  | lowReport (groupId rank : Nat) (low : DWord)
  | abortPublish (groupId table tver : Nat)
  | span (record : List Byte) (poison : List Nat)
  | winWrite (tag part window key offset : Nat) (bytes : List Byte) (poison : Bool)
  | winRead (tag part window key offset length : Nat)
  | winAck (tag check part : Nat)
  | winData (tag part : Nat) (bytes : List Byte) (poison : Bool)
  | winProbe (tag part window key perm : Nat)
  | winProbeAck (tag check size part : Nat)
  | noRoute (tag kind : Nat)
deriving DecidableEq, Repr

/-- A message on its way to another device's fabric address. -/
structure FabMsg where
  dst : Nat
  body : FabBody
deriving DecidableEq, Repr

end Sys2Proof.Machine
end

