-- ==== Sys2Proof/Machine/ErrorState.lean ====
section
/-!
DEFINITION. The state types of the taster, of cell health and of replica copies (R418–R434).
-/
namespace Sys2Proof.Machine

/-- A sampled pass that awaits a verdict (R420, R421). -/
structure TasterCheck where
  launch : Nat
  cell : Nat
  /-- The capture buffer: the pass with its blocks, tables, weight tile and rows, and the generator key (R419). -/
  pass : ArrayPass
  key : BitVec 128
  /-- The origin's checksum. -/
  sum : DWord
  /-- The first checker and its checksum, once it differed. -/
  first : Option (Nat × DWord)
  /-- The cell that runs the capture now. -/
  on : Option Nat
deriving DecidableEq, Repr

/-- What the hub keeps of a cell (R418, R423, R434). -/
structure Health where
  /-- Times of its strikes. -/
  strikes : List DWord
  /-- Quarantined, waiting for its launch to leave. -/
  pending : Bool
  /-- Passes sampled in the current launch; eligible passes of the current run, and whether one of them was sampled. -/
  sampled : Nat
  eligible : Nat
  taken : Bool
deriving DecidableEq, Repr

/-- A cell with no strikes. -/
def Health.clean : Health := { strikes := [], pending := false, sampled := 0, eligible := 0, taken := false }

/-- A replica copy on this device (R425–R431). -/
structure Replica where
  setId : Nat
  copies : Nat
  self : Nat
  partition : Nat
  context : Nat
  boardWin : Nat
  weightWin : Nat
  vbase : Nat
  length : Nat
  board : Nat
  h : BitVec 128
  /-- Board and weight import slots by copy. -/
  peers : List (Nat × Nat)
  version : DWord
  suspect : Bool
  /-- The copy it repairs from. -/
  repairing : Option Nat
  /-- Bytes of its region that the repair has copied, and the window read it awaits (R430). -/
  copied : Nat
  asked : Option Nat
  /-- A pass runs, begun at this version. -/
  running : Option DWord
  passes : Nat
  /-- Per peer: the `PASS` last seen, and over how many passes it has stood. -/
  seen : Table (Nat × Nat)
  silent : List Nat
  /-- The present divergence has been reported. -/
  reported : Bool
  /-- A repair has completed and no pass has yet agreed (R430). -/
  healed : Bool
deriving DecidableEq, Repr

/-- A digest record (R428). -/
structure DigestRecord where
  setId : Nat
  state : Nat
  copy : Nat
  version : Nat
  digest : Nat
  pass : Nat
  stamp : Nat
deriving DecidableEq, Repr

end Sys2Proof.Machine
end

