-- ==== Sys2Proof/Machine/FabricState.lean ====
section
/-!
DEFINITION. The state types of the fabric ports, their frames, and the RoCEv2 engines (R375–R408).
-/
namespace Sys2Proof.Machine

/-- Port states (R376). -/
inductive LinkState where
  | absent | training | up | retrain | failed
deriving DecidableEq, Repr

/-- A Hante frame (R386): its header, field by field, and its payload. -/
structure Frame where
  kind : Nat
  vc : Nat
  phase : Nat
  dl : Bool
  ttl : Nat
  srCount : Nat
  srPorts : Nat
  dest : Nat
  src : Nat
  len : Nat
  spart : Nat
  dpart : Nat
  tag : Nat
  poison : Nat
  kspec : List Byte
  /-- The RSV fields: `FFLAGS` [2:0], and the four bytes at 0x38. -/
  rsv : Nat
  crc : Nat
  payload : List Byte
deriving DecidableEq, Repr

/-- The receive buffer in which the flits of a frame on its way through the device lie: port, credit class, and the life of
the link in which they came (R384). -/
structure RxHold where
  port : Nat
  cls : Nat
  gen : Nat
deriving DecidableEq, Repr

/-- A frame on its way out of the device, or to its check (R385). -/
structure Transit where
  /-- Its header as it leaves, and the flit payloads at hand; those that have gone out are no longer listed. -/
  frame : Frame
  flits : List (List Byte)
  /-- Flits of it that the input has still to bring. -/
  more : Nat
  hold : Option RxHold
  /-- The message of this device that it carries. -/
  body : Option FabBody
deriving DecidableEq, Repr

/-- A flit in the retry buffer: its sequence number and its payload (R383). -/
structure SentFlit where
  seq : Nat
  payload : List Byte
deriving DecidableEq, Repr

/-- A fabric port (R376–R385, R407). -/
structure Port where
  link : LinkState
  ether : Bool
  /-- Width code of `PORT_STATE`. -/
  width : Nat
  lanesOk : BitVec 4
  polInv : BitVec 4
  reversed : Bool
  neighbour : Nat
  neighbourPort : Nat
  tries : Nat
  err : DWord
  errCount : Nat
  /-- Restarted since `PAIR_MODE` last took effect (R375). -/
  restarted : Bool
  retry : List SentFlit
  nextSeq : Nat
  /-- Replays in a row of the oldest flit. -/
  replays : Nat
  /-- Credits held for the neighbour's buffer: classes 0–24, and 31 for the shared pool. -/
  credits : Table Nat
  /-- Frames that wait for the output, the one whose flits are going out, and the VC served last. -/
  txq : List Transit
  sending : Option Transit
  lastVc : Nat
  /-- The next sequence number awaited, and whether a NAK has been sent for it. -/
  expect : Nat
  nakSent : Bool
  /-- Payloads of the flits in the receive buffer, oldest first; the class of the frame arriving, its flits to come,
  the flits held per class, and the credits to return. -/
  rx : List (List Byte)
  rxClass : Nat
  rxLeft : Nat
  rxHeld : Table Nat
  owed : Table Nat
  /-- The frame arriving has been routed: its later flits follow it (R385). -/
  rxCut : Bool
  /-- Flits at the front of the receive buffer that came before the link trained anew: they return no credit. How often it has. -/
  rxOld : Nat
  gen : Nat
  /-- Frames for this device that await their check; their flits lie in the receive buffer. -/
  arrived : List Transit
  /-- Lanes whose tuning is queued (R460). -/
  tuning : BitVec 4
deriving DecidableEq, Repr

/-- A port with no device beyond it. [DESIGN CHOICE, log entry 1] -/
def Port.absent : Port :=
  { link := .absent, ether := false, width := 0, lanesOk := 0#4, polInv := 0#4, reversed := false, neighbour := 0,
    neighbourPort := 0, tries := 0, err := 0#64, errCount := 0, restarted := false, retry := [], nextSeq := 0, replays := 0,
    credits := [], txq := [], sending := none, lastVc := 0, expect := 0, nakSent := false, rx := [], rxClass := 0, rxLeft := 0,
    rxHeld := [], owed := [], rxCut := false, rxOld := 0, gen := 0, arrived := [], tuning := 0#4 }

/-- A flit that a port has put on its link: each active lane with the bytes it carries (R381). -/
structure WireOut where
  port : Nat
  lanes : List (Nat × List Byte)
deriving DecidableEq, Repr

/-- A RoCEv2 message in progress (R401, R402). -/
structure QpMsg where
  /-- A WRITE; else a SEND. -/
  write : Bool
  rkey : Nat
  /-- First address, and bytes accepted so far. -/
  va : Nat
  done : Nat
  total : Nat
deriving DecidableEq, Repr

/-- A queue pair (R400–R405). -/
structure Qp where
  port : Nat
  flags : Nat
  partition : Nat
  pmtu : Nat
  region : Nat
  destQpn : Nat
  psnRx : Nat
  /-- `PSN_RX` of its creation, and the PSN of the response to that packet. -/
  psnFirst : Nat
  psnTx : Nat
  vlan : Nat
  dscp : Nat
  mac : List Byte
  ip : List Byte
  ringOff : Nat
  slots : Nat
  slotSize : Nat
  error : Bool
  /-- Send rate in Mb/s, when it was last cut or raised, and the time of the last CNP sent. -/
  rate : Nat
  rateAt : DWord
  cnpSent : Option DWord
  /-- A sequence NAK has been sent for the present gap. -/
  gap : Bool
  arrived : DWord
  msg : Option QpMsg
deriving DecidableEq, Repr

/-- What a RoCEv2 packet that the device sends holds (R399). -/
inductive RoceBody where
  /-- Acknowledgement or NAK, with its AETH syndrome. -/
  | ack (syndrome : Nat)
  | readResponse (bytes : List Byte)
  | cnp
deriving DecidableEq, Repr

/-- A RoCEv2 packet that the device sends, with the headers that its QP gives it (R400, R403). -/
structure RoceOut where
  port : Nat
  vlan : Nat
  v6 : Bool
  dscp : Nat
  /-- The ECN field of its IP header. -/
  ecn : Nat
  mac : List Byte
  ip : List Byte
  destQpn : Nat
  psn : Nat
  body : RoceBody
deriving DecidableEq, Repr

/-- What the Ethernet ports send, and what they hand to the pair's engine. -/
inductive EthOut where
  /-- A frame without its FCS. -/
  | frame (port : Nat) (bytes : List Byte)
  | packet (p : RoceOut)
  | toEngine (port : Nat) (frame : List Byte)
deriving DecidableEq, Repr

end Sys2Proof.Machine
end

