-- ==== Sys2Proof/Machine/ForagerState.lean ====
section
/-!
DEFINITION. The state types of the foragers: pooling work, open bags, row fetches, and the row cache of a stack
(R158–R183, R187–R209).
-/
namespace Sys2Proof.Machine

/-- A row as it travels: its sectors, and which of them carry poison or suspect. -/
structure RowData where
  bytes : List Byte
  poison : List Nat
  suspect : List Nat
deriving DecidableEq, Repr

/-- Where a row fetch stands (R160, R189). -/
inductive FetchState where
  /-- Keyed by the skimmer; it holds no fetch slot yet (R183, R244). -/
  | waiting
  /-- Issued: it holds a slot; its row request has not been served. -/
  | issued
  /-- Missed: read from the stack at this physical address. -/
  | missed (pa : Nat)
  /-- Served: its sectors are on their way back. -/
  | served (row : RowData)
  /-- Accumulated. -/
  | done (row : RowData)
deriving DecidableEq, Repr

/-- A row fetch of a window (R171, R172). -/
structure Fetch where
  forager : Nat
  window : Nat
  table : Nat
  slot : Nat
  row : Nat
  va : Nat
  /-- Its window multiplicity. -/
  mult : Nat
  /-- The slice whose slot it takes (R158), and its row's physical address once translated. -/
  slice : Nat
  place : Option Nat
  /-- The row cache held no line for it (R191). -/
  miss : Bool
  state : FetchState
deriving DecidableEq, Repr

/-- What a lookup uses (R171, R177). -/
inductive LookupRow where
  /-- A fetch, by its position in the work's list. -/
  | fetch (i : Nat)
  /-- A zero row of the bag's table. -/
  | zero
  /-- A cut event (CLAMP): not counted, a zero row only under NONE. -/
  | cut
  /-- An event whose directory entry was poisoned, so that no row is known (R180). -/
  | lost
deriving DecidableEq, Repr

/-- One lookup of a bag, in lookup order. -/
structure Lookup where
  row : LookupRow
  /-- fp32 weight; 1.0 without `WEIGHTED`. -/
  weight : Nat
  wPoison : Bool
  wSuspect : Bool
deriving DecidableEq, Repr

/-- An open bag (R158): block number, its segment, its lookups. -/
structure OpenBag where
  bag : Nat
  forager : Nat
  /-- The slice that holds its accumulators, and their count (R158). -/
  slice : Nat
  width : Nat
  seg : Nat
  /-- Number of the first output row of the bag among those of the command in its segment, and its count. -/
  row0 : Nat
  rows : Nat
  lookups : List Lookup
  /-- Every output row carries poison (directory entry, version mismatch, poisoned control of a peer's copy). -/
  poison : Bool
  suspect : Bool
deriving DecidableEq, Repr

/-- A BAG command, or a peer's bag request, as the foragers pool it (R159, R165, R216). -/
structure BagWork where
  /-- The issuing cell, for a command of this device. -/
  cell : Option Nat
  cmd : EngineCmd
  launch : Nat
  partition : Nat
  context : Nat
  handle : Nat
  va : Nat
  /-- The block: read in full for a group of several members, or a peer's staged copy. -/
  block : List Byte
  blockPoison : List Nat
  first : Nat
  count : Nat
  epoch : Nat
  /-- `TVER` by table, carried by a fan-out. -/
  versions : List (Nat × Nat)
  /-- The n of R159. -/
  n : Nat
  /-- The home device and its return tag, for a peer's request. -/
  home : Option (Nat × Nat)
  /-- Home's launch number and the number of the staged block, for a peer's request. -/
  homeLaunch : Nat
  homeBlock : Nat
  /-- Bags each forager has taken in; the window each is filling, with its lookups; windows opened. -/
  taken : Table Nat
  filling : Table (Nat × Nat)
  windows : Nat
  bags : List OpenBag
  fetches : List Fetch
  /-- Bags written. -/
  written : Nat
  /-- A home device has abandoned it; foragers that have left it (R182, R222). -/
  abandoned : Bool
  left : List Nat
deriving DecidableEq, Repr

/-- A row-cache line (R187). -/
structure RcLine where
  /-- Sector address a[39:6] of the row's first byte. -/
  addr : Nat
  /-- 0 a base line; else an entry of the pending-epoch table. -/
  ref : Nat
  partition : Nat
  sectors : Nat
  counter : Nat
  pin : Bool
  row : RowData
deriving DecidableEq, Repr

/-- One forager with its row cache (R158, R185, R187–R212). -/
structure Forager where
  err : DWord
  errRow : DWord
  errCount : Nat
  /-- The deficit round-robin of the skimmer intake: the partition whose turn it is, and the deficits (R244). -/
  turn : Nat
  deficits : Table Nat
  /-- Lines by set × 32 + tag. -/
  lines : Table RcLine
  /-- The sketch: row × 65,536 + index. -/
  sketch : Table Nat
  /-- Pending epochs 1–15. -/
  epochs : Table Nat
  rcErr : DWord
  rcErrRow : DWord
  rcErrCount : Nat
deriving DecidableEq, Repr

/-- A forager with nothing held. [DESIGN CHOICE, log entry 2] -/
def Forager.idle : Forager :=
  { err := 0#64, errRow := 0#64, errCount := 0, turn := 0, deficits := [], lines := [], sketch := [], epochs := [], rcErr := 0#64, rcErrRow := 0#64,
    rcErrCount := 0 }

end Sys2Proof.Machine
end

