-- ==== Sys2Proof/Machine/LaunchState.lean ====
section
/-!
DEFINITION. The state types of partitions, contexts, images, launches and saves (R242–R268, R305, R335).
-/
namespace Sys2Proof.Machine

/-- Partition states (R268). -/
inductive PartState where
  | free | active | resetting
deriving DecidableEq, Repr

/-- A partition (R242). -/
structure Partition where
  state : PartState
  combMask : BitVec 16
  frames : BitVec 16
  rcShare : BitVec 8
  foragerWt : BitVec 8
  contexts : BitVec 16
  queues : BitVec 16
  /-- The 1 GiB frames assigned, as physical address / 1 GiB. -/
  frameList : List Nat
  /-- `PART_RESETS`. -/
  resets : DWord
  /-- Why the partition is RESETTING (notice code, R306). -/
  cause : Nat
  /-- The queue last taken from, by priority, for the round-robin of R247. -/
  lastQueue : Table Nat
  /-- A self-test of its frames runs (R48, R460). -/
  selfTest : Bool
deriving DecidableEq, Repr

/-- A partition that does not exist. [DESIGN CHOICE, log entry 2] -/
def Partition.none : Partition :=
  { state := .free, combMask := 0#16, frames := 0#16, rcShare := 0#8, foragerWt := 0#8, contexts := 0#16,
    queues := 0#16, frameList := [], resets := 0#64, cause := 0, lastQueue := [], selfTest := false }

/-- A site-table entry of an image variant (R305). -/
structure Site where
  pc : Nat
  cal : Nat
  calWide : Nat
  pred : Nat
deriving DecidableEq, Repr

/-- A resident-table entry (R305). -/
structure Resident where
  spOff : Nat
  spLen : Nat
  dataOff : Nat
deriving DecidableEq, Repr

/-- A program image variant as the device read it (R305). -/
structure Variant where
  footprint : Nat
  entry : Nat
  codeOff : Nat
  codeLen : Nat
  longest : Nat
  extent : Nat
  sites : List Site
  residents : List Resident
deriving DecidableEq, Repr

/-- A loaded image (R305). -/
structure Image where
  partition : Nat
  context : Nat
  va : Nat
  length : Nat
  noPreempt : Bool
  /-- The driver's `NO_PREEMPT` pin (R259). -/
  pinned : Bool
  variants : List Variant
  /-- Row fetches made for launches of the image, by die: this period and the last completed one (R254). -/
  fetchA : Nat
  fetchB : Nat
  lastFetchA : Nat
  lastFetchB : Nat
deriving DecidableEq, Repr

/-- Where a launch stands. -/
inductive LaunchPhase where
  /-- Taken, waiting for cells. -/
  | taken
  /-- Placed, resident regions loading (R252). -/
  | loading
  | running
  /-- Marked for pre-emption (R261). -/
  | marked
  | saving
  /-- Saved and waiting to resume (R265). -/
  | saved
  /-- Ended: its engines reach their safe points, then its record is posted. -/
  | ended
deriving DecidableEq, Repr

/-- A launch (R58, R118, R247, R254, R285). -/
structure Launch where
  queue : Nat
  index : Nat
  partition : Nat
  context : Nat
  image : Nat
  imageBase : Nat
  variant : Variant
  launchId : DWord
  genKey : BitVec 128
  /-- Group handles named in the header with the epochs recorded at the take (R282). -/
  groups : List (Nat × DWord)
  consts : List Byte
  inlineData : List Byte
  priority : Nat
  irq : Bool
  phase : LaunchPhase
  /-- Physical cells in rank order. -/
  cells : List Nat
  /-- The abnormal ending status and its `DETAIL`; first cause stands. -/
  status : Option Nat
  detail : Nat
  replayed : Nat
  clipped : Nat
  lastClip : Option Nat
  sticky : BitVec 7
  preempted : Bool
  /-- Poison delivered to host memory: plain, suspect (R413). -/
  deliveredPoison : Bool
  deliveredSuspect : Bool
  /-- A host-bound write of the launch was discarded (R296). -/
  lostWrites : Bool
  /-- Device counter value at placement or resume, and time counted before it, for `ELAPSED_US` (R291). -/
  startTime : DWord
  elapsed : Nat
  /-- Order of placement on the device, for R260. -/
  order : Nat
  /-- Ranks whose resident load is not done. -/
  loadsLeft : List Nat
  /-- Ranks that reported to a `LAYERW` vote, and whether any tripped (R115). -/
  votes : List Nat
  tripped : Bool
  /-- Layer counts reported to a pre-emption mark, by rank. -/
  reports : Table Nat
  target : Option Nat
  /-- The save: context address and length, when saved or restored. -/
  save : Option (Nat × Nat)
  /-- The save was handed in by `RESTORE_LAUNCH`. -/
  restored : Bool
  /-- The pages that its save or restore in hand has translated, with the comb of the TLB (R341). -/
  walked : List (Nat × Nat)
  /-- The span record of a hop launch, and its poisoned 64 B granules (R231). -/
  hop : List Byte
  hopPoison : List Nat
  /-- Bag blocks fanned out, for the return table; passes awaiting a taster verdict. -/
  verdicts : Nat
deriving DecidableEq, Repr

/-- The pins of a quarter, by its virtual block (R259). -/
structure FramePin where
  stack : Option Nat
  noMove : Bool
deriving DecidableEq, Repr

/-- A quarter without pins. -/
def FramePin.none : FramePin := { stack := Option.none, noMove := false }

/-- A context (R335). -/
structure Context where
  used : Bool
  partition : Nat
  saveBase : Nat
  saveSize : Nat
  /-- 64 KiB leaves by `VA[47:16]`, 512 MiB leaves by `VA[47:29]`: the entries of R332. -/
  leaves : Table Nat
  large : Table Nat
  /-- Physical quarter (address / 256 MiB) bound to each 256 MiB virtual block (R337). -/
  blocks : Table Nat
  /-- Frame pins by 256 MiB virtual block: they stand while the context does (R255, R259). -/
  pins : Table FramePin
  /-- Being torn down by `CTX_DESTROY`. -/
  dying : Bool
deriving DecidableEq, Repr

/-- A context number that is not in use. [DESIGN CHOICE, log entry 2] -/
def Context.unused : Context :=
  { used := false, partition := 0, saveBase := 0, saveSize := 0, leaves := [], large := [], blocks := [],
    pins := [], dying := false }

/-- An allocated 256 MiB quarter of DRAM (R255–R257). -/
structure Quarter where
  partition : Nat
  context : Nat
  /-- Virtual block `VA[47:28]`. -/
  block : Nat
  heat : Nat
  fetched : Nat
deriving DecidableEq, Repr

/-- The migration in progress (R258). -/
inductive MigPhase where
  | copying
  /-- The copy is done, and the remap waits: for a forward line to be written back, or for room for pinned lines (R211, R258). -/
  | copied
  | draining
deriving DecidableEq, Repr

/-- A frame migration (R258). -/
structure Migration where
  src : Nat
  dst : Nat
  context : Nat
  block : Nat
  phase : MigPhase
deriving DecidableEq, Repr

end Sys2Proof.Machine
end

