-- ==== Sys2Proof/Machine/QueueState.lean ====
section
/-!
DEFINITION. The state types of user queues, the admin queue, and what leaves for host memory (R270–R307).
-/
namespace Sys2Proof.Machine

/-- Queue states (R294). -/
inductive QueueStatus where
  | free | active | dying | orphaned
deriving DecidableEq, Repr

/-- A completion that is ready to be posted, in end order (R287). -/
inductive Ready where
  /-- A launch that has ended; its record is built when it is posted. -/
  | launch (lid : Nat)
  /-- A command of another kind, or one that failed a header check, with the nanoseconds from its take to its end (R291). -/
  | cmd (launchId : DWord) (index status detail : Nat) (irq : Bool) (elapsed : Nat)
deriving DecidableEq, Repr

/-- A PUBLISH, PATCH or EPOCH_ADVANCE taken and not yet decided. -/
structure CmdWork where
  index : Nat
  launchId : DWord
  kind : Nat
  irq : Bool
  /-- The handle, for PATCH and EPOCH_ADVANCE, and the epoch target. -/
  handle : Nat
  target : DWord
  /-- A PATCH: its count in the queue (`SEQ`, R204), its block and entry count, and whether its checks have passed. -/
  patch : Nat
  va : Nat
  count : Nat
  checked : Bool
  /-- The device counter when the command was taken (R291). -/
  start : DWord
deriving DecidableEq, Repr

/-- A user queue (R271–R296, R303). -/
structure Queue where
  status : QueueStatus
  context : Nat
  priority : Nat
  log2Slots : Nat
  msix : Nat
  ringOff : Nat
  timeoutUs : Nat
  cqBase : Nat
  modCount : Nat
  modUs : Nat
  span : Bool
  tail : DWord
  cqHead : DWord
  taken : DWord
  posted : DWord
  /-- Commands taken whose records are not yet posted. -/
  outstanding : Nat
  /-- Records with `IRQ` = 1 posted since the last interrupt. -/
  irqCount : Nat
  /-- Completions in end order. -/
  ready : List Ready
  work : List CmdWork
  /-- The cause of DYING, as a status code. -/
  cause : Nat
  /-- A host reset took its ring away: records go to the shadow and the parked list (R296, R297). -/
  ringLost : Bool
  /-- Records parked while ORPHANED, oldest first (at most 64). -/
  parked : List (List Byte)
  parkedLost : BitVec 32
  /-- Shadow records by position (R292). -/
  shadow : Table (List Byte)
  /-- PATCH commands given to this queue (R204). -/
  patches : Nat
  /-- The head LAUNCH waits for cells; its wait has been counted long enough to pre-empt (R248). -/
  waits : Bool
  preempting : Bool
  /-- Pins (R259). -/
  pinMask : Option (BitVec 16)
  pinSet : Option (BitVec 128)
  /-- Span binding: handle, footprint log2, image (R304). -/
  binding : Option (Nat × Nat × Nat)
deriving DecidableEq, Repr

/-- A queue that is FREE. [DESIGN CHOICE, log entry 2] -/
def Queue.free : Queue :=
  { status := .free, context := 0, priority := 0, log2Slots := 0, msix := 0, ringOff := 0, timeoutUs := 0,
    cqBase := 0, modCount := 0, modUs := 0, span := false, tail := 0#64, cqHead := 0#64, taken := 0#64,
    posted := 0#64, outstanding := 0, irqCount := 0, ready := [], work := [], cause := 0, ringLost := false, parked := [],
    parkedLost := 0#32, shadow := [], patches := 0, waits := false, preempting := false, pinMask := none,
    pinSet := none, binding := none }

/-- A queue whose final record has been posted is FREE. Its counts, its parked list and its shadow page stand until
`QUEUE_CREATE` clears them (R292, R294). [DESIGN CHOICE, log entry 59] -/
def Queue.freed (x : Queue) : Queue :=
  { Queue.free with
    tail := x.tail, cqHead := x.cqHead, taken := x.taken, posted := x.posted, parked := x.parked, parkedLost := x.parkedLost
    shadow := x.shadow }

/-- What an admin command that is still executing waits for (R300). -/
inductive AdminWaitFor where
  | queue (q : Nat)
  | context (c : Nat)
  | partition (p : Nat)
  | window (p w : Nat)
  | drain (d : Nat)
  /-- `UNMAP` draining a range, then freeing its quarters. -/
  | unmap (d context : Nat)
  | release (d slot : Nat)
  | probe (tag : Nat)
  | region (r : Nat)
deriving DecidableEq, Repr

/-- An admin command in execution. -/
structure AdminWork where
  index : Nat
  cmdId : DWord
  waits : AdminWaitFor
  /-- The admin start it belongs to; records of an earlier start are discarded (R298). -/
  start : Nat
  /-- It holds the admin queue until it completes. -/
  blocks : Bool
deriving DecidableEq, Repr

/-- The admin queue and the notice ring (R298–R306). -/
structure Admin where
  running : Bool
  tail : DWord
  cqHead : DWord
  noteHead : DWord
  cqBase : DWord
  replyBase : DWord
  noteBase : DWord
  irqEn : Bool
  irqVector : BitVec 11
  taken : DWord
  posted : DWord
  notes : DWord
  /-- Notices held while the ring is full (code, result), oldest first; drops since room was last had. -/
  held : List (Nat × List Byte)
  dropped : Nat
  work : List AdminWork
  start : Nat
  /-- Within 1 µs of the last admin interrupt; records or notices posted meanwhile. -/
  holdoff : Bool
  irqPending : Bool
deriving DecidableEq, Repr

/-- An admin queue that is not started. [DESIGN CHOICE, log entry 2] -/
def Admin.reset : Admin :=
  { running := false, tail := 0#64, cqHead := 0#64, noteHead := 0#64, cqBase := 0#64, replyBase := 0#64, noteBase := 0#64, irqEn := false
    irqVector := 0#11, taken := 0#64, posted := 0#64, notes := 0#64, held := [], dropped := 0, work := [], start := 0, holdoff := false
    irqPending := false }

/-- What the device puts on the ordered posted-write path to the host (R3, R358). -/
inductive HostMsg where
  | write (addr : Nat) (bytes : List Byte) (poison : Bool)
  | msix (vector : Nat)
deriving DecidableEq, Repr

end Sys2Proof.Machine
end

