-- ==== Sys2Proof/Machine/HostState.lean ====
section
/-!
DEFINITION. The state of the host port and of registered regions (R353–R373, R417).
-/
namespace Sys2Proof.Machine

/-- Function states (R366). -/
inductive FnState where
  | active | draining | disabled
deriving DecidableEq, Repr

/-- A registered region (R361). -/
structure Region where
  kind : Nat
  firstSlot : Nat
  context : Nat
  base : Nat
  size : Nat
  /-- A host reset has taken its host address away (R368). -/
  stale : Bool
  /-- Its context or partition has ended, and writes to it have not left the host port (R365). -/
  ending : Bool
  /-- `KIND` 2: its remote key. -/
  rkey : Nat
deriving DecidableEq, Repr

/-- The host port. [DESIGN CHOICE, log entry 174] -/
structure HostPort where
  fn : FnState
  /-- The status that `REQ` reads. -/
  req : Nat
  modules : BitVec 4
  half : BitVec 4
  /-- Rate code of `HOST_PORT_STATE`; 0 while the link is down. -/
  rate : Nat
  retraining : Bool
  bme : Bool
  mse : Bool
  /-- Host-bound writes that wait in the post buffer, oldest first. -/
  held : List HostMsg
  /-- Launches whose writes are among them. -/
  heldFor : List Nat
  /-- Records, notices and interrupts that wait for room in the post buffer, oldest first (R366). -/
  waiting : List HostMsg
  /-- What the last window read returned, and its poison indication (the model's own field: the answer to the host). -/
  answer : List Byte
  answerPoison : Bool
  /-- A host reset discards host-bound writes until the driver starts the admin queue again (R368, R369). -/
  discarding : Bool
  /-- `WIN_SLOT` registers. -/
  slots : Table DWord
deriving DecidableEq, Repr

/-- The link down, the function ACTIVE. [DESIGN CHOICE, log entry 1] -/
def HostPort.reset : HostPort :=
  { fn := .active, req := 0, modules := 0#4, half := 0#4, rate := 0, retraining := false, bme := false, mse := false, held := [], heldFor := [], waiting := []
    answer := [], answerPoison := false, discarding := false, slots := [] }

/-- Bytes a message takes in the post buffer. -/
def HostMsg.size : HostMsg → Nat
  | .write _ bs _ => bs.length
  | .msix _ => 4

end Sys2Proof.Machine
end

