-- ==== Sys2Proof/Machine/KeeperState.lean ====
section
/-!
DEFINITION. The event log and what the keeper sends on the field network (R482–R484).
-/
namespace Sys2Proof.Machine

/-- An event entry (R482). -/
structure EventEntry where
  time : DWord
  seq : Nat
  code : Nat
  severity : Nat
  flags : Nat
  data : List Byte
deriving DecidableEq, Repr

/-- The 32 B of an event entry (R482). -/
def EventEntry.bytes (e : EventEntry) : List Byte :=
  bytesLE 8 e.time.toNat ++ bytesLE 4 e.seq ++ bytesLE 2 e.code ++ bytesLE 1 e.severity ++ bytesLE 1 e.flags
  ++ (e.data ++ List.replicate 16 0#8).take 16

/-- An emergency message a subscriber has not acknowledged (R483): subscriber 0–3, repeats already sent. -/
structure Unacked where
  subscriber : Nat
  repeats : Nat
  entry : EventEntry
deriving DecidableEq, Repr

/-- What the keeper sends on the field network: a KDP message as one UDP datagram, to an address (as a little-endian number) and port; or
another IPv6 packet (R468, R472). -/
inductive FieldMsg where
  | udp (addr port : Nat) (bytes : List Byte)
  | ip (packet : List Byte)
deriving DecidableEq, Repr

/-- The event log and emergency messages. -/
structure EventLog where
  /-- Newest last; at most 1,024. -/
  entries : List EventEntry
  /-- Sequence number of the next event, from 1 at keeper start. -/
  next : Nat
  /-- Device-fatal entries in flash, at most 64. -/
  fatal : List EventEntry
  unacked : List Unacked
  /-- (code, time) of the messages sent in the last second. -/
  sent : List (Nat × DWord)
deriving DecidableEq, Repr

/-- A log after keeper start. [DESIGN CHOICE, log entry 2] -/
def EventLog.empty : EventLog := { entries := [], next := 1, fatal := [], unacked := [], sent := [] }

/-! ## Sessions, segments and the mailbox (R472–R481) -/

/-- A session (R477–R479). -/
structure Session where
  slot : Nat
  path : KdpPath
  nonce : List Byte
  /-- Authenticated; its session key and the last `SEQNO` accepted. -/
  opened : Bool
  key : List Byte
  seqno : Nat
deriving DecidableEq, Repr

/-- A segment assembly (R474). -/
structure Assembly where
  path : KdpPath
  op : Nat
  session : Nat
  /-- For a WRITE: its first 12 body bytes. -/
  head : List Byte
  data : List Byte
  next : Nat
  segs : Nat
deriving DecidableEq, Repr

/-- The mailbox (R481). -/
structure Mailbox where
  request : Memory
  reply : Memory
  last : DWord
  done : DWord
deriving DecidableEq, Repr

/-! ## Boot and update (R487–R500) -/

/-- An image that runs: its bank, whether on trial, and its header. -/
structure RunningImage where
  bank : Nat
  trial : Bool
  header : List Byte
deriving DecidableEq, Repr

/-- A staged update (R495). -/
structure Update where
  /-- 0 IDLE, 1 STAGING, 2 VERIFIED, 3 TRIAL. -/
  state : Nat
  type : Nat
  /-- Spans written: offset and length. -/
  spans : List (Nat × Nat)
deriving DecidableEq, Repr

/-- An attestation report of one path (R500). -/
structure Attest where
  signing : Option (List Byte)
  report : List Byte
deriving DecidableEq, Repr

/-- Boot, flash and security state. -/
structure Boot where
  /-- The two boot record copies. -/
  records : List (List Byte)
  /-- Image areas by bank × 4 + type. -/
  areas : Table Memory
  running : Table RunningImage
  keeperCode : Nat
  fwCode : Nat
  ucodeCode : Nat
  recovery : Bool
  /-- Fuse counters by type, and revocation fuses. -/
  svn : Table Nat
  revoked : BitVec 4
  update : Update
  /-- Events the boot ROM leaves for the keeper to log when it starts (R492): code, severity, data. -/
  owed : List (Nat × Nat × List Byte)
  /-- The Alias keys of the running keeper exist (R497). -/
  aliasReady : Bool
  /-- Keeper measurements whose Alias keys are cached (R497). -/
  measured : List (List Byte)
  /-- Reports: 1 field, 2 mailbox. -/
  attest : Table Attest
deriving DecidableEq, Repr

/-- The keeper's protocol state. -/
structure Keeper where
  sessions : Table Session
  nextSession : Nat
  /-- Times of AUTH_FAILED results and lockout, by path (0 field, 1 mailbox). -/
  failures : Table (List DWord)
  locked : List Nat
  assemblies : List Assembly
  mailbox : Mailbox
  /-- Change counts and commit times of dictionary entries (R470). -/
  changes : Table Nat
  commits : Table (List DWord)
  /-- Last completion status of CMD entries, and the device time at keeper start. -/
  cmdStatus : Table Nat
  /-- CMD entries whose action still runs (R470). -/
  acting : List Nat
  started : DWord
  /-- Values in force of entries that take effect at keeper start. -/
  latched : Table Nat
  restoreAsked : Bool
  /-- Why the keeper starts: 0 power-up, 1 command, 2 watchdog, 3 image activation (R484). -/
  cause : Nat
  /-- `FIELD_STATE` [2:0] and [7]; the address is a duplicate. -/
  field : Nat
  reversedPair : Bool
  duplicate : Bool
  /-- The entry of `KEEPER_START`, whose emergency message waits for a usable address (R465). -/
  startEvent : Option EventEntry
deriving DecidableEq, Repr

/-- A mailbox with nothing in it. -/
def Mailbox.empty : Mailbox := { request := Memory.zero, reply := Memory.zero, last := 0#64, done := 0#64 }

/-- The factory's contents of a flash area, by bank × 4 + type. [DESIGN CHOICE, log entry 2] -/
def factoryArea (k : Nat) : Memory := Memory.undefined (2 ^ 64 + k)

/-- A boot record with every bank A and no trial (R488), without its CRC. [DESIGN CHOICE, log entry 2] -/
def plainRecord : List Byte := bytesLE 2 0x4252 ++ bytesLE 2 1 ++ bytesLE 4 0 ++ List.replicate 52 0#8

/-- The images of bank A run, as the factory wrote them. [DESIGN CHOICE, log entry 2] -/
def Boot.reset (first : List Byte) : Boot :=
  { records := [first, []]
    areas := [1, 2, 3, 5, 6, 7].map (fun k => (k, factoryArea k))
    running := [1, 2, 3].map (fun k => (k, { bank := 0, trial := false, header := (factoryArea k).read 0 1024 }))
    keeperCode := 0, fwCode := 0, ucodeCode := 0, recovery := false, svn := [], revoked := 0#4
    update := { state := 0, type := 0, spans := [] }, owed := [], aliasReady := false, measured := [], attest := [] }

/-- A keeper that has just started, its field port down. -/
def Keeper.reset : Keeper :=
  { sessions := [], nextSession := 1, failures := [], locked := [], assemblies := [], mailbox := Mailbox.empty, changes := [], commits := []
    cmdStatus := [], acting := [], started := 0#64, latched := [], restoreAsked := false, cause := 0, field := 0, reversedPair := false
    duplicate := false, startEvent := none }

end Sys2Proof.Machine
end

