-- ==== Sys2Proof/Machine/PowerState.lean ====
section
/-!
DEFINITION. The state types of supplies, operating points, thermal protection and the nurse's own tasks
(R436–R462), and of pins (R535–R537).
-/
namespace Sys2Proof.Machine

/-- Level of a rail (R436): off below 10 % of nominal, good at or above 95 %. -/
inductive RailLevel where
  | off | between | good
deriving DecidableEq, Repr

/-- Where self-sequencing stands (R438, R439). -/
inductive SeqState where
  /-- Not begun, or ended with every rail off. -/
  | idle
  /-- Step k enabled, waiting for good. -/
  | rising (k : Nat)
  /-- Step k good, its wait running. -/
  | waiting (k : Nat)
  | up
  /-- Step k disabled, waiting for off. -/
  | falling (k : Nat)
deriving DecidableEq, Repr

/-- Where the data path stands. -/
inductive PathState where
  /-- Held in reset, or not released. -/
  | held
  /-- Released; images load (R494). -/
  | loading
  | running
  /-- Stopped by a device-fatal error (R417). -/
  | stopped
deriving DecidableEq, Repr

/-- Supplies and clocks. -/
structure Power where
  rails : Table RailLevel
  /-- Rails the keeper has enabled. -/
  enabled : List Nat
  mode : Nat
  strapId : Nat
  seq : SeqState
  /-- Sequencing may begin: the mode allows it, or `POWER_UP` has been given (R437, R438, R440). -/
  upAsked : Bool
  pwrok : Bool
  resetN : Bool
  srefPresent : Bool
  /-- Board mode: a broken rail-order rule holds the data path until `PWROK` has been low (R440). -/
  orderHold : Bool
  pwrokFell : Bool
  pmbSwapped : Bool
  /-- The rail whose PMBus transaction failed last during sequencing, and how many times in a row (R441). -/
  pmbFails : Nat × Nat
  /-- The keeper powers down: every rail that it enabled goes off, not `VIN_C` alone (R439, R454). -/
  down : Bool
  path : PathState
  /-- A trip has stopped the device and no recovery has been accepted since; the rails of supply trips whose cause has not
  cleared (R454, R455). -/
  trip : Bool
  tripHolds : List Nat
  thermtrip : Bool
  /-- A trip on `VPP_D` or `VDD_D`: every granule is poisoned at recovery (R454). -/
  poisonAll : Bool
  /-- `DEVICE_RECOVER` has been accepted: the restart ends with the reset of every partition (R417). -/
  recovering : Bool
deriving DecidableEq, Repr

/-- Every rail good, board-sequenced, the data path running. [DESIGN CHOICE, log entry 1] -/
def Power.reset : Power :=
  { rails := [(1, .good), (2, .good), (3, .good), (4, .good), (5, .good), (6, .good), (7, .good), (8, .good)], enabled := [], mode := 0
    strapId := 0, seq := .idle, upAsked := false, pwrok := true, resetN := true, srefPresent := true, orderHold := false
    pwrokFell := false, pmbSwapped := false, pmbFails := (0, 0), down := false, path := .running, trip := false, tripHolds := []
    thermtrip := false, poisonAll := false, recovering := false }

/-- A comb's power state (R444–R449, R458, R462). -/
structure CombPower where
  point : Nat
  cap : Nat
  lstage : Nat
  guard : Nat
  /-- Hottest sensor, 1/16 °C. -/
  temp : Int
  /-- Task 12 is overdue; a guardband run is queued. -/
  overdue : Bool
  guardNow : Bool
  /-- Order in which its cap setting became its limit; 0 while it is not. -/
  heldAt : Nat
deriving DecidableEq, Repr

/-- A comb at P1. [DESIGN CHOICE, log entry 2] -/
def CombPower.p1 : CombPower :=
  { point := 1, cap := 1, lstage := 0, guard := 0, temp := 0, overdue := false, guardNow := false, heldAt := 0 }

/-- The power manager and the nurse's counts. -/
structure Manager where
  combs : Table CombPower
  /-- Windows in a row below 98 % of the cap with no change of a cap setting (up to 10); windows in a row below 90 %
  (up to 100). -/
  calm : Nat
  cool : Nat
  nextHeld : Nat
  /-- `MEM_HOT_HOURS` has been raised (R36). -/
  hotRaised : Bool
  /-- Package power of the last 100 windows, newest first, and rail powers as the keeper read them, in mW; energy not yet a
  whole mJ, in 10 nJ. -/
  recent : List Nat
  energyRest : Nat
  /-- Nurse tasks that are overdue: the task, and for tasks 5 and 12 its channel or comb, else 0 (R459). -/
  overdue : List (Nat × Nat)
  /-- Hottest edge-strip sensor, 1/16 °C (R454). -/
  edge : Int
  railMw : Table Nat
  railMv : Table Nat
  /-- Latched ALERT and pin state: faulty sites with consecutive failing samples, by site. -/
  pinBad : Table Nat
  pinFaults : List Nat
  pinGood : Table Nat
deriving DecidableEq, Repr

/-- Nothing measured yet; every comb at P1. [DESIGN CHOICE, log entry 2] -/
def Manager.reset : Manager :=
  { combs := [], calm := 0, cool := 0, nextHeld := 1, hotRaised := false, recent := [], energyRest := 0, overdue := [], edge := 0, railMw := [], railMv := []
    pinBad := [], pinFaults := [], pinGood := [] }

/-- A DRAM stack's interface: temperature, stage, refresh pace (R35–R37, R49). -/
structure StackTherm where
  temp : Int
  hotDie : Nat
  stage : Nat
  fast : Bool
  /-- Halved tREFW during the present minute. -/
  hotMinute : Bool
deriving DecidableEq, Repr

/-- A cool stack. [DESIGN CHOICE, log entry 2] -/
def StackTherm.cool : StackTherm := { temp := 0, hotDie := 0, stage := 0, fast := false, hotMinute := false }

/-- A DRAM channel's background state (R38, R39, R42, R47). -/
structure Channel where
  /-- Pending targeted refreshes: rank, bank, row. -/
  targeted : List (Nat × Nat × Nat)
  /-- Times of address errors. -/
  addrErrs : List DWord
  /-- Recentring: queued, urgent, aborts in a row, parts done in split mode. -/
  recentre : Bool
  urgent : Bool
  aborts : Nat
  parts : Option Nat
deriving DecidableEq, Repr

/-- An idle channel. [DESIGN CHOICE, log entry 2] -/
def Channel.idle : Channel := { targeted := [], addrErrs := [], recentre := false, urgent := false, aborts := 0, parts := none }

/-- What a granule awaits from the nurse (R42, R44): a corrected codeword, or the poison marker over the data as read. -/
inductive Fixup where
  /-- The corrected codeword of the data as decoded. -/
  | corrective (data : List Byte)
  /-- The marker over the data as read. -/
  | poison (data : List Byte)
deriving DecidableEq, Repr

/-- What the log of the memory controllers holds of a decode (R42): the channel (64 × stack + channel) and position of a corrected
symbol, or the physical address of an address error or of an uncorrectable granule. -/
inductive MemLogEntry where
  | corrected (channel pos : Nat)
  | address (pa : Nat)
  | uncorrectable (pa : Nat)
deriving DecidableEq, Repr

end Sys2Proof.Machine
end

