-- ==== Sys2Proof/Machine/TransState.lean ====
section
/-!
DEFINITION. The state types of address translation: TLB entries, walks in progress, fault records and drains
(R330–R348).
-/
namespace Sys2Proof.Machine

/-- Kinds of access (R342). -/
inductive Access where
  | read | write | fetch
deriving DecidableEq, Repr

/-- A cached translation: the leaf entry of a page of a context (R340). -/
structure TlbEntry where
  context : Nat
  /-- `VA[47:16]` for a 64 KiB page, `VA[47:29]` for a 512 MiB page. -/
  page : Nat
  large : Bool
  entry : Nat
deriving DecidableEq, Repr

/-- The tables a walker caches, most recent first: (context, index) of the level-1 and level-2 entries (R341). -/
structure WalkCache where
  level1 : List (Nat × Nat)
  level2 : List (Nat × Nat)
deriving DecidableEq, Repr

/-- A walker with nothing cached. -/
def WalkCache.empty : WalkCache := { level1 := [], level2 := [] }

/-- A walk in progress or a stalled requester. -/
structure Walk where
  /-- Collector and walker: 0–15 combs, 16–19 foragers. -/
  collector : Nat
  context : Nat
  va : Nat
  access : Access
  who : Requester
  launch : Nat
  /-- A later invalidation covered it: it is not installed and walks again (R346). -/
  stale : Bool
deriving DecidableEq, Repr

/-- An open fault record (R348). -/
structure FaultRecord where
  access : Access
  firstCell : Nat
  firstKind : Nat
  partition : Nat
  context : Nat
  page : Nat
  waiters : List Walk
deriving DecidableEq, Repr

/-- A collector (R344, R348). -/
structure Collector where
  records : Table FaultRecord
  fatal : DWord
  fatalVa : DWord
  /-- Requesters that wait for a record to free. -/
  queue : List Walk
deriving DecidableEq, Repr

/-- A collector with nothing held. -/
def Collector.empty : Collector := { records := [], fatal := 0#64, fatalVa := 0#64, queue := [] }

/-- A drain under R346: the range, and what it belongs to. -/
structure Drain where
  id : Nat
  context : Nat
  va : Nat
  /-- Zero: the whole context. -/
  length : Nat
  /-- The 512 MiB pages that the range touches: an entry of one serves addresses outside the range too. -/
  big : List Nat
  /-- The drain of an import slot: translations into it, in any context (R236). -/
  slot : Option Nat
  /-- The drain of a remap (R258). -/
  move : Bool
deriving DecidableEq, Repr

end Sys2Proof.Machine
end

