-- ==== Sys2Proof/Machine/State.lean ====
section
/-!
DEFINITION. The state of the device, its faults and refusals, and the state after reset.
-/
namespace Sys2Proof.Machine

/-- Why a step stops. -/
inductive Fault where
  /-- Raised by a command that names a unit the device does not have (a cell above 127, a queue above 1,023 …): no
  such event can occur (R14, R303). Safe: the device has no behaviour there. -/
  | noSuchUnit
deriving DecidableEq, Repr

/-- Why a command has no meaning. -/
inductive Refusal where
  /-- Raised by an arm of `exec` whose command is not modelled. Safe: no next state is claimed. -/
  | notModelled (mnemonic : String)
deriving DecidableEq, Repr

/-- The three ordering codes (R5). -/
inductive OrderCode where
  | lt820_512_A | lt820_512_E | lt820_256_A
deriving DecidableEq, Repr

/-- The state of the device. -/
structure State where
  pending : List Instr
  /-- Draws from the values the manual leaves open (the model's own field). -/
  free : Nat
  /-- The ordering code (R5). -/
  code : OrderCode
  /-- The free-running 64-bit counter at 1 GHz (R16). -/
  time : DWord
  /-- The four DRAM stacks, by device physical address (R17, R18). -/
  dram : Memory
  cells : Table Cell
  partitions : Table Partition
  contexts : Table Context
  quarters : Table Quarter
  migration : Option Migration
  images : Table Image
  nextImage : Nat
  launches : Table Launch
  nextLaunch : Nat
  nextOrder : Nat
  queues : Table Queue
  admin : Admin
  /-- What has left on the posted-write path. -/
  hostOut : List HostMsg
  host : HostPort
  regions : Table Region
  /-- `STREAM_ERR` of each comb, with the errors counted while it was held (R328). -/
  streamErr : Table (DWord × Nat)
  tlbs : Table (List TlbEntry)
  walks : List Walk
  /-- What the walker of each collector caches (R341). -/
  walkCaches : Table WalkCache
  collectors : Table Collector
  drains : List Drain
  nextDrain : Nat
  groups : Table Group
  nextHandle : Nat
  /-- Tables by handle × 4,096 + table number (R304). -/
  tables : Table TableDesc
  foragers : Table Forager
  /-- Pooling work in progress. -/
  works : Table BagWork
  nextWork : Nat
  staged : List Staged
  patches : List (Nat × Nat × PatchWork)
  /-- Committed PATCH identities (SRC, SEQ), with the handle of their group, for late outcome queries. -/
  committed : List (Nat × Nat × Nat)
  returns : Table RetEntry
  /-- The next return tag. -/
  nextReturn : Nat
  fanStages : List FanStage
  /-- Bag requests that came before their block, which travels on another virtual channel: home, launch and block, and the request
  (first, count, rank, tag), in arrival order (R216, R388). -/
  earlyReqs : List ((Nat × Nat × Nat) × (Nat × Nat × Nat × Nat))
  /-- Span records that wait for their queue, in arrival order: queue, record, poisoned granules (R276). -/
  spanWait : List (Nat × List Byte × List Nat)
  /-- Span records whose FAN credit is withheld while the fan-out staging is full, in arrival order (R276). -/
  spanPort : List (Nat × List Byte × List Nat)
  /-- Bag blocks already fanned out: launch, handle, virtual address; the position is the block's number. -/
  fanned : List (Nat × Nat × Nat)
  windows : Table Window
  /-- Requester and time of the key failures of the last second (R237). -/
  keyFails : List (Nat × DWord)
  imports : Table Import
  probes : Table Probe
  nextTag : Nat
  winReqs : Table WindowReq
  /-- Messages on their way to other members. -/
  fabricOut : List FabMsg
  /-- Waggle payloads this device originates. -/
  wagglesOut : List (List Byte)
  waggleSeq : Nat
  /-- When this device last originated a waggle (R395). -/
  waggleAt : Option DWord
  /-- Fabric ports (R376), what they put on their links, and frames handed to their unit. -/
  ports : Table Port
  wire : List WireOut
  delivered : List Frame
  /-- The waggle filter: origin, sequence number, time of entry (R395). -/
  filter : List (Nat × Nat × DWord)
  qps : Table Qp
  ethOut : List EthOut
  /-- Generation of each region number's remote key (R401). -/
  keyGens : Table Nat
  tasters : Table TasterCheck
  nextTaster : Nat
  health : Table Health
  replicas : Table Replica
  power : Power
  manager : Manager
  therms : Table StackTherm
  /-- Channels by 64 × stack + channel; activation counters by row key (R38); stored symbol errors of granules: position and
  difference; granules that await the nurse (R42). -/
  channels : Table Channel
  rowActs : Table Nat
  damage : Table (List (Nat × Nat))
  fixups : Table Fixup
  /-- What the last read of a granule returned, flagged, where the fault was the access's own (R42). -/
  struck : Table (List Byte)
  /-- The log of decodes, oldest first (R42). -/
  memLog : List MemLogEntry
  tracer : Debug
  keeper : Keeper
  boot : Boot
  log : EventLog
  fieldOut : List FieldMsg
  /-- The keeper runs; the field address is usable; REFCLK is present. -/
  keeperUp : Bool
  fieldUsable : Bool
  refclk : Bool
  /-- Dictionary entries that hold bytes. -/
  blobs : Table (List Byte)
  /-- Quarantined cells (R424). -/
  quarantined : BitVec 128
  /-- Object-dictionary entries that hold a number, by index × 256 + sub-index. -/
  dict : Table Nat
  /-- Counter space (R505). -/
  counters : Table Nat
  /-- Writes to reserved addresses of control space and of the host-visible range, which are counted (R21, R22); the spec names
  no entry for the count. -/
  rsvWrites : Nat
deriving DecidableEq, Repr

/-- The machine after reset: the data path just released with its images loaded, the keeper running, every register at its
reset value, the host link and every fabric port down. DESIGN CHOICE (log entry 1): which moment of the start the model
begins at. [DESIGN CHOICE, log entry 2] -/
def State.reset : State :=
  { pending := [], free := 0, code := .lt820_512_A, time := 0#64, dram := Memory.zero, cells := [], partitions := [], contexts := []
    quarters := [], migration := none, images := [], nextImage := 1, launches := [], nextLaunch := 1, nextOrder := 1, queues := []
    admin := Admin.reset, hostOut := [], host := HostPort.reset, regions := [], streamErr := [], tlbs := [], walks := [], walkCaches := [], collectors := []
    drains := [], nextDrain := 1, groups := [], nextHandle := 1, tables := [], foragers := [], works := [], nextWork := 1, staged := []
    patches := [], committed := [], returns := [], nextReturn := 0, fanStages := [], earlyReqs := [], spanWait := [], spanPort := [], fanned := []
    windows := [], keyFails := [], imports := [], probes := []
    nextTag := 1, winReqs := [], fabricOut := [], wagglesOut := [], waggleSeq := 0, waggleAt := none, ports := [], wire := [], delivered := [], filter := []
    qps := [], ethOut := [], keyGens := [], tasters := [], nextTaster := 1, health := [], replicas := [], power := Power.reset
    manager := Manager.reset, therms := [], channels := [], rowActs := [], damage := [], fixups := [], struck := [], memLog := [], tracer := Debug.reset
    keeper := Keeper.reset
    boot := Boot.reset (plainRecord ++ bytesLE 4 (crc32 plainRecord).toNat)
    log := EventLog.empty, fieldOut := [], keeperUp := true, fieldUsable := false, refclk := true, blobs := [], quarantined := 0#128
    dict := [(dkey 0x1013 0, 1)], counters := [], rsvWrites := 0 }

end Sys2Proof.Machine
end

