-- ==== Sys2Proof/Machine/Ops.lean ====
section
/-!
DEFINITION. The named operations over the state that every family uses: units, registers, counts and memories.
-/
namespace Sys2Proof.Machine

/-- What a meaning answers. [DESIGN CHOICE, log entry 5] -/
abbrev Res := Host.Outcome State Fault Refusal

/-! ## Units of the device (R14) -/

/-- Is the data path running? Where it is not, its units do nothing (R417, R438). [DESIGN CHOICE, log entry 5] -/
def State.running (s : State) : Bool := s.power.path == PathState.running

/-- A meaning that the data path has only while it runs. [DESIGN CHOICE, log entry 5] -/
def live (s : State) (f : State → State) : State := if s.running then f s else s

/-- What an event made of the state, but for what no event reaches: the model's queue of waiting commands, the ordering code (R5) and
the free-running device counter, which the events do not move (R16). [DESIGN CHOICE, log entry 5] -/
def keepQueue (s t : State) : State := { t with pending := s.pending, time := s.time, code := s.code }

/-- A meaning that always applies. -/
def always (s : State) (f : State → State) : Res := .next (keepQueue s (f s))
/-- A meaning of the data path as a whole. [DESIGN CHOICE, log entry 5] -/
def onPath (s : State) (f : State → State) : Res := always s (fun z => live z f)
/-- The meaning on a unit that exists, whether or not the data path runs. [DESIGN CHOICE, log entry 6] -/
def anyUnit (n bound : Nat) (s : State) (f : State → State) : Res :=
  if n < bound then always s f else .fault .noSuchUnit

/-- The meaning on a unit of the running data path that exists; a command that names another can be no event of the device.
[DESIGN CHOICE, log entry 5; DESIGN CHOICE, log entry 6] -/
def onUnit (n bound : Nat) (s : State) (f : State → State) : Res :=
  if n < bound then onPath s f else .fault .noSuchUnit

/-- A meaning on a cell. [DESIGN CHOICE, log entry 5; DESIGN CHOICE, log entry 6] -/
def onCell (c : Nat) (s : State) (f : State → State) : Res := onUnit c 128 s f
/-- A meaning on a thread of a cell. [DESIGN CHOICE, log entry 5; DESIGN CHOICE, log entry 6] -/
def onThread (c t : Nat) (s : State) (f : State → State) : Res :=
  if c < 128 ∧ t < 16 then onPath s f else .fault .noSuchUnit
/-- A meaning on a user queue. [DESIGN CHOICE, log entry 6] -/
def onQueue (q : Nat) (s : State) (f : State → State) : Res := onUnit q 1024 s f
/-- A meaning on a partition. [DESIGN CHOICE, log entry 6] -/
def onPartition (p : Nat) (s : State) (f : State → State) : Res := onUnit p 16 s f
/-- A meaning on a comb. [DESIGN CHOICE, log entry 6] -/
def onComb (c : Nat) (s : State) (f : State → State) : Res := onUnit c 16 s f
/-- A meaning on a stack. [DESIGN CHOICE, log entry 6] -/
def onStack (k : Nat) (s : State) (f : State → State) : Res := onUnit k 4 s f
/-- A meaning on a lane of a fabric port (R376). [DESIGN CHOICE, log entry 6] -/
def onLane (p lane : Nat) (s : State) (f : State → State) : Res :=
  if p < 8 ∧ lane < 4 then onPath s f else .fault .noSuchUnit
/-- A meaning on a rail, 1–8 (R437), whether or not the data path runs. [DESIGN CHOICE, log entry 6] -/
def onRail (r : Nat) (s : State) (f : State → State) : Res := if 1 ≤ r ∧ r ≤ 8 then always s f else .fault .noSuchUnit
/-- A meaning of the host port, which also serves in its stopped mode (R417). [DESIGN CHOICE, log entry 6] -/
def onHost (s : State) (f : State → State) : Res :=
  always s (fun z => if z.running || z.power.path == PathState.stopped then f z else z)
/-- The same on a numbered unit of the host port. [DESIGN CHOICE, log entry 6] -/
def onHostUnit (n bound : Nat) (s : State) (f : State → State) : Res :=
  if n < bound then onHost s f else .fault .noSuchUnit
/-- A meaning on a fabric port. [DESIGN CHOICE, log entry 6] -/
def onPort (p : Nat) (s : State) (f : State → State) : Res := onUnit p 8 s f

/-! ## Cells and threads -/

/-- A cell before any launch has been placed on it. [DESIGN CHOICE, log entry 2] -/
def Cell.reset : Cell :=
  { launch := none, rank := 0, threads := [], sems := [], waiters := [], scratch := Memory.zero, tbufs := [], headAt := [],
    calendar := bootCalendar, layerCount := 0#14, layer := .running, mark := .none, queues := [], nextSeq := 0,
    recent := [], arrived := 0, cycles := 0#64, genSteps := 0#64, ingress := [], fault := 0#64, faultCount := 0, residency := none, done := false,
    streams := [], array := ArrayState.reset, quant := QuantState.reset, bags := [], vec := VecState.idle,
    samp := SampState.idle }

/-- Cell `c`. -/
def State.cell (s : State) (c : Nat) : Cell := tabGet Cell.reset s.cells c
/-- The state with cell `c` replaced. -/
def State.setCell (s : State) (c : Nat) (x : Cell) : State := { s with cells := tabSet s.cells c x }
/-- The state with cell `c` changed. -/
def State.modCell (s : State) (c : Nat) (f : Cell → Cell) : State := s.setCell c (f (s.cell c))

/-- What the hub keeps of cell `c` (R424). -/
def State.healthOf (s : State) (c : Nat) : Health := tabGet Health.clean s.health c
def State.setHealth (s : State) (c : Nat) (h : Health) : State := { s with health := tabSet s.health c h }

/-- Thread `t` of a cell. -/
def Cell.thread (x : Cell) (t : Nat) : Thread := tabGet Thread.idle x.threads t
/-- The cell with thread `t` replaced. -/
def Cell.setThread (x : Cell) (t : Nat) (h : Thread) : Cell := { x with threads := tabSet x.threads t h }
/-- Thread `t` of cell `c`. -/
def State.thread (s : State) (c t : Nat) : Thread := (s.cell c).thread t
/-- The state with thread `t` of cell `c` replaced. -/
def State.setThread (s : State) (c t : Nat) (h : Thread) : State := s.modCell c (fun x => x.setThread t h)
/-- The state with thread `t` of cell `c` changed. -/
def State.modThread (s : State) (c t : Nat) (f : Thread → Thread) : State := s.setThread c t (f (s.thread c t))

/-- An s-register; s0 reads 0 (R51). -/
def Thread.reg (h : Thread) (r : Nat) : DWord := if r = 0 then 0#64 else tabGet 0#64 h.regs r
/-- An s-register written; a write to s0 is discarded (R51). -/
def Thread.setReg (h : Thread) (r : Nat) (v : DWord) : Thread :=
  if r = 0 then h else { h with regs := tabSet h.regs r v }
/-- A predicate; p0 reads 1 (R51). -/
def Thread.pred (h : Thread) (p : Nat) : Bool := p == 0 || h.preds.getLsbD p
/-- A predicate written; a write to p0 is discarded (R51). -/
def Thread.setPred (h : Thread) (p : Nat) (v : Bool) : Thread :=
  if p = 0 then h
  else { h with preds := if v then h.preds ||| (1#8 <<< p) else h.preds &&& ~~~ (1#8 <<< p) }

/-- The comb of a cell (R14). -/
def combOf (c : Nat) : Nat := c / 8

/-! ## Other numbered objects -/

def State.queue (s : State) (q : Nat) : Queue := tabGet Queue.free s.queues q
def State.setQueue (s : State) (q : Nat) (x : Queue) : State := { s with queues := tabSet s.queues q x }
def State.modQueue (s : State) (q : Nat) (f : Queue → Queue) : State := s.setQueue q (f (s.queue q))
def State.part (s : State) (p : Nat) : Partition := tabGet Partition.none s.partitions p
def State.setPart (s : State) (p : Nat) (x : Partition) : State := { s with partitions := tabSet s.partitions p x }
def State.modPart (s : State) (p : Nat) (f : Partition → Partition) : State := s.setPart p (f (s.part p))
def State.ctx (s : State) (c : Nat) : Context := tabGet Context.unused s.contexts c
def State.setCtx (s : State) (c : Nat) (x : Context) : State := { s with contexts := tabSet s.contexts c x }
def State.launch? (s : State) (l : Nat) : Option Launch := tabFind s.launches l
def State.setLaunch (s : State) (l : Nat) (x : Launch) : State := { s with launches := tabSet s.launches l x }
/-- A launch changed, where it exists. -/
def State.modLaunch (s : State) (l : Nat) (f : Launch → Launch) : State :=
  match s.launch? l with
  | some x => s.setLaunch l (f x)
  | none => s
def State.collector (s : State) (k : Nat) : Collector := tabGet Collector.empty s.collectors k
def State.setCollector (s : State) (k : Nat) (x : Collector) : State := { s with collectors := tabSet s.collectors k x }

/-! ## Dictionary numbers and counters -/

/-- The value of a numeric dictionary entry. -/
def State.entry (s : State) (index sub : Nat) : Nat := (tabFind s.dict (dkey index sub)).getD (dictDefault (dkey index sub))
/-- A numeric dictionary entry set. -/
def State.setEntry (s : State) (index sub v : Nat) : State := { s with dict := tabSet s.dict (dkey index sub) v }
/-- A 64-bit counter of counter space raised, unless counting is frozen (R505, R511). -/
def State.count (s : State) (off n : Nat) : State :=
  if s.tracer.frozen then s else { s with counters := tabSet s.counters off ((tabGet 0 s.counters off + n) % 2 ^ 64) }
/-- A counter of the full set raised; it counts only while `CTR_FULL_EN` is 1 (R507). -/
def State.countFull (s : State) (off n : Nat) : State := if s.entry 0x8002 0 == 1 then s.count off n else s
/-- How far a counter that the model does not follow has counted while its set did: by an open amount at each free value drawn.
[DESIGN CHOICE, log entry 78] -/
def Counting.total (c : Counting) (off now : Nat) : Nat :=
  ((c.spans ++ (match c.since with | some a => [(a, now)] | none => [])).map (fun p =>
    ((List.range (p.2 - p.1)).map (fun i => (Config.timedCounter off (p.1 + i)).toNat)).sum)).sum % 2 ^ 64

/-- The set stops counting, starts, or is zeroed. -/
def Counting.stop (c : Counting) (now : Nat) : Counting :=
  match c.since with
  | some a => { spans := c.spans ++ [(a, now)], since := none }
  | none => c
def Counting.start (c : Counting) (now : Nat) : Counting := if c.since.isSome then c else { c with since := some now }
def Counting.clear (c : Counting) (now : Nat) : Counting := { spans := [], since := c.since.map (fun _ => now) }

/-- What a counter of counter space reads. [DESIGN CHOICE, log entry 10; DESIGN CHOICE, log entry 78] -/
def State.counterAt (s : State) (off : Nat) : Nat :=
  if timedCounter off then (if off < 0x200 then s.tracer.always else s.tracer.full).total off s.free
  else tabGet 0 s.counters off

/-- The full set counts while `CTR_FULL_EN` is 1 and nothing is frozen (R507, R511). -/
def State.recount (s : State) : State :=
  let on := s.entry 0x8002 0 == 1 && !s.tracer.frozen
  { s with tracer := { s.tracer with full := if on then s.tracer.full.start s.free else s.tracer.full.stop s.free } }
/-- A count raised; it saturates at the top of its type (R50, R307). -/
def State.bump (s : State) (index sub n : Nat) : State :=
  let s1 := s.setEntry index sub (satAdd (dictBits (dkey index sub)) (s.entry index sub) n)
  let s2 := match alwaysOf index with
    | some k => s1.count (8 * k) n
    | none => s1
  match fullOf index sub with
  | some off => s2.countFull off n
  | none => s2

/-! ## Free values -/

/-- Draw a free number. [DESIGN CHOICE, log entry 7] -/
def State.drawNat (s : State) : Nat × State := (Config.freeNat s.free, { s with free := s.free + 1 })

/-! ## Device physical memory (R17, R18) -/

/-- Bytes populated in each stack's 128 GiB region (R18). -/
def stackBytes (o : OrderCode) : Nat := match o with
  | .lt820_512_A => 0x2000000000
  | .lt820_512_E => 0x2000000000
  | .lt820_256_A => 0x1000000000

/-- Does the address lie in populated DRAM? -/
def State.isDram (s : State) (pa : Nat) : Bool :=
  decide (pa < 0x8000000000) && decide (pa % 0x2000000000 < stackBytes s.code)

/-- The stack a DRAM address lies in: bits [38:37] (R18). -/
def stackOf (pa : Nat) : Nat := pa / 0x2000000000 % 4

/-- Is the address in the device-reserved region (R20)? -/
def isReserved (pa : Nat) : Bool := decide (0x6000000000 ≤ pa) && decide (pa < 0x6080000000)

/-- The cell and offset of a scratchpad aperture address, holes left out (R17, R18). -/
def scratchOf (pa : Nat) : Option (Nat × Nat) :=
  if 0x010000000000 ≤ pa ∧ pa < 0x010020000000 ∧ pa % 0x400000 < 0x300000
  then some ((pa - 0x010000000000) / 0x400000, pa % 0x400000) else none

/-- Bytes stored into a memory whose flags stand for `unit`-byte units: a unit written whole takes the flags of the
data, a unit written in part keeps a flag it has (R43). -/
def Memory.store (m : Memory) (unit a : Nat) (bs : List Byte) (poison suspect : Bool) : Memory :=
  let n := bs.length
  let stored := m.write a bs
  let first := a / unit
  let units := (List.range ((a + n + unit - 1) / unit - first)).map (· + first)
  if n = 0 then m else
  units.foldl (fun acc u =>
    let whole := decide (a ≤ u * unit) && decide ((u + 1) * unit ≤ a + n)
    let keep := fun (l : List Nat) => !whole && l.contains u
    (acc.setPoison u (poison || (!whole && m.hasPoison u))).setSuspect u (suspect || keep m.suspect)) stored

/-! ### Codewords (R40–R44) -/

/-- The stored difference of a granule from its clean codeword, the poison marker included. -/
def State.storedErrs (s : State) (g : Nat) : List (Nat × Nat) :=
  tabGet [] s.damage g ++ (if s.dram.hasPoison g then poisonPattern else [])

/-- A difference added to what a granule stores: symbols at one position combine. -/
def addErr (errs : List (Nat × Nat)) (e : Nat × Nat) : List (Nat × Nat) :=
  match errs.find? (fun x => x.1 == e.1) with
  | some x => (errs.filter (fun y => y.1 != e.1)) ++ (if x.2 ^^^ e.2 == 0 then [] else [(e.1, x.2 ^^^ e.2)])
  | none => if e.2 == 0 then errs else errs ++ [e]

/-- A granule as the read that the controller last made of it returns it: data and poison flag (R42). -/
def State.granule (s : State) (g : Nat) : List Byte × Bool :=
  match tabFind s.struck g with
  | some bs => (bs, true)
  | none =>
    let errs := s.storedErrs g
    (decodedData (s.dram.read (64 * g) 64) errs, match decode16 errs with | .clean => false | .corrected _ => false | _ => true)

/-- Bytes of DRAM as a read returns them, with poison. -/
def State.dramView (s : State) (pa n : Nat) : List Byte × Bool :=
  if (s.damage.isEmpty && s.struck.isEmpty) || n == 0 then (s.dram.read pa n, s.dram.poisoned 64 pa n)
  else
    let gs := (List.range ((pa + n - 1) / 64 - pa / 64 + 1)).map (fun i => s.granule (pa / 64 + i))
    (((gs.flatMap (fun (g : List Byte × Bool) => g.1)).drop (pa % 64)).take n, gs.any (fun (g : List Byte × Bool) => g.2))

/-- The granules of a span that a write covers in part. -/
def partGranules (pa n : Nat) : List Nat :=
  if n = 0 then []
  else [pa / 64, (pa + n - 1) / 64].eraseDups.filter (fun g => !(decide (pa ≤ 64 * g) && decide (64 * g + 64 ≤ pa + n)))

/-- Channel of a stack, by device physical address (R28). -/
def dramChannel (pa : Nat) : Nat := field pa 13 8 ^^^ field pa 25 20
/-- Number of a channel on the device: 64 × stack + channel. -/
def dramUnit (pa : Nat) : Nat := 64 * stackOf pa + dramChannel pa
/-- A counter of a channel's group (R507). -/
def State.countChannel (s : State) (u i n : Nat) : State := s.countFull (0x30000 + 0x40 * u + 8 * i) n

/-- A merge into poison is counted, as a poison marker that the controller writes (R43, R50). -/
def State.countMerge (s : State) (g : Nat) : State :=
  (s.bump 0x4007 (stackOf (64 * g) + 1) 1).countChannel (dramUnit (64 * g)) 4 1

/-- A channel. -/
def State.channel (s : State) (u : Nat) : Channel := tabGet Channel.idle s.channels u
def State.setChannel (s : State) (u : Nat) (x : Channel) : State := { s with channels := tabSet s.channels u x }

/-- An entry of the memory controllers' log (R42). [DEDUCED, log entry 103] -/
def State.noteMem (s : State) (e : MemLogEntry) : State := { s with memLog := s.memLog ++ [e] }

/-- Is a one-second-old time still within the window of a rate limit? [DEDUCED, log entry 123] -/
def within1s (now then_ : DWord) : Bool := decide ((now - then_).toNat < 1000000000)

/-- An address error on a channel: four within 1 s queue an urgent recentring (R42). [DESIGN CHOICE, log entry 155] -/
def State.addressError (s : State) (u : Nat) : State :=
  let x := s.channel u
  let recent := (x.addrErrs.filter (fun t => within1s s.time t)) ++ [s.time]
  let y := if 4 ≤ recent.length then { x with addrErrs := [], recentre := true, urgent := true } else { x with addrErrs := recent }
  ((s.setChannel u y).bump 0x4008 (u / 64 + 1) 1).countChannel u 5 1

/-- A corrected symbol of a channel is logged and counted (R42). -/
def State.noteCorrected (s : State) (u p : Nat) : State :=
  ((s.noteMem (.corrected u p)).bump 0x4006 (u / 64 + 1) 1).countChannel u 3 1

/-- What the merge read of a partial write puts under the bytes written, `errs` being what it met: the data as decoded, under the
poison marker where the decode is none that merges. The outcome is logged and counted as any decode's is (R42, R43). [DEDUCED, log entry 103] -/
def State.mergeAs (s : State) (g : Nat) (errs : List (Nat × Nat)) : State :=
  let u := dramUnit (64 * g)
  let data := decodedData (s.dram.read (64 * g) 64) errs
  let s1 := if data == s.dram.read (64 * g) 64 && !s.dram.hasPoison g then s
            else { s with dram := (s.dram.write (64 * g) data).setPoison g false }
  let marked := fun (z : State) => State.countMerge { z with dram := z.dram.setPoison g true } g
  match decode16 errs with
  | .clean => s1
  | .corrected p => s1.noteCorrected u p
  | .poison => marked s1
  | .address => marked ((s1.noteMem (.address (64 * g))).addressError u)
  | .bad => marked (s1.noteMem (.uncorrectable (64 * g)))

/-- The merge read of a partial write; one that decodes as an address error is made once more (R43). -/
def State.mergeRead (s : State) (g : Nat) (errs again : List (Nat × Nat)) : State :=
  if decode16 errs == .address then ((s.noteMem (.address (64 * g))).addressError (dramUnit (64 * g))).mergeAs g again
  else s.mergeAs g errs

/-- Bytes laid over what their granules hold; the codewords are new, and what the nurse had queued for them is cancelled (R43, R44).
Suspect is lost when stored (R411). -/
def State.dramStore (s : State) (pa : Nat) (bs : List Byte) (poison : Bool) : State :=
  let out := fun (g : Nat) => bs.length == 0 || decide (g < pa / 64) || decide ((pa + bs.length - 1) / 64 < g)
  { s with
    dram := s.dram.store 64 pa bs poison false
    damage := s.damage.filter (fun (d : Nat × List (Nat × Nat)) => out d.1)
    fixups := s.fixups.filter (fun (d : Nat × Fixup) => out d.1)
    struck := s.struck.filter (fun (d : Nat × List Byte) => out d.1) }

/-- DRAM written by an engine: each granule that the write covers in part is read and merged (R43). -/
def State.dramWrite (s : State) (pa : Nat) (bs : List Byte) (poison : Bool) : State :=
  ((partGranules pa bs.length).foldl (fun (acc : State) g => acc.mergeRead g (acc.storedErrs g) (acc.storedErrs g)) s).dramStore pa bs poison

/-- What is known of a stack's temperature (R35–R37). -/
def State.stackTherm (s : State) (k : Nat) : StackTherm := tabGet StackTherm.cool s.therms k

/-- Does a stack take foreground work? In throttle stage 3 it waits (R37). [DESIGN CHOICE, log entry 173] -/
def State.stackOpen (s : State) (pa : Nat) : Bool := (s.stackTherm (stackOf pa)).stage != 3

/-! ## Scratchpads -/

/-- The thread's oldest posted store has had its slot (R54). -/
def Cell.landOne (x : Cell) (t : Nat) : Cell :=
  let h := x.thread t
  match h.spStores with
  | [] => x
  | (off, bs) :: rest => { x.setThread t { h with spStores := rest } with scratch := x.scratch.store 64 off bs false false }

/-- Every posted scratchpad store of a thread has had its slot (R54). -/
def Cell.landSp (x : Cell) (t : Nat) : Cell :=
  let h := x.thread t
  if h.spStores.isEmpty then x
  else { x.setThread t { h with spStores := [] } with
           scratch := h.spStores.foldl (fun (m : Memory) p => m.store 64 p.1 p.2 false false) x.scratch }

/-- Every posted scratchpad store of a cell has had its slot (R54). -/
def Cell.landAllSp (x : Cell) : Cell := x.threads.foldl (fun (acc : Cell) p => acc.landSp p.1) x

/-- Scratchpad written: units of 64 B, suspect carried (R411). -/
def State.spWrite (s : State) (c off : Nat) (bs : List Byte) (poison suspect : Bool) : State :=
  s.modCell c (fun x => { x with scratch := x.scratch.store 64 off bs poison suspect })

/-- A zero-poison read of a cell's scratchpad. -/
def State.spRead (s : State) (c off n : Nat) : List Byte := (s.cell c).scratch.read off n

/-! ## Messages to group members (R215) -/

/-- Send a message to the member of rank `r`. -/
def State.sendRank (s : State) (g : Group) (r : Nat) (b : FabBody) : State :=
  { s with fabricOut := s.fabricOut ++ [{ dst := g.members.getD r 0, body := b }] }

/-- Send a message to every other member. -/
def State.sendPeers (s : State) (g : Group) (b : FabBody) : State :=
  ((List.range g.size).filter (· != g.rank)).foldl (fun acc r => acc.sendRank g r b) s

/-! ## Identity and waggles -/

/-- A string or BLOB entry that the factory or a write fills: what was written, else the factory's bytes of an entry with
no default (R486, R504). -/
def State.blob (s : State) (index sub n : Nat) : List Byte :=
  match tabFind s.blobs (dkey index sub) with
  | some b => b
  | none => (List.range n).map (Config.factory index sub)

/-- This device's fabric address (R390). -/
def State.ownAddr (s : State) : Nat := tabGet 0 s.keeper.latched (dkey 0x5001 0)

/-- Originate a waggle (R394, R395): kind and 32 B body. -/
def State.waggle (s : State) (kind : Nat) (body : List Byte) : State :=
  let p := bytesLE 1 kind ++ bytesLE 1 0 ++ bytesLE 2 s.waggleSeq ++ bytesLE 3 s.ownAddr ++ bytesLE 1 0
    ++ bytesLE 8 s.time.toNat ++ (body ++ List.replicate 32 0#8).take 32
  { s with wagglesOut := s.wagglesOut ++ [p], waggleSeq := (s.waggleSeq + 1) % 65536 }

end Sys2Proof.Machine
end

