-- ==== Sys2Proof/Machine/Events.lean ====
section
/-!
DEFINITION. Events and emergency messages of the keeper (R482–R484).
-/
namespace Sys2Proof.Machine


/-- Is subscriber `i` set (R486: all zero is unused)? -/
def State.subscriberSet (s : State) (i : Nat) : Bool := !(allZero (tabGet [] s.blobs (dkey 0x1017 (i + 1))))

/-- The 52 B body of an EMCY message (R483). -/
def State.emcyBody (s : State) (e : EventEntry) : List Byte :=
  s.blob 0x1005 0 16 ++ bytesLE 3 (tabGet 0 s.keeper.latched (dkey 0x5001 0))
  ++ bytesLE 1 (s.entry 0x1013 0) ++ e.bytes

/-- The EMCY message of an event: the KDP header and its body (R472, R483). [DESIGN CHOICE, log entry 170] -/
def State.emcyMessage (s : State) (e : EventEntry) : List Byte :=
  bytesLE 2 0x4B44 ++ bytesLE 1 1 ++ bytesLE 1 8 ++ bytesLE 4 (Config.emcyReqId e.seq).toNat ++ bytesLE 8 0 ++ bytesLE 2 52 ++ bytesLE 2 0
  ++ bytesLE 2 0 ++ bytesLE 2 1 ++ s.emcyBody e

/-- `ff02::1` (R486). -/
def allNodes : List Byte := [0xFF#8, 0x02#8] ++ List.replicate 13 0#8 ++ [0x01#8]

/-- `KDP_PORT` in force (R468, R486). -/
def State.kdpPort (s : State) : Nat := tabGet (s.entry 0x1015 0) s.keeper.latched (dkey 0x1015 0)

/-- The message of an event to `EMCY_GROUP`, at `KDP_PORT` (R483). -/
def State.emcyToGroup (s : State) (e : EventEntry) : FieldMsg :=
  .udp (leNat (tabGet allNodes s.blobs (dkey 0x1016 0))) s.kdpPort (s.emcyMessage e)

/-- The same to the address and port of subscriber `i` (R483, R486). [DESIGN CHOICE, log entry 170] -/
def State.emcyTo (s : State) (i : Nat) (e : EventEntry) : FieldMsg :=
  let b := tabGet [] s.blobs (dkey 0x1017 (i + 1))
  .udp (leAt b 0 16) (leAt b 16 2) (s.emcyMessage e)

/-- Send the emergency message of a logged event, to the group and to each subscriber; at most 10 of one code in 1 s. -/
def State.sendEmcy (s : State) (e : EventEntry) : State :=
  let recent := s.log.sent.filter (fun p => within1s s.time p.2)
  if !s.fieldUsable then s
  else if 10 ≤ (recent.filter (fun p => p.1 == e.code)).length then
    ({ s with log := { s.log with sent := recent } }).bump 0x1024 0 1
  else
    let subs := (List.range 4).filter s.subscriberSet
    { s with
      fieldOut := s.fieldOut ++ [s.emcyToGroup e] ++ subs.map (fun i => s.emcyTo i e)
      log := { s.log with
        sent := recent ++ [(e.code, s.time)]
        unacked := s.log.unacked ++ subs.map (fun i => { subscriber := i, repeats := 0, entry := e }) } }

/-- An event as it enters the log now. -/
def State.eventEntry (s : State) (code severity : Nat) (data : List Byte) : EventEntry :=
  { time := s.time, seq := s.log.next, code := code, severity := severity, flags := b2n (!s.refclk), data := data }

/-- Is the log full, so that the next entry overwrites the oldest? -/
def State.logFull (s : State) : Bool := decide (1024 ≤ s.log.entries.length)

/-- An entry written to the log; one it overwrites is counted (R482). -/
def State.logEntry (s : State) (e : EventEntry) : State :=
  let s1 := { s with log := { s.log with
    entries := (s.log.entries ++ [e]).drop (s.log.entries.length + 1 - 1024), next := s.log.next + 1
    fatal := if e.severity == 3 then (s.log.fatal ++ [e]).drop (s.log.fatal.length + 1 - 64) else s.log.fatal } }
  if s.logFull then s1.bump 0x1023 0 1 else s1

/-- `EVENTS_LOST` with the count, once an entry has been overwritten and the log holds no such event (R482, R484). -/
def State.noteLost (s : State) (full : Bool) : State :=
  if full && !s.log.entries.any (fun (e : EventEntry) => e.code == 0x41) then
    s.logEntry (s.eventEntry 0x41 0 (bytesLE 4 (s.entry 0x1023 0)))
  else s

/-- Log an event, and send its emergency message where the table of R484 marks it so. During a keeper restart there is
no log entry (R485). [DEDUCED, log entry 42] -/
def State.event (s : State) (code severity : Nat) (emergency : Bool) (data : List Byte) : State :=
  if !s.keeperUp then s
  else
    let e := s.eventEntry code severity data
    let s1 := (s.logEntry e).noteLost s.logFull
    if emergency then s1.sendEmcy e else s1

/-- The action of a CMD entry ends with a completion status (R470). [DESIGN CHOICE, log entry 169] -/
def State.cmdEnd (s : State) (index sub st : Nat) : State :=
  let key := dkey index sub
  if !s.keeper.acting.contains key then s
  else { s with keeper := { s.keeper with acting := flagDel s.keeper.acting key, cmdStatus := tabSet s.keeper.cmdStatus key st } }

end Sys2Proof.Machine
end

