-- ==== Sys2Proof/Machine/Trace.lean ====
section
/-!
DEFINITION. Counters' freeze, the global trigger and the trace (rows TRIGGER_NOW, DBG_TRIG_N_FALL, TRACE_DRAIN_BLOCK,
TRACE_ARM, TRACE_OFF, CTR_CLEAR, CTR_RELEASE, TELEMETRY_COPY; R505–R522).
-/
namespace Sys2Proof.Machine

/-! ## Islands (R505) -/

def islandCell (c : Nat) : Nat := c
def islandHub (k : Nat) : Nat := 128 + k
def islandForager (f : Nat) : Nat := 144 + f
def islandHost : Nat := 152
def islandPort (p : Nat) : Nat := 153 + p
def islandKeeper : Nat := 161

/-- Does an island lie on die A (R14, R505)? -/
def islandOnDieA (i : Nat) : Bool :=
  decide (i < 64) || (decide (128 ≤ i) && decide (i < 136)) || i == 144 || i == 145 || i == 148 || i == 149
  || (decide (152 ≤ i) && decide (i < 157)) || i == 161

/-- How far an island's copy of the device counter may stand from the reference, which the keeper island holds (R16).
[DESIGN CHOICE, log entry 142] -/
def skewBound (i : Nat) : Nat := if i = 161 then 0 else if islandOnDieA i then 8 else 20

/-- A number moved by at most `b` either way, as `k` tells; not below zero. -/
def nudged (n b k : Nat) : Nat := n + k % (2 * b + 1) - b

/-- An island's copy of the device counter (R16). [DESIGN CHOICE, log entry 142] -/
def State.islandTime (s : State) (i : Nat) : DWord :=
  BitVec.ofNat 64 (nudged s.time.toNat (skewBound i) (Config.skew i s.time.toNat))

/-- The comb whose hub stages an island's records (R519). -/
def stagingComb (island : Nat) : Nat :=
  if island < 128 then combOf island
  else if island < 144 then island - 128
  else if island < 148 then 4 * (island - 144) + 3
  else if island < 152 then 4 * (island - 148) + 3
  else if 153 ≤ island ∧ island < 161 then 2 * (island - 153) + 1
  else 0

/-! ## Trigger (R510–R514) -/

/-- Room of one comb's staging, and of the trace array, in records. -/
def stagingSize : Nat := 8192
def traceSize : Nat := 524160

/-- A trace record (R516). -/
def State.traceBytes (s : State) (kind island ctx part : Nat) (data : List Byte) : List Byte :=
  bytesLE 8 (s.islandTime island).toNat ++ bytesLE 1 kind ++ bytesLE 1 (b2n s.tracer.frozen) ++ bytesLE 2 island ++ bytesLE 2 ctx
  ++ bytesLE 1 part ++ bytesLE 1 0 ++ (data ++ List.replicate 16 0#8).take 16

/-- Put one record into a comb's staging, or lose it (R519). [DEDUCED, log entry 138] -/
def State.stageInto (s : State) (comb : Nat) (rec_ : List Byte) : State :=
  let d := s.tracer
  let q := tabGet [] d.staged comb
  let owed := tabGet 0 d.lostPending comb
  let enabled := bitAt (s.entry 0x8021 0) 11
  let notice := s.traceBytes 0x0B (islandHub comb) 0xFFFF 0xFF (bytesLE 4 owed)
  let q' := if owed != 0 && decide (q.length + 2 ≤ stagingSize) then (if enabled then q ++ [notice] else q) else q
  if stagingSize ≤ q.length then
    let lost : Debug := { d with
      lost := d.lost + 1, lostComb := tabSet d.lostComb comb (tabGet 0 d.lostComb comb + 1), lostPending := tabSet d.lostPending comb (owed + 1) }
    (({ s with tracer := lost }).bump 0x8026 0 1).countFull (0x20000 + 0x400 * comb + 8 * 29) 1
  else
    let kept : Debug := { d with
      staged := tabSet d.staged comb (q' ++ [rec_])
      lostPending := if decide (q.length + 2 ≤ stagingSize) then tabErase d.lostPending comb else d.lostPending }
    ({ s with tracer := kept }).countFull (0x20000 + 0x400 * comb + 8 * 28) (q'.length + 1 - q.length)

/-- Is the trace capturing? [DEDUCED, log entry 138] -/
def State.capturing (s : State) : Bool := s.tracer.mode == .armed || s.tracer.mode == .post

/-- Nanoseconds after the trigger at which each island cuts: within 24 ns on one die, within 60 ns on the device; where in
that smear is free (R511). -/
def cutDelay (free i : Nat) : Nat :=
  let d := Config.freeNat (free + 163) % 73
  (if islandOnDieA i then d - 36 else 36 - d) + Config.freeNat (free + i) % 25

/-- The island, of those below `n + 1`, that cuts first; on equal delays the lowest (R511). -/
def firstCut (free : Nat) : Nat → Nat
  | 0 => 0
  | n + 1 => if cutDelay free (n + 1) < cutDelay free (firstCut free n) then n + 1 else firstCut free n

/-- Flits of frames on their way, or awaiting their check, that lie in the receive buffer of a port (R384). -/
def heldFlits (ports : Table Port) (p : Nat) : Nat :=
  (ports.map (fun (q : Nat × Port) => ((q.2.txq ++ q.2.sending.toList ++ q.2.arrived).map (fun t => match t.hold with
    | some h => if h.port == p then t.flits.length else 0
    | none => 0)).sum)).sum

/-- Every island stops its counters and stamps its copy of the device counter; ports store their buffers (R511). [DEDUCED, log entry 139] -/
def State.freeze (s : State) (source id : Nat) : State :=
  let stamps := (List.range 163).map (fun i =>
    (i, BitVec.ofNat 64 (nudged (s.time.toNat + cutDelay s.free i) (skewBound i) (Config.skew i s.time.toNat))))
  let first := firstCut s.free 162
  { s with
    free := s.free + 164
    tracer := { s.tracer with
      frozen := true, always := s.tracer.always.stop s.free, full := s.tracer.full.stop s.free, source := source, island := first, id := id % 2 ^ 32, trigTime := tabGet 0#64 stamps first,
      stamps := stamps
      ports := (List.range 8).map (fun p => let x := tabGet Port.absent s.ports p
                                            (p, (x.retry.length, x.rx.length + heldFlits s.ports p))) } }

/-- The global trigger fires (R510): `source` as `TRIG_SRC`, `body` as in a TRIGGER waggle. While FROZEN or with the trace
STOPPED it is counted and changes nothing (R514, R521). [DESIGN CHOICE, log entry 124] -/
def State.fireTrigger (s : State) (source body id : Nat) : State :=
  if !bitAt (s.entry 0x8011 0) source then s
  else if s.tracer.frozen || s.tracer.mode == .stopped then s.bump 0x8015 0 1
  else
    let s0 := s.count (8 * 55) 1
    let out := s0.entry 0x8012 0
    let s1 := if bitAt out 0 then { s0 with tracer := { s0.tracer with driveUntil := s0.time + 1000#64 } } else s0
    let s2 := if bitAt out 1 then s1.waggle 3 (bytesLE 4 id ++ bytesLE 1 body) else s1
    let s3 := s2.freeze source id
    if s3.capturing then
      (List.range 16).foldl (fun (acc : State) k =>
        acc.stageInto k (acc.traceBytes 0x0A (islandHub k) 0xFFFF 0xFF (bytesLE 4 id ++ bytesLE 1 source))) s3
    else s3

/-- Does a comb's match unit hit (R520)? [DEDUCED, log entry 137] -/
def State.matchHit (s : State) (comb kind : Nat) (data : List Byte) : Bool :=
  let e := tabGet [] s.blobs (dkey 0x8023 (comb + 1))
  let d := data ++ List.replicate 16 0#8
  leAt e 0 1 != 0 && leAt e 0 1 == kind
  && (List.range 16).all (fun i => leAt d i 1 &&& leAt e (24 + i) 1 == leAt e (8 + i) 1)

/-- An island's event reaches the trace: it is staged where its kind is enabled, and the match unit looks at it
(R517, R519, R520). [DESIGN CHOICE, log entry 124; DEDUCED, log entry 138] -/
def State.trace (s : State) (island kind ctx part : Nat) (data : List Byte) : State :=
  if !s.capturing then s
  else
    let comb := stagingComb island
    let s1 := if bitAt (s.entry 0x8021 0) kind then s.stageInto comb (s.traceBytes kind island ctx part data) else s
    if s.matchHit comb kind data then
      let (n, s2) := s1.drawNat
      s2.fireTrigger 2 1 (n % 2 ^ 32)
    else s1

/-- The lead comb of a partition: the lowest of its mask. [DEDUCED, log entry 77] -/
def Partition.leadComb (p : Partition) : Nat := ((List.range 16).find? p.combMask.getLsbD).getD 0

/-- A trace record about a launch, from the hub of its partition's lead comb. -/
def State.traceLaunch (s : State) (kind : Nat) (l : Launch) (rest : List Byte) : State :=
  s.trace (islandHub (s.part l.partition).leadComb) kind l.context l.partition (bytesLE 8 l.launchId.toNat ++ rest)

/-- A trace record from a cell, with the context and partition of its launch. -/
def State.traceCell (s : State) (c kind : Nat) (data : List Byte) : State :=
  match (s.cell c).launch with
  | none => s.trace (islandCell c) kind 0xFFFF 0xFF data
  | some lid => match s.launch? lid with
    | some l => s.trace (islandCell c) kind l.context l.partition data
    | none => s.trace (islandCell c) kind 0xFFFF 0xFF data

/-! ## Capture (R515, R518, R519) -/

/-- Code of a trace state. -/
def TraceMode.code : TraceMode → Nat
  | .off => 0 | .armed => 1 | .post => 2 | .stopped => 3

/-- The trace header as bytes (R515). -/
def Debug.header (d : Debug) : List Byte :=
  bytesLE 4 0x54524345 ++ bytesLE 1 d.mode.code ++ bytesLE 1 d.prePct ++ bytesLE 2 0 ++ bytesLE 8 d.written ++ bytesLE 4 d.next
  ++ bytesLE 4 (d.trigIndex.getD 0xFFFFFFFF) ++ bytesLE 8 (if d.trigIndex.isSome then d.trigTime.toNat else 0) ++ bytesLE 8 d.lost
  ++ bytesLE 8 d.tail ++ (List.range 16).flatMap (fun k => bytesLE 4 (tabGet 0 d.lostComb k))

/-- The header written to the trace buffer. -/
def State.putHeader (s : State) : State := s.dramWrite 0x6040000000 s.tracer.header false

/-- Write one record to the array. -/
def State.putRecord (s : State) (rec_ : List Byte) : State :=
  let d := s.tracer
  let s1 := s.dramWrite (0x6040001000 + d.next * 32) rec_ false
  { s1 with tracer := { d with written := d.written + 1, next := (d.next + 1) % traceSize } }

/-- Capture stops: the block is padded, staged records are dropped and counted, the header is written last (R518, R519).
[DEDUCED, log entry 139] -/
def State.stopTrace (s : State) (dropped pad : Nat) : State :=
  let padRec := s.traceBytes 0 (islandHub 0) 0xFFFF 0xFF []
  let s1 := (List.range pad).foldl (fun (acc : State) _ => acc.putRecord padRec) s
  let rest := (s1.tracer.staged.map (fun (q : Nat × List (List Byte)) => q.2.length)).sum
  ({ s1 with tracer := { s1.tracer with mode := .stopped, staged := [], tail := s1.tracer.tail + dropped + rest } }).putHeader

/-- Write the records of a block in order; the first TRIGGER record turns ARMED to POST, and the last of the post share
stops the capture. [DEDUCED, log entry 139] -/
def State.drainRecords (s : State) (done : Nat) : List (List Byte) → State
  | [] => s.putHeader
  | r :: rest =>
    let at_ := s.tracer.next
    let s1 := s.putRecord r
    let d := s1.tracer
    if d.mode == .armed && leAt r 8 1 == 0x0A then
      let s2 := { s1 with tracer := { d with mode := .post, trigIndex := some at_ } }
      if d.left = 0 then s2.stopTrace rest.length (63 - done) else s2.drainRecords (done + 1) rest
    else if d.mode == .post then
      let s2 := { s1 with tracer := { d with left := d.left - 1 } }
      if d.left ≤ 1 then s2.stopTrace rest.length (63 - done) else s2.drainRecords (done + 1) rest
    else s1.drainRecords (done + 1) rest

/-- Row TRACE_DRAIN_BLOCK: a full block of 64 records of a comb's staging. -/
def State.traceDrainBlock (s : State) (comb : Nat) : State :=
  let q := tabGet [] s.tracer.staged comb
  if !s.capturing || decide (q.length < 64) then s
  else ({ s with tracer := { s.tracer with staged := tabSet s.tracer.staged comb (q.drop 64) } }).drainRecords 0 (q.take 64)

/-- Row TRACE_ARM, once its write is accepted. -/
def State.traceArm (s : State) : State :=
  let pct := s.entry 0x8022 0
  ({ s with tracer := { s.tracer with
      mode := .armed, prePct := pct, written := 0, next := 0, trigIndex := none, lost := 0, tail := 0, lostComb := [], staged := [],
      lostPending := [], left := traceSize * (100 - pct) / 100 } }).putHeader

/-- Row TRACE_OFF, once its write is accepted. -/
def State.traceOff (s : State) : State := ({ s with tracer := { s.tracer with mode := .off, staged := [], lostPending := [] } }).putHeader

/-! ## Counters (R506, R507, R514) -/

/-- Row CTR_CLEAR, once its write is accepted: the full set is zeroed. -/
def State.ctrClear (s : State) : State :=
  { s with
    counters := s.counters.filter (fun (c : Nat × Nat) => decide (c.1 < 0x10000))
    tracer := { s.tracer with full := s.tracer.full.clear s.free } }

/-- Row CTR_RELEASE, once its write is accepted. -/
def State.ctrRelease (s : State) : State :=
  State.recount { s with tracer := { s.tracer with frozen := false, always := s.tracer.always.start s.free } }

/-- A run of a nurse task is completed (R459, R463, R507). -/
def State.taskRunOn (s : State) (t u : Nat) : State :=
  let s1 := { s with manager := { s.manager with overdue := s.manager.overdue.filter (· != (t, u)) } }
  (s1.bump 0x9002 t 1).countFull (0x45000 + 8 * (t - 1)) 1

/-- The same for a task that is one for the device. [DEDUCED, log entry 113] -/
def State.taskRun (s : State) (t : Nat) : State := s.taskRunOn t 0

/-- A task is overdue, on unit `u` (R459). -/
def State.markOverdue (s : State) (t u : Nat) : State :=
  if s.manager.overdue.contains (t, u) then s else { s with manager := { s.manager with overdue := s.manager.overdue ++ [(t, u)] } }

/-- Is a nurse task switched on, and for tasks 9–14 the keeper running (R457, R464, R466)? -/
def State.taskOn (s : State) (t : Nat) : Bool := s.entry 0x9004 t == 1 && (decide (t < 9) || s.keeperUp)

/-- Row TELEMETRY_COPY (R506). -/
def State.telemetryCopy (s : State) : State :=
  if !s.keeperUp then s
  else ({ s with tracer := { s.tracer with
    copyTime := s.time, copy := (List.range 64).map (fun i => (8 * i, s.counterAt (8 * i))) } }).taskRun 14

/-- Row DBG_TRIG_N_FALL: the pin fell and stayed low for 20 ns; `rested` says that it had been high for 100 ns if it was low at the
last data-path release or `CTR_RELEASE`. The identifier is open (R510, R536). [DESIGN CHOICE, log entry 124] -/
def State.dbgTrigFall (s : State) (rested : Bool) : State :=
  if !rested then s
  else
    let (n, s1) := s.drawNat
    s1.fireTrigger 3 2 (n % 2 ^ 32)

end Sys2Proof.Machine
end

