-- ==== Sys2Proof/Machine/Ending.lean ====
section
/-!
DEFINITION. How a launch ends: cell faults, the first ending cause, the release of cells, and the completion list
(R60, R71, R118, R267, R287, R326, R347).
-/
namespace Sys2Proof.Machine

/-! ## Status codes (R289) -/

def stOk : Nat := 0x00
def stWidened : Nat := 0x01
def stClipped : Nat := 0x02
def stPoisonConsumed : Nat := 0x10
def stTranslationFatal : Nat := 0x11
def stTimeout : Nat := 0x12
def stIllegalOp : Nat := 0x13
def stContextTornDown : Nat := 0x14
def stQueueDestroyed : Nat := 0x15
def stPartitionReset : Nat := 0x16
def stArithMismatch : Nat := 0x17
def stReplicaDivergent : Nat := 0x18
def stStreamHalted : Nat := 0x19
def stRearmConflict : Nat := 0x1A
def stIndexRange : Nat := 0x1B
def stContextShape : Nat := 0x1C
def stFunctionDisabled : Nat := 0x1D
def stOrphaned : Nat := 0x1E
def stBusy : Nat := 0x1F

/-! ## Engines of a cell -/

/-- The queue of engine `e`. -/
def Cell.equeue (x : Cell) (e : Nat) : List EngineCmd := tabGet [] x.queues e

/-- The queue of engine `e` replaced. -/
def Cell.setQueueOf (x : Cell) (e : Nat) (q : List EngineCmd) : Cell := { x with queues := tabSet x.queues e q }

/-- Is a matrix array running or loading anything? -/
def Cell.arrayIdle (x : Cell) : Bool := x.array.passes.isEmpty && x.array.loader.isEmpty

/-- Does every stream slot of the cell stand IDLE with no re-arm (R320)? -/
def Cell.streamsIdle (x : Cell) : Bool := x.streams.all (fun p => p.2.state == .idle && p.2.rearm.isNone)

/-- Has every engine command of the cell completed (R60)? Streams report completion at acceptance (R65). -/
def Cell.commandsDone (x : Cell) : Bool :=
  x.queues.all (fun p => p.2.isEmpty) && x.arrayIdle && x.bags.isEmpty && x.vec.cmd.isNone && x.samp.cmd.isNone

/-- No posted store of any thread is outstanding. -/
def Cell.storesDone (x : Cell) : Bool := x.threads.all (fun p => p.2.stores.isEmpty)

/-! ## Ending -/

/-- Nanoseconds a launch has counted against its timeout (R291). -/
def State.elapsedNs (s : State) (l : Launch) : Nat :=
  l.elapsed + (if l.phase == .running || l.phase == .marked || l.phase == .loading || l.phase == .saving
    then (s.time - l.startTime).toNat else 0)

/-- The threads of a cell stopped at their next issue (R71): IDLE, waiting for nothing; posted stores go on. -/
def Cell.stopThreads (x : Cell) : Cell :=
  let y := x.landAllSp
  { y with
    threads := y.threads.map (fun p => (p.1, { p.2 with status := .idle, waits := .nothing }))
    waiters := y.waiters.map (fun p => (p.1, p.2.filter (fun w => match w.1 with | .thread _ => false | _ => true)))
    layer := .running
    quant := { y.quant with voteWait := false }
    mark := .none }

/-- Posted stores whose translation will not come, since the walk they wait on has been dropped or has failed, are no more (R19). -/
def Thread.dropUntranslated (h : Thread) : Thread := { h with stores := h.stores.filter (fun p => p.pa.isSome || p.window.isSome) }

/-- The same on every thread of a cell. -/
def Cell.dropUntranslated (x : Cell) : Cell := { x with threads := x.threads.map (fun p => (p.1, p.2.dropUntranslated)) }

/-- Is a cell of an ended launch free of the launch's work, so that it can be released (R71)? -/
def Cell.quiet (x : Cell) : Bool := x.commandsDone && x.streamsIdle && x.storesDone

/-- Release a cell whose launch has ended once its engines are idle (R71). -/
def State.settleCell (s : State) (c : Nat) : State :=
  match (s.cell c).launch with
  | none => s
  | some l =>
    match s.launch? l with
    | some x => if x.phase == .ended && (s.cell c).quiet then s.modCell c (fun y => { y with launch := none }) else s
    | none => s.modCell c (fun y => { y with launch := none })

/-- The OR of the sticky words of every thread on every cell of a launch, bits [6:0] (R137). -/
def State.stickyOf (s : State) (l : Launch) : BitVec 7 :=
  l.cells.foldl (fun acc c => (s.cell c).threads.foldl (fun a p => a ||| p.2.sticky.truncate 7) acc) l.sticky

/-- Requesters of a launch leave the walks and fault records they wait on; the records stay open (R347). -/
def State.dropWalks (s : State) (l : Nat) : State :=
  { s with
    cells := s.cells.map (fun p => (p.1, if p.2.launch == some l then p.2.dropUntranslated else p.2))
    walks := s.walks.filter (fun w => w.launch != l)
    collectors := s.collectors.map (fun k => (k.1, { k.2 with
      queue := k.2.queue.filter (fun w => w.launch != l)
      records := k.2.records.map (fun r => (r.1, { r.2 with waiters := r.2.waiters.filter (fun w => w.launch != l) })) })) }

/-- A completion put on its queue's list in end order (R287); a queue in DYING suppresses it (R295). -/
def State.pushReady (s : State) (q : Nat) (r : Ready) : State :=
  s.modQueue q (fun x =>
    if x.status == .dying then { x with outstanding := x.outstanding - 1 } else { x with ready := x.ready ++ [r] })

/-- Abandon and release to every peer of the groups whose bag blocks the launch fanned out; its return-table entries
wait for the acknowledgements (R222). -/
def State.releasePeers (s : State) (l : Nat) : State :=
  let handles := ((s.fanned.filter (fun f => f.1 == l)).map (fun f => f.2.1)).eraseDups
  let s1 := handles.foldl (fun acc h => match tabFind acc.groups h with
    | some g => acc.sendPeers g (.abandon l)
    | none => acc) s
  { s1 with
    fanned := s1.fanned.map (fun f => if f.1 == l then (0, 0, 0) else f)
    returns := s1.returns.map (fun p =>
      if p.2.launch == l then
        (p.1, { p.2 with ended := true, acks := match tabFind s1.groups p.2.handle, p.2.kind with
          | some g, .bag _ _ _ _ _ _ _ => (List.range g.size).filter (· != g.rank)
          | _, _ => [] })
      else p) }

/-- A span record header with some bytes changed: `TO_RANK` 0xFFFF, no payload, `STATUS` and `FAIL_RANK` (R230, R233).
[DESIGN CHOICE, log entry 31] -/
def spanReturn (h : List Byte) (status failRank : Nat) : List Byte :=
  h.take 2 ++ bytesLE 2 0xFFFF ++ (h.drop 4).take 4 ++ bytesLE 4 0 ++ (h.drop 12).take 8 ++ bytesLE 1 status
  ++ (h.drop 0x15).take 1 ++ bytesLE 2 failRank ++ (h.drop 0x18).take 40

/-- A hop launch that ends with a status of 0x10 or above makes its member send the return at once (R233). -/
def State.failHop (s : State) (x : Launch) (status : Option Nat) : State :=
  match status with
  | some st =>
    if x.hop.isEmpty || decide (st < 0x10) then s
    else
      let rank := match x.groups.head? with
        | some (h, _) => (match tabFind s.groups h with | some g => g.rank | none => 0xFFFF)
        | none => 0xFFFF
      { s with fabricOut := s.fabricOut ++ [{ dst := leAt x.hop 12 3, body := .span (spanReturn x.hop st rank) [] }] }
  | none => s

/-- The status of a launch's record (R118, R296, R413). -/
def Launch.finalStatus (l : Launch) : Nat :=
  match l.status with
  | some st => st
  | none =>
    if l.deliveredSuspect then stReplicaDivergent
    else if l.deliveredPoison then stPoisonConsumed
    else if l.lostWrites then stOrphaned
    else if l.clipped != 0 then stClipped
    else if l.replayed != 0 then stWidened
    else stOk

/-- End a launch. The first cause to arrive decides (R291); `status = none` is an ordinary end. Threads stop at once,
engines abandon at their safe points (R71), and the completion joins its queue's list. -/
def State.endLaunch (s : State) (l : Nat) (status : Option Nat) (detail : Nat) : State :=
  match s.launch? l with
  | none => s
  | some x =>
    if x.phase == .ended then s
    else
      let x' := { x with phase := .ended, status := status, detail := detail, elapsed := s.elapsedNs x,
                         sticky := s.stickyOf x, save := none }
      let s1 := ((s.setLaunch l x').dropWalks l).releasePeers l
      let s2 := if x.phase == .saved then s1
                else x.cells.foldl (fun acc c => acc.modCell c Cell.stopThreads) s1
      let s2' := if status.isNone && (x.deliveredPoison || x.deliveredSuspect) then (s2.bump 0x6060 0 1).countFull (0x43000 + 0x100 * x.partition + 8 * 4) 1 else s2
      let s3 := ((s2'.failHop x status).pushReady x.queue (.launch l)).count (8 * 42) 1
      let bad := decide (0x10 ≤ x'.finalStatus)
      let s4 := (if bad then (s3.count (8 * 43) 1).countFull (0x43000 + 0x100 * x.partition + 8) 1 else s3).traceLaunch 2 x'
        (bytesLE 1 x'.finalStatus ++ bytesLE 1 (if status.isSome then detail else 0))
      x.cells.foldl (fun acc c => acc.settleCell c) s4

/-- The launch placed on a cell, if any. -/
def State.launchOn (s : State) (c : Nat) : Option Nat := (s.cell c).launch

/-- End the launch on cell `c`. -/
def State.endOn (s : State) (c : Nat) (status detail : Nat) : State :=
  match s.launchOn c with
  | some l => s.endLaunch l (some status) detail
  | none => s

/-- `CELL_FAULT` (R74). -/
def cellFaultWord (code thread cls : Nat) (pc : Word) : DWord :=
  BitVec.ofNat 64 (2 ^ 63 + code % 256 * 2 ^ 48 + thread % 16 * 2 ^ 44 + cls % 16 * 2 ^ 40 + pc.toNat)

/-- A cell fault (R71): recorded if `VALID` is clear, else counted; the launch ends with ILLEGAL_OP. [DESIGN CHOICE, log entry 144] -/
def State.cellFault (s : State) (c code thread cls : Nat) (pc : Word) : State :=
  let x := s.cell c
  let x' := if x.fault.getLsbD 63 then { x with faultCount := x.faultCount + 1 }
            else { x with fault := cellFaultWord code thread cls pc }
  (s.setCell c x').endOn c stIllegalOp (64 + code)

/-- Poison consumed by the launch on cell `c` (R412). -/
def State.consumePoison (s : State) (c : Nat) (suspect : Bool) : State :=
  let st := if suspect then stReplicaDivergent else stPoisonConsumed
  match s.launchOn c with
  | some l => ((s.bump 0x6060 0 1).countFull (0x43000 + 0x100 * (match s.launch? l with | some x => x.partition | none => 16) + 8 * 4) 1).endLaunch l (some st) 0
  | none => s

/-- R60: a cell whose threads are all IDLE and whose engine commands have all completed ends the launch on the cell;
on the last cell the launch ends, once no taster verdict is awaited (R422). -/
def State.checkCellEnd (s : State) (c : Nat) : State :=
  let x := s.cell c
  match x.launch with
  | none => s
  | some l =>
    match s.launch? l with
    | none => s
    | some y =>
      if (y.phase == .running || y.phase == .marked) && y.loadsLeft.isEmpty && x.threads.all (fun p => p.2.status == .idle) && x.commandsDone then
        let s1 := s.setCell c { x with done := true }
        if y.cells.all (fun d => (s1.cell d).done) && y.verdicts == 0 then s1.endLaunch l none 0 else s1
      else s

end Sys2Proof.Machine
end

