-- ==== Sys2Proof/Machine/Calendar.lean ====
section
/-!
DEFINITION. The scratchpad's geometry and its port calendar (R67–R71, R547).
-/
namespace Sys2Proof.Machine

/-- Bytes of a cell's scratchpad. -/
def scratchBytes : Nat := 0x300000

/-- The line of a scratchpad offset (R67). -/
def spLine (off : Nat) : Nat := off / 256
/-- The bank of a line (R67). -/
def spBank (line : Nat) : Nat := line % 48
/-- The row of a line within its bank (R67). -/
def spRow (line : Nat) : Nat := line / 48
/-- The bank group of a line (R67). -/
def spGroup (line : Nat) : Nat := line % 48 / 8

/-- Roles of the calendar. -/
inductive Role where
  | idle | arrayAct | arrayWt | arrayOut | vecRd | vecWr | scalarRd | scalarWr | ingress | egress | auxRd | auxWr
deriving DecidableEq, Repr

/-- The code of a role. -/
def Role.code : Role → Nat
  | .idle => 0 | .arrayAct => 1 | .arrayWt => 2 | .arrayOut => 3 | .vecRd => 4 | .vecWr => 5 | .scalarRd => 6
  | .scalarWr => 7 | .ingress => 8 | .egress => 9 | .auxRd => 10 | .auxWr => 11

/-- Is a role code one of the read roles, or one of the write roles? -/
def roleReads (r : Nat) : Bool := r == 1 || r == 2 || r == 4 || r == 6 || r == 9 || r == 10
def roleWrites (r : Nat) : Bool := r == 3 || r == 5 || r == 7 || r == 8 || r == 11

/-- The three (role, group) grants of an entry: RA, RB, W. -/
def calGrants (e : Word) : List (Nat × Nat) :=
  let x := e.toNat
  [(field x 6 3, field x 2 0), (field x 13 10, field x 9 7), (field x 20 17, field x 16 14)]

/-- Is one entry valid (R69)? -/
def calEntryValid (e : Word) : Bool :=
  let x := e.toNat
  match calGrants e with
  | [(ra, ga), (rb, gb), (w, gw)] =>
    let used : List (Nat × Nat) := [(ra, ga), (rb, gb), (w, gw)].filter (fun p => p.1 != 0)
    let groups : List Nat := used.map (fun p : Nat × Nat => p.2)
    let alone := fun (g r1 r2 : Nat) => g != 7 || (r1 == 0 && r2 == 0)
    (ra == 0 || roleReads ra) && (rb == 0 || roleReads rb) && (w == 0 || roleWrites w)
    && field x 31 21 == 0
    && ga != 6 && gb != 6 && gw != 6
    && decide groups.Nodup
    && alone ga rb w && alone gb ra w && alone gw ra rb
  | _ => false

/-- Is a calendar of sixteen entries valid (R69)? -/
def calValid (cal : List Word) : Bool := cal.length == 16 && cal.all calEntryValid

/-- Does the calendar grant the role any slot (R71)? -/
def calHasRole (cal : List Word) (r : Role) : Bool := cal.any (fun e => (calGrants e).any (fun p => p.1 == r.code))

/-- Does some slot of the role cover bank group `g` (R70)? -/
def calGrantsGroup (cal : List Word) (r : Role) (g : Nat) : Bool :=
  cal.any (fun e => (calGrants e).any (fun p => p.1 == r.code && (p.2 == 7 || p.2 == g)))

/-- May the role reach every line of the span under the calendar (R70)? -/
def calReaches (cal : List Word) (r : Role) (off n : Nat) : Bool :=
  n == 0 || (List.range ((off + n - 1) / 256 - off / 256 + 1)).all (fun i => calGrantsGroup cal r (spGroup (off / 256 + i)))

/-! ## The ingress buffer (R70) -/

/-- Bytes of a cell's ingress buffer. [DESIGN CHOICE, log entry 143] -/
def ingressBytes : Nat := 16384

/-- Bytes that wait in the ingress buffer. -/
def Cell.ingressUsed (x : Cell) : Nat := (x.ingress.map (fun w => w.bytes.length)).sum

/-- Has the crossing credit for `n` more bytes? -/
def Cell.ingressRoom (x : Cell) (n : Nat) : Bool := decide (x.ingressUsed + n ≤ ingressBytes)

/-- Writes in order, as far as `INGRESS` slots cover them; the first that none covers holds back the rest. -/
def Cell.drainList (x : Cell) : List IngressWrite → Cell
  | [] => { x with ingress := [] }
  | w :: r =>
    if calReaches x.calendar .ingress w.off w.bytes.length then
      Cell.drainList { x with scratch := x.scratch.store 64 w.off w.bytes w.poison w.suspect } r
    else { x with ingress := w :: r }

/-- The ingress buffer drains in the calendar's `INGRESS` slots. [DESIGN CHOICE, log entry 72; DESIGN CHOICE, log entry 143] -/
def Cell.drainIngress (x : Cell) : Cell := x.drainList x.ingress

/-- A writer outside the cell delivers into its ingress buffer (R70). [DESIGN CHOICE, log entry 72; DESIGN CHOICE, log entry 143] -/
def State.ingest (s : State) (c : Nat) (w : IngressWrite) : State :=
  s.modCell c (fun x => Cell.drainIngress { x with ingress := x.ingress ++ [w] })

/-- Has the crossing of cell `c` no write of a sender left? -/
def State.landed (s : State) (c : Nat) (who : IngressSender) : Bool := (s.cell c).ingress.all (fun w => w.sender != who)

/-- A calendar of sixteen little-endian entries (R68). -/
def calOfBytes (bs : List Byte) : List Word := (List.range 16).map (fun i => BitVec.ofNat 32 (leAt bs (4 * i) 4))

end Sys2Proof.Machine
end

