-- ==== Sys2Proof/Machine/Semaphores.lean ====
section
/-!
DEFINITION. Semaphores: signals, waits, and grants in arrival order (R61–R63).
-/
namespace Sys2Proof.Machine

/-- A semaphore's count. -/
def Cell.sem (x : Cell) (i : Nat) : Half := tabGet 0#16 x.sems i
/-- A semaphore's waiters, in arrival order. -/
def Cell.semWaiters (x : Cell) (i : Nat) : List (SemWaiter × Nat) := tabGet [] x.waiters i
/-- A semaphore's count and waiters replaced. -/
def Cell.setSem (x : Cell) (i : Nat) (v : Half) (w : List (SemWaiter × Nat)) : Cell :=
  { x with sems := tabSet x.sems i v, waiters := tabSet x.waiters i w }

/-- Grants in strict arrival order: a waiter that cannot be satisfied holds back every later one (R62). -/
def grantLoop : Nat → List (SemWaiter × Nat) → List SemWaiter × Nat × List (SemWaiter × Nat)
  | v, [] => ([], v, [])
  | v, (w, n) :: r =>
    if n ≤ v then
      let (g, v', r') := grantLoop (v - n) r
      (w :: g, v', r')
    else ([], v, (w, n) :: r)

/-- Descriptor byte with a semaphore number in [5:0] and an enable in [6] (R310). -/
def descSem (d : List Byte) (off : Nat) : Nat := leAt d off 1 % 64
def descSemEn (d : List Byte) (off : Nat) : Bool := bitAt (leAt d off 1) 6

/-- Change a stream slot of a cell. -/
def Cell.slot (x : Cell) (k : Nat) : StreamSlot := tabGet StreamSlot.idle x.streams k
def Cell.setSlot (x : Cell) (k : Nat) (v : StreamSlot) : Cell := { x with streams := tabSet x.streams k v }
def State.slot (s : State) (c k : Nat) : StreamSlot := (s.cell c).slot k
def State.setSlot (s : State) (c k : Nat) (v : StreamSlot) : State := s.modCell c (fun x => x.setSlot k v)

/-- A stream that has its `FREE` waits for `GO` of the issuing cell, or takes it at once (R313). -/
def State.streamTakeGo (s : State) (c k : Nat) : State :=
  let v := s.slot c k
  if descSemEn v.desc 0x3D then
    let i := descSem v.desc 0x3D
    let x := s.cell c
    if (x.semWaiters i).isEmpty && decide (1 ≤ (x.sem i).toNat) then
      (s.setCell c (x.setSem i (x.sem i - 1#16) [])).setSlot c k { v with phase := .moving }
    else
      (s.setCell c (x.setSem i (x.sem i) (x.semWaiters i ++ [(.streamGo c k, 1)]))).setSlot c k { v with phase := .waitGo }
  else s.setSlot c k { v with phase := .moving }

/-- What a grant does for its waiter. -/
def State.applyGrant (s : State) (c : Nat) (w : SemWaiter) : State :=
  match w with
  | .thread t => s.modThread c t (fun h => { h with status := .running, waits := .nothing })
  | .engine e => s.modCell c (fun x => x.setQueueOf e (match x.equeue e with
      | [] => []
      | h :: r => { h with granted := true } :: r))
  | .streamFree d k => s.streamTakeGo d k
  | .streamGo d k => s.setSlot d k { s.slot d k with phase := .moving }

/-- Apply the grants that semaphore `i` of cell `c` can now give (R62). -/
def State.grantSem (s : State) (c i : Nat) : State :=
  let x := s.cell c
  let (g, v, r) := grantLoop (x.sem i).toNat (x.semWaiters i)
  g.foldl (fun acc w => acc.applyGrant c w) (s.setCell c (x.setSem i (BitVec.ofNat 16 v) r))

/-- A signal of `n` (R61, R63): a count that would pass 65,535 is not changed and is a fault with code 0x05. -/
def State.signal (s : State) (c i n thread cls : Nat) (pc : Word) : State :=
  let x := s.cell c
  if 65535 < (x.sem i).toNat + n then s.cellFault c 5 thread cls pc
  else (s.setCell c (x.setSem i (x.sem i + BitVec.ofNat 16 n) (x.semWaiters i))).grantSem c i

/-- A wait of `n`: granted at once, or queued behind every earlier waiter (R61, R62). -/
def State.waitSem (s : State) (c i n : Nat) (w : SemWaiter) : State :=
  let x := s.cell c
  if n = 0 then s.applyGrant c w
  else if (x.semWaiters i).isEmpty && decide (n ≤ (x.sem i).toNat) then
    (s.setCell c (x.setSem i (x.sem i - BitVec.ofNat 16 n) [])).applyGrant c w
  else s.setCell c (x.setSem i (x.sem i) (x.semWaiters i ++ [(w, n)]))

/-- A waiter withdrawn from every semaphore of a cell. -/
def Cell.dropWaiter (x : Cell) (w : SemWaiter) : Cell :=
  { x with waiters := x.waiters.map (fun p => (p.1, p.2.filter (fun q => q.1 != w))) }

/-- A waiter withdrawn from a cell's semaphores; waiters it held back may now be granted. -/
def State.withdraw (s : State) (c : Nat) (w : SemWaiter) : State :=
  let s1 := s.modCell c (fun x => x.dropWaiter w)
  (List.range 64).foldl (fun acc i => if (((acc.cell c).semWaiters i).isEmpty) then acc else acc.grantSem c i) s1

end Sys2Proof.Machine
end

