-- ==== Sys2Proof/Machine/HostOut.lean ====
section
/-!
DEFINITION. What the device posts to host memory: admin records, notices and completion records (R284–R288,
R298–R301, R306).
-/
namespace Sys2Proof.Machine

/-- Does the host port hold host-bound writes: Bus Master Enable clear, a retrain, or no link (R366, R367)? -/
def State.holdsPosts (s : State) : Bool := !s.host.bme || s.host.retraining || s.host.rate == 0

/-- Messages leave for the host, counted (R507). [DEDUCED, log entry 32] -/
def State.sendHost (s : State) (ms : List HostMsg) : State :=
  let bytes := (ms.map (fun m => match m with | .write _ bs _ => bs.length | .msix _ => 0)).sum
  let irqs := (ms.filter (fun m => match m with | .msix _ => true | _ => false)).length
  (({ s with hostOut := s.hostOut ++ ms }).countFull (0x41100 + 8 * 2) bytes).countFull (0x41100 + 8 * 5) irqs

/-- A completion record posted to a ring, counted (R506, R507). [DEDUCED, log entry 77] -/
def State.countRecord (s : State) : State := (s.count (8 * 61) 1).countFull (0x41100 + 8 * 3) 1

/-- Has the 256 KiB post buffer room for `n` more bytes, where writes are held (R366) and not discarded (R368)? [DEDUCED, log entry 76] -/
def State.postRoom (s : State) (n : Nat) : Bool :=
  s.host.discarding || !s.holdsPosts || (s.host.waiting.isEmpty && decide ((s.host.held.map HostMsg.size).sum + n ≤ 262144))

/-- Put a message on the ordered posted-write path (R3, R358); where the post buffer is full it waits for room (R366).
[DEDUCED, log entry 77] -/
def State.post (s : State) (m : HostMsg) : State :=
  if s.host.discarding then s.bump 0xA004 0 1
  else if !s.holdsPosts then s.sendHost [m]
  else if s.postRoom m.size then { s with host := { s.host with held := s.host.held ++ [m] } }
  else { s with host := { s.host with waiting := s.host.waiting ++ [m] } }

/-- Held writes leave, once nothing holds them. -/
def State.flushPost (s : State) : State :=
  if s.holdsPosts then s
  else ({ s with host := { s.host with held := [], heldFor := [], waiting := [] } }).sendHost (s.host.held ++ s.host.waiting)

/-- A write of a stream joins the held write of the same 64 B granule that it continues: they are one write (R368). -/
def joinHeld (held : List HostMsg) (a : Nat) (bs : List Byte) (poison : Bool) : Option (List HostMsg) :=
  match held.getLast? with
  | some (.write b x p) =>
    if b + x.length == a && b / 64 == a / 64 then some (held.dropLast ++ [.write b (x ++ bs) (p || poison)]) else none
  | _ => none

/-- A write of a launch to one granule of host memory, held or sent. -/
def State.postFor (s : State) (l a : Nat) (bs : List Byte) (poison : Bool) : State :=
  if s.host.discarding || !s.holdsPosts then s.post (.write a bs poison)
  else
    let s1 := match joinHeld s.host.held a bs poison with
      | some h => { s with host := { s.host with held := h } }
      | none => s.post (.write a bs poison)
    { s1 with host := { s1.host with heldFor := flagAdd s1.host.heldFor l } }

/-- `PHASE` of the `c`-th record of a ring of `size` entries (R286). -/
def phaseBit (c size : Nat) : Nat := if c / size % 2 == 0 then 1 else 0

/-- The 32 B layout of an admin record or notice (R301). -/
def adminRecordBytes (cmdId index type status detail phase : Nat) (result : List Byte) : List Byte :=
  bytesLE 8 cmdId ++ bytesLE 4 index ++ bytesLE 1 type ++ bytesLE 1 status ++ bytesLE 1 detail
  ++ bytesLE 1 (phase * 128) ++ (result ++ List.replicate 16 0#8).take 16

/-- After admin records or notices are posted: the `ADM_IRQ` vector, at most once per 1 µs (R298). -/
def State.adminIrq (s : State) : State :=
  if !s.admin.irqEn then s
  else if s.admin.holdoff then { s with admin := { s.admin with irqPending := true } }
  else ({ s with admin := { s.admin with holdoff := true, irqPending := false } }).post (.msix s.admin.irqVector.toNat)

/-- Write one notice to the notice ring (R306). -/
def State.writeNotice (s : State) (code : Nat) (result : List Byte) : State :=
  let n := s.admin.notes.toNat
  let rec_ := adminRecordBytes 0 (n + 1) 1 code 0 (phaseBit n 4096) result
  let s1 := s.post (.write (s.admin.noteBase.toNat + n % 4096 * 32) rec_ false)
  ({ s1 with admin := { s1.admin with notes := s1.admin.notes + 1#64 } }).adminIrq

/-- Room in the notice ring; there is no ring until the admin queue is started (R369), and a stopped data path posts nothing (R417). -/
def State.noteRoom (s : State) : Bool := s.running && s.admin.running && decide (s.admin.notes.toNat - s.admin.noteHead.toNat < 4096)

/-- A notice: written when there is room, held (up to 256) while the ring is full, dropped and counted beyond (R306).
[DEDUCED, log entry 76] -/
def State.notice (s : State) (code : Nat) (result : List Byte) : State :=
  if s.admin.held.isEmpty && s.admin.dropped == 0 && s.noteRoom then s.writeNotice code result
  else if s.admin.held.length < 256 then { s with admin := { s.admin with held := s.admin.held ++ [(code, result)] } }
  else ({ s with admin := { s.admin with dropped := s.admin.dropped + 1 } }).bump 0xA105 0 1

/-- Write held notices while there is room; then one `NOTICE_LOST` for the drops (R306). [DEDUCED, log entry 76] -/
def State.flushNotices (s : State) : List (Nat × List Byte) → State
  | [] =>
    let s0 := { s with admin := { s.admin with held := [] } }
    if s0.admin.dropped != 0 && s0.noteRoom then
      ({ s0 with admin := { s0.admin with dropped := 0 } }).writeNotice 6 (bytesLE 4 s0.admin.dropped)
    else s0
  | (code, r) :: rest =>
    if s.noteRoom then (s.writeNotice code r).flushNotices rest
    else { s with admin := { s.admin with held := (code, r) :: rest } }

/-- Post the record of admin command `n` (R301): a result longer than 16 B goes to the reply buffer first. -/
def State.adminRecord (s : State) (n : Nat) (cmdId : DWord) (start status detail : Nat) (result : List Byte) : State :=
  let s0 := s.bump 0xA107 0 1
  if start != s.admin.start then s0
  else
    let long := decide (16 < result.length)
    let s1 := if long then s0.post (.write (s0.admin.replyBase.toNat + n % 256 * 1024) result false) else s0
    let short := if long then bytesLE 4 result.length else result
    let c := s1.admin.posted.toNat
    let bytes := adminRecordBytes cmdId.toNat n 0 status detail (phaseBit c 256) short
    let s2 := s1.post (.write (s1.admin.cqBase.toNat + c % 256 * 32) bytes false)
    ({ s2 with admin := { s2.admin with posted := s2.admin.posted + 1#64 } }).adminIrq

/-- The 32 B completion record (R285). -/
def completionBytes (launchId index queue status cflags widened clipped detail rflags elapsedUs endTime : Nat) :
    List Byte :=
  bytesLE 8 launchId ++ bytesLE 4 index ++ bytesLE 2 queue ++ bytesLE 1 status ++ bytesLE 1 cflags
  ++ bytesLE 1 widened ++ bytesLE 1 clipped ++ bytesLE 1 detail ++ bytesLE 1 rflags ++ bytesLE 4 elapsedUs
  ++ bytesLE 8 endTime

/-- A record with byte `i` changed. -/
def setByte (bs : List Byte) (i : Nat) (b : Byte) : List Byte := bs.set i b

end Sys2Proof.Machine
end

