-- ==== Sys2Proof/Machine/Groups.lean ====
section
/-!
DEFINITION. Groups, tables and version slots: what a batch reads at its epoch, and the low-water mark
(R161–R164, R195, R198, R199, R214, R226).
-/
namespace Sys2Proof.Machine

/-! ## Lookup records and row formats (R161–R163) -/

def recFmt (r : List Byte) : Nat := leAt r 0 1
def recOor (r : List Byte) : Nat := leAt r 1 1 % 4
def recSeq (r : List Byte) : Bool := bitAt (leAt r 1 1) 2
def recWidth (r : List Byte) : Nat := leAt r 2 2
def recRows (r : List Byte) : Nat := leAt r 8 8

/-- The checks of R161. -/
def recordOk (r : List Byte) : Bool :=
  decide (recFmt r ≤ 8) && recOor r != 3 && field (leAt r 1 1) 7 3 == 0
  && decide (4 ≤ recWidth r) && decide (recWidth r ≤ 1024) && recWidth r % 4 == 0
  && leAt r 4 4 == 0 && recRows r != 0

/-- The element format (codes of the array chapter) of a row format (R162). -/
def rowElem (f : Nat) : Nat :=
  match f with
  | 0 => 10 | 1 => 7 | 2 => 8 | 3 => 4 | 4 => 5 | 5 => 0 | 6 => 1 | 7 => 2 | _ => 3
/-- Header bytes of a row format. -/
def rowHeader (f : Nat) : Nat := if 5 ≤ f then 2 else 0
/-- The row stride S (R163). -/
def rowStride (r : List Byte) : Nat :=
  64 * ((rowHeader (recFmt r) + recWidth r * fmtBits (rowElem (recFmt r)) / 8 + 63) / 64)
where
  /-- Bits of an element format. -/
  fmtBits (c : Nat) : Nat := if c == 2 || c == 3 then 4 else if c ≤ 5 then 8 else if c ≤ 8 then 16 else 32

/-! ## Tables of a group -/

/-- A table's key. -/
def tableKey (handle table : Nat) : Nat := handle * 4096 + table
def State.table? (s : State) (handle table : Nat) : Option TableDesc :=
  if table < 4096 then tabFind s.tables (tableKey handle table) else none
def State.setTable (s : State) (handle table : Nat) (d : TableDesc) : State :=
  { s with tables := tabSet s.tables (tableKey handle table) d }
/-- The tables registered in a group. -/
def State.groupTables (s : State) (handle : Nat) : List (Nat × TableDesc) :=
  s.tables.filterMap (fun p => if p.1 / 4096 == handle then some (p.1 % 4096, p.2) else none)

def State.group? (s : State) (h : Nat) : Option Group := tabFind s.groups h
def State.setGroup (s : State) (h : Nat) (g : Group) : State := { s with groups := tabSet s.groups h g }
/-- The handle of the group with an identifier on this member. -/
def State.handleOf (s : State) (id : Nat) : Option Nat := (s.groups.find? (fun p => p.2.id == id)).map (·.1)

/-- A breakdown counter of a group, by its slot (R240, R507). -/
def State.countGroup (s : State) (h i n : Nat) : State :=
  match s.group? h with
  | some g => if g.slot < 64 then s.countFull (0x44000 + 8 * (4 * g.slot + i)) n else s
  | none => s

/-! ## Version slots (R198, R199) -/

/-- Slot `i` of a table. -/
def TableDesc.slot (d : TableDesc) (i : Nat) : VerSlot := d.slots.getD i VerSlot.none
def TableDesc.setSlot (d : TableDesc) (i : Nat) (v : VerSlot) : TableDesc := { d with slots := d.slots.set i v }

/-- Among slots that are not FREE, the one with the highest `EPOCH_FROM` ≤ e: the version in force at e (R198, R203). -/
def TableDesc.inForce (d : TableDesc) (e : Nat) : Option Nat :=
  (List.range 4).foldl (fun best i =>
    let v := d.slot i
    if v.state == SlotSt.free || decide (e < v.epochFrom) then best
    else match best with
      | some j => if (d.slot j).epochFrom < v.epochFrom then some i else some j
      | none => some i) none

/-- A batch or fan-out with epoch `e` arrives: the newest qualifying STAGED slot becomes LIVE, the previous LIVE slot
and older STAGED ones become SUPERSEDED at its `EPOCH_FROM` (R199). -/
def TableDesc.arrive (d : TableDesc) (e : Nat) : TableDesc :=
  match d.inForce e with
  | none => d
  | some i =>
    if (d.slot i).state != SlotSt.staged then d
    else
      { d with slots := d.slots.map (fun v =>
          if v.epochFrom == (d.slot i).epochFrom && v.state == SlotSt.staged then { v with state := .live }
          else if (v.state == SlotSt.live || v.state == SlotSt.staged) && decide (v.epochFrom < (d.slot i).epochFrom) then
            { v with state := .superseded, supAt := (d.slot i).epochFrom }
          else v) }

/-- A batch or fan-out of a group arrives at epoch `e`. -/
def State.arriveEpoch (s : State) (handle e : Nat) : State :=
  (s.groupTables handle).foldl (fun acc p => acc.setTable handle p.1 (p.2.arrive e)) s

/-- Does a received fan-out still read its versions: no request has come for it yet, or a slice of one is not sent (R198)?
[DEDUCED, log entry 39] -/
def State.fanReads (s : State) (f : FanStage) : Bool :=
  !f.held && (!f.served || s.works.any (fun w => w.2.homeLaunch == f.launch && w.2.homeBlock == f.block && decide (w.2.written < w.2.count)
    && (match w.2.home with | some (h, _) => h == f.home | none => false)))

/-- Epochs of the batches and received fan-outs of a group that are in flight on this device (R198, R226). -/
def State.epochsInFlight (s : State) (handle : Nat) : List Nat :=
  s.launches.flatMap (fun l => l.2.groups.filterMap (fun g => if g.1 == handle then some g.2.toNat else none))
  ++ (s.fanStages.filter (fun f => f.handle == handle && s.fanReads f)).map (fun f => f.epoch.toNat)

/-- Readers of a slot: batches and fan-outs in flight for which it is in force (R198). [DEDUCED, log entry 39] -/
def State.readers (s : State) (handle : Nat) (d : TableDesc) (i : Nat) : Nat :=
  ((s.epochsInFlight handle).filter (fun e => d.inForce e == some i)).length

/-- The member's own low-water mark l (R226). [DEDUCED, log entry 39] -/
def State.ownLow (s : State) (handle : Nat) (g : Group) : Nat :=
  match s.epochsInFlight handle with
  | [] => g.epoch.toNat
  | e :: r => r.foldl min e

/-- The group low-water mark L as this member knows it: its own l in a group of one (R214, R226). [DEDUCED, log entry 39] -/
def State.lowMark (s : State) (handle : Nat) (g : Group) : Nat :=
  if g.size == 1 then max g.low.toNat (s.ownLow handle g) else g.low.toNat

/-! ## Messages -/

/-- `RC_ERR` of forager 0: the first error is held, later ones are only counted (R212). [DEDUCED, log entry 45] -/
def State.rcError (s : State) (code table part entry row : Nat) : State :=
  let f := tabGet Forager.idle s.foragers 0
  let f' := if f.rcErr.getLsbD 63 then { f with rcErrCount := f.rcErrCount + 1 }
    else { f with
      rcErr := BitVec.ofNat 64 (2 ^ 63 + code % 256 * 2 ^ 48 + table % 4096 * 2 ^ 36 + part % 16 * 2 ^ 32 + entry % 2 ^ 32)
      rcErrRow := BitVec.ofNat 64 row }
  { s with foragers := tabSet s.foragers 0 f' }

end Sys2Proof.Machine
end

