-- ==== Sys2Proof/Machine/Translate.lean ====
section
/-!
DEFINITION. Address translation: entries, TLBs, walks, fault records and drains (R330–R347).
-/
namespace Sys2Proof.Machine

/-! ## Entries (R332) -/

def pteP (e : Nat) : Bool := bitAt e 0
def pteLeaf (e : Nat) : Bool := bitAt e 1
def pteR (e : Nat) : Bool := bitAt e 4
def pteW (e : Nat) : Bool := bitAt e 5
def pteX (e : Nat) : Bool := bitAt e 6
/-- Physical address [47:16] of a page, as a byte address. -/
def ptePa (e : Nat) : Nat := field e 47 16 * 65536
/-- Is every RSV field of a leaf zero, and `W` only with `R` (R9, R332)? [DEDUCED, log entry 33] -/
def pteLegal (e : Nat) : Bool :=
  field e 55 48 == 0 && field e 15 7 == 0 && field e 3 2 == 0 && (!pteW e || pteR e)
/-- Is every RSV field of an entry that is not present zero (R9, R332)? -/
def pteRsvOk (e : Nat) : Bool := field e 55 48 == 0 && field e 15 7 == 0 && field e 3 2 == 0
/-- A leaf with permissions `perm` ([0] R, [1] W, [2] X) onto `pa`. -/
def mkPte (pa perm : Nat) : Nat := pa + perm % 8 * 16 + 3

/-- Does the entry permit the access (R342)? -/
def ptePermits (e : Nat) : Access → Bool
  | .read => pteR e
  | .write => pteW e
  | .fetch => pteX e

/-- Code of an access in a register or notice. -/
def Access.code : Access → Nat
  | .read => 0 | .write => 1 | .fetch => 2

/-- The leaf of a page as the tables hold it: entry and whether it is a 512 MiB leaf (R330). -/
def Context.leaf (x : Context) (va : Nat) : Option (Nat × Bool) :=
  match tabFind x.large (va / 2 ^ 29) with
  | some e => if pteP e then some (e, true) else none
  | none =>
    match tabFind x.leaves (va / 2 ^ 16) with
    | some e => if pteP e then some (e, false) else none
    | none => none

/-- The physical address a leaf gives. -/
def leafPa (e : Nat) (large : Bool) (va : Nat) : Nat :=
  if large then field e 47 29 * 2 ^ 29 + va % 2 ^ 29 else ptePa e + va % 2 ^ 16

/-! ## Fabric windows as targets -/

/-- Is the address in the fabric-window region (R17)? -/
def isWindow (pa : Nat) : Bool := decide (0x400000000000 ≤ pa) && decide (pa < 0x800000000000)

/-- Is a translated target populated for an engine (R19)? Windows are judged by their import slots. -/
def State.populated (s : State) (pa : Nat) : Bool := s.isDram pa && !isReserved pa

/-! ## Reads of DRAM (R42, R431) -/

/-- Does a physical granule lie in a region of this device that is marked SUSPECT (R431)? -/
def State.suspectPa (s : State) (pa : Nat) : Bool :=
  s.replicas.any (fun (r : Nat × Replica) =>
    r.2.suspect && (
      (s.ctx r.2.context).leaves.any (fun (e : Nat × Nat) =>
        ptePa e.2 / 65536 == pa / 65536 && decide (r.2.vbase ≤ e.1 * 65536) && decide (e.1 * 65536 < r.2.vbase + r.2.length))
      || (s.ctx r.2.context).large.any (fun (e : Nat × Nat) =>
        let va := e.1 * 2 ^ 29 + pa % 2 ^ 29
        field e.2 47 29 == pa / 2 ^ 29 && decide (r.2.vbase ≤ va) && decide (va < r.2.vbase + r.2.length))))

/-- Is any granule of a span suspect? -/
def State.suspectSpan (s : State) (pa n : Nat) : Bool :=
  n != 0 && s.replicas.any (fun (r : Nat × Replica) => r.2.suspect)
  && (List.range ((pa + n - 1) / 65536 - pa / 65536 + 1)).any (fun i => s.suspectPa ((pa / 65536 + i) * 65536))

/-- Bytes of DRAM as any reader gets them: data, poison, suspect. -/
def State.memRead (s : State) (pa n : Nat) : List Byte × Bool × Bool :=
  let (bs, po) := s.dramView pa n
  let su := s.suspectSpan pa n
  (bs, po || su, su)

/-! ## TLBs (R340) -/

/-- TLB numbers: cells 0–127, stream engines 128–191, foragers 192–195. -/
def tlbCell (c : Nat) : Nat := c
def tlbStream (comb engine : Nat) : Nat := 128 + comb * 4 + engine
def tlbForager (f : Nat) : Nat := 192 + f
/-- Entries a TLB holds, and its ways: a cell's is fully associative (R340). -/
def tlbSize (k : Nat) : Nat := if k < 128 then 256 else if k < 192 then 512 else 2048
def tlbWays (k : Nat) : Nat := if k < 128 then 256 else 8
/-- The set of an entry: its page number modulo the number of sets. [DESIGN CHOICE, log entry 58] -/
def tlbSet (k : Nat) (t : TlbEntry) : Nat := t.page % (tlbSize k / tlbWays k)

/-- Does a cached entry cover the address? -/
def TlbEntry.covers (t : TlbEntry) (ctx va : Nat) : Bool :=
  t.context == ctx && t.page == (if t.large then va / 2 ^ 29 else va / 2 ^ 16)

/-- A cached translation that permits the access (R338: one that lacks the permission is never used to fault). -/
def State.tlbHit (s : State) (k ctx va : Nat) (a : Access) : Option Nat :=
  ((tabGet [] s.tlbs k).find? (fun t => t.covers ctx va && ptePermits t.entry a)).map (fun t => leafPa t.entry t.large va)

/-- Install a translation, most recent first; the least recently used entry of its set leaves (R340). -/
def State.tlbInstall (s : State) (k : Nat) (t : TlbEntry) : State :=
  let rest := (tabGet [] s.tlbs k).filter (fun u => !(u.context == t.context && u.page == t.page && u.large == t.large))
  let kept := (rest.filter (fun u => tlbSet k u == tlbSet k t)).take (tlbWays k - 1)
  { s with tlbs := tabSet s.tlbs k (t :: rest.filter (fun u => tlbSet k u != tlbSet k t || kept.contains u)) }

/-- Mark the entry that covers an address as most recently used (R340). -/
def State.tlbTouch (s : State) (k ctx va : Nat) : State :=
  let l := tabGet [] s.tlbs k
  match l.find? (fun t => t.covers ctx va) with
  | some t => { s with tlbs := tabSet s.tlbs k (t :: l.filter (fun u => u != t)) }
  | none => s

/-- What a lookup gives. -/
inductive Xlate where
  | hit (pa : Nat)
  | walk
  | fatal (kind : Nat)
deriving DecidableEq, Repr

/-- Translate through TLB `k`: an address with bits [63:48] set is no address (R330). -/
def State.xlate (s : State) (k ctx va : Nat) (a : Access) : Xlate :=
  if 2 ^ 48 ≤ va then .fatal 5
  else match s.tlbHit k ctx va a with
    | some pa => .hit pa
    | none => .walk

/-! ## Requesters -/

/-- The TLB a requester uses. -/
def tlbOf : Requester → Nat
  | .load c _ => tlbCell c
  | .store c _ => tlbCell c
  | .fetch c _ => tlbCell c
  | .vecFetch c => tlbCell c
  | .stream c k _ => tlbStream (combOf c) (k % 4)
  | .bag f _ _ => tlbForager f
  | .fanout c => tlbStream (combOf c) 0
  | .resident c => tlbStream (combOf c) 0
  | .save _ c => tlbStream (combOf c) 0
  | .patchBlock _ _ => tlbForager 0
  | .patchRow f _ _ _ _ => tlbForager f

/-- Physical cell of a requester, 0xFF for a forager (R348). -/
def cellOf : Requester → Nat
  | .load c _ => c
  | .store c _ => c
  | .fetch c _ => c
  | .vecFetch c => c
  | .stream c _ _ => c
  | .bag _ _ _ => 0xFF
  | .fanout c => c
  | .resident c => c
  | .save _ c => c
  | .patchBlock _ _ => 0xFF
  | .patchRow _ _ _ _ _ => 0xFF

/-- `FIRST_KIND` of a requester (R348). -/
def kindOf : Requester → Nat
  | .load _ _ => 0
  | .store _ _ => 0
  | .fetch _ _ => 3
  | .vecFetch _ => 3
  | .stream _ _ _ => 1
  | .bag _ _ _ => 2
  | .fanout _ => 1
  | .resident _ => 1
  | .save _ _ => 1
  | .patchBlock _ _ => 4
  | .patchRow _ _ _ _ _ => 4

/-! ## Faults (R343, R344) -/

/-- Notice 0x05. -/
def faultNotice (ctx col kind rec_ check acc va : Nat) : List Byte :=
  bytesLE 2 ctx ++ bytesLE 1 col ++ bytesLE 1 kind ++ bytesLE 1 rec_ ++ bytesLE 1 check ++ bytesLE 1 acc
  ++ bytesLE 1 0 ++ bytesLE 8 (va / 65536 * 65536)

/-- `FAULT_FATAL` (R348). -/
def fatalWord (kind check acc part cell ctx : Nat) : DWord :=
  BitVec.ofNat 64 (2 ^ 63 + kind % 128 * 2 ^ 56 + check % 16 * 2 ^ 52 + acc % 16 * 2 ^ 48 + part % 16 * 2 ^ 44
    + cell % 256 * 2 ^ 36 + ctx % 65536 * 2 ^ 16)

/-- The trace record of a fault record or fatal fault (R517), from the collector's hub or forager. -/
def State.traceFault (s : State) (col ctx kind rec_ va : Nat) : State :=
  s.trace (if col < 16 then islandHub col else islandForager (col - 16)) 7 ctx (s.ctx ctx).partition
    (bytesLE 1 kind ++ bytesLE 1 rec_ ++ bytesLE 6 0 ++ bytesLE 8 (va / 65536 * 65536))

/-- Record a fatal fault in a collector, notice the driver and end the launch (R343). -/
def State.fatalFault (s : State) (col kind check : Nat) (a : Access) (cell ctx va : Nat) (l : Option Nat)
    (status : Nat) : State :=
  let k := s.collector col
  let k' := if k.fatal.getLsbD 63 then k
            else { k with fatal := fatalWord kind check a.code (s.ctx ctx).partition cell ctx, fatalVa := BitVec.ofNat 64 va }
  let s1 := (((s.setCollector col k').bump 0x6041 0 1).notice 5 (faultNotice ctx col kind 0xFF check a.code va)).traceFault
    col ctx kind 0xFF va
  match l with
  | some x => s1.endLaunch x (some status) 0
  | none => s1

/-- The open record of a page in a collector. -/
def Collector.find (k : Collector) (ctx va : Nat) : Option Nat :=
  (k.records.find? (fun r => r.2.context == ctx && r.2.page == va / 65536)).map (·.1)

/-- Join record `r` of collector `col`. -/
def State.joinRecord (s : State) (col r : Nat) (w : Walk) : State :=
  let k := s.collector col
  match tabFind k.records r with
  | some f => s.setCollector col { k with records := tabSet k.records r { f with waiters := f.waiters ++ [w] } }
  | none => s

/-- A resumable fault joins the page's record, or opens one; `none` while all 32 are in use (R344). -/
def State.openRecord (s : State) (w : Walk) : Option State :=
  let k := s.collector w.collector
  match k.find w.context w.va with
  | some r => some (s.joinRecord w.collector r w)
  | none =>
    match tabFree k.records 0 32 with
    | some r =>
      let f : FaultRecord :=
        { access := w.access, firstCell := cellOf w.who, firstKind := kindOf w.who,
          partition := (s.ctx w.context).partition, context := w.context, page := w.va / 65536, waiters := [w] }
      some (((((s.setCollector w.collector { k with records := tabSet k.records r f }).countFull (0x20000 + 0x400 * w.collector + 8 * 22)
        (if w.collector < 16 then 1 else 0)).bump 0x6040 0 1).notice 5
        (faultNotice w.context w.collector 0 r 0 w.access.code w.va)).traceFault w.collector w.context 0 r w.va)
    | none => none

/-- A requester stalls until a record of its collector frees. -/
def State.queueFault (s : State) (w : Walk) : State :=
  let k := s.collector w.collector
  s.setCollector w.collector { k with queue := k.queue ++ [w] }

/-- A resumable fault; the wait for a record is counted once (R344). -/
def State.resumable (s : State) (w : Walk) : State :=
  match s.openRecord w with
  | some s1 => s1
  | none => ((s.queueFault w).countFull
      (0x20000 + 0x400 * w.collector + 8 * 23) (if w.collector < 16 then 1 else 0)).bump 0x6042 0 1

/-- Requesters that waited for a record of collector `k` to free open theirs, in order (R344). -/
def State.openQueued (s : State) (k : Nat) : State :=
  let ws := (s.collector k).queue
  ws.foldl (fun (acc : State) w => (acc.openRecord w).getD (acc.queueFault w)) (s.setCollector k { s.collector k with queue := [] })

/-- Every collector's waiting requesters open records. -/
def State.openAllQueued (s : State) : State := (List.range 20).foldl State.openQueued s

/-- A TLB miss counted, by requester (R506, R507). -/
def State.countMiss (s : State) (w : Walk) : State :=
  let s1 := s.count (8 * 52) 1
  match w.who with
  | .load c _ | .store c _ | .fetch c _ | .vecFetch c => s1.countFull (0x10000 + 0x200 * c + 8 * 8) 1
  | .stream c k _ => s1.countFull (0x20000 + 0x400 * combOf c + 8 * (16 + k % 4)) 1
  | .fanout c | .resident c | .save _ c => s1.countFull (0x20000 + 0x400 * combOf c + 8 * 16) 1
  | .bag f _ _ => s1.countFull (0x40000 + 0x400 * f + 8 * 53) 1
  | _ => s1

/-- A count of the comb hub that collects a requester's faults. -/
def State.countHub (s : State) (k i : Nat) : State := if k < 16 then s.countFull (0x20000 + 0x400 * k + 8 * i) 1 else s

/-- Do two walks share a walker and a page (R341)? -/
def Walk.samePage (w v : Walk) : Bool :=
  v.collector == w.collector && v.context == w.context && v.va / 65536 == w.va / 65536

/-- Start a walk for a requester: where the page has an open record the requester attaches to it, and where the walker
already walks the page the walks merge (R341). -/
def State.startWalk (s : State) (w : Walk) : State :=
  let s1 := s.countMiss w
  match (s1.collector w.collector).find w.context w.va with
  | some r => s1.joinRecord w.collector r w
  | none =>
    let s2 := if s1.walks.any w.samePage then s1 else s1.countHub w.collector 20
    { s2 with walks := s2.walks ++ [w] }

/-- Is a walk among the eight that its walker runs at once (R341)? -/
def State.walkRuns (s : State) (w : Walk) : Bool :=
  let pages : List (Nat × Nat) :=
    ((s.walks.filter (fun v => v.collector == w.collector)).map (fun v => (v.context, v.va / 65536))).eraseDups
  (pages.take 8).contains (w.context, w.va / 65536)

/-- A walker caches the level-1 and level-2 entries a walk has read; the least recently used leave (R341). [DESIGN CHOICE, log entry 58] -/
def State.noteWalk (s : State) (w : Walk) : State :=
  let x := s.ctx w.context
  let has := fun (n : Nat) (p : Nat) => x.leaves.any (fun (e : Nat × Nat) => e.1 / n == p)
  let big := x.large.any (fun (e : Nat × Nat) => e.1 / 8192 == w.va / 2 ^ 42)
  let k := tabGet WalkCache.empty s.walkCaches w.collector
  let put := fun (n : Nat) (l : List (Nat × Nat)) (e : Nat × Nat) => (e :: l.filter (fun y => y != e)).take n
  let k1 := if big || has (8192 * 8192) (w.va / 2 ^ 42) then { k with level1 := put 64 k.level1 (w.context, w.va / 2 ^ 42) } else k
  let k2 := if has 8192 (w.va / 2 ^ 29) then { k1 with level2 := put 256 k1.level2 (w.context, w.va / 2 ^ 29) } else k1
  { s with walkCaches := tabSet s.walkCaches w.collector k2 }

/-- Is a requester already waiting for a page? -/
def State.stalled (s : State) (who : Requester) : Bool :=
  s.walks.any (fun w => w.who == who)
  || s.collectors.any (fun k => k.2.queue.any (fun w => w.who == who) || k.2.records.any (fun r => r.2.waiters.any (fun w => w.who == who)))

/-- Fault record word 0 (R348). -/
def faultWord0 (f : FaultRecord) : DWord :=
  BitVec.ofNat 64 (2 ^ 63 + f.access.code * 2 ^ 60 + min f.waiters.length 255 * 2 ^ 48 + f.firstCell % 256 * 2 ^ 40
    + f.firstKind % 16 * 2 ^ 36 + f.partition % 16 * 2 ^ 32 + f.context % 65536 * 2 ^ 16)

/-! ## Reads by engines that walk page by page -/

/-- What a virtual read gives: the first page that has no present entry, a fatal kind, a stack that accepts no activates, or the
bytes with their flags. -/
inductive VRead where
  | ok (bytes : List Byte) (poison suspect : Bool)
  | missing (va : Nat)
  | fatal (kind va : Nat)
  /-- A page lies in a stack in throttle stage 3: the read waits (R37). -/
  | held
deriving DecidableEq, Repr

/-- The pages (64 KiB) a span touches, as page base addresses. -/
def spanPages (va n : Nat) : List Nat :=
  if n = 0 then [] else (List.range ((va + n - 1) / 65536 - va / 65536 + 1)).map (fun i => (va / 65536 + i) * 65536)

/-- The part of the span `[va, va+n)` that lies in the page at `p`: its address and length. -/
def pagePart (va n p : Nat) : Nat × Nat := (max va p, min (va + n) (p + 65536) - max va p)

/-- Read a span through a context's tables, page by page (R337: a page is physically contiguous). [DEDUCED, log entry 57] -/
def State.readPages (s : State) (ctx : Nat) (a : Access) (va n : Nat) : List Nat → VRead
  | [] => .ok [] false false
  | p :: rest =>
    let (x, len) := pagePart va n p
    if 2 ^ 48 ≤ x then .fatal 5 x
    else match (s.ctx ctx).leaf x with
      | none => .missing x
      | some (e, big) =>
        if !ptePermits e a then .fatal 1 x
        else
          let pa := leafPa e big x
          if !s.populated pa then .fatal 2 x
          else match s.readPages ctx a va n rest with
            | .ok bs po su =>
              let (b, p, u) := s.memRead pa len
              .ok (b ++ bs) (p || po) (u || su)
            | r => r

/-- Read `n` bytes at a virtual address of a context. -/
def State.vread (s : State) (ctx : Nat) (a : Access) (va n : Nat) : VRead := s.readPages ctx a va n (spanPages va n)

/-- Do all the pages of a span that are present lie in stacks that accept activates (R37)? -/
def State.spanOpen (s : State) (ctx va n : Nat) : Bool :=
  (spanPages va n).all (fun p => match (s.ctx ctx).leaf p with
    | some (e, big) => s.stackOpen (leafPa e big p)
    | none => true)

/-- The physical address that the quarter of a block gives a virtual address, whether or not its page is present (R337). -/
def State.blockPa (s : State) (ctx va : Nat) : Option Nat :=
  (tabFind (s.ctx ctx).blocks (va / 2 ^ 28)).map (fun q => q * 2 ^ 28 + va % 2 ^ 28)

/-- Read a span through TLB `k`, page by page: a page the TLB does not hold must be walked first (R340, R341). [DEDUCED, log entry 57] -/
def State.readThrough (s : State) (k ctx : Nat) (a : Access) (va n : Nat) : List Nat → VRead
  | [] => .ok [] false false
  | p :: rest =>
    let (x, len) := pagePart va n p
    match s.xlate k ctx x a with
    | .fatal kind => .fatal kind x
    | .walk => .missing x
    | .hit pa =>
      if !s.populated pa then .fatal 2 x
      else if !s.stackOpen pa then .held
      else match s.readThrough k ctx a va n rest with
        | .ok bs po su =>
          let (b, p, u) := s.memRead pa len
          .ok (b ++ bs) (p || po) (u || su)
        | r => r

/-- Read `n` bytes at a virtual address through TLB `k`. -/
def State.tread (s : State) (k ctx : Nat) (a : Access) (va n : Nat) : VRead := s.readThrough k ctx a va n (spanPages va n)

/-- The TLB entries of a span become the most recently used. -/
def State.touchSpan (s : State) (k ctx va n : Nat) : State :=
  (spanPages va n).foldl (fun (acc : State) p => acc.tlbTouch k ctx (pagePart va n p).1) s

/-- Write bytes at a virtual address page by page; stops nowhere, since the caller has checked the pages. -/
def State.vwrite (s : State) (ctx va : Nat) (bs : List Byte) (poison : Bool) : State :=
  (spanPages va bs.length).foldl (fun acc p =>
    let (x, len) := pagePart va bs.length p
    match (s.ctx ctx).leaf x with
    | some (e, big) => acc.dramWrite (leafPa e big x) ((bs.drop (x - va)).take len) poison
    | none => acc) s

/-- What a virtual address translates to. -/
inductive RowPlace where
  | at_ (pa : Nat)
  | missing
  | fatal (kind : Nat)
deriving DecidableEq, Repr

/-- Where a virtual address of a context lies, for reading. -/
def State.place (s : State) (ctx va : Nat) : RowPlace :=
  if 2 ^ 48 ≤ va then .fatal 5
  else match (s.ctx ctx).leaf va with
    | none => .missing
    | some (e, big) =>
      if !pteR e then .fatal 1
      else if !s.populated (leafPa e big va) then .fatal 2
      else .at_ (leafPa e big va)

end Sys2Proof.Machine
end

