-- ==== Sys2Proof/Machine/Operands.lean ====
section
/-!
DEFINITION. Instruction words: class, guard and the forms R, I and B (R55, R56, R64).
-/
namespace Sys2Proof.Machine

def wClass (w : Word) : Nat := field w.toNat 31 28
def wGuardPred (w : Word) : Nat := field w.toNat 27 25
def wGuardNeg (w : Word) : Bool := bitAt w.toNat 24
def wRd (w : Word) : Nat := field w.toNat 23 19
def wRs1 (w : Word) : Nat := field w.toNat 18 14
def wRs2 (w : Word) : Nat := field w.toNat 13 9
def wOpR (w : Word) : Nat := field w.toNat 8 0
/-- The signed 10-bit immediate of form I (R56). -/
def wImm10 (w : Word) : Int := signed 10 (field w.toNat 9 0)
/-- The signed word offset of form B (R56). -/
def wOffset (w : Word) : Int := signed 24 (field w.toNat 23 0)

/-- Does the guard let the instruction execute (R55)? -/
def Thread.guard (h : Thread) (w : Word) : Bool := h.pred (wGuardPred w) != wGuardNeg w

/-- Engine command fields (R64). -/
def eEngine (w : Word) : Nat := field w.toNat 23 20
def eSa (w : Word) : Nat := field w.toNat 19 15
def eSb (w : Word) : Nat := field w.toNat 14 10
def eSemDone (w : Word) : Nat := field w.toNat 9 4
def eDoneEn (w : Word) : Bool := bitAt w.toNat 3
def eWaitEn (w : Word) : Bool := bitAt w.toNat 2
def eSemWait (w1 : Word) : Nat := field w1.toNat 31 26
def eSerial (w1 : Word) : Bool := bitAt w1.toNat 25
def eImm (w1 : Word) : BitVec 24 := w1.truncate 24
/-- Are the RSV bits of both words zero? -/
def eLegal (w w1 : Word) : Bool := field w.toNat 1 0 == 0 && !bitAt w1.toNat 24

/-- An address formed from a base register and the scaled immediate, modulo 2^64 (R56). -/
def memAddr (base : DWord) (w : Word) (log2 : Nat) : Nat :=
  (base + BitVec.ofInt 64 (wImm10 w * (2 ^ log2 : Nat))).toNat

/-- A loaded value: little-endian bytes, zero or sign extended (R8, R56). -/
def loadValue (bs : List Byte) (sext : Bool) : DWord :=
  if sext then BitVec.ofInt 64 (signed (8 * bs.length) (leNat bs)) else BitVec.ofNat 64 (leNat bs)

/-- Operand values of the class 0x0 and 0x1 operations (R545). -/
def intResult (op : IntOp) (a b : DWord) : DWord :=
  match op with
  | .add => a + b
  | .sub => a - b
  | .mul => a * b
  | .divu => if b = 0#64 then BitVec.allOnes 64 else a / b
  | .remu => if b = 0#64 then a else a % b
  | .div => if b = 0#64 then BitVec.allOnes 64 else a.sdiv b
  | .rem => if b = 0#64 then a else a.srem b
  | .and => a &&& b
  | .or => a ||| b
  | .xor => a ^^^ b
  | .shl => a <<< (b.toNat % 64)
  | .shr => a >>> (b.toNat % 64)
  | .sra => a.sshiftRight (b.toNat % 64)

/-- Does the operation block its thread for a divide or remainder (R54)? -/
def intBlocks : IntOp → Bool
  | .divu => true
  | .remu => true
  | .div => true
  | .rem => true
  | _ => false

end Sys2Proof.Machine
end

