-- ==== Sys2Proof/Machine/Flags.lean ====
section
/-!
DEFINITION. Predicates and sticky flags: the comparisons of class 0x2 (R56) and the flag word of R136.
-/
namespace Sys2Proof.Machine

/-- The predicate a comparison gives. -/
def cmpResult (c : Cmp) (a b : DWord) : Bool :=
  match c with
  | .eq => a == b
  | .ne => a != b
  | .lt => a.slt b
  | .ltu => a.ult b
  | .le => a.sle b
  | .leu => a.ule b
  | .gt => b.slt a
  | .gtu => b.ult a
  | .ge => b.sle a
  | .geu => b.ule a

/-- The predicate a logic function gives: bit 2a + b of its truth table. -/
def logicResult (table : BitVec 4) (a b : Bool) : Bool := table.getLsbD (2 * b2n a + b2n b)

/-- Bits of the sticky flag word (R136). -/
def flInexact : Nat := 1
def flUnderflow : Nat := 2
def flOverflow : Nat := 4
def flDivZero : Nat := 8
def flInvalid : Nat := 16
def flIntSat : Nat := 32
def flPoison : Nat := 64

/-- Flags ORed into a thread's sticky word (R137). -/
def Thread.orSticky (h : Thread) (f : Nat) : Thread := { h with sticky := h.sticky ||| BitVec.ofNat 32 (f % 128) }

end Sys2Proof.Machine
end

