-- ==== Sys2Proof/Machine/Engines.lean ====
section
/-!
DEFINITION. Engine command queues: acceptance, start semaphores, `SERIAL`, and completion (R64–R66, R70, R71).
-/
namespace Sys2Proof.Machine

/-- Queue depths (R65). -/
def engineDepth (e : Nat) : Nat :=
  match e with
  | 0 => 8 | 1 => 8 | 2 => 16 | 3 => 32 | _ => 2

/-- Engine commands of a cell that have not completed, queued or running. -/
def Cell.openCmds (x : Cell) : List EngineCmd :=
  x.queues.flatMap (fun p => p.2) ++ x.array.passes.map (·.cmd) ++ x.array.loader.filterMap (·.only)
  ++ x.bags ++ x.vec.cmd.toList ++ x.samp.cmd.toList

/-- May the head command of its queue start: semaphore granted, and with `SERIAL` every earlier command of its thread
complete (R64, R66)? -/
def Cell.mayStart (x : Cell) (c : EngineCmd) : Bool :=
  c.granted && (!c.serial || x.openCmds.all (fun d => d.thread != c.thread || decide (c.seq ≤ d.seq)))

/-- The head of an engine's queue. -/
def Cell.head (x : Cell) (e : Nat) : Option EngineCmd := (x.equeue e).head?

/-- A head command with `WAIT_EN` joins its semaphore's waiters when it reaches the head (R66). [DESIGN CHOICE, log entry 157] -/
def State.armHead (s : State) (c e : Nat) : State :=
  match (s.cell c).head e with
  | none => s
  | some h =>
    if h.granted then s
    else if ((s.cell c).semWaiters h.semWait).any (fun w => w.1 == .engine e) then s
    else s.waitSem c h.semWait 1 (.engine e)

/-- A queue's waiting-order stamp for tile buffers (R88). -/
def State.stampHead (s : State) (c e : Nat) : State :=
  s.modCell c (fun x => { x with headAt := tabSet x.headAt e x.nextSeq, nextSeq := x.nextSeq + 1 })

/-- Data of a trace record of kind 4 (R517). -/
def EngineCmd.traceData (cmd : EngineCmd) : List Byte :=
  bytesLE 1 cmd.engine ++ bytesLE 1 cmd.thread ++ bytesLE 2 0 ++ bytesLE 4 cmd.pc.toNat

/-- Put a command into its engine's queue. -/
def State.enqueue (s : State) (c : Nat) (cmd : EngineCmd) : State :=
  let q := (s.cell c).equeue cmd.engine
  let s1 := (s.modCell c (fun x => x.setQueueOf cmd.engine (q ++ [cmd]))).traceCell c 4 cmd.traceData
  if q.isEmpty then (s1.stampHead c cmd.engine).armHead c cmd.engine else s1

/-- The blocked thread whose command for engine `e` was issued first. -/
def Cell.nextBlocked (x : Cell) (e : Nat) : Option (Nat × EngineCmd) :=
  x.threads.foldl (fun best p =>
    match p.2.waits with
    | .engine cmd =>
      if cmd.engine == e then
        match best with
        | some (_, b) => if cmd.seq < b.seq then some (p.1, cmd) else best
        | none => some (p.1, cmd)
      else best
    | _ => best) none

/-- Accept a command, or block its thread while the queue is full (R54). -/
def State.acceptCmd (s : State) (c : Nat) (cmd : EngineCmd) : State :=
  if ((s.cell c).equeue cmd.engine).length < engineDepth cmd.engine then s.enqueue c cmd
  else s.modThread c cmd.thread (fun h => { h with status := .blocked, waits := .engine cmd })

/-- Take the head command off a queue; a thread blocked on the full queue goes on, and the new head arms. -/
def State.popCmd (s : State) (c e : Nat) : State :=
  let s1 := s.modCell c (fun x => x.setQueueOf e ((x.equeue e).drop 1))
  let s2 := match (s1.cell c).nextBlocked e with
    | some (t, cmd) =>
      ((s1.modThread c t (fun h => { h with status := .running, waits := .nothing })).modCell c
        (fun x => x.setQueueOf e (x.equeue e ++ [cmd]))).traceCell c 4 cmd.traceData
    | none => s1
  (s2.stampHead c e).armHead c e

/-- A command completes: `SEM_DONE` is signalled with n = 1 (R64, R66), and the cell's end is checked (R60). -/
def State.completeCmd (s : State) (c : Nat) (cmd : EngineCmd) : State :=
  let s1 := if cmd.doneEn then s.signal c cmd.semDone 1 cmd.thread 8 cmd.pc else s
  s1.checkCellEnd c

/-- A cell fault at a command: class 0x8 and the command's own thread and pc. -/
def State.cmdFault (s : State) (c code : Nat) (cmd : EngineCmd) : State := s.cellFault c code cmd.thread 8 cmd.pc

/-- Is a launch on the cell still active (placed and not ended)? -/
def State.cellActive (s : State) (c : Nat) : Bool :=
  match s.launchOn c with
  | some l => match s.launch? l with
    | some x => x.phase == .running || x.phase == .marked
    | none => false
  | none => false

/-- The launch on a cell, when it is active. -/
def State.activeLaunch (s : State) (c : Nat) : Option (Nat × Launch) :=
  match s.launchOn c with
  | some l => match s.launch? l with
    | some x => if x.phase == .running || x.phase == .marked then some (l, x) else none
    | none => none
  | none => none

/-- A span of a cell's scratchpad with its flags, resident-region poison clearing the residency tag (R253). -/
def Cell.spPoison (x : Cell) (off n : Nat) : Bool := x.scratch.poisoned 64 off n
def Cell.spSuspect (x : Cell) (off n : Nat) : Bool := x.scratch.suspected 64 off n

/-- The resident region that a residency tag speaks of (R252, R305). -/
def State.residentOf (s : State) (t : ResTag) : Option Resident :=
  match tabFind s.images t.image with
  | some im => (im.variants.find? (fun v => v.footprint == t.footprint)).bind (fun v => v.residents[t.rank]?)
  | none => none

/-- A read of `[off, off+n)` that returns poison from the resident region clears the cell's residency tag (R253). -/
def State.noteResident (s : State) (c off n : Nat) : State :=
  match (s.cell c).residency.bind s.residentOf with
  | some r =>
    if decide (off < r.spOff + r.spLen) && decide (r.spOff < off + n)
        && (s.cell c).spPoison (max off r.spOff) (min (off + n) (r.spOff + r.spLen) - max off r.spOff) then
      s.modCell c (fun x => { x with residency := none })
    else s
  | none => s

/-- Reads of several spans, noted. -/
def State.noteSpans (s : State) (c : Nat) (spans : List (Nat × Nat)) : State :=
  spans.foldl (fun (acc : State) p => acc.noteResident c p.1 p.2) s

/-- Poisoned control data of the launch on a cell, read at `[off, off+n)` (R253, R412). -/
def State.takePoison (s : State) (c off n : Nat) : State := (s.noteResident c off n).consumePoison c ((s.cell c).spSuspect off n)

end Sys2Proof.Machine
end

