-- ==== Sys2Proof/Machine/Float.lean ====
section
/-!
DEFINITION. Number formats and exact arithmetic: every value is a sign, a magnitude and a power of two, and it is
rounded once (R99–R101, R107, R110–R112, R129).
-/
namespace Sys2Proof.Machine

/-- A binary floating-point format (R99, R100). -/
structure FFmt where
  ebits : Nat
  mbits : Nat
  bias : Nat
  /-- E4M3: no infinity, the top exponent holds numbers but for mantissa all ones. -/
  finiteTop : Bool
deriving DecidableEq, Repr

def fmtE4M3 : FFmt := { ebits := 4, mbits := 3, bias := 7, finiteTop := true }
def fmtE5M2 : FFmt := { ebits := 5, mbits := 2, bias := 15, finiteTop := false }
def fmtBf16 : FFmt := { ebits := 8, mbits := 7, bias := 127, finiteTop := false }
def fmtFp16 : FFmt := { ebits := 5, mbits := 10, bias := 15, finiteTop := false }
def fmtFp32 : FFmt := { ebits := 8, mbits := 23, bias := 127, finiteTop := false }

/-- A value: a NaN, an infinity, or (−1)^neg × mag × 2^exp. -/
inductive FVal where
  | nan (quiet : Bool)
  | inf (neg : Bool)
  | fin (neg : Bool) (mag : Nat) (exp : Int)
deriving DecidableEq, Repr

/-- The width of a format. -/
def FFmt.width (f : FFmt) : Nat := 1 + f.ebits + f.mbits
/-- The exponent of the unit of the subnormal range. -/
def FFmt.minUlp (f : FFmt) : Int := 1 - (f.bias : Int) - (f.mbits : Int)
/-- The top biased exponent of a finite number. -/
def FFmt.topExp (f : FFmt) : Nat := if f.finiteTop then 2 ^ f.ebits - 1 else 2 ^ f.ebits - 2
/-- The mantissa of the largest finite number. -/
def FFmt.topMant (f : FFmt) : Nat := if f.finiteTop then 2 ^ f.mbits - 2 else 2 ^ f.mbits - 1
/-- The largest finite magnitude, as (mag, exp). -/
def FFmt.maxMag (f : FFmt) : Nat × Int := (2 ^ f.mbits + f.topMant, (f.topExp : Int) - (f.bias : Int) - (f.mbits : Int))
/-- The canonical NaN (R100). -/
def FFmt.nan (f : FFmt) : Nat :=
  if f.finiteTop then (2 ^ f.ebits - 1) * 2 ^ f.mbits + (2 ^ f.mbits - 1)
  else (2 ^ f.ebits - 1) * 2 ^ f.mbits + 2 ^ (f.mbits - 1)
/-- An infinity. -/
def FFmt.infBits (f : FFmt) (neg : Bool) : Nat := b2n neg * 2 ^ (f.width - 1) + (2 ^ f.ebits - 1) * 2 ^ f.mbits
/-- The largest finite number with a sign. -/
def FFmt.maxBits (f : FFmt) (neg : Bool) : Nat := b2n neg * 2 ^ (f.width - 1) + f.topExp * 2 ^ f.mbits + f.topMant

/-- The value a code stands for (R99, R100). -/
def FFmt.decode (f : FFmt) (x : Nat) : FVal :=
  let neg := bitAt x (f.width - 1)
  let e := field x (f.width - 2) f.mbits
  let m := x % 2 ^ f.mbits
  if f.finiteTop && e == 2 ^ f.ebits - 1 && m == 2 ^ f.mbits - 1 then .nan true
  else if !f.finiteTop && e == 2 ^ f.ebits - 1 then
    if m == 0 then .inf neg else .nan (bitAt m (f.mbits - 1))
  else if e == 0 then .fin neg m f.minUlp
  else .fin neg (2 ^ f.mbits + m) ((e : Int) - f.bias - f.mbits)

/-- How a value is rounded. -/
inductive Rounding where
  /-- Nearest, ties to even (IEEE 754). -/
  | even
  /-- Nearest, ties away from zero (R110). -/
  | away
  /-- Towards zero. -/
  | zero
  /-- Stochastic with the word `w`; `lsb` is the exponent of x's own least significant place (R111). -/
  | stochastic (w : Nat) (lsb : Int)
deriving DecidableEq, Repr

/-- Position of the top bit of a non-zero magnitude. -/
def topBit (mag : Nat) : Nat := Nat.log2 mag

/-- The integer `mag × 2^exp` in units of `2^ulp`, rounded; and whether it is inexact. -/
def roundUnits (r : Rounding) (mag : Nat) (exp ulp : Int) : Nat × Bool :=
  if ulp ≤ exp then (mag * 2 ^ (exp - ulp).toNat, false)
  else
    let d := (ulp - exp).toNat
    let q := mag / 2 ^ d
    let t := mag % 2 ^ d
    if t = 0 then (q, false)
    else match r with
      | .even => (if 2 * t > 2 ^ d ∨ (2 * t = 2 ^ d ∧ q % 2 = 1) then q + 1 else q, true)
      | .away => (if 2 * t ≥ 2 ^ d then q + 1 else q, true)
      | .zero => (q, true)
      | .stochastic w lsb =>
        let b := min (ulp - lsb).toNat 32
        let u := w % 2 ^ b
        ((mag * 2 ^ b + u * 2 ^ d) / (2 ^ d * 2 ^ b), true)

/-- The exponent of the unit in the last place at a magnitude (R110). -/
def FFmt.ulpAt (f : FFmt) (mag : Nat) (exp : Int) : Int := max ((topBit mag : Int) + exp - f.mbits) f.minUlp

/-- A magnitude of `q` units of `2^ulp`, at most 2^(mbits+1) units, as exponent and mantissa fields. -/
def FFmt.pack (f : FFmt) (q : Nat) (ulp : Int) : Nat := q + ((ulp - f.minUlp).toNat) * 2 ^ f.mbits

/-- A finite non-zero value rounded to a format: the code without sign, whether it lies above the largest finite
number, and whether it is inexact. -/
def FFmt.roundMag (f : FFmt) (r : Rounding) (mag : Nat) (exp : Int) : Nat × Bool × Bool :=
  let ulp := f.ulpAt mag exp
  let (q, ix) := roundUnits r mag exp ulp
  let code := f.pack q ulp
  (code, decide (f.topExp * 2 ^ f.mbits + f.topMant < code), ix)

/-- Flags of an IEEE operation: bits of the sticky word (R136). -/
abbrev FFlags := Nat

/-- Is a finite non-zero value tiny after rounding: below the smallest normal number when rounded with no limit on the
exponent (R136)? -/
def FFmt.tiny (f : FFmt) (r : Rounding) (mag : Nat) (exp : Int) : Bool :=
  let top := (topBit mag : Int) + exp
  let ulp := top - f.mbits
  let (q, _) := roundUnits r mag exp ulp
  let normal := f.minUlp + f.mbits
  decide (top < normal) && !(decide (top + 1 = normal) && decide (2 ^ (f.mbits + 1) ≤ q))

/-- Round a value to a format as an IEEE operation does: ties to even by default, overflow to infinity (to the largest
finite number for E4M3, which has none), underflow detected after rounding and raised when inexact (R129, R136). -/
def FFmt.round (f : FFmt) (r : Rounding) (v : FVal) : Nat × FFlags :=
  match v with
  | .nan _ => (f.nan, 0)
  | .inf neg => (if f.finiteTop then f.maxBits neg else f.infBits neg, 0)
  | .fin neg mag exp =>
    if mag = 0 then (b2n neg * 2 ^ (f.width - 1), 0)
    else
      let (code, huge, ix) := f.roundMag r mag exp
      if huge then
        (match r with
         | .zero => f.maxBits neg
         | _ => if f.finiteTop then f.maxBits neg else f.infBits neg, 4 + 1)
      else
        (b2n neg * 2 ^ (f.width - 1) + code, (if ix then 1 else 0) + (if ix && f.tiny r mag exp then 2 else 0))

/-! ## Exact arithmetic -/

/-- Two finite values brought to one exponent: signed magnitudes and the exponent. -/
def alignSum (n1 : Bool) (m1 : Nat) (e1 : Int) (n2 : Bool) (m2 : Nat) (e2 : Int) : Int × Int :=
  let e := min e1 e2
  let a : Int := (m1 * 2 ^ (e1 - e).toNat : Nat)
  let b : Int := (m2 * 2 ^ (e2 - e).toNat : Nat)
  ((if n1 then -a else a) + (if n2 then -b else b), e)

/-- Exact sum; invalid (flag) for infinities of unlike sign or a signalling NaN. Sums that cancel are +0. -/
def FVal.add (x y : FVal) : FVal × FFlags :=
  match x, y with
  | .nan q, .nan p => (.nan true, if q && p then 0 else 16)
  | .nan q, _ => (.nan true, if q then 0 else 16)
  | _, .nan q => (.nan true, if q then 0 else 16)
  | .inf a, .inf b => if a == b then (.inf a, 0) else (.nan true, 16)
  | .inf a, .fin _ _ _ => (.inf a, 0)
  | .fin _ _ _, .inf b => (.inf b, 0)
  | .fin n1 m1 e1, .fin n2 m2 e2 =>
    if m1 = 0 ∧ m2 = 0 then (.fin (n1 && n2) 0 0, 0)
    else
      let (v, e) := alignSum n1 m1 e1 n2 m2 e2
      (.fin (decide (v < 0)) v.natAbs e, 0)

/-- Exact product. -/
def FVal.mul (x y : FVal) : FVal × FFlags :=
  match x, y with
  | .nan q, .nan p => (.nan true, if q && p then 0 else 16)
  | .nan q, _ => (.nan true, if q then 0 else 16)
  | _, .nan q => (.nan true, if q then 0 else 16)
  | .inf a, .inf b => (.inf (a != b), 0)
  | .inf a, .fin b m _ => if m = 0 then (.nan true, 16) else (.inf (a != b), 0)
  | .fin b m _, .inf a => if m = 0 then (.nan true, 16) else (.inf (a != b), 0)
  | .fin a m1 e1, .fin b m2 e2 => (.fin (a != b) (m1 * m2) (e1 + e2), 0)

/-- Change of sign. -/
def FVal.neg : FVal → FVal
  | .nan q => .nan q
  | .inf a => .inf (!a)
  | .fin a m e => .fin (!a) m e

/-- Scaling by a power of two. -/
def FVal.scale (x : FVal) (k : Int) : FVal :=
  match x with
  | .fin n m e => .fin n m (e + k)
  | v => v

/-- A fp32 sum rounded to nearest even. -/
def fp32Add (a b : FVal) : FVal := fmtFp32.decode ((fmtFp32.round .even (a.add b).1).1)

/-- Binary digits of an integer square root: `n` steps from bit `n - 1` down. -/
def isqrtLoop (x : Nat) : Nat → Nat → Nat
  | 0, r => r
  | n + 1, r =>
    let r' := r + 2 ^ n
    isqrtLoop x n (if r' * r' ≤ x then r' else r)

/-- The integer square root of a number below 2^(2n). -/
def isqrt (n x : Nat) : Nat := isqrtLoop x n 0

/-- Quotient, with a sticky bit below 64 guard bits, so that one rounding of it is the rounding of the exact quotient
(R129). -/
def FVal.div (x y : FVal) : FVal × FFlags :=
  match x, y with
  | .nan q, .nan p => (.nan true, if q && p then 0 else 16)
  | .nan q, _ => (.nan true, if q then 0 else 16)
  | _, .nan q => (.nan true, if q then 0 else 16)
  | .inf _, .inf _ => (.nan true, 16)
  | .inf a, .fin b _ _ => (.inf (a != b), 0)
  | .fin a _ _, .inf b => (.fin (a != b) 0 0, 0)
  | .fin a m e, .fin b n d =>
    if n = 0 then (if m = 0 then (.nan true, 16) else (.inf (a != b), 8))
    else
      let k := 64 + topBit n
      let q := m * 2 ^ k / n
      let r := m * 2 ^ k % n
      (.fin (a != b) (2 * q + (if r = 0 then 0 else 1)) (e - d - k - 1), 0)

/-- Square root, in the same way (R129). -/
def FVal.sqrt (x : FVal) : FVal × FFlags :=
  match x with
  | .nan q => (.nan true, if q then 0 else 16)
  | .inf true => (.nan true, 16)
  | .inf false => (.inf false, 0)
  | .fin a m e =>
    if m = 0 then (.fin a 0 0, 0)
    else if a then (.nan true, 16)
    else
      let odd := e % 2 != 0
      let m1 := if odd then 2 * m else m
      let e1 := if odd then e - 1 else e
      let y := m1 * 2 ^ 128
      let r := isqrt 128 y
      (.fin false (2 * r + (if r * r = y then 0 else 1)) (e1 / 2 - 64 - 1), 0)

/-- Is the value infinite? -/
def FVal.isInf : FVal → Bool
  | .inf _ => true
  | _ => false

/-- Order of two values that are not NaN: negative, zero or positive difference; −0 counts below +0 where asked. -/
def FVal.sign (x : FVal) : Int :=
  match x with
  | .nan _ => 0
  | .inf a => if a then -1 else 1
  | .fin a m _ => if m = 0 then 0 else if a then -1 else 1
/-- x < y for values that are not NaN; the zeros are equal. -/
def FVal.lt (x y : FVal) : Bool :=
  match x, y with
  | .inf a, .inf b => a && !b
  | .inf a, .fin _ _ _ => a
  | .fin _ _ _, .inf b => !b
  | .fin a m e, .fin b n d => decide ((alignSum a m e (!b) n d).1 < 0)
  | _, _ => false
def FVal.isNan : FVal → Bool
  | .nan _ => true
  | _ => false
/-- Equal as IEEE compares. -/
def FVal.eq (x y : FVal) : Bool := !x.isNan && !y.isNan && !x.lt y && !y.lt x
def FVal.isNeg : FVal → Bool
  | .nan _ => false
  | .inf a => a
  | .fin a _ _ => a
/-- IEEE 754 minimum: a NaN operand gives NaN, −0 below +0 (R129). -/
def FVal.minimum (x y : FVal) : FVal × FFlags :=
  match x, y with
  | .nan q, .nan p => (.nan true, if q && p then 0 else 16)
  | .nan q, _ => (.nan true, if q then 0 else 16)
  | _, .nan q => (.nan true, if q then 0 else 16)
  | a, b => (if a.lt b || (a.eq b && a.isNeg) then a else b, 0)
/-- IEEE 754 maximum. -/
def FVal.maximum (x y : FVal) : FVal × FFlags :=
  match x, y with
  | .nan q, .nan p => (.nan true, if q && p then 0 else 16)
  | .nan q, _ => (.nan true, if q then 0 else 16)
  | _, .nan q => (.nan true, if q then 0 else 16)
  | a, b => (if b.lt a || (a.eq b && b.isNeg) then a else b, 0)

/-- e^(−x) for x = mag × 2^exp ≥ 0, as a value that one rounding turns into the correctly rounded result: a fixed-point
series on 384 fraction bits after division by 2^8, then eight squarings (R153). -/
def expTerms (x : Nat) : Nat → Nat → Nat → Nat
  | 0, _, _ => 0
  | n + 1, k, t => t + expTerms x n (k + 1) (t * x / (k * 2 ^ 384))
def squareTimes : Nat → Nat → Nat
  | 0, y => y
  | n + 1, y => squareTimes n (y * y / 2 ^ 384)
/-- [DEDUCED, log entry 28] -/
def expNeg (mag : Nat) (exp : Int) : FVal :=
  if mag = 0 then .fin false 1 0
  else if 8 ≤ (topBit mag : Int) + exp then .fin false 1 (-1000)
  else
    let x := if 0 ≤ exp + 376 then mag * 2 ^ (exp + 376).toNat else mag / 2 ^ (-(exp + 376)).toNat
    let grow := expTerms x 100 1 (2 ^ 384)
    let inv := 2 ^ 768 / grow
    .fin false (2 * squareTimes 8 inv + 1) (-385)

/-! ## Element formats of the array and the output stage (R77, R99, R106) -/

/-- An element format code: 0–8 operand formats, 9 int32, 10 fp32. -/
def fmtWidth (c : Nat) : Nat :=
  match c with
  | 0 => 8 | 1 => 8 | 2 => 4 | 3 => 4 | 4 => 8 | 5 => 8 | 6 => 16 | 7 => 16 | 8 => 16 | 9 => 32 | 10 => 32
  | _ => 0

/-- Is the format a floating-point one? -/
def fmtIsFloat (c : Nat) : Bool := c == 4 || c == 5 || c == 7 || c == 8 || c == 10

/-- The floating-point format of a code. -/
def fmtFloat (c : Nat) : FFmt :=
  match c with
  | 4 => fmtE4M3 | 5 => fmtE5M2 | 7 => fmtBf16 | 8 => fmtFp16 | _ => fmtFp32

/-- Class of an operand format: 0 8-bit integer, 1 4-bit, 2 fp8, 3 16-bit (R77). -/
def fmtClass (c : Nat) : Nat :=
  if c == 0 || c == 1 then 0 else if c == 2 || c == 3 then 1 else if c == 4 || c == 5 then 2 else 3

/-- Does the format carry a zero point (R99)? -/
def fmtHasZp (c : Nat) : Bool := c == 1 || c == 3

/-- Largest zero point of a format. -/
def fmtMaxZp (c : Nat) : Nat := if c == 1 then 255 else if c == 3 then 15 else 0

/-- The integer a code stands for, zero point taken off (R101, R102). -/
def fmtInt (c x zp : Nat) : Int :=
  if fmtHasZp c then (x : Int) - (zp : Int) else signed (fmtWidth c) x

/-- Range of an integer output format (R99). -/
def fmtRange (c : Nat) : Int × Int :=
  if c == 1 then (0, 255) else if c == 3 then (0, 15)
  else (-(2 ^ (fmtWidth c - 1) : Nat), (2 ^ (fmtWidth c - 1) : Nat) - 1)

/-- A signed value `n × 2^k` rounded to an integer. -/
def roundInt (r : Rounding) (n : Int) (k : Int) : Int :=
  match r with
  | .stochastic w lsb =>
    if 0 ≤ k then n * (2 ^ k.toNat : Nat)
    else
      let b := min (0 - lsb).toNat 32
      let u := w % 2 ^ b
      (n * (2 ^ b : Nat) + (u : Int) * (2 ^ (-k).toNat : Nat)) / ((2 ^ (-k).toNat * 2 ^ b : Nat) : Int)
  | _ =>
    let (q, _) := roundUnits r n.natAbs k 0
    if n < 0 then -(q : Int) else (q : Int)

/-- The accumulator of a column: int32 or fp32 (R75). -/
inductive Acc where
  | int (v : Int)
  | flt (v : FVal)
deriving DecidableEq, Repr

/-- An accumulator as the 32-bit word a tile buffer holds. -/
def Acc.word : Acc → Nat
  | .int v => unsigned 32 v
  | .flt v => (fmtFp32.round .even v).1

/-- A tile-buffer word read as an accumulator. -/
def accOfWord (float : Bool) (w : Nat) : Acc := if float then .flt (fmtFp32.decode w) else .int (signed 32 w)

/-- One output element of the output stage: its code and whether it counts as clipped (R107, R108, R112).
`k` is the whole shift, `zp` the output zero point, `rnd` the rounding (the word of R111 with `SR`). -/
def outputElement (fmt zp : Nat) (k : Int) (sr : Bool) (w : Nat) (a : Acc) : Nat × Bool :=
  match a with
  | .flt (.nan _) => (if fmtIsFloat fmt then (fmtFloat fmt).nan else zp % 2 ^ fmtWidth fmt, true)
  | .flt (.inf neg) =>
    if fmtIsFloat fmt then
      (if (fmtFloat fmt).finiteTop then (fmtFloat fmt).maxBits neg else (fmtFloat fmt).infBits neg, true)
    else (unsigned (fmtWidth fmt) (if neg then (fmtRange fmt).1 else (fmtRange fmt).2), true)
  | _ =>
    let (neg, mag, exp, lsb) : Bool × Nat × Int × Int := match a with
      | .int v => (decide (v < 0), v.natAbs, k, k)
      | .flt (.fin n m e) => (n, m, e + k, (if m = 0 then fmtFp32.minUlp else fmtFp32.ulpAt m e) + k)
      | .flt _ => (false, 0, 0, 0)
    let r : Rounding := if sr then .stochastic w lsb else .away
    if fmtIsFloat fmt then
      let f := fmtFloat fmt
      if mag = 0 then (b2n neg * 2 ^ (f.width - 1), false)
      else
        let (code, huge, _) := f.roundMag r mag exp
        if huge then (f.maxBits neg, true) else (b2n neg * 2 ^ (f.width - 1) + code, false)
    else
      let n : Int := if neg then -(mag : Int) else mag
      let v := roundInt r n exp + zp
      let (lo, hi) := fmtRange fmt
      (unsigned (fmtWidth fmt) (clampInt lo hi v), decide (v < lo) || decide (hi < v))

/-- An int32 accumulator scaled at a K-block crossing (R104). -/
def crossInt (v : Int) (d : Int) : Int :=
  signed 32 (unsigned 32 (if 0 ≤ d then v * (2 ^ d.toNat : Nat) else roundInt .away v d))

/-- An accumulator scaled at a crossing (R104): exact for fp32, rounded to even only beyond its range. -/
def Acc.cross (a : Acc) (d : Int) : Acc :=
  match a with
  | .int v => .int (crossInt v d)
  | .flt v => .flt (fmtFp32.decode (fmtFp32.round .even (v.scale d)).1)

/-- One product added to a column (R75, R105). -/
def Acc.mac (a : Acc) (x y : Nat) (fx fy zx zy : Nat) : Acc :=
  match a with
  | .int v => .int (signed 32 (unsigned 32 (v + fmtInt fx x zx * fmtInt fy y zy)))
  | .flt v => .flt (fp32Add v (((fmtFloat fx).decode x).mul ((fmtFloat fy).decode y)).1)

end Sys2Proof.Machine
end

