-- ==== Sys2Proof/Machine/Gen.lean ====
section
/-!
DEFINITION. The generator function and its keyed and free counters (R143–R149).
-/
namespace Sys2Proof.Machine

/-- Round constants a, b and c (R143). -/
def genRounds : List (Nat × Nat × Word) :=
  [(16, 8, 0x9B5D3A71#32), (12, 24, 0x6C2E84F9#32), (20, 4, 0xD17A05B3#32), (8, 28, 0x3E94C62D#32),
   (16, 8, 0xA5F01E87#32), (12, 24, 0x4873B9C5#32), (20, 4, 0xF21C6A0B#32), (8, 28, 0x17E6D453#32)]

/-- One round on the four words of the state. -/
def genRound (x : Word × Word × Word × Word) (r : Nat × Nat × Word) : Word × Word × Word × Word :=
  let (x0, x1, x2, x3) := x
  let (a, b, c) := r
  let y0 := x0 + x1
  let y3 := (x3 ^^^ y0).rotateLeft a
  let y2 := x2 + y3
  let y1 := (x1 ^^^ y2).rotateLeft b
  (y1, y2, y3, y0 ^^^ c)

/-- The generator function F: key words k0–k3 and counter words ctr0–ctr3 (R143). -/
def genF (k c : Word × Word × Word × Word) : Word :=
  let (k0, k1, k2, k3) := k
  let (c0, c1, c2, c3) := c
  (genRounds.foldl genRound (c0 + k0, c1 + k1, c2 + k2, c3 + k3)).1 + k0

/-- The words of a 128-bit key, k0 lowest. -/
def keyWords (k : BitVec 128) : Word × Word × Word × Word :=
  (k.truncate 32, (k >>> 32).truncate 32, (k >>> 64).truncate 32, (k >>> 96).truncate 32)

/-- A keyed word: element index, tensor, draw number and domain (R146). [DEDUCED, log entry 21; DESIGN CHOICE, log entry 29] -/
def genKeyed (key : BitVec 128) (domain elem tensor draw : Nat) : Word :=
  genF (keyWords key) (BitVec.ofNat 32 elem, BitVec.ofNat 32 (elem / 2 ^ 32), BitVec.ofNat 32 tensor,
    BitVec.ofNat 32 (draw % 65536 * 65536 + domain % 256 * 256))

/-- A free-mode word: step count, cell, domain and lane or column (R146). [DESIGN CHOICE, log entry 29] -/
def genFree (key : BitVec 128) (domain cell lane : Nat) (step : DWord) : Word :=
  genF (keyWords key) (step.truncate 32, (step >>> 32).truncate 32, BitVec.ofNat 32 (cell % 128),
    BitVec.ofNat 32 (domain % 256 * 256 + lane % 256))

/-- The step count of a cell's generators at the `i`-th draw, from a count `g` on, where draws are made `per` cycles apart or more: it
rises by one with every cycle of the cell's clock (R147). [DESIGN CHOICE, log entry 10; DESIGN CHOICE, log entry 29] -/
def genCount (per : Nat) (g : DWord) (free i : Nat) : DWord :=
  BitVec.ofNat 64 (g.toNat + per * i + ((List.range (i + 1)).map (fun j => Config.freeNat (free + j))).sum)

/-- Domains (R146). -/
def domRound : Nat := 0
def domVector : Nat := 1
def domSampler : Nat := 2
def domFreeLane : Nat := 0x80
def domFreeColumn : Nat := 0x81
def domFreeSampler : Nat := 0x82

end Sys2Proof.Machine
end

