-- ==== Sys2Proof/Machine/Array.lean ====
section
/-!
DEFINITION. The matrix array: pass blocks and their checks, weight loads, passes and the output stage
(R75–R98, R102–R113, R548).
-/
namespace Sys2Proof.Machine

/-! ## The ARRAY `IMM` (R79) -/

def aEw (i : BitVec 24) : Bool := bitAt i.toNat 20
def aLoadOnly (i : BitVec 24) : Bool := bitAt i.toNat 19
def aWload (i : BitVec 24) : Bool := bitAt i.toNat 18
def aWsel (i : BitVec 24) : Nat := field i.toNat 17 17
def aTb (i : BitVec 24) : Nat := field i.toNat 16 15
def aDestTb (i : BitVec 24) : Bool := bitAt i.toNat 14
def aEwOp (i : BitVec 24) : Nat := field i.toNat 13 12
/-- Are the RSV bits of the immediate zero (R79)? [DESIGN CHOICE, log entry 19] -/
def aImmLegal (i : BitVec 24) : Bool :=
  field i.toNat 23 21 == 0 && field i.toNat 11 0 == 0 && (aEw i || aEwOp i == 0)

/-! ## The pass block (R80) -/

def pbActOff (b : List Byte) : Nat := leAt b 0x00 4
def pbActStride (b : List Byte) : Nat := leAt b 0x04 4
def pbOutOff (b : List Byte) : Nat := leAt b 0x08 4
def pbOutStride (b : List Byte) : Nat := leAt b 0x0C 4
def pbWtOff (b : List Byte) : Nat := leAt b 0x10 4
def pbActFmt (b : List Byte) : Nat := leAt b 0x14 1
def pbWtFmt (b : List Byte) : Nat := leAt b 0x15 1
def pbRamp (b : List Byte) : Nat := leAt b 0x16 1
def pbAccIn (b : List Byte) : Nat := leAt b 0x17 1
def pbRowMask (b : List Byte) : Nat := leAt b 0x18 12
def pbColMask (b : List Byte) : Nat := leAt b 0x24 12
def pbQuantOff (b : List Byte) : Nat := leAt b 0x30 4

/-- Bytes of an activation row and of a weight tile by class (R78). -/
def actRowBytes (fmt : Nat) : Nat := if fmtClass fmt == 3 then 192 else 96
def tileBytes (fmt : Nat) : Nat := if fmtClass fmt == 3 then 18432 else 9216
/-- Bytes of an output row (R106). -/
def outRowBytes (fmt : Nat) : Nat := 96 * fmtWidth fmt / 8
/-- Is a code an operand format? -/
def operandFmt (f : Nat) : Bool := decide (f ≤ 8)
/-- May the two formats be used together (R77)? -/
def fmtsMatch (a w : Nat) : Bool := fmtClass a == fmtClass w && (fmtClass a != 3 || a == w)
/-- Does the class accumulate in fp32 (R78)? -/
def accFloat (fmt : Nat) : Bool := fmtIsFloat fmt

/-- Does a block of `n` rows from `off`, `stride` apart, stay below the hole (R57, R81)? -/
def rowsFit (off stride n size : Nat) : Bool := n == 0 || decide (off + (n - 1) * stride + size ≤ scratchBytes)

/-- Do all rows lie in groups the role grants (R81)? -/
def rowsReach (cal : List Word) (r : Role) (off stride n size : Nat) : Bool :=
  (List.range n).all (fun i => calReaches cal r (off + i * stride) size)

/-- A stored shift byte as a number, and whether it lies in −64 … 63 (R101, R113). -/
def shiftOf (b : Nat) : Int := signed 8 b
def shiftOk (b : Nat) : Bool := decide (-64 ≤ shiftOf b) && decide (shiftOf b ≤ 63)

/-- Field checks of the pass block (R80, R81). [DESIGN CHOICE, log entry 147] -/
def passBlockOk (i : BitVec 24) (m : Nat) (b : List Byte) : Bool :=
  let af := pbActFmt b
  let wf := pbWtFmt b
  operandFmt af && operandFmt wf && fmtsMatch af wf
  && (pbRamp b == 0 || (decide (16 ≤ pbRamp b) && decide (pbRamp b ≤ 128)))
  && decide (pbAccIn b ≤ 1)
  && pbActOff b % 32 == 0 && pbActStride b % 32 == 0 && decide (actRowBytes af ≤ pbActStride b)
  && (aDestTb i || pbOutOff b % 32 == 0) && pbOutStride b % 32 == 0
  && (!(aDestTb i || pbAccIn b == 1) || decide (m ≤ 96))
  && allZero ((b.drop 0x34).take 12)
  && rowsFit (pbActOff b) (pbActStride b) m (actRowBytes af)
  && (!(aWload i) || (pbWtOff b % 256 == 0 && decide (pbWtOff b + tileBytes wf ≤ scratchBytes)))
  && (!(aEw i && (aEwOp i == 0 || aEwOp i == 2))
      || (pbWtOff b % 32 == 0 && rowsFit (pbWtOff b) (pbActStride b) m (actRowBytes wf)))
  && !(aEw i && (aEwOp i == 3 || aWload i || aLoadOnly i))

/-! ## Operand and requantisation blocks (R103, R106, R113) -/

def obActZp (b : List Byte) : Nat := leAt b 0 1
def obWtZp (b : List Byte) : Nat := leAt b 1 1
def obBlkEn (b : List Byte) : Nat := leAt b 2 1
def obWblkOff (b : List Byte) : Nat := leAt b 8 4
def qbFmt (b : List Byte) : Nat := leAt b 0 1
def qbZp (b : List Byte) : Nat := leAt b 1 1
def qbFlags (b : List Byte) : Nat := leAt b 2 1
def qbTshift (b : List Byte) : Nat := leAt b 3 1
def qbThresh (b : List Byte) : Nat := leAt b 4 4
def qbColOff (b : List Byte) : Nat := leAt b 8 4
def qbRowOff (b : List Byte) : Nat := leAt b 12 4
def qbElemBase (b : List Byte) : Nat := leAt b 0x10 8
def qbElemPitch (b : List Byte) : Nat := leAt b 0x18 4
def qbTensor (b : List Byte) : Nat := leAt b 0x1C 4
def qbDraw (b : List Byte) : Nat := leAt b 0x20 2
def qbSr (b : List Byte) : Bool := bitAt (qbFlags b) 0
def qbFree (b : List Byte) : Bool := bitAt (qbFlags b) 1
def qbColEn (b : List Byte) : Bool := bitAt (qbFlags b) 2
def qbRowEn (b : List Byte) : Bool := bitAt (qbFlags b) 3

/-- Checks of the operand block (R113). -/
def operandBlockOk (i : BitVec 24) (af wf : Nat) (b : List Byte) : Bool :=
  decide (obActZp b ≤ fmtMaxZp af) && decide (obWtZp b ≤ fmtMaxZp wf)
  && decide (obBlkEn b ≤ 3) && leAt b 3 1 == 0 && leAt b 7 1 == 0 && allZero ((b.drop 0x0C).take 52)
  && shiftOk (leAt b 4 1) && shiftOk (leAt b 5 1) && shiftOk (leAt b 6 1)
  && (!(bitAt (obBlkEn b) 1) || (obWblkOff b % 256 == 0 && decide (obWblkOff b + 288 ≤ scratchBytes)))
  && (!(aEw i) || obBlkEn b == 0)

/-- Checks of the requantisation block (R113). -/
def quantBlockOk (m outStride : Nat) (b : List Byte) : Bool :=
  decide (qbFmt b ≤ 10) && decide (qbZp b ≤ fmtMaxZp (qbFmt b)) && decide (qbFlags b < 16)
  && shiftOk (qbTshift b) && decide (outRowBytes (qbFmt b) ≤ outStride)
  && allZero ((b.drop 0x22).take 30)
  && qbColOff b % 128 == 0 && qbRowOff b % 256 == 0
  && (!(qbColEn b) || decide (qbColOff b + 96 ≤ scratchBytes))
  && (!(qbRowEn b) || (decide (m ≤ 1024) && decide (qbRowOff b + m ≤ scratchBytes)))

/-- Every byte of a shift table in range (R113). -/
def shiftsOk (t : List Byte) : Bool := t.all (fun x => shiftOk x.toNat)

/-! ## The arithmetic of a pass (R75, R102–R105) -/

/-- Element `k` of a stored row of `fmt` elements. -/
def elemAt (fmt : Nat) (row : List Byte) (k : Nat) : Nat :=
  match fmtWidth fmt with
  | 4 => leAt row (k / 2) 1 / (if k % 2 == 0 then 1 else 16) % 16
  | 16 => leAt row (2 * k) 2
  | 32 => leAt row (4 * k) 4
  | _ => leAt row k 1

/-- K-block exponents e[0], e[1], e[2] of column `n` (R104). -/
def blockExp (op wblk : List Byte) (n b : Nat) : Int :=
  (if bitAt (obBlkEn op) 0 then shiftOf (leAt op (4 + b) 1) else 0)
  + (if bitAt (obBlkEn op) 1 then shiftOf (leAt wblk (3 * n + b) 1) else 0)

/-- The weight at array row `r` and column `n`, for half `h` of a 4-bit position (R78). -/
def weightAt (fmt : Nat) (tile : List Byte) (r n h : Nat) : Nat :=
  if fmtClass fmt == 1 then leAt tile (r * 96 + n) 1 / (if h == 0 then 1 else 16) % 16
  else if fmtClass fmt == 3 then leAt tile (r * 192 + 2 * n) 2
  else leAt tile (r * 96 + n) 1

/-- The products of array row `r` added to a column's sum (R75, R89, R105). -/
def columnStep (af wf za zw rowMask : Nat) (act tile : List Byte) (n r : Nat) (a : Acc) : Acc :=
  if bitAt rowMask r then
    if fmtClass af == 1 then
      (a.mac (elemAt af act (2 * r)) (weightAt wf tile r n 0) af wf za zw).mac
        (elemAt af act (2 * r + 1)) (weightAt wf tile r n 1) af wf za zw
    else a.mac (elemAt af act r) (weightAt wf tile r n 0) af wf za zw
  else a

/-- Column `n` of one output row: acc_in, 96 array rows, and the crossings at rows 32 and 64 (R104, R105). -/
def columnSum (af wf : Nat) (op wblk : List Byte) (rowMask : Nat) (act tile : List Byte) (n : Nat) (acc : Acc) : Acc :=
  (List.range 96).foldl (fun a r =>
    let a' := if r == 32 then a.cross (blockExp op wblk n 0 - blockExp op wblk n 1)
              else if r == 64 then a.cross (blockExp op wblk n 1 - blockExp op wblk n 2) else a
    columnStep af wf (obActZp op) (obWtZp op) rowMask act tile n r a') acc

/-- One element-wise result (R93): MUL 0, SCALE 1, ADD 2; the operation's own value, rounded, is added to acc_in.
DEDUCED: the order of the two additions of an ADD with acc_in. [DEDUCED, log entry 18] -/
def ewElement (ewOp af wf : Nat) (op act brow tile : List Byte) (c : Nat) (acc : Acc) : Acc :=
  let x := elemAt af act c
  let y := if ewOp == 1 then weightAt wf tile 0 c 0 else elemAt wf brow c
  let za := obActZp op
  let zw := obWtZp op
  if ewOp == 2 then
    match acc with
    | .int v => .int (signed 32 (unsigned 32 (v + fmtInt af x za + fmtInt wf y zw)))
    | .flt v => .flt (fp32Add v (fp32Add ((fmtFloat af).decode x) ((fmtFloat wf).decode y)))
  else acc.mac x y af wf za zw

/-- The starting accumulator of column `n`: zero, or its word of the tile buffer's row (R75, R85). -/
def accIn (float use : Bool) (row : List Byte) (n : Nat) : Acc :=
  if use then accOfWord float (leAt row (4 * n) 4)
  else if float then .flt (.fin false 0 0) else .int 0

/-! ## Reading the blocks of a command -/

/-- A read of control data through `ARRAY_WT`: bytes, or a fault code. -/
def Cell.ctl (x : Cell) (r : Role) (off n : Nat) : Except Nat (List Byte) :=
  if scratchBytes < off + n then .error 7
  else if !calReaches x.calendar r off n then .error 4
  else .ok (x.scratch.read off n)

/-- The result of reading a pass's control data. -/
inductive PassRead where
  | fault (code : Nat)
  | poison (suspect : Bool)
  | ok (p : ArrayPass)
deriving DecidableEq, Repr

/-- Read and check everything a pass names, in the order pass block, operand block and tables (R80, R81, R103, R106,
R113); the weights are those its register holds. [DESIGN CHOICE, log entry 17; DEDUCED, log entry 177] -/
def Cell.readPass (x : Cell) (cmd : EngineCmd) : PassRead :=
  let off := cmd.opA.toNat
  let m := cmd.opB.toNat
  let i := cmd.imm
  match x.ctl .arrayWt off 128 with
  | .error e => .fault e
  | .ok both =>
    let b := both.take 64
    let op := both.drop 64
    if x.spPoison off 128 then .poison (x.spSuspect off 128)
    else if !passBlockOk i m b then .fault 7
    else if !operandBlockOk i (pbActFmt b) (pbWtFmt b) op then .fault 7
    else
      let wEn := bitAt (obBlkEn op) 1
      match (if wEn then x.ctl .arrayWt (obWblkOff op) 288 else .ok []),
            (if aDestTb i then .ok [] else if pbQuantOff b % 64 != 0 then .error 7 else x.ctl .arrayWt (pbQuantOff b) 64) with
      | .error e, _ => .fault e
      | _, .error e => .fault e
      | .ok wblk, .ok q =>
        if wEn && x.spPoison (obWblkOff op) 288 then .poison (x.spSuspect (obWblkOff op) 288)
        else if !(aDestTb i) && x.spPoison (pbQuantOff b) 64 then .poison (x.spSuspect (pbQuantOff b) 64)
        else if !shiftsOk wblk then .fault 7
        else if !(aDestTb i) && !quantBlockOk m (pbOutStride b) q then .fault 7
        else if !(aDestTb i) && !rowsFit (pbOutOff b) (pbOutStride b) m (outRowBytes (qbFmt q)) then .fault 7
        else
          match (if qbColEn q then x.ctl .arrayWt (qbColOff q) 96 else .ok []),
                (if qbRowEn q then x.ctl .arrayWt (qbRowOff q) m else .ok []) with
          | .error e, _ => .fault e
          | _, .error e => .fault e
          | .ok cols, .ok rows =>
            if qbColEn q && x.spPoison (qbColOff q) 96 then .poison (x.spSuspect (qbColOff q) 96)
            else if qbRowEn q && x.spPoison (qbRowOff q) m then .poison (x.spSuspect (qbRowOff q) m)
            else if !shiftsOk cols || !shiftsOk rows then .fault 7
            else if !rowsReach x.calendar .arrayAct (pbActOff b) (pbActStride b) m (actRowBytes (pbActFmt b))
              || (!(aDestTb i) && !rowsReach x.calendar .arrayOut (pbOutOff b) (pbOutStride b) m (outRowBytes (qbFmt q)))
              || (aWload i && !calReaches x.calendar .arrayWt (pbWtOff b) (tileBytes (pbWtFmt b)))
              || (aEw i && (aEwOp i == 0 || aEwOp i == 2)
                  && !rowsReach x.calendar .arrayWt (pbWtOff b) (pbActStride b) m (actRowBytes (pbWtFmt b))) then .fault 4
            else
              let w := tabGet WReg.empty x.array.wregs (aWsel i)
              .ok { cmd := cmd, block := b, operand := op, quant := q, wblk := wblk, cols := cols, rows := rows,
                    weights := w.bytes, poison := w.poison, suspect := w.suspect, written := false, sampled := false,
                    early := [], earlyClips := 0, earlyFlags := (false, false), captured := [] }

/-! ## Weight registers (R87, R548) -/

/-- Is a load of the register started or waiting in the loader? -/
def ArrayState.loading (a : ArrayState) (r : Nat) : Bool := a.loader.any (fun l => l.reg == r)

/-- Does the pass use the weight register (every pass but element-wise MUL and ADD)? -/
def usesWeights (i : BitVec 24) : Bool := !(aEw i) || aEwOp i == 1

/-- Finish the load at the head of the loader: the tile as the scratchpad holds it goes into its register. -/
def Cell.finishLoad (x : Cell) (l : LoadReq) : Cell :=
  let n := tileBytes l.fmt
  let w : WReg :=
    { bytes := x.scratch.read l.off n, cls := some (fmtClass l.fmt), poison := x.spPoison l.off n,
      suspect := x.spSuspect l.off n }
  { x with array := { x.array with loader := x.array.loader.drop 1, wregs := tabSet x.array.wregs l.reg w } }

/-! ## The output of a pass -/

/-- What row `m` of a pass reads as it enters. -/
def Cell.rowIn (x : Cell) (p : ArrayPass) (m : Nat) : RowIn :=
  let b := p.block
  { act := x.scratch.read (pbActOff b + m * pbActStride b) (actRowBytes (pbActFmt b))
    brow := if aEw p.cmd.imm then x.scratch.read (pbWtOff b + m * pbActStride b) (actRowBytes (pbWtFmt b)) else []
    acc := if pbAccIn b == 1 then (tabGet Memory.zero x.tbufs (aTb p.cmd.imm)).read (384 * m) 384 else [] }

/-- The raw accumulators of an output row (R75, R93). -/
def passAccs (p : ArrayPass) (r : RowIn) : List Acc :=
  let b := p.block
  let i := p.cmd.imm
  let af := pbActFmt b
  let wf := pbWtFmt b
  (List.range 96).map (fun n =>
    let a0 := accIn (accFloat af) (pbAccIn b == 1) r.acc n
    if aEw i then ewElement (aEwOp i) af wf p.operand r.act r.brow p.weights n a0
    else columnSum af wf p.operand p.wblk (pbRowMask b) r.act p.weights n a0)

/-- Does any value that the given rows of a pass read carry poison, or suspect (R95)? -/
def Cell.rowsFlags (x : Cell) (p : ArrayPass) (rows : List Nat) : Bool × Bool :=
  let b := p.block
  let i := p.cmd.imm
  let tb := tabGet Memory.zero x.tbufs (aTb i)
  let any := fun (f : Nat → Nat → Bool) (g : Nat → Nat → Bool) => rows.any (fun r =>
    f (pbActOff b + r * pbActStride b) (actRowBytes (pbActFmt b))
    || (aEw i && (aEwOp i == 0 || aEwOp i == 2) && f (pbWtOff b + r * pbActStride b) (actRowBytes (pbWtFmt b)))
    || (pbAccIn b == 1 && g (384 * r) 384))
  (any x.spPoison (tb.poisoned 4), any x.spSuspect (tb.suspected 4))

/-- Does any value that the pass reads carry poison, or suspect (R95)? Of rows that entered early, what they read then counts. -/
def Cell.passFlags (x : Cell) (p : ArrayPass) : Bool × Bool :=
  let fl := x.rowsFlags p ((List.range p.cmd.opB.toNat).drop p.early.length)
  let w := usesWeights p.cmd.imm
  ((w && p.poison) || p.earlyFlags.1 || fl.1, (w && p.suspect) || p.earlyFlags.2 || fl.2)

/-- The rows a pass reads, as scratchpad spans. -/
def passSpans (p : ArrayPass) : List (Nat × Nat) :=
  let b := p.block
  (List.range p.cmd.opB.toNat).flatMap (fun r =>
    (pbActOff b + r * pbActStride b, actRowBytes (pbActFmt b))
    :: (if aEw p.cmd.imm && (aEwOp p.cmd.imm == 0 || aEwOp p.cmd.imm == 2)
        then [(pbWtOff b + r * pbActStride b, actRowBytes (pbWtFmt b))] else []))

/-- The spans of control data that an ARRAY command names, as its blocks stand. -/
def Cell.controlSpans (x : Cell) (cmd : EngineCmd) : List (Nat × Nat) :=
  let b := x.scratch.read cmd.opA.toNat 64
  let op := x.scratch.read (cmd.opA.toNat + 64) 64
  let q := x.scratch.read (pbQuantOff b) 64
  [(cmd.opA.toNat, 128), (obWblkOff op, 288), (pbQuantOff b, 64), (qbColOff q, 96), (qbRowOff q, cmd.opB.toNat)]

/-- The generator key of the launch on a cell. -/
def State.genKeyOn (s : State) (c : Nat) : BitVec 128 :=
  match s.launchOn c with
  | some l => match s.launch? l with
    | some x => x.genKey
    | none => 0#128
  | none => 0#128

/-- Cycles that a row takes to enter (R78, R93). -/
def rowCycles (p : ArrayPass) : Nat := if !aEw p.cmd.imm && fmtClass (pbActFmt p.block) == 3 then 4 else 1

/-- Cycles by which element `n` of a row leaves for the output stage after the row's first (R76, R93). -/
def outLag (p : ArrayPass) (n : Nat) : Nat := if aEw p.cmd.imm then 0 else n

/-- The output codes of row `m` and the number of clipped elements among enabled columns (R107, R108); `g` is the step count of the
cell's generators and `free` the number of free draws made so far. -/
def outputRow (key : BitVec 128) (cell : Nat) (p : ArrayPass) (g : DWord) (free m : Nat) (accs : List Acc) : List Nat × Nat :=
  let q := p.quant
  let pairs := (List.range 96).map (fun n =>
    let k := shiftOf (qbTshift q) + blockExp p.operand p.wblk n 2
      + (if qbColEn q then shiftOf (leAt p.cols n 1) else 0) + (if qbRowEn q then shiftOf (leAt p.rows m 1) else 0)
    let elem := (qbElemBase q + m * qbElemPitch q + n) % 2 ^ 64
    let w := if qbFree q then genFree key domFreeColumn cell n (genCount (rowCycles p) g free m + BitVec.ofNat 64 (outLag p n))
             else genKeyed key domRound elem (qbTensor q) (qbDraw q)
    outputElement (qbFmt q) (qbZp q) k (qbSr q) w.toNat (accs.getD n (.int 0)))
  (pairs.map (·.1),
   ((List.range 96).filter (fun n => bitAt (pbColMask p.block) n && (pairs.getD n (0, false)).2)).length)

/-- A row of element codes merged into the bytes it overwrites: masked columns keep their contents (R89). -/
def mergeRow (fmt mask : Nat) (old : List Byte) (codes : List Nat) : List Byte :=
  let w := fmtWidth fmt
  if w == 4 then
    (List.range 48).map (fun j =>
      let o := leAt old j 1
      let lo := if bitAt mask (2 * j) then codes.getD (2 * j) 0 % 16 else o % 16
      let hi := if bitAt mask (2 * j + 1) then codes.getD (2 * j + 1) 0 % 16 else o / 16 % 16
      BitVec.ofNat 8 (lo + 16 * hi))
  else
    (List.range 96).flatMap (fun n =>
      if bitAt mask n then bytesLE (w / 8) (codes.getD n 0) else (old.drop (n * (w / 8))).take (w / 8))

/-- What row `m` of a pass gives: accumulator words for a tile buffer or output codes, and the clips it counts. -/
def rowOut (key : BitVec 128) (cell : Nat) (g : DWord) (free : Nat) (p : ArrayPass) (m : Nat) (r : RowIn) : List Nat × Nat :=
  let accs := passAccs p r
  if aDestTb p.cmd.imm then (accs.map (·.word), 0) else outputRow key cell p g free m accs

/-- The bytes of an output row in column order, masked columns left out: what a checksum covers. -/
def rowSumBytes (p : ArrayPass) (codes : List Nat) : List Byte :=
  let cols := (List.range 96).filter (fun n => bitAt (pbColMask p.block) n)
  let w := if aDestTb p.cmd.imm then 4 else (fmtWidth (qbFmt p.quant) + 4) / 8
  cols.flatMap (fun n => bytesLE w (codes.getD n 0))

/-- The checksum that a checker computes from a capture (R420). [DEDUCED, log entry 96] -/
def captureSum (key : BitVec 128) (p : ArrayPass) : DWord :=
  crc64 (((List.range p.captured.length).zip p.captured).flatMap (fun r => rowSumBytes p (rowOut key 0 0#64 0 p r.1 r.2).1))

/-- Write row `m` of a pass (R88, R89, R94, R95). -/
def Cell.putRow (x : Cell) (p : ArrayPass) (fl : Bool × Bool) (m : Nat) (codes : List Nat) : Cell :=
  let mask := pbColMask p.block
  if aDestTb p.cmd.imm then
    let tb := tabGet Memory.zero x.tbufs (aTb p.cmd.imm)
    { x with tbufs := tabSet x.tbufs (aTb p.cmd.imm) ((List.range 96).foldl (fun (t : Memory) n =>
        if bitAt mask n then t.store 4 (4 * (96 * m + n)) (bytesLE 4 (codes.getD n 0)) fl.1 fl.2 else t) tb) }
  else
    let off := pbOutOff p.block + m * pbOutStride p.block
    let n := outRowBytes (qbFmt p.quant)
    let kept := mask != 2 ^ 96 - 1
    { x with scratch := x.scratch.store 64 off (mergeRow (qbFmt p.quant) mask (x.scratch.read off n) codes)
               (fl.1 || (kept && x.spPoison off n)) (fl.2 || (kept && x.spSuspect off n)) }

/-- Rows that enter between a row's own entry and the writing of its last output (R76, R93). [DESIGN CHOICE, log entry 17] -/
def rowLag (p : ArrayPass) : Nat := if aEw p.cmd.imm then 8 else 192 / rowCycles p

/-- A pass under way: the cell, the rows that have entered and are not yet written, the clips counted, and what was read. -/
structure RowRun where
  cell : Cell
  waiting : List (Nat × List Nat)
  clips : Nat
  captured : List RowIn
deriving DecidableEq, Repr

/-- Before row `j` enters, the row that left the array by then is written. -/
def RowRun.settle (r : RowRun) (p : ArrayPass) (fl : Bool × Bool) (j : Nat) : RowRun :=
  match r.waiting with
  | (m, codes) :: rest => if m + rowLag p < j then { r with cell := r.cell.putRow p fl m codes, waiting := rest } else r
  | [] => r

/-- Row `j` enters. -/
def RowRun.feed (r : RowRun) (key : BitVec 128) (cell : Nat) (g : DWord) (free : Nat) (p : ArrayPass) (fl : Bool × Bool) (j : Nat) :
    RowRun :=
  let i := r.cell.rowIn p j
  let (codes, n) := rowOut key cell g free p j i
  { r with
    waiting := r.waiting ++ [(j, codes)]
    clips := r.clips + (if fl.1 then 0 else n)
    captured := if p.sampled then r.captured ++ [i] else r.captured }

/-- The pass's rows from `a` to `b` enter, each after what leaves the array before it is written. -/
def RowRun.run (r : RowRun) (key : BitVec 128) (cell : Nat) (g : DWord) (free : Nat) (p : ArrayPass) (fl : Bool × Bool) (a b : Nat) : RowRun :=
  ((List.range b).drop a).foldl (fun (acc : RowRun) j => (acc.settle p fl j).feed key cell g free p fl j) r

/-- Every row that has entered is written. -/
def RowRun.finish (r : RowRun) (p : ArrayPass) (fl : Bool × Bool) : Cell := r.waiting.foldl (fun (y : Cell) w => y.putRow p fl w.1 w.2) r.cell

/-- A pass with the rows that entered early. -/
def RowRun.start (x : Cell) (p : ArrayPass) (rows : Nat) : RowRun :=
  { cell := x, waiting := p.early.filter (fun w => decide (w.1 < rows)), clips := p.earlyClips, captured := p.captured }

/-- Run the first `rows` rows of a pass: the cell with their outputs written, and the clips counted. [DESIGN CHOICE, log entry 19] -/
def Cell.writeRows (x : Cell) (key : BitVec 128) (cell : Nat) (g : DWord) (free : Nat) (p : ArrayPass) (fl : Bool × Bool) (rows : Nat) :
    Cell × Nat :=
  let r := (RowRun.start x p rows).run key cell g free p fl p.early.length rows
  (r.finish p fl, r.clips)

/-- Does a pass draw words for stochastic rounding? Each takes its cycles, keyed or free (R147). -/
def passDraws (p : ArrayPass) (rows : Nat) : Nat := if !aDestTb p.cmd.imm && qbSr p.quant then rows else 0

/-- The step count of generators after draws in `n` cycles `per` apart at least, and `tail` cycles more (R147).
[DESIGN CHOICE, log entry 29] -/
def genAfter (g : DWord) (free per n tail : Nat) : DWord := if n = 0 then g else genCount per g free (n - 1) + BitVec.ofNat 64 (tail + 1)

/-- The cell's generators have stepped on. -/
def Cell.stepGen (x : Cell) (free per n tail : Nat) : Cell := { x with genSteps := genAfter x.genSteps free per n tail }

/-- The row of a following pass that is `j` rows behind the end of pass `p` enters: what `p` has to write before then is written. The
row reads the cell as it stands, with its own early rows unwritten (R83). -/
def RowRun.behind (r : RowRun × ArrayPass) (key : BitVec 128) (cell : Nat) (g : DWord) (free : Nat) (p : ArrayPass) (fl : Bool × Bool)
    (j m : Nat) : RowRun × ArrayPass :=
  let a := r.1.settle p fl j
  let q := r.2
  let i := a.cell.rowIn q m
  let f := a.cell.rowsFlags q [m]
  let (codes, n) := rowOut key cell g free q m i
  (a, { q with
    early := q.early ++ [(m, codes)]
    earlyClips := q.earlyClips + n
    earlyFlags := (q.earlyFlags.1 || f.1, q.earlyFlags.2 || f.2)
    captured := if q.sampled then q.captured ++ [i] else q.captured })

/-- The rows of the passes that have started behind `p` enter back to back while `p` has rows to write: at most `left` of them, the
first being row `j` in the count of `p` (R83). -/
def RowRun.chain (key : BitVec 128) (cell : Nat) (p : ArrayPass) (fl : Bool × Bool) :
    RowRun → DWord → Nat → Nat → Nat → List ArrayPass → RowRun × List ArrayPass
  | r, _, _, _, _, [] => (r, [])
  | r, g, free, j, left, q :: qs =>
    let rows := q.cmd.opB.toNat
    let k := min left rows
    let out := ((List.range k).drop q.early.length).foldl (fun (acc : RowRun × ArrayPass) m =>
      RowRun.behind acc key cell g free p fl (j + m) m) (r, q)
    let d := passDraws q rows
    let (r', qs') := RowRun.chain key cell p fl out.1 (genAfter g free (rowCycles q) d (outLag q 95)) (free + d) (j + rows) (left - k) qs
    (r', out.2 :: qs')

end Sys2Proof.Machine
end

