-- ==== Sys2Proof/Machine/ArrayCmds.lean ====
section
/-!
DEFINITION. The steps of the matrix array: a pass starts and completes, a weight tile loads, the active-column count
falls (rows ARRAY_PASS_START, ARRAY_PASS_COMPLETE, LOAD_ONLY, WEIGHT_LOAD_COMPLETE, RAMP_DOWN).
-/
namespace Sys2Proof.Machine

/-- Does a pass name a tile buffer (R88)? -/
def passUsesTb (i : BitVec 24) (b : List Byte) : Bool := aDestTb i || pbAccIn b == 1

/-- Is the buffer held by a started pass? -/
def ArrayState.holds (a : ArrayState) (t : Nat) : Bool :=
  a.passes.any (fun p => !p.written && passUsesTb p.cmd.imm p.block && aTb p.cmd.imm == t)

/-- Formats that may follow each other back to back (R83): equal, or differing only between 0x0 and 0x1. -/
def fmtsFollow (a b : Nat) : Bool := a == b || (decide (a ≤ 1) && decide (b ≤ 1))

/-- What a pass at the head of the queue meets (R81, R83, R84, R87, R88, R548). -/
inductive PassGate where
  | wait
  | fault (code : Nat)
  | poison (suspect : Bool)
  | go (p : ArrayPass)
deriving DecidableEq, Repr

/-- The gate of a pass: its blocks are read and checked, then its weight register, tile buffer and formats. -/
def Cell.passGate (x : Cell) (cmd : EngineCmd) (tbFree : Nat → Bool) : PassGate :=
  match x.readPass cmd with
  | .fault e => .fault e
  | .poison q => .poison q
  | .ok p =>
    let i := cmd.imm
    let w := tabGet WReg.empty x.array.wregs (aWsel i)
    if usesWeights i && x.array.loading (aWsel i) then .wait
    else if usesWeights i && w.cls != some (fmtClass (pbWtFmt p.block)) then .fault 7
    else if passUsesTb i p.block && !tbFree (aTb i) then .wait
    else if x.array.passes.any (fun q => !q.written) && !(fmtsFollow x.array.lastAct (pbActFmt p.block) && fmtsFollow x.array.lastWt (pbWtFmt p.block))
      then .wait
    else .go p

/-- A pass starts: it leaves the queue, its `WLOAD` joins the loader, and the column count stands at 96 (R87, R90).
[DESIGN CHOICE, log entry 17] -/
def Cell.startPass (x : Cell) (p : ArrayPass) : Cell :=
  let i := p.cmd.imm
  let b := p.block
  let load := if aWload i then
      [{ reg := 1 - aWsel i, off := pbWtOff b, fmt := pbWtFmt b, only := none, pass := some p.cmd.seq : LoadReq }]
    else []
  { x with
    array := { x.array with
      passes := x.array.passes ++ [p]
      loader := x.array.loader ++ load
      actCols := if aEw i then x.array.actCols else 96
      lastAct := pbActFmt b
      lastWt := pbWtFmt b } }

/-! ## Sampling by the taster (R418–R420) -/

/-- Is a pass that starts eligible for sampling (R418)? [DESIGN CHOICE, log entry 95] -/
def Cell.passEligible (x : Cell) (p : ArrayPass) : Bool :=
  let m := p.cmd.opB.toNat
  let captured := tileBytes (pbWtFmt p.block) + 192 + p.wblk.length + p.cols.length + p.rows.length
    + m * actRowBytes (pbActFmt p.block) + (if pbAccIn p.block == 1 then m * 384 else 0)
  !aEw p.cmd.imm && (!qbSr p.quant || !qbFree p.quant) && !(x.passFlags p).1 && decide (captured ≤ 131072)



/-- Count an eligible pass of cell `c` and say whether the taster samples it: one of each run of 2^`TASTER_LOG2`, at a position
that `drawn` tells for want of the taster's own generator (R418). [DESIGN CHOICE, log entry 95] -/
def State.tasterPick (s : State) (c : Nat) (drawn : Bool) : Bool × State :=
  let k := s.entry 0x6050 0
  let h := s.healthOf c
  if k = 0 then (false, s)
  else
    let last := decide (2 ^ k ≤ h.eligible + 1)
    let pick := !h.taken && (drawn || last)
    let h1 := if last then { h with eligible := 0, taken := false } else { h with eligible := h.eligible + 1, taken := h.taken || pick }
    if pick then (true, (s.setHealth c { h1 with sampled := satAdd 16 h1.sampled 1 }).countFull (0x10000 + 0x200 * c + 8 * 21) 1)
    else (false, s.setHealth c h1)

/-- A sampled pass is written: the capture waits for a checker, and its launch for the verdict (R420, R422). -/
def State.tasterCapture (s : State) (c : Nat) (p : ArrayPass) : State :=
  match (s.cell c).launch with
  | some l =>
    if p.sampled then
      let t : TasterCheck :=
        { launch := l, cell := c, pass := p, key := s.genKeyOn c, sum := (s.cell c).array.checksum, first := none, on := none }
      ({ s with tasters := tabSet s.tasters s.nextTaster t, nextTaster := s.nextTaster + 1 }).modLaunch l (fun x =>
        { x with verdicts := x.verdicts + 1 })
    else s
  | none => s

/-- The output bytes of a pass in row order, masked columns left out: what its checksum covers. -/
def Cell.passBytes (x : Cell) (p : ArrayPass) : List Byte :=
  let m := p.cmd.opB.toNat
  let mask := pbColMask p.block
  let cols := (List.range 96).filter (fun n => bitAt mask n)
  if aDestTb p.cmd.imm then
    let tb := tabGet Memory.zero x.tbufs (aTb p.cmd.imm)
    (List.range m).flatMap (fun r => cols.flatMap (fun n => tb.read (4 * (96 * r + n)) 4))
  else
    let w := fmtWidth (qbFmt p.quant)
    let row := fun r => x.scratch.read (pbOutOff p.block + r * pbOutStride p.block) (outRowBytes (qbFmt p.quant))
    (List.range m).flatMap (fun r =>
      if w == 4 then cols.flatMap (fun n => bytesLE 1 (elemAt 2 (row r) n))
      else cols.flatMap (fun n => ((row r).drop (n * (w / 8))).take (w / 8)))

/-- Take a completed pass out of the list. -/
def Cell.dropPass (x : Cell) (seq : Nat) : Cell :=
  { x with array := { x.array with passes := x.array.passes.filter (fun q => q.cmd.seq != seq) } }

/-- The clip count of a pass against its threshold (R109). -/
def passTrips (p : ArrayPass) (clips : Nat) : Bool :=
  !(aDestTb p.cmd.imm) && qbThresh p.quant != 0xFFFFFFFF && decide (qbThresh p.quant < clips)

/-- A pass writes its outputs, the rows of passes that have started behind it entering meanwhile; its clip count becomes final and may
trip the cell (R76, R83, R94, R108, R109, R114). [DESIGN CHOICE, log entry 17] -/
def State.finishPass (s : State) (c : Nat) (p : ArrayPass) : State :=
  let x := s.cell c
  let m := p.cmd.opB.toNat
  let fl := x.passFlags p
  let key := s.genKeyOn c
  let d := passDraws p m
  let g := genAfter x.genSteps s.free (rowCycles p) d (outLag p 95)
  let r := (RowRun.start x p m).run key c x.genSteps s.free p fl p.early.length m
  let next := x.array.passes.filter (fun q => !q.written && q.cmd.seq != p.cmd.seq)
  let (r', qs) := RowRun.chain key c p fl r g (s.free + d) m (rowLag p) next
  let y := { r'.finish p fl with genSteps := g }
  let y' := { y with
    array := { y.array with
      rampLen := if pbRamp p.block == 0 then 48 else pbRamp p.block
      checksum := crc64 (y.passBytes p)
      passes := (y.array.passes.filter (fun (q : ArrayPass) => q.written)) ++ [{ p with written := true }] ++ qs }
    quant := if passTrips p r.clips then { y.quant with trip := true } else y.quant }
  let ctr := 0x10000 + 0x200 * c
  let s1 := ((s.countFull (ctr + 8 * 9) 1).countFull (ctr + 8 * 13) r.clips).countFull (ctr + 8 * 14) (b2n (passTrips p r.clips))
  let s2 := if fl.1 then s1.noteSpans c (passSpans p) else s1
  ({ s2.setCell c { y' with residency := (s2.cell c).residency } with free := s2.free + d }).tasterCapture c { p with captured := r'.captured }

/-- The command of a pass whose outputs are written completes once its own `WLOAD` has ended (R87). -/
def State.closePass (s : State) (c : Nat) (p : ArrayPass) : State :=
  if (s.cell c).array.loader.any (fun l => l.pass == some p.cmd.seq) then s
  else (s.modCell c (fun x => x.dropPass p.cmd.seq)).completeCmd c p.cmd

/-- Row ARRAY_PASS_COMPLETE. [DESIGN CHOICE, log entry 17] -/
def State.arrayPassComplete (s : State) (c : Nat) : State :=
  if !s.cellActive c then s
  else match (s.cell c).array.passes.find? (fun p => !p.written) with
    | none => s
    | some p => (s.finishPass c p).closePass c p

/-- Row LOAD_ONLY: only `WT_OFF` and `WT_FMT` are read and checked (R79, R81). [DESIGN CHOICE, log entry 19] -/
def State.loadOnly (s : State) (c : Nat) : State :=
  if !s.cellActive c then s
  else
    let x := s.cell c
    match x.head 0 with
    | none => s
    | some cmd =>
      if !(aLoadOnly cmd.imm) || !x.mayStart cmd then s
      else
        let off := cmd.opA.toNat
        match x.ctl .arrayWt off 64 with
        | .error e => s.cmdFault c e cmd
        | .ok b =>
          if x.spPoison off 64 then s.takePoison c off 64
          else if !operandFmt (pbWtFmt b) || pbWtOff b % 256 != 0
            || decide (scratchBytes < pbWtOff b + tileBytes (pbWtFmt b)) then s.cmdFault c 7 cmd
          else if !calReaches x.calendar .arrayWt (pbWtOff b) (tileBytes (pbWtFmt b)) then s.cmdFault c 4 cmd
          else
            let l : LoadReq := { reg := aWsel cmd.imm, off := pbWtOff b, fmt := pbWtFmt b, only := some cmd, pass := none }
            (s.modCell c (fun y => { y with array := { y.array with loader := y.array.loader ++ [l] } })).popCmd c 0

/-- Row WEIGHT_LOAD_COMPLETE. -/
def State.weightLoadComplete (s : State) (c : Nat) : State :=
  if !s.cellActive c then s
  else
    let x := s.cell c
    match x.array.loader with
    | [] => s
    | l :: _ =>
      let s1 := (s.setCell c (x.finishLoad l)).noteResident c l.off (tileBytes l.fmt)
      match l.only, l.pass with
      | some cmd, _ => s1.completeCmd c cmd
      | none, some seq =>
        (match x.array.passes.find? (fun p => p.cmd.seq == seq && p.written) with
         | some p => s1.closePass c p
         | none => s1)
      | none, none => s1

/-- Is the array idle in the sense of R91: no pass running and no pass in its queue? A pass whose outputs are written is complete
(R76), whether or not its `WLOAD` is. -/
def Cell.arrayRampIdle (x : Cell) : Bool :=
  x.array.passes.all (fun q => q.written) && (x.equeue 0).all (fun c => aLoadOnly c.imm)

/-- Row RAMP_DOWN: the idle array lowers its active-column count to `cols` (R91). -/
def State.rampDown (s : State) (c cols : Nat) : State :=
  s.modCell c (fun x =>
    if x.arrayRampIdle && decide (cols < x.array.actCols) then { x with array := { x.array with actCols := cols } } else x)

/-- `ARRAY_STATE` (R98). -/
def Cell.arrayStateWord (x : Cell) : Nat :=
  let a := x.array
  let ready := fun b => b2n ((tabGet WReg.empty a.wregs b).cls.isSome && !a.loading b)
  b2n (a.passes.any (fun q => !q.written)) * 2 ^ 31 + b2n (a.actCols != 0 && a.actCols != 96) * 2 ^ 30 + ready 1 * 2 ^ 29 + ready 0 * 2 ^ 28
  + a.actCols % 128 * 2 ^ 21 + min (x.equeue 0).length 8 * 2 ^ 17
  + ((List.range 4).map (fun t => b2n (a.holds t) * 2 ^ t)).sum * 2 ^ 13 + a.lastAct % 16 * 2 ^ 9

/-- `QUANT_STATE` (R120). -/
def Cell.quantStateWord (x : Cell) : Nat :=
  b2n x.quant.trip * 2 ^ 31 + b2n x.quant.voteWait * 2 ^ 30 + x.quant.tripLayer.toNat * 2 ^ 16
  + x.quant.widened.toNat * 2 ^ 8 + x.quant.clipped.toNat

end Sys2Proof.Machine
end

