-- ==== Sys2Proof/Machine/VecArith.lean ====
section
/-!
DEFINITION. Element arithmetic of the vector engine: float and integer operations, compares and conversions
(R122, R129–R132, R136).
-/
namespace Sys2Proof.Machine

/-! ## Widths and formats -/

/-- Bytes of an element. -/
def widthBytes : ElemWidth → Nat
  | .w32 => 4 | .w16 => 2 | .w8 => 1
/-- Bits of an integer format. -/
def intBits : IntFmt → Nat
  | .int32 => 32 | .int16 => 16 | .int8 => 8
def intWidth : IntFmt → ElemWidth
  | .int32 => .w32 | .int16 => .w16 | .int8 => .w8
def floatOf : FloatFmt → FFmt
  | .fp32 => fmtFp32 | .bf16 => fmtBf16 | .fp16 => fmtFp16
def floatWidth : FloatFmt → ElemWidth
  | .fp32 => .w32 | .bf16 => .w16 | .fp16 => .w16

/-! ## Float operations (R129) -/

/-- Round a float result once; the invalid and divide flags of the exact step are kept. -/
def finishFloat (f : FFmt) (r : FVal × FFlags) : Nat × FFlags :=
  let (c, fl) := f.round .even r.1
  (c, fl ||| r.2)

/-- A float operation on element codes `a` (va), `b` (vb) and `d` (vd). -/
def floatResult (op : FloatOp) (f : FFmt) (a b d : Nat) : Nat × FFlags :=
  let x := f.decode a
  let y := f.decode b
  match op with
  | .add => finishFloat f (x.add y)
  | .sub => finishFloat f (x.add y.neg)
  | .mul => finishFloat f (x.mul y)
  | .fma =>
    let p := x.mul y
    let r := p.1.add (f.decode d)
    finishFloat f (r.1, p.2 ||| r.2)
  | .div => finishFloat f (x.div y)
  | .sqrt => finishFloat f x.sqrt
  | .min => finishFloat f (x.minimum y)
  | .max => finishFloat f (x.maximum y)
  | .abs => finishFloat f (if x.isNeg then x.neg else x, 0)
  | .neg => finishFloat f (x.neg, 0)

/-- Does the operation use vb? (Fields an operation does not use are RSV, R127.) -/
def floatUsesB : FloatOp → Bool
  | .sqrt => false
  | .abs => false
  | .neg => false
  | _ => true

/-! ## Integer operations (R130) -/

/-- A saturating integer result and its flag. -/
def satResult (w : Nat) (v : Int) : Nat × FFlags :=
  let lo : Int := -(2 ^ (w - 1) : Nat)
  let hi : Int := (2 ^ (w - 1) : Nat) - 1
  (unsigned w (clampInt lo hi v), if v < lo ∨ hi < v then 32 else 0)

/-- An integer operation on element codes. -/
def vintResult (op : VIntOp) (w a b d : Nat) : Nat × FFlags :=
  let x := signed w a
  let y := signed w b
  let n := b % w
  match op with
  | .add => (unsigned w (x + y), 0)
  | .sub => (unsigned w (x - y), 0)
  | .mul => (unsigned w (x * y), 0)
  | .mulAdd => (unsigned w (x * y + signed w d), 0)
  | .satAdd => satResult w (x + y)
  | .satSub => satResult w (x - y)
  | .shl => (a * 2 ^ n % 2 ^ w, 0)
  | .shr => (a / 2 ^ n, 0)
  | .sra => (unsigned w (x / (2 ^ n : Nat)), 0)
  | .shrRound => (unsigned w (roundInt .away x (-(n : Int))), 0)
  | .and => (a &&& b, 0)
  | .or => (a ||| b, 0)
  | .xor => (a ^^^ b, 0)
  | .not => (2 ^ w - 1 - a, 0)
  | .min => (if x ≤ y then a else b, 0)
  | .max => (if x ≤ y then b else a, 0)

def vintUsesB : VIntOp → Bool
  | .not => false
  | _ => true

/-! ## Compares -/

/-- A comparison from "less" and "equal" of its operands and of NaN. -/
def cmpFrom (c : VCmp) (lt eq un : Bool) : Bool :=
  match c with
  | .eq => eq
  | .ne => !eq
  | .lt => lt
  | .le => lt || eq
  | .gt => !lt && !eq && !un
  | .ge => !lt && !un

/-- A float compare; with a NaN only "not equal" holds. [DEDUCED, log entry 22] -/
def floatCompare (c : VCmp) (f : FFmt) (a b : Nat) : Bool :=
  let x := f.decode a
  let y := f.decode b
  let un := x.isNan || y.isNan
  cmpFrom c (!un && x.lt y) (x.eq y) un

/-- An integer compare. -/
def intCompare (c : VCmp) (w a b : Nat) : Bool :=
  cmpFrom c (decide (signed w a < signed w b)) (signed w a == signed w b) false

/-! ## Conversions (R131) -/

/-- The value of a source element, and the exponent of its own least significant place. -/
def sourceValue (fmt x zp : Nat) : FVal × Int :=
  if fmtIsFloat fmt then
    let f := fmtFloat fmt
    match f.decode x with
    | .fin n m e => (.fin n m e, if m = 0 then f.minUlp else f.ulpAt m e)
    | v => (v, 0)
  else
    let v := fmtInt fmt x zp
    (.fin (decide (v < 0)) v.natAbs 0, 0)

/-- Is the conversion a widening, which is exact: from float to wider float, or from integer to wider integer?
[DESIGN CHOICE, log entry 181] -/
def isWidening (o : ConvertOp) : Bool := decide (fmtWidth o.src < fmtWidth o.dst) && fmtIsFloat o.src == fmtIsFloat o.dst

/-- Does the conversion use the parameter lane of vb? -/
def convertUsesB (o : ConvertOp) : Bool := !isWidening o || fmtHasZp o.src

/-- How `CVT_ROUND` rounds: nearest away (R110), stochastic with the word `w` (R111), nearest even. -/
def cvtRounding (mode w : Nat) (lsb : Int) : Rounding :=
  match mode with
  | 0 => .away
  | 1 => .stochastic w lsb
  | _ => .even

/-- The destination element of a conversion: code and flags. `k` is the stored shift, `zo` the output zero point.
[DEDUCED, log entry 22; DESIGN CHOICE, log entry 181] -/
def convertValue (dst zo : Nat) (k : Int) (mode w : Nat) (v : FVal × Int) : Nat × FFlags :=
  let zp := if fmtHasZp dst then zo else 0
  match v.1 with
  | .nan _ => if fmtIsFloat dst then ((fmtFloat dst).nan, 0) else (zp % 2 ^ fmtWidth dst, 16)
  | .inf neg =>
    if fmtIsFloat dst then
      (if (fmtFloat dst).finiteTop then (fmtFloat dst).maxBits neg else (fmtFloat dst).infBits neg, 0)
    else (unsigned (fmtWidth dst) (if neg then (fmtRange dst).1 else (fmtRange dst).2), 16)
  | .fin neg mag e =>
    let exp := e + k
    let r := cvtRounding mode w (v.2 + k)
    if fmtIsFloat dst then
      let f := fmtFloat dst
      if mag = 0 then (b2n neg * 2 ^ (f.width - 1), 0)
      else
        let (code, huge, ix) := f.roundMag r mag exp
        if huge then (f.maxBits neg, (if ix then 1 else 0) + 4)
        else (b2n neg * 2 ^ (f.width - 1) + code, (if ix then 1 else 0) + (if ix && f.tiny r mag exp then 2 else 0))
    else
      let n : Int := if neg then -(mag : Int) else mag
      let q := roundInt r n exp
      let t := q + zp
      let (lo, hi) := fmtRange dst
      let exact := if 0 ≤ exp then true else decide (q * (2 ^ (-exp).toNat : Nat) = n)
      (unsigned (fmtWidth dst) (clampInt lo hi t), (if exact then 0 else 1) + (if t < lo ∨ hi < t then 32 else 0))

/-- A conversion of one element with the parameter lane `p` of vb: byte 0 the shift, byte 1 the output zero point,
byte 2 the source zero point. -/
def convertElement (o : ConvertOp) (mode w x p : Nat) : Nat × FFlags :=
  let zs := if fmtHasZp o.src then field p 23 16 else 0
  if isWidening o then convertValue o.dst 0 0 2 0 (sourceValue o.src x zs)
  else
    let k0 := signed 8 (field p 7 0)
    let k := clampInt (-64) 63 k0
    let (c, fl) := convertValue o.dst (field p 15 8) k mode w (sourceValue o.src x zs)
    (c, fl ||| (if k = k0 then 0 else 16))

end Sys2Proof.Machine
end

