-- ==== Sys2Proof/Machine/Vector.lean ====
section
/-!
DEFINITION. The vector engine: commands, strips, registers, masks, and the steps of the classes (rows
VECTOR_COMMAND_START to VECTOR_COMPLETE; R121–R141).
-/
namespace Sys2Proof.Machine

/-! ## The parameter block (R123) -/

def vbFmt (b : List Byte) : Nat := leAt b 0x00 1
def vbFree (b : List Byte) : Bool := bitAt (leAt b 0x01 1) 0
def vbRound (b : List Byte) : Nat := leAt b 0x02 1
def vbTbUse (b : List Byte) : Nat := leAt b 0x03 1
def vbTensor (b : List Byte) : Nat := leAt b 0x04 4
def vbElem (b : List Byte) : Nat := leAt b 0x08 8
def vbDraw (b : List Byte) : Nat := leAt b 0x10 2
def vbCountOff (b : List Byte) : Nat := leAt b 0x14 4
def vbTbBase (b : List Byte) (t : Nat) : Nat := leAt b (0x18 + 2 * t) 2
def vbPtrOff (b : List Byte) (p : Nat) : Nat := leAt b (0x20 + 8 * p) 4
def vbPtrStride (b : List Byte) (p : Nat) : Int := signed 32 (leAt b (0x24 + 8 * p) 4)
def vbConst (b : List Byte) (n : Nat) : Nat := leAt b (0x60 + 4 * n) 4
/-- E, the elements of a strip (R123). -/
def vbE (b : List Byte) : Nat := 64 * 2 ^ vbFmt b

/-- The RSV fields of the block (R123, R141). -/
def vecRsvOk (b : List Byte) : Bool := decide (vbTbUse b < 16) && field (leAt b 0x01 1) 7 1 == 0 && leAt b 0x12 2 == 0

/-- The reserved codes and alignments of the block (R123, R141). -/
def vecBlockOk (b : List Byte) : Bool :=
  decide (vbFmt b ≤ 2) && decide (vbRound b ≤ 2) && (vbCountOff b == 0xFFFFFFFF || vbCountOff b % 32 == 0)
  && (List.range 4).all (fun t => vbTbBase b t % 32 == 0 && decide (vbTbBase b t < 9216))

/-! ## Masks and strips (R124, R125) -/

/-- m7 of a strip: elements below the count. -/
def tailMask (e strip count : Nat) : BitVec 256 := BitVec.ofNat 256 (2 ^ min e (count - strip * e) - 1)

def VecState.count (v : VecState) : Nat := match v.cmd with | some c => c.opB.toNat | none => 0
/-- N, the number of strips. -/
def VecState.strips (v : VecState) : Nat := (v.count + vbE v.block - 1) / vbE v.block
/-- A mask; m0 is all ones. -/
def VecState.mask (v : VecState) (m : Nat) : BitVec 256 := if m = 0 then BitVec.allOnes 256 else tabGet 0#256 v.masks m
/-- A mask written; writes to m0 are discarded (R121). -/
def VecState.setMask (v : VecState) (m : Nat) (x : BitVec 256) : VecState :=
  if m = 0 then v else { v with masks := tabSet v.masks m x }

def vwMsk (w : Word) : Nat := field w.toNat 27 25
def vwInv (w : Word) : Bool := bitAt w.toNat 24
def vwVd (w : Word) : Nat := field w.toNat 23 19
def vwVa (w : Word) : Nat := field w.toNat 18 14
def vwVb (w : Word) : Nat := field w.toNat 13 9

/-- Is element `e` of an instruction of element width `b` bytes enabled (R122, R125, R127)? m0 stands for every element, those past the
256 bits of a mask (conversions between 4-bit formats) too. -/
def VecState.enabled (v : VecState) (w : Word) (b e : Nat) : Bool :=
  ((vwMsk w == 0 || (v.mask (vwMsk w)).getLsbD e) != vwInv w) && (b != 4 / 2 ^ vbFmt v.block || (v.mask 7).getLsbD e)

/-! ## Registers (R122, R138) -/

/-- Elements of width `b` in a register. -/
def vcount (b : Nat) : Nat := 256 / b
/-- Element `e` of width `b` of register `r`. -/
def VecState.elem (v : VecState) (b r e : Nat) : Nat := leNat (v.regs.read (256 * r + b * e) b)
/-- Poison and suspect of lane `l` of register `r`. -/
def VecState.lanePoison (v : VecState) (r l : Nat) : Bool := v.regs.poison.contains (64 * r + l)
def VecState.laneSuspect (v : VecState) (r l : Nat) : Bool := v.regs.suspect.contains (64 * r + l)

/-- What an instruction gives one element of its destination. -/
structure VElem where
  code : Nat
  poison : Bool
  suspect : Bool
  flags : Nat
deriving DecidableEq, Repr

/-- Write element results of width `b` to register `r`: an element without one keeps its contents; a lane keeps its
poison unless all of it is written (R134, R138); flags go to the element's lane (R136). -/
def VecState.put (v : VecState) (b r : Nat) (f : Nat → Option VElem) : VecState :=
  (List.range 64).foldl (fun (acc : VecState) l =>
    let es := (List.range (4 / b)).map (fun i => (l * (4 / b) + i, f (l * (4 / b) + i)))
    let got := es.filterMap (fun p => p.2)
    if got.isEmpty then acc
    else
      let all := es.all (fun p => p.2.isSome)
      let regs1 := es.foldl (fun (m : Memory) p => match p.2 with
        | some x => m.write (256 * r + b * p.1) (bytesLE b x.code)
        | none => m) acc.regs
      let po := got.any (·.poison) || (!all && acc.lanePoison r l)
      let su := got.any (·.suspect) || (!all && acc.laneSuspect r l)
      let fl := got.foldl (fun a x => a ||| x.flags) 0
      { acc with
        regs := (regs1.setPoison (64 * r + l) po).setSuspect (64 * r + l) su
        lanes := if fl = 0 then acc.lanes else tabMod 0 acc.lanes l (fun o => o ||| fl) }) v

/-- Poison or suspect of the operand lanes that hold element `e`. -/
def VecState.opPoison (v : VecState) (rs : List Nat) (b e : Nat) : Bool := rs.any (fun r => v.lanePoison r (b * e / 4))
def VecState.opSuspect (v : VecState) (rs : List Nat) (b e : Nat) : Bool := rs.any (fun r => v.laneSuspect r (b * e / 4))

/-- An elementwise instruction: `f` on the codes of va, vb and vd of each enabled element. -/
def VecState.elementwise (v : VecState) (w : Word) (b : Nat) (rs : List Nat) (f : Nat → Nat → Nat → Nat × Nat) : VecState :=
  v.put b (vwVd w) (fun e =>
    if v.enabled w b e then
      let (c, fl) := f (v.elem b (vwVa w) e) (v.elem b (vwVb w) e) (v.elem b (vwVd w) e)
      some { code := c, poison := v.opPoison rs b e, suspect := v.opSuspect rs b e, flags := fl }
    else none)

/-! ## Command start (R121, R126) -/

/-- Does the vector engine hold buffer `t`? -/
def Cell.vecHolds (x : Cell) (t : Nat) : Bool := x.vec.cmd.isSome && bitAt (vbTbUse x.vec.block) t

/-- Does the head of the vector queue wait for nothing but buffers, all of them free, `t` among them (R88, R126)? -/
def Cell.vecHeadTakes (x : Cell) (t : Nat) : Bool :=
  match x.head 1 with
  | some h =>
    let use := vbTbUse (x.scratch.read h.opA.toNat 128)
    x.vec.cmd.isNone && x.mayStart h && bitAt use t && (List.range 4).all (fun u => !bitAt use u || !x.array.holds u)
  | none => false

/-- Does the pass at the head of the array queue wait for nothing but buffer `t`, which is free (R88)? -/
def Cell.arrayHeadTakes (x : Cell) (t : Nat) : Bool :=
  match x.head 0 with
  | some h =>
    x.mayStart h && !aLoadOnly h.imm && aTb h.imm == t && passUsesTb h.imm (x.scratch.read h.opA.toNat 64)
    && (match x.passGate h (fun u => !x.vecHolds u) with | .go _ => true | _ => false)
  | none => false

/-- Did the head of queue `a` come to the head before that of queue `b` (R88)? -/
def Cell.headFirst (x : Cell) (a b : Nat) : Bool := decide (tabGet 0 x.headAt a < tabGet 0 x.headAt b)

/-- May a pass take buffer `t`: the array holds it already, or it is free and no earlier VECTOR head waits on it? -/
def Cell.tbFreeForArray (x : Cell) (t : Nat) : Bool :=
  x.array.holds t || (!x.vecHolds t && !(x.vecHeadTakes t && x.headFirst 1 0))

/-- May a VECTOR command take buffer `t`? -/
def Cell.tbFreeForVector (x : Cell) (t : Nat) : Bool :=
  !x.array.holds t && !x.vecHolds t && !(x.arrayHeadTakes t && x.headFirst 0 1)

/-- The vector engine as command `cmd` finds it (R121): registers and m1–m6 undefined. -/
def VecState.start (cmd : EngineCmd) (b : List Byte) (k : Nat) : VecState :=
  { cmd := some cmd
    block := b
    pc := BitVec.ofNat 32 (4 * cmd.imm.toNat)
    strip := 0
    regs := Memory.undefined k
    masks := (List.range 6).map (fun i =>
      (i + 1, Config.freeWord (k + 1 + 4 * i) ++ Config.freeWord (k + 2 + 4 * i) ++ Config.freeWord (k + 3 + 4 * i)
              ++ Config.freeWord (k + 4 + 4 * i)))
      ++ [(7, tailMask (vbE b) 0 cmd.opB.toNat)]
    cursors := (List.range 8).map (fun p => (p, vbPtrOff b p))
    moved := []
    lanes := []
    draws := 0
    lineUse := 0#8
    curUse := 0#8
    part := []
    stored := false
    ended := false }

/-- Row VECTOR_COMMAND_START. [DESIGN CHOICE, log entry 180] -/
def State.vectorCommandStart (s : State) (c : Nat) : State :=
  if !s.cellActive c then s
  else
    let x := s.cell c
    match x.head 1 with
    | none => s
    | some cmd =>
      if x.vec.cmd.isSome || !x.mayStart cmd then s
      else
        let off := cmd.opA.toNat
        if off % 128 != 0 then s.cmdFault c 7 cmd
        else if scratchBytes < off + 128 then s.cmdFault c 3 cmd
        else if !calReaches x.calendar .vecRd off 128 then s.cmdFault c 4 cmd
        else if x.spPoison off 128 then s.takePoison c off 128
        else
          let b := x.scratch.read off 128
          if !vecRsvOk b then s.cmdFault c 1 cmd
          else if !vecBlockOk b then s.cmdFault c 7 cmd
          else if !((List.range 4).all (fun t => !bitAt (vbTbUse b) t || x.tbFreeForVector t)) then s
          else
            let s1 := s.modCell c (fun y => { y with vec := VecState.start cmd b s.free })
            ({ s1 with free := s1.free + 25 }).popCmd c 1

/-! ## Faults and issue (R127, R141) -/

/-- A vector fault at the word of image offset `pc`: the command's flags are discarded and its buffers released. -/
def State.vecFaultAt (s : State) (c code : Nat) (pc : Word) : State :=
  match (s.cell c).vec.cmd with
  | none => s
  | some cmd => (s.modCell c (fun x => { x with vec := VecState.idle })).cellFault c code cmd.thread 8 pc

/-- A vector fault of the word that issues. -/
def State.vecFault (s : State) (c code : Nat) : State := s.vecFaultAt c code (s.cell c).vec.pc

/-- The fault an instruction body gives, or the engine and cell it leaves. -/
inductive VBody where
  | fault (code : Nat)
  | done (x : Cell)

/-- Issue the vector word `w` for a row of class `cls`; `legal = false`: an undefined op or a non-zero RSV field. The
pc moves to the next word. -/
def State.vecIssue (s : State) (c : Nat) (w : Word) (cls : Nat) (legal : Bool) (body : Cell → VBody) : State :=
  let x := s.cell c
  let k := field w.toNat 31 28
  if !s.cellActive c || x.vec.cmd.isNone || x.vec.ended then s
  else if 0xA ≤ k ∨ (k = cls ∧ legal = false) then s.vecFault c 1
  else if k ≠ cls then s
  else match body x with
    | .fault e => s.vecFault c e
    | .done y => (s.setCell c { y with vec := { y.vec with pc := y.vec.pc + 4#32 } }).countFull (0x10000 + 0x200 * c + 8 * 15) 1

/-- A body that only changes the vector engine. -/
def vecOnly (x : Cell) (v : VecState) : VBody := .done { x with vec := v }

/-- Row VEC_FLOAT_OP (R129). -/
def State.vecFloatOp (s : State) (c : Nat) (w : Word) (op : Option (FloatOp × FloatFmt)) : State :=
  let legal := match op with | some (o, _) => floatUsesB o || vwVb w == 0 | none => false
  s.vecIssue c w 0 legal (fun x => match op with
    | none => .fault 1
    | some (o, f) =>
      let rs := [vwVa w] ++ (if floatUsesB o then [vwVb w] else []) ++ (if o == FloatOp.fma then [vwVd w] else [])
      vecOnly x (x.vec.elementwise w (widthBytes (floatWidth f)) rs (fun a b d => floatResult o (floatOf f) a b d)))

/-- Row VEC_INT_OP (R130). -/
def State.vecIntOp (s : State) (c : Nat) (w : Word) (op : Option (VIntOp × IntFmt)) : State :=
  let legal := match op with | some (o, _) => vintUsesB o || vwVb w == 0 | none => false
  s.vecIssue c w 1 legal (fun x => match op with
    | none => .fault 1
    | some (o, f) =>
      let rs := [vwVa w] ++ (if vintUsesB o then [vwVb w] else []) ++ (if o == VIntOp.mulAdd then [vwVd w] else [])
      vecOnly x (x.vec.elementwise w (widthBytes (intWidth f)) rs (fun a b d => vintResult o (intBits f) a b d)))

/-- The mask a compare of width `b` leaves: enabled elements take the result, disabled ones keep theirs, and the bits
past the register's elements are cleared (R122). -/
def VecState.compareMask (v : VecState) (w : Word) (b : Nat) (f : Nat → Nat → Bool) : BitVec 256 :=
  let old := v.mask (vwVd w)
  (List.range (vcount b)).foldl (fun acc e =>
    let bit := if v.enabled w b e then f (v.elem b (vwVa w) e) (v.elem b (vwVb w) e) else old.getLsbD e
    if bit then acc ||| (1#256 <<< e) else acc) 0#256

/-- Row VEC_COMPARE: m7 is read only, so a write to it is a fault (R121, R141). -/
def State.vecCompare (s : State) (c : Nat) (w : Word) (op : Option MaskOp) : State :=
  let legal := decide (vwVd w < 7) && (match op with
    | none => false
    | some (.logic _) => decide (vwVa w < 8) && decide (vwVb w < 8)
    | some _ => true)
  s.vecIssue c w 2 legal (fun x =>
    let v := x.vec
    match op with
    | none => .fault 1
    | some (.compareF k f) =>
      vecOnly x (v.setMask (vwVd w) (v.compareMask w (widthBytes (floatWidth f)) (fun a b => floatCompare k (floatOf f) a b)))
    | some (.compareI k f) =>
      vecOnly x (v.setMask (vwVd w) (v.compareMask w (widthBytes (intWidth f)) (fun a b => intCompare k (intBits f) a b)))
    | some (.logic t) =>
      let a := v.mask (vwVa w)
      let b := v.mask (vwVb w)
      let old := v.mask (vwVd w)
      let en := if vwInv w then ~~~ (v.mask (vwMsk w)) else v.mask (vwMsk w)
      let pick := fun (i : Nat) (m : BitVec 256) => if t.getLsbD i then m else 0#256
      let r := pick 0 (~~~ a &&& ~~~ b) ||| pick 1 (~~~ a &&& b) ||| pick 2 (a &&& ~~~ b) ||| pick 3 (a &&& b)
      vecOnly x (v.setMask (vwVd w) ((r &&& en) ||| (old &&& ~~~ en))))

/-! ## Scratchpad access (R124, R128, R134) -/

/-- Byte merges into a scratchpad: each entry is offset, byte, poison, suspect. A 64 B unit that is not written whole
keeps its flag. [DESIGN CHOICE, log entry 25] -/
def Cell.spMerge (x : Cell) (bs : List (Nat × Byte × Bool × Bool)) : Cell :=
  let units := (bs.map (fun p => p.1 / 64)).eraseDups
  units.foldl (fun (acc : Cell) u =>
    let mine := bs.filter (fun p => p.1 / 64 == u)
    let whole := decide (64 ≤ mine.length)
    let po := mine.any (fun p => p.2.2.1) || (!whole && acc.scratch.poison.contains u)
    let su := mine.any (fun p => p.2.2.2) || (!whole && acc.scratch.suspect.contains u)
    let m := mine.foldl (fun (m : Memory) p => m.set p.1 p.2.1) acc.scratch
    { acc with scratch := (m.setPoison u po).setSuspect u su }) x

/-- Strip base of pointer `p` plus an offset, as a signed address (R124). -/
def VecState.ptrAddr (v : VecState) (p : Nat) (off : Nat) : Int :=
  (vbPtrOff v.block p : Int) + v.strip * vbPtrStride v.block p + off

/-- The fault of a span that a vector access touches (R141). -/
def Cell.vecSpanFault (x : Cell) (r : Role) (a : Int) (n : Nat) : Option Nat :=
  if a < 0 ∨ (scratchBytes : Int) < a + n then some 3
  else if !calReaches x.calendar r a.toNat n then some 4
  else none

/-- A store instruction needs a `VEC_WR` slot in the calendar (R71). -/
def Cell.noWriteSlot (x : Cell) : Bool := !calHasRole x.calendar .vecWr

/-- The faults of a line access through a pointer, by the order alignment, mixed use, slot, range and group. -/
def Cell.lineFault (x : Cell) (p off : Nat) (store : Bool) : Option Nat :=
  let v := x.vec
  if vbPtrOff v.block p % 256 != 0 || leAt v.block (0x24 + 8 * p) 4 % 256 != 0 then some 2
  else if v.curUse.getLsbD p then some 7
  else if store && x.noWriteSlot then some 9
  else x.vecSpanFault (if store then .vecWr else .vecRd) (v.ptrAddr p off) 256

/-- Flags of the 64 B unit that a scratchpad byte lies in. -/
def Cell.unitPoison (x : Cell) (a : Nat) : Bool := x.scratch.poison.contains (a / 64)
def Cell.unitSuspect (x : Cell) (a : Nat) : Bool := x.scratch.suspect.contains (a / 64)

/-- The enabled elements of a register as bytes to store from address `a`. [DESIGN CHOICE, log entry 25] -/
def VecState.storeBytes (v : VecState) (w : Word) (b r a : Nat) : List (Nat × Byte × Bool × Bool) :=
  (List.range (vcount b)).flatMap (fun e =>
    if v.enabled w b e then
      ((List.range b).zip (bytesLE b (v.elem b r e))).map (fun p =>
        (a + b * e + p.1, p.2, v.lanePoison r (b * e / 4), v.laneSuspect r (b * e / 4)))
    else [])

/-- Mark a pointer as used for line access or for cursor access. -/
def VecState.useLine (v : VecState) (p : Nat) : VecState := { v with lineUse := v.lineUse ||| (1#8 <<< p) }
def VecState.useCursor (v : VecState) (p : Nat) : VecState := { v with curUse := v.curUse ||| (1#8 <<< p) }

/-- The enabled elements of an instruction, ascending. -/
def VecState.active (v : VecState) (w : Word) (b : Nat) : List Nat := (List.range (vcount b)).filter (fun e => v.enabled w b e)

/-- The faults of a cursor access of `n` elements of `b` bytes. -/
def Cell.cursorFault (x : Cell) (p b n : Nat) (store : Bool) : Option Nat :=
  let v := x.vec
  let a := tabGet 0 v.cursors p
  if a % b != 0 then some 2
  else if v.lineUse.getLsbD p then some 7
  else if store && x.noWriteSlot then some 9
  else if n = 0 then none
  else x.vecSpanFault (if store then .vecWr else .vecRd) (a : Int) (b * n)

/-- Advance a cursor by `n` elements. [DESIGN CHOICE, log entry 25] -/
def VecState.advance (v : VecState) (p b n : Nat) : VecState :=
  { v with cursors := tabSet v.cursors p (tabGet 0 v.cursors p + b * n), moved := tabMod 0 v.moved p (· + n) }

/-- The scratchpad span that a word of class 0x3 reads. -/
def Cell.vecReads (x : Cell) (w : Word) (op : Option ScratchOp) : List (Nat × Nat) :=
  let v := x.vec
  let p := vwVa w
  match op with
  | some (.lineLoad _) => [((v.ptrAddr p (256 * vwVb w)).toNat, 256)]
  | some .maskLoad => [((v.ptrAddr p (32 * vwVb w)).toNat, 32)]
  | some (.expandLoad k) => [(tabGet 0 v.cursors p, widthBytes k * (v.active w (widthBytes k)).length)]
  | _ => []

/-- Row VEC_SCRATCH_ACCESS. A compress-store writes whole lines and holds the bytes of a partial one until `VEND`.
[DEDUCED, log entry 23; DESIGN CHOICE, log entry 179] -/
def State.vecScratchAccess (s : State) (c : Nat) (w : Word) (op : Option ScratchOp) : State :=
  let noMask := vwMsk w == 0 && !vwInv w
  let legal := decide (vwVa w < 8) && (match op with
    | none => false
    | some .maskLoad => decide (vwVd w < 7) && noMask
    | some .maskStore => decide (vwVd w < 8) && noMask
    | some (.compressStore _) => vwVb w == 0
    | some (.expandLoad _) => vwVb w == 0
    | some _ => true)
  let s0 := if s.cellActive c && (s.cell c).vec.cmd.isSome then s.noteSpans c ((s.cell c).vecReads w op) else s
  s0.vecIssue c w 3 legal (fun x =>
    let v := x.vec
    let p := vwVa w
    match op with
    | none => .fault 1
    | some (.lineLoad k) =>
      (match x.lineFault p (256 * vwVb w) false with
       | some e => .fault e
       | none =>
         let a := (v.ptrAddr p (256 * vwVb w)).toNat
         let b := widthBytes k
         vecOnly x ((v.put b (vwVd w) (fun e =>
           if v.enabled w b e then
             some { code := leNat (x.scratch.read (a + b * e) b), poison := x.unitPoison (a + b * e),
                    suspect := x.unitSuspect (a + b * e), flags := 0 }
           else none)).useLine p))
    | some (.lineStore k) =>
      (match x.lineFault p (256 * vwVb w) true with
       | some e => .fault e
       | none =>
         let a := (v.ptrAddr p (256 * vwVb w)).toNat
         let bs := v.storeBytes w (widthBytes k) (vwVd w) a
         let y := x.spMerge bs
         .done { y with vec := { v.useLine p with stored := v.stored || bs.any (fun q => q.2.2.1) } })
    | some .maskLoad =>
      (match x.vecSpanFault .vecRd (v.ptrAddr p (32 * vwVb w)) 32 with
       | some e => .fault e
       | none =>
         vecOnly x (v.setMask (vwVd w) (BitVec.ofNat 256 (leNat (x.scratch.read (v.ptrAddr p (32 * vwVb w)).toNat 32)))))
    | some .maskStore =>
      if x.noWriteSlot then .fault 9
      else (match x.vecSpanFault .vecWr (v.ptrAddr p (32 * vwVb w)) 32 with
       | some e => .fault e
       | none =>
         let a := (v.ptrAddr p (32 * vwVb w)).toNat
         .done (x.spMerge (((List.range 32).zip (bytesLE 32 (v.mask (vwVd w)).toNat)).map (fun q =>
           (a + q.1, q.2, false, false)))))
    | some (.compressStore k) =>
      let b := widthBytes k
      let es := v.active w b
      (match x.cursorFault p b es.length true with
       | some e => .fault e
       | none =>
         let a := tabGet 0 v.cursors p
         let r := vwVd w
         let fresh := ((List.range es.length).zip es).flatMap (fun q =>
           ((List.range b).zip (bytesLE b (v.elem b r q.2))).map (fun z =>
             (a + b * q.1 + z.1, z.2, v.lanePoison r (b * q.2 / 4), v.laneSuspect r (b * q.2 / 4))))
         let all := tabGet [] v.part p ++ fresh
         let line := (a + b * es.length) / 256
         let y := x.spMerge (all.filter (fun q => decide (q.1 / 256 < line)))
         .done { y with vec := { (v.advance p b es.length).useCursor p with
           part := tabSet v.part p (all.filter (fun q => decide (line ≤ q.1 / 256)))
           stored := v.stored || fresh.any (fun q => q.2.2.1) } })
    | some (.expandLoad k) =>
      let b := widthBytes k
      let es := v.active w b
      (match x.cursorFault p b es.length false with
       | some e => .fault e
       | none =>
         let a := tabGet 0 v.cursors p
         vecOnly x (((v.put b (vwVd w) (fun e =>
           if es.contains e then
             let at_ := a + b * (es.filter (fun i => decide (i < e))).length
             some { code := leNat (x.scratch.read at_ b), poison := x.unitPoison at_, suspect := x.unitSuspect at_, flags := 0 }
           else none)).advance p b es.length).useCursor p)))

/-- Row VEC_TILE_ACCESS: 64 words of a tile buffer from word `TB_BASE + 64 × strip + 32 × vb` (R135). -/
def State.vecTileAccess (s : State) (c : Nat) (w : Word) (op : Option TileOp) : State :=
  s.vecIssue c w 4 (op.isSome && decide (vwVa w < 4)) (fun x =>
    let v := x.vec
    let t := vwVa w
    if !bitAt (vbTbUse v.block) t then .fault 7
    else
      let base := vbTbBase v.block t + 64 * v.strip + 32 * vwVb w
      let m := tabGet Memory.zero x.tbufs t
      match op with
      | some .load =>
        vecOnly x (v.put 4 (vwVd w) (fun l =>
          if v.enabled w 4 l then
            if base + l < 9216 then
              some { code := leNat (m.read (4 * (base + l)) 4), poison := m.poison.contains (base + l),
                     suspect := m.suspect.contains (base + l), flags := 0 }
            else some { code := 0, poison := false, suspect := false, flags := 0 }
          else none))
      | some .store =>
        let ls := (List.range 64).filter (fun l => v.enabled w 4 l && decide (base + l < 9216))
        let m' := ls.foldl (fun (a : Memory) l =>
          a.store 4 (4 * (base + l)) (bytesLE 4 (v.elem 4 (vwVd w) l)) (v.lanePoison (vwVd w) l) (v.laneSuspect (vwVd w) l)) m
        .done { x with
          tbufs := tabSet x.tbufs t m'
          vec := { v with stored := v.stored || ls.any (fun l => v.lanePoison (vwVd w) l) } }
      | none => .fault 1)

/-! ## Conversions (R131) -/

/-- Are the format codes of a conversion defined, and its part within the narrower register? -/
def convertOk (o : ConvertOp) : Bool :=
  decide (o.src ≤ 10) && decide (o.dst ≤ 10)
  && decide (o.part < max (fmtWidth o.src) (fmtWidth o.dst) / min (fmtWidth o.src) (fmtWidth o.dst))

/-- An element of width `bits` at index `i` of a register's bytes. -/
def VecState.elemBits (v : VecState) (bits r i : Nat) : Nat :=
  if bits = 4 then (let x := v.elem 1 r (i / 2); if i % 2 = 0 then x % 16 else x / 16) else v.elem (bits / 8) r i

/-- Write a nibble result: the other nibble of the byte keeps its contents. -/
def mergeNibble (old i x : Nat) : Nat := if i % 2 = 0 then old / 16 * 16 + x % 16 else x % 16 * 16 + old % 16

/-- The strip element that wide element `j` stands for: itself where the strip format has the wide width, its place in
the narrow register where it has the narrow one; else the manual names none. [DEDUCED, log entry 20] -/
def stripElement (vfmt wide narrow part j : Nat) : Option Nat :=
  let bits := 32 / 2 ^ vfmt
  if bits = wide then some j else if bits = narrow then some (part * (2048 / wide) + j) else none

/-- The generator word of a strip element for a conversion or a draw; `step` is the lane generator's step count. -/
def VecState.word (v : VecState) (key : BitVec 128) (cell domain lane : Nat) (step : DWord) (elem draw : Nat) : Nat :=
  if vbFree v.block then (genFree key domFreeLane cell lane step).toNat
  else (genKeyed key domain ((vbElem v.block + v.strip * vbE v.block + elem) % 2 ^ 64) (vbTensor v.block) draw).toNat

/-- Result of wide element `j` of a conversion; a lane draws for its elements in successive cycles. [DEDUCED, log entry 20] -/
def VecState.convertAt (v : VecState) (w : Word) (o : ConvertOp) (key : BitVec 128) (cell : Nat) (g : DWord) (free j : Nat) : VElem :=
  let bs := fmtWidth o.src
  let bd := fmtWidth o.dst
  let wide := max bs bd
  let n := 2048 / wide
  let si := if bs < bd then o.part * n + j else j
  let lane := j * wide / 32
  let rnd := match stripElement (vbFmt v.block) wide (min bs bd) o.part j with
    | some e => v.word key cell domRound lane (genCount 1 g free 0 + BitVec.ofNat 64 (j % (32 / wide))) e (vbDraw v.block)
    | none => (Config.freeWord (free + j)).toNat % 2 ^ 32
  let (code, fl) := convertElement o (vbRound v.block) rnd (v.elemBits bs (vwVa w) si) (v.elem 4 (vwVb w) lane)
  let srcLane := si * bs / 32
  { code := code, poison := v.lanePoison (vwVa w) srcLane || (convertUsesB o && v.lanePoison (vwVb w) lane),
    suspect := v.laneSuspect (vwVa w) srcLane || (convertUsesB o && v.laneSuspect (vwVb w) lane), flags := fl }

/-- Cycles that a stochastic conversion draws in, 64 words in each (R128). -/
def convertCycles (o : ConvertOp) : Nat := 32 / max (fmtWidth o.src) (fmtWidth o.dst)

/-- A conversion on the vector engine: the wide side's elements `j` are the instruction's elements. -/
def VecState.convert (v : VecState) (w : Word) (o : ConvertOp) (key : BitVec 128) (cell : Nat) (g : DWord) (free : Nat) : VecState :=
  let bs := fmtWidth o.src
  let bd := fmtWidth o.dst
  let wide := max bs bd
  let n := 2048 / wide
  let at_ := fun (j : Nat) => if v.enabled w (wide / 8) j then some (v.convertAt w o key cell g free j) else none
  if bs ≤ bd ∧ 8 ≤ bd then v.put (bd / 8) (vwVd w) at_
  else
    let dest := fun (i : Nat) => if o.part * n ≤ i ∧ i < (o.part + 1) * n then at_ (i - o.part * n) else none
    if bd = 4 then
      v.put 1 (vwVd w) (fun i =>
        let old := v.elem 1 (vwVd w) i
        match dest (2 * i), dest (2 * i + 1) with
        | none, none => none
        | some a, none => some { a with code := mergeNibble old 0 a.code, poison := a.poison || v.opPoison [vwVd w] 1 i }
        | none, some b => some { b with code := mergeNibble old 1 b.code, poison := b.poison || v.opPoison [vwVd w] 1 i }
        | some a, some b =>
          some { code := b.code % 16 * 16 + a.code % 16, poison := a.poison || b.poison, suspect := a.suspect || b.suspect,
                 flags := a.flags ||| b.flags })
    else v.put (bd / 8) (vwVd w) dest

/-- Row VEC_CONVERT. -/
def State.vecConvert (s : State) (c : Nat) (w : Word) (op : Option ConvertOp) : State :=
  let legal := match op with
    | none => false
    | some o => convertOk o && (convertUsesB o || vwVb w == 0)
  let s1 := s.vecIssue c w 5 legal (fun x => match op with
    | none => .fault 1
    | some o => vecOnly (x.stepGen s.free 1 (b2n (vbRound x.vec.block == 1)) (convertCycles o - 1))
        (x.vec.convert w o (s.genKeyOn c) c x.genSteps s.free))
  { s1 with free := s1.free + 512 }

/-! ## Cross-lane operations (R132) -/

/-- Combine two optional contributions of a reduce. -/
def combine (f : Nat → Nat → Nat × Nat) (a b : Option (Nat × Nat)) : Option (Nat × Nat) :=
  match a, b with
  | none, y => y
  | x, none => x
  | some (x, fx), some (y, fy) => let (z, fz) := f x y; some (z, fx ||| fy ||| fz)

/-- Combine neighbours, `n` times: pairs, pairs of pairs, and so on. -/
def reduceTree (f : Nat → Nat → Nat × Nat) : Nat → List (Option (Nat × Nat)) → List (Option (Nat × Nat))
  | 0, l => l
  | n + 1, l =>
    reduceTree f n ((List.range (l.length / 2)).map (fun i => combine f (l.getD (2 * i) none) (l.getD (2 * i + 1) none)))

/-- The result of a reduce over elements of width `b`. -/
def VecState.reduce (v : VecState) (w : Word) (b : Nat) (f : Nat → Nat → Nat × Nat) : Option (Nat × Nat) :=
  let lane := fun l => (List.range (4 / b)).foldl (fun acc i =>
    let e := l * (4 / b) + i
    combine f acc (if v.enabled w b e then some (v.elem b (vwVa w) e, 0) else none)) none
  ((reduceTree f 6 ((List.range 64).map lane)).getD 0 none)

/-- Was any enabled contributing lane poisoned, or suspect? -/
def VecState.anyLane (v : VecState) (w : Word) (b : Nat) (rs : List Nat) : Bool × Bool :=
  ((v.active w b).any (fun e => v.opPoison rs b e), (v.active w b).any (fun e => v.opSuspect rs b e))

/-- Poison every lane of a register where the cross-lane result is poisoned (R138). [DESIGN CHOICE, log entry 24] -/
def VecState.poisonAll (v : VecState) (r : Nat) (fl : Bool × Bool) : VecState :=
  if fl.1 then { v with regs := (List.range 64).foldl (fun (m : Memory) l =>
    (m.setPoison (64 * r + l) true).setSuspect (64 * r + l) (fl.2 || m.suspect.contains (64 * r + l))) v.regs }
  else v

/-- Finish a reduce: element 0 of vd; with nothing enabled the manual states no result, so the value is free.
[DESIGN CHOICE, log entry 24] -/
def VecState.finishReduce (v : VecState) (w : Word) (b free : Nat) (f : Nat → Nat → Nat × Nat) : VecState :=
  let fl := v.anyLane w b [vwVa w]
  let (code, flags) := (v.reduce w b f).getD ((Config.freeWord free).toNat % 2 ^ (8 * b), 0)
  (v.put b (vwVd w) (fun e => if e = 0 then some { code := code, poison := fl.1, suspect := fl.2, flags := flags } else none)).poisonAll
    (vwVd w) fl

/-- Float and integer steps of a reduce. -/
def reduceFloat (r : ReduceOp) (f : FFmt) (a b : Nat) : Nat × Nat :=
  match r with
  | .add => floatResult .add f a b 0
  | .min => floatResult .min f a b 0
  | .max => floatResult .max f a b 0
def reduceInt (r : ReduceOp) (n a b : Nat) : Nat × Nat :=
  match r with
  | .add => vintResult .add n a b 0
  | .min => vintResult .min n a b 0
  | .max => vintResult .max n a b 0

/-- A cross-lane operation on the vector engine. -/
def VecState.cross (v : VecState) (w : Word) (o : CrossOp) (free : Nat) : VecState :=
  match o with
  | .reduceF r f => v.finishReduce w (widthBytes (floatWidth f)) free (reduceFloat r (floatOf f))
  | .reduceI r f => v.finishReduce w (widthBytes (intWidth f)) free (reduceInt r (intBits f))
  | .permute k =>
    let b := widthBytes k
    let srcs := (v.active w b).map (fun j => v.elem b (vwVb w) j % vcount b)
    let po := srcs.any (fun i => v.opPoison [vwVa w] b i) || (v.active w b).any (fun j => v.opPoison [vwVb w] b j)
    let su := srcs.any (fun i => v.opSuspect [vwVa w] b i) || (v.active w b).any (fun j => v.opSuspect [vwVb w] b j)
    (v.put b (vwVd w) (fun j =>
      if v.enabled w b j then
        some { code := v.elem b (vwVa w) (v.elem b (vwVb w) j % vcount b), poison := po, suspect := su, flags := 0 }
      else none)).poisonAll (vwVd w) (po, su)
  | .broadcastElem k i =>
    let b := widthBytes k
    let e := i % vcount b
    let fl := if (v.active w b).isEmpty then (false, false) else (v.opPoison [vwVa w] b e, v.opSuspect [vwVa w] b e)
    (v.put b (vwVd w) (fun j =>
      if v.enabled w b j then some { code := v.elem b (vwVa w) e, poison := fl.1, suspect := fl.2, flags := 0 } else none)).poisonAll
        (vwVd w) fl
  | .broadcastConst k n =>
    let b := widthBytes k
    v.put b (vwVd w) (fun j =>
      if v.enabled w b j then
        some { code := vbConst v.block n % 2 ^ (8 * b), poison := false, suspect := false, flags := 0 }
      else none)
  | .compress k =>
    let b := widthBytes k
    let es := v.active w b
    let fl := v.anyLane w b [vwVa w]
    (v.put b (vwVd w) (fun j => some { code := if j < es.length then v.elem b (vwVa w) (es.getD j 0) else 0,
                                       poison := fl.1, suspect := fl.2, flags := 0 })).poisonAll (vwVd w) fl
  | .prefixCount =>
    v.put 4 (vwVd w) (fun j =>
      if v.enabled w 4 j then
        some { code := ((v.active w 4).filter (fun e => decide (e < j))).length, poison := false, suspect := false, flags := 0 }
      else none)

/-- Row VEC_CROSS_LANE. [DESIGN CHOICE, log entry 178] -/
def State.vecCrossLane (s : State) (c : Nat) (w : Word) (op : Option CrossOp) : State :=
  let legal := match op with
    | none => false
    | some (.permute _) => true
    | some (.broadcastConst _ n) => vwVa w == 0 && vwVb w == 0 && decide (n < 8)
    | some .prefixCount => vwVa w == 0 && vwVb w == 0
    | some _ => vwVb w == 0
  let s1 := s.vecIssue c w 6 legal (fun x => match op with
    | none => .fault 1
    | some o => vecOnly x (x.vec.cross w o s.free))
  { s1 with free := s1.free + 1 }

/-- Row VEC_RANDOM_DRAW: one word to each enabled lane (R133). [DEDUCED, log entry 21] -/
def State.vecRandomDraw (s : State) (c : Nat) (w : Word) (op : Bool) : State :=
  let s1 := s.vecIssue c w 7 (op && vwVa w == 0 && vwVb w == 0) (fun x =>
    let v := x.vec
    let v1 := v.put 4 (vwVd w) (fun l =>
      if v.enabled w 4 l then
        some { code := v.word (s.genKeyOn c) c domVector l (genCount 1 x.genSteps s.free 0) (l * (vbE v.block / 64))
                         ((vbDraw v.block + v.draws) % 65536),
               poison := false, suspect := false, flags := 0 }
      else none)
    vecOnly (x.stepGen s.free 1 1 0) { v1 with draws := v.draws + 1 })
  { s1 with free := s1.free + 1 }

/-! ## Strips and the end of a command (R124, R126, R137) -/

/-- Row VNEXT. -/
def State.vnext (s : State) (c : Nat) (w : Word) : State :=
  s.vecIssue c w 8 (field w.toNat 27 24 == 0) (fun x =>
    let v := x.vec
    if v.strip + 1 < v.strips then
      vecOnly x { v with
        strip := v.strip + 1
        draws := 0
        masks := tabSet v.masks 7 (tailMask (vbE v.block) (v.strip + 1) v.count)
        pc := v.pc + BitVec.ofInt 32 (4 * signed 24 (field w.toNat 23 0)) - 4#32 }
    else vecOnly x v)

/-- Row VEND: partial lines are written (R134). -/
def State.vend (s : State) (c : Nat) (w : Word) : State :=
  s.vecIssue c w 9 (field w.toNat 27 0 == 0) (fun x =>
    let y := x.spMerge (x.vec.part.flatMap (fun p => p.2))
    .done { y with vec := { x.vec with part := [], ended := true } })

/-- The count record: eight u32 values (R134). -/
def VecState.countRecord (v : VecState) : List Byte := (List.range 8).flatMap (fun p => bytesLE 4 (tabGet 0 v.moved p))

/-- The OR of the lane flags, with `POISON` (R136, R137). -/
def VecState.allFlags (v : VecState) : Nat := v.lanes.foldl (fun a p => a ||| p.2) (if v.stored then 64 else 0)

/-- Row VECTOR_COMPLETE: the count record, the flags, the buffers, `SEM_DONE` (R126, R137). A fault of the count record is one of the
`VEND` that made it fall due. -/
def State.vectorComplete (s : State) (c : Nat) : State :=
  if !s.cellActive c then s
  else
    let x := s.cell c
    let v := x.vec
    match v.cmd with
    | none => s
    | some cmd =>
      let off := vbCountOff v.block
      let record := off != 0xFFFFFFFF
      if !v.ended then s
      else if record && x.noWriteSlot then s.vecFaultAt c 9 (v.pc - 4#32)
      else if record && (x.vecSpanFault .vecWr (off : Int) 32).isSome then
        s.vecFaultAt c ((x.vecSpanFault .vecWr (off : Int) 32).getD 4) (v.pc - 4#32)
      else
        let x1 := if record then x.spMerge (((List.range 32).zip v.countRecord).map (fun q => (off + q.1, q.2, false, false))) else x
        let s1 := s.setCell c { x1 with vec := VecState.idle }
        (s1.modThread c cmd.thread (fun h => h.orSticky v.allFlags)).completeCmd c cmd

/-- `VEC_STATE` (R142). -/
def Cell.vecStateWord (x : Cell) : Nat :=
  let v := x.vec
  let wait := match x.head 1 with
    | some h => x.mayStart h && (List.range 4).any (fun t => bitAt (vbTbUse (x.scratch.read h.opA.toNat 128)) t && !x.tbFreeForVector t)
    | none => false
  b2n v.cmd.isSome * 2 ^ 31 + b2n wait * 2 ^ 30 + (if v.cmd.isSome then vbTbUse v.block % 16 else 0) * 2 ^ 26
  + min (x.equeue 1).length 8 * 2 ^ 22 + (if v.cmd.isSome then vbFmt v.block % 4 else 0) * 2 ^ 20
  + (match v.cmd with | some k => k.thread % 16 | none => 0) * 2 ^ 16 + v.strip % 65536

/-! ## The array's pass start (R83, R87–R92) -/

/-- Row ARRAY_PASS_START; `sampled`: the taster chose this pass (R418). -/
def State.arrayPassStart (s : State) (c : Nat) (sampled : Bool) : State :=
  if !s.cellActive c then s
  else
    let x := s.cell c
    match x.head 0 with
    | none => s
    | some cmd =>
      if aLoadOnly cmd.imm || !x.mayStart cmd then s
      else match x.passGate cmd x.tbFreeForArray with
        | .wait => s
        | .fault e => s.cmdFault c e cmd
        | .poison q => (s.noteSpans c (x.controlSpans cmd)).consumePoison c q
        | .go p =>
          let (pick, s1) := if x.passEligible p then s.tasterPick c sampled else (false, s)
          (s1.modCell c (fun y => y.startPass { p with sampled := pick })).popCmd c 0

end Sys2Proof.Machine
end

