-- ==== Sys2Proof/Machine/Sampler.lean ====
section
/-!
DEFINITION. The sampler: blocks, selection, weights and draws (rows SAMPLE_START, SAMPLE_COMPLETE; R150–R157).
-/
namespace Sys2Proof.Machine

def sbOp (b : List Byte) : Nat := leAt b 0 1
def sbFmt (b : List Byte) : Nat := leAt b 1 1
def sbFirst (b : List Byte) : Bool := bitAt (leAt b 2 1) 0
def sbLast (b : List Byte) : Bool := bitAt (leAt b 2 1) 1
def sbFree (b : List Byte) : Bool := bitAt (leAt b 2 1) 2
def sbDraws (b : List Byte) : Nat := leAt b 3 1
def sbTopK (b : List Byte) : Nat := leAt b 4 2
def sbDraw (b : List Byte) : Nat := leAt b 6 2
def sbTemp (b : List Byte) : FVal := fmtFp32.decode (leAt b 8 4)
def sbTopP (b : List Byte) : FVal := fmtFp32.decode (leAt b 0xC 4)
def sbScoreOff (b : List Byte) : Nat := leAt b 0x10 4
def sbIndexBase (b : List Byte) : Nat := leAt b 0x14 4
def sbStateOff (b : List Byte) : Nat := leAt b 0x18 4
def sbOutOff (b : List Byte) : Nat := leAt b 0x1C 4
def sbTensor (b : List Byte) : Nat := leAt b 0x20 4
def sbElem (b : List Byte) : Nat := leAt b 0x28 8

/-- Bytes of a score. -/
def sbWidth (b : List Byte) : Nat := if sbFmt b == 0 then 4 else 2
/-- Bytes of the state area (R151), and of the result as far as the block alone tells: TOPK writes as many entries as its list comes to
hold (R154). -/
def sbStateBytes (b : List Byte) : Nat := 16 + 8 * sbTopK b
def sbOutBytes (b : List Byte) : Nat := 16 + 8 * (if sbOp b == 0 then 0 else sbDraws b)

/-- `TEMP` is +0 or positive and finite; `TOP_P` lies in (0, 1]. -/
def tempOk (b : List Byte) : Bool :=
  match sbTemp b with
  | .fin false _ _ => true
  | _ => false
def topPOk (b : List Byte) : Bool :=
  match sbTopP b with
  | .fin false m e => m != 0 && !((FVal.fin false 1 0).lt (.fin false m e))
  | _ => false

/-- The checks of R156 that the block alone decides, for `n` elements. -/
def sampBlockOk (b : List Byte) (n : Nat) : Bool :=
  decide (sbOp b ≤ 1) && decide (sbFmt b ≤ 2) && field (leAt b 2 1) 7 3 == 0
  && (if sbOp b == 0 then sbDraws b == 0 else decide (1 ≤ sbDraws b) && decide (sbDraws b ≤ 64))
  && decide (1 ≤ sbTopK b) && decide (sbTopK b ≤ 4096)
  && tempOk b && topPOk b
  && sbScoreOff b % 256 == 0 && sbStateOff b % 256 == 0 && sbOutOff b % 64 == 0
  && decide (sbIndexBase b + n ≤ 1048576)
  && leAt b 0x24 4 == 0 && allZero ((b.drop 0x30).take 16)

/-- Does entry `a` come before entry `b`: greater score first, then lower index (R152)? -/
def entryBefore (a b : Nat × Nat) : Bool :=
  let x := fmtFp32.decode a.2
  let y := fmtFp32.decode b.2
  y.lt x || (x.eq y && decide (a.1 < b.1))

/-- Insert an entry into a list in order. -/
def insertEntry (a : Nat × Nat) : List (Nat × Nat) → List (Nat × Nat)
  | [] => [a]
  | b :: r => if entryBefore a b then a :: b :: r else b :: insertEntry a r

/-- A score of the block's format as a fp32 code: bf16 and fp16 widen exactly (R152). -/
def scoreCode (b : List Byte) (x : Nat) : Nat :=
  if sbFmt b == 0 then x else (fmtFp32.round .even ((if sbFmt b == 1 then fmtBf16 else fmtFp16).decode x)).1

/-- Offer one score: a NaN is counted, another enters the list of at most k, or does not. The list, the NaNs and the insertions. -/
def offer (k : Nat) (acc : List (Nat × Nat) × Nat × Nat) (e : Nat × Nat) : List (Nat × Nat) × Nat × Nat :=
  if (fmtFp32.decode e.2).isNan then (acc.1, acc.2.1 + 1, acc.2.2)
  else
    let l := (insertEntry e acc.1).take k
    (l, acc.2.1, acc.2.2 + b2n (l != acc.1))

/-- Does a span fit below the hole? -/
def inScratch (off n : Nat) : Bool := decide (off + n ≤ scratchBytes)

/-- The fault of the areas a SAMPLE command touches: the hole first, then the bank groups (R156). -/
def Cell.sampAreas (x : Cell) (b : List Byte) (n : Nat) : Option Nat :=
  let st := !(sbFirst b) || !(sbLast b)
  if !inScratch (sbScoreOff b) (n * sbWidth b) || (st && !inScratch (sbStateOff b) (sbStateBytes b))
    || (sbLast b && !inScratch (sbOutOff b) (sbOutBytes b)) then some 3
  else if !calReaches x.calendar .auxRd (sbScoreOff b) (n * sbWidth b)
    || (!(sbFirst b) && !calReaches x.calendar .auxRd (sbStateOff b) (sbStateBytes b))
    || (!(sbLast b) && !calReaches x.calendar .auxWr (sbStateOff b) (sbStateBytes b))
    || (sbLast b && !calReaches x.calendar .auxWr (sbOutOff b) (sbOutBytes b)) then some 4
  else none

/-- The entries a state area holds: as many as its header says. [DESIGN CHOICE, log entry 182] -/
def stateEntries (st : List Byte) : List (Nat × Nat) :=
  (List.range (leAt st 0 4)).map (fun i => (leAt st (16 + 8 * i) 4, leAt st (20 + 8 * i) 4))

/-- The sampler after scanning a segment (R151, R152); `segOpen` stands as the last completed command left it (R157). -/
def SampState.scan (cmd : EngineCmd) (b st scores : List Byte) (po su segOpen : Bool) : SampState :=
  let n := cmd.opB.toNat
  let old := if sbFirst b then [] else stateEntries st
  let w := sbWidth b
  let (list, nans, ins) := (List.range n).foldl (fun acc i =>
    offer (sbTopK b) acc (sbIndexBase b + i, scoreCode b (leAt scores (w * i) w))) (old, 0, 0)
  { cmd := some cmd, block := b, list := list
    nans := nans + (if sbFirst b then 0 else leAt st 4 4)
    seen := n + (if sbFirst b then 0 else leAt st 8 4)
    poison := po, suspect := su, segOpen := segOpen, topK := sbTopK b, inserts := ins }

/-- Row SAMPLE_START. [DESIGN CHOICE, log entry 26] -/
def State.sampleStart (s : State) (c : Nat) : State :=
  if !s.cellActive c then s
  else
    let x := s.cell c
    match x.head 4 with
    | none => s
    | some cmd =>
      let off := cmd.opA.toNat
      let n := cmd.opB.toNat
      if x.samp.cmd.isSome || !x.mayStart cmd then s
      else if off % 64 != 0 then s.cmdFault c 7 cmd
      else if !inScratch off 64 then s.cmdFault c 3 cmd
      else if !calReaches x.calendar .auxRd off 64 then s.cmdFault c 4 cmd
      else if x.spPoison off 64 then s.takePoison c off 64
      else
        let b := x.scratch.read off 64
        if !sampBlockOk b n then s.cmdFault c 7 cmd
        else match x.sampAreas b n with
          | some e => s.cmdFault c e cmd
          | none =>
            let rd := !(sbFirst b)
            let so := sbStateOff b
            if rd && x.spPoison so 16 then s.takePoison c so 16
            else
              let st := x.scratch.read so (sbStateBytes b)
              if rd && (leAt st 14 2 != 0x5A4D || leAt st 12 2 != sbTopK b) then s.cmdFault c 7 cmd
              else
                let sc := sbScoreOff b
                let sn := n * sbWidth b
                let po := x.spPoison sc sn || (rd && x.spPoison so (sbStateBytes b))
                let su := x.spSuspect sc sn || (rd && x.spSuspect so (sbStateBytes b))
                let spans := (sc, sn) :: (if rd then [(so, sbStateBytes b)] else [])
                ((s.noteSpans c spans).modCell c (fun y =>
                  { y with samp := SampState.scan cmd b st (x.scratch.read sc sn) po su x.samp.segOpen })).popCmd c 4

/-! ## Weights and draws (R153) -/

/-- A fp32 sum, product, quotient of values, rounded to even. -/
def r32 (v : FVal × FFlags) : FVal := fmtFp32.decode (fmtFp32.round .even v.1).1

/-- e_j of an entry with score `s`, best score `m` and temperature `t` (R153 step 1). [DEDUCED, log entry 28] -/
def sampleWeight (m t s : FVal) : FVal :=
  match m with
  | .inf _ => if s.eq m then .fin false 1 0 else .fin false 0 0
  | _ =>
    match s with
    | .inf _ => .fin false 0 0
    | _ =>
      match r32 ((r32 (s.add m.neg)).div t) with
      | .fin _ mag e => r32 (expNeg mag e, 0)
      | _ => .fin false 0 0

/-- The running sums C_j (R153 step 2). -/
def runningSums : FVal → List FVal → List FVal
  | _, [] => []
  | acc, e :: r => let c := r32 (acc.add e); c :: runningSums c r

/-- The least n ≥ 1 with C_(n−1) ≥ cut (R153 step 3). -/
def prefixLength (cs : List FVal) (cut : FVal) : Nat := ((cs.findIdx? (fun x => !x.lt cut)).map (· + 1)).getD cs.length

/-- One draw: index into the list (R153 step 4). -/
def drawIndex (cs : List FVal) (np : Nat) (word : Nat) : Nat :=
  let total := cs.getD (np - 1) (.fin false 0 0)
  let t := r32 ((FVal.fin false (word / 256) (-24)).mul total)
  (((cs.take np).findIdx? (fun x => t.lt x))).getD (np - 1)

/-- Is the temperature +0? [DESIGN CHOICE, log entry 27] -/
def tempZero (b : List Byte) : Bool := leAt b 8 4 == 0

/-- The entries SAMPLE writes: (index, propensity), and n_p (R153, R154). With `TEMP` = +0 and a finite best score the manual divides by
zero in step 1, and with an empty list its steps define no prefix: it states no n_p there, so it is the free value `freeNp`. [DESIGN CHOICE, log entry 27] -/
def sampleDraws (z : SampState) (word : Nat → Nat) (freeNp : Nat) : List (Nat × Nat) × Nat :=
  let b := z.block
  let n := sbDraws b
  match z.list with
  | [] => (List.replicate n (0xFFFFFFFF, 0x7FC00000), freeNp)
  | first :: _ =>
    let m := fmtFp32.decode first.2
    let one := (fmtFp32.round .even (.fin false 1 0)).1
    let es := z.list.map (fun e => sampleWeight m (sbTemp b) (fmtFp32.decode e.2))
    let cs := runningSums (.fin false 0 0) es
    let np := prefixLength cs (r32 ((sbTopP b).mul (cs.getLast?.getD (.fin false 0 0))))
    if tempZero b then (List.replicate n (first.1, one), if m.isInf then np else freeNp)
    else
      let total := cs.getD (np - 1) (.fin false 0 0)
      ((List.range n).map (fun d =>
        let j := drawIndex cs np (word d)
        ((z.list.getD j (0, 0)).1, (fmtFp32.round .even ((es.getD j (.fin false 0 0)).div total).1).1)), np)

/-- An entry of 8 B. -/
def entryBytes (e : Nat × Nat) : List Byte := bytesLE 4 e.1 ++ bytesLE 4 e.2

/-- The result at `OUT_OFF` (R154). [DESIGN CHOICE, log entry 27] -/
def SampState.result (z : SampState) (word : Nat → Nat) (freeNp : Nat) : List Byte :=
  let nl := z.list.length
  if sbOp z.block == 0 then
    bytesLE 4 nl ++ bytesLE 4 nl ++ bytesLE 4 z.nans ++ bytesLE 4 z.seen ++ z.list.flatMap entryBytes
  else
    let (es, np) := sampleDraws z word freeNp
    bytesLE 4 nl ++ bytesLE 4 np ++ bytesLE 4 z.nans ++ bytesLE 4 z.seen ++ es.flatMap entryBytes

/-- The state area (R151). -/
def SampState.area (z : SampState) : List Byte :=
  bytesLE 4 z.list.length ++ bytesLE 4 z.nans ++ bytesLE 4 z.seen ++ bytesLE 2 (sbTopK z.block) ++ bytesLE 2 0x5A4D
  ++ z.list.flatMap entryBytes

/-- Bytes written to a scratchpad with one pair of flags. -/
def flagged (off : Nat) (bs : List Byte) (po su : Bool) : List (Nat × Byte × Bool × Bool) :=
  ((List.range bs.length).zip bs).map (fun q => (off + q.1, q.2, po, su))

/-- Row SAMPLE_COMPLETE: the state area is written back, or the result is written, its entries poisoned where any value
read was (R151, R154). [DESIGN CHOICE, log entry 26] -/
def State.sampleComplete (s : State) (c : Nat) : State :=
  if !s.cellActive c then s
  else
    let x := s.cell c
    let z := x.samp
    match z.cmd with
    | none => s
    | some cmd =>
      let b := z.block
      let word := fun d => if sbFree b then (genFree (s.genKeyOn c) domFreeSampler c 0 (genCount 1 x.genSteps s.free d)).toNat
        else (genKeyed (s.genKeyOn c) domSampler (sbElem b) (sbTensor b) ((sbDraw b + d) % 65536)).toNat
      let bs := if sbLast b then z.result word (Config.freeNat (s.free + 64)) else z.area
      let off := if sbLast b then sbOutOff b else sbStateOff b
      let idle := { SampState.idle with segOpen := z.segOpen, topK := z.topK }
      if !inScratch off bs.length then (s.modCell c (fun y => { y with samp := idle })).cmdFault c 3 cmd
      else if !calReaches x.calendar .auxWr off bs.length then (s.modCell c (fun y => { y with samp := idle })).cmdFault c 4 cmd
      else
      let y := x.spMerge (flagged off (bs.take 16) (z.poison && !(sbLast b)) (z.suspect && !(sbLast b))
        ++ flagged (off + 16) (bs.drop 16) z.poison z.suspect)
      let draws := if sbLast b && sbOp b == 1 then sbDraws b else 0
      let drawn := if tempZero b || z.list.isEmpty then 0 else draws
      let s1 := s.setCell c { y.stepGen s.free 1 drawn 0 with samp := { idle with segOpen := !(sbLast b) } }
      let s2 := (s1.countFull (0x10000 + 0x200 * c + 8 * 18) draws).countFull (0x10000 + 0x200 * c + 8 * 19) z.inserts
      ({ s2 with free := s2.free + 65 }).completeCmd c cmd

/-- `SAMP_STATE` (R157). -/
def Cell.sampStateWord (x : Cell) : Nat :=
  b2n x.samp.cmd.isSome * 2 ^ 31 + b2n x.samp.segOpen * 2 ^ 30 + min (x.equeue 4).length 2 * 2 ^ 28
  + (match x.samp.cmd with | some k => k.thread % 16 | none => 0) * 2 ^ 24 + x.samp.topK % 8192

end Sys2Proof.Machine
end

