-- ==== Sys2Proof/Machine/WinReq.lean ====
section
/-!
DEFINITION. Accesses to imported fabric windows, at the requester (R19, R236–R238).
-/
namespace Sys2Proof.Machine

/-- First byte of the window region, and bytes of an import slot (R236). -/
def windowBase : Nat := 0x400000000000
def windowSlotBytes : Nat := 0x400000000

/-- The import slot and offset of a physical address in the window region. -/
def windowSlot (pa : Nat) : Nat := (pa - windowBase) / windowSlotBytes
def windowOffset (pa : Nat) : Nat := (pa - windowBase) % windowSlotBytes

/-- The import an access of `n` bytes reaches; none where the slot is not imported or the access passes `SIZE` (R19,
R236). -/
def State.importAt (s : State) (pa n : Nat) : Option Import :=
  match tabFind s.imports (windowSlot pa) with
  | some i => if windowOffset pa + n ≤ i.size then some i else none
  | none => none

/-- Send a window access towards its owner. -/
def State.windowSend (s : State) (i : Import) (user : WindowUser) (launch va pa : Nat) (write : Bool) (bs : List Byte) (n : Nat)
    (poison : Bool) (elem byteOff dstPa : Nat) : State :=
  let tag := s.nextTag
  let r : WindowReq := { user := user, launch := launch, slot := windowSlot pa, va := va, write := write, length := n, elem := elem, byteOff := byteOff, dstPa := dstPa }
  let body : FabBody := if write then .winWrite tag i.ownerPart i.window i.key (windowOffset pa) bs poison
    else .winRead tag i.ownerPart i.window i.key (windowOffset pa) n
  { s with nextTag := tag + 1, winReqs := tabSet s.winReqs tag r, fabricOut := s.fabricOut ++ [{ dst := i.owner, body := body }] }

/-- A thread's load through a window: the request leaves, and its data comes with WINDOW_RESPONSE. -/
def State.windowLoad (s : State) (c t ctx va pa n : Nat) : State :=
  match s.importAt pa n with
  | some i => s.windowSend i (.load c t) ((s.launchOn c).getD 0) va pa false [] n false 0 0 0
  | none => s.fatalFault (combOf c) 2 0 .read c ctx va (s.launchOn c) stTranslationFatal

/-- The next window read of a repair, one granule, through the weight import slot of the copy it repairs from. Where task 10 may not
run, or the region or the import is not there, the repair waits (R430, R466). [DESIGN CHOICE, log entry 166] -/
def State.repairNext (s : State) (k : Nat) : State :=
  match tabFind s.replicas k with
  | none => s
  | some r => match r.repairing, r.asked with
    | some w, none =>
      let pa := windowBase + (r.peers.getD w (0, 0)).2 * windowSlotBytes + r.copied
      (match s.importAt pa 64, (s.ctx r.context).leaf (r.vbase + r.copied) with
        | some im, some _ =>
          if r.length ≤ r.copied || !s.taskOn 10 then s
          else ({ s with replicas := tabSet s.replicas k { r with asked := some s.nextTag } }).windowSend im (.repair k) 0
            (r.vbase + r.copied) pa false [] 64 false 0 0 0
        | _, _ => s)
    | _, _ => s

/-- The answer to a repair's window read: its granule is stored with its poison; a refusal ends the repair, and the copy decides
again after its next pass (R237, R430). [DESIGN CHOICE, log entry 166] -/
def State.repairData (s : State) (k tag check : Nat) (bs : List Byte) (poison : Bool) : State :=
  match tabFind s.replicas k with
  | none => s
  | some r =>
    if r.asked != some tag then s
    else if check != 0 then { s with replicas := tabSet s.replicas k { r with repairing := none, asked := none } }
    else (({ s with replicas := tabSet s.replicas k { r with copied := r.copied + 64, asked := none } }).vwrite r.context
      (r.vbase + r.copied) (bs.take 64) poison).repairNext k

/-- A thread's store through a window: posted until the owner has applied it. -/
def State.windowStore (s : State) (c t ctx va pa : Nat) (bs : List Byte) : State :=
  match s.importAt pa bs.length with
  | some i =>
    let tag := s.nextTag
    (s.windowSend i (.store c t va) ((s.launchOn c).getD 0) va pa true bs bs.length false 0 0 0).modThread c t (fun h =>
      { h with stores := replaceFirst (fun p => p.va == va && p.window.isNone) (fun p => { p with window := some tag }) h.stores })
  | none => s.fatalFault (combOf c) 2 0 .write c ctx va (s.launchOn c) stTranslationFatal

end Sys2Proof.Machine
end

