-- ==== Sys2Proof/Machine/Scalar.lean ====
section
/-!
DEFINITION. The scalar control processor: issue, the instruction classes 0x0–0xA, and the events that unblock a
thread (rows INT_ARITH to LAYERW_VERDICT of the cells chapter; R53–R73, R545–R547, R114–R116).
-/
namespace Sys2Proof.Machine

/-! ## Issue (R53–R56, R546) -/

/-- Does an image offset lie inside the variant's code (R546)? -/
def Launch.inCode (l : Launch) (pc : Nat) : Bool :=
  decide (l.variant.codeOff ≤ pc) && decide (pc < l.variant.codeOff + l.variant.codeLen)

/-- Set a thread's pc. -/
def State.setPc (s : State) (c t : Nat) (pc : Word) : State := s.modThread c t (fun h => { h with pc := pc })

/-- Block a thread. -/
def State.blockThread (s : State) (c t : Nat) (w : ThreadWait) : State :=
  s.modThread c t (fun h => { h with status := .blocked, waits := w })

/-- Unblock a thread. -/
def State.unblock (s : State) (c t : Nat) : State :=
  s.modThread c t (fun h => { h with status := .running, waits := .nothing })

/-- What an instruction's body answers: the fault code of R71, or what it does to the state (its pc moved on). -/
inductive Body where
  | fault (code : Nat)
  /-- The effect; then the thread's pc moves past the instruction. -/
  | done (f : State → State)
  /-- The effect, with the pc the instruction itself gives. -/
  | moved (f : State → State)

/-- Complete a non-jumping instruction of `size` bytes: past the last word the pc would leave the code, which is a
fault with nothing of it done (R546); otherwise the pc moves on and the effect is applied. [DESIGN CHOICE, log entry 145] -/
def State.fallThrough (s : State) (c t cls size : Nat) (l : Launch) (f : State → State) : State :=
  let pc := (s.thread c t).pc
  if l.inCode (pc.toNat + size) then f (s.setPc c t (pc + BitVec.ofNat 32 size)) else s.cellFault c 1 t cls pc

/-- How far thread `u` stands after the thread that issued last, wrapping from 15 to 0 (R53). -/
def Cell.turn (x : Cell) (u : Nat) : Nat := (u + 31 - x.recent.headD 15) % 16

/-- May thread `t` be the one that issues: every ready thread that stands before it has issued just now (R53). [DEDUCED, log entry 146] -/
def Cell.mayIssue (x : Cell) (t : Nat) : Bool :=
  (List.range 16).all (fun u =>
    decide (x.turn t ≤ x.turn u) || (x.thread u).status != .running || x.recent.contains u)

/-- Does a cell of the launch still run a check that began before the launch was placed? Its threads start when the check ends (R420). -/
def State.checkRuns (s : State) (l : Launch) : Bool :=
  s.tasters.any (fun (u : Nat × TasterCheck) => match u.2.on with | some c => l.cells.contains c | none => false)

/-- What every issue does: the thread was the last to issue on its cell, and the issue is counted (R53, R507). -/
def State.issued (s : State) (c t : Nat) : State :=
  ((s.modCell c (fun x => { x with recent := (t :: x.recent).take 3 })).countFull (0x10000 + 0x200 * c + 8 * 5) 1).countFull
    (0x10000 + 0x200 * c + 8 * (22 + t)) 1

/-- Issue the word `w` in a thread of class `cls` (R53, R55, R56). A thread that is not ready or whose turn it is not, or a word
of another class, is no event of this row. A reserved class, an undefined operation or a non-zero RSV field
(`legal = false`) faults with code 0x01 whatever the guard; a false guard has no effect. -/
def State.issue (s : State) (c t : Nat) (w : Word) (cls size : Nat) (legal : Bool) (body : Thread → Launch → Body) :
    State :=
  match s.activeLaunch c with
  | none => s
  | some (_, l) =>
    let h := s.thread c t
    if h.status != .running || !(s.cell c).mayIssue t || s.checkRuns l then s
    else if 0xB ≤ wClass w ∨ (wClass w = cls ∧ legal = false) then s.cellFault c 1 t (wClass w) h.pc
    else if wClass w ≠ cls then s
    else
      let s1 := s.issued c t
      if !h.guard w then s1.fallThrough c t cls size l (fun z => z)
      else match body h l with
        | .fault code => s1.cellFault c code t cls h.pc
        | .done f => s1.fallThrough c t cls size l f
        | .moved f => f s1

/-! ## Classes 0x0 to 0x3 and 0xA -/

/-- Row INT_ARITH: class 0x0 takes rs1 and rs2, class 0x1 rs1 and the signed immediate (R545). -/
def State.intArith (s : State) (c t : Nat) (w : Word) (op : Option IntOp) : State :=
  let cls := if wClass w = 1 then 1 else 0
  s.issue c t w cls 4 op.isSome (fun h _ =>
    match op with
    | none => .fault 1
    | some o =>
      let a := h.reg (wRs1 w)
      let b := if wClass w = 1 then BitVec.ofInt 64 (wImm10 w) else h.reg (wRs2 w)
      let v := intResult o a b
      .done (fun z =>
        if intBlocks o then z.blockThread c t (.divide (wRd w) v) else z.modThread c t (fun k => k.setReg (wRd w) v)))

/-- Row DIVIDE_COMPLETE. -/
def State.divideComplete (s : State) (c t : Nat) : State :=
  match (s.thread c t).waits with
  | .divide rd v => (s.modThread c t (fun h => h.setReg rd v)).unblock c t
  | _ => s

/-- RSV bits of a class 0x2 word: rd[4:3], and for predicate logic rs1[4:3] and rs2[4:3] (R56). -/
def predLegal (w : Word) (op : Option PredOp) : Bool :=
  decide (wRd w < 8) && (match op with
    | some (.compare _) => true
    | some (.logic _) => decide (wRs1 w < 8) && decide (wRs2 w < 8)
    | none => false)

/-- Row COMPARE_PREDICATE. -/
def State.comparePredicate (s : State) (c t : Nat) (w : Word) (op : Option PredOp) : State :=
  s.issue c t w 2 4 (predLegal w op) (fun h _ =>
    match op with
    | some (.compare k) =>
      .done (fun z => z.modThread c t (fun x => x.setPred (wRd w) (cmpResult k (h.reg (wRs1 w)) (h.reg (wRs2 w)))))
    | some (.logic tt) =>
      .done (fun z => z.modThread c t (fun x => x.setPred (wRd w) (logicResult tt (h.pred (wRs1 w)) (h.pred (wRs2 w)))))
    | none => .fault 1)

/-- The target of a PC-relative branch: image offset of the branch word + 4 × offset (R56). -/
def branchTarget (pc w : Word) : Int := (pc.toNat : Int) + 4 * wOffset w

/-- Row BRANCH: a taken branch whose target leaves the code faults with code 0x01 (R546). -/
def State.branch (s : State) (c t : Nat) (w : Word) : State :=
  s.issue c t w 3 4 true (fun h l =>
    let target := branchTarget h.pc w
    if target < 0 ∨ !l.inCode target.toNat then .fault 1
    else .moved (fun z => z.setPc c t (BitVec.ofNat 32 target.toNat)))

/-- RSV fields of a class 0xA word: rs2, and rd for a plain jump. -/
def jumpLegal (w : Word) (op : Option JumpOp) : Bool :=
  wRs2 w == 0 && (match op with
    | some .jump => wRd w == 0
    | some .jumpLink => true
    | none => false)

/-- Row INDIRECT_JUMP: the s-register holds an image offset; the link is the offset of the next word (R546). -/
def State.indirectJump (s : State) (c t : Nat) (w : Word) (op : Option JumpOp) : State :=
  s.issue c t w 0xA 4 (jumpLegal w op) (fun h l =>
    let target := (h.reg (wRs1 w)).toNat
    if target % 4 != 0 then .fault 2
    else if !l.inCode target then .fault 1
    else .moved (fun z =>
      let z1 := if op == some .jumpLink then z.modThread c t (fun x => x.setReg (wRd w) ((h.pc + 4#32).setWidth 64)) else z
      z1.setPc c t (BitVec.ofNat 32 target)))

/-! ## Classes 0x4 and 0x5: loads and stores (R57) -/

/-- Is a size code one the class defines? -/
def memOpOk (op : Option MemOp) : Bool :=
  match op with
  | some o => decide (o.log2 ≤ 3)
  | none => false

/-- The fault of a scratchpad access of `n` bytes at `a` by a role: 0x02, 0x03 or 0x04 (R57, R70, R71). [DESIGN CHOICE, log entry 145] -/
def Cell.spFault (x : Cell) (r : Role) (a n : Nat) : Option Nat :=
  if a % n != 0 then some 2
  else if scratchBytes ≤ a then some 3
  else if !calReaches x.calendar r a n then some 4
  else none

/-- Row SP_LOAD. -/
def State.spLoad (s : State) (c t : Nat) (w : Word) (op : Option MemOp) : State :=
  s.issue c t w 4 4 (memOpOk op) (fun h _ =>
    match op with
    | none => .fault 1
    | some o =>
      let a := memAddr (h.reg (wRs1 w)) w o.log2
      match (s.cell c).spFault .scalarRd a (2 ^ o.log2) with
      | some e => .fault e
      | none => .done (fun z => z.blockThread c t (.spLoad (wRd w) a (2 ^ o.log2) o.sext)))

/-- Row SP_LOAD_RETURN, after the thread's own posted stores: a poisoned byte is consumed (R54, R412). [DESIGN CHOICE, log entry 13] -/
def State.spLoadReturn (s : State) (c t : Nat) : State :=
  match (s.thread c t).waits with
  | .spLoad rd off n sx =>
    let s1 := s.modCell c (fun x => x.landSp t)
    if (s1.cell c).spPoison off n then s1.takePoison c off n
    else (s1.modThread c t (fun h => h.setReg rd (loadValue (s1.spRead c off n) sx))).unblock c t
  | _ => s

/-- A scratchpad store joins its thread's queue; a fifth issues only once the oldest has had its slot (R54). -/
def State.postSp (s : State) (c t a : Nat) (bs : List Byte) : State :=
  (if (s.thread c t).spStores.length < 4 then s else s.modCell c (fun x => x.landOne t)).modThread c t
    (fun h => { h with spStores := h.spStores ++ [(a, bs)] })

/-- Row SP_STORE: the low bytes of rd are posted to the scratchpad. [DESIGN CHOICE, log entry 13] -/
def State.spStore (s : State) (c t : Nat) (w : Word) (op : Option MemOp) : State :=
  s.issue c t w 4 4 (memOpOk op && (match op with | some o => !o.sext | none => false)) (fun h _ =>
    match op with
    | none => .fault 1
    | some o =>
      let a := memAddr (h.reg (wRs1 w)) w o.log2
      match (s.cell c).spFault .scalarWr a (2 ^ o.log2) with
      | some e => .fault e
      | none => .done (fun z => z.postSp c t a (bytesLE (2 ^ o.log2) (h.reg (wRd w)).toNat)))

/-- A walk for a thread of a cell. -/
def State.threadWalk (s : State) (c va : Nat) (a : Access) (who : Requester) (ctx : Nat) : State :=
  s.startWalk { collector := combOf c, context := ctx, va := va, access := a, who := who,
                launch := (s.launchOn c).getD 0, stale := false }

/-- Row VA_LOAD: through the cell TLB; the thread blocks until the data returns (R54). -/
def State.vaLoad (s : State) (c t : Nat) (w : Word) (op : Option MemOp) : State :=
  s.issue c t w 5 4 (memOpOk op) (fun h l =>
    match op with
    | none => .fault 1
    | some o =>
      let va := memAddr (h.reg (wRs1 w)) w o.log2
      if va % 2 ^ o.log2 != 0 then .fault 2
      else .done (fun z =>
        match z.xlate (tlbCell c) l.context va .read with
        | .hit pa =>
          let z1 := (z.tlbTouch (tlbCell c) l.context va).blockThread c t (.vaLoad (wRd w) va (2 ^ o.log2) o.sext (some pa))
          if isWindow pa then z1.windowLoad c t l.context va pa (2 ^ o.log2) else z1
        | .walk => (z.blockThread c t (.vaLoad (wRd w) va (2 ^ o.log2) o.sext none)).threadWalk c va .read (.load c t) l.context
        | .fatal k => z.fatalFault (combOf c) k 0 .read c l.context va (z.launchOn c) stTranslationFatal))

/-- A virtual-address store leaves the thread and is outstanding until it is globally visible (R54); one whose page the TLB does not
hold stalls its thread for the whole walk (R341). [DESIGN CHOICE, log entry 13] -/
def State.postStore (s : State) (c t ctx va : Nat) (bs : List Byte) : State :=
  let post := fun (z : State) (pa : Option Nat) =>
    (z.modThread c t (fun h => { h with stores := h.stores ++ [{ va := va, bytes := bs, pa := pa, window := none }] }))
  match s.xlate (tlbCell c) ctx va .write with
  | .hit pa =>
    let s1 := s.tlbTouch (tlbCell c) ctx va
    if isWindow pa then (post s1 none).windowStore c t ctx va pa bs else post s1 (some pa)
  | .walk => (s.blockThread c t (.vaStore va bs)).threadWalk c va .write (.store c t) ctx
  | .fatal k => s.fatalFault (combOf c) k 0 .write c ctx va (s.launchOn c) stTranslationFatal

/-- A store that its thread waits to post goes on, unless it waits for its walk (R54, R341). -/
def State.goStore (s : State) (c t : Nat) : State :=
  match (s.thread c t).waits, s.activeLaunch c with
  | .vaStore va bs, some (_, l) => if s.stalled (.store c t) then s else (s.unblock c t).postStore c t l.context va bs
  | _, _ => s.settleCell c

/-- The thread's stores to device memory become globally visible, oldest first (R54); a stack in throttle stage 3 takes none (R37). -/
def State.landStores (s : State) (c t : Nat) : State :=
  let lands := fun (p : PostedStore) => match p.pa with | some pa => s.stackOpen pa | none => false
  let ready := (s.thread c t).stores.filter lands
  if ready.isEmpty then s
  else
    let s1 := ready.foldl (fun (acc : State) p => acc.dramWrite (p.pa.getD 0) p.bytes false) s
    (s1.modThread c t (fun h => { h with stores := h.stores.filter (fun p => !lands p) })).goStore c t

/-- Time passes with no event: every posted store has had its slot, or is globally visible (R54). [DESIGN CHOICE, log entry 13] -/
def State.landPosted (s : State) : State :=
  s.cells.foldl (fun (acc : State) p =>
    if p.2.threads.all (fun h => h.2.spStores.isEmpty && h.2.stores.isEmpty) then acc
    else p.2.threads.foldl (fun (a : State) h => a.landStores p.1 h.1) (acc.modCell p.1 Cell.landAllSp)) s

/-- Row VA_LOAD_RETURN, for an address in the device's own DRAM, after the thread's own posted stores; a window load returns
with WINDOW_RESPONSE, and a load from a stack in throttle stage 3 waits (R37). -/
def State.vaLoadReturn (s : State) (c t : Nat) : State :=
  match (s.thread c t).waits with
  | .vaLoad rd _ n sx (some pa) =>
    if isWindow pa || !s.stackOpen pa then s
    else
      let s1 := s.landStores c t
      if (s1.memRead pa n).2.1 then s1.consumePoison c (s1.memRead pa n).2.2
      else (s1.modThread c t (fun h => h.setReg rd (loadValue (s1.memRead pa n).1 sx))).unblock c t
  | _ => s

/-- Row VA_STORE: up to eight stores outstanding per thread; a ninth blocks its thread. [DESIGN CHOICE, log entry 13] -/
def State.vaStore (s : State) (c t : Nat) (w : Word) (op : Option MemOp) : State :=
  s.issue c t w 5 4 (memOpOk op && (match op with | some o => !o.sext | none => false)) (fun h l =>
    match op with
    | none => .fault 1
    | some o =>
      let va := memAddr (h.reg (wRs1 w)) w o.log2
      let bs := bytesLE (2 ^ o.log2) (h.reg (wRd w)).toNat
      if va % 2 ^ o.log2 != 0 then .fault 2
      else if h.stores.length < 8 then .done (fun z => z.postStore c t l.context va bs)
      else .done (fun z => z.blockThread c t (.vaStore va bs)))


/-- Row FENCE: blocks until every earlier store of the thread is globally visible (R54). -/
def State.fence (s : State) (c t : Nat) (w : Word) : State :=
  s.issue c t w 9 4 (wRd w == 0 && wRs1 w == 0 && wRs2 w == 0) (fun _ _ => .done (fun z => z.blockThread c t .fence))

/-- Row FENCE_COMPLETE: the thread's posted stores take their slots and become visible; one that waits for its walk or for a
window owner holds the thread. -/
def State.fenceComplete (s : State) (c t : Nat) : State :=
  match (s.thread c t).waits with
  | .fence =>
    let s1 := (s.modCell c (fun x => x.landSp t)).landStores c t
    if (s1.thread c t).stores.isEmpty then s1.unblock c t else s1
  | _ => s

/-- The 64 B granule of code at an address arrives for a requester, or its page must be walked first; a granule that returns poison
is consumed (R341, R412), and a stack in throttle stage 3 gives none (R37). -/
def State.fetchCode (s : State) (c lid ctx va : Nat) (who : Requester) : State :=
  match s.xlate (tlbCell c) ctx va .fetch with
  | .hit pa =>
    if !s.populated pa then s.fatalFault (combOf c) 2 0 .fetch c ctx va (some lid) stTranslationFatal
    else if !s.stackOpen pa then s
    else if (s.memRead pa 64).2.1 then s.consumePoison c (s.memRead pa 64).2.2
    else
      let s1 := s.tlbTouch (tlbCell c) ctx va
      (match who with | .fetch _ t => s1.unblock c t | _ => s1)
  | .walk =>
    if s.stalled who then s
    else s.startWalk { collector := combOf c, context := ctx, va := va, access := .fetch, who := who, launch := lid, stale := false }
  | .fatal k => s.fatalFault (combOf c) k 0 .fetch c ctx va (some lid) stTranslationFatal

/-- Row ICACHE_MISS_FILL, for the 64 B granule of code at image offset `off` and a thread, or the vector engine (`t = none`). On a
thread that can issue it is the miss, which blocks that thread alone; on one that waits for the granule it is the fill, or what the
fill still needs (R54). [DESIGN CHOICE, log entry 158] -/
def State.icacheFill (s : State) (c : Nat) (t : Option Nat) (off : Nat) : State :=
  match s.activeLaunch c with
  | none => s
  | some (lid, l) =>
    let va := l.imageBase + off / 64 * 64
    if !l.inCode (off / 64 * 64) then s
    else match t with
      | none => s.fetchCode c lid l.context va (.vecFetch c)
      | some k =>
        if (s.thread c k).status == ThreadStatus.running then s.blockThread c k (.fetch va)
        else if (s.thread c k).waits == .fetch va then s.fetchCode c lid l.context va (.fetch c k)
        else s

/-! ## Class 0x9: system values (R58) -/

/-- The cell's cycle count at a read: it never falls, and how far it has moved only the cell's own clock knows (R58).
[DESIGN CHOICE, log entry 10; DESIGN CHOICE, log entry 30] -/
def countOn (n : DWord) (k : Nat) : DWord := BitVec.ofNat 64 (n.toNat + Config.freeNat k % (2 ^ 64 - n.toNat))

/-- The system value an op selects (R58). [DESIGN CHOICE, log entry 10; DESIGN CHOICE, log entry 30] -/
def State.systemValue (s : State) (c t op : Nat) (l : Launch) : Option DWord :=
  let h := s.thread c t
  match op with
  | 0 => some (BitVec.ofNat 64 t)
  | 1 => some (BitVec.ofNat 64 (s.cell c).rank)
  | 2 => some (BitVec.ofNat 64 l.variant.footprint)
  | 3 => some l.launchId
  | 4 => some (BitVec.ofNat 64 l.imageBase)
  | 5 => some (s.islandTime (islandCell c))
  | 6 => some (countOn (s.cell c).cycles s.free)
  | 7 => some (h.sticky.setWidth 64)
  | 8 => some ((s.cell c).layerCount.setWidth 64)
  | _ => none

/-- Row SYSTEM_VALUE_READ. -/
def State.systemValueRead (s : State) (c t : Nat) (w : Word) : State :=
  let op := wOpR w
  s.issue c t w 9 4 (wRs1 w == 0 && wRs2 w == 0 && decide (op ≤ 8)) (fun _ l =>
    match s.systemValue c t op l with
    | none => .fault 1
    | some v => .done (fun z =>
        let z1 := z.modThread c t (fun h => h.setReg (wRd w) v)
        if op = 6 then { z1.modCell c (fun x => { x with cycles := v }) with free := z1.free + 1 } else z1))

/-! ## Class 0x6: semaphores (R61) -/

/-! `known` says that the word's op is the one of the row, as Novgar's output format defines it (R56). -/

/-- Row SIG. -/
def State.sig (s : State) (c t : Nat) (w : Word) (known : Bool) : State :=
  s.issue c t w 6 4 (known && wRd w == 0) (fun h _ =>
    let i := (h.reg (wRs1 w)).toNat
    let n := (h.reg (wRs2 w)).toNat
    if 63 < i ∨ n = 0 ∨ 65535 < n ∨ 65535 < ((s.cell c).sem i).toNat + n then .fault 5
    else .done (fun z => z.signal c i n t 6 h.pc))

/-- Row WAIT. -/
def State.wait (s : State) (c t : Nat) (w : Word) (known : Bool) : State :=
  s.issue c t w 6 4 (known && wRd w == 0) (fun h _ =>
    let i := (h.reg (wRs1 w)).toNat
    let n := (h.reg (wRs2 w)).toNat
    if 63 < i ∨ 65535 < n then .fault 5
    else .done (fun z => (z.blockThread c t (.semaphore i n)).waitSem c i n (.thread t)))

/-- Row TRY. -/
def State.tryOp (s : State) (c t : Nat) (w : Word) (known : Bool) : State :=
  s.issue c t w 6 4 (known && decide (wRd w < 8)) (fun h _ =>
    let i := (h.reg (wRs1 w)).toNat
    let n := (h.reg (wRs2 w)).toNat
    if 63 < i ∨ 65535 < n then .fault 5
    else
      let x := s.cell c
      let ok := (x.semWaiters i).isEmpty && decide (n ≤ (x.sem i).toNat)
      .done (fun z =>
        let z1 := if ok then z.modCell c (fun y => y.setSem i (y.sem i - BitVec.ofNat 16 n) (y.semWaiters i)) else z
        z1.modThread c t (fun k => k.setPred (wRd w) ok)))

/-- Row SEM_READ. -/
def State.semRead (s : State) (c t : Nat) (w : Word) (known : Bool) : State :=
  s.issue c t w 6 4 (known && wRs2 w == 0) (fun h _ =>
    let i := (h.reg (wRs1 w)).toNat
    if 63 < i then .fault 5
    else .done (fun z => z.modThread c t (fun k => k.setReg (wRd w) (((s.cell c).sem i).setWidth 64))))

/-! ## Class 0x7: threads (R59) -/

/-- Row TSPAWN. -/
def State.tspawn (s : State) (c t : Nat) (w : Word) (known : Bool) : State :=
  s.issue c t w 7 4 (known && wRd w == 0) (fun h l =>
    let n := (h.reg (wRs1 w)).toNat
    let off := (h.reg (wRs2 w)).toNat
    if 15 < n ∨ (s.thread c n).status ≠ .idle ∨ off % 4 ≠ 0 ∨ !l.inCode off then .fault 6
    else .done (fun z => z.modThread c n (fun k =>
      { k with regs := [], preds := 1#8, pc := BitVec.ofNat 32 off, status := .running, waits := .nothing })))


/-! ## Layer boundaries (R68, R69, R114–R116, R261) -/

/-- A thread waits at the barrier. [DEDUCED, log entry 12] -/
def Thread.atBarrier (h : Thread) : Bool :=
  match h.waits with
  | .layer _ _ => true
  | .layerW _ _ _ _ => true
  | _ => false

/-- Is the barrier complete: some thread is at it, and every thread is IDLE or at it (R68)? [DEDUCED, log entry 12] -/
def Cell.barrierFull (x : Cell) : Bool :=
  x.layer == .running && x.threads.any (fun p => p.2.atBarrier) && x.threads.all (fun p => p.2.status == .idle || p.2.atBarrier)

/-- A complete barrier makes the cell drain. -/
def State.barrierCheck (s : State) (c : Nat) : State :=
  s.modCell c (fun x => if x.barrierFull then { x with layer := .draining x.arrived } else x)

/-- A thread arrives at the barrier; the last one makes the cell drain. -/
def State.barrier (s : State) (c t : Nat) : State := (s.modCell c (fun x => { x with arrived := t })).barrierCheck c

/-- Row TEXIT: the thread returns to IDLE, so that a barrier may be complete or the launch end on the cell (R60, R68).
[DEDUCED, log entry 12] -/
def State.texit (s : State) (c t : Nat) (w : Word) (known : Bool) : State :=
  s.issue c t w 7 4 (known && wRd w == 0 && wRs1 w == 0 && wRs2 w == 0) (fun _ _ =>
    .moved (fun z =>
      ((z.modThread c t (fun h => { h with status := .idle, waits := .nothing })).barrierCheck c).checkCellEnd c))

/-- Row LAYER. -/
def State.layer (s : State) (c t : Nat) (w : Word) : State :=
  s.issue c t w 9 4 (wRd w == 0 && wRs2 w == 0) (fun h _ =>
    .done (fun z => (z.blockThread c t (.layer h.pc.toNat (h.reg (wRs1 w)).toNat)).barrier c t))

/-- Row LAYERW: rs1 and rs2 name the two calendars, rd[2:0] the predicate (R115). -/
def State.layerW (s : State) (c t : Nat) (w : Word) : State :=
  s.issue c t w 9 4 (decide (wRd w < 8)) (fun h _ =>
    .done (fun z => (z.blockThread c t
      (.layerW h.pc.toNat (h.reg (wRs1 w)).toNat (h.reg (wRs2 w)).toNat (wRd w))).barrier c t))

/-- Threads at the barrier go on. -/
def Cell.releaseBarrier (x : Cell) : Cell :=
  { x with
    threads := x.threads.map (fun p =>
      if p.2.atBarrier then (p.1, { p.2 with status := .running, waits := .nothing }) else p)
    layer := .running }

/-- The end of a layer boundary: the layer count has risen, and the check for pre-emption follows (R68, R261): a
marked cell holds until it learns the target, and halts where its count equals it. -/
def State.layerEnd (s : State) (c : Nat) : State :=
  let x := s.cell c
  match x.mark with
  | .none => s.setCell c x.releaseBarrier
  | .marked => s.setCell c { x with layer := .held }
  | .target n => if x.layerCount.toNat = n then s.setCell c { x with layer := .halted } else s.setCell c x.releaseBarrier

/-- The trace record of a completed LAYER (R517). -/
def State.traceLayer (s : State) (c verdict : Nat) : State :=
  match (s.cell c).launch.bind s.launch? with
  | none => s
  | some l => s.traceCell c 3 (bytesLE 8 l.launchId.toNat ++ bytesLE 2 (s.cell c).layerCount.toNat ++ bytesLE 1 verdict)

/-- Load the calendar block at `off` (R68): poison is consumed, an invalid calendar is a fault with code 0x08 and the
previous calendar stays (R69). `site` is the pc of the LAYER; `f` runs on success. [DESIGN CHOICE, log entry 145] -/
def State.loadCalendar (s : State) (c t site off : Nat) (f : State → State) : State :=
  let x := s.cell c
  if scratchBytes < off + 64 then s.cellFault c 3 t 9 (BitVec.ofNat 32 site)
  else if x.spPoison off 64 then s.takePoison c off 64
  else
    let cal := calOfBytes (x.scratch.read off 64)
    if calValid cal then f (s.setCell c (Cell.drainIngress { x with calendar := cal, layerCount := x.layerCount + 1#14 }))
    else s.cellFault c 8 t 9 (BitVec.ofNat 32 site)

/-- A plain LAYER with the trip bit set reports its layer count, and the dispatcher counts that layer once as clipped
(R116, R118). -/
def State.reportClip (s : State) (c : Nat) : State :=
  let x := s.cell c
  if !x.quant.trip then s
  else
    let n := x.layerCount.toNat
    let s1 := s.setCell c { x with quant := { x.quant with trip := false, tripLayer := x.layerCount, clipped := BitVec.ofNat 8 (satAdd 8 x.quant.clipped.toNat 1) } }
    match s1.launchOn c with
    | none => s1
    | some l => s1.modLaunch l (fun y =>
        if y.lastClip == some n then y else { y with clipped := satAdd 8 y.clipped 1, lastClip := some n })

/-- Is a draining cell drained (R68 step 1, R320)? -/
def Cell.drained (x : Cell) : Bool := x.commandsDone && x.streamsIdle && x.ingress.isEmpty

/-- Row LAYER_DRAIN_DONE; posted scratchpad stores have had their slots by then. -/
def State.layerDrainDone (s0 : State) (c : Nat) : State :=
  match (s0.cell c).layer with
  | .draining t =>
    let s := s0.modCell c Cell.landAllSp
    let x := s.cell c
    if !s0.cellActive c || !(s0.cell c).drained then s0
    else match (x.thread t).waits with
      | .layer site cal => (s.reportClip c).loadCalendar c t site cal (fun z => (z.traceLayer c 0).layerEnd c)
      | .layerW _ _ _ _ =>
        let s1 := s.setCell c { x with
          layer := .voting t
          quant := { x.quant with voteWait := true, tripLayer := if x.quant.trip then x.layerCount else x.quant.tripLayer } }
        (match s1.launchOn c with
         | none => s1
         | some l => s1.modLaunch l (fun y => { y with votes := y.votes ++ [x.rank], tripped := y.tripped || x.quant.trip }))
      | _ => s0
  | _ => s0

/-- The verdict at one cell (R115): the calendar it chooses, the predicate in every RUNNING thread, the trip bit
cleared. A thread that came by `LAYERW` gets the predicate its own word names, another the one that the last arrival names. -/
def State.verdictAt (replay : Bool) (s : State) (c : Nat) : State :=
  let x := s.cell c
  match x.layer with
  | .voting t =>
    match (x.thread t).waits with
    | .layerW site cal wide pred =>
      let q := { x.quant with trip := false, voteWait := false,
                              widened := if replay then BitVec.ofNat 8 (satAdd 8 x.quant.widened.toNat 1) else x.quant.widened }
      let setP := fun (h : Thread) => match h.waits with
        | .layerW _ _ _ p => h.setPred p replay
        | .layer _ _ => h.setPred pred replay
        | _ => h
      let x1 := { x with quant := q, threads := x.threads.map (fun p => (p.1, setP p.2)) }
      (s.setCell c x1).loadCalendar c t site (if replay then wide else cal) (fun z => (z.traceLayer c (b2n replay)).layerEnd c)
    | _ => s
  | _ => s

/-- Row LAYERW_VERDICT: once every cell of the footprint has reported (R115). -/
def State.layerwVerdict (s : State) (l : Nat) : State :=
  match s.launch? l with
  | none => s
  | some x =>
    if x.cells.isEmpty || !(List.range x.cells.length).all (fun r => x.votes.contains r) then s
    else
      let replay := x.tripped
      let s1 := s.setLaunch l { x with votes := [], tripped := false, replayed := if replay then satAdd 8 x.replayed 1 else x.replayed }
      x.cells.foldl (State.verdictAt replay) s1

end Sys2Proof.Machine
end

