-- ==== Sys2Proof/Machine/Issue.lean ====
section
/-!
DEFINITION. Engine commands at issue, and engines that abandon an ended launch (rows ARRAY_CMD to SAMPLE_CMD and
ENGINE_SAFE_POINT_ABANDON; R64–R66, R71, R97).
-/
namespace Sys2Proof.Machine

/-- The command that the two words make, operand values read at issue (R64, R65). -/
def engineCmd (x : Cell) (h : Thread) (t : Nat) (w w1 : Word) : EngineCmd :=
  { engine := eEngine w, opA := h.reg (eSa w), opB := h.reg (eSb w), imm := eImm w1, semDone := eSemDone w, doneEn := eDoneEn w,
    waitEn := eWaitEn w, semWait := eSemWait w1, serial := eSerial w1, thread := t, pc := h.pc, seq := x.nextSeq,
    granted := !(eWaitEn w) }

/-- Issue of a class 0x8 command for engine `e` (R64–R66, R71): RSV bits, the operand ranges `ranges`, then the roles
that must hold a slot. A reserved engine number is code 0x07. -/
def State.engineIssue (s : State) (c t : Nat) (w w1 : Word) (e : Nat) (immOk : Bool) (ranges : EngineCmd → Bool)
    (roles : EngineCmd → List Role) : State :=
  if wClass w = 8 ∧ eEngine w ≠ e ∧ eEngine w < 5 then s
  else s.issue c t w 8 8 (eLegal w w1 && (immOk || decide (5 ≤ eEngine w))) (fun h _ =>
    let x := s.cell c
    let cmd := engineCmd x h t w w1
    if 5 ≤ eEngine w ∨ ranges cmd = false then .fault 7
    else if (roles cmd).any (fun r => !calHasRole x.calendar r) then .fault 9
    else .done (fun z => (z.modCell c (fun y => { y with nextSeq := y.nextSeq + 1 })).acceptCmd c cmd))

/-- Row ARRAY_CMD. [DESIGN CHOICE, log entry 147] -/
def State.arrayCmd (s : State) (c t : Nat) (w w1 : Word) : State :=
  s.engineIssue c t w w1 0 (aImmLegal (eImm w1))
    (fun k =>
      let lo := aLoadOnly k.imm
      k.opA.toNat % 64 == 0 && decide (k.opA.toNat + (if lo then 64 else 128) ≤ scratchBytes)
      && (lo || (decide (1 ≤ k.opB.toNat) && decide (k.opB.toNat ≤ 65535)))
      && !(aEw k.imm && (aEwOp k.imm == 3 || aLoadOnly k.imm || aWload k.imm)))
    (fun k => if aLoadOnly k.imm then [.arrayWt] else if aDestTb k.imm then [.arrayWt, .arrayAct]
              else [.arrayWt, .arrayAct, .arrayOut])

/-- Row VECTOR_CMD. -/
def State.vectorCmd (s : State) (c t : Nat) (w w1 : Word) : State :=
  s.engineIssue c t w w1 1 true (fun k => decide (1 ≤ k.opB.toNat) && decide (k.opB.toNat ≤ 16777216)) (fun _ => [.vecRd])

/-- Row STREAM_CMD: operand B must be s0 and `IMM` is RSV. -/
def State.streamCmd (s : State) (c t : Nat) (w w1 : Word) : State :=
  s.engineIssue c t w w1 2 (eImm w1 == 0#24) (fun _ => eSb w == 0) (fun _ => [.egress])

/-- Row BAG_CMD; the bag count has a range of its own (R165). -/
def State.bagCmd (s : State) (c t : Nat) (w w1 : Word) : State :=
  s.engineIssue c t w w1 3 true (fun k => decide (1 ≤ field k.opB.toNat 31 0) && decide (field k.opB.toNat 31 0 ≤ 65536)) (fun _ => [.ingress])

/-- Row SAMPLE_CMD. -/
def State.sampleCmd (s : State) (c t : Nat) (w w1 : Word) : State :=
  s.engineIssue c t w w1 4 (eImm w1 == 0#24) (fun k => decide (1 ≤ k.opB.toNat) && decide (k.opB.toNat ≤ 1048576))
    (fun _ => [.auxRd, .auxWr])

/-! ## Abandoning (R71, R97) -/

/-- Has the launch on the cell ended? -/
def State.cellEnded (s : State) (c : Nat) : Bool :=
  match s.launchOn c with
  | some l => match s.launch? l with
    | some x => x.phase == .ended
    | none => true
  | none => false

/-- The array abandons: the first `rows` rows of the pass it was feeding are written, nothing more; its weight registers
become undefined and its tile buffers are released (R97). [DESIGN CHOICE, log entry 19] -/
def State.abandonArray (s : State) (c rows : Nat) : State :=
  let x := s.cell c
  let x1 := match x.array.passes.find? (fun p => !p.written) with
    | some p => (x.writeRows (s.genKeyOn c) c x.genSteps s.free p (x.passFlags p) (min rows p.cmd.opB.toNat)).1
    | none => x
  let x2 := x1.setQueueOf 0 []
  let s1 := s.setCell c { x2 with array := { x2.array with passes := [], loader := [], wregs := [] } }
  { s1 with free := s1.free + 4 * rows + 96 }

/-- Row ENGINE_SAFE_POINT_ABANDON: engine `e` of a cell whose launch has ended reaches its safe point and drops the
launch's commands without signalling `SEM_DONE`. -/
def State.engineAbandon (s : State) (c e rows : Nat) : State :=
  if !s.cellEnded c then s
  else
    let s1 := match e with
      | 0 => s.abandonArray c rows
      | 1 => s.modCell c (fun x => { x.setQueueOf 1 [] with vec := VecState.idle })
      | 2 => s.modCell c (fun x => x.setQueueOf 2 [])
      | 3 => s.modCell c (fun x => x.setQueueOf 3 [])
      | _ => s.modCell c (fun x => { x.setQueueOf 4 [] with samp := { SampState.idle with segOpen := x.samp.segOpen, topK := x.samp.topK } })
    s1.settleCell c

end Sys2Proof.Machine
end

