-- ==== Sys2Proof/Machine/Records.lean ====
section
/-!
DEFINITION. User queues: doorbells, the take rules, header checks, completion records and queue states
(R270–R297).
-/
namespace Sys2Proof.Machine

/-! ## Doorbells (R273, R274) -/

/-- Slots of a queue's ring (R271). -/
def Queue.size (x : Queue) : Nat := 2 ^ x.log2Slots

/-- Is a doorbell write accepted: one aligned 8 B store, a rising value, an ACTIVE queue (R274)? -/
def Queue.tailOk (x : Queue) (whole : Bool) (v : DWord) : Bool :=
  whole && x.tail.ult v && x.status == .active && !x.span

/-- Is a `DB_CQ_HEAD` write accepted: not above the records posted (R274)? -/
def Queue.cqHeadOk (x : Queue) (whole : Bool) (v : DWord) : Bool :=
  whole && x.cqHead.ult v && x.status == .active && !(x.posted.ult v)

/-- An accepted doorbell counted (R506, R507). -/
def State.countDoorbell (s : State) : State := (s.count (8 * 60) 1).countFull (0x41100 + 8 * 4) 1

/-- Row DB_TAIL. -/
def State.dbTail (s : State) (q : Nat) (whole : Bool) (v : DWord) : State :=
  if (s.queue q).tailOk whole v then (s.modQueue q (fun x => { x with tail := v })).countDoorbell else s.bump 0xA101 0 1

/-- Row DB_CQ_HEAD. -/
def State.dbCqHead (s : State) (q : Nat) (whole : Bool) (v : DWord) : State :=
  if (s.queue q).cqHeadOk whole v then (s.modQueue q (fun x => { x with cqHead := v })).countDoorbell else s.bump 0xA101 0 1

/-! ## The take rule (R272, R275, R283) -/

/-- Outstanding + unconsumed < size (R275). -/
def Queue.hasRoom (x : Queue) : Bool := decide (x.outstanding + (x.posted - x.cqHead).toNat < x.size)

/-- Device address of the slot of command `n` (R271, R272). -/
def Queue.slotAddr (x : Queue) (n : Nat) : Nat := 0x6000000000 + x.ringOff + n % x.size * 512

/-- The head command's slot. -/
def State.slotOf (s : State) (q : Nat) : List Byte :=
  (s.dramView ((s.queue q).slotAddr (s.queue q).taken.toNat) 512).1

/-! ## Header fields (R279) -/

def chKind (b : List Byte) : Nat := leAt b 0 1
def chFlags (b : List Byte) : Nat := leAt b 1 1
def chFpLog2 (b : List Byte) : Nat := field (chFlags b) 4 2
def chWaitPrev (b : List Byte) : Bool := bitAt (chFlags b) 1
def chIrq (b : List Byte) : Bool := bitAt (chFlags b) 0
def chConstWords (b : List Byte) : Nat := leAt b 2 1
def chInlineWords (b : List Byte) : Nat := leAt b 3 1

/-- Does what is read of the head command's slot carry poison: its header, and the constants and inline data it states
(R278, R415)? -/
def State.slotPoison (s : State) (q : Nat) : Bool :=
  let a := (s.queue q).slotAddr (s.queue q).taken.toNat
  let b := s.slotOf q
  (s.dramView a 64).2 || (s.dramView (a + 0x40) (8 * min 32 (chConstWords b))).2
    || (s.dramView (a + 0x140) (8 * min 24 (chInlineWords b))).2

def chRingTag (b : List Byte) : Nat := leAt b 4 4
def chLaunchId (b : List Byte) : DWord := BitVec.ofNat 64 (leAt b 8 8)
def chImageId (b : List Byte) : Nat := leAt b 0x10 8
def chGenKey (b : List Byte) : BitVec 128 := BitVec.ofNat 128 (leAt b 0x18 16)
def chGroup (b : List Byte) (i : Nat) : Nat := leAt b (0x28 + 3 * i) 3
/-- The group handles used: entries before the first zero. -/
def chGroups (b : List Byte) : List Nat := ((List.range 8).map (chGroup b)).takeWhile (· != 0)
/-- The launch constants, zero-filled to 256 B, and the inline data, zero-filled to 192 B (R52, R278). -/
def chConsts (b : List Byte) : List Byte :=
  ((b.drop 0x40).take (8 * chConstWords b) ++ List.replicate 256 0#8).take 256
def chInline (b : List Byte) : List Byte :=
  ((b.drop 0x140).take (8 * chInlineWords b) ++ List.replicate 192 0#8).take 192

/-- The partition of a queue. -/
def State.queuePart (s : State) (q : Nat) : Nat := (s.ctx (s.queue q).context).partition

/-- The variant of an image for a footprint (R305). -/
def Image.variant (x : Image) (f : Nat) : Option Variant := x.variants.find? (fun v => v.footprint == f)

/-- Is a handle a group of the partition? -/
def State.groupIn (s : State) (p h : Nat) : Bool :=
  match tabFind s.groups h with
  | some g => g.partition == p
  | none => false

/-! ## Shape (R249, R250) -/


/-- Has the quarantine of a cell taken effect: its bit is set, and the launch that held the cell then has left it (R423)? -/
def State.outOfUse (s : State) (c : Nat) : Bool :=
  s.quarantined.getLsbD c && !((s.healthOf c).pending && (s.cell c).launch.isSome)

/-- Cells of a partition that may be placed: of its combs, their quarantine not in effect (R250, R423). -/
def State.placeable (s : State) (p : Nat) : List Nat :=
  (List.range 128).filter (fun c => (s.part p).combMask.getLsbD (combOf c) && !s.outOfUse c)

/-- `PART_PLACEABLE` (R245). -/
def State.placeableCount (s : State) (p : Nat) : Nat := (s.placeable p).length

/-- Of a set of cells, those of comb `k`. -/
def cellsOfComb (cells : List Nat) (k : Nat) : List Nat := cells.filter (fun c => combOf c == k)

/-- Sublists of length `n`, in order. -/
def chooseN {α : Type} : Nat → List α → List (List α)
  | 0, _ => [[]]
  | _ + 1, [] => []
  | n + 1, a :: r => (chooseN n r).map (a :: ·) ++ chooseN (n + 1) r

/-- The sets of `f` cells that the shape rule allows among `cells` (R250), each ascending. -/
def shapes (f : Nat) (cells : List Nat) : List (List Nat) :=
  if f ≤ 4 then (List.range 16).flatMap (fun k => chooseN f (cellsOfComb cells k))
  else
    let whole := (List.range 16).filter (fun k => (cellsOfComb cells k).length == 8)
    (chooseN (f / 8) whole).map (fun ks => ks.flatMap (cellsOfComb cells))

/-- The cells a queue's pins allow (R259). -/
def Queue.allows (x : Queue) (cells : List Nat) : List Nat :=
  let a := match x.pinMask with
    | some m => cells.filter (fun c => m.getLsbD (combOf c))
    | none => cells
  match x.pinSet with
  | some m => a.filter (fun c => m.getLsbD c)
  | none => a

/-- Can a footprint ever be placed for the queue (R249, R259)? A `CELL_SET` pin must name exactly F cells. -/
def State.everFits (s : State) (q f : Nat) : Bool :=
  let x := s.queue q
  let cells := x.allows (s.placeable (s.queuePart q))
  (match x.pinSet with
   | some m => ((List.range 128).filter (fun c => m.getLsbD c)).length == f
   | none => true)
  && (if f ≤ 4 then (List.range 16).any (fun k => decide (f ≤ (cellsOfComb cells k).length))
      else decide (f / 8 ≤ ((List.range 16).filter (fun k => (cellsOfComb cells k).length == 8)).length))

/-! ## Header checks (R280, R281) -/

/-- The first failing header check, as status and `DETAIL`. An image goes with its context, from `CTX_DESTROY` on (R267).
[DEDUCED, log entry 161] -/
def State.headerCheck (s : State) (q : Nat) (b : List Byte) : Option (Nat × Nat) :=
  let k := chKind b
  let p := s.queuePart q
  let raw := (List.range 8).map (chGroup b)
  let used := chGroups b
  if 4 < k ∨ chFpLog2 b = 7 ∨ field (chFlags b) 7 5 ≠ 0 then some (stIllegalOp, 1)
  else if chRingTag b ≠ (s.queue q).taken.toNat % 2 ^ 32 then some (stIllegalOp, 2)
  else if 32 < chConstWords b ∨ 24 < chInlineWords b then some (stIllegalOp, 3)
  else if k ≠ 1 then
    if chFpLog2 b ≠ 0 ∨ chInlineWords b ≠ 0 ∨ chImageId b ≠ 0 ∨ chGenKey b ≠ 0#128 ∨ !raw.all (· == 0)
    then some (stIllegalOp, 4) else none
  else
    match tabFind s.images (chImageId b) with
    | none => some (stIllegalOp, 5)
    | some im =>
      if im.partition ≠ p || (s.ctx im.context).dying then some (stIllegalOp, 5)
      else if (im.variant (2 ^ chFpLog2 b)).isNone then some (stIllegalOp, 6)
      else if !(used.all (s.groupIn p)) || !decide used.Nodup || !((raw.drop used.length).all (· == 0)) then some (stIllegalOp, 7)
      else if !s.everFits q (2 ^ chFpLog2 b) then some (stContextShape, 0)
      else none

/-! ## Placement choice (R254) -/

/-- Is a cell free for placement? -/
def State.cellFree (s : State) (c : Nat) : Bool := (s.cell c).launch.isNone

/-- Residency tags that match when rank r goes to the r-th cell. -/
def State.tagMatches (s : State) (p image f : Nat) (cells : List Nat) : Nat :=
  ((List.range cells.length).filter (fun r =>
    (s.cell (cells.getD r 0)).residency == some { partition := p, image := image, footprint := f, rank := r })).length

/-- Dies spanned by a set of cells. -/
def diesOf (cells : List Nat) : Nat := b2n (cells.any (· < 64)) + b2n (cells.any (64 ≤ ·))

/-- Row fetches served last period by the die the cells lie on (R254 step 3). -/
def Image.dieShare (x : Image) (cells : List Nat) : Nat :=
  if cells.all (· < 64) then x.lastFetchA else if cells.all (64 ≤ ·) then x.lastFetchB else 0

/-- Does placement `a` come before `b` in the order of R254? -/
def State.placeBefore (s : State) (p image f : Nat) (im : Image) (a b : List Nat) : Bool :=
  let ta := s.tagMatches p image f a
  let tb := s.tagMatches p image f b
  if ta != tb then decide (tb < ta)
  else if diesOf a != diesOf b then decide (diesOf a < diesOf b)
  else if im.dieShare a != im.dieShare b then decide (im.dieShare b < im.dieShare a)
  else decide (a.headD 0 < b.headD 0)

/-- The placement the dispatcher chooses among `cells` (R254), if any has the shape. [DEDUCED, log entry 14] -/
def State.choosePlacement (s : State) (q image f : Nat) (cells : List Nat) : Option (List Nat) :=
  let x := s.queue q
  let p := s.queuePart q
  match tabFind s.images image with
  | none => none
  | some im =>
    (shapes f (x.allows cells)).foldl (fun best a =>
      match best with
      | none => some a
      | some b => if s.placeBefore p image f im a b then some a else some b) none

/-- Free placeable cells of a queue's partition. -/
def State.freeCells (s : State) (q : Nat) : List Nat := (s.placeable (s.queuePart q)).filter s.cellFree

/-! ## Which command the lead dispatcher takes (R246–R248) -/

/-- May the head command of a queue be taken by R275 and R283? None is while the function drains or is disabled (R366), or
while the partition tests itself (R460). -/
def State.headReady (s : State) (q : Nat) : Bool :=
  let x := s.queue q
  x.status == .active && x.taken.ult x.tail && x.hasRoom && s.host.fn == .active && !(s.part (s.queuePart q)).selfTest
  && (!(chWaitPrev (s.slotOf q)) || s.slotPoison q || x.outstanding == 0)

/-- Is the head command a LAUNCH that passes its checks, so that it needs cells? -/
def State.headNeedsCells (s : State) (q : Nat) : Bool :=
  !s.slotPoison q && chKind (s.slotOf q) == 1 && (s.headerCheck q (s.slotOf q)).isNone

/-- Could the free cells hold a launch that has none? -/
def State.canPlace (s : State) (l : Launch) : Bool :=
  (s.choosePlacement l.queue l.image l.variant.footprint (s.freeCells l.queue)).isSome

/-- Is a sound LAUNCH at the head of a queue, ready to be taken, one that no free cells can hold (R248)? -/
def State.headWaits (s : State) (q : Nat) : Bool :=
  s.headReady q && s.headNeedsCells q
  && (s.choosePlacement q (chImageId (s.slotOf q)) (2 ^ chFpLog2 (s.slotOf q)) (s.freeCells q)).isNone

/-- Does a LAUNCH of a partition above a priority wait for cells, at the head of its queue or taken (R248)? [DEDUCED, log entry 14] -/
def State.outranked (s : State) (p prio : Nat) : Bool :=
  s.queues.any (fun r => r.2.status == .active && s.queuePart r.1 == p && decide (prio < r.2.priority) && (r.2.waits || s.headWaits r.1))
  || s.launches.any (fun l => l.2.phase == .taken && l.2.partition == p && decide (prio < l.2.priority))

/-- Is a LAUNCH of higher priority in the same partition waiting for cells (R248)? -/
def State.heldBack (s : State) (q : Nat) : Bool := s.outranked (s.queuePart q) (s.queue q).priority

/-- Is a launch of a partition taken and about to be placed? Its cells are spoken for. [DEDUCED, log entry 14] -/
def State.placing (s : State) (p : Nat) : Bool :=
  s.launches.any (fun l => l.2.phase == .taken && l.2.partition == p && s.canPlace l.2)

/-- Is a saved launch of equal or higher priority waiting to resume that free cells could hold (R247)? -/
def State.resumeFirst (s : State) (q : Nat) : Bool :=
  s.launches.any (fun l => l.2.phase == .saved && l.2.partition == s.queuePart q && decide ((s.queue q).priority ≤ l.2.priority)
    && !s.outranked l.2.partition l.2.priority && s.canPlace l.2)

/-- May a launch of a queue's footprint go on free cells now: none outranks it, and none is about to take them (R247, R248)? -/
def State.mayPlace (s : State) (q image f : Nat) : Bool :=
  !s.heldBack q && !s.placing (s.queuePart q) && (s.choosePlacement q image f (s.freeCells q)).isSome

/-- Can the dispatcher take the head command now? [DEDUCED, log entry 14] -/
def State.takeable (s : State) (q : Nat) : Bool :=
  s.headReady q && !s.resumeFirst q
  && (!s.headNeedsCells q || s.mayPlace q (chImageId (s.slotOf q)) (2 ^ chFpLog2 (s.slotOf q)))

/-- Distance of a queue from the one served last, for the round-robin of R247. -/
def roundDist (last q : Nat) : Nat := (q + 1024 - last - 1) % 1024

/-- Is queue `q` the one R247 names: takeable, and no takeable queue of its partition of higher priority, or of equal
priority and nearer in the round? -/
def State.isNext (s : State) (q : Nat) : Bool :=
  let p := s.queuePart q
  let last := tabGet 0 (s.part p).lastQueue (s.queue q).priority
  s.takeable q && s.queues.all (fun r =>
    r.1 == q || s.queuePart r.1 != p || !s.takeable r.1
    || decide (r.2.priority < (s.queue q).priority)
    || (r.2.priority == (s.queue q).priority && decide (roundDist last q < roundDist last r.1)))

/-! ## Records (R284–R288) -/

/-- Post a completion record of a queue (R286, R287, R296): to the shadow, and to the ring unless the queue is
ORPHANED, in which case the newest 64 are parked. -/
def State.postRecord (s : State) (q : Nat) (mk : Nat → List Byte) (irq : Bool) : State :=
  let x := s.queue q
  let c := x.posted.toNat
  let bytes := mk (phaseBit c x.size)
  let x1 := { x with posted := x.posted + 1#64, outstanding := x.outstanding - 1, shadow := tabSet x.shadow (c % 64) bytes }
  if x.ringLost then
    let all := x.parked ++ [bytes]
    let lost := all.length - 64
    (s.setQueue q { x1 with parked := all.drop lost, parkedLost := BitVec.ofNat 32 (satAdd 32 x.parkedLost.toNat lost) }).bump
      0xA104 0 lost
  else
    let s1 := (s.setQueue q x1).countRecord.post (.write (x.cqBase + c % x.size * 32) bytes false)
    if !irq || x.msix == 0xFFFF then s1
    else if x.modCount ≤ x1.irqCount + 1 then (s1.modQueue q (fun y => { y with irqCount := 0 })).post (.msix x.msix)
    else s1.modQueue q (fun y => { y with irqCount := y.irqCount + 1 })

/-- The record of a launch (R285). -/
def Launch.record (l : Launch) (time : DWord) (phase : Nat) : List Byte :=
  completionBytes l.launchId.toNat l.index l.queue l.finalStatus (phase * 128 + l.sticky.toNat) l.replayed l.clipped
    (if l.status.isSome then l.detail else 0) (b2n l.preempted) (min (l.elapsed / 1000) (2 ^ 32 - 1)) time.toNat

/-- Is the launch's work on its cells over, so that its record may follow its writes (R24)? -/
def State.launchQuiet (s : State) (l : Nat) (x : Launch) : Bool := x.cells.all (fun c => (s.cell c).launch != some l)

/-- Row COMPLETION_POST: the next record of a queue, in the order its launches ended (R287). -/
def State.completionPost (s : State) (q : Nat) : State :=
  let x := s.queue q
  if !s.postRoom 32 then s else match x.ready with
  | [] => s
  | .cmd id n st det irq ns :: rest =>
    (s.setQueue q { x with ready := rest }).postRecord q
      (fun ph => completionBytes id.toNat n q st (ph * 128) 0 0 det 0 (min (ns / 1000) (2 ^ 32 - 1)) s.time.toNat) irq
  | .launch l :: rest =>
    match s.launch? l with
    | none => s.setQueue q { x with ready := rest }
    | some y =>
      if !s.launchQuiet l y then s
      else
        let s1 := (s.setQueue q { x with ready := rest }).postRecord q (y.record s.time) y.irq
        { s1 with launches := tabErase s1.launches l }

/-- Row MSIX_MOD_TIMER (R288). -/
def State.msixModTimer (s : State) (q : Nat) : State :=
  let x := s.queue q
  if x.irqCount == 0 || x.msix == 0xFFFF then s
  else (s.setQueue q { x with irqCount := 0 }).post (.msix x.msix)

/-! ## Queue states (R294, R295) -/

/-- Launches of a queue that have not been posted. -/
def State.queueLaunches (s : State) (q : Nat) : List (Nat × Launch) := s.launches.filter (fun l => l.2.queue == q)

/-- A queue enters DYING with a cause (R295): its work is ended, its saves are discarded, an EPOCH_ADVANCE stops
waiting; PUBLISH and PATCH run on. A queue already DYING keeps its first cause. -/
def State.queueDie (s : State) (q cause : Nat) : State :=
  let x := s.queue q
  if x.status == .free || x.status == .dying then s
  else
    let s1 := s.setQueue q { x with status := .dying, cause := cause, waits := false, preempting := false,
                                    work := x.work.filter (fun w => w.kind != 4) }
    (s1.queueLaunches q).foldl (fun acc l => acc.endLaunch l.1 (some cause) 0) s1

/-- Has everything of a DYING queue been acknowledged and decided (R295)? -/
def State.queueDead (s : State) (q : Nat) : Bool :=
  let x := s.queue q
  x.status == .dying && x.work.isEmpty && x.ready.isEmpty && (s.queueLaunches q).all (fun l => s.launchQuiet l.1 l.2)

/-! ## Reads of the doorbell page and the shadow (R273, R292) -/

/-- Code of a queue state. -/
def QueueStatus.code : QueueStatus → Nat
  | .free => 0 | .active => 1 | .dying => 2 | .orphaned => 3

/-- `DB_STATUS`. -/
def Queue.dbStatus (x : Queue) : Nat := x.status.code * 2 ^ 62 + x.taken.toNat % 2 ^ 32

/-- The shadow page of a queue as bytes (R292). [DESIGN CHOICE, log entry 59] -/
def Queue.shadowByte (x : Queue) (off : Nat) : Byte :=
  if off < 0x28 then
    (bytesLE 8 x.posted.toNat ++ bytesLE 8 x.taken.toNat ++ bytesLE 8 x.cqHead.toNat ++ bytesLE 8 x.tail.toNat
      ++ bytesLE 1 x.status.code ++ bytesLE 1 x.parked.length ++ bytesLE 2 0 ++ bytesLE 4 x.parkedLost.toNat).getD off 0#8
  else if 0x800 ≤ off then (tabGet [] x.shadow ((off - 0x800) / 32)).getD ((off - 0x800) % 32) 0#8
  else 0#8

end Sys2Proof.Machine
end

