-- ==== Sys2Proof/Machine/Queues.lean ====
section
/-!
DEFINITION. The steps of user queues: taking a command, the launch it admits, its timer, and the end of a queue
(rows NOP, LAUNCH, QUEUE_TIMEOUT, QUEUE_FINAL_RECORD; R275–R297, R415).
-/
namespace Sys2Proof.Machine

/-- Count one command as taken (R272). -/
def State.countTaken (s : State) (q : Nat) : State :=
  ((s.modQueue q (fun x => { x with taken := x.taken + 1#64, outstanding := x.outstanding + 1, waits := false, preempting := false })).modPart
    (s.queuePart q) (fun p => { p with lastQueue := tabSet p.lastQueue (s.queue q).priority q })).countFull (0x20000 + 0x400 * (s.part (s.queuePart q)).leadComb + 8 * 24) 1

/-- A command that ends when it is taken: its completion joins the queue's list. -/
def State.endTaken (s : State) (q : Nat) (b : List Byte) (status detail : Nat) : State :=
  let n := (s.queue q).taken.toNat % 2 ^ 32
  (s.countTaken q).pushReady q (.cmd (chLaunchId b) n status detail (chIrq b) 0)

/-- A command that fails a header check (R281), with its counts. -/
def State.refuseHead (s : State) (q : Nat) (b : List Byte) (status detail : Nat) : State :=
  let s1 := (s.endTaken q b status detail).bump 0xA102 0 1
  if status == stContextShape then s1.bump 0x6024 0 1 else s1

/-- Take the head command of a queue for the row of kind `kind`: a poisoned slot is consumed ahead of the checks
(R415), a failing header check decides the outcome, and a sound command of the row's kind runs `f`. -/
def State.takeHead (s : State) (q kind : Nat) (f : State → List Byte → State) : State :=
  if !s.isNext q then s
  else
    let b := s.slotOf q
    if s.slotPoison q then
      let n := (s.queue q).taken.toNat % 2 ^ 32
      ((s.countTaken q).pushReady q (.cmd 0#64 n stPoisonConsumed 0 false 0)).bump 0xA102 0 1
    else if chKind b != kind && decide (chKind b ≤ 4) then s
    else match s.headerCheck q b with
      | some (st, d) => s.refuseHead q b st d
      | none => f s b

/-- Row NOP: completes when taken (R280). -/
def State.nop (s : State) (q : Nat) : State := s.takeHead q 0 (fun z b => z.endTaken q b stOk 0)

/-- The launch that a header describes, waiting for its cells (R58, R282). -/
def State.newLaunch (s : State) (q : Nat) (b : List Byte) (im : Image) (v : Variant) : Launch :=
  let x := s.queue q
  { queue := q, index := x.taken.toNat % 2 ^ 32, partition := s.queuePart q, context := x.context, image := chImageId b,
    imageBase := im.va, variant := v, launchId := chLaunchId b, genKey := chGenKey b,
    groups := (chGroups b).map (fun h => (h, match tabFind s.groups h with | some g => g.epoch | none => 0#64)),
    consts := chConsts b, inlineData := chInline b, priority := x.priority, irq := chIrq b, phase := .taken, cells := [],
    status := none, detail := 0, replayed := 0, clipped := 0, lastClip := none, sticky := 0#7, preempted := false,
    walked := [], deliveredPoison := false, deliveredSuspect := false, lostWrites := false, startTime := s.time, elapsed := 0,
    order := 0, loadsLeft := [], votes := [], tripped := false, reports := [], target := none, save := none,
    restored := false, hop := [], hopPoison := [], verdicts := 0 }

/-- Admit a launch: it is recorded with the epochs of the groups it names (R282). -/
def State.admitted (s : State) (l : Launch) : State :=
  l.groups.foldl (fun acc g => acc.arriveEpoch g.1 g.2.toNat) { s.setLaunch s.nextLaunch l with nextLaunch := s.nextLaunch + 1 }

/-- Row LAUNCH. A sound LAUNCH at the head that no free cells can hold waits, at the head of its queue (R248). -/
def State.launch (s : State) (q : Nat) : State :=
  if s.headWaits q && !s.heldBack q then s.modQueue q (fun x => { x with waits := true })
  else s.takeHead q 1 (fun z b =>
    match tabFind z.images (chImageId b) with
    | none => z
    | some im => match im.variant (2 ^ chFpLog2 b) with
      | none => z
      | some v => (z.countTaken q).admitted (z.newLaunch q b im v))

/-- Row QUEUE_TIMEOUT, for everything but a PATCH, which R202 decides. A launch that waits saved is not timed. -/
def State.queueTimeout (s : State) (q : Nat) (w : TimeoutOf) : State :=
  match w with
  | .launch l =>
    (match s.launch? l with
     | some x =>
       if x.queue != q || x.phase == .ended || x.phase == .saved || x.phase == .taken then s
       else (s.bump 0xA103 0 1).endLaunch l (some stTimeout) 0
     | none => s)
  | .work n =>
    match (s.queue q).work.find? (fun k => k.index == n && k.kind != 3) with
    | none => s
    | some k =>
      ((s.modQueue q (fun x => { x with work := x.work.filter (fun j => j.index != n) })).bump 0xA103 0 1).pushReady q
        (.cmd k.launchId k.index stTimeout 0 k.irq (s.time - k.start).toNat)

/-- Complete the admin commands that wait for something, with OK. -/
def State.adminDone (s : State) (p : AdminWaitFor → Bool) (status : Nat) (result : List Byte) : State :=
  let done := s.admin.work.filter (fun w => p w.waits)
  let s1 := { s with admin := { s.admin with work := s.admin.work.filter (fun w => !p w.waits) } }
  done.foldl (fun acc w => acc.adminRecord w.index w.cmdId w.start status 0 result) s1

/-- Row QUEUE_FINAL_RECORD: one final record, then the queue is FREE and the destroying command is answered (R295). Where the
ring is lost the record stays in the shadow and the parked list (R294, R297). -/
def State.queueFinalRecord (s : State) (q : Nat) : State :=
  let x := s.queue q
  if !s.queueDead q then s
  else
    let s1 := s.postRecord q (fun ph =>
      completionBytes 0 (x.taken.toNat % 2 ^ 32) q x.cause (ph * 128) 0 0 0 0 0 s.time.toNat) true
    let s2 := { s1 with launches := s1.launches.filter (fun l => l.2.queue != q) }
    let s3 := s2.setQueue q (s2.queue q).freed
    s3.adminDone (fun w => w == .queue q) stOk []

end Sys2Proof.Machine
end

