-- ==== Sys2Proof/Machine/Placement.lean ====
section
/-!
DEFINITION. Placing a launch, resident regions, pre-emption, saves and resumes (R51, R52, R250–R254, R260–R265).
-/
namespace Sys2Proof.Machine

/-! ## A cell at launch start (R51, R52, R252, R253) -/

/-- The cells of a memory inside `[a, a+n)`, with their flags, over undefined contents of index `k`. -/
def Memory.keepOnly (m : Memory) (k unit a n : Nat) : Memory :=
  { bytes := m.bytes.filter (fun c => decide (a ≤ c.1) && decide (c.1 < a + n))
    base := some k
    poison := m.poison.filter (fun u => decide (a / unit ≤ u) && decide (u < (a + n) / unit))
    suspect := m.suspect.filter (fun u => decide (a / unit ≤ u) && decide (u < (a + n) / unit))
    inv := false }

/-- The resident region of a rank: scratchpad offset and length (R305). -/
def Variant.resident (v : Variant) (rank : Nat) : Resident := v.residents.getD rank { spOff := 0, spLen := 0, dataOff := 0 }

/-- The tag a cell carries for a launch (R252). -/
def Launch.tag (l : Launch) (rank : Nat) : ResTag :=
  { partition := l.partition, image := l.image, footprint := l.variant.footprint, rank := rank }

/-- Lines 0 and 1 as the dispatcher writes them (R52). -/
def Launch.firstLines (l : Launch) : List Byte := l.consts ++ l.inlineData ++ List.replicate 64 0#8

/-- A cell as a launch finds it (R51): `k` is the index of its undefined contents, `load` says that its resident region
has yet to be loaded, `hold` that some cell's has, so that thread 0 does not start (R252). -/
def Cell.atLaunch (x0 : Cell) (lid : Nat) (l : Launch) (rank k : Nat) (keep load hold : Bool) : Cell :=
  let x := Cell.drainIngress { x0 with calendar := bootCalendar }
  let r := l.variant.resident rank
  let kept := if keep then x.scratch.keepOnly k 64 r.spOff r.spLen else Memory.undefined k
  { x with
    launch := some lid
    rank := rank
    threads := [(0, { Thread.idle with
      pc := BitVec.ofNat 32 l.variant.entry, status := if hold then .idle else .running })]
    sems := []
    waiters := []
    scratch := kept.store 64 0 l.firstLines false false
    tbufs := (List.range 4).map (fun t => (t, Memory.undefined (k + 1 + t)))
    calendar := bootCalendar
    layerCount := 0#14
    layer := .running
    mark := .none
    queues := []
    headAt := []
    nextSeq := 0
    recent := []
    arrived := 0
    cycles := 0#64
    genSteps := 0#64
    ingress := []
    fault := 0#64
    done := false
    streams := []
    array := { x.array with passes := [], wregs := [], loader := [] }
    quant := QuantState.reset
    bags := []
    vec := VecState.idle
    samp := { SampState.idle with segOpen := x.samp.segOpen, topK := x.samp.topK }
    residency := if load then none else some (l.tag rank) }

/-- The payload of a hop launch's record lands in the scratchpad of cell rank 0 from 0x00_0200 (R231), with its poison.
[DESIGN CHOICE, log entry 15] -/
def State.landHop (s : State) (l : Launch) (c : Nat) : State :=
  let rest := l.hop.drop 320
  (List.range ((rest.length + 63) / 64)).foldl (fun (acc : State) i =>
    acc.spWrite c (0x200 + 64 * i) ((rest.drop (64 * i)).take 64) (l.hopPoison.contains (i + 5)) false) s

/-- Does a cell carry the tag of a rank of a launch (R252)? -/
def State.resides (s : State) (l : Launch) (rc : Nat × Nat) : Bool := (s.cell rc.2).residency == some (l.tag rc.1)

/-- Must the resident region of a rank be loaded on its cell (R252)? -/
def State.mustLoad (s : State) (l : Launch) (rc : Nat × Nat) : Bool :=
  !s.resides l rc && (l.variant.resident rc.1).spLen != 0

/-- Put one rank of a launch on its cell; `hold` says that some cell of the launch has a region to load. -/
def State.placeRank (s : State) (lid : Nat) (l : Launch) (hold : Bool) (rc : Nat × Nat) : State :=
  let hit := s.resides l rc
  let s1 := s.setCell rc.2 ((s.cell rc.2).atLaunch lid l rc.1 s.free hit (s.mustLoad l rc) hold)
  let s2 := { s1 with
    free := s1.free + 5
    health := s1.health.map (fun (h : Nat × Health) => (h.1, if h.1 == rc.2 then { h.2 with sampled := 0 } else h.2)) }
  if hit then s2.bump 0x6026 0 1 else s2

/-- Place a launch on cells, rank by rank (R251); its threads start once every resident region holds its data (R252).
[DESIGN CHOICE, log entry 15; DEDUCED, log entry 77] -/
def State.placeOn (s : State) (lid : Nat) (l : Launch) (cells : List Nat) : State :=
  let ranks := (List.range cells.length).zip cells
  let left := (ranks.filter (s.mustLoad l)).map (fun (rc : Nat × Nat) => rc.1)
  let s1 := (ranks.foldl (fun (acc : State) rc => acc.placeRank lid l (!left.isEmpty) rc) s).landHop l (cells.headD 0)
  s1.setLaunch lid { l with phase := .running, cells := cells, startTime := s.time, order := s.nextOrder, loadsLeft := left }

/-- A launch without cells that the partition can no longer hold ends with CONTEXT_SHAPE (R249). -/
def State.shapeLost (s : State) (lid : Nat) : State := (s.bump 0x6024 0 1).endLaunch lid (some stContextShape) 0

/-- Row LAUNCH_PLACE (R248, R249, R254). [DEDUCED, log entry 14] -/
def State.launchPlace (s : State) (lid : Nat) : State :=
  match s.launch? lid with
  | none => s
  | some l =>
    if l.phase != .taken then s
    else if !s.everFits l.queue l.variant.footprint then s.shapeLost lid
    else if s.outranked l.partition l.priority then s
    else match s.choosePlacement l.queue l.image l.variant.footprint (s.freeCells l.queue) with
      | none => s
      | some cells => (((({ s.placeOn lid l cells with nextOrder := s.nextOrder + 1 }).modQueue l.queue (fun q =>
          { q with preempting := false })).countFull
          (0x20000 + 0x400 * (s.part l.partition).leadComb + 8 * 25) 1).countFull (0x43000 + 0x100 * l.partition) 1).traceLaunch 1 l
          (bytesLE 2 l.queue ++ bytesLE 1 l.variant.footprint ++ bytesLE 1 (cells.headD 0))

/-- Copy `n` bytes of a context's memory into a cell's scratchpad, granule by granule with poison (R263, R315). -/
def State.copyIn (s : State) (ctx va c off n : Nat) : State :=
  (List.range ((n + 63) / 64)).foldl (fun acc i =>
    match s.vread ctx .read (va + 64 * i) (min 64 (n - 64 * i)) with
    | .ok bs po su => acc.spWrite c (off + 64 * i) bs po su
    | _ => acc) s

/-- Thread 0 of every cell of a launch starts. -/
def State.startThreads (s : State) (l : Launch) : State :=
  l.cells.foldl (fun (acc : State) c => acc.modThread c 0 (fun h => { h with status := .running })) s

/-- Row RESIDENT_LOAD_DONE: a stream engine has loaded the region of a cell, through its TLB, and the tag is set; the
launch's threads start after the last one (R252). [DESIGN CHOICE, log entry 15] -/
def State.residentLoadDone (s : State) (c : Nat) : State :=
  match s.activeLaunch c with
  | none => s
  | some (lid, l) =>
    let x := s.cell c
    if !l.loadsLeft.contains x.rank then s
    else
      let r := l.variant.resident x.rank
      let ctx := match tabFind s.images l.image with | some im => im.context | none => l.context
      let tlb := tlbOf (.resident c)
      match s.tread tlb ctx .read (l.imageBase + r.dataOff) r.spLen with
      | .held => s
      | .missing va =>
        if s.stalled (.resident c) then s
        else s.startWalk { collector := combOf c, context := ctx, va := va, access := .read, who := .resident c, launch := lid, stale := false }
      | .fatal k va => s.fatalFault (combOf c) k 0 .read c ctx va (some lid) stTranslationFatal
      | .ok _ _ _ =>
        let s1 := (s.touchSpan tlb ctx (l.imageBase + r.dataOff) r.spLen).copyIn ctx (l.imageBase + r.dataOff) c r.spOff r.spLen
        let s2 := s1.modCell c (fun y => { y with residency := some (l.tag x.rank) })
        let left := l.loadsLeft.filter (· != x.rank)
        let s3 := if left.isEmpty then s2.startThreads l else s2
        ((s3.setLaunch lid { l with loadsLeft := left }).bump 0x6027 0 1).countFull
          (0x20000 + 0x400 * combOf c + 8 * 27) 1

/-! ## Pre-emption (R260, R261) -/

/-- Saves a context holds, as (address, length). -/
def State.savesOf (s : State) (ctx : Nat) : List (Nat × Nat) :=
  s.launches.filterMap (fun l => if l.2.context == ctx && !l.2.restored then l.2.save else none)

/-- Bytes of a save (R262). -/
def saveBytes (v : Variant) : Nat := 256 + v.footprint * (0x1200 + v.extent)

/-- A free run of `n` bytes in a context's save area, starting at a multiple of 256, beside the saves it holds and more
(R260, R262). -/
def State.freeRun (s : State) (ctx n : Nat) (more : List (Nat × Nat)) : Option Nat :=
  let x := s.ctx ctx
  let held := s.savesOf ctx ++ more
  let starts := x.saveBase :: held.map (fun h => roundUp (h.1 + h.2) 256)
  (starts.filter (fun a => decide (x.saveBase ≤ a) && decide (a + n ≤ x.saveBase + x.saveSize)
    && held.all (fun h => decide (a + n ≤ h.1) || decide (h.1 + h.2 ≤ a)))).head?

/-- May a launch of this image be pre-empted (R259)? -/
def State.mayPreempt (s : State) (image : Nat) : Bool :=
  match tabFind s.images image with
  | some im => !im.noPreempt && !im.pinned
  | none => false

/-- Victims in the order of R260: lowest priority first, then the most recently started. -/
def insertVictim (l : Nat × Launch) : List (Nat × Launch) → List (Nat × Launch)
  | [] => [l]
  | a :: r =>
    if l.2.priority < a.2.priority ∨ (l.2.priority = a.2.priority ∧ a.2.order < l.2.order) then l :: a :: r
    else a :: insertVictim l r

/-- What a queue's LAUNCH that waits for cells needs, as image and footprint: one taken that free cells cannot hold, or the
one at its head; a span queue's stands in a record (R248, R276). [DEDUCED, log entry 14] -/
def State.waitingFor (s : State) (q : Nat) : Option (Nat × Nat) :=
  let x := s.queue q
  match s.launches.find? (fun (l : Nat × Launch) => l.2.queue == q && l.2.phase == .taken && !s.canPlace l.2) with
  | some l => some (l.2.image, l.2.variant.footprint)
  | none =>
    if !x.waits then none
    else if x.span then x.binding.map (fun (b : Nat × Nat × Nat) => (b.2.2, 2 ^ b.2.1))
    else some (chImageId (s.slotOf q), 2 ^ chFpLog2 (s.slotOf q))

/-- Running launches of lower priority than a queue's waiting command. -/
def State.candidates (s : State) (q : Nat) : List (Nat × Launch) :=
  (s.launches.filter (fun l => l.2.phase == .running && l.2.partition == s.queuePart q
    && decide (l.2.priority < (s.queue q).priority) && s.mayPreempt l.2.image)).foldl (fun acc l => insertVictim l acc) []

/-- Runs reserved for the victims of a context. -/
def reservedRuns (ctx : Nat) (taken : List (Nat × Launch)) : List (Nat × Nat) :=
  taken.filterMap (fun v => if v.2.context == ctx then v.2.save else none)

/-- The shortest prefix of the victims, each with a run of its context's save area reserved, whose cells with the free
cells hold a placement; with it, how many were passed over for save space once the runs of others were reserved (R260). -/
def State.victimPrefix (s : State) (q image f : Nat) (cells : List Nat) (taken : List (Nat × Launch)) :
    List (Nat × Launch) → Option (List (Nat × Launch)) × Nat
  | [] => (if (s.choosePlacement q image f cells).isSome then some taken else none, 0)
  | v :: r =>
    if (s.choosePlacement q image f cells).isSome then (some taken, 0)
    else match s.freeRun v.2.context (saveBytes v.2.variant) (reservedRuns v.2.context taken) with
      | none =>
        let (got, n) := s.victimPrefix q image f cells taken r
        (got, n + 1)
      | some a =>
        let more := (List.range 128).filter (fun c => cells.contains c || v.2.cells.contains c)
        s.victimPrefix q image f more (taken ++ [(v.1, { v.2 with save := some (a, saveBytes v.2.variant) })]) r

/-- Send a mark to every cell of a victim; each answers with its layer count at receipt (R261 steps 1 and 2). -/
def State.mark (s : State) (l : Nat × Launch) : State :=
  let s1 := l.2.cells.foldl (fun acc c => acc.modCell c (fun x => { x with mark := .marked })) s
  s1.setLaunch l.1 { l.2 with
    phase := .marked, target := none
    reports := (List.range l.2.cells.length).zip (l.2.cells.map (fun c => (s.cell c).layerCount.toNat)) }

/-- Is a launch of a partition being pre-empted? -/
def State.preempts (s : State) (p : Nat) : Bool :=
  s.launches.any (fun l => l.2.partition == p && (l.2.phase == .marked || l.2.phase == .saving))

/-- Row PREEMPT_WAIT_EXPIRY: a LAUNCH that has waited `PREEMPT_WAIT_US` starts pre-emption (R248, R260). -/
def State.preemptWaitExpiry (s : State) (q : Nat) : State :=
  match s.waitingFor q with
  | none => s
  | some (image, f) =>
    if (s.queue q).preempting && s.preempts (s.queuePart q) then s
    else
      let all := s.candidates q
      let fits := fun (l : Nat × Launch) => (s.freeRun l.2.context (saveBytes l.2.variant) []).isSome
      let (found, n) := s.victimPrefix q image f (s.freeCells q) [] (all.filter fits)
      let s1 := s.bump 0x6025 0 ((all.filter (fun l => !fits l)).length + n)
      match found with
      | none => s1
      | some vs => vs.foldl State.mark (s1.modQueue q (fun y => { y with preempting := !vs.isEmpty }))

/-- The highest of layer counts that differ by at most one, modulo 16,384 (R261). -/
def highestCount (cs : List Nat) : Nat :=
  if cs.contains 0 && cs.contains 16383 then 0 else cs.foldl max 0

/-- A held cell learns the target (R261 step 4). -/
def Cell.learnTarget (x : Cell) (n : Nat) : Cell :=
  let y := { x with mark := .target n }
  match x.layer with
  | .held => if x.layerCount.toNat = n then { y with layer := .halted } else y.releaseBarrier
  | _ => y

/-- Row PREEMPT_MARK_REPLY: the counts are in, and the target is one more than the highest (R261 step 3). -/
def State.preemptMarkReply (s : State) (lid : Nat) : State :=
  match s.launch? lid with
  | none => s
  | some l =>
    if l.phase != .marked || l.target.isSome then s
    else
      let n := (highestCount (l.reports.map (fun (r : Nat × Nat) => r.2)) + 1) % 16384
      l.cells.foldl (fun acc c => acc.modCell c (fun x => x.learnTarget n)) (s.setLaunch lid { l with target := some n })

/-! ## Saves (R262–R264) -/

/-- The site number of a thread at the barrier (R262). -/
def Variant.siteIndex (v : Variant) (pc : Nat) : Nat := ((v.sites.findIdx? (fun x => x.pc == pc)).getD 0)

/-- The site pc of a thread at the barrier. -/
def Thread.sitePc (h : Thread) : Option Nat :=
  match h.waits with
  | .layer site _ => some site
  | .layerW site _ _ _ => some site
  | _ => none

/-- A thread record, 272 B (R262). -/
def threadRecord (v : Variant) (h : Thread) : List Byte :=
  (List.range 32).flatMap (fun r => bytesLE 8 (h.reg r).toNat)
  ++ bytesLE 1 (b2n h.sitePc.isSome) ++ bytesLE 1 (h.preds ||| 1#8).toNat ++ bytesLE 2 0 ++ bytesLE 4 h.sticky.toNat
  ++ bytesLE 4 (match h.sitePc with | some p => v.siteIndex p | none => 0xFFFFFFFF) ++ bytesLE 4 0

/-- The part of a cell record before the scratchpad bytes, 0x1200 B (R262). -/
def Cell.recordHead (x : Cell) (v : Variant) : List Byte :=
  bytesLE 2 x.rank ++ List.replicate 62 0#8
  ++ (List.range 16).flatMap (fun t => threadRecord v (x.thread t))
  ++ (List.range 64).flatMap (fun i => bytesLE 2 (x.sem i).toNat) ++ List.replicate 64 0#8

/-- Copy scratchpad bytes out to a context's memory, 64 B at a time with poison (R263). -/
def State.copyOut (s : State) (c off ctx va n : Nat) : State :=
  (List.range ((n + 63) / 64)).foldl (fun acc i =>
    let len := min 64 (n - 64 * i)
    acc.vwrite ctx (va + 64 * i) (s.spRead c (off + 64 * i) len) ((s.cell c).spPoison (off + 64 * i) len)) (s.noteResident c off n)

/-- The save header (R262). -/
def Launch.saveHeader (l : Launch) (groupId : Nat → Nat) (count elapsed : Nat) : List Byte :=
  bytesLE 2 0x5356 ++ bytesLE 2 1 ++ bytesLE 4 0x820 ++ bytesLE 8 l.image ++ bytesLE 8 l.launchId.toNat
  ++ bytesLE 16 l.genKey.toNat ++ bytesLE 2 l.variant.footprint ++ bytesLE 2 (count % 16384) ++ bytesLE 4 l.variant.extent
  ++ bytesLE 4 (0x1200 + l.variant.extent) ++ bytesLE 2 l.queue ++ bytesLE 2 l.context ++ bytesLE 8 elapsed
  ++ bytesLE 1 l.replayed ++ bytesLE 1 l.clipped ++ bytesLE 1 l.groups.length ++ List.replicate 5 0#8
  ++ ((List.range 8).flatMap (fun i => match l.groups[i]? with
      | some g => bytesLE 4 (groupId g.1) ++ bytesLE 4 0 ++ bytesLE 8 g.2.toNat
      | none => List.replicate 16 0#8))
  ++ List.replicate 56 0#8

/-- `GROUP_ID` of a handle. -/
def State.groupId (s : State) (h : Nat) : Nat := match tabFind s.groups h with | some g => g.id | none => 0

/-- The first page of a span that an access cannot reach. -/
def State.pageFault (s : State) (ctx : Nat) (a : Access) (va n : Nat) : Option (Nat × Option Nat) :=
  (spanPages va n).findSome? (fun p =>
    let x := max va p
    if 2 ^ 48 ≤ x then some (x, some 5)
    else match (s.ctx ctx).leaf x with
      | none => some (x, none)
      | some (e, big) =>
        if !ptePermits e a then some (x, some 1)
        else if !s.populated (leafPa e big x) then some (x, some 2) else none)

/-- The cell whose record holds an address of a save at `a` with records of `size` bytes; rank 0's for the header. -/
def saveCell (cells : List Nat) (a size x : Nat) : Nat :=
  cells.getD ((x - (a + 256)) / size) (cells.headD 0)

/-- A save or restore translates the pages of its span in order, each through the stream TLB of the comb of the cell that `cellAt`
gives, then runs `f`; a page the TLB does not hold stalls it for the walk, and a stack in throttle stage 3 for as long as that lasts
(R37, R340–R344, R348). -/
def State.throughPages (s : State) (lid : Nat) (cellAt : Nat → Nat) (ctx : Nat) (a : Access) (va : Nat) (f : State → State) : List Nat → State
  | [] => f s
  | p :: rest =>
    let x := max va p
    let comb := combOf (cellAt x)
    let who : Requester := .save lid (cellAt x)
    let done := match s.launch? lid with | some l => l.walked.contains (comb, p) | none => false
    if done then s.throughPages lid cellAt ctx a va f rest
    else match s.xlate (tlbOf who) ctx x a with
      | .fatal k => s.fatalFault comb k 0 a (cellAt x) ctx x (some lid) stTranslationFatal
      | .walk =>
        if s.stalled who then s
        else s.startWalk { collector := comb, context := ctx, va := x, access := a, who := who, launch := lid, stale := false }
      | .hit pa =>
        if !s.populated pa then s.fatalFault comb 2 0 a (cellAt x) ctx x (some lid) stTranslationFatal
        else if !s.stackOpen pa then s
        else ((s.tlbTouch (tlbOf who) ctx x).modLaunch lid (fun l => { l with walked := (comb, p) :: l.walked })).throughPages
          lid cellAt ctx a va f rest

/-- The same for a span. -/
def State.withPages (s : State) (lid : Nat) (cellAt : Nat → Nat) (ctx : Nat) (a : Access) (va n : Nat) (f : State → State) : State :=
  s.throughPages lid cellAt ctx a va f (spanPages va n)

/-- Row SAVE_START: every cell has halted, its engines and streams are idle and the launch holds no return-table entry; the
cell records are written into the run reserved in the context's save area (R261, R262). -/
def State.saveStart (s : State) (lid : Nat) : State :=
  match s.launch? lid with
  | none => s
  | some l =>
    if l.phase != .marked || !l.cells.all (fun c => (s.cell c).layer == .halted && (s.cell c).quiet)
        || s.returns.any (fun (r : Nat × RetEntry) => r.2.launch == lid) then s
    else match l.save with
      | none => s
      | some (a, _) =>
        let size := 0x1200 + l.variant.extent
        s.withPages lid (saveCell l.cells a size) l.context .write a (saveBytes l.variant) (fun z =>
          let z1 := ((List.range l.cells.length).zip l.cells).foldl (fun acc rc =>
            let at_ := a + 256 + rc.1 * size
            (acc.vwrite l.context at_ ((z.cell rc.2).recordHead l.variant) false).copyOut rc.2 0 l.context (at_ + 0x1200)
              l.variant.extent) z
          z1.setLaunch lid { l with phase := .saving, restored := false, walked := [] })

/-- Row SAVE_COMPLETE: the header is written last and the cells are free (R264). -/
def State.saveComplete (s : State) (lid : Nat) : State :=
  match s.launch? lid with
  | none => s
  | some l =>
    match l.phase, l.save with
    | .saving, some (a, _) =>
      let count := match l.cells.head? with | some c => (s.cell c).layerCount.toNat | none => 0
      let el := s.elapsedNs l
      let sticky := s.stickyOf l
      let s1 := s.vwrite l.context a (l.saveHeader s.groupId count el) false
      let s2 := l.cells.foldl (fun acc c => acc.modCell c (fun x => { x.stopThreads with launch := none })) s1
      ((s2.setLaunch lid { l with phase := .saved, preempted := true, elapsed := el, sticky := sticky, cells := [],
                                  target := none, reports := [] }).bump 0x6022 0 1).countFull
        (0x20000 + 0x400 * (s.part l.partition).leadComb + 8 * 26) 1
    | _, _ => s

/-! ## Resume (R265) -/

/-- A thread as its record restores it: at the barrier it runs on from the instruction after its site. -/
def threadOfRecord (v : Variant) (r : List Byte) : Thread :=
  let site := leAt r 0x108 4
  let at_ := leAt r 0x100 1 == 1
  { regs := (List.range 31).map (fun i => (i + 1, BitVec.ofNat 64 (leAt r (8 * (i + 1)) 8)))
    preds := BitVec.ofNat 8 (leAt r 0x101 1) ||| 1#8
    pc := if at_ then BitVec.ofNat 32 ((match v.sites[site]? with | some x => x.pc | none => 0) + 4) else 0#32
    status := if at_ then .running else .idle
    sticky := BitVec.ofNat 32 (leAt r 0x104 4)
    waits := .nothing
    stores := []
    spStores := [] }

/-- The lowest-numbered thread record that stood at the barrier. -/
def firstAtBarrier (head : List Byte) : Option (List Byte) :=
  ((List.range 16).map (fun t => (head.drop (0x40 + 272 * t)).take 272)).find? (fun r => leAt r 0x100 1 == 1)

/-- Offset in the image of the calendar that a resume loads (R265, R305). -/
def Variant.resumeCal (v : Variant) (r : List Byte) : Nat :=
  match v.sites[leAt r 0x108 4]? with
  | some x => if x.pred != 0 && bitAt (leAt r 0x101 1) x.pred then x.calWide else x.cal
  | none => 0

/-- Restore one cell from its record, of the size and extent that the save's header states (R262, R265). [DESIGN CHOICE, log entry 176] -/
def State.restoreCell (s : State) (lid : Nat) (l : Launch) (a size extent count : Nat) (rc : Nat × Nat) : State :=
  let at_ := a + 256 + rc.1 * size
  let c := rc.2
  match s.vread l.context .read at_ 0x1200 with
  | .ok head _ _ =>
    let ictx := match tabFind s.images l.image with | some im => im.context | none => l.context
    let cal := match firstAtBarrier head with
      | some r => match s.vread ictx .read (l.imageBase + l.variant.resumeCal r) 64 with
        | .ok bs _ _ => calOfBytes bs
        | _ => bootCalendar
      | none => bootCalendar
    let x := (s.cell c).atLaunch lid l rc.1 s.free false false false
    let y := { x with
      threads := (List.range 16).map (fun t => (t, threadOfRecord l.variant ((head.drop (0x40 + 272 * t)).take 272)))
      sems := (List.range 64).map (fun i => (i, BitVec.ofNat 16 (leAt head (0x1140 + 2 * i) 2)))
      calendar := cal
      layerCount := BitVec.ofNat 14 count }
    (({ s with free := s.free + 5 }).setCell c y).copyIn l.context (at_ + 0x1200) c 0 extent
  | _ => s

/-- Is a saved launch the one that R247 has resume now: no LAUNCH outranks it or is about to take cells, no command of
higher priority can be taken, and no saved launch of higher priority can be placed? -/
def State.mayResume (s : State) (l : Launch) : Bool :=
  !s.outranked l.partition l.priority && !s.placing l.partition
  && s.queues.all (fun (r : Nat × Queue) => decide (r.2.priority ≤ l.priority) || s.queuePart r.1 != l.partition || !s.takeable r.1)
  && s.launches.all (fun (r : Nat × Launch) => r.2.phase != .saved || r.2.partition != l.partition || decide (r.2.priority ≤ l.priority)
      || !s.canPlace r.2)

/-- The records of a save go to the cells, and the launch runs on (R265). -/
def State.restoreOn (s : State) (lid : Nat) (l : Launch) (cells : List Nat) (a size extent count : Nat) : State :=
  s.withPages lid (saveCell cells a size) l.context .read a (256 + l.variant.footprint * size) (fun z =>
    let z1 := ((List.range cells.length).zip cells).foldl (fun acc rc => acc.restoreCell lid l a size extent count rc) z
    ({ z1.setLaunch lid { l with phase := .running, cells := cells, save := none, startTime := z.time, order := z.nextOrder,
                                 loadsLeft := [], walked := [] } with nextOrder := z.nextOrder + 1 }).bump 0x6023 0 1)

/-- Row RESUME (R247, R249, R265). -/
def State.resume (s : State) (lid : Nat) : State :=
  match s.launch? lid with
  | none => s
  | some l =>
    match l.phase, l.save with
    | .saved, some (a, _) =>
      if !s.everFits l.queue l.variant.footprint then s.shapeLost lid
      else if !s.mayResume l then s
      else (match s.choosePlacement l.queue l.image l.variant.footprint (s.freeCells l.queue) with
       | none => s
       | some cells => s.withPages lid (fun _ => cells.headD 0) l.context .read a 256 (fun z =>
           match z.vread l.context .read a 256 with
           | .ok h _ _ => z.restoreOn lid l cells a (leAt h 0x30 4) (leAt h 0x2C 4) (leAt h 0x2A 2 % 16384)
           | _ => z))
    | _, _ => s

end Sys2Proof.Machine
end

