-- ==== Sys2Proof/Machine/Admin.lean ====
section
/-!
DEFINITION. The admin queue: its registers, how a command is taken, refused, answered or held (R298–R302).
-/
namespace Sys2Proof.Machine

/-! ## Registers (R298) -/

/-- Row ADM_DB_TAIL, as far as the register: a rising value announces commands; others are ignored. -/
def State.setAdmTail (s : State) (v : DWord) : State :=
  if s.admin.running && s.admin.tail.ult v then { s with admin := { s.admin with tail := v } } else s

/-- Row ADM_CQ_HEAD: records consumed. -/
def State.admCqHead (s : State) (v : DWord) : State :=
  if s.admin.running && s.admin.cqHead.ult v && !(s.admin.posted.ult v) then { s with admin := { s.admin with cqHead := v } } else s

/-- Row NOTE_HEAD: room returns and held notices are written (R306). -/
def State.noteHead (s : State) (v : DWord) : State :=
  if s.admin.noteHead.ult v && !(s.admin.notes.ult v) then
    let s1 := { s with admin := { s.admin with noteHead := v } }
    s1.flushNotices s1.admin.held
  else s

/-- Row ADM_CTRL: writing 1 resets the admin counts and starts; executing commands finish and their records are
discarded (R298). After a host reset the host-bound path opens again and held notices are written (R369). [DEDUCED, log entry 11] -/
def State.admCtrl (s : State) (v : DWord) : State :=
  if v != 1#64 then s
  else
    let s1 := { s with
      host := { s.host with discarding := false }
      admin := { s.admin with
           running := true, tail := 0#64, cqHead := 0#64, noteHead := 0#64, taken := 0#64, posted := 0#64, notes := 0#64,
           start := s.admin.start + 1 } }
    s1.flushNotices s1.admin.held

/-- Row ADMIN_IRQ_HOLDOFF_EXPIRY. -/
def State.adminHoldoff (s : State) : State :=
  if !s.admin.holdoff then s
  else if s.admin.irqPending && s.admin.irqEn then
    ({ s with admin := { s.admin with irqPending := false } }).post (.msix s.admin.irqVector.toNat)
  else { s with admin := { s.admin with holdoff := false, irqPending := false } }

/-! ## Slots and headers (R270, R299) -/

/-- Device address of the slot of admin command `n`. -/
def admSlotAddr (n : Nat) : Nat := 0x6000000000 + n % 256 * 1024

/-- The slot at the head of the admin ring. -/
def State.admSlot (s : State) : List Byte := (s.dramView (admSlotAddr s.admin.taken.toNat) 1024).1
def State.admPoison (s : State) : Bool := (s.dramView (admSlotAddr s.admin.taken.toNat) 1024).2

def ahOpcode (b : List Byte) : Nat := leAt b 0 1
def ahLen (b : List Byte) : Nat := leAt b 2 2
def ahTag (b : List Byte) : Nat := leAt b 4 4
def ahCmdId (b : List Byte) : DWord := BitVec.ofNat 64 (leAt b 8 8)
def ahPayload (b : List Byte) : List Byte := (b.drop 32).take (ahLen b)
/-- RSV bytes of the header zero? -/
def ahRsvOk (b : List Byte) : Bool := leAt b 1 1 == 0 && leAt b 16 16 == 0

/-- The opcodes the manual defines (R302). -/
def adminOpcodes : List Nat :=
  [0x01, 0x02, 0x03, 0x08, 0x09, 0x10, 0x11, 0x12, 0x18, 0x19, 0x20, 0x21, 0x22, 0x28, 0x29, 0x2A, 0x2B, 0x2C, 0x2D,
   0x30, 0x31, 0x32, 0x33, 0x38, 0x39, 0x3A, 0x40, 0x41, 0x42, 0x43, 0x44, 0x48, 0x49, 0x50, 0x51]

/-- May an admin command be taken: the data path (R417) and the queue running, announced, room for its record in the ring and in the post
buffer, and no command holding the queue (R275, R299, R300)? In DRAINING and DISABLED the queue runs while Bus Master Enable is set (R366). -/
def State.admReady (s : State) : Bool :=
  s.running && s.admin.running && (s.host.fn == .active || s.host.bme) && s.postRoom 32 && s.admin.taken.ult s.admin.tail
  && decide (s.admin.work.length + (s.admin.posted - s.admin.cqHead).toNat < 256)
  && !s.admin.work.any (·.blocks)

/-- What a payload names, by opcode: (kind, number) with kinds 0 queue, 1 context, 2 partition, 3 window (R300). [DEDUCED, log entry 55] -/
def State.adminNames (s : State) (op : Nat) (p : List Byte) : List (Nat × Nat) :=
  match op with
  | 0x01 => [(2, leAt p 0 1)] | 0x02 => [(2, leAt p 0 1)] | 0x03 => [(2, leAt p 0 1)]
  | 0x08 => [(1, leAt p 0 2), (2, leAt p 2 1)] | 0x09 => [(1, leAt p 0 2)]
  | 0x10 => [(0, leAt p 0 2), (1, leAt p 2 2)] | 0x11 => [(0, leAt p 0 2)] | 0x12 => [(0, leAt p 0 2)]
  | 0x18 => [(1, leAt p 0 2)]
  | 0x20 => [(2, leAt p 0 1)] | 0x22 => [(0, leAt p 4 2)]
  | 0x2B => [(1, leAt p 8 2)] | 0x2C => [(1, leAt p 8 2)]
  | 0x30 => [(1, leAt p 2 2), (3, (s.ctx (leAt p 2 2)).partition * 256 + leAt p 0 1)]
  | 0x31 => [(2, leAt p 0 1), (3, leAt p 0 1 * 256 + leAt p 1 1)] | 0x32 => [(1, leAt p 0 2)]
  | 0x38 => if leAt p 0 1 == 0 then [(1, leAt p 4 2)] else if leAt p 0 1 == 1 then [(0, leAt p 4 2)] else []
  | 0x39 => [(0, leAt p 0 2)] | 0x3A => [(0, leAt p 0 2)]
  | 0x40 => [(1, leAt p 0 2)] | 0x41 => [(1, leAt p 0 2)] | 0x42 => [(1, leAt p 0 2)] | 0x43 => [(1, leAt p 0 2)]
  | 0x44 => [(1, leAt p 0 2)]
  | 0x48 => [(1, leAt p 4 2)]
  | _ => []

/-- What a command that waits beside the admin queue names. [DEDUCED, log entry 55] -/
def State.waitNames (s : State) : AdminWaitFor → List (Nat × Nat)
  | .queue q => [(0, q)]
  | .context c => [(1, c)]
  | .partition p => [(2, p)]
  | .window p w => [(2, p), (3, p * 256 + w)]
  | .drain d => (s.drains.filter (fun x => x.id == d)).map (fun x => (1, x.context))
  | _ => []

/-- Is the head command held by a waiting one that names the same object (R300)? A QUEUE_DESTROY of a DYING queue is not:
it waits for the same final record (R295). [DEDUCED, log entry 55] -/
def State.admHeld (s : State) (b : List Byte) : Bool :=
  let n := s.adminNames (ahOpcode b) (ahPayload b)
  !(ahOpcode b == 0x11 && (s.queue (leAt (ahPayload b) 0 2)).status == QueueStatus.dying) && s.admin.work.any (fun w => (s.waitNames w.waits).any (fun x => n.contains x))

/-- How an admin command ends. -/
inductive AdminEnd where
  | reply (s : State) (status detail : Nat) (result : List Byte)
  /-- It waits, holding the admin queue or not (R300). -/
  | wait (s : State) (for_ : AdminWaitFor) (blocks : Bool)
  /-- It stays at the head: memory that it reads lies in a stack in throttle stage 3 (R37). -/
  | later

/-- Refused with a status; nothing changes. -/
def AdminEnd.no (s : State) (status : Nat) : AdminEnd := .reply s status 0 []
/-- Done with OK. -/
def AdminEnd.ok (s : State) (result : List Byte) : AdminEnd := .reply s stOk 0 result

/-- Answer the command at the head. -/
def State.admAnswer (s : State) (b : List Byte) (e : AdminEnd) : State :=
  let n := s.admin.taken.toNat
  let cmdId := ahCmdId b
  match e with
  | .reply z st d r =>
    ({ z with admin := { z.admin with taken := z.admin.taken + 1#64 } }).adminRecord n cmdId s.admin.start st d r
  | .wait z w blocks =>
    { z with admin := { z.admin with
        taken := z.admin.taken + 1#64
        work := z.admin.work ++ [{ index := n, cmdId := cmdId, waits := w, start := s.admin.start, blocks := blocks }] } }
  | .later => s

/-- Refuse a slot that no row serves: poisoned (R415), a wrong ring tag, a reserved opcode or a non-zero RSV byte of the
header (R299, R302). `none`: the slot is sound. -/
def State.admRefusal (s : State) (b : List Byte) : Option (Nat × Nat) :=
  if s.admPoison then some (stPoisonConsumed, 0)
  else if ahTag b ≠ s.admin.taken.toNat % 2 ^ 32 then some (stIllegalOp, 2)
  else if !adminOpcodes.contains (ahOpcode b) || !ahRsvOk b || decide (992 < ahLen b) then some (stIllegalOp, 0)
  else none

/-- Refuse the slots at the head that no row serves, up to `fuel` of them. -/
def State.admSkip (s : State) : Nat → State
  | 0 => s
  | fuel + 1 =>
    if !s.admReady then s
    else match s.admRefusal s.admSlot with
      | some (st, d) => (s.admAnswer s.admSlot (.reply s st d [])).admSkip fuel
      | none => s

/-- Run the head admin command if it is opcode `op`: a payload of another length is refused with ILLEGAL_OP
(R304, `len = none`: the command checks its own length). -/
def State.admRun (s : State) (op : Nat) (len : Option Nat) (f : State → List Byte → AdminEnd) : State :=
  let s0 := s.admSkip 256
  let b := s0.admSlot
  if !s0.admReady || ahOpcode b != op || s0.admHeld b then s0
  else if len.isSome && len != some (ahLen b) then s0.admAnswer b (.no s0 stIllegalOp)
  else s0.admAnswer b (f s0 (ahPayload b))

/-- Row ADM_DB_TAIL. -/
def State.admDbTail (s : State) (v : DWord) : State := (s.setAdmTail v).admSkip 256

end Sys2Proof.Machine
end

