-- ==== Sys2Proof/Machine/BagBlock.lean ====
section
/-!
DEFINITION. Bag blocks: reading and checking them, and the lookups of a bag (R166–R170, R177, R181, R218).
-/
namespace Sys2Proof.Machine

/-- Why a read of a bag block stops. [DESIGN CHOICE, log entry 148] -/
inductive BagStop where
  /-- The page of a context must be walked; or the read is fatal. -/
  | missing (ctx va : Nat)
  | fatal (ctx kind va : Nat)
  | poison (suspect : Bool)
  /-- R181: table and bag, 0 where none is known. -/
  | fault (table bag : Nat)
  /-- R178: `FORAGER_ERR` code, table, bag, row or history. -/
  | range (code table bag row : Nat)
  /-- A stack in throttle stage 3 holds what must be read: nothing is lost, and the read is made again (R37). -/
  | held
deriving DecidableEq, Repr

/-- A segment descriptor (R167), with the number of its first bag. -/
structure Seg where
  kind : Nat
  pool : Nat
  idx64 : Bool
  weighted : Bool
  outFmt : Nat
  tfirst : Nat
  tcycle : Nat
  bags : Nat
  fixed : Nat
  idxOff : Nat
  offsOff : Nat
  wtOff : Nat
  outOff : Nat
  outStride : Nat
  start : Nat
deriving DecidableEq, Repr

/-- Bytes of the block at an offset through TLB `k`, with their poison and suspect flags (R340). [DEDUCED, log entry 57] -/
def State.bagRead (s : State) (k : Nat) (w : BagWork) (off n : Nat) : Except BagStop (List Byte × Bool × Bool) :=
  if w.home.isSome then
    .ok ((w.block.drop off).take n ++ List.replicate (n - ((w.block.drop off).take n).length) 0#8,
      w.blockPoison.any (fun g => decide (off / 64 ≤ g) && decide (g ≤ (off + n - 1) / 64)) && n != 0, false)
  else match s.tread k w.context .read (w.va + off) n with
    | .ok bs po su => .ok (bs, po, su)
    | .missing va => .error (.missing w.context va)
    | .fatal x va => .error (.fatal w.context x va)
    | .held => .error .held

/-- A read of control data: poison is consumed (R412). -/
def State.bagCtl (s : State) (k : Nat) (w : BagWork) (off n : Nat) : Except BagStop (List Byte) :=
  match s.bagRead k w off n with
  | .error e => .error e
  | .ok (bs, po, su) => if po then .error (.poison su) else .ok bs

/-- The segment that 64 descriptor bytes spell. -/
def segOf (b : List Byte) (start : Nat) : Seg :=
  { kind := leAt b 0 1, pool := leAt b 1 1, idx64 := bitAt (leAt b 2 1) 0, weighted := bitAt (leAt b 2 1) 1, outFmt := leAt b 3 1
    tfirst := leAt b 4 2, tcycle := leAt b 6 2, bags := leAt b 8 4, fixed := leAt b 0xC 4, idxOff := leAt b 0x10 4
    offsOff := leAt b 0x14 4, wtOff := leAt b 0x18 4, outOff := leAt b 0x1C 4, outStride := leAt b 0x20 4, start := start }

/-- Reserved codes, ranges, alignment and RSV fields of a descriptor (R167, R181). -/
def segOk (b : List Byte) : Bool :=
  let g := segOf b 0
  decide (g.kind ≤ 2) && decide (g.pool ≤ 2) && decide (g.outFmt ≤ 4) && field (leAt b 2 1) 7 2 == 0
  && decide (g.tfirst ≤ 4095) && decide (1 ≤ g.tcycle) && decide (g.tcycle ≤ 4096) && decide (1 ≤ g.bags)
  && (if g.kind == 1 then decide (1 ≤ g.fixed) && decide (g.fixed ≤ 65536) else g.fixed == 0)
  && g.idxOff % 256 == 0
  && (if g.kind == 0 then g.offsOff % 4 == 0 else g.offsOff == 0)
  && (if g.weighted then g.wtOff % 4 == 0 && g.kind != 2 else g.wtOff == 0)
  && g.outOff % 32 == 0 && g.outStride % 32 == 0 && allZero (b.drop 0x24)

/-- Bytes of an output element: fp32, bf16, fp16, fp8 (R167). -/
def outElemBytes (f : Nat) : Nat := if f == 0 then 4 else if f ≤ 2 then 2 else 1
/-- The output format as an element format code. -/
def outElem (f : Nat) : Nat :=
  match f with
  | 0 => 10 | 1 => 7 | 2 => 8 | 3 => 4 | _ => 5

/-- The table of bag `i` of a segment (R168). -/
def Seg.table (g : Seg) (i : Nat) : Nat := g.tfirst + i % g.tcycle

/-- The tables a segment names. -/
def Seg.tables (g : Seg) : List Nat := (List.range (min g.tcycle g.bags)).map (fun i => g.tfirst + i)

/-- Members a row is split over: the tables of a span are not column-split (R216, R228). -/
def Group.split (g : Group) : Nat := if g.kind == 0 then g.size else 1

/-- The rank of a work's home device in its group, which R218 calls `RANK`: this device's own for its own commands. -/
def BagWork.homeRank (w : BagWork) (gr : Group) : Nat :=
  match w.home with
  | some (addr, _) => gr.members.findIdx (· == addr)
  | none => gr.rank

/-- Does full output row `row` of a segment lie below the hole (R179, R218), where the home device has rank `rank`? -/
def State.rowBelowHole (s : State) (handle : Nat) (gr : Group) (rank : Nat) (g : Seg) (t row : Nat) : Bool :=
  match s.table? handle t with
  | none => false
  | some d =>
    let b := recWidth d.record * outElemBytes g.outFmt
    decide (g.outOff - (if gr.split == 1 then 0 else rank * b) + row * g.outStride + gr.split * b ≤ scratchBytes)

/-- Output rows that bags `[first, first + count)` of the block leave in a segment, one a bag. -/
def Seg.covered (g : Seg) (first count : Nat) : Nat :=
  min (g.start + g.bags) (first + count) - max g.start first

/-- The last output row that a bag of table `t` writes under SUM and MEAN, counted from the first bag of the segment that bags
`[first, first + count)` cover: the table serves the bags whose position leaves its place in the cycle (R168). -/
def Seg.lastRow (g : Seg) (first count t : Nat) : Option Nat :=
  let n := g.covered first count
  let last := max first g.start - g.start + n - 1
  let back := (last + g.tcycle - (t - g.tfirst)) % g.tcycle
  if back < n then some (n - 1 - back) else none

/-- The checks of a segment against a table it names, and of its rows' places (R168, R179, R181, R218): `row` is the last output
row that a bag of the table writes (SUM and MEAN), `rank` the home device's rank. -/
def State.segTableOk (s : State) (handle : Nat) (gr : Group) (rank : Nat) (g : Seg) (row : Option Nat) (t : Nat) : Bool :=
  match s.table? handle t with
  | none => false
  | some d =>
    let b := recWidth d.record * outElemBytes g.outFmt
    recSeq d.record == (g.kind == 2)
    && decide (gr.split * b ≤ g.outStride)
    && (gr.split == 1 || (b % 32 == 0 && decide (rank * b ≤ g.outOff)))
    && (match row with | some r => s.rowBelowHole handle gr rank g t r | none => true)

/-- The first table of a segment that fails its checks for a work. -/
def State.segBad (s : State) (w : BagWork) (gr : Group) (g : Seg) : Option Nat :=
  g.tables.find? (fun t =>
    !s.segTableOk w.handle gr (w.homeRank gr) g (if g.pool == 2 then none else g.lastRow w.first w.count t) t)

/-- Read the segment descriptors. -/
def State.readSegs (s : State) (k : Nat) (w : BagWork) : Nat → Nat → Nat → Except BagStop (List Seg)
  | 0, _, _ => .ok []
  | n + 1, i, start =>
    match s.bagCtl k w (64 + 64 * i) 64 with
    | .error e => .error e
    | .ok b =>
      if !segOk b then .error (.fault 0 start)
      else match s.readSegs k w n (i + 1) (start + (segOf b 0).bags) with
        | .error e => .error e
        | .ok r => .ok (segOf b start :: r)

/-- Read and check the header and every descriptor (R166, R167, R181). -/
def State.readBlock (s : State) (k : Nat) (w : BagWork) : Except BagStop (List Seg) :=
  match s.group? w.handle with
  | none => .error (.fault 0 0)
  | some gr =>
    if gr.partition != w.partition || w.va % 64 != 0 then .error (.fault 0 0)
    else match s.bagCtl k w 0 64 with
      | .error e => .error e
      | .ok h =>
        let n := leAt h 2 2
        if leAt h 0 2 != 0x4247 || n == 0 || decide (64 < n) || !allZero (h.drop 8) then .error (.fault 0 0)
        else match s.readSegs k w n 0 0 with
          | .error e => .error e
          | .ok segs =>
            let total := (segs.map (·.bags)).sum
            if leAt h 4 4 != total || decide (total < w.first + w.count) then .error (.fault 0 0)
            else match segs.findSome? (fun g => (s.segBad w gr g).map (fun t => (t, g.start))) with
              | some (t, bag) => .error (.fault t bag)
              | none => .ok segs

/-! ## The lookups of a bag -/

/-- The segment of a bag of the block, and its position in the list. -/
def segOfBag (segs : List Seg) (bag : Nat) : Option (Nat × Seg) :=
  ((List.range segs.length).zip segs).find? (fun p => decide (p.2.start ≤ bag) && decide (bag < p.2.start + p.2.bags))

/-- The index entries [a, b) of a CSR or FIXED bag (R168). -/
def State.bagSpan (s : State) (k : Nat) (w : BagWork) (g : Seg) (i : Nat) : Except BagStop (Nat × Nat) :=
  if g.kind == 1 then .ok (i * g.fixed, (i + 1) * g.fixed)
  else match s.bagCtl k w (g.offsOff + 4 * i) 8 with
    | .error e => .error e
    | .ok b =>
      let x := leAt b 0 4
      let y := leAt b 4 4
      if (i == 0 && x != 0) || decide (y < x) || decide (65536 < y - x) then .error (.fault (g.table i) (g.start + i)) else .ok (x, y)

/-- A row a lookup names, before fetches are shared: slot, row and its virtual address; a zero row; a cut event;
an event whose directory entry is poisoned (R180). -/
inductive RowRef where
  | row (slot row va : Nat)
  | zero
  | cut
  | lost
deriving DecidableEq, Repr

/-- A lookup with its weight; `oor` says it counts in `OOR_EVENTS`. -/
structure RawLookup where
  ref : RowRef
  weight : Nat
  wPoison : Bool
  wSuspect : Bool
  oor : Bool
deriving DecidableEq, Repr

/-- fp32 1.0. -/
def fp32One : Nat := 0x3F800000

/-- The row an index selects under the out-of-range policy (R177). -/
def indexRow (d : TableDesc) (inForce : Option Nat) (r : Nat) : Except Nat (RowRef × Bool) :=
  let n := recRows d.record
  match inForce with
  | none => if recOor d.record == 2 then .error r else .ok (.zero, true)
  | some k =>
    let at_ := fun x => RowRef.row k x ((d.slot k).rowBase + x * rowStride d.record)
    if r < n then .ok (at_ r, false)
    else if recOor d.record == 0 then .ok (.zero, true)
    else if recOor d.record == 1 then .ok (at_ (n - 1), true)
    else .error r

/-- The lookups of the index entries of a bag from entry `e` on, `fuel` of them: those that enter the skimmer, and the stop
that ends them. A lookup out of range under ERROR enters and is counted before it stops the bag (R178). -/
def State.indexLookups (s : State) (k : Nat) (w : BagWork) (g : Seg) (bag t : Nat) (d : TableDesc) (v : Option Nat) :
    Nat → Nat → List RawLookup × Option BagStop
  | 0, _ => ([], none)
  | fuel + 1, e =>
    let n := if g.idx64 then 8 else 4
    match s.bagCtl k w (g.idxOff + n * e) n with
    | .error x => ([], some x)
    | .ok ib =>
      match (if g.weighted then s.bagRead k w (g.wtOff + 4 * e) 4 else .ok (bytesLE 4 fp32One, false, false)) with
      | .error x => ([], some x)
      | .ok (wb, po, su) =>
        let one := fun (ref : RowRef) (oor : Bool) =>
          ({ ref := ref, weight := leNat wb, wPoison := po, wSuspect := su, oor := oor } : RawLookup)
        match indexRow d v (leNat ib) with
        | .error r => ([one .zero true], some (.range 1 t bag r))
        | .ok (ref, oor) =>
          let (rest, stop) := s.indexLookups k w g bag t d v fuel (e + 1)
          (one ref oor :: rest, stop)

/-- A lookup of a range entry. -/
def rangeLookup (ref : RowRef) (oor : Bool) : RawLookup :=
  { ref := ref, weight := fp32One, wPoison := false, wSuspect := false, oor := oor }

/-- The lookups of a range entry that enter the skimmer, and the stop that ends them. -/
structure RangeRead where
  lookups : List RawLookup
  /-- Poison and suspect of its directory entry (R180). -/
  poison : Bool
  suspect : Bool
  stop : Option BagStop
deriving DecidableEq, Repr

/-- The lookups of a range entry: history `h`, events `a` to `a + n − 1` (R169, R177), and the poison of its directory
entry. A poisoned entry names no row (R180); one with a non-zero RSV field is refused like the bag block (R9, R181). [DESIGN CHOICE, log entry 148] -/
def State.rangeLookups (s : State) (k : Nat) (bag t : Nat) (d : TableDesc) (v : Option Nat) (h a n : Nat) : RangeRead :=
  let oor := recOor d.record
  let clean := fun (ls : List RawLookup) => ({ lookups := ls, poison := false, suspect := false, stop := none } : RangeRead)
  let stopped := fun (ls : List RawLookup) (e : BagStop) => ({ lookups := ls, poison := false, suspect := false, stop := some e } : RangeRead)
  if n = 0 then clean []
  else match v with
    | none => if oor == 2 then stopped [rangeLookup .zero true] (.range 2 t bag h) else clean (List.replicate n (rangeLookup .zero true))
    | some i =>
      let rows := recRows d.record
      let out := decide (rows ≤ h)
      if out && oor == 2 then stopped [rangeLookup .zero true] (.range 2 t bag h)
      else if out && oor == 0 then clean (List.replicate n (rangeLookup .zero true))
      else
        let h' := if out then rows - 1 else h
        let sl := d.slot i
        match s.tread k sl.context .read (sl.dirBase + 16 * h') 16 with
        | .missing va => stopped [] (.missing sl.context va)
        | .fatal x va => stopped [] (.fatal sl.context x va)
        | .held => stopped [] .held
        | .ok b po su =>
          let first := leAt b 0 8
          let len := leAt b 8 4
          let event := fun (e : Nat) =>
            if e < len then rangeLookup (.row i (first + e) (sl.rowBase + (first + e) * rowStride d.record)) out
            else if oor == 1 then rangeLookup .cut true
            else rangeLookup .zero true
          if po then { lookups := List.replicate n (rangeLookup .lost out), poison := true, suspect := su, stop := none }
          else if leAt b 12 4 != 0 then stopped [] (.fault t bag)
          else if oor == 2 && decide (len < a + n) then
            stopped ((List.range (max len a + 1 - a)).map (fun j => event (a + j))) (.range 2 t bag h)
          else { lookups := (List.range n).map (fun j => event (a + j)), poison := false, suspect := su, stop := none }

/-- A bag as the skimmer reads it. -/
structure RawBag where
  bag : Nat
  seg : Nat
  table : Nat
  width : Nat
  lookups : List RawLookup
  poison : Bool
  suspect : Bool
  /-- The version in force differs from the one a fan-out carries (R198). -/
  mismatch : Bool
deriving DecidableEq, Repr

/-- Why the reading of a bag stops, and the lookups that entered the skimmer before it did (R178, R186). -/
structure BagHalt where
  stop : BagStop
  seg : Nat
  table : Nat
  lookups : List RawLookup
deriving DecidableEq, Repr

/-- `TVER` of the slot in force, 0 where there is none. -/
def TableDesc.tverAt (d : TableDesc) (e : Nat) : Nat := match d.inForce e with | some k => (d.slot k).tver | none => 0

/-- Read bag `bag` of the block. [DESIGN CHOICE, log entry 148] -/
def State.readBag (s : State) (k : Nat) (w : BagWork) (segs : List Seg) (bag : Nat) : Except BagHalt RawBag :=
  match segOfBag segs bag with
  | none => .error { stop := .fault 0 bag, seg := 0, table := 0, lookups := [] }
  | some (n, g) =>
    let i := bag - g.start
    let t := g.table i
    let halt := fun (e : BagStop) (ls : List RawLookup) => ({ stop := e, seg := n, table := t, lookups := ls } : BagHalt)
    match s.table? w.handle t with
    | none => .error (halt (.fault t bag) [])
    | some d =>
      let v := d.inForce w.epoch
      let mm := w.home.isSome && w.versions.any (fun p => p.1 == t && p.2 != d.tverAt w.epoch)
      let whole := fun (ls : List RawLookup) (po su : Bool) =>
        ({ bag := bag, seg := n, table := t, width := recWidth d.record, lookups := ls, poison := po, suspect := su, mismatch := mm } : RawBag)
      if g.kind == 2 then
        match s.bagCtl k w (g.idxOff + 16 * i) 16 with
        | .error e => .error (halt e [])
        | .ok b =>
          if 65536 < leAt b 12 4 then .error (halt (.fault t bag) [])
          else
            let r := s.rangeLookups k bag t d v (leAt b 0 8) (leAt b 8 4) (leAt b 12 4)
            match r.stop with
            | some e => .error (halt e r.lookups)
            | none => .ok (whole r.lookups r.poison r.suspect)
      else match s.bagSpan k w g i with
        | .error e => .error (halt e [])
        | .ok (a, b) =>
          match s.indexLookups k w g bag t d v (b - a) a with
          | (ls, some e) => .error (halt e ls)
          | (ls, none) => .ok (whole ls false false)

/-- The lookups a bag makes, without reading its indices: its output rows under NONE. -/
def State.bagLookupCount (s : State) (k : Nat) (w : BagWork) (g : Seg) (i : Nat) : Except BagStop Nat :=
  if g.kind == 2 then
    match s.bagCtl k w (g.idxOff + 16 * i) 16 with
    | .error e => .error e
    | .ok b => if 65536 < leAt b 12 4 then .error (.fault (g.table i) (g.start + i)) else .ok (leAt b 12 4)
  else match s.bagSpan k w g i with
    | .error e => .error e
    | .ok (a, b) => .ok (b - a)

/-- Output rows of the bags `[from, from + n)` of a segment under NONE. -/
def State.rowsBefore (s : State) (k : Nat) (w : BagWork) (g : Seg) : Nat → Nat → Except BagStop Nat
  | 0, _ => .ok 0
  | n + 1, i =>
    match s.bagLookupCount k w g i with
    | .error e => .error e
    | .ok x =>
      match s.rowsBefore k w g n (i + 1) with
      | .error e => .error e
      | .ok y => .ok (x + y)

/-- Number of the first output row of a bag, counted from the first bag of its segment that the command covers, and how
many rows it writes (R179). -/
def State.bagRows (s : State) (k : Nat) (w : BagWork) (g : Seg) (bag lookups : Nat) : Except BagStop (Nat × Nat) :=
  let i0 := max w.first g.start - g.start
  let i := bag - g.start
  if g.pool != 2 then .ok (i - i0, 1)
  else match s.rowsBefore k w g (i - i0) i0 with
    | .error e => .error e
    | .ok r => .ok (r, lookups)

/-- The pages that reading a bag goes through, as (context, address, length): header and descriptors, offsets, indices or
range entry, weights, directory entry. -/
def State.bagPages (s : State) (k : Nat) (w : BagWork) (segs : List Seg) (bag : Nat) : List (Nat × Nat × Nat) :=
  match segOfBag segs bag with
  | none => []
  | some (_, g) =>
    let i := bag - g.start
    let block := fun (off n : Nat) => if w.home.isSome then [] else [(w.context, w.va + off, n)]
    let size := if g.idx64 then 8 else 4
    let (a, b) := match s.bagSpan k w g i with | .ok x => x | .error _ => (0, 0)
    block 0 (64 + 64 * segs.length)
    ++ (if g.kind == 0 then block (g.offsOff + 4 * i) 8 else [])
    ++ (if g.kind == 2 then block (g.idxOff + 16 * i) 16 else block (g.idxOff + size * a) (size * (b - a)))
    ++ (if g.weighted then block (g.wtOff + 4 * a) (4 * (b - a)) else [])
    ++ (if g.kind != 2 then [] else match s.table? w.handle (g.table i), s.bagCtl k w (g.idxOff + 16 * i) 16 with
      | some d, .ok e =>
        (match d.inForce w.epoch with
         | some j => [((d.slot j).context, (d.slot j).dirBase + 16 * min (leAt e 0 8) (recRows d.record - 1), 16)]
         | none => [])
      | _, _ => [])

end Sys2Proof.Machine
end

