-- ==== Sys2Proof/Machine/RowCache.lean ====
section
/-!
DEFINITION. The row cache: lines, sketch, admission, replacement, quotas and decay (R187–R193, R205).
-/
namespace Sys2Proof.Machine

def State.forager (s : State) (k : Nat) : Forager := tabGet Forager.idle s.foragers k
def State.setForager (s : State) (k : Nat) (f : Forager) : State := { s with foragers := tabSet s.foragers k f }
def State.modForager (s : State) (k : Nat) (g : Forager → Forager) : State := s.setForager k (g (s.forager k))

/-- The set of a row by its sector address (R188). -/
def rcSet (addr : Nat) : Nat := (addr % 8192) ^^^ (addr / 8192 % 8192) ^^^ (addr / 67108864 % 256)

/-- The lines of a set, with their keys. -/
def Forager.setLines (f : Forager) (set : Nat) : List (Nat × RcLine) := f.lines.filter (fun p => p.1 / 32 == set)

/-- Epoch of a line: that of its pending-epoch entry; none for a base line. -/
def Forager.lineEpoch (f : Forager) (l : RcLine) : Option Nat := if l.ref = 0 then none else some (tabGet 0 f.epochs l.ref)

/-- The line that serves a request at epoch `e`: the forward line of the highest epoch not above `e`, else the base
line (R189). -/
def Forager.serve (f : Forager) (addr e : Nat) : Option (Nat × RcLine) :=
  let mine := (f.setLines (rcSet addr)).filter (fun p => p.2.addr == addr)
  let fwd := mine.foldl (fun best p => match f.lineEpoch p.2 with
    | none => best
    | some x =>
      if e < x then best
      else match best with
        | none => some (x, p)
        | some (y, q) => if y < x then some (x, p) else some (y, q)) none
  match fwd with
  | some (_, p) => some p
  | none => mine.find? (fun p => p.2.ref == 0)

/-- Sectors a partition occupies, base, forward and pinned lines together (R193). -/
def Forager.occupancy (f : Forager) (p : Nat) : Nat := ((f.lines.filter (fun l => l.2.partition == p)).map (fun l => l.2.sectors)).sum

/-- Q_p (R243). -/
def State.quota (s : State) (p : Nat) : Nat := (s.part p).rcShare.toNat * 8192

/-- The sketch's multipliers (R191). -/
def sketchMults : List Nat := [0x8F3A6C1D52B7E94B, 0xB14E2F9D6A83C507, 0x5D27C9E13F68A4B9, 0xE6C51B7394D20F8D]
/-- Keys of the four counters of an address. -/
def sketchKeys (addr : Nat) : List Nat :=
  ((List.range 4).zip sketchMults).map (fun p => p.1 * 65536 + (addr * p.2 % 2 ^ 64) / 2 ^ 48)
/-- Add a multiplicity to the sketch. -/
def Forager.sketchAdd (f : Forager) (addr mult : Nat) : Forager :=
  { f with sketch := (sketchKeys addr).foldl (fun t k => tabSet t k (min 255 (tabGet 0 t k + mult))) f.sketch }
/-- The estimate of an address. -/
def Forager.estimate (f : Forager) (addr : Nat) : Nat :=
  (sketchKeys addr).foldl (fun m k => min m (tabGet 0 f.sketch k)) 255

/-- Room of a set: free sectors, and a free tag. -/
def Forager.freeSectors (f : Forager) (set : Nat) : Nat := 64 - ((f.setLines set).map (fun p => p.2.sectors)).sum
def Forager.freeTag (f : Forager) (set : Nat) : Option Nat := tabFree f.lines (set * 32) (set * 32 + 32)

/-- Order of victims within a group: counter, then tag number. -/
def insertLine (l : Nat × RcLine) : List (Nat × RcLine) → List (Nat × RcLine)
  | [] => [l]
  | a :: r => if l.2.counter < a.2.counter ∨ (l.2.counter = a.2.counter ∧ l.1 < a.1) then l :: a :: r else a :: insertLine l r
def sortLines (ls : List (Nat × RcLine)) : List (Nat × RcLine) := ls.foldl (fun acc l => insertLine l acc) []

/-- Lines partition `p` may evict in a set, in order (R193). -/
def State.victims (s : State) (f : Forager) (p set : Nat) : List (Nat × RcLine) :=
  let able := (f.setLines set).filter (fun l => l.2.ref == 0 && !l.2.pin)
  let below := decide (f.occupancy p < s.quota p)
  let others := able.filter (fun l => below && l.2.partition != p && decide (s.quota l.2.partition < f.occupancy l.2.partition))
  sortLines others ++ sortLines (able.filter (fun l => l.2.partition == p))

/-- Take victims until the set has room for `n` sectors and a tag; none where all of them do not suffice. -/
def takeVictims (n free tags : Nat) : List (Nat × RcLine) → Option (List (Nat × RcLine))
  | [] => if n ≤ free ∧ 0 < tags then some [] else none
  | v :: r =>
    if n ≤ free ∧ 0 < tags then some []
    else (takeVictims n (free + v.2.sectors) (tags + 1) r).map (v :: ·)

/-- Place a line in its set after evicting victims. -/
def Forager.place (f : Forager) (vs : List (Nat × RcLine)) (l : RcLine) : Forager :=
  let f1 := { f with lines := vs.foldl (fun (t : Table RcLine) (v : Nat × RcLine) => tabErase t v.1) f.lines }
  match f1.freeTag (rcSet l.addr) with
  | some k => { f1 with lines := tabSet f1.lines k l }
  | none => f1

/-- A line placed after evicting `vs`: bytes filled and lines evicted are counted (R213, R506, R507). -/
def State.placeLine (s : State) (k : Nat) (vs : List (Nat × RcLine)) (l : RcLine) : State :=
  let n := l.row.bytes.length
  (((s.setForager k ((s.forager k).place vs l)).count (8 * (9 + 2 * k)) n).countFull (0x40000 + 0x400 * k + 8) n).bump 0x4204 (k + 1) vs.length

/-- A line placed with victims of its partition's choice and no admission test (pinned rows, forward lines), counting those
evicted; `none` where the set has no room for it. -/
def State.tryPlace (s : State) (k : Nat) (l : RcLine) : Option State :=
  let f := s.forager k
  let set := rcSet l.addr
  let tags := 32 - (f.setLines set).length
  (takeVictims l.sectors (f.freeSectors set) tags (s.victims f l.partition set)).map (fun vs => s.placeLine k vs l)

/-- A line placed where there is room for it. -/
def State.forcePlace (s : State) (k : Nat) (l : RcLine) : State := (s.tryPlace k l).getD s

/-- Admission after a miss (R191): admitted lines start with counter = estimate; a bypass is counted. -/
def State.admitRow (s : State) (k p addr : Nat) (row : RowData) (pin : Bool) : State :=
  let f := s.forager k
  let set := rcSet addr
  let n := row.bytes.length / 64
  let est := f.estimate addr
  let line : RcLine := { addr := addr, ref := 0, partition := p, sectors := n, counter := est, pin := pin, row := row }
  let tags := 32 - (f.setLines set).length
  if n ≤ f.freeSectors set ∧ 0 < tags ∧ f.occupancy p < s.quota p then s.placeLine k [] line
  else match takeVictims n (f.freeSectors set) tags (s.victims f p set) with
    | none => s.bump 0x4203 (k + 1) 1
    | some vs =>
      let own := vs.filter (fun v => v.2.partition == p)
      let high := own.foldl (fun m v => max m v.2.counter) 0
      if own.isEmpty || decide (high < est) then s.placeLine k vs line
      else s.bump 0x4203 (k + 1) 1

/-- A row as the stack holds it. -/
def State.rowInDram (s : State) (pa n : Nat) : RowData :=
  { bytes := (s.memRead pa n).1, poison := (List.range (n / 64)).filter (fun i => (s.memRead (pa + 64 * i) 64).2.1),
    suspect := (List.range (n / 64)).filter (fun i => (s.memRead (pa + 64 * i) 64).2.2) }

/-- Row RC_DECAY_PASS: every line counter and sketch counter halves (R192). -/
def State.rcDecayPass (s : State) (k : Nat) : State :=
  (s.modForager k (fun f => { f with
    lines := f.lines.map (fun p => (p.1, { p.2 with counter := p.2.counter / 2 }))
    sketch := f.sketch.filterMap (fun p => if p.2 / 2 = 0 then none else some (p.1, p.2 / 2)) })).taskRun 7

/-! ## Row contents (R163, R164, R173) -/

/-- Is the header of a row slice valid (R164)? [DESIGN CHOICE, log entry 35] -/
def headerOk (r bs : List Byte) : Bool :=
  let f := recFmt r
  f < 5 || (shiftOk (leAt bs 0 1) && (if f == 6 then true else if f == 8 then decide (leAt bs 1 1 ≤ 15) else leAt bs 1 1 == 0))

/-- Element `i` of a row slice as an exact value (R173). -/
def rowElement (r bs : List Byte) (i : Nat) : FVal :=
  let f := recFmt r
  let c := rowElem f
  let body := bs.drop (rowHeader f)
  let x := if fmtWidth c == 4 then elemAt 2 body i else leAt body (i * (fmtWidth c / 8)) (fmtWidth c / 8)
  if fmtIsFloat c then (fmtFloat c).decode x
  else
    let v := fmtInt c x (leAt bs 1 1)
    .fin (decide (v < 0)) v.natAbs (shiftOf (leAt bs 0 1))

end Sys2Proof.Machine
end

