-- ==== Sys2Proof/Machine/Forager.lean ====
section
/-!
DEFINITION. The foragers' steps: dispatch, lookups, row requests, pooling, slices, and bags of peers (rows BAG_DISPATCH to
FORAGER_ABANDON and the group-lookup rows; R158–R183, R216–R222).
-/
namespace Sys2Proof.Machine

def State.work? (s : State) (i : Nat) : Option BagWork := tabFind s.works i
def State.setWork (s : State) (i : Nat) (w : BagWork) : State := { s with works := tabSet s.works i w }

/-- The bags of a work that forager `f` pools, counted from the command's first bag (R159). -/
def BagWork.assigned (w : BagWork) (f : Nat) : List Nat :=
  (List.range w.count).filter (fun k => (k / 64 + w.n) % 4 == f)

/-! ## Stops (R178, R181) -/

/-- `FORAGER_ERR` of a forager: the first is held, later ones are only counted (R185). -/
def State.foragerErr (s : State) (f code table part bag row : Nat) : State :=
  s.modForager f (fun x =>
    if x.err.getLsbD 63 then { x with errCount := x.errCount + 1 }
    else { x with
      err := BitVec.ofNat 64 (2 ^ 63 + code % 256 * 2 ^ 48 + table % 4096 * 2 ^ 36 + part % 16 * 2 ^ 32 + bag % 2 ^ 32)
      errRow := BitVec.ofNat 64 row })

/-- Wait for a page of a context (R182): one walk or fault record for each requester. -/
def State.waitPage (s : State) (col ctx va : Nat) (a : Access) (who : Requester) (launch : Nat) : State :=
  if s.stalled who then s
  else s.startWalk { collector := col, context := ctx, va := va, access := a, who := who, launch := launch, stale := false }

/-- The launch a fault of a work ends: none for a peer's request. -/
def BagWork.faultLaunch (w : BagWork) : Option Nat := if w.home.isSome then none else some w.launch

/-- What a stop does to a work on forager `f`. A peer's request that cannot go on is dropped, and the home device's
timeout decides (R221). [DESIGN CHOICE, log entry 159] -/
def State.bagStop (s : State) (f id : Nat) (w : BagWork) (e : BagStop) : State :=
  match e with
  | .missing ctx va => s.waitPage (16 + f) ctx va .read (.bag f id 0) (w.faultLaunch.getD 0)
  | .fatal ctx k va =>
    let s1 := s.fatalFault (16 + f) k 0 .read 0xFF ctx va w.faultLaunch stTranslationFatal
    if w.home.isSome then { s1 with works := tabErase s1.works id } else s1
  | .poison su =>
    (match w.cell with
     | some c => s.consumePoison c su
     | none => { s with works := tabErase s.works id })
  | .fault t bag =>
    let s1 := s.foragerErr f 3 t w.partition bag 0
    (match w.cell with
     | some c => s1.cellFault c 7 w.cmd.thread 8 w.cmd.pc
     | none => { s1 with works := tabErase s1.works id })
  | .range code t bag r =>
    let s1 := s.foragerErr f code t w.partition bag r
    (match w.cell with
     | some _ => s1.endLaunch w.launch (some stIndexRange) (192 + code)
     | none => { s1 with works := tabErase s1.works id })
  | .held => s

/-- A stop of the dispatcher's reads of a block it fans out: its pages are those of a stream engine (R216, R340). -/
def State.dispatchStop (s : State) (c f id : Nat) (w : BagWork) (e : BagStop) : State :=
  match e with
  | .missing ctx va => s.waitPage (combOf c) ctx va .read (.fanout c) w.launch
  | .fatal ctx k va => s.fatalFault (combOf c) k 0 .read c ctx va w.faultLaunch stTranslationFatal
  | e => s.bagStop f id w e

/-! ## Dispatch (R159, R165, R216, R219) -/

/-- The work of a BAG command. -/
def bagWork (c n : Nat) (l : Nat) (x : Launch) (cmd : EngineCmd) (e : Nat) : BagWork :=
  { cell := some c, cmd := cmd, launch := l, partition := x.partition, context := x.context, handle := cmd.imm.toNat,
    va := cmd.opA.toNat, block := [], blockPoison := [], first := cmd.opB.toNat / 2 ^ 32, count := cmd.opB.toNat % 2 ^ 32,
    epoch := e, versions := [], n := n, home := none, homeLaunch := 0, homeBlock := 0, taken := [], filling := [], windows := 0, bags := [],
    fetches := [],
    written := 0, abandoned := false, left := [] }

/-- Bytes of the block: the end of the last array it names. [DEDUCED, log entry 38] -/
def State.blockLength (s : State) (k : Nat) (w : BagWork) (segs : List Seg) : Except BagStop Nat :=
  segs.foldl (fun acc g => match acc with
    | .error e => .error e
    | .ok m =>
      let entries : Except BagStop Nat :=
        if g.kind == 1 then .ok (g.bags * g.fixed)
        else if g.kind == 2 then .ok g.bags
        else match s.bagCtl k w (g.offsOff + 4 * g.bags) 4 with
          | .error e => .error e
          | .ok b => .ok (leNat b)
      match entries with
      | .error e => .error e
      | .ok n =>
        let size := if g.kind == 2 then 16 else if g.idx64 then 8 else 4
        .ok (max m (max (g.idxOff + size * n) (max (if g.kind == 0 then g.offsOff + 4 * (g.bags + 1) else 0)
          (if g.weighted then g.wtOff + 4 * n else 0))))) (.ok (64 + 64 * segs.length))

/-- The output rows of a bag, checked against the hole (R181, R218): the number of the first, and their count. -/
def State.outputRows (s : State) (k : Nat) (w : BagWork) (g : Seg) (bag lookups : Nat) : Except BagStop (Nat × Nat) :=
  match s.bagRows k w g bag lookups with
  | .error e => .error e
  | .ok (r0, n) =>
    let t := g.table (bag - g.start)
    match s.group? w.handle with
    | some gr => if n == 0 || s.rowBelowHole w.handle gr (w.homeRank gr) g t (r0 + n - 1) then .ok (r0, n) else .error (.fault t bag)
    | none => .error (.fault t bag)

/-- The output rows of bags `[bag, bag + n)`, as (segment, row, slice bytes). -/
def State.rowList (s : State) (k : Nat) (w : BagWork) (segs : List Seg) : Nat → Nat → Except BagStop (List (Nat × Nat × Nat))
  | 0, _ => .ok []
  | n + 1, bag =>
    match segOfBag segs bag with
    | none => .error (.fault 0 bag)
    | some (i, g) =>
      let b := match s.table? w.handle (g.table (bag - g.start)) with
        | some d => recWidth d.record * outElemBytes g.outFmt
        | none => 0
      match (if g.pool == 2 then s.bagLookupCount k w g (bag - g.start) else .ok 1) with
      | .error e => .error e
      | .ok m =>
        match s.outputRows k w g bag m with
        | .error e => .error e
        | .ok (r0, cnt) =>
          match s.rowList k w segs n (bag + 1) with
          | .error e => .error e
          | .ok rest => .ok ((List.range cnt).map (fun j => (i, r0 + j, b)) ++ rest)

/-- Take a dispatched BAG command off its queue: its pooling work begins. -/
def State.openWork (s : State) (c : Nat) (w : BagWork) : State :=
  let s1 := s.modCell c (fun x => { x with bags := x.bags ++ [w.cmd] })
  (({ s1.setWork s1.nextWork w with nextWork := s1.nextWork + 1 }).popCmd c 3).traceCell c 6
    (bytesLE 4 w.count ++ bytesLE 4 w.handle ++ bytesLE 4 w.first)

/-- Signal a peer's semaphore (R220). -/
def State.peerSignal (s : State) (e : RetEntry) : State :=
  match e.kind with
  | .bag (some i) t pc _ _ _ _ => s.signal e.cell i 1 t 8 pc
  | _ => s

/-- The part of dispatch that a group of several members adds: block fan-out, bag requests, a return-table entry.
[DESIGN CHOICE, log entry 40] -/
def State.fanOut (s : State) (c l : Nat) (w : BagWork) (g : Group) (segs : List Seg) : State :=
  let f := w.n % 4
  let k := tlbStream (combOf c) 0
  match s.blockLength k w segs, s.rowList k w segs w.count w.first with
  | .error e, _ => s.dispatchStop c f s.nextWork w e
  | _, .error e => s.dispatchStop c f s.nextWork w e
  | .ok len, .ok rows =>
    if 4194304 < len then s.bagStop f s.nextWork w (.fault 0 0)
    else match s.tread k w.context .read w.va len with
      | .missing va => s.dispatchStop c f s.nextWork w (.missing w.context va)
      | .fatal x va => s.dispatchStop c f s.nextWork w (.fatal w.context x va)
      | .held => s
      | .ok bytes _ _ =>
        if 4096 ≤ s.returns.length then s
        else
          let tag := s.nextReturn
          let key := (l, w.handle, w.va)
          let sent := s.fanned.findIdx? (· == key)
          let block := sent.getD s.fanned.length
          let gran := (List.range ((len + 63) / 64)).filter (fun i =>
            match s.tread k w.context .read (w.va + 64 * i) (min 64 (len - 64 * i)) with | .ok _ po _ => po | _ => false)
          let tables := (segs.flatMap Seg.tables).eraseDups
          let vers := tables.filterMap (fun t => (s.table? w.handle t).map (fun d => (t, d.tverAt w.epoch)))
          let s0 := { s.touchSpan k w.context w.va len with nextReturn := (s.nextReturn + 1) % 2 ^ 32 }
          let s1 := if sent.isSome then s0
            else (({ s0 with fanned := s0.fanned ++ [key] }).sendPeers g (.fanout l block g.id (BitVec.ofNat 64 w.epoch) vers bytes gran)).countGroup
              w.handle 0 (len * (g.size - 1))
          let s2 := (s1.sendPeers g (.bagReq l block w.first w.count (s1.cell c).rank tag)).countGroup w.handle 1 (g.size - 1)
          let sem := if w.cmd.doneEn then some ((w.cmd.semDone + 1) % 64) else none
          let peers := (List.range g.size).filter (· != g.rank)
          let e : RetEntry :=
            { launch := l, launchId := match s.launch? l with | some x => x.launchId | none => 0#64
              handle := w.handle, cell := c, ended := false, acks := []
              kind := .bag sem w.cmd.thread w.cmd.pc (segs.map (fun q => (q.outOff, q.outStride))) rows
                (peers.map (fun r => (r, if rows.isEmpty then 1 else 0))) [] }
          let s3 := s2.openWork c w
          if rows.isEmpty then peers.foldl (fun acc _ => acc.peerSignal e) s3
          else { s3 with returns := tabSet s3.returns tag e }

/-- Row BAG_DISPATCH: the command at the head of a cell's BAG queue goes to the pooling foragers. The tables of a span are read
here alone (R228). [DEDUCED, log entry 38] -/
def State.bagDispatch (s : State) (c : Nat) : State :=
  match s.activeLaunch c with
  | none => s
  | some (l, x) =>
    let y := s.cell c
    match y.head 3 with
    | none => s
    | some cmd =>
      if !y.mayStart cmd then s
      else
        let h := cmd.imm.toNat
        match s.group? h, x.groups.find? (fun p => p.1 == h) with
        | some g, some (_, e) =>
          let w := bagWork c c l x cmd e.toNat
          if g.partition != x.partition then s.bagStop (c % 4) s.nextWork w (.fault 0 0)
          else if g.split == 1 then s.openWork c w
          else match s.readBlock (tlbStream (combOf c) 0) w with
            | .error st => s.dispatchStop c (c % 4) s.nextWork w st
            | .ok segs => s.fanOut c l w g segs
        | _, _ => s.bagStop (c % 4) s.nextWork (bagWork c c l x cmd 0) (.fault 0 0)

/-! ## The skimmer (R158, R170–R172, R183, R244) -/

/-- Does a work still take lookups on a forager? -/
def State.workRuns (s : State) (w : BagWork) : Bool :=
  if w.home.isSome then !w.abandoned
  else match s.launch? w.launch with
    | some x => x.phase == .running || x.phase == .marked
    | none => false

/-- Does a fetch hold a slot of its slice? -/
def Fetch.held (x : Fetch) : Bool :=
  match x.state with
  | .issued => true
  | .missed _ => true
  | .served _ => true
  | _ => false

/-- The fetch slots in use of forager `f` that satisfy a test; those of a work it has left are released (R182). -/
def State.slotsUsed (s : State) (f : Nat) (p : BagWork → Fetch → Bool) : Nat :=
  (s.works.map (fun w => if w.2.left.contains f then 0
    else (w.2.fetches.filter (fun x => x.forager == f && x.held && p w.2 x)).length)).sum

/-- The open bags of a slice. -/
def State.sliceBags (s : State) (f k : Nat) : List OpenBag :=
  s.works.flatMap (fun w => w.2.bags.filter (fun b => b.forager == f && b.slice == k))

/-- The lowest slice with room for a bag of `n` elements: 256 bags and 64 KiB of fp32 accumulators (R158). -/
def State.sliceFor (s : State) (f n : Nat) : Option Nat :=
  (List.range 16).find? (fun k =>
    let bs := s.sliceBags f k
    decide (bs.length < 256) && decide (4 * ((bs.map (fun b => b.width)).sum + n) ≤ 65536))

/-- The next bag a forager takes of a work, counted from the command's first. -/
def BagWork.nextBag (w : BagWork) (f : Nat) : Option Nat := ((w.assigned f).drop (tabGet 0 w.taken f)).head?

/-- Has a partition lookups waiting in a forager's intake: bags not taken, or fetches without a slot (R183, R244)? -/
def State.waitsIn (s : State) (f p : Nat) : Bool :=
  s.works.any (fun w => w.2.partition == p && s.workRuns w.2
    && ((w.2.nextBag f).isSome || w.2.fetches.any (fun x => x.forager == f && x.state == FetchState.waiting)))

/-- Forager weight of a partition. -/
def State.foragerWt (s : State) (p : Nat) : Nat := (s.part p).foragerWt.toNat

/-- Fetch slots of forager `f` that partition `p` may hold (R244): the sum W of the weights runs over `p` and the partitions
with lookups waiting. -/
def State.slotCap (s : State) (f p : Nat) : Nat :=
  let others := (List.range 16).filter (fun q => q != p && s.waitsIn f q)
  if others.isEmpty then 16384
  else
    let w := s.foragerWt p + (others.map s.foragerWt).sum
    (16384 * s.foragerWt p + w - 1) / w

/-- Is there a slot for a fetch of a work (R158, R244)? -/
def State.slotFree (s : State) (w : BagWork) (x : Fetch) : Bool :=
  decide (s.slotsUsed x.forager (fun _ y => y.slice == x.slice) < 1024)
  && decide (s.slotsUsed x.forager (fun v _ => v.partition == w.partition) < s.slotCap x.forager w.partition)

/-- `WIDTH` of a table. -/
def State.tableWidth (s : State) (handle t : Nat) : Nat := match s.table? handle t with | some d => recWidth d.record | none => 0

/-- Lookups of the next bag of work `id`, where no page that it waits for stalls it (R182), the forager can read so far and a slice
has room for the bag. -/
def State.bagNeed (s : State) (f id : Nat) (w : BagWork) : Option Nat :=
  if s.stalled (.bag f id 0) then none
  else match w.nextBag f, s.readBlock (tlbForager f) w with
  | some k, .ok segs =>
    (match segOfBag segs (w.first + k) with
     | some (_, g) =>
       (match s.bagLookupCount (tlbForager f) w g (w.first + k - g.start) with
        | .ok n => if (s.sliceFor f (s.tableWidth w.handle (g.table (w.first + k - g.start)))).isSome then some n else none
        | .error _ => none)
     | none => none)
  | _, _ => none

/-- What each partition has next for a forager's intake: the lookups of the next bag of its oldest work. -/
def State.bagNeeds (s : State) (f : Nat) : List (Nat × Nat) :=
  (List.range 16).filterMap (fun p =>
    (s.works.findSome? (fun w => if w.2.partition == p && s.workRuns w.2 then s.bagNeed f w.1 w.2 else none)).map (fun n => (p, n)))

/-- Deficit round-robin with a quantum of 64 × weight lookups (R244), a bag at a time: the partition served from turn `t`,
and the deficits then. [DESIGN CHOICE, log entry 34] -/
def drrServe (weight : Nat → Nat) (needs : List (Nat × Nat)) : Nat → Nat → Table Nat → Option (Nat × Table Nat)
  | 0, _, _ => none
  | fuel + 1, t, ds =>
    let t' := (t + 1) % 16
    let grant := fun (d : Table Nat) => if needs.any (fun x => x.1 == t') then tabSet d t' (tabGet 0 d t' + 64 * weight t') else d
    match tabFind needs t with
    | some n => if n ≤ tabGet 0 ds t then some (t, ds) else drrServe weight needs fuel t' (grant ds)
    | none => drrServe weight needs fuel t' (grant (tabErase ds t))

/-- The deficits after a bag of partition `p` with `n` lookups is served; `none` where it is another partition's turn.
[DESIGN CHOICE, log entry 34] -/
def State.drrTake (s : State) (f p n : Nat) : Option (Table Nat) :=
  let x := s.forager f
  let needs := tabSet (s.bagNeeds f) p n
  match drrServe s.foragerWt needs 16640 x.turn x.deficits with
  | some (q, ds) => if q == p then some (tabSet ds p (tabGet 0 ds p - n)) else none
  | none => none

/-- Attach one lookup to the window's fetches: the first lookup of a key makes a fetch, later ones raise its multiplicity
(R171). -/
def attach (f window slice table : Nat) (fs : List Fetch) (l : RawLookup) : List Fetch × LookupRow :=
  match l.ref with
  | .zero => (fs, .zero)
  | .cut => (fs, .cut)
  | .lost => (fs, .lost)
  | .row slot row va =>
    match fs.findIdx? (fun x => x.forager == f && x.window == window && x.table == table && x.slot == slot && x.row == row) with
    | some i => (fs.modify i (fun x => { x with mult := x.mult + 1 }), .fetch i)
    | none =>
      (fs ++ [{ forager := f, window := window, table := table, slot := slot, row := row, va := va, mult := 1, slice := slice,
                place := none, miss := false, state := .waiting }],
       .fetch fs.length)

/-- The lookups of a bag attached in order. [DESIGN CHOICE, log entry 34] -/
def attachAll (f window slice table : Nat) (fs : List Fetch) : List RawLookup → List Fetch × List Lookup
  | [] => (fs, [])
  | l :: r =>
    let (fs1, row) := attach f window slice table fs l
    let (fs2, rest) := attachAll f window slice table fs1 r
    (fs2, { row := row, weight := l.weight, wPoison := l.wPoison, wSuspect := l.wSuspect } :: rest)

/-- The row cache adds a multiplicity to the counter of the line that serves a row at an epoch (R172). -/
def State.addMult (s : State) (pa e m : Nat) : State :=
  s.modForager (stackOf pa) (fun f => match f.serve (pa / 64) e with
    | some (key, line) => { f with lines := tabSet f.lines key { line with counter := min 255 (line.counter + m) } }
    | none => f)

/-- Does the row cache hold a line that serves an address at an epoch? -/
def State.hasLine (s : State) (pa e : Nat) : Bool := ((s.forager (stackOf pa)).serve (pa / 64) e).isSome

/-- A row cache learns of lookups that attached after it served their fetch (R172): the line counts them, and the sketch counts
those of a row that missed or is no longer held (R191). -/
def State.lateMult (s : State) (e : Nat) (x : Fetch) (pa m : Nat) : State :=
  let s1 := if m != 0 && (x.miss || !s.hasLine pa e) then s.modForager (stackOf pa) (fun f => f.sketchAdd (pa / 64) m) else s
  s1.addMult pa e m

/-- Lookups that attach to a row already served are carried to its row cache as they attach (R172). [DESIGN CHOICE, log entry 34] -/
def State.lateMults (s : State) (e : Nat) (old new : List Fetch) : State :=
  (old.zip new).foldl (fun (acc : State) p =>
    match p.1.state, p.1.place with
    | .served _, some pa => acc.lateMult e p.1 pa (p.2.mult - p.1.mult)
    | .done _, some pa => acc.lateMult e p.1 pa (p.2.mult - p.1.mult)
    | _, _ => acc) s

/-- The number of the window a bag of `n` lookups joins, and what the window then holds: the window that forager `f` fills, or
a new one where the bag would take it past 65,536 (R170). [DESIGN CHOICE, log entry 34] -/
def BagWork.windowFor (w : BagWork) (f n : Nat) : Nat × Nat × Bool :=
  match tabFind w.filling f with
  | some (num, m) => if 65536 < m + n then (w.windows, n, true) else (num, m + n, false)
  | none => (w.windows, n, true)

/-- Open a bag on slice `k` of forager `f`; how many fetches it made, and how many row lookups it has. -/
def BagWork.openBag (w : BagWork) (f k : Nat) (b : RawBag) (rows : Nat × Nat) : BagWork :=
  let (num, held, fresh) := w.windowFor f b.lookups.length
  let (fs, ls) := attachAll f num k b.table w.fetches b.lookups
  { w with
    fetches := fs
    taken := tabSet w.taken f (tabGet 0 w.taken f + 1)
    filling := tabSet w.filling f (num, held)
    windows := if fresh then w.windows + 1 else w.windows
    bags := w.bags ++ [{ bag := b.bag, forager := f, slice := k, width := b.width, seg := b.seg, row0 := rows.1, rows := rows.2,
                         lookups := ls, poison := b.poison || b.mismatch, suspect := b.suspect }] }

/-- The counts of a bag taken in (R186, R507). -/
def State.countBag (s : State) (f k part : Nat) (b : RawBag) (made : Nat) : State :=
  let n := b.lookups.length
  let rows := (b.lookups.filter (fun l => match l.ref with | .row _ _ _ => true | _ => false)).length
  let ctr := 0x40000 + 0x400 * f
  (((((((s.bump 0x4101 (f + 1) n).bump 0x4103 (f + 1) (rows - made)).bump 0x4104 (f + 1) (b.lookups.filter (·.oor)).length).countFull
    (ctr + 8 * (5 + k)) n).countFull (ctr + 8 * (21 + part)) n).countFull (ctr + 8 * 55) (rows - made)).countFull
    (0x43000 + 0x100 * part + 8 * 3) n).bump 0x4209 (f + 1) (b2n b.mismatch)

/-- The bag of which a halt read the first lookups. -/
def BagHalt.bagOf (h : BagHalt) (bag : Nat) : RawBag :=
  { bag := bag, seg := h.seg, table := h.table, width := 0, lookups := h.lookups, poison := false, suspect := false, mismatch := false }

/-- A bag stops on forager `f`: the lookups of it that entered the skimmer are counted first (R177, R178, R186); where it waits for
a page or a stack, they enter later. [DESIGN CHOICE, log entry 159] -/
def State.haltBag (s : State) (f id sl : Nat) (w : BagWork) (b : RawBag) (e : BagStop) : State :=
  let counted := s.countBag f sl w.partition b
    ((attachAll f (w.windowFor f b.lookups.length).1 sl b.table w.fetches b.lookups).1.length - w.fetches.length)
  match e with
  | .missing _ _ => s.bagStop f id w e
  | .held => s.bagStop f id w e
  | e => counted.bagStop f id w e

/-- Take a bag of `n` lookups into slice `sl` of forager `f`, with the deficits `ds` after it. -/
def State.takeBag (s : State) (f id sl : Nat) (w : BagWork) (segs : List Seg) (bag : Nat) (ds : Table Nat) : State :=
  let k := tlbForager f
  match s.readBag k w segs bag with
  | .error h =>
    s.haltBag f id sl w (h.bagOf bag) h.stop
  | .ok b =>
    match s.outputRows k w (segs.getD b.seg (segOf [] 0)) bag b.lookups.length with
    | .error e => s.haltBag f id sl w b e
    | .ok rows =>
      let w1 := w.openBag f sl b rows
      let s1 := (s.bagPages k w segs bag).foldl (fun (acc : State) p => acc.touchSpan k p.1 p.2.1 p.2.2) s
      let s2 := (s1.modForager f (fun x => { x with turn := w.partition, deficits := ds })).setWork id w1
      (s2.countBag f sl w.partition b (w1.fetches.length - w.fetches.length)).lateMults w.epoch w.fetches w1.fetches

/-- The reading of a work's next bag on forager `f` ends for good at a page that its walk could not serve (R343).
[DESIGN CHOICE, log entry 159] -/
def State.stopIntake (s : State) (f id : Nat) (w : BagWork) (e : BagStop) : State :=
  match w.nextBag f, s.readBlock (tlbForager f) w with
  | some i, .ok segs =>
    (match s.readBag (tlbForager f) w segs (w.first + i) with
     | .error h =>
       s.haltBag f id ((s.sliceFor f (s.tableWidth w.handle h.table)).getD 0) w (h.bagOf (w.first + i)) e
     | .ok _ => s.bagStop f id w e)
  | _, _ => s.bagStop f id w e

/-- Row LOOKUP_INTAKE: forager `f` takes the next bag of a work into its window, where a slice has room and the deficit
round-robin serves the work's partition (R158, R170, R171, R244). [DESIGN CHOICE, log entry 34] -/
def State.lookupIntake (s : State) (f id : Nat) : State :=
  match s.work? id with
  | none => s
  | some w =>
    match w.nextBag f with
    | none => s
    | some i =>
      if !s.workRuns w || s.stalled (.bag f id 0) then s
      else
        let bag := w.first + i
        match s.readBlock (tlbForager f) w with
        | .error e => s.bagStop f id w e
        | .ok segs =>
          match segOfBag segs bag with
          | none => s.bagStop f id w (.fault 0 bag)
          | some (_, g) =>
            match s.bagLookupCount (tlbForager f) w g (bag - g.start) with
            | .error e => s.bagStop f id w e
            | .ok n =>
              match s.sliceFor f (s.tableWidth w.handle (g.table (bag - g.start))), s.drrTake f w.partition n with
              | some sl, some ds => s.takeBag f id sl w segs bag ds
              | _, _ => s

/-! ## Row requests (R160, R189–R191) -/

/-- The lookup record and slot of a fetch. -/
def State.fetchSlot (s : State) (w : BagWork) (x : Fetch) : Option (TableDesc × VerSlot) :=
  (s.table? w.handle x.table).map (fun d => (d, d.slot x.slot))

/-- Set the state of fetch `i`. -/
def BagWork.setFetch (w : BagWork) (i : Nat) (st : FetchState) : BagWork :=
  { w with fetches := w.fetches.modify i (fun x => { x with state := st }) }

/-- Does an unresolved committed patch of the row in the version the request reads, at its epoch or below, hold it (R206)? -/
def State.patchHolds (s : State) (handle table slot row e : Nat) : Bool :=
  s.staged.any (fun p => p.committed && !p.resolved && p.handle == handle && p.entry.table == table && p.slot == slot
    && p.entry.row == row && decide (p.entry.epoch ≤ e))

/-- A stack has served a row fetch: it counts for the image of the launch, by die (R254). -/
def State.noteFetch (s : State) (w : BagWork) (stack : Nat) : State :=
  match w.home, s.launch? w.launch with
  | none, some l =>
    { s with images := s.images.map (fun (i : Nat × Image) =>
        if i.1 != l.image then i
        else (i.1, if stack < 2 then { i.2 with fetchA := i.2.fetchA + 1 } else { i.2 with fetchB := i.2.fetchB + 1 })) }
  | _, _ => s

/-- Sectors fetched from DRAM count for their quarter's heat (R256). -/
def State.noteSectors (s : State) (pa n : Nat) : State :=
  { s with quarters := s.quarters.map (fun (q : Nat × Quarter) =>
      if q.1 == pa / 2 ^ 28 then (q.1, { q.2 with fetched := q.2.fetched + n }) else q) }

/-- A fetch whose row is known is served from a row: its forager counts an invalid header (R164). -/
def State.serveFetch (s : State) (id i : Nat) (w : BagWork) (k pa : Nat) (row : RowData) (rec_ : List Byte) : State :=
  let w1 := { w with fetches := w.fetches.modify i (fun x => { x with place := some pa, state := .served row }) }
  let s1 := (s.setWork id w1).noteFetch w k
  if headerOk rec_ row.bytes then s1 else s1.bump 0x4105 (k + 1) 1

/-- Erase a work that every forager has left once no fetch of it is under way (R182). -/
def State.retireWork (s : State) (id : Nat) : State :=
  match s.work? id with
  | some w => if w.left.length == 4 && !w.fetches.any Fetch.held then { s with works := tabErase s.works id } else s
  | none => s

/-- A fetch of an ended launch whose row cannot be reached is discarded (R182). -/
def State.dropFetch (s : State) (id i : Nat) (w : BagWork) : State :=
  (s.setWork id (w.setFetch i (.done { bytes := [], poison := [], suspect := [] }))).retireWork id

/-- Translate an issued fetch through the pooling forager's TLB, and serve it from the owning stack's row cache, or start the
read of a miss (R160, R189). -/
def State.requestRow (s : State) (id i : Nat) (w : BagWork) (x : Fetch) (d : TableDesc) (ctx : Nat) : State :=
  let k := tlbForager x.forager
  match s.xlate k ctx x.va .read with
  | .walk => if s.workRuns w then s.waitPage (16 + x.forager) ctx x.va .read (.bag x.forager id (i + 1)) (w.faultLaunch.getD 0) else s.dropFetch id i w
  | .fatal kind => if s.workRuns w then s.bagStop x.forager id w (.fatal ctx kind x.va) else s.dropFetch id i w
  | .hit pa =>
    if !s.populated pa then (if s.workRuns w then s.bagStop x.forager id w (.fatal ctx 2 x.va) else s.dropFetch id i w)
    else
      let s0 := s.tlbTouch k ctx x.va
      let o := stackOf pa
      let ctr := 0x40000 + 0x400 * o
      match (s0.forager o).serve (pa / 64) w.epoch with
      | some (_, line) =>
        (((((s0.addMult pa w.epoch x.mult).serveFetch id i w o pa line.row d.record).bump 0x4201 (o + 1) 1).countFull ctr
          line.row.bytes.length).count (8 * (8 + 2 * o)) line.row.bytes.length)
      | none =>
        ((s0.setWork id { w with fetches := w.fetches.modify i (fun y => { y with place := some pa, miss := true, state := .missed pa }) }).bump
          0x4202 (o + 1) 1).countFull (ctr + 8 * 3) 1

/-- Is a fetch of a bag that a translation miss of another of its rows stalls (R341)? The bag is the first that uses the fetch. -/
def State.bagStalled (s : State) (id i : Nat) (w : BagWork) (x : Fetch) : Bool :=
  match w.bags.find? (fun b => b.lookups.any (fun l => l.row == .fetch i)) with
  | none => false
  | some b => b.lookups.any (fun l => match l.row with
    | .fetch j => j != i && s.stalled (.bag x.forager id (j + 1))
    | _ => false)

/-- Row ROW_REQUEST: a fetch takes a slot (R158, R183, R244) and goes to the owning forager. Fetches already issued go on after
the launch's end (R182). -/
def State.rowRequest (s : State) (id i : Nat) : State :=
  match s.work? id with
  | none => s
  | some w =>
    match w.fetches[i]? with
    | none => s
    | some x =>
      match x.state, s.fetchSlot w x with
      | .waiting, some (d, sl) =>
        if !s.workRuns w || !s.slotFree w x || s.bagStalled id i w x then s
        else
          let w1 := w.setFetch i .issued
          let s1 := ((s.setWork id w1).bump 0x4102 (x.forager + 1) 1).countFull (0x40000 + 0x400 * x.forager + 8 * (37 + w.partition)) 1
          if s1.patchHolds w.handle x.table x.slot x.row w.epoch then s1 else s1.requestRow id i w1 x d sl.context
      | .issued, some (d, sl) =>
        if s.patchHolds w.handle x.table x.slot x.row w.epoch || s.bagStalled id i w x then s else s.requestRow id i w x d sl.context
      | _, _ => s

/-- Row RC_MISS_FILL: the row arrives from the stack, which must accept activates (R37); the sketch counts it and admission decides
(R191). Where another miss of the same row has been admitted meanwhile, that line counts it: an address has one base line (R188). [DEDUCED, log entry 160] -/
def State.rcMissFill (s : State) (id i : Nat) : State :=
  match s.work? id with
  | none => s
  | some w =>
    match w.fetches[i]? with
    | none => s
    | some x =>
      match x.state, s.fetchSlot w x with
      | .missed pa, some (d, _) =>
        let k := stackOf pa
        let row := s.rowInDram pa (rowStride d.record)
        let s1 := s.modForager k (fun f => f.sketchAdd (pa / 64) x.mult)
        let s2 := if (s1.forager k).lines.any (fun l => l.2.addr == pa / 64 && l.2.ref == 0) then s1.addMult pa w.epoch x.mult
          else s1.admitRow k w.partition (pa / 64) row (d.pins.contains x.row)
        if !s.stackOpen pa then s
        else (s2.serveFetch id i w k pa row d.record).noteSectors pa (row.bytes.length / 64)
      | _, _ => s

/-- Row ROW_SECTORS_RETURN: the sectors reach the pooling forager, and are accumulated unless its launch has ended (R160, R182). -/
def State.rowSectorsReturn (s : State) (id i : Nat) : State :=
  match s.work? id with
  | none => s
  | some w =>
    match w.fetches[i]? with
    | none => s
    | some x =>
      match x.state, s.fetchSlot w x with
      | .served row, some (d, _) =>
        let s1 := s.setWork id (w.setFetch i (.done row))
        if !s.workRuns w then s1.retireWork id
        else if row.poison.isEmpty && headerOk d.record row.bytes then s1 else s1.bump 0x4106 (x.forager + 1) 1
      | _, _ => s

/-! ## Pooling (R173–R175, R179, R180) -/

/-- The row data a lookup uses, once accumulated; zero rows have none. -/
def BagWork.rowOf (w : BagWork) (r : LookupRow) : Option RowData :=
  match r with
  | .fetch i => (match w.fetches[i]? with
    | some x => (match x.state with | .done d => some d | _ => none)
    | none => none)
  | _ => none

/-- Are all rows of a bag accumulated? -/
def BagWork.bagReady (w : BagWork) (b : OpenBag) : Bool :=
  b.lookups.all (fun l => match l.row with | .fetch _ => (w.rowOf l.row).isSome | _ => true)

/-- Distinct rows of a bag in order of first lookup, with their multiplicity m: a count, or the fp32 sum of the weights
(R173). -/
def multiplicities (weighted : Bool) (ls : List Lookup) : List (LookupRow × FVal) :=
  let step := fun (acc : List (LookupRow × FVal)) (l : Lookup) =>
    let one := if weighted then fmtFp32.decode l.weight else FVal.fin false 1 0
    match l.row with
    | .cut => acc
    | _ =>
      if acc.any (fun p => p.1 == l.row) then acc.map (fun p => if p.1 == l.row then (p.1, r32 (p.2.add one)) else p)
      else acc ++ [(l.row, r32 ((FVal.fin false 0 0).add one))]
  ls.foldl step []

/-- Element `e` of a row that a lookup uses: +0 for a zero row. -/
def BagWork.element (w : BagWork) (r : List Byte) (l : LookupRow) (e : Nat) : FVal :=
  match w.rowOf l with
  | some d => rowElement r d.bytes e
  | none => .fin false 0 0

/-- A pooled element (R174). -/
def BagWork.pooled (w : BagWork) (r : List Byte) (mean : Bool) (ms : List (LookupRow × FVal)) (n e : Nat) : FVal :=
  let sum := ms.foldl (fun acc p => r32 (acc.add (r32 ((w.element r p.1 e).mul p.2)))) (.fin false 0 0)
  if mean then (if n = 0 then .fin false 0 0 else r32 (sum.div (.fin false n 0))) else sum

/-- The bytes of an output slice (R179). -/
def sliceBytes (fmt : Nat) (vs : List FVal) : List Byte :=
  vs.flatMap (fun v => bytesLE (outElemBytes fmt) (outputElement (outElem fmt) 0 0 false 0 (.flt v)).1)

/-- Does a lookup's row carry poison or an invalid header; and suspect? -/
def BagWork.rowPoison (w : BagWork) (r : List Byte) (l : LookupRow) : Bool × Bool :=
  match w.rowOf l with
  | some d => (!d.poison.isEmpty || !headerOk r d.bytes, !d.suspect.isEmpty)
  | none => (l == .lost, false)

/-- Does a lookup use a row whose header is invalid, so that its data is not interpreted (R164), or a row that a poisoned
directory entry hides (R180)? [DESIGN CHOICE, log entry 35] -/
def BagWork.badHeader (w : BagWork) (r : List Byte) (l : LookupRow) : Bool :=
  match w.rowOf l with
  | some d => !headerOk r d.bytes
  | none => l == .lost

/-- The output rows of a bag: (row number, bytes, poison, suspect). A slice that uses a row with an invalid header holds
free bytes of index `k`. -/
def BagWork.outputs (w : BagWork) (g : Seg) (r : List Byte) (b : OpenBag) (k : Nat) : List (Nat × List Byte × Bool × Bool) :=
  let n := recWidth r
  let size := n * outElemBytes g.outFmt
  let free := fun (i : Nat) => (List.range size).map (fun j => Config.freeByte k (i * size + j))
  if g.pool == 2 then
    ((List.range b.lookups.length).zip b.lookups).map (fun p =>
      let l := p.2
      let (po, su) := w.rowPoison r l.row
      let vs := (List.range n).map (fun e =>
        let v := w.element r l.row e
        if g.weighted then r32 (v.mul (fmtFp32.decode l.weight)) else v)
      (b.row0 + p.1, if w.badHeader r l.row then free p.1 else sliceBytes g.outFmt vs, po || l.wPoison || b.poison,
        su || l.wSuspect || b.suspect))
  else
    let ms := multiplicities g.weighted b.lookups
    let cnt := (b.lookups.filter (fun l => l.row != LookupRow.cut)).length
    let vs := (List.range n).map (fun e => w.pooled r (g.pool == 1) ms cnt e)
    let po := b.lookups.any (fun l => (w.rowPoison r l.row).1 || l.wPoison) || b.poison
    let su := b.lookups.any (fun l => (w.rowPoison r l.row).2 || l.wSuspect) || b.suspect
    [(b.row0, if b.lookups.any (fun l => w.badHeader r l.row) then free 0 else sliceBytes g.outFmt vs, po, su)]

/-- Has the crossing of a cell credit for `n` bytes more, where it holds other writes (R70)? -/
def State.crossingRoom (s : State) (c n : Nat) : Bool := (s.cell c).ingress.isEmpty || (s.cell c).ingressRoom n

/-- Land bytes of a slice in the issuing cell through its `INGRESS` slots (R70, R179); a line no slot reaches is code 0x04, and
without any slot of the role 0x09 (R71). -/
def State.land (s : State) (c id off : Nat) (bs : List Byte) (po su : Bool) (thread : Nat) (pc : Word) : State :=
  let cal := (s.cell c).calendar
  if !calReaches cal .ingress off bs.length then s.cellFault c (if calHasRole cal .ingress then 4 else 9) thread 8 pc
  else s.ingest c { sender := .forager id, off := off, bytes := bs, poison := po, suspect := su }

/-- Row SLICE_WRITE: a completed bag's slice goes into the cell, where its crossing has credit, or home by swarm gather. -/
def State.sliceWrite (s : State) (id bag : Nat) : State :=
  match s.work? id with
  | none => s
  | some w =>
    match w.bags.find? (fun b => b.bag == bag) with
    | none => s
    | some b =>
      if !s.workRuns w || !w.bagReady b then s
      else match s.readBlock (tlbForager b.forager) w with
        | .error e => s.bagStop b.forager id w e
        | .ok segs =>
          let g := segs.getD b.seg (segOf [] 0)
          match s.table? w.handle (g.table (bag - g.start)) with
          | none => s
          | some d =>
            let outs := w.outputs g d.record b s.free
            let w1 := { w with bags := w.bags.filter (fun x => x.bag != bag), written := w.written + 1 }
            let s1 := { s.setWork id w1 with free := s.free + 1 }
            match w.cell, w.home, s.group? w.handle with
            | some c, _, _ =>
              if !s.crossingRoom c ((outs.map (fun o => o.2.1.length)).sum) then s
              else outs.foldl (fun acc o => acc.land c id (g.outOff + o.1 * g.outStride) o.2.1 o.2.2.1 o.2.2.2 w.cmd.thread w.cmd.pc) s1
            | none, some (home, tag), some gr =>
              outs.foldl (fun (acc : State) o =>
                { acc with fabricOut := acc.fabricOut ++ [{ dst := home, body := .gather tag gr.rank b.seg o.1 o.2.1 o.2.2.1 }] }) s1
            | _, _, _ => s1

/-- Row BAG_COMMAND_COMPLETE: every local slice is readable (R165). -/
def State.bagCommandComplete (s : State) (id : Nat) : State :=
  match s.work? id with
  | none => s
  | some w =>
    let landed := match w.cell with | some c => s.landed c (.forager id) | none => true
    if !s.workRuns w || decide (w.written < w.count) || !landed then s
    else
      let s1 := { s with works := tabErase s.works id }
      match w.cell with
      | some c => (s1.modCell c (fun x => { x with bags := x.bags.filter (fun k => k.seq != w.cmd.seq) })).completeCmd c w.cmd
      | none => s1

/-- Forager `f` leaves a work that has been abandoned: its bags close and its slots are released; the fetches it has issued go
on into the row caches (R182). -/
def State.leaveWork (s : State) (f id : Nat) (w : BagWork) : State :=
  let w1 := { w with left := if w.left.contains f then w.left else f :: w.left, bags := w.bags.filter (fun b => b.forager != f) }
  let s1 := (s.setWork id w1).retireWork id
  if w1.left.length < 4 then s1
  else match w.cell with
    | some c => (s1.modCell c (fun x => { x with bags := x.bags.filter (fun k => k.seq != w.cmd.seq) })).settleCell c
    | none => s1

/-- Row FORAGER_ABANDON: at the next bag boundary forager `f` drops the bags of ended launches (R182). -/
def State.foragerAbandon (s : State) (f : Nat) : State :=
  (s.works.filter (fun p => !s.workRuns p.2)).foldl (fun acc p => match acc.work? p.1 with
    | some w => acc.leaveWork f p.1 w
    | none => acc) s

/-! ## Group lookups (R216–R222) -/

/-- The 64 MiB of fan-out staging that blocks and waiting span records use (R217, R276). -/
def State.stagingUsed (s : State) : Nat :=
  ((s.fanStages.filter (fun f => !f.held)).map (fun f => f.bytes.length)).sum + (s.spanWait.map (fun w => w.2.1.length)).sum

/-- Bytes of the staging (R217). -/
def stagingBytes : Nat := 67108864

/-- A command that no cell of this device issued. -/
def remoteCmd : EngineCmd :=
  { engine := 3, opA := 0#64, opB := 0#64, imm := 0#24, semDone := 0, doneEn := false, waitEn := false, semWait := 0,
    serial := false, thread := 0, pc := 0#32, seq := 0, granted := true }

/-- A peer's bag request becomes pooling work over its staged block, with n the carried rank (R216). -/
def State.openRequest (s : State) (f : FanStage) (r : Nat × Nat × Nat × Nat) : State :=
  match s.group? f.handle with
  | none => s
  | some g =>
    let (first, count, rank, tag) := r
    let w : BagWork :=
      { cell := none, cmd := remoteCmd, launch := 0, partition := g.partition, context := 0, handle := f.handle, va := 0,
        block := f.bytes, blockPoison := f.poison, first := first, count := count, epoch := f.epoch.toNat,
        versions := f.versions, n := rank, home := some (f.home, tag), homeLaunch := f.launch, homeBlock := f.block, taken := [],
        filling := [], windows := 0, bags := [], fetches := [], written := 0, abandoned := false, left := [] }
    { s.setWork s.nextWork w with nextWork := s.nextWork + 1 }

/-- Blocks that wait at the port enter the staging in arrival order while they fit, and their bag requests open (R217). -/
def State.admitStages (s : State) : Nat → State
  | 0 => s
  | n + 1 =>
    match s.fanStages.find? (fun f => f.held) with
    | none => s
    | some f =>
      if stagingBytes < s.stagingUsed + f.bytes.length then s
      else
        let f1 := { f with held := false, requests := [], served := f.served || !f.requests.isEmpty }
        let s1 := ({ s with fanStages := s.fanStages.map (fun x => if x == f then f1 else x) }).arriveEpoch f.handle f.epoch.toNat
        (f.requests.foldl (fun (acc : State) r => acc.openRequest f1 r) s1).admitStages n

/-- Row BAG_REQ_RECEIVE: a peer pools the requested bags from its staged block; a request that comes before its block waits for it
(R216). [DEDUCED, log entry 36; DEDUCED, log entry 183] -/
def State.bagReqReceive (s : State) (home launch block first count rank tag : Nat) : State :=
  match s.fanStages.find? (fun f => f.home == home && f.launch == launch && f.block == block) with
  | none => { s with earlyReqs := s.earlyReqs ++ [((home, launch, block), (first, count, rank, tag))] }
  | some f =>
    let f1 := if f.held then { f with requests := f.requests ++ [(first, count, rank, tag)] } else { f with served := true }
    let s1 := { s with fanStages := s.fanStages.map (fun x => if x == f then f1 else x) }
    if f.held then s1 else s1.openRequest f (first, count, rank, tag)

/-- The requests that came before a block are served once it has come. [DEDUCED, log entry 36; DEDUCED, log entry 183] -/
def State.serveEarly (s : State) (k : Nat × Nat × Nat) : State :=
  (s.earlyReqs.filter (fun (r : (Nat × Nat × Nat) × (Nat × Nat × Nat × Nat)) => r.1 == k)).foldl
    (fun (acc : State) (r : (Nat × Nat × Nat) × (Nat × Nat × Nat × Nat)) =>
      acc.bagReqReceive k.1 k.2.1 k.2.2 r.2.1 r.2.2.1 r.2.2.2.1 r.2.2.2.2)
    { s with earlyReqs := s.earlyReqs.filter (fun (r : (Nat × Nat × Nat) × (Nat × Nat × Nat × Nat)) => r.1 != k) }

/-- Row FANOUT_RECEIVE: a peer stages a bag block; while its 64 MiB are full the port withholds credit and the block waits (R217). -/
def State.fanoutReceive (s : State) (home launch block groupId : Nat) (epoch : DWord) (versions : List (Nat × Nat))
    (bytes : List Byte) (poison : List Nat) : State :=
  match s.handleOf groupId with
  | none => s
  | some h =>
    let held := s.fanStages.any (fun f => f.held) || decide (stagingBytes < s.stagingUsed + bytes.length)
    let st : FanStage := { home := home, launch := launch, block := block, handle := h, epoch := epoch, versions := versions,
                           bytes := bytes, poison := poison, held := held, requests := [], served := false }
    let s1 := { s with fanStages := s.fanStages ++ [st] }
    (if held then s1.bump 0x5301 0 1 else s1.arriveEpoch h epoch.toNat).serveEarly (home, launch, block)

/-- Mark a peer of a return entry as landed or lost, signal its semaphore, and free the entry once none is awaited.
[DEDUCED, log entry 36] -/
def State.peerDone (s : State) (tag : Nat) (e : RetEntry) (rank how : Nat) : State :=
  match e.kind with
  | .bag sem t pc segs rows peers landed =>
    let peers1 := tabSet peers rank how
    let s1 := if peers1.all (fun p => p.2 == 1 || p.2 == 2) then { s with returns := tabErase s.returns tag }
      else { s with returns := tabSet s.returns tag { e with kind := .bag sem t pc segs rows peers1 landed } }
    s1.peerSignal e
  | _ => s

/-- Once a cell's crossing holds no slice of a command, the peers whose slices are complete are done, and so are those whose
zeros have been written (R220, R221); a span's return that has landed is signalled (R233). -/
def State.settlePeers (s : State) (tag : Nat) : State :=
  match tabFind s.returns tag with
  | none => s
  | some e =>
    match e.kind with
    | .bag _ _ _ _ rows peers landed =>
      if e.ended || !s.landed e.cell (.peer tag) then s
      else peers.foldl (fun (acc : State) p =>
        match tabFind acc.returns tag with
        | none => acc
        | some e1 =>
          if p.2 == 0 && (tabGet [] landed p.1).length == rows.length then acc.peerDone tag e1 p.1 1
          else if p.2 == 3 then acc.peerDone tag e1 p.1 2
          else acc) s
    | .spanLanding sem =>
      if e.ended || !s.landed e.cell (.peer tag) then s
      else ({ s with returns := tabErase s.returns tag }).signal e.cell sem 1 0 8 0#32
    | _ => s

/-- Every entry of the return table is looked at. -/
def State.settleReturns (s : State) : State :=
  (s.returns.map (fun (r : Nat × RetEntry) => r.1)).foldl State.settlePeers s

/-- Offset of a peer's slice of an output row (R218). -/
def peerOffset (segs : List (Nat × Nat)) (own rank seg row b : Nat) : Nat :=
  let p := segs.getD seg (0, 0)
  p.1 + row * p.2 + rank * b - own * b

/-- A returning write enters the cell through its ingress buffer (R219). -/
def State.landReturn (s : State) (c tag off : Nat) (bs : List Byte) (po : Bool) : State :=
  s.ingest c { sender := .peer tag, off := off, bytes := bs, poison := po, suspect := false }

/-- A return that arrives after its command's outcome: dropped and counted (R221, R222, R233). -/
def State.lateReturn (s : State) : State := s.bump 0x5309 0 1

/-- A late return of a group. -/
def State.lateReturnOf (s : State) (h : Nat) : State := s.lateReturn.countGroup h 3 1

/-- Row GATHER_RECEIVE: the home device lands a peer's slice (R218); after a timeout or the launch's end it is dropped
and counted. While the cell's crossing has no credit for it, it has not arrived (R70). -/
def State.gatherReceive (s : State) (tag rank seg row : Nat) (bytes : List Byte) (poison : Bool) : State :=
  match tabFind s.returns tag with
  | none => s.lateReturn
  | some e =>
    match e.kind with
    | .bag sem t pc segs rows peers landed =>
      if e.ended || tabFind peers rank != some 0 then s.lateReturnOf e.handle
      else if !s.crossingRoom e.cell bytes.length then s
      else
        let own := match s.group? e.handle with | some g => g.rank | none => 0
        let got := tabGet [] landed rank
        let got1 := if got.contains (seg, row) then got else (seg, row) :: got
        let s1 := s.landReturn e.cell tag (peerOffset segs own rank seg row bytes.length) bytes poison
        let e1 := { e with kind := RetKind.bag sem t pc segs rows peers (tabSet landed rank got1) }
        ({ s1 with returns := tabSet s1.returns tag e1 }).settlePeers tag
    | _ => s.lateReturnOf e.handle

/-- Row FANOUT_TIMEOUT (R221). -/
def State.fanoutTimeout (s : State) (tag rank : Nat) : State :=
  match tabFind s.returns tag with
  | none => s
  | some e =>
    match e.kind with
    | .bag sem t pc segs rows peers landed =>
      if e.ended || tabFind peers rank != some 0 || !s.crossingRoom e.cell ((rows.map (fun r => r.2.2)).sum) then s
      else
        let (own, gid) := match s.group? e.handle with | some g => (g.rank, g.id) | none => (0, 0)
        let s1 := ((s.bump 0x5303 0 1).countGroup e.handle 2 1).event 0x32 1 true (bytesLE 4 gid ++ bytesLE 2 rank)
        let s2 := rows.foldl (fun acc r => acc.landReturn e.cell tag (peerOffset segs own rank r.1 r.2.1 r.2.2) (List.replicate r.2.2 0#8) true) s1
        let e1 := { e with kind := RetKind.bag sem t pc segs rows (tabSet peers rank 3) landed }
        ({ s2 with returns := tabSet s2.returns tag e1 }).settlePeers tag
    | _ => s

/-- Row ABANDON_RECEIVE: the launch's bags stop, its staged blocks are freed for blocks that wait, and the peer acknowledges
(R217, R222). -/
def State.abandonReceive (s : State) (home launch : Nat) : State :=
  let s1 : State := { s with
    fanStages := s.fanStages.filter (fun f => !(f.home == home && f.launch == launch))
    earlyReqs := s.earlyReqs.filter (fun r => !(r.1.1 == home && r.1.2.1 == launch))
    works := s.works.map (fun p =>
      if p.2.homeLaunch == launch && (match p.2.home with | some (h, _) => h == home | none => false)
      then (p.1, { p.2 with abandoned := true }) else p)
    fabricOut := s.fabricOut ++ [{ dst := home, body := .abandonAck launch }] }
  s1.admitStages s1.fanStages.length

/-- Row ABANDON_ACK_RECEIVE: once every peer has acknowledged, the launch's return entries are freed (R222). -/
def State.abandonAckReceive (s : State) (src launch : Nat) : State :=
  let rankIn := fun (h : Nat) => match s.group? h with | some g => g.members.findIdx? (· == src) | none => none
  { s with returns := s.returns.filterMap (fun p =>
      if p.2.launch == launch && p.2.ended && p.2.acks != [] then
        let left := p.2.acks.filter (fun r => some r != rankIn p.2.handle)
        if left.isEmpty then none else some (p.1, { p.2 with acks := left })
      else some p) }

/-- Row RETURN_ENTRY_EXPIRY: 1 ms after the launch's end (R222). -/
def State.returnEntryExpiry (s : State) (tag : Nat) : State :=
  match tabFind s.returns tag with
  | some e => if e.ended then { s with returns := tabErase s.returns tag } else s
  | none => s

/-- `FORAGER_STATE` (R185): whether fetches wait on a stack in throttle stage 3 is given by the caller. -/
def State.foragerStateWord (s : State) (f : Nat) (held : Bool) : Nat :=
  let bags := (s.works.map (fun p => (p.2.bags.filter (fun b => b.forager == f)).length)).sum
  let fl := s.slotsUsed f (fun _ _ => true)
  b2n (bags != 0) * 2 ^ 31 + b2n held * 2 ^ 30 + min fl 16384 * 2 ^ 15 + min bags 4096

end Sys2Proof.Machine
end

