-- ==== Sys2Proof/Machine/Tables.lean ====
section
/-!
DEFINITION. Tables: registration, pins, publishing and version slots (rows PIN_ROWS to VERSION_RELEASED and
ABORT_PUBLISH_RECEIVE; R161, R194–R199, R304).
-/
namespace Sys2Proof.Machine

/-! ## Rows and their addresses -/

/-- Virtual address of a row of a slot. [DEDUCED, log entry 37] -/
def rowVa (d : TableDesc) (slot row : Nat) : Nat := (d.slot slot).rowBase + row * rowStride d.record

/-- Physical address of a row of a slot, where its page is present and readable. [DEDUCED, log entry 37] -/
def State.rowPa (s : State) (d : TableDesc) (slot row : Nat) : Option Nat :=
  match s.place (d.slot slot).context (rowVa d slot row) with
  | .at_ pa => some pa
  | _ => none

/-- The slots of a table that are not FREE. -/
def TableDesc.used (d : TableDesc) : List Nat := (List.range 4).filter (fun i => (d.slot i).state != SlotSt.free)

/-- Places of rows in slots, as (stack, sector address). -/
def State.rowLines (s : State) (d : TableDesc) (slots rows : List Nat) : List (Nat × Nat) :=
  slots.flatMap (fun i => rows.filterMap (fun r => (s.rowPa d i r).map (fun pa => (stackOf pa, pa / 64))))

/-! ## Pinned lines (R194) -/

/-- Sectors of lines pinned by `PIN_ROWS` in a stack. -/
def Forager.pinned (f : Forager) (p : Nat) : Nat :=
  ((f.lines.filter (fun l => l.2.pin && l.2.ref == 0 && l.2.partition == p)).map (fun l => l.2.sectors)).sum

/-- Change the base line of an address. -/
def Forager.modBase (f : Forager) (addr : Nat) (g : RcLine → RcLine) : Forager :=
  { f with lines := f.lines.map (fun l => if l.2.addr == addr && l.2.ref == 0 then (l.1, g l.2) else l) }

/-- Does a forager hold the base line of an address? -/
def Forager.hasBase (f : Forager) (addr : Nat) : Bool := f.lines.any (fun l => l.2.addr == addr && l.2.ref == 0)

/-- Pin the line of a row, fetching it where no base line holds it; a fetch counts for its quarter's heat (R256). -/
def State.pinLine (s : State) (p n : Nat) (x : Nat × Nat) : State :=
  let f := s.forager x.1
  if f.hasBase x.2 then s.setForager x.1 (f.modBase x.2 (fun l => { l with pin := true }))
  else (s.forcePlace x.1 { addr := x.2, ref := 0, partition := p, sectors := n / 64, counter := f.estimate x.2, pin := true,
                           row := s.rowInDram (x.2 * 64) n }).noteSectors (x.2 * 64) (n / 64)

/-- Can the copies of rows in slots be fetched now: does each that no base line holds lie in a stack that accepts activates (R37)? -/
def State.pinsOpen (s : State) (d : TableDesc) (slots rows : List Nat) : Bool :=
  (s.rowLines d slots rows).all (fun x => (s.forager x.1).hasBase x.2 || s.stackOpen (x.2 * 64))

/-- Fetch the pinned copies of rows in slots. -/
def State.pinLines (s : State) (p : Nat) (d : TableDesc) (slots rows : List Nat) : State :=
  (s.rowLines d slots rows).foldl (fun acc x => acc.pinLine p (rowStride d.record) x) s

/-- Unpin the lines of rows in slots, wherever their quarters lie: a page that has lost `R` keeps its lines (R194). -/
def State.unpinLines (s : State) (d : TableDesc) (slots rows : List Nat) : State :=
  (slots.flatMap (fun i => rows.filterMap (fun r => s.blockPa (d.slot i).context (rowVa d i r)))).foldl (fun (acc : State) pa =>
    acc.modForager (stackOf pa) (fun f => f.modBase (pa / 64) (fun l => { l with pin := false }))) s

/-- Would pinning these lines keep the partition's pinned sectors of every stack at or below Q_p / 2 (R194)? -/
def State.pinsFit (s : State) (p n : Nat) (xs : List (Nat × Nat)) : Bool :=
  (List.range 4).all (fun k =>
    let f := s.forager k
    let new := (xs.filter (fun x => x.1 == k && !f.lines.any (fun l => l.2.addr == x.2 && l.2.ref == 0 && l.2.pin))).eraseDups
    decide (f.pinned p + new.length * (n / 64) ≤ s.quota p / 2))

/-- A table named by a payload: handle at 0x00, table at 0x04. -/
def State.namedTable (s : State) (b : List Byte) : Option (Nat × Nat × Group × TableDesc) :=
  match s.group? (leAt b 0 4), s.table? (leAt b 0 4) (leAt b 4 2) with
  | some g, some d => some (leAt b 0 4, leAt b 4 2, g, d)
  | _, _ => none

/-- Does the row list of `PIN_ROWS` and `UNPIN_ROWS` lie in stacks that accept activates (R37)? -/
def State.pinListOpen (s : State) (b : List Byte) : Bool := s.spanOpen (leAt b 8 2) (leAt b 0x10 8) (8 * leAt b 6 2)

/-- The row list of `PIN_ROWS` and `UNPIN_ROWS`, or the refusal. -/
def State.pinList (s : State) (b : List Byte) : Except Nat (Nat × Nat × Group × TableDesc × List Nat) :=
  match s.namedTable b with
  | none => .error stIllegalOp
  | some (h, t, g, d) =>
    let n := leAt b 6 2
    let ctx := leAt b 8 2
    let va := leAt b 0x10 8
    if n == 0 || decide (256 < n) || va % 8 != 0 || leAt b 0x0A 6 != 0 || !(s.ctx ctx).used || (s.ctx ctx).partition != g.partition
    then .error stIllegalOp
    else match s.vread ctx .read va (8 * n) with
      | .missing _ => .error stTranslationFatal
      | .fatal _ _ => .error stTranslationFatal
      | .held => .error stTranslationFatal
      | .ok bs po _ =>
        let rows := ((List.range n).map (fun i => leAt bs (8 * i) 8)).eraseDups
        if po then .error stPoisonConsumed
        else if rows.any (fun r => decide (recRows d.record ≤ r)) then .error stIndexRange
        else .ok (h, t, g, d, rows)

/-- Row PIN_ROWS. -/
def State.pinRows (s : State) : State := s.admRun 0x2B (some 24) (fun z b =>
  if !z.pinListOpen b then .later
  else match z.pinList b with
  | .error st => .no z st
  | .ok (h, t, g, d, rows) =>
    let new := rows.filter (fun r => !d.pins.contains r)
    if !z.pinsFit g.partition (rowStride d.record) (z.rowLines d d.used new) then .no z stBusy
    else if !z.pinsOpen d d.used new then .later
    else
      let z1 := z.setTable h t { d with pins := d.pins ++ new }
      .ok (z1.pinLines g.partition d d.used new) (bytesLE 4 new.length))

/-- Row UNPIN_ROWS. -/
def State.unpinRows (s : State) : State := s.admRun 0x2C (some 24) (fun z b =>
  if !z.pinListOpen b then .later
  else match z.pinList b with
  | .error st => .no z st
  | .ok (h, t, _, d, rows) =>
    let gone := rows.filter (fun r => d.pins.contains r)
    let z1 := z.setTable h t { d with pins := d.pins.filter (fun r => !gone.contains r) }
    .ok (z1.unpinLines d d.used gone) (bytesLE 4 gone.length))

/-! ## Registration -/

/-- Code of a slot state (R195). -/
def SlotSt.code : SlotSt → Nat
  | .free => 0 | .staged => 1 | .live => 2 | .superseded => 3

/-- The 192 B table descriptor (R195). -/
def State.descriptor (s : State) (h : Nat) (g : Group) (d : TableDesc) : List Byte :=
  d.record ++ bytesLE 2 g.rank ++ bytesLE 2 g.size ++ bytesLE 4 (g.rank * recWidth d.record) ++ bytesLE 8 d.tverLast
  ++ (List.range 4).flatMap (fun i =>
      let v := d.slot i
      bytesLE 8 v.tver ++ bytesLE 8 v.epochFrom ++ bytesLE 8 v.rowBase ++ bytesLE 8 v.dirBase)
  ++ (List.range 4).flatMap (fun i => bytesLE 1 (d.slot i).state.code)
  ++ (List.range 4).flatMap (fun i => bytesLE 4 (s.readers h d i))
  ++ bytesLE 12 0

/-- Row TABLE_QUERY. -/
def State.tableQuery (s : State) : State := s.admRun 0x2A (some 8) (fun z b =>
  match z.namedTable b with
  | some (h, _, g, d) => if leAt b 6 2 != 0 then .no z stIllegalOp else .ok z (z.descriptor h g d)
  | none => .no z stIllegalOp)

/-- Row TABLE_REGISTER. -/
def State.tableRegister (s : State) : State := s.admRun 0x28 (some 24) (fun z b =>
  let h := leAt b 0 4
  let t := leAt b 4 2
  let r := (b.drop 8).take 16
  if (z.group? h).isNone || decide (4095 < t) || (z.table? h t).isSome || leAt b 6 2 != 0 || !recordOk r then .no z stIllegalOp
  else if 65536 ≤ z.tables.length then .no z stBusy
  else .ok (z.setTable h t { record := r, tverLast := 0, slots := List.replicate 4 VerSlot.none, pins := [] }) [])

/-- Does a launch in flight name a group? -/
def State.groupNamed (s : State) (h : Nat) : Bool := s.launches.any (fun l => l.2.groups.any (fun g => g.1 == h))

/-- Row TABLE_UNREGISTER. -/
def State.tableUnregister (s : State) : State := s.admRun 0x29 (some 8) (fun z b =>
  match z.namedTable b with
  | none => .no z stIllegalOp
  | some (h, t, _, d) =>
    if leAt b 6 2 != 0 then .no z stIllegalOp
    else if !d.used.isEmpty || z.groupNamed h then .no z stBusy
    else .ok { z with tables := tabErase z.tables (tableKey h t) } [])

/-! ## Publishing (R196) -/

/-- `DETAIL` of an `RC_ERR` code (R290). -/
def rcDetail (code : Nat) : Nat := 128 + code

/-- The first failing PUBLISH check, as status and `RC_ERR` code (R196). A PUBLISH that a held advance waits for is not refused
for that advance (R197). [DEDUCED, log entry 149] -/
def State.publishCheck (s : State) (p : Nat) (k : List Byte) : Option (Nat × Nat) :=
  let h := leAt k 0 4
  let t := leAt k 4 2
  let tver := leAt k 8 8
  let e := leAt k 0x10 8
  let row := leAt k 0x18 8
  let dir := leAt k 0x20 8
  match s.group? h, s.table? h t with
  | some g, some d =>
    if g.partition != p || row % 64 != 0 || (if recSeq d.record then dir % 16 != 0 else dir != 0) || leAt k 6 2 != 0
      || !allZero (k.drop 0x28) then some (stIllegalOp, 1)
    else if tver ≤ d.tverLast then some (stIllegalOp, 7)
    else if e ≤ g.epoch.toNat ∨ (e ≤ g.asked.toNat ∧ !g.missing.contains (t, tver, e)) then some (stIllegalOp, 3)
    else if d.slots.any (fun v => v.state == SlotSt.staged && decide (e ≤ v.epochFrom)) then some (stIllegalOp, 3)
    else if !d.slots.any (fun v => v.state == SlotSt.free) then some (stBusy, 6)
    else if s.staged.any (fun x => x.committed && x.handle == h && x.entry.table == t && decide (e ≤ x.entry.epoch))
    then some (stBusy, 8)
    else none
  | _, _ => some (stIllegalOp, 1)

/-- The slot a PUBLISH fills: the lowest FREE one, with what it then holds (R199). -/
def TableDesc.newSlot (d : TableDesc) (ctx : Nat) (k : List Byte) : Option (Nat × VerSlot) :=
  ((List.range 4).find? (fun i => (d.slot i).state == SlotSt.free)).map (fun i =>
    (i, { state := .staged, tver := leAt k 8 8, epochFrom := leAt k 0x10 8, rowBase := leAt k 0x18 8, dirBase := leAt k 0x20 8,
          context := ctx, supAt := 0 }))

/-- Can the pinned rows of the slot that a PUBLISH fills be fetched now (R37)? -/
def State.publishOpen (s : State) (ctx : Nat) (k : List Byte) : Bool :=
  match s.table? (leAt k 0 4) (leAt k 4 2) with
  | some d => (match d.newSlot ctx k with
    | some (i, v) => s.pinsOpen (d.setSlot i v) [i] d.pins
    | none => true)
  | none => true

/-- Fill the lowest FREE slot of a table; its pinned rows are fetched (R194, R199). -/
def State.fillSlot (s : State) (ctx : Nat) (k : List Byte) : State :=
  let h := leAt k 0 4
  let t := leAt k 4 2
  match s.group? h, s.table? h t with
  | some g, some d =>
    (match d.newSlot ctx k with
     | none => s
     | some (i, v) =>
       let d1 := { d.setSlot i v with tverLast := leAt k 8 8 }
       (s.setTable h t d1).pinLines g.partition d1 [i] d1.pins)
  | _, _ => s

/-- Row PUBLISH. [DEDUCED, log entry 37] -/
def State.publish (s : State) (q : Nat) : State := s.takeHead q 2 (fun z b =>
  let k := chConsts b
  match z.publishCheck (z.queuePart q) k with
  | some (st, code) => (z.endTaken q b st (rcDetail code)).rcError code (leAt k 4 2) (z.queuePart q) 0 0
  | none =>
    if z.publishOpen (z.queue q).context k then (z.fillSlot (z.queue q).context k).endTaken q b stOk 0 else z)

/-! ## Slots that end (R197, R199) -/

/-- Does an address of a stack's row cache lie in the rows of a slot? The quarter it lies in gives the virtual address. -/
def State.inSlot (s : State) (d : TableDesc) (v : VerSlot) (addr : Nat) : Bool :=
  match tabFind s.quarters (addr * 64 / 2 ^ 28) with
  | some q =>
    let va := q.block * 2 ^ 28 + addr * 64 % 2 ^ 28
    q.context == v.context && decide (v.rowBase ≤ va) && decide (va < v.rowBase + recRows d.record * rowStride d.record)
  | none => false

/-- Change, or drop, the lines of a slot in every stack. -/
def State.slotLines (s : State) (d : TableDesc) (v : VerSlot) (g : RcLine → Option RcLine) : State :=
  (List.range 4).foldl (fun (acc : State) k => acc.modForager k (fun f =>
    { f with lines := f.lines.filterMap (fun (l : Nat × RcLine) =>
        if s.inSlot d v l.2.addr then (g l.2).map (fun x => (l.1, x)) else some l) })) s

/-- Release pending-epoch entries that no forward line refers to (R207). -/
def Forager.dropEpochs (f : Forager) : Forager :=
  { f with epochs := f.epochs.filter (fun e => f.lines.any (fun l => l.2.ref == e.1)) }
def State.dropEpochs (s : State) : State := (List.range 4).foldl (fun acc k => acc.modForager k Forager.dropEpochs) s

/-- `RESULT` of the version notices (R306). -/
def versionNotice (h t slot tver : Nat) : List Byte :=
  bytesLE 4 h ++ bytesLE 2 t ++ bytesLE 1 slot ++ bytesLE 1 0 ++ bytesLE 8 tver

/-- The migration of a quarter that lies in a slot's rows is abandoned when the slot is freed (R258). -/
def State.dropSlotMigration (s : State) (d : TableDesc) (v : VerSlot) : State :=
  match s.migration with
  | some m =>
    if m.phase != MigPhase.draining && m.context == v.context && decide (m.block * 2 ^ 28 < v.rowBase + recRows d.record * rowStride d.record)
        && decide (v.rowBase < (m.block + 1) * 2 ^ 28)
    then { s with migration := none } else s
  | none => s

/-- Free the STAGED slot of a `TVER`; its pinned lines, and what patches staged into it, are dropped (R199). -/
def State.abortSlot (s : State) (h t tver : Nat) : State :=
  match s.table? h t with
  | none => s
  | some d =>
    match (List.range 4).find? (fun i => (d.slot i).state == SlotSt.staged && (d.slot i).tver == tver) with
    | none => s
    | some i =>
      let v := d.slot i
      let s1 := (s.slotLines d v (fun l => if l.ref != 0 then none else if l.pin then none else some l)).dropEpochs
      let s2 := { s1 with staged := s1.staged.filter (fun x =>
        !(x.committed && x.handle == h && x.entry.table == t && x.slot == i)) }
      ((s2.dropSlotMigration d v).setTable h t (d.setSlot i VerSlot.none)).notice 2 (versionNotice h t i tver)

/-- Row ABORT_PUBLISH: here, and forwarded to every member (R197). -/
def State.abortPublish (s : State) : State := s.admRun 0x2D (some 16) (fun z b =>
  match z.namedTable b with
  | none => .no z stIllegalOp
  | some (h, t, g, _) =>
    if leAt b 6 2 != 0 then .no z stIllegalOp
    else
      let z1 := if g.size == 1 then z else z.sendPeers g (.abortPublish g.id t (leAt b 8 8))
      .ok (z1.abortSlot h t (leAt b 8 8)) [])

/-- Row ABORT_PUBLISH_RECEIVE. -/
def State.abortPublishReceive (s : State) (groupId table tver : Nat) : State :=
  match s.handleOf groupId with
  | some h => s.abortSlot h table tver
  | none => s

/-- May a SUPERSEDED slot be freed: no readers, L at or above E_s, every forward line of it written back (R199)? -/
def State.slotFreeable (s : State) (h t : Nat) (g : Group) (d : TableDesc) (i : Nat) : Bool :=
  (d.slot i).state == SlotSt.superseded && s.readers h d i == 0 && decide ((d.slot i).supAt ≤ s.lowMark h g)
  && !s.staged.any (fun x => x.committed && x.handle == h && x.entry.table == t && x.slot == i)

/-- Row VERSION_RELEASED. -/
def State.versionReleased (s : State) (h t i : Nat) : State :=
  match s.group? h, s.table? h t with
  | some g, some d =>
    if !s.slotFreeable h t g d i then s
    else
      let v := d.slot i
      let s1 := s.slotLines d v (fun l => some { l with counter := 0, pin := false })
      (((s1.dropSlotMigration d v).setTable h t (d.setSlot i VerSlot.none)).bump 0x420A 0 1).notice 1 (versionNotice h t i v.tver)
  | _, _ => s

end Sys2Proof.Machine
end

