-- ==== Sys2Proof/Machine/Patches.lean ====
section
/-!
DEFINITION. Row patches: checks, staging across the group, resolution and write-back (rows PATCH to PATCH_WRITEBACK and
PATCH_QUERY_RECEIVE; R200–R209).
-/
namespace Sys2Proof.Machine

/-! ## Reading the block (R200) -/

/-- Why the checks of a PATCH do not pass. -/
inductive PatchStop where
  | stall (va : Nat)
  | fatal (kind va : Nat)
  /-- The block lies in a stack in throttle stage 3 (R37). -/
  | held
  /-- Status, `RC_ERR` code, table, entry index, row. -/
  | refuse (status code table entry row : Nat)
deriving DecidableEq, Repr

/-- One patch entry as the block holds it. -/
structure RawPatch where
  row : Nat
  pver : Nat
  table : Nat
  mode : Nat
  off : Nat
  rsvOk : Bool
deriving DecidableEq, Repr

def rawPatch (b : List Byte) : RawPatch :=
  { row := leAt b 0 8, pver := leAt b 8 8, table := leAt b 0x10 2, mode := leAt b 0x12 1, off := leAt b 0x18 4,
    rsvOk := leAt b 0x13 5 == 0 && leAt b 0x1C 4 == 0 }

/-- Is the header well formed (R200, R201)? -/
def patchHeaderOk (b : List Byte) (count : Nat) : Bool :=
  leAt b 0 2 == 0x5054 && field (leAt b 2 1) 7 1 == 0 && leAt b 3 1 == 0 && leAt b 4 4 == count && allZero ((b.drop 0x14).take 44)

/-- The first index below `n` that satisfies a check. -/
def firstOf (n : Nat) (p : Nat → Bool) : Option Nat := (List.range n).find? p

/-- Bytes of one member's slice of an entry's data (R200). -/
def patchSlice (d : TableDesc) (mode : Nat) : Nat := if mode == 0 then rowStride d.record else 4 * recWidth d.record

/-- Read the slices of an entry, for ranks `rs`. -/
def State.patchData (s : State) (ctx va size : Nat) : List Nat → Except PatchStop (List (List Byte × Bool × Bool))
  | [] => .ok []
  | r :: rs =>
    if !s.spanOpen ctx (va + r * size) size then .error .held
    else match s.vread ctx .read (va + r * size) size with
    | .missing x => .error (.stall x)
    | .fatal k x => .error (.fatal k x)
    | .held => .error .held
    | .ok bs po su =>
      match s.patchData ctx va size rs with
      | .error e => .error e
      | .ok rest => .ok ((bs, po, su) :: rest)

/-! ## Checks (R201, R209) -/

/-- The stack whose forager holds an entry: that of its row in the slot in force at its epoch, which the quarter of its block
gives; stack 0 while the block has none. -/
def State.entryStack (s : State) (h : Nat) (e : PatchEntry) : Nat :=
  match s.table? h e.table with
  | some d => (match d.inForce e.epoch with
    | some i => (match s.blockPa (d.slot i).context (rowVa d i e.row) with | some pa => stackOf pa | none => 0)
    | none => 0)
  | none => 0

/-- Would these new entries of stack `k` break a limit (R209)? -/
def State.limitCode (s : State) (h k : Nat) (new : List PatchEntry) : Option Nat :=
  let held := s.staged.filter (fun x => x.stack == k)
  let rows := ((held.map (fun x => (x.handle, x.entry.table, x.entry.row, x.entry.epoch)))
    ++ new.map (fun e => (h, e.table, e.row, e.epoch))).eraseDups
  let sectors : Nat := (rows.map (fun r => match s.table? r.1 r.2.1 with | some d => rowStride d.record / 64 | none => 0)).sum
  let epochs := ((held.map (fun x => x.entry.epoch)) ++ new.map (·.epoch)).eraseDups
  if new.isEmpty then none
  else if 8192 < held.length + new.length ∨ 65536 < sectors then some 4
  else if 15 < epochs.length then some 5 else none

/-- The first entry that breaks a limit, with the code. -/
def State.limitFail (s : State) (h : Nat) (es : List PatchEntry) : Option (Nat × Nat) :=
  (List.range es.length).findSome? (fun n =>
    (List.range 4).findSome? (fun k =>
      (s.limitCode h k ((es.take (n + 1)).filter (fun e => s.entryStack h e == k))).map (fun c => (n, c))))

/-- The checks of R201 on a member's own entries, in the order of the table. [DEDUCED, log entry 44] -/
def State.entriesCheck (s : State) (h : Nat) (g : Group) (recs : Table (List Byte)) (es : List PatchEntry) : Option PatchStop :=
  let tab := fun (e : PatchEntry) => s.table? h e.table
  let fail := fun (status code : Nat) (p : PatchEntry → Bool) =>
    (firstOf es.length (fun i => (es[i]?.map p).getD false)).map (fun i =>
      let e := es.getD i { key := { pver := 0, src := 0, seq := 0, idx := 0 }, epoch := 0, table := 0, row := 0, mode := 0, data := [], poison := [], suspect := false }
      PatchStop.refuse status code e.table e.key.idx e.row)
  (fail stIllegalOp 1 (fun e => match tab e with
     | none => true
     | some d => (match tabFind recs e.table with | some r => r != d.record | none => false))).or
  ((fail stIllegalOp 9 (fun e => match tab e with | some d => recSeq d.record | none => false)).or
  ((fail stIllegalOp 0xA (fun e => match tab e with | some d => e.mode == 0 && !headerOk d.record e.data | none => false)).or
  ((fail stIndexRange 2 (fun e => match tab e with | some d => decide (recRows d.record ≤ e.row) | none => false)).or
  ((fail stIllegalOp 3 (fun e => decide (e.epoch ≤ g.epoch.toNat) || decide (e.epoch ≤ g.asked.toNat))).or
  ((fail stIllegalOp 0xC (fun e => match tab e with | some d => (d.inForce e.epoch).isNone | none => false)).or
  ((s.limitFail h es).map (fun p => match es[p.1]? with
     | some e => PatchStop.refuse stBusy p.2 e.table e.key.idx e.row
     | none => PatchStop.refuse stBusy p.2 0 0 0)))))))

/-- The entries of every rank of `ranks`, read and checked but for what a member checks on its own. [DEDUCED, log entry 49] -/
def State.readEntries (s : State) (q : Nat) (w : CmdWork) (h epoch : Nat) (src : Nat) (ranks : List Nat)
    (raws : List RawPatch) : Nat → Except PatchStop (List (List PatchEntry))
  | i =>
    match raws with
    | [] => .ok (ranks.map (fun _ => []))
    | r :: rest =>
      match s.table? h r.table with
      | none => .error (.refuse stIllegalOp 1 r.table i r.row)
      | some d =>
        match s.patchData (s.queue q).context (w.va + r.off) (patchSlice d r.mode) ranks with
        | .error e => .error e
        | .ok slices =>
          match s.readEntries q w h epoch src ranks rest (i + 1) with
          | .error e => .error e
          | .ok tails =>
            .ok ((slices.zip tails).map (fun p =>
              { key := { pver := r.pver, src := src, seq := w.patch, idx := i }, epoch := epoch, table := r.table, row := r.row,
                mode := r.mode, data := p.1.1, poison := if p.1.2.1 then [0] else [], suspect := p.1.2.2 } :: p.2))

/-- `SRC` of patches entered by a queue (R204). [DEDUCED, log entry 46] -/
def State.patchSrc (s : State) (q : Nat) : Nat := s.ownAddr * 1024 + q

/-- What the entry member reads and checks: its group's handle, the ranks that get entries, and their entries. -/
def State.patchRead (s : State) (q : Nat) (w : CmdWork) : Except PatchStop (Nat × Group × List (Nat × List PatchEntry)) :=
  let ctx := (s.queue q).context
  let n := w.count
  if !s.spanOpen ctx w.va (64 + 32 * n) then .error .held
  else match s.vread ctx .read w.va (64 + 32 * n) with
  | .missing x => .error (.stall x)
  | .fatal k x => .error (.fatal k x)
  | .held => .error .held
  | .ok bs po _ =>
    let raws := (List.range n).map (fun i => rawPatch ((bs.drop (64 + 32 * i)).take 32))
    let bad := fun (i : Nat) (off len : Nat) => match s.vread ctx .read (w.va + off) len with
      | .ok _ p _ => if p then some i else none
      | _ => none
    if po then
      let i := if (bad 0 0 64).isSome then 0 else ((List.range n).findSome? (fun i => bad i (64 + 32 * i) 32)).getD 0
      .error (.refuse stPoisonConsumed 0xB ((raws[i]?.map (·.table)).getD 0) i ((raws[i]?.map (·.row)).getD 0))
    else
      let h := leAt bs 0x10 4
      let full := bitAt (leAt bs 2 1) 0
      match s.group? h with
      | none => .error (.refuse stIllegalOp 1 0 0 0)
      | some g =>
        if g.partition != s.queuePart q || !patchHeaderOk bs n then .error (.refuse stIllegalOp 1 0 0 0)
        else match firstOf n (fun i => match raws[i]? with
            | some r => !r.rsvOk || decide (1 < r.mode) || r.off % 64 != 0 || (s.table? h r.table).isNone
            | none => false) with
          | some i => .error (.refuse stIllegalOp 1 ((raws[i]?.map (·.table)).getD 0) i ((raws[i]?.map (·.row)).getD 0))
          | none =>
            match firstOf n (fun i => match raws[i]? with
                | some r => (match s.table? h r.table with | some d => recSeq d.record | none => false)
                | none => false) with
            | some i => .error (.refuse stIllegalOp 9 ((raws[i]?.map (·.table)).getD 0) i ((raws[i]?.map (·.row)).getD 0))
            | none =>
              let ranks := if full then List.range g.size else [0]
              match s.readEntries q w h (leAt bs 8 8) (s.patchSrc q) ranks raws 0 with
              | .error e => .error e
              | .ok lists =>
                let own := (lists.getD (if full then g.rank else 0) [])
                match s.entriesCheck h g [] own with
                | some e => .error e
                | none => .ok (h, g, if full then ranks.zip lists else [(g.rank, own)])

/-! ## Resolution (R205, R206) -/

/-- A row being resolved: its bytes, elements, and poison; `bad` says the header is invalid and nothing is interpreted. -/
structure RowWork where
  bytes : List Byte
  elems : List FVal
  poison : Bool
  suspect : Bool
  bad : Bool

/-- decode of R205. [DEDUCED, log entry 43] -/
def rowWork (r bs : List Byte) (poison suspect : Bool) : RowWork :=
  { bytes := bs, elems := (List.range (recWidth r)).map (rowElement r bs), poison := poison || !headerOk r bs, suspect := suspect
    bad := !headerOk r bs }

/-- One entry applied (R205). [DESIGN CHOICE, log entry 35; DEDUCED, log entry 43] -/
def RowWork.apply (r : List Byte) (w : RowWork) (e : PatchEntry) : RowWork :=
  if e.mode == 0 then rowWork r e.data (!e.poison.isEmpty) e.suspect
  else { w with
    elems := ((List.range w.elems.length).zip w.elems).map (fun (p : Nat × FVal) =>
      r32 (p.2.add (fmtFp32.decode (leAt e.data (4 * p.1) 4))))
    poison := w.poison || !e.poison.isEmpty
    suspect := w.suspect || e.suspect }

/-- Codes packed at `width` bits each, first element lowest. -/
def packCodes (width : Nat) (codes : List Nat) : List Byte :=
  bytesLE (codes.length * width / 8) (codes.foldr (fun c acc => c + 2 ^ width * acc) 0)

/-- encode of R205: the bytes, and how many elements clipped. Bytes past the elements keep what they hold; a row whose
header is invalid holds free bytes of index `k`. [DEDUCED, log entry 48] -/
def RowWork.encode (r : List Byte) (w : RowWork) (k : Nat) : List Byte × Nat :=
  let f := recFmt r
  let c := rowElem f
  let h := rowHeader f
  let n := recWidth r * fmtWidth c / 8
  if w.bad then (w.bytes.take h ++ (List.range n).map (Config.freeByte k) ++ w.bytes.drop (h + n), 0)
  else
    let zp := if fmtHasZp c then leAt w.bytes 1 1 else 0
    let sh := if h == 0 then 0 else shiftOf (leAt w.bytes 0 1)
    let out := w.elems.map (fun v => outputElement c zp (-sh) false 0 (.flt v))
    (w.bytes.take h ++ packCodes (fmtWidth c) (out.map (·.1)) ++ w.bytes.drop (h + n), (out.filter (·.2)).length)

/-- Does `a` come before `b` in the order of R204? -/
def keyBefore (a b : PatchKey) : Bool :=
  if a.pver != b.pver then decide (a.pver < b.pver)
  else if a.src != b.src then decide (a.src < b.src)
  else if a.seq != b.seq then decide (a.seq < b.seq)
  else decide (a.idx < b.idx)

/-- Entries in key order. -/
def insertPatch (e : PatchEntry) : List PatchEntry → List PatchEntry
  | [] => [e]
  | a :: r => if keyBefore e.key a.key then e :: a :: r else a :: insertPatch e r
def sortEntries (es : List PatchEntry) : List PatchEntry := es.foldl (fun acc e => insertPatch e acc) []

/-- The committed entries of a row at an epoch. -/
def State.rowEntries (s : State) (h t row e : Nat) : List PatchEntry :=
  sortEntries ((s.staged.filter (fun x => x.committed && x.handle == h && x.entry.table == t && x.entry.row == row
    && x.entry.epoch == e)).map (·.entry))

/-- The forward line of an address at an epoch. -/
def Forager.forward (f : Forager) (addr e : Nat) : Option (Nat × RcLine) :=
  f.lines.find? (fun l => l.2.addr == addr && l.2.ref != 0 && tabGet 0 f.epochs l.2.ref == e)

/-- The line that holds the base of a resolution: the forward line of the latest earlier epoch, or else the base line (R205). -/
def State.heldBase (s : State) (k addr e : Nat) : Option RowData :=
  let f := s.forager k
  let earlier := f.lines.filter (fun l => l.2.addr == addr && l.2.ref != 0 && decide (tabGet 0 f.epochs l.2.ref < e))
  match earlier.foldl (fun (best : Option (Nat × RcLine)) l => match best with
      | some b => if tabGet 0 f.epochs b.2.ref < tabGet 0 f.epochs l.2.ref then some l else best
      | none => some l) none with
  | some l => some l.2.row
  | none => (f.lines.find? (fun l => l.2.addr == addr && l.2.ref == 0)).map (fun l => l.2.row)

/-- The pending-epoch entry of an epoch: the one in use, or the lowest free. -/
def Forager.epochRef (f : Forager) (e : Nat) : Option Nat :=
  match f.epochs.find? (fun x => x.2 == e) with
  | some x => some x.1
  | none => tabFree f.epochs 1 16

/-- Hold a resolved row as a forward line (R206): the line of that epoch is replaced, or a new one is placed over the victims of
R193; false where they do not make room. [DEDUCED, log entry 47] -/
def State.holdForward (s : State) (p k addr e : Nat) (row : RowData) : State × Bool :=
  let f := s.forager k
  match f.forward addr e with
  | some (key, l) => (s.setForager k { f with lines := tabSet f.lines key { l with row := row } }, true)
  | none =>
    match f.epochRef e with
    | none => (s, false)
    | some ref =>
      let set := rcSet addr
      let counter := match f.lines.find? (fun l => l.2.addr == addr && l.2.ref == 0) with
        | some l => l.2.counter
        | none => f.estimate addr
      let line : RcLine := { addr := addr, ref := ref, partition := p, sectors := row.bytes.length / 64, counter := counter, pin := true, row := row }
      match takeVictims line.sectors (f.freeSectors set) (32 - (f.setLines set).length) (s.victims f p set) with
      | some vs => ((s.setForager k ({ f with epochs := tabSet f.epochs ref e }.place vs line)).bump 0x4204 (k + 1) vs.length, true)
      | none => (s, false)

/-- Mark the committed entries of a row at an epoch as resolved on a stack. -/
def State.markResolved (s : State) (h t row e k : Nat) : State :=
  { s with staged := s.staged.map (fun x =>
      if x.committed && x.handle == h && x.entry.table == t && x.entry.row == row && x.entry.epoch == e
      then { x with resolved := true, stack := k } else x) }

/-- Resolve a row onto an address from a base (R205, R206). -/
def State.resolveOnto (s : State) (h t row e : Nat) (g : Group) (d : TableDesc) (pa : Nat) (base : RowData) : State :=
  let k := stackOf pa
  let w := (s.rowEntries h t row e).foldl (RowWork.apply d.record)
    (rowWork d.record base.bytes (!base.poison.isEmpty) (!base.suspect.isEmpty))
  let (bytes, clipped) := w.encode d.record s.free
  let s0 := if w.bad then { s with free := s.free + 1 } else s
  let data : RowData := { bytes := bytes, poison := if w.poison then List.range (bytes.length / 64) else []
                          suspect := if w.suspect then List.range (bytes.length / 64) else [] }
  let (s1, ok) := s0.holdForward g.partition k (pa / 64) e data
  if ok then (s1.bump 0x4207 (k + 1) clipped).markResolved h t row e k else s1

/-- Mark the committed entries of a row at an epoch: their base is lost (R206). -/
def State.markLost (s : State) (h t row e : Nat) : State :=
  { s with staged := s.staged.map (fun x =>
      if x.committed && x.handle == h && x.entry.table == t && x.entry.row == row && x.entry.epoch == e then { x with lost := true } else x) }

/-- Epochs above `e` at which a row has resolved entries, ascending. -/
def State.laterEpochs (s : State) (h t row e : Nat) : List Nat :=
  let es := ((s.staged.filter (fun x => x.committed && x.resolved && x.handle == h && x.entry.table == t && x.entry.row == row
    && decide (e < x.entry.epoch))).map (fun x => x.entry.epoch)).eraseDups
  es.foldl (fun acc x => (acc.filter (· < x)) ++ [x] ++ acc.filter (x < ·)) []

/-- The first page of a row that a stack read cannot use: its address, and why. -/
def State.rowMissing (s : State) (ctx va n : Nat) : Option (Nat × RowPlace) :=
  (spanPages va n).findSome? (fun p =>
    let x := (pagePart va n p).1
    match s.place ctx x with
    | .at_ _ => none
    | r => some (x, r))

/-- Resolve one row at one epoch, without the epochs after it. A base that a line holds needs no page; else the stack is read, once
it accepts activates (R37). `lost` says that the base cannot be read: the row then resolves from
poisoned zeros, once its address is known (R206). [DEDUCED, log entry 49] -/
def State.resolveOne (s : State) (h t row e : Nat) (lost : Bool) : State :=
  match s.group? h, s.table? h t, s.staged.find? (fun x => x.committed && x.handle == h && x.entry.table == t
      && x.entry.row == row && x.entry.epoch == e) with
  | some g, some d, some x =>
    let ctx := (d.slot x.slot).context
    let va := rowVa d x.slot row
    let n := rowStride d.record
    let zeros : RowData := { bytes := List.replicate n 0#8, poison := List.range (n / 64), suspect := [] }
    let bound := s.blockPa ctx va
    let onLost := fun (z : State) => match bound with
      | some pa => z.resolveOnto h t row e g d pa zeros
      | none => z.markLost h t row e
    let onto := fun (z : State) (pa : Nat) (base : RowData) => z.resolveOnto h t row e g d pa base
    let held := bound.bind (fun pa => (s.heldBase (stackOf pa) (pa / 64) e).map (fun r => (pa, r)))
    if lost || x.lost then onLost s
    else match held, s.rowMissing ctx va n, s.place ctx va with
    | some (pa, r), _, _ => onto s pa r
    | none, none, .at_ pa => if s.stackOpen pa then onto (s.noteSectors pa (n / 64)) pa (s.rowInDram pa n) else s
    | none, some (at_, .missing), _ =>
      let who : Requester := .patchRow x.stack h t row e
      if s.stalled who then s
      else s.resumable { collector := 16 + x.stack, context := ctx, va := at_, access := .read, who := who, launch := 0, stale := false }
    | none, some (at_, .fatal kind), _ =>
      onLost ((s.markLost h t row e).fatalFault (16 + x.stack) kind 0 .read 0xFF ctx at_ none stTranslationFatal)
    | none, _, _ => s
  | _, _, _ => s

/-- Resolve a row at an epoch, and again at the later epochs that build on it. -/
def State.resolveRow (s : State) (h t row e : Nat) (lost : Bool) : State :=
  let s1 := s.resolveOne h t row e lost
  (s1.laterEpochs h t row e).foldl (fun acc x => acc.resolveOne h t row x false) s1

/-- Rows of committed entries that are not resolved and wait for no page are tried again: for room in their set, or for an address. -/
def State.retryPatches (s : State) : State :=
  let rows := ((s.staged.filter (fun x => x.committed && !x.resolved)).map (fun x =>
    (x.stack, x.handle, x.entry.table, x.entry.row, x.entry.epoch))).eraseDups
  rows.foldl (fun (acc : State) r =>
    if acc.stalled (.patchRow r.1 r.2.1 r.2.2.1 r.2.2.2.1 r.2.2.2.2) then acc
    else acc.resolveRow r.2.1 r.2.2.1 r.2.2.2.1 r.2.2.2.2 false) s

/-! ## Staging and commitment (R202, R203) -/

/-- An entry as a Hante frame carries it: without suspect (R411). -/
def PatchEntry.framed (e : PatchEntry) : PatchEntry := { e with suspect := false }

/-- Stage entries as tentative. -/
def State.stageEntries (s : State) (h : Nat) (es : List PatchEntry) : State :=
  { s with staged := s.staged ++ es.map (fun e =>
      { handle := h, entry := e, committed := false, slot := 0, va := 0, stack := s.entryStack h e, resolved := false,
        lost := false }) }

/-- Is a staged entry tentative under an identity? -/
def Staged.tentative (x : Staged) (src seq : Nat) : Bool := !x.committed && x.entry.key.src == src && x.entry.key.seq == seq

/-- The slot a staged entry targets if it commits now (R203). [DEDUCED, log entry 47] -/
def State.targetSlot (s : State) (x : Staged) : Option Nat :=
  match s.table? x.handle x.entry.table with
  | some d => d.inForce x.entry.epoch
  | none => none

/-- Commit the tentative entries of an identity: each targets the slot in force at its epoch (R203), and its row is
resolved. Where an ABORT_PUBLISH has left no such slot, the entry patches nothing. [DEDUCED, log entry 47] -/
def State.commitEntries (s : State) (src seq : Nat) : State :=
  let mine := s.staged.filter (fun x => x.tentative src seq)
  let live := mine.filter (fun x => (s.targetSlot x).isSome)
  let commit := fun (x : Staged) =>
    if x.tentative src seq then
      (match s.table? x.handle x.entry.table, s.targetSlot x with
       | some d, some i => some { x with committed := true, slot := i, va := rowVa d i x.entry.row }
       | _, _ => none)
    else some x
  let s1 := { s with staged := s.staged.filterMap commit }
  let s2 := mine.foldl (fun (acc : State) x => acc.bump 0x4206 (x.stack + 1) 1) s1
  ((live.map (fun x => (x.handle, x.entry.table, x.entry.row, x.entry.epoch))).eraseDups).foldl
    (fun (acc : State) r => acc.resolveRow r.1 r.2.1 r.2.2.1 r.2.2.2 false) s2

/-- Drop the tentative entries of an identity. -/
def State.cancelEntries (s : State) (src seq : Nat) : State :=
  { s with staged := s.staged.filter (fun x => !x.tentative src seq) }

/-- Take a command's work off its queue and list its completion. [DEDUCED, log entry 45] -/
def State.workDone (s : State) (q index status detail : Nat) : State :=
  match (s.queue q).work.find? (fun w => w.index == index) with
  | none => s
  | some w =>
    (s.modQueue q (fun x => { x with work := x.work.filter (fun j => j.index != index) })).pushReady q
      (.cmd w.launchId w.index status detail w.irq (s.time - w.start).toNat)

/-- Send the outcome of a PATCH to every other member. -/
def State.sendOutcome (s : State) (h src seq : Nat) (commit : Bool) : State :=
  match s.group? h with
  | some g => if g.size == 1 then s else s.sendPeers g (.patchOutcome src seq commit)
  | none => s

/-- Forget the waits of a requester. -/
def State.dropWaits (s : State) (p : Requester → Bool) : State :=
  let out := fun (ws : List Walk) => ws.filter (fun w => !p w.who)
  { s with
    walks := out s.walks
    collectors := s.collectors.map (fun c => (c.1, { c.2 with
      queue := out c.2.queue
      records := c.2.records.map (fun r => (r.1, { r.2 with waiters := out r.2.waiters })) })) }

/-- Check a PATCH and stage it (R201, R202): stalled at a page, refused, decided at once when no other member takes part,
or sent to the other members. [DEDUCED, log entry 44; DEDUCED, log entry 49] -/
def State.patchCheck (s : State) (q index : Nat) : State :=
  match (s.queue q).work.find? (fun w => w.index == index && w.kind == 3 && !w.checked) with
  | none => s
  | some w =>
    match s.patchRead q w with
    | .error (.stall va) =>
      let who : Requester := .patchBlock q index
      if s.stalled who then s
      else s.resumable { collector := 16, context := (s.queue q).context, va := va, access := .read, who := who, launch := 0, stale := false }
    | .error .held => s
    | .error (.fatal k va) =>
      (s.fatalFault 16 k 0 .read 0xFF (s.queue q).context va none stTranslationFatal).workDone q index stTranslationFatal 0
    | .error (.refuse st code t i row) => (s.workDone q index st (rcDetail code)).rcError code t (s.queuePart q) i row
    | .ok (h, g, lists) =>
      let src := s.patchSrc q
      let own := ((lists.find? (fun l => l.1 == g.rank)).map (·.2)).getD []
      let s1 := s.stageEntries h own
      let peers := lists.filter (fun l => l.1 != g.rank)
      if peers.isEmpty then
        ({ (s1.commitEntries src w.patch) with committed := (src, w.patch, h) :: s1.committed }).workDone q index stOk 0
      else
        let tabs := (own.map (·.table)).eraseDups
        let recs : Table (List Byte) := tabs.foldl (fun (acc : Table (List Byte)) t => match s.table? h t with | some d => tabSet acc t d.record | none => acc) []
        let s2 := peers.foldl (fun (acc : State) l =>
        acc.sendRank g l.1 (.patchStage g.id src w.patch recs (l.2.map PatchEntry.framed))) s1
        let pw : PatchWork := { queue := q, index := index, launchId := w.launchId, irq := w.irq, handle := h, answers := [] }
        let s3 := s2.modQueue q (fun x => { x with work := x.work.map (fun j => if j.index == index then { j with checked := true, handle := h } else j) })
        { s3 with patches := s3.patches ++ [(src, w.patch, pw)] }

/-- PATCH commands whose blocks lay in a stack in throttle stage 3 are read again (R37). -/
def State.retryChecks (s : State) : State :=
  (s.queues.flatMap (fun (q : Nat × Queue) => (q.2.work.filter (fun w => w.kind == 3 && !w.checked)).map (fun w => (q.1, w.index)))).foldl
    (fun (acc : State) p => if acc.stalled (.patchBlock p.1 p.2) then acc else acc.patchCheck p.1 p.2) s

/-- Row PATCH. [DEDUCED, log entry 46] -/
def State.patch (s : State) (q : Nat) : State := s.takeHead q 3 (fun z b =>
  let k := chConsts b
  let seq := ((z.queue q).patches + 1) % 2 ^ 32
  let z1 := z.modQueue q (fun x => { x with patches := seq })
  if leAt k 0 8 % 64 != 0 || leAt k 8 4 == 0 || decide (4096 < leAt k 8 4) || !allZero (k.drop 12) then
    (z1.endTaken q b stIllegalOp (rcDetail 1)).rcError 1 0 (z.queuePart q) 0 0
  else
    let n := (z.queue q).taken.toNat % 2 ^ 32
    let w : CmdWork := { index := n, launchId := chLaunchId b, kind := 3, irq := chIrq b, handle := 0, target := 0#64, patch := seq,
                         va := leAt k 0 8, count := leAt k 8 4, checked := false, start := z.time }
    ((z1.countTaken q).modQueue q (fun x => { x with work := x.work ++ [w] })).patchCheck q n)

/-- Row PATCH_STAGE_RECEIVE: the member checks its entries, stages them and answers (R202). -/
def State.patchStageReceive (s : State) (groupId src seq : Nat) (records : Table (List Byte)) (es : List PatchEntry) : State :=
  match s.handleOf groupId with
  | none => s
  | some h =>
    match s.group? h with
    | none => s
    | some g =>
      let answer := fun (z : State) (st code : Nat) =>
        { z with fabricOut := z.fabricOut ++ [{ dst := src / 1024, body := .patchAnswer src seq g.rank st code }] }
      match s.entriesCheck h g records es with
      | some (.refuse st code t i row) => answer (s.rcError code t g.partition i row) st code
      | some _ => s
      | none => answer (s.stageEntries h (es.map PatchEntry.framed)) stOk 0

/-- Row PATCH_ANSWER_RECEIVE: with every answer in, the entry member decides (R202). [DEDUCED, log entry 45] -/
def State.patchAnswerReceive (s : State) (src seq rank status code : Nat) : State :=
  match s.patches.find? (fun p => p.1 == src && p.2.1 == seq) with
  | none => s
  | some (_, _, w) =>
    match s.group? w.handle with
    | none => s
    | some g =>
      if g.size ≤ rank ∨ rank = g.rank then s
      else
        let w1 := { w with answers := tabSet w.answers rank (status, code) }
        let rest := s.patches.filter (fun p => !(p.1 == src && p.2.1 == seq))
        if w1.answers.length + 1 < g.size then { s with patches := rest ++ [(src, seq, w1)] }
        else
          let s1 := { s with patches := rest }
          match w1.answers.find? (fun a => a.2.1 != 0) with
          | some a => ((s1.sendOutcome w.handle src seq false).cancelEntries src seq).workDone w.queue w.index a.2.1 (rcDetail a.2.2)
          | none =>
            let s2 := s1.sendOutcome w.handle src seq true
            ({ (s2.commitEntries src seq) with committed := (src, seq, w.handle) :: s2.committed }).workDone w.queue w.index stOk 0

/-- Row PATCH_COMMIT_RECEIVE. -/
def State.patchCommitReceive (s : State) (src seq : Nat) : State := s.commitEntries src seq

/-- Row PATCH_CANCEL_RECEIVE. -/
def State.patchCancelReceive (s : State) (src seq : Nat) : State := s.cancelEntries src seq

/-- Row PATCH_OUTCOME_QUERY: a member that has held tentative entries for 10 ms asks the entry member (R202). -/
def State.patchOutcomeQuery (s : State) (src seq : Nat) : State :=
  if s.staged.any (fun x => x.tentative src seq) && src / 1024 != s.ownAddr then
    { s with fabricOut := s.fabricOut ++ [{ dst := src / 1024, body := .patchQuery src seq s.ownAddr }] }
  else s

/-- Row PATCH_QUERY_RECEIVE: undecided, no answer yet; committed, commit; else cancel (R202, R268). -/
def State.patchQueryReceive (s : State) (src seq asker : Nat) : State :=
  if s.patches.any (fun p => p.1 == src && p.2.1 == seq) then s
  else { s with fabricOut := s.fabricOut ++ [{ dst := asker, body := .patchOutcome src seq (s.committed.any (fun c => c.1 == src && c.2.1 == seq)) }] }

/-- The expiry of a PATCH before its decision: cancelled everywhere, TIMEOUT (R202). -/
def State.patchTimeout (s : State) (q index : Nat) : State :=
  match (s.queue q).work.find? (fun w => w.index == index && w.kind == 3) with
  | none => s
  | some w =>
    let src := s.patchSrc q
    let s1 := (s.dropWaits (fun r => r == .patchBlock q index)).bump 0xA103 0 1
    let s2 := if w.checked then
        (({ s1 with patches := s1.patches.filter (fun p => !(p.1 == src && p.2.1 == w.patch)) }).sendOutcome w.handle src w.patch false).cancelEntries
          src w.patch
      else s1
    s2.workDone q index stTimeout 0

/-! ## Write-back (R207) -/

/-- Is a quarter under migration, so that write-backs to it are held (R258)? -/
def State.migrating (s : State) (ctx va : Nat) : Bool :=
  match s.migration with
  | some m => m.phase != MigPhase.copied && m.context == ctx && m.block == va / 2 ^ 28
  | none => false

/-- Row PATCH_WRITEBACK: the forward line of a row at an epoch is written to its slot's DRAM. [DEDUCED, log entry 48] -/
def State.patchWriteback (s : State) (h t row e : Nat) : State :=
  match s.group? h, s.table? h t, s.staged.find? (fun x => x.committed && x.resolved && x.handle == h && x.entry.table == t
      && x.entry.row == row && x.entry.epoch == e) with
  | some g, some d, some x =>
    let ctx := (d.slot x.slot).context
    if decide (s.lowMark h g < e) || s.migrating ctx x.va then s
    else
      let rest := { s with staged := s.staged.filter (fun y => !(y.committed && y.handle == h && y.entry.table == t
        && y.entry.row == row && y.entry.epoch == e)) }
      match s.blockPa ctx x.va with
      | none => rest
      | some pa =>
        let k := stackOf pa
        let f := s.forager k
        match f.forward (pa / 64) e with
        | none => rest
        | some (key, l) =>
          let earlier := f.lines.any (fun y => y.2.addr == pa / 64 && y.2.ref != 0 && decide (tabGet 0 f.epochs y.2.ref < e))
          if earlier then s
          else
          let lines := tabSet (f.lines.filter (fun y => !(y.2.addr == pa / 64 && y.2.ref == 0))) key
            { l with ref := 0, pin := d.pins.contains row }
          let s1 := (rest.setForager k ({ f with lines := lines }.dropEpochs)).bump 0x4208 (k + 1) 1
          (s1.dramWrite pa l.row.bytes (!l.row.poison.isEmpty)).taskRun 8
  | _, _, _ => s

end Sys2Proof.Machine
end

