-- ==== Sys2Proof/Machine/Sha.lean ====
section
/-!
DEFINITION. SHA-384, by which the device digests version lists and checks images (R225, R305, R489); its constants are computed
as the standard defines them.
-/
namespace Sys2Proof.Machine

/-- The primes up to `top`: numbers from 2 on that no prime before them divides. -/
def primesTo (top : Nat) : List Nat :=
  (List.range (top + 1)).foldl (fun (ps : List Nat) p => if decide (2 ≤ p) && ps.all (fun q => p % q != 0) then ps ++ [p] else ps) []

/-- The largest number of at most `bits` bits whose `e`th power does not pass `n`, found bit by bit. -/
def rootBits (e n : Nat) : Nat → Nat → Nat
  | 0, r => r
  | b + 1, r => rootBits e n b (if (r + 2 ^ b) ^ e ≤ n then r + 2 ^ b else r)

/-- The first 64 bits behind the point of the `e`th root of `p`. -/
def rootFraction (e p : Nat) : Nat := rootBits e (p * 2 ^ (64 * e)) 70 0 % 2 ^ 64

/-- The round constants: from the cube roots of the first 80 primes, 2 to 409. -/
def shaK : List Nat := (primesTo 409).map (rootFraction 3)

/-- The initial hash value: from the square roots of the ninth to the sixteenth prime. -/
def shaInit : List Nat := (((primesTo 53).drop 8).take 8).map (rootFraction 2)

/-- Rotate a 64-bit word right. -/
def ror64 (x n : Nat) : Nat := (x >>> n) ||| (x <<< (64 - n)) % 2 ^ 64
def shaS0 (x : Nat) : Nat := ror64 x 1 ^^^ ror64 x 8 ^^^ (x >>> 7)
def shaS1 (x : Nat) : Nat := ror64 x 19 ^^^ ror64 x 61 ^^^ (x >>> 6)

/-- Extend the schedule by `n` words; `w` holds the last sixteen, oldest first. -/
def shaSchedule : Nat → List Nat → List Nat
  | 0, _ => []
  | n + 1, w =>
    let x := (shaS1 (w.getD 14 0) + w.getD 9 0 + shaS0 (w.getD 1 0) + w.getD 0 0) % 2 ^ 64
    x :: shaSchedule n (w.drop 1 ++ [x])

/-- One round on (a … h) with constant plus schedule word `kw`. -/
def shaRound (v : List Nat) (kw : Nat) : List Nat :=
  match v with
  | [a, b, c, d, e, f, g, h] =>
    let s1 := ror64 e 14 ^^^ ror64 e 18 ^^^ ror64 e 41
    let ch := (e &&& f) ^^^ ((2 ^ 64 - 1 - e) &&& g)
    let t1 := (h + s1 + ch + kw) % 2 ^ 64
    let s0 := ror64 a 28 ^^^ ror64 a 34 ^^^ ror64 a 39
    let maj := (a &&& b) ^^^ (a &&& c) ^^^ (b &&& c)
    [(t1 + s0 + maj) % 2 ^ 64, a, b, c, (d + t1) % 2 ^ 64, e, f, g]
  | _ => v

/-- Big-endian number. -/
def beNat (bs : List Byte) : Nat := bs.foldl (fun acc b => 256 * acc + b.toNat) 0
/-- `n` bytes, most significant first. -/
def bytesBE (n x : Nat) : List Byte := (bytesLE n x).reverse

/-- One 128 B block. -/
def shaBlock (h : List Nat) (b : List Byte) : List Nat :=
  let w := (List.range 16).map (fun i => beNat ((b.drop (8 * i)).take 8))
  let ws := w ++ shaSchedule 64 w
  let v := ((shaK.zip ws).map (fun p => p.1 + p.2)).foldl shaRound h
  (h.zip v).map (fun p => (p.1 + p.2) % 2 ^ 64)

/-- The padded message in `n` blocks. -/
def shaBlocks : Nat → List Nat → List Byte → List Nat
  | 0, h, _ => h
  | n + 1, h, bs => shaBlocks n (shaBlock h (bs.take 128)) (bs.drop 128)

/-- SHA-384: 48 bytes. [DESIGN CHOICE, log entry 116] -/
def sha384 (bs : List Byte) : List Byte :=
  let len := bs.length
  let n := (len + 17 + 127) / 128
  let padded := bs ++ [0x80#8] ++ List.replicate (128 * n - len - 17) 0#8 ++ bytesBE 16 (8 * len)
  ((shaBlocks n shaInit padded).take 6).flatMap (bytesBE 8)

end Sys2Proof.Machine
end

