-- ==== Sys2Proof/Machine/Epochs.lean ====
section
/-!
DEFINITION. Groups and their epochs: creation, the advance, the low-water mark (rows GROUP_CREATE, GROUP_DESTROY,
EPOCH_ADVANCE to GROUP_DEGRADED, EPOCH_REQUEST_RECEIVE, VERSION_LIST_RECEIVE; R214, R224–R227, R304).
-/
namespace Sys2Proof.Machine

/-! ## Groups (R214) -/

/-- The members of a group record. -/
def recMembers (r : List Byte) (n : Nat) : List Nat := (List.range n).map (fun i => leAt r (0x18 + 3 * i) 3)

/-- The checks of R214. -/
def State.groupOk (s : State) (r : List Byte) : Bool :=
  let kind := leAt r 4 1
  let size := leAt r 6 2
  let rank := leAt r 8 2
  let stretch := leAt r 0xC 4
  let ms := recMembers r size
  leAt r 0 4 != 0 && decide (kind ≤ 1)
  && (if kind == 0 then [1, 2, 4, 8, 16, 32, 64].contains size && stretch == 0
      else decide (2 ≤ size) && decide (size ≤ 256) && stretch % 64 == 0 && decide (64 ≤ stretch) && decide (stretch ≤ 1048576))
  && decide (rank < size) && ms.getD rank 0 == s.ownAddr && decide ms.Nodup
  && !s.groups.any (fun g => g.2.id == leAt r 0 4)
  && (size == 1 || (s.ownAddr != 0 && ms.all (fun a => a != 0 && a != 0xFFFFFF)))
  && leAt r 5 1 == 0 && leAt r 0xA 2 == 0 && allZero (r.drop (0x18 + 3 * size))

/-- The lowest group slot not in use (R507). [DESIGN CHOICE, log entry 150] -/
def State.freeGroupSlot (s : State) : Nat :=
  ((List.range 256).find? (fun i => !s.groups.any (fun g => g.2.slot == i))).getD 256

/-- The group a record describes. -/
def groupOf (p slot : Nat) (r : List Byte) : Group :=
  { partition := p, id := leAt r 0 4, kind := leAt r 4 1, size := leAt r 6 2, rank := leAt r 8 2, stretch := leAt r 0xC 4,
    members := recMembers r (leAt r 6 2), epoch := BitVec.ofNat 64 (leAt r 0x10 8), low := 0#64, asked := 0#64, goal := 0#64,
    advance := none, ready := [], lows := [], prepared := none, reported := 0#64, slot := slot, missing := [], silent := [] }

/-- Row GROUP_CREATE. [DESIGN CHOICE, log entry 50] -/
def State.groupCreate (s : State) : State := s.admRun 0x20 (some 800) (fun z b =>
  let r := b.drop 8
  if leAt b 1 7 != 0 || decide (15 < leAt b 0 1) || (z.part (leAt b 0 1)).state != PartState.active || !z.groupOk r then .no z stIllegalOp
  else if 256 ≤ z.groups.length then .no z stBusy
  else
    let h := z.nextHandle
    .ok { z.setGroup h (groupOf (leAt b 0 1) z.freeGroupSlot r) with nextHandle := h + 1 } (bytesLE 4 (h % 2 ^ 24)))

/-- Is a span queue bound to a group? -/
def State.spanBound (s : State) (h : Nat) : Bool := s.queues.any (fun q => match q.2.binding with | some b => b.1 == h | none => false)

/-- Row GROUP_DESTROY. -/
def State.groupDestroy (s : State) : State := s.admRun 0x21 (some 8) (fun z b =>
  let h := leAt b 0 4
  if leAt b 4 4 != 0 || (z.group? h).isNone then .no z stIllegalOp
  else if !(z.groupTables h).isEmpty || z.spanBound h || z.groupNamed h then .no z stBusy
  else .ok { z with groups := tabErase z.groups h } [])

/-! ## The advance (R224, R225) -/

/-- Is a PATCH that names an epoch ≤ T tentative on this member? -/
def State.tentativeBelow (s : State) (h t : Nat) : Bool :=
  s.staged.any (fun x => !x.committed && x.handle == h && decide (x.entry.epoch ≤ t))

/-- Insert a version into a list sorted by `TVER`, then `EPOCH_FROM`. -/
def insertVersion (v : Nat × Nat × Nat) : List (Nat × Nat × Nat) → List (Nat × Nat × Nat)
  | [] => [v]
  | a :: r => if v.2.1 < a.2.1 ∨ (v.2.1 = a.2.1 ∧ v.2.2 < a.2.2) then v :: a :: r else a :: insertVersion v r

/-- (`TABLE`, `TVER`, `EPOCH_FROM`) of every STAGED or LIVE slot with `EPOCH_FROM` ≤ T, ascending (R225). -/
def State.versionList (s : State) (h t : Nat) : List (Nat × Nat × Nat) :=
  (s.groupTables h).flatMap (fun d =>
    ((d.2.slots.filter (fun v => (v.state == SlotSt.staged || v.state == SlotSt.live) && decide (v.epochFrom ≤ t))).map
      (fun v => (d.1, v.tver, v.epochFrom))).foldl (fun acc v => insertVersion v acc) [])

/-- The digest d: the first 128 bits of SHA-384 over the list. -/
def State.versionDigest (s : State) (h t : Nat) : Nat :=
  beNat ((sha384 ((s.versionList h t).flatMap (fun v => bytesLE 2 v.1 ++ bytesLE 8 v.2.1 ++ bytesLE 8 v.2.2))).take 16)

/-- Raise a group's epoch; EPOCH_ADVANCE commands that it satisfies complete with OK (R224, R225). -/
def State.raiseEpoch (s : State) (h : Nat) (t : DWord) : State :=
  match s.group? h with
  | none => s
  | some g =>
    if t.toNat ≤ g.epoch.toNat then s
    else
      let s1 := (s.setGroup h { g with epoch := t, missing := g.missing.filter (fun v => decide (t.toNat < v.2.2)) }).bump 0x530A 0 1
      let met := s1.queues.flatMap (fun q =>
        (q.2.work.filter (fun w => w.kind == 4 && w.handle == h && decide (w.target.toNat ≤ t.toNat))).map (fun w => (q.1, w.index)))
      met.foldl (fun (acc : State) w => acc.workDone w.1 w.2 stOk 0) s1

/-- Begin an advance at the coordinator: PREPARE to every member, itself included (R225 steps 1 and 2). In a group of one
the epoch rises in place. -/
def State.startAdvance (s : State) (h : Nat) (g : Group) (t : DWord) : State :=
  let held := s.tentativeBelow h t.toNat
  if g.size == 1 then
    if held then s.setGroup h { g with prepared := some t } else s.raiseEpoch h t
  else
    let ready : Table Nat := if held then [] else [(0, s.versionDigest h t.toNat)]
    let s1 := s.setGroup h { g with advance := some t, ready := ready, prepared := if held then some t else none }
    s1.sendPeers g (.prepare g.id t)

/-- A request reaches the coordinator: requests that arrive during an advance are folded into the next one. -/
def State.requestAdvance (s : State) (h : Nat) (t : DWord) : State :=
  match s.group? h with
  | none => s
  | some g =>
    let g1 := { g with goal := if g.goal.ult t then t else g.goal, asked := if g.asked.ult t then t else g.asked }
    let s1 := s.setGroup h g1
    if g1.advance.isSome || (g1.size == 1 && g1.prepared.isSome) || decide (g1.goal.toNat ≤ g1.epoch.toNat) then s1
    else s1.startAdvance h g1 g1.goal

/-- The L that the coordinator knows: the minimum over all members, once each has reported (R226); it stays while a member is
silent (R227). [DEDUCED, log entry 51] -/
def State.coordLow (s : State) (h : Nat) (g : Group) : Nat :=
  let lows := tabSet g.lows 0 (s.ownLow h g)
  if lows.length < g.size || !g.silent.isEmpty then g.low.toNat
  else max g.low.toNat (lows.foldl (fun m p => min m p.2) (2 ^ 64 - 1))

/-- With every READY in and every digest equal, the EPOCH waggle goes out and the epoch rises; the next advance follows
(R225 step 4). [DEDUCED, log entry 51] -/
def State.decideAdvance (s : State) (h : Nat) : State :=
  match s.group? h with
  | none => s
  | some g =>
    match g.advance with
    | none => s
    | some t =>
      if g.ready.length < g.size then s
      else if g.ready.all (fun p => p.2 == tabGet 0 g.ready 0) then
        let l := s.coordLow h g
        let s1 := (s.setGroup h { g with advance := none, ready := [], low := BitVec.ofNat 64 l }).waggle 1
          (bytesLE 4 g.id ++ bytesLE 4 0 ++ bytesLE 8 t.toNat ++ bytesLE 8 l ++ bytesLE 8 0)
        let s2 := s1.raiseEpoch h t
        (match s2.group? h with
         | some g2 => if g2.epoch.ult g2.goal then s2.startAdvance h g2 g2.goal else s2
         | none => s2)
      else s

/-- Digests that differ: the coordinator sends its list to every member (R225 step 5). [DEDUCED, log entry 51] -/
def State.reportMismatch (s : State) (h : Nat) : State :=
  match s.group? h with
  | none => s
  | some g =>
    match g.advance with
    | none => s
    | some t =>
      if g.ready.length < g.size || g.ready.all (fun p => p.2 == tabGet 0 g.ready 0) then s
      else s.sendPeers g (.versions g.id g.rank t (s.versionList h t.toNat))

/-- Answer a PREPARE that tentative entries held back (R225 step 3). [DEDUCED, log entry 52] -/
def State.answerPrepared (s : State) (h : Nat) : State :=
  match s.group? h with
  | none => s
  | some g =>
    match g.prepared with
    | none => s
    | some t =>
      if s.tentativeBelow h t.toNat then s
      else
        let d := s.versionDigest h t.toNat
        let g1 := { g with prepared := none }
        if g.size == 1 then (s.setGroup h g1).raiseEpoch h t
        else if g.rank == 0 then
          ((s.setGroup h { g1 with ready := if g.advance == some t then tabSet g.ready 0 d else g.ready }).decideAdvance h).reportMismatch h
        else (s.setGroup h g1).sendRank g 0 (.ready g.id g.rank t d)

/-- Every group answers what it can, after tentative entries were decided. -/
def State.answerAll (s : State) : State := (s.groups.map (·.1)).foldl State.answerPrepared s

/-- Row QUEUE_TIMEOUT: the expiry of a PATCH is decided by R202, that of anything else by R291. [DEDUCED, log entry 52] -/
def State.queueTimeoutRow (s : State) (q : Nat) (w : TimeoutOf) : State :=
  match w with
  | .work n => if (s.queue q).work.any (fun k => k.index == n && k.kind == 3) then (s.patchTimeout q n).answerAll else s.queueTimeout q w
  | _ => s.queueTimeout q w

/-- Row EPOCH_ADVANCE. -/
def State.epochAdvance (s : State) (q : Nat) : State := s.takeHead q 4 (fun z b =>
  let k := chConsts b
  let h := leAt k 0 4
  let t := BitVec.ofNat 64 (leAt k 8 8)
  let refuse := (z.endTaken q b stIllegalOp (rcDetail 1)).rcError 1 0 (z.queuePart q) 0 0
  match z.group? h with
  | none => refuse
  | some g =>
    if g.partition != z.queuePart q || leAt k 4 4 != 0 || !allZero (k.drop 16) then refuse
    else if t.toNat ≤ g.epoch.toNat then z.endTaken q b stOk 0
    else
      let w : CmdWork := { index := (z.queue q).taken.toNat % 2 ^ 32, launchId := chLaunchId b, kind := 4, irq := chIrq b, handle := h,
                           target := t, patch := 0, va := 0, count := 0, checked := true, start := z.time }
      let z1 := (z.countTaken q).modQueue q (fun x => { x with work := x.work ++ [w] })
      if g.rank == 0 then z1.requestAdvance h t
      else (z1.setGroup h { g with asked := if g.asked.ult t then t else g.asked }).sendRank g 0 (.epochRequest g.id t))

/-- Row EPOCH_REQUEST_RECEIVE. -/
def State.epochRequestReceive (s : State) (groupId : Nat) (t : DWord) : State :=
  match s.handleOf groupId with
  | some h => (match s.group? h with | some g => if g.rank == 0 && g.size != 1 then s.requestAdvance h t else s | none => s)
  | none => s

/-- Row PREPARE_RECEIVE. -/
def State.prepareReceive (s : State) (groupId : Nat) (t : DWord) : State :=
  match s.handleOf groupId with
  | none => s
  | some h =>
    match s.group? h with
    | some g =>
      if g.rank == 0 || g.size == 1 then s
      else (s.setGroup h { g with prepared := some t, asked := if g.asked.ult t then t else g.asked }).answerPrepared h
    | none => s

/-- Row READY_RECEIVE. -/
def State.readyReceive (s : State) (groupId rank : Nat) (t : DWord) (digest : Nat) : State :=
  match s.handleOf groupId with
  | none => s
  | some h =>
    match s.group? h with
    | some g =>
      if g.rank != 0 || g.advance != some t || rank == 0 || decide (g.size ≤ rank) then s
      else ((s.setGroup h { g with ready := tabSet g.ready rank digest, silent := g.silent.filter (· != rank) }).decideAdvance h).reportMismatch h
    | none => s

/-- Row PREPARE_RETRY: while the digests differ, PREPARE is repeated (R225 step 5). -/
def State.prepareRetry (s : State) (h : Nat) : State :=
  match s.group? h with
  | some g =>
    (match g.advance with
     | some t =>
       if g.ready.length < g.size || g.ready.all (fun p => p.2 == tabGet 0 g.ready 0) then s else s.startAdvance h g t
     | none => s)
  | none => s

/-- Row VERSION_LIST_RECEIVE: every table whose versions differ is logged; a member answers the coordinator's list with its
own (R197, R225). [DEDUCED, log entry 149] -/
def State.versionListReceive (s : State) (groupId rank : Nat) (t : DWord) (list : List (Nat × Nat × Nat)) : State :=
  match s.handleOf groupId with
  | none => s
  | some h =>
    match s.group? h with
    | none => s
    | some g =>
      let own := s.versionList h t.toNat
      let tables := ((own ++ list).map (·.1)).eraseDups
      let bad := tables.filter (fun x => own.filter (fun v => v.1 == x) != list.filter (fun v => v.1 == x))
      let lacks := list.filter (fun v => !own.contains v && !g.missing.contains v)
      let s0 := s.setGroup h { g with missing := g.missing ++ lacks }
      let s1 := bad.foldl (fun (acc : State) x => acc.event 0x31 1 true (bytesLE 4 groupId ++ bytesLE 2 x)) s0
      if rank == 0 && g.rank != 0 then s1.sendPeers g (.versions groupId g.rank t own) else s1

/-- A member acts on an EPOCH or LOW waggle from its coordinator: the epoch and L rise (R225, R226, R396). -/
def State.epochWaggle (s : State) (groupId origin : Nat) (t l : DWord) : State :=
  match s.handleOf groupId with
  | none => s
  | some h =>
    match s.group? h with
    | some g =>
      if g.members.head? != some origin || g.size == 1 then s
      else
        let g1 := { g with low := if g.low.ult l then l else g.low
                           prepared := match g.prepared with | some x => if x.toNat ≤ t.toNat then none else some x | none => none }
        (s.setGroup h g1).raiseEpoch h t
    | none => s

/-! ## The low-water mark (R226, R227) -/

/-- Row LOW_REPORT: the member's l goes to the coordinator. -/
def State.lowReport (s : State) (h : Nat) : State :=
  match s.group? h with
  | none => s
  | some g =>
    let l := s.ownLow h g
    let s1 := s.setGroup h { g with reported := BitVec.ofNat 64 l, lows := if g.rank == 0 then tabSet g.lows 0 l else g.lows }
    if g.size == 1 || g.rank == 0 then s1 else s1.sendRank g 0 (.lowReport g.id g.rank (BitVec.ofNat 64 l))

/-- Row LOW_REPORT_RECEIVE. -/
def State.lowReportReceive (s : State) (groupId rank : Nat) (low : DWord) : State :=
  match s.handleOf groupId with
  | none => s
  | some h =>
    match s.group? h with
    | some g =>
      if g.rank != 0 || decide (g.size ≤ rank) then s
      else s.setGroup h { g with lows := tabSet g.lows rank low.toNat, silent := g.silent.filter (· != rank) }
    | none => s

/-- Row LOW_BROADCAST: the coordinator sends L to every member. -/
def State.lowBroadcast (s : State) (h : Nat) : State :=
  match s.group? h with
  | none => s
  | some g =>
    if g.rank != 0 || g.size == 1 || (tabSet g.lows 0 0).length < g.size then s
    else
      let l := s.coordLow h g
      (s.setGroup h { g with low := BitVec.ofNat 64 l }).waggle 2
        (bytesLE 4 g.id ++ bytesLE 4 0 ++ bytesLE 8 g.epoch.toNat ++ bytesLE 8 l ++ bytesLE 8 0)

/-- Row GROUP_DEGRADED: ranks that have been silent for 10 ms are logged and reported, and L stays where it is until they speak
(R227). `DATA` holds the first of them (R484). -/
def State.groupDegraded (s : State) (h : Nat) (silent : List Nat) : State :=
  match s.group? h, silent with
  | some g, r :: _ =>
    if g.size == 1 || !silent.all (fun x => decide (x < g.size) && x != g.rank) then s
    else (s.setGroup h { g with silent := (g.silent ++ silent).eraseDups }).event 0x33 1 true (bytesLE 4 g.id ++ bytesLE 2 r)
  | _, _ => s

end Sys2Proof.Machine
end

