-- ==== Sys2Proof/Machine/Streams.lean ====
section
/-!
DEFINITION. Streams: descriptors and their checks, chunks, movement, re-arm, halts and stops (rows STREAM_ACCEPT to
STREAM_STOP; R308–R328, R364).
-/
namespace Sys2Proof.Machine

/-! ## The descriptor (R310, R311) -/

def sdSrc (d : List Byte) : Nat := leAt d 0 8
def sdDst (d : List Byte) : Nat := leAt d 8 8
def sdCount (d : List Byte) (i : Nat) : Nat := leAt d (0x10 + 8 * i) 8 / 2 ^ 40
def sdStride (d : List Byte) (i : Nat) : Int := signed 40 (leAt d (0x10 + 8 * i) 8)
def sdSrcSpace (d : List Byte) : Nat := leAt d 0x38 1 % 8
def sdDstSpace (d : List Byte) : Nat := leAt d 0x38 1 / 8 % 8
def sdPat (d : List Byte) : Nat := leAt d 0x38 1 / 64
def sdElem (d : List Byte) : Nat := leAt d 0x39 1 % 64 + 1
def sdSlot (d : List Byte) : Nat := leAt d 0x3A 1 % 16
def sdChunkDim (d : List Byte) : Nat := leAt d 0x3A 1 / 16 % 8
def sdPeer (d : List Byte) : Nat := leAt d 0x3F 1 % 64

/-- Elements of a chunk, chunks of the stream (R313). -/
def sdChunkElems (d : List Byte) : Nat := (List.range (sdChunkDim d + 1)).foldl (fun n i => n * sdCount d i) 1
def sdChunks (d : List Byte) : Nat := ((List.range 5).filter (sdChunkDim d < ·)).foldl (fun n i => n * sdCount d i) 1

/-- Coordinates i0–i4 of element `e`. -/
def sdCoords (d : List Byte) (e : Nat) : List Nat :=
  ((List.range 5).foldl (fun (acc : Nat × List Nat) i =>
    let c := max 1 (sdCount d i)
    (acc.1 / c, acc.2 ++ [acc.1 % c])) (e, [])).2

/-- Does a side use the strides (side 0 source, 1 destination)? -/
def sdPatterned (d : List Byte) (side : Nat) : Bool := sdPat d == 2 || sdPat d == side

/-- Offset of element `e` on a side (R311). -/
def sdOffset (d : List Byte) (side e : Nat) : Int :=
  if sdPatterned d side then
    ((List.range 5).zip (sdCoords d e)).foldl (fun (x : Int) p => x + (p.2 : Int) * sdStride d p.1) 0
  else (e * sdElem d : Nat)

/-- Lowest offset and highest byte offset that a side reaches (R316). -/
def sdExtent (d : List Byte) (side : Nat) : Int × Int :=
  if sdPatterned d side then
    let reach := fun (i : Nat) => ((sdCount d i : Int) - 1) * sdStride d i
    ((List.range 5).foldl (fun (x : Int) i => x + min 0 (reach i)) 0,
     (List.range 5).foldl (fun (x : Int) i => x + max 0 (reach i)) ((sdElem d : Int) - 1))
  else (0, ((sdElem d * (sdChunkElems d * sdChunks d) : Nat) : Int) - 1)

/-- Address field, space and base of a side. -/
def sdField (d : List Byte) (side : Nat) : Nat := if side == 0 then sdSrc d else sdDst d
def sdSpace (d : List Byte) (side : Nat) : Nat := if side == 0 then sdSrcSpace d else sdDstSpace d
def sdBase (d : List Byte) (side : Nat) : Nat :=
  if sdSpace d side == 1 then sdField d side % 2 ^ 22 else sdField d side % 2 ^ 48
/-- `CELL_RANK` of a scratchpad side; registered region of a HOST destination. -/
def sdRank (d : List Byte) (side : Nat) : Nat := sdField d side / 2 ^ 22 % 64
def sdRegion (d : List Byte) : Nat := sdDst d / 2 ^ 48 % 4096
/-- Return fields of a SPAN destination. -/
def sdHandle (d : List Byte) : Nat := sdDst d % 2 ^ 24
def sdRetRank (d : List Byte) : Nat := sdDst d / 2 ^ 24 % 64
def sdRetSem (d : List Byte) : Nat := sdDst d / 2 ^ 30 % 64
def sdRetOff (d : List Byte) : Nat := sdDst d / 2 ^ 36 % 2 ^ 22

/-- RSV bits of the descriptor, the bits of an address field its space leaves unused included. [DESIGN CHOICE, log entry 31] -/
def sdRsvOk (d : List Byte) : Bool :=
  let fieldOk := fun (side : Nat) => match sdSpace d side with
    | 0 => decide (sdField d side < 2 ^ 48)
    | 1 => decide (sdField d side < 2 ^ 28)
    | 2 => decide (sdField d side < 2 ^ 60)
    | _ => decide (sdField d side < 2 ^ 58)
  fieldOk 0 && fieldOk 1 && leAt d 0x39 1 / 64 == 0 && leAt d 0x3A 1 / 128 == 0 && leAt d 0x3B 1 / 128 == 0
  && leAt d 0x3C 1 / 128 == 0 && leAt d 0x3D 1 / 128 == 0 && leAt d 0x3E 1 / 128 == 0 && leAt d 0x3F 1 / 64 == 0

/-! ## Checks (R316, R232, R312, R364) -/


/-- The checks of a span send that need no header: its group is a span group that the launch names, its source is one run, and its
return fields lie in range (R312, R316). -/
def State.spanDescOk (s : State) (l : Launch) (d : List Byte) : Bool :=
  match s.group? (sdHandle d), l.groups.any (fun g => g.1 == sdHandle d) with
  | some g, true =>
    g.kind == 1 && sdElem d == 64 && sdStride d 0 == 64 && (List.range 4).all (fun i => sdCount d (i + 1) == 1)
    && (!l.hop.isEmpty || (decide (sdRetRank d < l.variant.footprint) && decide (sdRetOff d + 64 ≤ scratchBytes)))
  | _, _ => false

/-- Does a span send with record header `h` obey R312 and R232? -/
def State.spanSendOk (s : State) (l : Launch) (d h : List Byte) : Bool :=
  s.spanDescOk l d && (match s.group? (sdHandle d) with
  | some g =>
    let len := leAt h 8 4
    let toRank := leAt h 2 2
    sdCount d 0 * 64 == 64 + len && leAt h 0 2 == 0x5350 && leAt h 4 4 == g.id
    && len % 64 == 0 && decide (256 ≤ len) && decide (len ≤ 1048832)
    && leAt h 0xF 1 == 0 && leAt h 0x15 1 == 0 && leAt h 0x38 8 == 0
    && (if l.hop.isEmpty then toRank == 0 else if g.rank + 1 == g.size then toRank == 0xFFFF else toRank == g.rank + 1)
  | none => false)

/-- A scratchpad extent below 0 or reaching the hole. -/
def sdScratchOk (d : List Byte) (side f : Nat) : Bool :=
  let x := sdExtent d side
  decide (sdRank d side < f) && decide (0 ≤ (sdBase d side : Int) + x.1) && decide ((sdBase d side : Int) + x.2 < (scratchBytes : Int))

/-- A HOST destination: an OUTPUT region of the launch's partition that holds the extent (R364). -/
def State.hostSideOk (s : State) (l : Launch) (d : List Byte) : Bool :=
  match tabFind s.regions (sdRegion d) with
  | some r =>
    let x := sdExtent d 1
    r.kind == 0 && !r.ending && (s.ctx r.context).partition == l.partition
    && decide (0 ≤ (sdBase d 1 : Int) + x.1) && decide ((sdBase d 1 : Int) + x.2 < (r.size : Int))
  | none => false

/-- The descriptor checks that need no page (R316). -/
def State.streamOk (s : State) (l : Launch) (d : List Byte) : Bool :=
  let f := l.variant.footprint
  decide (sdSrcSpace d ≤ 1) && decide (sdDstSpace d ≤ 3) && sdPat d != 3 && (List.range 5).all (fun i => sdCount d i != 0)
  && decide (sdChunkDim d ≤ 4) && sdRsvOk d && decide (sdPeer d < f)
  && (sdSrcSpace d != 1 || sdScratchOk d 0 f) && (sdDstSpace d != 1 || sdScratchOk d 1 f)
  && (sdDstSpace d != 2 || s.hostSideOk l d)

/-! ## Where the sides of a piece lie (R310, R311) -/

/-- One run of bytes of an element that no granule boundary of a virtual or host side cuts. -/
structure Piece where
  elem : Nat
  off : Nat
  len : Nat
deriving DecidableEq, Repr

/-- Address of a byte of an element on a side, modulo 2^64. -/
def sdAddr (d : List Byte) (side e off : Nat) : Nat := unsigned 64 ((sdBase d side : Int) + sdOffset d side e + (off : Int))

/-- What a side of a piece translates to. -/
inductive SideAddr where
  | mem (pa : Nat)
  | window (pa : Nat) (i : Import)
  | scratch (cell off : Nat)
  | host (region off : Nat)
  | walk
  | fatal (kind : Nat)
  /-- The issuing cell's own calendar grants no slot: a cell fault with this code (R71). -/
  | slotless (code : Nat)
  /-- The destination's crossing withholds credit, or another cell's calendar grants no `EGRESS` slot: the transfer waits (R70, R71). -/
  | credit
  | held

/-- Translate one side of a piece (R310, R323); scratchpads are reached as R70 and R71 say. [DESIGN CHOICE, log entry 143] -/
def State.sideAddr (s : State) (c k : Nat) (l : Launch) (d : List Byte) (side : Nat) (p : Piece) : SideAddr :=
  let a := sdAddr d side p.elem p.off
  match sdSpace d side with
  | 1 =>
    let cell := l.cells.getD (sdRank d side) 0
    let x := s.cell cell
    let role : Role := if side == 0 then .egress else .ingress
    if cell == c && !calReaches x.calendar role a p.len then .slotless (if calHasRole x.calendar role then 4 else 9)
    else if side == 1 then (if x.ingressRoom p.len then .scratch cell a else .credit)
    else if calReaches x.calendar role a p.len then .scratch cell a else .held
  | 2 => .host (sdRegion d) a
  | _ =>
    match s.xlate (tlbStream (combOf c) (k % 4)) l.context a (if side == 0 then .read else .write) with
    | .walk => .walk
    | .fatal kind => .fatal kind
    | .hit pa =>
      if isWindow pa then (match s.importAt pa p.len with | some i => .window pa i | none => .fatal 2)
      else if s.populated pa then .mem pa else .fatal 2

/-- The header of a span send: its bytes, or why they are not at hand. -/
inductive SpanHead where
  | ok (h : List Byte)
  | missing (va : Nat)
  | fatal (kind va : Nat)
  | slotless (code : Nat)
  /-- The source cell grants no `EGRESS` slot yet, or the stack is in throttle stage 3 (R37). -/
  | wait
  /-- `len` bytes of it, from offset `off`, lie in an imported window and have not been read. -/
  | late (off len pa : Nat) (i : Import)

/-- The runs of the header that no granule boundary cuts: offset and length. -/
def headRuns (d : List Byte) : List (Nat × Nat) :=
  let m := sdBase d 0 % 64
  if sdSrcSpace d == 1 || m == 0 then [(0, 64)] else [(0, 64 - m), (64 - m, m)]

/-- Read one run of the header. -/
def State.headRun (s : State) (c : Nat) (l : Launch) (d : List Byte) (r : Nat × Nat) : SpanHead :=
  let k := sdSlot d
  let va := sdBase d 0 + r.1
  match s.sideAddr c k l d 0 { elem := 0, off := r.1, len := r.2 } with
  | .scratch cell off => .ok (s.spRead cell off r.2)
  | .slotless code => .slotless code
  | .mem pa => if s.stackOpen pa then .ok (s.memRead pa r.2).1 else .wait
  | .window pa i =>
    (match (s.slot c k).head.find? (fun (h : Nat × List Byte) => h.1 == r.1) with
     | some h => .ok h.2
     | none => .late r.1 r.2 pa i)
  | .walk => .missing va
  | .fatal kind => .fatal kind va
  | _ => .wait

/-- Read the span record header at the start of the source run (R312). [DESIGN CHOICE, log entry 31] -/
def State.spanHead (s : State) (c : Nat) (l : Launch) (d : List Byte) : SpanHead :=
  (headRuns d).foldl (fun (acc : SpanHead) r => match acc with
    | .ok h => (match s.headRun c l d r with | .ok b => .ok (h ++ b) | x => x)
    | x => x) (.ok [])

/-! ## Activation and chunks (R313, R321) -/

/-- The cell that holds `FILL` and `FREE`. -/
def peerCell (l : Launch) (d : List Byte) : Nat := l.cells.getD (sdPeer d) 0

/-- The engine turns to the next chunk: it waits on `FREE`, then on `GO` (R313). -/
def State.armChunk (s : State) (c k : Nat) (l : Launch) : State :=
  let v := s.slot c k
  let s1 := s.setSlot c k { v with phase := .waitFree, srcDone := false, moved := false, reads := 0 }
  if descSemEn v.desc 0x3C then s1.waitSem (peerCell l v.desc) (descSem v.desc 0x3C) 1 (.streamFree c k) else s1.streamTakeGo c k

/-- Make a descriptor the slot's active stream. -/
def State.activate (s : State) (c lid : Nat) (l : Launch) (d : List Byte) (thread : Nat) (pc : Word) (tag : Option Nat) : State :=
  let k := sdSlot d
  let old := s.slot c k
  let v : StreamSlot := { StreamSlot.idle with
    state := .active, desc := d, launch := lid, thread := thread, pc := pc, prio := l.priority, returnTag := tag
    rearm := if old.checking == 2 then old.rearm else none }
  (s.setSlot c k v).armChunk c k l

/-- A span send becomes active: that of a home launch takes a return-table entry, where one is free (R312, R219).
[DESIGN CHOICE, log entry 40] -/
def State.activateSpan (s : State) (c lid : Nat) (l : Launch) (d : List Byte) (thread : Nat) (pc : Word) : Option State :=
  if !l.hop.isEmpty then some (s.activate c lid l d thread pc none)
  else if 4096 ≤ s.returns.length then none
  else
    let tag := s.nextReturn
    let e : RetEntry := { launch := lid, launchId := l.launchId, handle := sdHandle d, cell := l.cells.getD (sdRetRank d) 0,
                          kind := .span (sdRetOff d) (sdRetSem d), ended := false, acks := [] }
    some ({ s with returns := tabSet s.returns tag e, nextReturn := (tag + 1) % 2 ^ 32 }.activate c lid l d thread pc (some tag))

/-- Check a descriptor and activate it: a span send with its record header (R312, R316). `none`: it must wait, for its header or for
a return-table entry. [DESIGN CHOICE, log entry 31] -/
def State.tryActivate (s : State) (c lid : Nat) (l : Launch) (d : List Byte) (thread : Nat) (pc : Word) : Option State :=
  if !s.streamOk l d then some (s.cellFault c 7 thread 8 pc)
  else if sdDstSpace d != 3 then some (s.activate c lid l d thread pc none)
  else if !s.spanDescOk l d then some (s.cellFault c 7 thread 8 pc)
  else match s.spanHead c l d with
    | .fatal kind va => some (s.fatalFault (combOf c) kind 0 .read c l.context va (some lid) stTranslationFatal)
    | .slotless code => some (s.cellFault c code thread 8 pc)
    | .missing _ => none
    | .wait => none
    | .late _ _ _ _ => none
    | .ok h => if s.spanSendOk l d h then s.activateSpan c lid l d thread pc else some (s.cellFault c 7 thread 8 pc)

/-- Stop at a piece whose page must be walked: where its record is open already, the stream halts (R323, R341). -/
def State.streamWait (s : State) (c k lid : Nat) (l : Launch) (side : Nat) (p : Piece) : State :=
  let v := s.slot c k
  let va := sdAddr v.desc side p.elem p.off
  let w : Walk := { collector := combOf c, context := l.context, va := va, access := if side == 0 then .read else .write,
                    who := .stream c k side, launch := lid, stale := false }
  let s1 := s.setSlot c k { v with phase := .walking, elem := p.elem, byteOff := p.off }
  if (s1.collector (combOf c)).find l.context va |>.isSome then
    ((s1.setSlot c k { s1.slot c k with state := .halted, haltCoord := sdCoords v.desc p.elem, haltByte := p.off, haltSide := side }).startWalk w).bump 0x6030 0 1
  else s1.startWalk w

/-- A span send that cannot be checked yet holds its slot while the page of its header is walked, at which it may halt (R323), or
while a part of the header is read through a window; `mode` is that of `checking`. -/
def State.waitActivate (s : State) (c lid : Nat) (l : Launch) (d : List Byte) (thread : Nat) (pc : Word) (mode : Nat) : State :=
  let k := sdSlot d
  let old := s.slot c k
  let hold := s.setSlot c k { StreamSlot.idle with
    state := .active, desc := d, launch := lid, thread := thread, pc := pc, prio := l.priority, checking := mode
    head := if old.checking != 0 then old.head else [], rearm := if old.checking == 2 then old.rearm else none }
  match s.spanHead c l d with
  | .missing va =>
    if s.stalled (.stream c k 0) then s else hold.streamWait c k lid l 0 { elem := 0, off := va - sdBase d 0, len := 64 }
  | .late off len pa i =>
    if s.winReqs.any (fun (r : Nat × WindowReq) => r.2.user == .streamHead c k) then s
    else hold.windowSend i (.streamHead c k) lid (sdBase d 0 + off) pa false [] len false 0 off 0
  | _ => s

/-- A span send that waits for its header is checked again. -/
def State.recheck (s : State) (c lid : Nat) (l : Launch) (v : StreamSlot) : State :=
  if v.state != SlotState.active || v.phase == StreamPhase.walking then s
  else match s.tryActivate c lid l v.desc v.thread v.pc with
    | none => s.waitActivate c lid l v.desc v.thread v.pc v.checking
    | some s1 => s1

/-- `STREAM_ERR` of a comb (R328). -/
def State.streamError (s : State) (code part slot cell pc : Nat) : State :=
  let k := combOf cell
  let (w, n) := tabGet ((0#64, 0) : DWord × Nat) s.streamErr k
  let v := if w.getLsbD 63 then (w, n + 1)
    else (BitVec.ofNat 64 (2 ^ 63 + code * 2 ^ 48 + part % 16 * 2 ^ 44 + slot % 16 * 2 ^ 40 + cell % 128 * 2 ^ 33 + pc), n)
  { s with streamErr := tabSet s.streamErr k v }

/-- Row STREAM_ACCEPT: the comb hub reads the descriptor of the head command (R309, R316, R321, R322). -/
def State.streamAccept (s : State) (c : Nat) : State :=
  match s.activeLaunch c with
  | none => s
  | some (lid, l) =>
    let x := s.cell c
    match x.head 2 with
    | none => s
    | some cmd =>
      let off := cmd.opA.toNat
      if !x.mayStart cmd then s
      else match x.streams.find? (fun (p : Nat × StreamSlot) => p.2.checking == 1) with
      | some (k, v) =>
        let s1 := s.recheck c lid l v
        if (s1.slot c k).checking != 0 then s1 else (s1.popCmd c 2).completeCmd c cmd
      | none =>
      if off % 64 != 0 then s.cmdFault c 2 cmd
      else match x.ctl .egress off 64 with
        | .error code => s.cmdFault c code cmd
        | .ok d =>
          if x.spPoison off 64 then s.takePoison c off 64
          else
            let v := x.slot (sdSlot d)
            if v.state != SlotState.idle then
              if v.rearm.isSome then
                ((s.streamError 1 l.partition (sdSlot d) c cmd.pc.toNat).bump 0x6032 0 1).endLaunch lid (some stRearmConflict) 0
              else
                (((s.setSlot c (sdSlot d) { v with rearm := some (d, cmd.thread, cmd.pc) }).bump 0x6031 0 1).popCmd c 2).completeCmd c cmd
            else match s.tryActivate c lid l d cmd.thread cmd.pc with
              | none => s.waitActivate c lid l d cmd.thread cmd.pc 1
              | some s1 => if (s1.slot c (sdSlot d)).state == SlotState.idle then s1 else (s1.popCmd c 2).completeCmd c cmd

/-! ## Movement (R311, R315, R323) -/

/-- Do granules of the side cut its runs: those of a side that is no scratchpad, and the 64 B units of two scratchpads (R411)? -/
def sdCuts (d : List Byte) (side : Nat) : Bool := sdSpace d side != 1 || (sdSrcSpace d == 1 && sdDstSpace d == 1)

/-- The pieces of element `e` from byte `b` on. -/
def elemPieces (d : List Byte) (e b : Nat) : List Piece :=
  let n := sdElem d
  let cut := fun (o : Nat) => (sdCuts d 0 && sdAddr d 0 e o % 64 == 0) || (sdCuts d 1 && sdAddr d 1 e o % 64 == 0)
  let starts := b :: (List.range n).filter (fun o => decide (b < o) && cut o)
  (starts.zip (starts.drop 1 ++ [n])).map (fun p => { elem := e, off := p.1, len := p.2 - p.1 })

/-- The side whose granules are counted: the one that is not a scratchpad, the destination where both or neither are (R317). -/
def countSide (d : List Byte) : Nat := if sdDstSpace d != 1 then 1 else if sdSrcSpace d != 1 then 0 else 1

/-- The granule of a piece on the side that is counted. -/
def pieceGranule (d : List Byte) (p : Piece) : Nat := sdAddr d (countSide d) p.elem p.off / 64

/-- Does a piece touch a granule that the byte before it did not (R317)? -/
def newGranule (d : List Byte) (p : Piece) : Bool :=
  let side := countSide d
  let a := sdAddr d side p.elem p.off
  if p.off != 0 then a / 64 != sdAddr d side p.elem (p.off - 1) / 64
  else if p.elem == 0 then true
  else a / 64 != sdAddr d side (p.elem - 1) (sdElem d - 1) / 64

/-- Deliver the bytes of a piece to its destination. [DEDUCED, log entry 32] -/
def State.deliver (s : State) (c k lid : Nat) (d : List Byte) (p : Piece) (dst : SideAddr) (bs : List Byte) (po su : Bool) : State :=
  let v := s.slot c k
  let fresh := newGranule d p
  let g := pieceGranule d p
  let counts := po && (fresh || v.marked != some g)
  let s0 := (s.setSlot c k { v with
    granules := v.granules + BitVec.ofNat 32 (if fresh then 1 else 0), marked := if counts then some g else v.marked }).bump 0x6033 0
      (if counts then 1 else 0)
  match dst with
  | .mem pa => s0.dramWrite pa bs po
  | .scratch cell off => s0.ingest cell { sender := .stream c k, off := off, bytes := bs, poison := po, suspect := su }
  | .window pa i =>
    (s0.setSlot c k { s0.slot c k with outstanding := (s0.slot c k).outstanding + 1 }).windowSend i (.streamWrite c k) lid
      (sdAddr d 1 p.elem p.off) pa true bs bs.length po p.elem p.off 0
  | .host region off =>
    (match tabFind s0.regions region, s0.launch? lid with
     | some r, some l =>
       let orphan := (s0.queue l.queue).status == QueueStatus.orphaned
       let n := b2n (fresh || v.lost != some g)
       let drop := fun (z : State) => (z.setSlot c k { z.slot c k with lost := some g }).setLaunch lid { l with lostWrites := l.lostWrites || orphan }
       if r.stale then drop ((s0.bump 0xA005 0 n).bump 0xA004 0 (if s0.host.discarding then n else 0))
       else if orphan || s0.host.discarding then drop (s0.bump 0xA004 0 n)
       else
         ((s0.postFor lid (r.base + off) bs po).bump 0xA009 0 (if counts then 1 else 0)).setLaunch lid
           { l with deliveredPoison := l.deliveredPoison || (po && !su), deliveredSuspect := l.deliveredSuspect || (po && su) }
     | _, _ => s0)
  | _ => s0

/-- The bytes and flags at a source that is not a window. -/
def State.sourceBytes (s : State) (src : SideAddr) (n : Nat) : List Byte × Bool × Bool :=
  match src with
  | .mem pa => s.memRead pa n
  | .scratch cell off => (s.spRead cell off n, (s.cell cell).spPoison off n, (s.cell cell).spSuspect off n)
  | _ => ([], false, false)

/-- A source has been read: poison from a resident region clears the cell's tag (R253), and a translation has been used (R340). -/
def State.sourceRead (s : State) (c k : Nat) (l : Launch) (d : List Byte) (p : Piece) (src : SideAddr) : State :=
  match src with
  | .scratch cell off => s.noteResident cell off p.len
  | _ => s.tlbTouch (tlbStream (combOf c) (k % 4)) l.context (sdAddr d 0 p.elem p.off)

/-- A destination's translation has been used (R340). -/
def State.destUsed (s : State) (c k : Nat) (l : Launch) (d : List Byte) (p : Piece) (dst : SideAddr) : State :=
  match dst with
  | .mem _ => s.tlbTouch (tlbStream (combOf c) (k % 4)) l.context (sdAddr d 1 p.elem p.off)
  | .window _ _ => s.tlbTouch (tlbStream (combOf c) (k % 4)) l.context (sdAddr d 1 p.elem p.off)
  | _ => s

/-- Bytes read join those a stream holds, in element order. -/
def insertData (x : StreamData) : List StreamData → List StreamData
  | [] => [x]
  | y :: r => if 64 * x.elem + x.off < 64 * y.elem + y.off then x :: y :: r else y :: insertData x r

/-- A stream holds the bytes of a piece. -/
def State.holdData (s : State) (c k : Nat) (p : Piece) (dpa : Nat) (bs : List Byte) (po su : Bool) : State :=
  let v := s.slot c k
  s.setSlot c k { v with held := insertData { elem := p.elem, off := p.off, bytes := bs, poison := po, suspect := su, dstPa := dpa } v.held }

/-- Has every window read of a stream before a position returned? -/
def State.readsPast (s : State) (c k pos : Nat) : Bool :=
  s.winReqs.all (fun (r : Nat × WindowReq) => r.2.user != WindowUser.streamRead c k || decide (pos < 64 * r.2.elem + r.2.byteOff))

/-- Are HOST writes of a launch to a region discarded, so that they need no room in the post buffer (R296, R327, R368)? -/
def State.hostLost (s : State) (l : Launch) (region : Nat) : Bool :=
  s.host.discarding || (s.queue l.queue).status == QueueStatus.orphaned
  || (match tabFind s.regions region with | some r => r.stale | none => true)

/-- Where held bytes can go now. Window and HOST writes of one stream are issued in element order (R314, R358), the latter while the
post buffer has room (R366); a stack in throttle stage 3 takes none (R37). -/
def State.heldDst (s : State) (c k : Nat) (l : Launch) (x : StreamData) : Option SideAddr :=
  let d := (s.slot c k).desc
  let inOrder := s.readsPast c k (64 * x.elem + x.off)
  if sdDstSpace d == 2 then
    if inOrder && (s.hostLost l (sdRegion d) || s.postRoom x.bytes.length) then some (.host (sdRegion d) (sdAddr d 1 x.elem x.off)) else none
  else if isWindow x.dstPa then
    if inOrder then some (match s.importAt x.dstPa x.bytes.length with | some i => .window x.dstPa i | none => .held) else none
  else if s.stackOpen x.dstPa then some (.mem x.dstPa) else none

/-- Deliver held bytes in element order up to the first that must wait. -/
def State.drainList (s : State) (c k lid : Nat) (l : Launch) : List StreamData → State
  | [] => s
  | x :: r =>
    match s.heldDst c k l x with
    | none => s.setSlot c k { s.slot c k with held := x :: r }
    | some dst =>
      (s.deliver c k lid (s.slot c k).desc { elem := x.elem, off := x.off, len := x.bytes.length } dst x.bytes x.poison x.suspect).drainList c k lid l r

/-- What a stream holds leaves as far as it can; a span record leaves whole (R312). -/
def State.drainHeld (s : State) (c k lid : Nat) : State :=
  let v := s.slot c k
  match s.launch? lid with
  | some l => if v.held.isEmpty || sdDstSpace v.desc == 3 then s else (s.setSlot c k { v with held := [] }).drainList c k lid l v.held
  | none => s

/-- Bytes read go to their destination in element order, as far as they can go now; what cannot is held (R37, R314, R358). -/
def State.passOn (s : State) (c k lid : Nat) (d : List Byte) (p : Piece) (dst : SideAddr) (bs : List Byte) (po su : Bool) : State :=
  match dst with
  | .scratch _ _ => s.deliver c k lid d p dst bs po su
  | .mem pa => (s.holdData c k p pa bs po su).drainHeld c k lid
  | .window pa _ => (s.holdData c k p pa bs po su).drainHeld c k lid
  | _ => (s.holdData c k p 0 bs po su).drainHeld c k lid

/-- Does a side in device memory lie in a stack that takes foreground work (R37)? -/
def State.sideOpen (s : State) : SideAddr → Bool
  | .mem pa => s.stackOpen pa
  | _ => true

/-- Move one piece; false where the stream stops at it. -/
def State.movePiece (s : State) (c k lid : Nat) (l : Launch) (p : Piece) : State × Bool :=
  let v := s.slot c k
  let d := v.desc
  let stay := fun (ph : StreamPhase) => (s.setSlot c k { v with phase := ph, elem := p.elem, byteOff := p.off }, false)
  let fault := fun (code : Nat) => (s.cellFault c code v.thread 8 v.pc, false)
  let fatal := fun (kind side : Nat) (a : Access) =>
    (s.fatalFault (combOf c) kind 0 a c l.context (sdAddr d side p.elem p.off) (some lid) stTranslationFatal, false)
  let read := fun (z : State) (pa : Nat) (i : Import) (dpa : Nat) =>
    let w := z.slot c k
    (z.setSlot c k { w with reads := w.reads + 1 }).windowSend i (.streamRead c k) lid (sdAddr d 0 p.elem p.off) pa false []
      p.len false p.elem p.off dpa
  match s.sideAddr c k l d 0 p with
  | .walk => (s.streamWait c k lid l 0 p, false)
  | .fatal kind => fatal kind 0 .read
  | .slotless code => fault code
  | .held => stay v.phase
  | src =>
    if !s.sideOpen src then stay v.phase
    else if sdDstSpace d == 3 then
      (match src with
       | .window pa i => (read (s.sourceRead c k l d p src) pa i 0, true)
       | _ =>
         let (bs, po, su) := s.sourceBytes src p.len
         ((s.sourceRead c k l d p src).holdData c k p 0 bs po su, true))
    else match s.sideAddr c k l d 1 p with
    | .walk => (s.streamWait c k lid l 1 p, false)
    | .fatal kind => fatal kind 1 .write
    | .slotless code => fault code
    | .credit => stay .credit
    | dst =>
      let full := match dst with | .host r _ => !s.hostLost l r && !s.postRoom p.len | _ => false
      if full || !s.sideOpen dst then stay v.phase
      else
        let s1 := (s.sourceRead c k l d p src).destUsed c k l d p dst
        match src with
        | .window pa i => (read s1 pa i (match dst with | .mem x => x | .window x _ => x | _ => 0), true)
        | _ =>
          let (bs, po, su) := s.sourceBytes src p.len
          (s1.passOn c k lid d p dst bs po su, true)

/-- Move pieces in order. -/
def State.movePieces (s : State) (c k lid : Nat) (l : Launch) : List Piece → State × Bool
  | [] => (s, true)
  | p :: r =>
    match s.movePiece c k lid l p with
    | (s1, true) => s1.movePieces c k lid l r
    | (s1, false) => (s1, false)

/-- Move elements `e`, `e + 1`, … of the chunk; the first from byte `b`. [DESIGN CHOICE, log entry 31] -/
def State.moveElems (s : State) (c k lid : Nat) (l : Launch) : Nat → Nat → Nat → State × Bool
  | 0, _, _ => (s, true)
  | n + 1, e, b =>
    match s.movePieces c k lid l (elemPieces (s.slot c k).desc e b) with
    | (s1, true) => s1.moveElems c k lid l n (e + 1) 0
    | (s1, false) => (s1, false)

/-- A span record leaves for its member, once its whole source run has been read: `RETURN_TAG` filled at the home device (R312). -/
def State.spanLeave (s : State) (c k : Nat) : State :=
  let v := s.slot c k
  let d := v.desc
  let bs := v.held.flatMap (fun x => x.bytes)
  let po := ((v.held.filter (fun x => x.poison)).map (fun x => x.elem)).eraseDups
  match s.group? (sdHandle d) with
  | none => s
  | some g =>
    let rec_ := match v.returnTag with
      | some t => bs.take 0x10 ++ bytesLE 4 t ++ bs.drop 0x14
      | none => bs
    let toRank := leAt bs 2 2
    let dst := if toRank == 0xFFFF then leAt bs 0xC 3 else g.members.getD toRank 0
    let m : FabMsg := { dst := dst, body := .span rec_ po }
    let s1 : State := { s with fabricOut := s.fabricOut ++ [m] }
    (s1.setSlot c k { v with
      granules := v.granules + BitVec.ofNat 32 (bs.length / 64), moved := true, phase := .moving, held := [], record := some (rec_, po)
      elem := bs.length / 64, byteOff := 0 }).bump 0x6033 0 po.length

/-- Has the record of a span send left its fabric port (R314)? -/
def State.recordLeft (s : State) (v : StreamSlot) : Bool :=
  match v.record with
  | none => true
  | some (r, po) =>
    s.fabricOut.all (fun (m : FabMsg) => m.body != FabBody.span r po)
    && s.ports.all (fun (p : Nat × Port) => (p.2.txq ++ p.2.sending.toList).all (fun t => t.body != some (FabBody.span r po)))

/-- Row STREAM_CHUNK_START: with `FREE` and `GO` granted, the engine issues the chunk from where it stands; what it cannot
issue waits (R366). The record of a span send leaves once it has been read whole. [DESIGN CHOICE, log entry 31] -/
def State.streamChunkStart (s : State) (c k : Nat) : State :=
  match s.activeLaunch c with
  | none => s
  | some (lid, l) =>
    let v := s.slot c k
    if v.state != SlotState.active || v.checking != 0 || (v.phase != StreamPhase.moving && v.phase != StreamPhase.credit) || v.moved then s
    else
      let stop := (v.chunks + 1) * sdChunkElems v.desc
      let (s1, done) := s.moveElems c k lid l (stop - v.elem) v.elem v.byteOff
      if !done then s1
      else if sdDstSpace v.desc != 3 then s1.setSlot c k { s1.slot c k with moved := true, phase := .moving, elem := stop, byteOff := 0 }
      else if (s1.slot c k).reads != 0 then s1.setSlot c k { s1.slot c k with phase := .moving, elem := stop, byteOff := 0 }
      else s1.spanLeave c k

/-- Row STREAM_SRC_DONE: every source read of the chunk has returned (R313 step 4). -/
def State.streamSrcDone (s : State) (c k : Nat) : State :=
  let v := s.slot c k
  if (s.activeLaunch c).isNone || v.state != SlotState.active || !v.moved || v.reads != 0 || v.srcDone then s
  else
    let s1 := s.setSlot c k { v with srcDone := true, phase := .filling }
    if descSemEn v.desc 0x3E then s1.signal c (descSem v.desc 0x3E) 1 v.thread 8 v.pc else s1

/-- Row STREAM_CHUNK_FILL: the chunk is visible (R314); `FILL` is signalled and the engine turns to the next chunk. -/
def State.streamChunkFill (s0 : State) (c k : Nat) : State :=
  match s0.activeLaunch c with
  | none => s0
  | some (lid, l) =>
    let s := s0.drainHeld c k lid
    let v := s.slot c k
    let dstLanded := sdDstSpace v.desc != 1 || s.landed (l.cells.getD (sdRank v.desc 1) 0) (.stream c k)
    if v.state != SlotState.active || !v.srcDone || !v.held.isEmpty || v.outstanding != 0 || !dstLanded || !s.recordLeft v || decide (sdChunks v.desc ≤ v.chunks) then s
    else
      let s1 := ((s.setSlot c k { v with chunks := v.chunks + 1 }).count (8 * 62) (sdChunkElems v.desc * sdElem v.desc)).traceCell c 5
        (bytesLE 1 k ++ bytesLE 1 c ++ bytesLE 2 0 ++ bytesLE 4 (v.chunks + 1) ++ bytesLE 4 v.granules.toNat)
      let s2 := if descSemEn v.desc 0x3B then s1.signal (peerCell l v.desc) (descSem v.desc 0x3B) 1 v.thread 8 v.pc else s1
      if v.chunks + 1 == sdChunks v.desc || (s2.slot c k).state != SlotState.active then s2 else s2.armChunk c k l

/-- Row STREAM_COMPLETE: after the last chunk the slot's pending re-arm becomes active, checked at that moment, or the
slot is IDLE (R321). -/
def State.streamComplete (s : State) (c k : Nat) : State :=
  match s.activeLaunch c with
  | none => s
  | some (lid, l) =>
    let v := s.slot c k
    if v.checking == 2 then s.recheck c lid l v
    else if v.state != SlotState.active || v.checking != 0 || v.chunks != sdChunks v.desc then s
    else
      let idle := s.setSlot c k { StreamSlot.idle with granules := v.granules, chunks := v.chunks }
      match v.rearm with
      | none => idle
      | some (d, t, pc) =>
        match idle.tryActivate c lid l d t pc with
        | some s1 => s1
        | none => s.waitActivate c lid l d t pc 2

/-- Row STREAM_STOP: a stream of an ended launch stops and its slot returns to IDLE (R326). -/
def State.streamStop (s : State) (c k : Nat) : State :=
  let v := s.slot c k
  if !s.cellEnded c || v.state == SlotState.idle then s
  else
    let peers := (List.range 128).filter (fun p => (s.cell p).launch == (s.cell c).launch)
    let s1 := peers.foldl (fun (acc : State) p => (acc.withdraw p (.streamFree c k)).withdraw p (.streamGo c k)) s
    (s1.setSlot c k StreamSlot.idle).settleCell c

/-- `STREAM_SLOT` (R328). -/
def StreamSlot.word (v : StreamSlot) : Nat :=
  let st := match v.state with | .idle => 0 | .active => 1 | .halted => 2
  let w := match v.phase with | .waitFree => 1 | .waitGo => 2 | .walking => 3 | .credit => 4 | _ => 0
  st * 2 ^ 62 + b2n v.rearm.isSome * 2 ^ 61 + (if st == 1 then w else 0) * 2 ^ 58 + v.prio % 8 * 2 ^ 55 + v.chunks % 65536 * 2 ^ 32 + v.granules.toNat

/-- `STREAM_POS_A`, `_B`, `_C` (R328). -/
def StreamSlot.pos (v : StreamSlot) (i : Nat) : Nat :=
  let x := fun (j : Nat) => v.haltCoord.getD j 0 % 2 ^ 24
  if i == 0 then x 1 * 2 ^ 24 + x 0 else if i == 1 then x 3 * 2 ^ 24 + x 2 else v.haltSide % 2 * 2 ^ 30 + v.haltByte % 64 * 2 ^ 24 + x 4

end Sys2Proof.Machine
end

