-- ==== Sys2Proof/Machine/Trans.lean ====
section
/-!
DEFINITION. The commands of address translation: contexts, mapping, invalidation and drains, walks and their faults
(rows CTX_CREATE, TLB_WALK_COMPLETE to RESOLVE; R255, R330–R347).
-/
namespace Sys2Proof.Machine

/-! ## Walks (R341–R344) -/

/-- A halt of a stream at its granule (R323). -/
def State.haltStream (s : State) (c k side : Nat) : State :=
  let v := s.slot c k
  if v.state != SlotState.active then s
  else (s.setSlot c k { v with state := .halted, haltCoord := sdCoords v.desc v.elem, haltByte := v.byteOff, haltSide := side }).bump 0x6030 0 1

/-- What a requester does once its translation is installed. -/
def State.walkDone (s : State) (w : Walk) (pa : Nat) : State :=
  match w.who with
  | .load c t =>
    (match (s.thread c t).waits with
     | .vaLoad rd va n sx none =>
       let s1 := s.modThread c t (fun h => { h with waits := .vaLoad rd va n sx (some pa) })
       if isWindow pa then s1.windowLoad c t w.context va pa n
       else if s.populated pa then s1
       else s1.fatalFault w.collector 2 0 .read c w.context va (some w.launch) stTranslationFatal
     | _ => s)
  | .store c t => s.goStore c t
  | .stream c k _ =>
    let v := s.slot c k
    if v.state == SlotState.active && v.phase == StreamPhase.walking then s.setSlot c k { v with phase := .moving } else s
  | .patchBlock q i => s.patchCheck q i
  | .patchRow _ h t row e => s.resolveRow h t row e false
  | _ => s

/-- Does a requester still want its page: has its launch not ended (R347)? -/
def State.walkLives (s : State) (w : Walk) : Bool :=
  match s.launch? w.launch with
  | some l => l.phase != .ended
  | none => w.launch == 0

/-- A requester's access faults fatally (R343): a peer's pooling work is dropped, and the home device's timeout decides (R221);
a fetch that a launch left behind is discarded (R182). -/
def State.walkFatal (s : State) (w : Walk) (kind : Nat) : State :=
  match w.who with
  | .bag f id item =>
    (match s.work? id with
     | some b =>
       if item == 0 then s.stopIntake f id b (.fatal w.context kind w.va)
       else if s.workRuns b then s.bagStop f id b (.fatal w.context kind w.va) else s.dropFetch id (item - 1) b
     | none => s)
  | _ =>
    s.fatalFault w.collector kind 0 w.access (cellOf w.who) w.context w.va (if w.launch == 0 then none else some w.launch) stTranslationFatal

/-- What a completed walk gives one of its requesters: the entry it read goes into the requester's TLB, or the access faults; a
walk that an invalidation covered is not installed, and its requester walks again (R341, R343, R344, R346). -/
def State.finishWalk (s : State) (w : Walk) : State :=
  if w.stale then ({ s with walks := s.walks ++ [{ w with stale := false }] }).countHub w.collector 20
  else match (s.ctx w.context).leaf w.va with
    | none =>
      let s1 := s.resumable w
      (match w.who with | .stream c k side => s1.haltStream c k side | _ => s1)
    | some (e, big) =>
      if !ptePermits e w.access then s.walkFatal w 1
      else
        let pa := leafPa e big w.va
        if !isWindow pa && !s.populated pa then s.walkFatal w 2
        else
          let page := if big then w.va / 2 ^ 29 else w.va / 2 ^ 16
          (s.tlbInstall (tlbOf w.who) { context := w.context, page := page, large := big, entry := e }).walkDone w pa

/-- Row TLB_WALK_COMPLETE: one of the eight walks that a walker runs has read its tables, for every requester that it was merged
for (R341). -/
def State.tlbWalkComplete (s : State) (who : Requester) : State :=
  match s.walks.find? (fun w => w.who == who) with
  | none => s
  | some w =>
    if !s.walkRuns w then s
    else
      let mine := s.walks.filter w.samePage
      let s0 := ({ s with walks := s.walks.filter (fun v => !w.samePage v) }).noteWalk w
      mine.foldl (fun (acc : State) v => if acc.walkLives v then acc.finishWalk v else acc) s0

/-! ## Quarters (R255, R337) -/

/-- Free quarters of a partition, as physical address / 256 MiB. -/
def State.freeQuarters (s : State) (p : Nat) : List Nat :=
  let held := match s.migration with | some m => if m.phase != MigPhase.draining then [m.dst] else [m.src] | none => []
  ((s.part p).frameList.flatMap (fun f => (List.range 4).map (fun i => 4 * f + i))).filter (fun q =>
    (tabFind s.quarters q).isNone && !held.contains q)

/-- The stack of a quarter. -/
def quarterStack (q : Nat) : Nat := stackOf (q * 2 ^ 28)

/-- The stack, among candidates, in which the partition has the most free quarters; ties to the lowest (R255). -/
def bestStack (free cand : List Nat) : Option Nat :=
  let n := fun (k : Nat) => (free.filter (fun q => quarterStack q == k)).length
  (List.range 4).foldl (fun best k =>
    if cand.any (fun q => quarterStack q == k) then
      (match best with
       | some b => if n b < n k then some k else some b
       | none => some k)
    else best) none

/-- The pins of a block of a context. -/
def Context.pin (x : Context) (block : Nat) : FramePin := tabGet FramePin.none x.pins block

/-- Do the pins of blocks allow a quarter's stack (R255, R259)? -/
def Context.pinsAllow (x : Context) (bs : List Nat) (q : Nat) : Bool :=
  bs.all (fun b => match (x.pin b).stack with | some k => quarterStack q == k | none => true)

/-- The quarter R255 chooses for a new block, or the first of an aligned pair for the two blocks of a 512 MiB page, among
those their pins allow. -/
def State.chooseQuarter (s : State) (p ctx : Nat) (bs : List Nat) : Option Nat :=
  let free := s.freeQuarters p
  let fit := if bs.length == 1 then free else free.filter (fun q => q % 2 == 0 && free.contains (q + 1))
  let cand := fit.filter ((s.ctx ctx).pinsAllow bs)
  match bestStack free cand with
  | some k => cand.find? (fun q => quarterStack q == k)
  | none => none

/-- Bind a quarter to a block of a context. -/
def State.bindQuarter (s : State) (p ctx block q : Nat) : State :=
  let x := s.ctx ctx
  { s.setCtx ctx { x with blocks := tabSet x.blocks block q } with
    quarters := tabSet s.quarters q { partition := p, context := ctx, block := block, heat := 0, fetched := 0 } }

/-- Allocate the quarters of blocks `bs`, in order; how many were new. -/
def State.allocBlocks (s : State) (p ctx : Nat) : List Nat → Option (State × Nat)
  | [] => some (s, 0)
  | b :: r =>
    if (tabFind (s.ctx ctx).blocks b).isSome then s.allocBlocks p ctx r
    else match s.chooseQuarter p ctx [b] with
      | none => none
      | some q => ((s.bindQuarter p ctx b q).allocBlocks p ctx r).map (fun x => (x.1, x.2 + 1))

/-- Allocate the pairs of 512 MiB regions `rs`. -/
def State.allocPairs (s : State) (p ctx : Nat) : List Nat → Option (State × Nat)
  | [] => some (s, 0)
  | r :: rest =>
    match s.chooseQuarter p ctx [2 * r, 2 * r + 1] with
    | none => none
    | some q => (((s.bindQuarter p ctx (2 * r) q).bindQuarter p ctx (2 * r + 1) (q + 1)).allocPairs p ctx rest).map (fun x => (x.1, x.2 + 2))

/-- Bytes of the page-table store in use (R331): tables that hold a present entry. [DEDUCED, log entry 56] -/
def State.ptStoreBytes (s : State) : Nat :=
  (s.contexts.map (fun c =>
    if !c.2.used then 0
    else
      let l3 : List Nat := (c.2.leaves.map (fun (e : Nat × Nat) => e.1 / 8192)).eraseDups
      let l2 : List Nat := (l3.map (· / 8192) ++ c.2.large.map (fun (e : Nat × Nat) => e.1 / 8192)).eraseDups
      512 + 65536 * (l3.length + l2.length))).sum

/-! ## MAP, PT_SYNC, UNMAP (R336–R339) -/

/-- Numbers `a` to `b`, both included. -/
def span (a b : Nat) : List Nat := (List.range (b + 1 - a)).map (· + a)

/-- Row MAP. -/
def State.map (s : State) : State := s.admRun 0x40 (some 32) (fun z b =>
  let c := leAt b 0 2
  let big := leAt b 2 1 == 1
  let perm := leAt b 3 1
  let va := leAt b 8 8
  let len := leAt b 0x10 8
  let unit := if big then 2 ^ 29 else 2 ^ 16
  let x := z.ctx c
  if !x.used || decide (1 < leAt b 2 1) || decide (7 < perm) || (bitAt perm 1 && !bitAt perm 0) || leAt b 4 4 != 0 || leAt b 0x18 8 != 0
    || va % unit != 0 || len == 0 || len % unit != 0 || decide (2 ^ 48 < va + len) then .no z stIllegalOp
  else
    let last := va + len - 1
    let pages := span (va / 2 ^ 16) (last / 2 ^ 16)
    let regions := span (va / 2 ^ 29) (last / 2 ^ 29)
    let busy := x.large.any (fun e => regions.contains e.1)
      || x.leaves.any (fun e => if big then regions.contains (e.1 / 8192) else pages.contains e.1)
    if busy then .no z stIllegalOp
    else
      let grown := if big then z.allocPairs x.partition c regions else z.allocBlocks x.partition c (span (va / 2 ^ 28) (last / 2 ^ 28))
      match grown with
      | none => .no z stBusy
      | some (z1, n) =>
        let y := z1.ctx c
        let y1 := if big then
            { y with large := regions.foldl (fun (t : Table Nat) r => tabSet t r (mkPte ((tabGet 0 y.blocks (2 * r)) * 2 ^ 28) perm)) y.large }
          else
            { y with leaves := pages.foldl (fun (t : Table Nat) p =>
                tabSet t p (mkPte ((tabGet 0 y.blocks (p / 4096)) * 2 ^ 28 + p % 4096 * 65536) perm)) y.leaves }
        let z2 := z1.setCtx c y1
        if 671088640 < z2.ptStoreBytes then .no z stBusy else .ok z2 (bytesLE 4 n))

/-- An imported slot of the partition, below the window's `SIZE` (R333). [DEDUCED, log entry 56] -/
def State.windowLeafOk (s : State) (p pa : Nat) : Bool :=
  match tabFind s.imports (windowSlot pa) with
  | some i => i.partition == p && !i.releasing && decide (windowOffset pa < i.size)
  | none => false

/-- May an entry be written at a page by `PT_SYNC` (R338)? -/
def State.ptSyncOk (s : State) (c va e : Nat) : Bool :=
  let x := s.ctx c
  match x.leaf va with
  | some (old, big) =>
    let oldPa := leafPa old big (va / 65536 * 65536)
    let win := isWindow oldPa
    va % (if big then 2 ^ 29 else 65536) == 0 && decide (va < 2 ^ 48)
    && (if !pteP e then win && pteRsvOk e
        else pteLeaf e && pteLegal e && (!big || field e 28 16 == 0) &&
          (if isWindow (ptePa e) then s.windowLeafOk x.partition (ptePa e)
           else !win && ptePa e == (if big then field old 47 29 * 2 ^ 29 else ptePa old)))
  | none =>
    va % 65536 == 0 && decide (va < 2 ^ 48) && pteP e && pteLeaf e && pteLegal e && isWindow (ptePa e) && s.windowLeafOk x.partition (ptePa e)

/-- Write one entry; one with `P` = 0 leaves no entry. -/
def Context.putLeaf (x : Context) (va e : Nat) : Context :=
  if (tabFind x.large (va / 2 ^ 29)).isSome then
    { x with large := if pteP e then tabSet x.large (va / 2 ^ 29) e else tabErase x.large (va / 2 ^ 29) }
  else { x with leaves := if pteP e then tabSet x.leaves (va / 2 ^ 16) e else tabErase x.leaves (va / 2 ^ 16) }

/-- Row PT_SYNC. [DEDUCED, log entry 56] -/
def State.ptSync (s : State) : State := s.admRun 0x41 none (fun z b =>
  let c := leAt b 0 2
  let n := leAt b 2 2
  let pairs := (List.range n).map (fun i => (leAt b (8 + 16 * i) 8, leAt b (16 + 16 * i) 8))
  if b.length != 8 + 16 * n || n == 0 || decide (60 < n) || leAt b 4 4 != 0 || !(z.ctx c).used then .no z stIllegalOp
  else if !pairs.all (fun p => z.ptSyncOk c p.1 p.2) then .no z stIllegalOp
  else
    let z1 := z.setCtx c (pairs.foldl (fun (x : Context) p => x.putLeaf p.1 p.2) (z.ctx c))
    if 671088640 < z1.ptStoreBytes then .no z stBusy else .ok z1 [])

/-- Does a range of a context touch the rows of a version slot that is not FREE (R339)? -/
def State.coversRows (s : State) (c va len : Nat) : Bool :=
  s.tables.any (fun t => t.2.slots.any (fun v => v.state != SlotSt.free && v.context == c
    && decide (v.rowBase < va + len) && decide (va < v.rowBase + recRows t.2.record * rowStride t.2.record)))

/-- Does a range of a context touch an inbound registered region (R363)? -/
def State.coversRegion (s : State) (c va len : Nat) : Bool :=
  s.regions.any (fun r => r.2.kind != 0 && r.2.context == c && decide (r.2.base < va + len) && decide (va < r.2.base + r.2.size))

/-! ## Invalidation and drains (R346) -/

/-- Does a drain cover an address of a context: does a page of its range, small or large, hold it? -/
def Drain.covers (d : Drain) (c va : Nat) : Bool :=
  d.slot.isNone && d.context == c && (d.length == 0 || d.big.contains (va / 2 ^ 29)
    || (decide (d.va / 65536 * 65536 ≤ va) && decide (va / 65536 * 65536 < d.va + d.length)))

/-- Does a drain cover a cached entry? -/
def Drain.coversEntry (d : Drain) (t : TlbEntry) : Bool :=
  match d.slot with
  | some k => let pa := leafPa t.entry t.large 0
              isWindow pa && windowSlot pa == k
  | none =>
    let lo := t.page * (if t.large then 2 ^ 29 else 2 ^ 16)
    let hi := lo + (if t.large then 2 ^ 29 else 2 ^ 16)
    d.context == t.context && (d.length == 0 || (decide (lo < d.va + d.length) && decide (d.va < hi)))

/-- A walker forgets the tables it has cached of the contexts a drain may cover. -/
def WalkCache.drain (k : WalkCache) (d : Drain) : WalkCache :=
  let keep := fun (e : Nat × Nat) => d.slot.isNone && e.1 != d.context
  { level1 := k.level1.filter keep, level2 := k.level2.filter keep }

/-- The 512 MiB pages of a context that a range touches: those the tables hold, and those a TLB still caches. -/
def State.largeIn (s : State) (c va len : Nat) : List Nat :=
  let hit := fun (p : Nat) => decide (p * 2 ^ 29 < va + len) && decide (va < (p + 1) * 2 ^ 29)
  let held := (s.ctx c).large.map (fun (e : Nat × Nat) => e.1)
  let cached := s.tlbs.flatMap (fun (t : Nat × List TlbEntry) =>
    (t.2.filter (fun e => e.context == c && e.large)).map (fun e => e.page))
  ((held ++ cached).filter hit).eraseDups

/-- Begin a drain: cached entries go, walks in flight will not be installed. `move`: it is that of a remap (R258).
[DESIGN CHOICE, log entry 58] -/
def State.startDrain (s : State) (c va len : Nat) (slot : Option Nat) (move : Bool) : State × Nat :=
  let d : Drain := { id := s.nextDrain, context := c, va := va, length := len, big := s.largeIn c va len, slot := slot, move := move }
  ({ s with
     nextDrain := s.nextDrain + 1
     drains := s.drains ++ [d]
     tlbs := s.tlbs.map (fun t => (t.1, t.2.filter (fun e => !d.coversEntry e)))
     walkCaches := s.walkCaches.map (fun (t : Nat × WalkCache) => (t.1, t.2.drain d))
     walks := s.walks.map (fun w => if slot.isSome || d.covers w.context w.va then { w with stale := true } else w) }, s.nextDrain)

/-- Have the accesses that were translated before the drain finished: loads whose data is awaited, window accesses, and
row reads (R346)? -/
def State.drained (s : State) (d : Drain) : Bool :=
  let ofLaunch := fun (l : Nat) => match s.launch? l with | some x => x.context | none => 65536
  s.cells.all (fun x => match x.2.launch with
    | none => true
    | some l => x.2.threads.all (fun t => match t.2.waits with
      | .vaLoad _ va _ _ (some pa) => isWindow pa || !d.covers (ofLaunch l) va
      | _ => true)
      && x.2.threads.all (fun t => t.2.stores.all (fun p => p.pa.isNone || !d.covers (ofLaunch l) p.va)))
  && s.winReqs.all (fun r => match d.slot with
      | some k => r.2.slot != k && !(isWindow r.2.dstPa && windowSlot r.2.dstPa == k)
      | none => !d.covers (ofLaunch r.2.launch) r.2.va && (match r.2.user with
        | .streamRead c k => !d.covers (ofLaunch r.2.launch) (sdAddr (s.slot c k).desc 1 r.2.elem r.2.byteOff)
        | _ => true))
  && s.works.all (fun w => w.2.fetches.all (fun f => match f.state with
      | .missed _ => (match s.table? w.2.handle f.table with
        | some t => !d.covers (t.slot f.slot).context f.va
        | none => true)
      | _ => true))

/-- Row UNMAP: leaves are cleared, the range drains, then quarters with no mapped page are freed (R339, R347). -/
def State.unmap (s : State) : State := s.admRun 0x42 (some 24) (fun z b =>
  let c := leAt b 0 2
  let va := leAt b 8 8
  let len := leAt b 0x10 8
  let x := z.ctx c
  let cut := x.large.any (fun e =>
    let lo := e.1 * 2 ^ 29
    decide (lo < va + len) && decide (va < lo + 2 ^ 29) && (decide (lo < va) || decide (va + len < lo + 2 ^ 29)))
  if !x.used || leAt b 2 6 != 0 || va % 65536 != 0 || len % 65536 != 0 || len == 0 || decide (2 ^ 48 < va + len) || cut then .no z stIllegalOp
  else if z.coversRows c va len || z.coversRegion c va len then .no z stBusy
  else
    let inside := fun (lo hi : Nat) => decide (va ≤ lo) && decide (hi ≤ va + len)
    let y := { x with
      leaves := x.leaves.filter (fun e => !inside (e.1 * 65536) ((e.1 + 1) * 65536))
      large := x.large.filter (fun e => !inside (e.1 * 2 ^ 29) ((e.1 + 1) * 2 ^ 29)) }
    let z1 := z.setCtx c y
    let z2 := match z1.migration with
      | some m => if m.phase != MigPhase.draining && m.context == c && decide (m.block * 2 ^ 28 < va + len) && decide (va < (m.block + 1) * 2 ^ 28)
                  then { z1 with migration := none } else z1
      | none => z1
    let (z3, d) := z2.startDrain c va len none false
    .wait z3 (.unmap d c) true)

/-- Row INVALIDATE; it releases the admin queue while it drains (R300, R346). -/
def State.invalidate (s : State) : State := s.admRun 0x43 (some 24) (fun z b =>
  let c := leAt b 0 2
  if !(z.ctx c).used || leAt b 2 6 != 0 then .no z stIllegalOp
  else
    let (z1, d) := z.startDrain c (leAt b 8 8) (leAt b 0x10 8) none false
    .wait z1 (.drain d) false)

/-- Free the quarters of a context that hold no mapped page; the migration of one is dropped with it. -/
def State.freeEmptyQuarters (s : State) (c : Nat) : State :=
  let x := s.ctx c
  let mapped := fun (b : Nat) => x.leaves.any (fun e => e.1 / 4096 == b && !isWindow (ptePa e.2)) || x.large.any (fun e => e.1 == b / 2)
  let gone := x.blocks.filter (fun b => !mapped b.1)
  { s.setCtx c { x with blocks := x.blocks.filter (fun b => mapped b.1) } with
    quarters := s.quarters.filter (fun q => !gone.any (fun b => b.2 == q.1)) }

/-- Row CTX_CREATE. -/
def State.ctxCreate (s : State) : State := s.admRun 0x08 (some 24) (fun z b =>
  let c := leAt b 0 2
  let p := leAt b 2 1
  let used := (z.contexts.filter (fun x => x.2.used && x.2.partition == p)).length
  if decide (255 < c) || decide (15 < p) || (z.part p).state != PartState.active || leAt b 3 5 != 0 || leAt b 8 8 % 65536 != 0
    || leAt b 0x10 8 % 65536 != 0 || decide (2 ^ 48 < leAt b 8 8 + leAt b 0x10 8) then .no z stIllegalOp
  else if (z.ctx c).used || decide ((z.part p).contexts.toNat ≤ used) then .no z stBusy
  else .ok (z.setCtx c { Context.unused with used := true, partition := p, saveBase := leAt b 8 8, saveSize := leAt b 0x10 8 }) [])

/-! ## RESOLVE (R345) -/

/-- Retry a stalled requester. -/
def State.retryWait (s : State) (w : Walk) : State :=
  match w.who with
  | .patchBlock q i => s.patchCheck q i
  | .patchRow _ h t row e => s.resolveRow h t row e false
  | .stream c k _ =>
    let v := s.slot c k
    (if v.state == SlotState.halted then s.setSlot c k { v with state := .active, phase := .walking } else s).startWalk w
  | _ => s.startWalk w

/-- Is a requester a halted stream? -/
def State.haltedStream (s : State) (w : Walk) : Bool := match w.who with
  | .stream c k _ => (s.slot c k).state == SlotState.halted
  | _ => false

/-- Abort a stalled requester: a fatal fault of kind 0x06; `halted`: a halted stream stands on its record, and every launch on it
ends with STREAM_HALTED (R325, R343, R345). [DEDUCED, log entry 151] -/
def State.abortWait (s : State) (halted : Bool) (w : Walk) : State :=
  let fatal := fun (z : State) (l : Option Nat) => z.fatalFault w.collector 6 0 w.access (cellOf w.who) w.context w.va l
    (if halted then stStreamHalted else stTranslationFatal)
  match w.who with
  | .patchBlock q i => (fatal s none).workDone q i stTranslationFatal 0
  | .patchRow _ h t row e => (fatal s none).resolveRow h t row e true
  | .stream c k _ =>
    if s.haltedStream w then fatal (s.streamError 2 (s.ctx w.context).partition k c 0) (some w.launch)
    else fatal s (some w.launch)
  | .bag _ _ _ => if halted && w.launch != 0 then fatal s (some w.launch) else s.walkFatal w 6
  | _ => fatal s (if w.launch == 0 then none else some w.launch)

/-- Row RESOLVE. [DEDUCED, log entry 151] -/
def State.resolve (s : State) : State := s.admRun 0x44 (some 16) (fun z b =>
  let c := leAt b 0 2
  let action := leAt b 2 1
  let va := leAt b 8 8
  if !(z.ctx c).used || decide (1 < action) || leAt b 3 5 != 0 || va % 65536 != 0 then .no z stIllegalOp
  else
    let hit := fun (f : FaultRecord) => f.context == c && f.page == va / 65536
    let recs := z.collectors.flatMap (fun k => (k.2.records.filter (fun r => hit r.2)).map (·.2))
    let ws := recs.flatMap (fun (f : FaultRecord) => f.waiters.map (fun w => (f.waiters.any z.haltedStream, w)))
    let z1 := { z with collectors := z.collectors.map (fun k => (k.1, { k.2 with records := k.2.records.filter (fun r => !hit r.2) })) }
    let z2 := ws.foldl (fun (acc : State) (w : Bool × Walk) => if action == 0 then acc.retryWait w.2 else acc.abortWait w.1 w.2) z1
    .ok z2.openAllQueued (bytesLE 4 recs.length ++ bytesLE 4 ws.length))

end Sys2Proof.Machine
end

