-- ==== Sys2Proof/Machine/Windows.lean ====
section
/-!
DEFINITION. Sequence spans and fabric windows (rows SPAN_BIND, SPAN_RECORD_ARRIVAL to SPAN_TIMEOUT, OPEN_WINDOW to
RELEASE_IMPORT, PROBE_ANSWER_RECEIVE; R228–R239, R276, R304).
-/
namespace Sys2Proof.Machine

/-! ## Spans (R229–R233) -/

/-- Is a hop launch of a queue in flight? -/
def State.hopInFlight (s : State) (q : Nat) : Bool := s.launches.any (fun l => l.2.queue == q && !l.2.hop.isEmpty)

/-- Row SPAN_BIND. -/
def State.spanBind (s : State) : State := s.admRun 0x22 (some 24) (fun z b =>
  let h := leAt b 0 4
  let q := leAt b 4 2
  let fp := leAt b 6 1
  let im := leAt b 8 8
  let x := z.queue q
  match z.group? h with
  | none => .no z stIllegalOp
  | some g =>
    let imageOk := match tabFind z.images im with
      | some i => i.partition == g.partition && decide (fp ≤ 6) && (i.variant (2 ^ fp)).isSome
      | none => false
    if g.kind != 1 || decide (1023 < q) || x.status == QueueStatus.free || !x.span || z.queuePart q != g.partition || leAt b 7 1 != 0
      || !allZero (b.drop 0x10) || (im != 0 && !imageOk) then .no z stIllegalOp
    else if z.hopInFlight q then .no z stBusy
    else .ok (z.setQueue q { x with binding := if im == 0 then none else some (h, fp, im) }) [])

/-- Send a span record back to its home device at once. -/
def State.returnSpan (s : State) (record : List Byte) (status rank : Nat) : State :=
  { s with fabricOut := s.fabricOut ++ [{ dst := leAt record 0xC 3, body := .span (spanReturn record status rank) [] }] }

/-- The hop launch that a record places (R231). [DEDUCED, log entry 53] -/
def State.hopLaunch (s : State) (q h : Nat) (im : Image) (id : Nat) (v : Variant) (record : List Byte) (poison : List Nat) : Launch :=
  let x := s.queue q
  let payload := record.drop 64
  { queue := q, index := x.taken.toNat % 2 ^ 32, partition := s.queuePart q, context := x.context, image := id, imageBase := im.va,
    variant := v, launchId := BitVec.ofNat 64 (leAt record 0x30 8), genKey := BitVec.ofNat 128 (leAt record 0x20 16),
    groups := [(h, BitVec.ofNat 64 (leAt record 0x18 8))], consts := (payload ++ List.replicate 256 0#8).take 256,
    inlineData := List.replicate 192 0#8, priority := x.priority, irq := false, phase := .taken, cells := [], status := none, detail := 0,
    replayed := 0, clipped := 0, lastClip := none, sticky := 0#7, preempted := false, walked := [], deliveredPoison := false,
    deliveredSuspect := false, lostWrites := false, startTime := s.time, elapsed := 0, order := 0, loadsLeft := [], votes := [],
    tripped := false, reports := [], target := none, save := none, restored := false, hop := record, hopPoison := poison, verdicts := 0 }

/-- Take one waiting record of a span queue. -/
def State.startHop (s : State) (q : Nat) (record : List Byte) (poison : List Nat) : State :=
  match (s.queue q).binding with
  | none => s.returnSpan record stIllegalOp (match s.handleOf (leAt record 4 4) with
      | some h => (match s.group? h with | some g => g.rank | none => 0xFFFF)
      | none => 0xFFFF)
  | some (h, fp, id) =>
    let rank := match s.group? h with | some g => g.rank | none => 0xFFFF
    match tabFind s.images id with
    | none => s.returnSpan record stIllegalOp rank
    | some im =>
      match im.variant (2 ^ fp) with
      | none => s.returnSpan record stIllegalOp rank
      | some v =>
        let lid := s.nextLaunch
        let s1 := (s.countTaken q).admitted (s.hopLaunch q h im id v record poison)
        if s.everFits q (2 ^ fp) then s1 else (s1.bump 0x6024 0 1).endLaunch lid (some stContextShape) 0

/-- The image and footprint that a span queue's hop launches run; none where a record would be returned at once. -/
def State.hopImage (s : State) (q : Nat) : Option (Nat × Nat) :=
  match (s.queue q).binding with
  | none => none
  | some (_, fp, id) => ((tabFind s.images id).bind (fun (im : Image) => im.variant (2 ^ fp))).map (fun _ => (id, 2 ^ fp))

/-- May a span queue take a command, but for cells: ACTIVE with room in its ring, the function neither draining nor disabled, no
saved launch before it (R247, R275, R276, R366)? -/
def State.hopReady (s : State) (q : Nat) : Bool :=
  (s.queue q).status == QueueStatus.active && (s.queue q).hasRoom && s.host.fn == .active && !(s.part (s.queuePart q)).selfTest
    && !s.resumeFirst q

/-- Does the oldest waiting record of a span queue leave the staging now: its hop launch can be placed, or ends at once; or is
the record returned (R231, R276, R304)? -/
def State.hopLeaves (s : State) (q : Nat) : Bool :=
  match s.hopImage q with
  | none => true
  | some (im, f) => s.hopReady q && (!s.everFits q f || s.mayPlace q im f)

/-- Does the oldest waiting record of a span queue wait for cells alone (R248)? -/
def State.hopShort (s : State) (q : Nat) : Bool :=
  match s.hopImage q with
  | none => false
  | some (im, f) => s.hopReady q && !s.heldBack q && (s.choosePlacement q im f (s.freeCells q)).isNone

/-- Take the waiting records of a span queue in arrival order; `go` says that none before has had to wait (R276). -/
def State.spanTake (s : State) (q : Nat) (go : Bool) : List (Nat × List Byte × List Nat) → State
  | [] => { s with spanWait := [] }
  | r :: rest =>
    if r.1 == q && go && s.hopLeaves q then (s.startHop q r.2.1 r.2.2).spanTake q true rest
    else
      let s0 := if r.1 == q && go && s.hopShort q then s.modQueue q (fun x => { x with waits := true }) else s
      let s1 := s0.spanTake q (go && r.1 != q) rest
      { s1 with spanWait := r :: s1.spanWait }

/-- Records held at the port enter the staging in arrival order while they fit (R276). -/
def State.admitRecords (s : State) : List (Nat × List Byte × List Nat) → State
  | [] => { s with spanPort := [] }
  | r :: rest =>
    if stagingBytes < s.stagingUsed + r.2.1.length then { s with spanPort := r :: rest }
    else ({ s with spanWait := s.spanWait ++ [r] }).admitRecords rest

/-- Free staging goes to the blocks and the records that wait for it at the port (R217, R276). -/
def State.fillStaging (s : State) : State :=
  let s1 := s.admitRecords s.spanPort
  s1.admitStages s1.fanStages.length

/-- Take what a span queue can take; the staging that frees goes to what waits for it. [DEDUCED, log entry 53] -/
def State.spanTakeAll (s : State) (q : Nat) : State :=
  let s1 := s.fillStaging
  (s1.spanTake q true s1.spanWait).fillStaging

/-- Every span queue with a waiting record, those at the port included. -/
def State.spanTakeEvery (s : State) : State :=
  (((s.spanWait ++ s.spanPort).map (fun r => r.1)).eraseDups).foldl State.spanTakeAll s

/-- The span queue bound to a group: the lowest-numbered. [DEDUCED, log entry 53] -/
def State.spanQueue (s : State) (h : Nat) : Option Nat :=
  (s.queues.find? (fun q => match q.2.binding with | some b => b.1 == h | none => false)).map (·.1)

/-- Row SPAN_RECORD_ARRIVAL: a record for this member waits for its hop launch, or is returned where no queue is bound
(R231, R276, R304). [DEDUCED, log entry 53] -/
def State.spanRecordArrival (s : State) (record : List Byte) (poison : List Nat) : State :=
  match s.handleOf (leAt record 4 4) with
  | none => s
  | some h =>
    match s.group? h with
    | none => s
    | some g =>
      if leAt record 0 2 != 0x5350 || leAt record 2 2 != g.rank || g.kind != 1 then s
      else match s.spanQueue h with
        | none => s.returnSpan record stIllegalOp g.rank
        | some q =>
          if !s.spanPort.isEmpty || decide (stagingBytes < s.stagingUsed + record.length) then
            ({ s with spanPort := s.spanPort ++ [(q, record, poison)] }).bump 0x5301 0 1
          else ({ s with spanWait := s.spanWait ++ [(q, record, poison)] }).spanTakeAll q

/-- A record enters the home cell's crossing granule by granule; its semaphore follows when all has landed (R219, R233). -/
def State.landRecord (s : State) (tag : Nat) (e : RetEntry) (off sem : Nat) (record : List Byte) (poison : List Nat) : State :=
  let s1 := (List.range ((record.length + 63) / 64)).foldl (fun (acc : State) i =>
    acc.landReturn e.cell tag (off + 64 * i) ((record.drop (64 * i)).take 64) (poison.contains i)) s
  ({ s1 with returns := tabSet s1.returns tag { e with kind := .spanLanding sem } }).settlePeers tag

/-- Does a return answer the send that holds an entry: its span and its launch (R230, R233)? -/
def State.answers (s : State) (e : RetEntry) (record : List Byte) : Bool :=
  leAt record 2 2 == 0xFFFF && leAt record 4 4 == s.groupId e.handle && leAt record 0x30 8 == e.launchId.toNat

/-- Row SPAN_RETURN_ARRIVAL: the return lands in its home cell and the semaphore is signalled; a late one is dropped and
counted (R233). While the cell's crossing has no credit for it, it has not arrived (R70). -/
def State.spanReturnArrival (s : State) (record : List Byte) (poison : List Nat) : State :=
  let tag := leAt record 0x10 4
  match tabFind s.returns tag with
  | some e =>
    (match e.kind with
     | .span off sem =>
       if e.ended || !s.answers e record then s.lateReturnOf e.handle
       else if !s.crossingRoom e.cell record.length then s
       else s.landRecord tag e off sem record poison
     | _ => s.lateReturnOf e.handle)
  | none => match s.handleOf (leAt record 4 4) with
    | some h => s.lateReturnOf h
    | none => s.lateReturn

/-- Row SPAN_TIMEOUT: the home device writes a header with TIMEOUT, signals, counts and reports (R233). -/
def State.spanTimeout (s : State) (tag : Nat) : State :=
  match tabFind s.returns tag with
  | some e =>
    (match e.kind with
     | .span off sem =>
       if e.ended || !s.crossingRoom e.cell 64 then s
       else
         let gid := s.groupId e.handle
         let (key, epoch) := match s.launch? e.launch with
           | some l => (l.genKey.toNat, match l.groups.find? (fun g => g.1 == e.handle) with | some g => g.2.toNat | none => 0)
           | none => (0, 0)
         let h := bytesLE 2 0x5350 ++ bytesLE 2 0xFFFF ++ bytesLE 4 gid ++ bytesLE 4 0 ++ bytesLE 3 s.ownAddr ++ bytesLE 1 0
           ++ bytesLE 4 tag ++ bytesLE 1 stTimeout ++ bytesLE 1 0 ++ bytesLE 2 0xFFFF ++ bytesLE 8 epoch ++ bytesLE 16 key
           ++ bytesLE 8 e.launchId.toNat ++ bytesLE 8 0
         ((s.landRecord tag e off sem h []).bump 0x5307 0 1).event 0x34 1 true (bytesLE 4 gid ++ bytesLE 8 e.launchId.toNat)
     | _ => s)
  | none => s

/-! ## Windows at the owner (R235, R237, R239) -/

/-- Key of a window. -/
def windowKey (p w : Nat) : Nat := p * 256 + w
def State.win (s : State) (p w : Nat) : Window := tabGet Window.none s.windows (windowKey p w)
def State.setWin (s : State) (p w : Nat) (x : Window) : State := { s with windows := tabSet s.windows (windowKey p w) x }

/-- Does a range hold DRAM pages only, as far as it is mapped? -/
def State.dramOnly (s : State) (c va len : Nat) : Bool :=
  let x := s.ctx c
  x.leaves.all (fun e => !(decide (e.1 * 65536 < va + len) && decide (va < (e.1 + 1) * 65536)) || !isWindow (ptePa e.2))
  && x.large.all (fun e => !(decide (e.1 * 2 ^ 29 < va + len) && decide (va < (e.1 + 1) * 2 ^ 29)) || !isWindow (ptePa e.2))

/-- Row OPEN_WINDOW. [DEDUCED, log entry 54] -/
def State.openWindow (s : State) : State := s.admRun 0x30 (some 32) (fun z b =>
  let w := leAt b 0 1
  let perm := leAt b 1 1
  let c := leAt b 2 2
  let key := leAt b 4 4
  let va := leAt b 8 8
  let size := leAt b 0x10 8
  let p := (z.ctx c).partition
  let x := z.win p w
  if !(z.ctx c).used || perm == 0 || decide (3 < perm) || key == 0 || x.lastKeys.contains key || va % 65536 != 0 || size % 65536 != 0
    || decide (size < 65536) || decide (2 ^ 34 < size) || decide (2 ^ 48 < va + size) || leAt b 0x1E 2 != 0 || !z.dramOnly c va size
  then .no z stIllegalOp
  else if x.opened then .no z stBusy
  else .ok (z.setWin p w { opened := true, closing := false, perm := perm, context := c, key := key, lastKeys := (key :: x.lastKeys).take 4,
                           vbase := va, size := size, reqAddr := leAt b 0x18 3, reqMask := leAt b 0x1B 3 }) [])

/-- Checks 1 to 4 of R237, which a probe shares: the number of the first that fails, or 0. [DEDUCED, log entry 54] -/
def Window.check (x : Window) (src key : Nat) (perm : Nat) : Nat :=
  if !x.opened || x.closing then 1
  else if x.key != key then 2
  else if src &&& x.reqMask != x.reqAddr &&& x.reqMask then 3
  else if perm &&& x.perm != perm then 4 else 0

/-- Row WINDOW_PROBE_RECEIVE. [DEDUCED, log entry 54] -/
def State.windowProbeReceive (s : State) (src tag part window key perm : Nat) : State :=
  let x := s.win part window
  let m : FabMsg := { dst := src, body := .winProbeAck tag (x.check src key perm) x.size part }
  { s with fabricOut := s.fabricOut ++ [m] }

/-- A key failure: sixteen from one requester within 1 s, at whatever windows, send `WINDOW_PROBE` (R237). [DEDUCED, log entry 54] -/
def State.keyFailure (s : State) (src part window : Nat) : State :=
  let recent := (s.keyFails.filter (fun f => within1s s.time f.2)) ++ [(src, s.time)]
  if 16 ≤ (recent.filter (fun f => f.1 == src)).length then
    ({ s with keyFails := recent.filter (fun f => f.1 != src) }).event 0x35 1 true
      (bytesLE 3 src ++ bytesLE 1 part ++ bytesLE 1 window)
  else { s with keyFails := recent }

/-- Is every page of a span present in a context's tables? [DEDUCED, log entry 54] -/
def State.allPresent (s : State) (c va n : Nat) : Bool := (spanPages va n).all (fun p => ((s.ctx c).leaf (max va p)).isSome)

/-- Row WINDOW_ACCESS_AT_OWNER: the six checks of R237, then the access is applied and answered. -/
def State.windowAccess (s : State) (src tag part window key offset : Nat) (write : Bool) (bs : List Byte) (n : Nat) (poison : Bool) : State :=
  let x := s.win part window
  let len := if write then bs.length else n
  let c1 := x.check src key (if write then 2 else 1)
  let check := if c1 != 0 then c1 else if x.size < offset + len then 5
    else if !s.allPresent x.context (x.vbase + offset) len then 6 else 0
  let answer := fun (z : State) (b : FabBody) =>
    let m : FabMsg := { dst := src, body := b }
    { z with fabricOut := z.fabricOut ++ [m] }
  if check != 0 then
    let s1 := (s.bump 0x5308 0 1).countFull (0x44000 + 8 * (256 + window)) (if part == s.entry 0x8005 0 then 1 else 0)
    answer (if check == 2 then s1.keyFailure src part window else s1) (.winAck tag check part)
  else
    let va := x.vbase + offset
    if write then answer (s.vwrite x.context va bs poison) (.winAck tag 0 part)
    else
      let gran := (spanPages va len).map (fun p => pagePart va len p)
      let data := gran.flatMap (fun g => match (s.ctx x.context).leaf g.1 with
        | some (e, big) => (s.memRead (leafPa e big g.1) g.2).1
        | none => [])
      let po := gran.any (fun g => match (s.ctx x.context).leaf g.1 with
        | some (e, big) => (s.memRead (leafPa e big g.1) g.2).2.1
        | none => false)
      answer s (.winData tag part data po)

/-- Row CLOSE_WINDOW: the window is CLOSING, and the admin queue goes on (R239, R300). [DEDUCED, log entry 55] -/
def State.closeWindow (s : State) : State := s.admRun 0x31 (some 8) (fun z b =>
  let p := leAt b 0 1
  let w := leAt b 1 1
  let x := z.win p w
  if leAt b 2 6 != 0 || decide (15 < p) || !x.opened then .no z stIllegalOp
  else .wait (z.setWin p w { x with closing := true }) (.window p w) false)

/-- Row WINDOW_CLOSED: every accepted access has completed; the window is free (R239). -/
def State.windowClosed (s : State) (p w : Nat) : State :=
  let x := s.win p w
  if !x.opened || !x.closing then s
  else (s.setWin p w { Window.none with lastKeys := x.lastKeys }).adminDone (fun a => a == AdminWaitFor.window p w) stOk []

/-! ## Windows at the requester (R236–R238) -/

/-- Row IMPORT_WINDOW: the owner is probed once; the admin queue waits. [DESIGN CHOICE, log entry 40; DEDUCED, log entry 55] -/
def State.importWindow (s : State) : State := s.admRun 0x32 (some 16) (fun z b =>
  let c := leAt b 0 2
  let perm := leAt b 2 1
  let owner := leAt b 4 3
  let op := leAt b 7 1
  if !(z.ctx c).used || perm == 0 || decide (3 < perm) || decide (15 < op) || leAt b 0xC 4 != 0 then .no z stIllegalOp
  else if (tabFree z.imports 0 4096).isNone then .no z stBusy
  else
    let tag := z.nextTag
    let pr : Probe := { context := c, perm := perm, window := leAt b 3 1, owner := owner, ownerPart := op, key := leAt b 8 4 }
    let m : FabMsg := { dst := owner, body := .winProbe tag op (leAt b 3 1) (leAt b 8 4) perm }
    .wait { z with nextTag := tag + 1, probes := tabSet z.probes tag pr, fabricOut := z.fabricOut ++ [m] } (.probe tag) true)

/-- Row PROBE_ANSWER_RECEIVE: the lowest free slot is imported, or the command is refused with the owner's check. [DEDUCED, log entry 69] -/
def State.probeAnswerReceive (s : State) (tag check size : Nat) : State :=
  match tabFind s.probes tag with
  | none => s
  | some p =>
    let s1 := { s with probes := tabErase s.probes tag }
    if check != 0 then s1.adminDone (fun a => a == AdminWaitFor.probe tag) stTranslationFatal (bytesLE 16 check)
    else match tabFree s1.imports 0 4096 with
      | none => s1.adminDone (fun a => a == AdminWaitFor.probe tag) stBusy []
      | some i =>
        let im : Import := { context := p.context, partition := (s1.ctx p.context).partition, owner := p.owner, ownerPart := p.ownerPart,
                             window := p.window, key := p.key, perm := p.perm, size := size, releasing := false }
        ({ s1 with imports := tabSet s1.imports i im }).adminDone (fun a => a == AdminWaitFor.probe tag) stOk (bytesLE 2 i ++ bytesLE 6 0 ++ bytesLE 8 size)

/-- A window access ends with a refusal: recorded in the requester's comb, and the launch ends (R237). -/
def State.windowRefused (s : State) (r : WindowReq) (check : Nat) : State :=
  let cell := match r.user with | .load c _ => c | .store c _ _ => c | .streamRead c _ => c | .streamWrite c _ => c | .streamHead c _ => c | .nurse => 0 | .repair _ => 0
  let ctx := match s.launch? r.launch with | some l => l.context | none => 0
  let l := match s.launch? r.launch with | some l => if l.phase == .ended then none else some r.launch | none => none
  s.fatalFault (combOf cell) 4 check (if r.write then .write else .read) cell ctx r.va l stTranslationFatal

/-- Forget a thread's posted store that a window transaction carried; its thread goes on. -/
def State.windowStoreDone (s : State) (c t tag : Nat) : State :=
  (s.modThread c t (fun h => { h with stores := h.stores.eraseP (fun p => p.window == some tag) })).goStore c t

/-- Row WINDOW_RESPONSE: the owner's answer to an access: its check number (0 applied), and the data of a read. -/
def State.windowResponse (s : State) (tag check : Nat) (bs : List Byte) (poison : Bool) : State :=
  match tabFind s.winReqs tag with
  | none => s
  | some r =>
    let s1 := { s with winReqs := tabErase s.winReqs tag }
    let live := match s1.launch? r.launch with | some l => l.phase == .running || l.phase == .marked | none => false
    match r.user with
    | .nurse => s1
    | .repair k => s1.repairData k tag check bs poison
    | .store c t _ =>
      let s2 := s1.windowStoreDone c t tag
      if check != 0 then s2.windowRefused r check else s2
    | .load c t =>
      if check != 0 then s1.windowRefused r check
      else (match (s1.thread c t).waits, live with
        | .vaLoad rd _ n sx (some _), true =>
          if poison then s1.consumePoison c false
          else (s1.modThread c t (fun h => h.setReg rd (loadValue (bs.take n) sx))).unblock c t
        | _, _ => s1)
    | .streamWrite c k =>
      let v := s1.slot c k
      if check != 0 then s1.windowRefused r check
      else if v.state == SlotState.idle || v.launch != r.launch then s1
      else s1.setSlot c k { v with outstanding := v.outstanding - 1 }
    | .streamHead c k =>
      let v := s1.slot c k
      if check != 0 then s1.windowRefused r check
      else if v.checking == 0 || v.launch != r.launch || !live then s1
      else s1.setSlot c k { v with head := v.head ++ [(r.byteOff, bs.take r.length)] }
    | .streamRead c k =>
      let v := s1.slot c k
      if check != 0 then s1.windowRefused r check
      else if v.state == SlotState.idle || v.launch != r.launch || !live then s1
      else
        let s2 := s1.setSlot c k { v with reads := v.reads - 1 }
        let p : Piece := { elem := r.elem, off := r.byteOff, len := r.length }
        match s2.launch? r.launch with
        | none => s2
        | some l =>
          let a := sdAddr v.desc 1 p.elem p.off
          let cell := l.cells.getD (sdRank v.desc 1) 0
          match sdSpace v.desc 1 with
          | 1 => if (s2.cell cell).ingressRoom r.length then s2.deliver c k r.launch v.desc p (.scratch cell a) (bs.take r.length) poison false else s
          | 3 => s2.holdData c k p 0 (bs.take r.length) poison false
          | _ => (s2.holdData c k p r.dstPa (bs.take r.length) poison false).drainHeld c k r.launch

/-- Row WINDOW_TIMEOUT: no answer in time is a refusal at check 1; a probe is refused with 0 (R237, R304). -/
def State.windowTimeout (s : State) (tag : Nat) : State :=
  if (tabFind s.probes tag).isSome then
    ({ s with probes := tabErase s.probes tag }).adminDone (fun a => a == AdminWaitFor.probe tag) stTranslationFatal (bytesLE 16 0)
  else s.windowResponse tag 1 [] false

/-- Does a page-table entry of any context map into an import slot? -/
def State.slotMapped (s : State) (i : Nat) : Bool :=
  s.contexts.any (fun c => c.2.leaves.any (fun e => isWindow (ptePa e.2) && windowSlot (ptePa e.2) == i)
    || c.2.large.any (fun e => isWindow (ptePa e.2) && windowSlot (ptePa e.2) == i))

/-- Row RELEASE_IMPORT: the slot's translations drain before it completes (R304). [DEDUCED, log entry 55] -/
def State.releaseImport (s : State) : State := s.admRun 0x33 (some 8) (fun z b =>
  let i := leAt b 0 2
  match tabFind z.imports i with
  | none => .no z stIllegalOp
  | some im =>
    if leAt b 2 6 != 0 || im.releasing then .no z stIllegalOp
    else if z.slotMapped i then .no z stBusy
    else
      let (z1, d) := ({ z with imports := tabSet z.imports i { im with releasing := true } }).startDrain 0 0 0 (some i) false
      .wait z1 (.release d i) true)

/-- Remove every page-table entry that maps into an import slot (R236). -/
def State.unmapSlot (s : State) (i : Nat) : State :=
  { s with contexts := s.contexts.map (fun c => (c.1, { c.2 with
      leaves := c.2.leaves.filter (fun e => !(isWindow (ptePa e.2) && windowSlot (ptePa e.2) == i))
      large := c.2.large.filter (fun e => !(isWindow (ptePa e.2) && windowSlot (ptePa e.2) == i)) })) }

/-- End the imports that satisfy a test: entries removed, a drain begun for each; DRAIN_COMPLETE frees the slot. [DEDUCED, log entry 69] -/
def State.endImports (s : State) (p : Import → Bool) : State :=
  let ids := (s.imports.filter (fun i => p i.2 && !i.2.releasing)).map (·.1)
  ids.foldl (fun (acc : State) i =>
    match tabFind acc.imports i with
    | some im => ((({ acc with imports := tabSet acc.imports i { im with releasing := true } }).unmapSlot i).startDrain 0 0 0 (some i) false).1
    | none => acc) s

end Sys2Proof.Machine
end

