-- ==== Sys2Proof/Machine/Parts.lean ====
section
/-!
DEFINITION. Partitions and contexts: creation, teardown and reset (rows PART_CREATE, PART_DESTROY, PART_RESET,
PARTITION_RESET_DONE, CTX_DESTROY, CONTEXT_TORN_DOWN, TEARDOWN_TIMEOUT, DRAIN_COMPLETE; R242–R245, R267, R268, R346, R501).
-/
namespace Sys2Proof.Machine

/-! ## PART_CREATE (R242, R243, R501) -/

/-- Is a partition record in range, its reserved bytes zero? -/
def partRecordOk (r : List Byte) : Bool :=
  let n := fun (off size lo hi : Nat) => decide (lo ≤ leAt r off size) && decide (leAt r off size ≤ hi)
  n 0 1 0 15 && n 1 1 0 0 && n 2 2 1 65535 && n 4 2 1 65535 && n 6 1 1 64 && n 7 1 1 255 && n 8 2 1 256 && n 0xA 2 1 1024
    && allZero ((r.drop 12).take 52)

/-- The partitions that exist. -/
def State.liveParts (s : State) : List (Nat × Partition) := s.partitions.filter (fun p => p.2.state != PartState.free)

/-- 1 GiB frames the device can assign (R20, R242). -/
def frameLimit (o : OrderCode) : Nat := match o with | .lt820_256_A => 254 | _ => 510

/-- Would a record keep every device limit (R242)? -/
def State.partFits (s : State) (r : List Byte) : Bool :=
  let ps := s.liveParts
  let sum := fun (f : Partition → Nat) => (ps.map (fun p => f p.2)).sum
  ps.all (fun p => p.2.combMask &&& BitVec.ofNat 16 (leAt r 2 2) == 0#16)
    && decide (sum (fun p => p.frames.toNat) + leAt r 4 2 ≤ frameLimit s.code)
    && decide (sum (fun p => p.rcShare.toNat) + leAt r 6 1 ≤ 64)
    && decide (sum (fun p => p.contexts.toNat) + leAt r 8 2 ≤ 256)
    && decide (sum (fun p => p.queues.toNat) + leAt r 0xA 2 ≤ 1024)

/-- Frames that may be assigned in a stack: populated, not reserved, not held. -/
def State.freeFrames (s : State) (k : Nat) : List Nat :=
  let held := s.liveParts.flatMap (fun p => p.2.frameList)
  ((List.range 128).map (fun i => 128 * k + i)).filter (fun f =>
    s.populated (f * 2 ^ 30) && !held.contains f)

/-- Draw `n` frames, each from the stack that has given the fewest so far (R243). [DESIGN CHOICE, log entry 40] -/
def drawFrames : Nat → List (List Nat) → List Nat → List Nat → List Nat
  | 0, _, _, got => got
  | n + 1, free, given, got =>
    let best := (List.range 4).foldl (fun (b : Option Nat) k =>
      if (free.getD k []).isEmpty then b
      else match b with
        | some j => if given.getD k 0 < given.getD j 0 then some k else b
        | none => some k) none
    match best with
    | none => got
    | some k =>
      drawFrames n (free.set k ((free.getD k []).drop 1)) (given.set k (given.getD k 0 + 1)) (got ++ (free.getD k []).take 1)

/-- Frames and the cells' memories of a new partition are zeroed (R501). -/
def State.zeroPart (s : State) (frames : List Nat) (mask : BitVec 16) : State :=
  let inside := fun (a : Nat) => frames.contains (a / 2 ^ 30)
  let s1 := { s with
    dram := if s.dram.inv || s.dram.base.isSome then frames.foldl (fun (m : Memory) f => m.clear 64 (f * 2 ^ 30) (2 ^ 30)) s.dram
      else { s.dram with
        bytes := s.dram.bytes.filter (fun (c : Host.Cell) => !inside c.1)
        poison := s.dram.poison.filter (fun g => !inside (64 * g)) }
    damage := s.damage.filter (fun (d : Nat × List (Nat × Nat)) => !inside (64 * d.1))
    fixups := s.fixups.filter (fun (d : Nat × Fixup) => !inside (64 * d.1))
    struck := s.struck.filter (fun (d : Nat × List Byte) => !inside (64 * d.1)) }
  ((List.range 128).filter (fun c => mask.getLsbD (combOf c))).foldl (fun (acc : State) c => acc.modCell c (fun x =>
    { x with scratch := Memory.zero, tbufs := [], residency := none, array := { x.array with wregs := [] } })) s1

/-- Row PART_CREATE. -/
def State.partCreate (s : State) : State := s.admRun 0x01 (some 64) (fun z r =>
  let p := leAt r 0 1
  if !partRecordOk r then .no z stIllegalOp
  else if (z.part p).state != PartState.free || !z.partFits r then .no z stBusy
  else
    let frames := drawFrames (leAt r 4 2) ((List.range 4).map z.freeFrames) [0, 0, 0, 0] []
    let x : Partition := { Partition.none with
      state := .active, combMask := BitVec.ofNat 16 (leAt r 2 2), frames := BitVec.ofNat 16 (leAt r 4 2)
      rcShare := BitVec.ofNat 8 (leAt r 6 1), foragerWt := BitVec.ofNat 8 (leAt r 7 1), contexts := BitVec.ofNat 16 (leAt r 8 2)
      queues := BitVec.ofNat 16 (leAt r 0xA 2), frameList := frames, resets := (z.part p).resets }
    .ok ((z.zeroPart frames x.combMask).setPart p x) [])

/-! ## Registered regions end (R365, R404) -/

/-- A remote key's withdrawal: queue pairs whose ring lies in the region enter ERROR (R404). -/
def State.withdrawKey (s : State) (r : Nat) : State :=
  { s with qps := s.qps.map (fun (q : Nat × Qp) => (q.1, if q.2.region == r then { q.2 with error := true, msg := none } else q.2)) }

/-- Does any held write go to a region? [DEDUCED, log entry 11] -/
def State.heldTo (s : State) (r : Region) : Bool :=
  (s.host.held ++ s.host.waiting).any (fun m => match m with
    | .write a _ _ => decide (r.base ≤ a) && decide (a < r.base + r.size)
    | _ => false)

/-- A region is released: its slots are disabled and freed, or its key withdrawn. -/
def State.freeRegion (s : State) (r : Nat) : State :=
  match tabFind s.regions r with
  | none => s
  | some x =>
    let s1 := { s with regions := tabErase s.regions r }
    if x.kind == 1 then
      (List.range (x.size / 2 ^ 26)).foldl (fun (acc : State) i =>
        { acc with host := { acc.host with slots := tabErase acc.host.slots (x.firstSlot + i) } }) s1
    else if x.kind == 2 then s1.withdrawKey r
    else s1

/-- Release the regions of the contexts that satisfy a test: an OUTPUT region once the writes issued to it have left (R365). -/
def State.freeRegions (s : State) (p : Nat → Bool) : State :=
  ((s.regions.filter (fun (r : Nat × Region) => p r.2.context)).foldl (fun (acc : State) r =>
    if r.2.kind == 0 && !r.2.stale && acc.heldTo r.2 then { acc with regions := tabSet acc.regions r.1 { r.2 with ending := true } }
    else acc.freeRegion r.1) s)

/-! ## Contexts end (R267, R335, R347) -/

/-- Does a launch still hold cells or engines? -/
def State.launchesQuiet (s : State) (p : Launch → Bool) : Bool :=
  s.launches.all (fun (l : Nat × Launch) => !p l.2 || (l.2.phase == .ended && s.launchQuiet l.1 l.2))

/-- A context's translations, tables, quarters and fault records go, and the drain of its remap is done with. -/
def State.dropContext (s0 : State) (c : Nat) : State :=
  let mine := fun (w : Walk) => w.context == c
  let moves := fun (d : Drain) => d.move && d.context == c
  let s := s0.bump 0x6043 0 (s0.drains.filter moves).length
  let s1 := { s with
    drains := s.drains.filter (fun d => !moves d)
    contexts := tabErase s.contexts c
    quarters := s.quarters.filter (fun (q : Nat × Quarter) => q.2.context != c)
    migration := match s.migration with | some m => if m.context == c then none else some m | none => none
    tlbs := s.tlbs.map (fun (t : Nat × List TlbEntry) => (t.1, t.2.filter (fun e => e.context != c)))
    walkCaches := s.walkCaches.map (fun (t : Nat × WalkCache) =>
      (t.1, { level1 := t.2.level1.filter (fun e => e.1 != c), level2 := t.2.level2.filter (fun e => e.1 != c) }))
    walks := s.walks.filter (fun w => !mine w)
    collectors := s.collectors.map (fun (k : Nat × Collector) => (k.1, { k.2 with
      queue := k.2.queue.filter (fun w => !mine w)
      records := k.2.records.filter (fun (r : Nat × FaultRecord) => r.2.context != c) }))
    probes := s.probes.filter (fun (p : Nat × Probe) => p.2.context != c) }
  let ended := (s.probes.filter (fun (p : Nat × Probe) => p.2.context == c)).map (·.1)
  (ended.foldl (fun (acc : State) t => acc.adminDone (fun a => a == AdminWaitFor.probe t) stTranslationFatal []) s1).openAllQueued

/-- The programs loaded through a context are unloaded, and their residency tags cleared. -/
def State.dropImages (s : State) (p : Image → Bool) : State :=
  let gone := (s.images.filter (fun (i : Nat × Image) => p i.2)).map (·.1)
  { s with
    images := s.images.filter (fun (i : Nat × Image) => !p i.2)
    cells := s.cells.map (fun (x : Nat × Cell) => (x.1, match x.2.residency with
      | some t => if gone.contains t.image then { x.2 with residency := none } else x.2
      | none => x.2)) }

/-- Row QUEUE_FINAL_RECORD. In a teardown or a reset the final records follow the release of the regions (R365), so those
rows post them. -/
def State.queueFinalRow (s : State) (q : Nat) : State :=
  if (s.ctx (s.queue q).context).dying || (s.part (s.queuePart q)).state == PartState.resetting then s else s.queueFinalRecord q

/-- Row CTX_DESTROY: queues of the context die, and launches elsewhere that run its images end (R267). -/
def State.ctxDestroy (s : State) : State := s.admRun 0x09 (some 8) (fun z b =>
  let c := leAt b 0 2
  let x := z.ctx c
  if !x.used || x.dying || leAt b 2 6 != 0 then .no z stIllegalOp
  else
    let z1 := z.setCtx c { x with dying := true }
    let qs := (z1.queues.filter (fun (q : Nat × Queue) => q.2.status != QueueStatus.free && q.2.context == c)).map (·.1)
    let z2 := qs.foldl (fun (acc : State) q => acc.queueDie q stContextTornDown) z1
    let others := (z2.launches.filter (fun (l : Nat × Launch) => match tabFind z2.images l.2.image with
      | some im => im.context == c
      | none => false)).map (·.1)
    let z3 := others.foldl (fun (acc : State) l => acc.endLaunch l (some stContextTornDown) 0) z2
    let z4 := { z3 with windows := z3.windows.map (fun (w : Nat × Window) =>
      if w.2.opened && w.2.context == c then (w.1, { w.2 with closing := true }) else w) }
    .wait z4 (.context c) false)

/-- Has every launch that the teardown of a context ends reached its safe point? -/
def State.teardownSafe (s : State) (c : Nat) : Bool :=
  s.launchesQuiet (fun l => l.context == c || (match tabFind s.images l.image with | some im => im.context == c | none => false))

/-- Final records of the dying queues that satisfy a test, in queue order. -/
def State.finalRecords (s : State) (p : Queue → Bool) : State :=
  ((s.queues.filter (fun (q : Nat × Queue) => q.2.status == QueueStatus.dying && p q.2)).map (·.1)).foldl State.queueFinalRecord s

/-- Row CONTEXT_TORN_DOWN: every safe point was reached in time (R267, R268). [DEDUCED, log entry 68; DEDUCED, log entry 140] -/
def State.contextTornDown (s : State) (c : Nat) : State :=
  let x := s.ctx c
  let whole : Drain := { id := 0, context := c, va := 0, length := 0, big := [], slot := none, move := false }
  let queues := s.queues.filter (fun (q : Nat × Queue) => q.2.status != QueueStatus.free && q.2.context == c)
  if !x.dying || (s.part x.partition).state != PartState.active || !s.teardownSafe c || !queues.all (fun q => s.queueDead q.1)
      || !s.drained whole then s
  else
    let s1 := s.freeRegions (fun k => k == c)
    let s2 := s1.finalRecords (fun q => q.context == c)
    let s3 := (s2.dropImages (fun i => i.context == c)).endImports (fun i => i.context == c)
    let ws := (s3.windows.filter (fun (w : Nat × Window) => w.2.opened && w.2.context == c)).map (·.1)
    let s4 := ws.foldl (fun (acc : State) w => acc.windowClosed (w / 256) (w % 256)) s3
    ((s4.dropContext c).bump 0x6043 0 1).adminDone (fun a => a == AdminWaitFor.context c) stOk []

/-! ## Partition reset (R267, R268) -/

/-- The partition a handle belongs to. -/
def State.handleIn (s : State) (p h : Nat) : Bool := match s.group? h with | some g => g.partition == p | none => false

/-- The partition's tables, groups, staged entries, forward lines, row-cache lines, pins and sketch contributions go. What
is left of a shared sketch is open. -/
def State.dropGroups (s : State) (p : Nat) : State :=
  let mine := s.handleIn p
  let alone := (s.liveParts.filter (fun q => q.1 != p)).isEmpty
  let s1 := { s with
    staged := s.staged.filter (fun x => !mine x.handle)
    patches := s.patches.filter (fun x => !mine x.2.2.handle)
    committed := s.committed.filter (fun x => !mine x.2.2)
    works := s.works.filter (fun (w : Nat × BagWork) => w.2.partition != p)
    returns := s.returns.filter (fun (r : Nat × RetEntry) => !mine r.2.handle)
    fanStages := s.fanStages.filter (fun f => !mine f.handle)
    spanWait := s.spanWait.filter (fun w => s.queuePart w.1 != p)
    spanPort := s.spanPort.filter (fun w => s.queuePart w.1 != p)
    tables := s.tables.filter (fun (t : Nat × TableDesc) => !mine (t.1 / 4096))
    groups := s.groups.filter (fun (g : Nat × Group) => g.2.partition != p) }
  let f := fun (k : Nat) (x : Forager) =>
    ({ x with
       lines := x.lines.filter (fun (l : Nat × RcLine) => l.2.partition != p)
       sketch := if alone then [] else x.sketch.filterMap (fun (e : Nat × Nat) =>
         let v := Config.freeNat (s.free + 4 * e.1 + k) % (e.2 + 1)
         if v = 0 then none else some (e.1, v)) } : Forager).dropEpochs
  let s2 := (List.range 4).foldl (fun (acc : State) k => acc.modForager k (f k)) s1
  if alone then s2 else { s2 with free := s2.free + 4 * 262144 }

/-- The partition's windows, replica copies and window slots go, and its imports end: entries removed, and a drain for each
slot, which DRAIN_COMPLETE frees (R236). The drains of its contexts complete, and are counted (R349). [DEDUCED, log entry 68] -/
def State.dropOutside (s : State) (p : Nat) : State :=
  let ws := (s.windows.filter (fun (w : Nat × Window) => w.2.opened && w.1 / 256 == p)).map (·.1)
  let s1 := s.endImports (fun i => i.partition == p)
  let mine := fun (d : Drain) => d.slot.isNone && (s.ctx d.context).used && (s.ctx d.context).partition == p
  let s2 := { s1.bump 0x6043 0 (s.drains.filter mine).length with
    drains := s1.drains.filter (fun d => !mine d)
    replicas := s1.replicas.filter (fun (r : Nat × Replica) => r.2.partition != p)
    windows := s1.windows.map (fun (w : Nat × Window) =>
      if ws.contains w.1 then (w.1, { Window.none with lastKeys := w.2.lastKeys }) else w)
    host := { s1.host with slots := s1.host.slots.map (fun (k : Nat × DWord) =>
      if field k.2.toNat 61 58 == p then (k.1, k.2 &&& 0x7FFFFFFFFFFFFFFF#64) else k) } }
  let s3 := ws.foldl (fun (acc : State) w => acc.adminDone (fun a => a == AdminWaitFor.window p (w % 256)) stOk []) s2
  (s.drains.filter mine).foldl (fun (acc : State) d => acc.adminDone (fun a => match a with
    | .drain e => e == d.id
    | .unmap e _ => e == d.id
    | _ => false) stOk []) s3

/-- Everything of the reset column but the queues (R267). [DESIGN CHOICE, log entry 71] -/
def State.clearPart (s : State) (p : Nat) : State :=
  let ctxs := (s.contexts.filter (fun (c : Nat × Context) => c.2.used && c.2.partition == p)).map (·.1)
  let s1 := ((s.dropGroups p).dropOutside p).dropImages (fun i => i.partition == p)
  let s2 := { s1 with cells := s1.cells.map (fun (x : Nat × Cell) => (x.1, match x.2.residency with
    | some t => if t.partition == p then { x.2 with residency := none } else x.2
    | none => x.2)) }
  ctxs.foldl (fun (acc : State) c =>
    ((acc.dropContext c).bump 0x6043 0 (b2n (s.ctx c).dying)).adminDone (fun a => a == AdminWaitFor.context c) stOk []) s2

/-- A partition enters RESETTING with a cause (R268). -/
def State.beginReset (s : State) (p cause : Nat) : State :=
  if (s.part p).state != PartState.active then s
  else
    let s1 := s.modPart p (fun x => { x with state := .resetting, cause := cause })
    let qs := (s1.queues.filter (fun (q : Nat × Queue) => q.2.status != QueueStatus.free && s1.queuePart q.1 == p)).map (·.1)
    let s2 := qs.foldl (fun (acc : State) q => acc.queueDie q stPartitionReset) s1
    let ls := (s2.launches.filter (fun (l : Nat × Launch) => l.2.partition == p)).map (·.1)
    ls.foldl (fun (acc : State) l => acc.endLaunch l (some stPartitionReset) 0) s2

/-- The same, with its notice (R306). -/
def State.resetPart (s : State) (p cause : Nat) : State :=
  if (s.part p).state != PartState.active then s else (s.beginReset p cause).notice 4 (bytesLE 1 p ++ bytesLE 1 cause)

/-- The queues of a partition whose engines were themselves reset: nothing of theirs is left to end or to decide (R417). -/
def State.cutQueues (s : State) (p : Nat) : State :=
  { s with queues := s.queues.map (fun (q : Nat × Queue) =>
    if q.2.status == QueueStatus.dying && (s.ctx q.2.context).partition == p then (q.1, { q.2 with work := [], ready := [] }) else q) }

/-- The reset column (R267), once every engine has left the partition's work and every PUBLISH and PATCH of its queues is
decided (R295). -/
def State.resetColumn (s : State) (p : Nat) : State :=
  let inP := fun (q : Queue) => (s.ctx q.context).partition == p
  let s1 := s.freeRegions (fun c => (s.ctx c).used && (s.ctx c).partition == p)
  let s2 := (s1.finalRecords inP).clearPart p
  let s3 := s2.modPart p (fun x => { x with
    state := .active, lastQueue := [], selfTest := false
    resets := BitVec.ofNat 64 (satAdd 64 x.resets.toNat 1) })
  ((s3.bump 0x6028 0 1).cmdEnd 0x9020 (p + 1) (Config.actionFailed 0x9020).toNat).adminDone (fun a => a == AdminWaitFor.partition p) stOk []

/-- Row PARTITION_RESET_DONE. [DEDUCED, log entry 68; DEDUCED, log entry 140] -/
def State.partitionResetDone (s : State) (p : Nat) : State :=
  let queues := s.queues.filter (fun (q : Nat × Queue) => q.2.status != QueueStatus.free && s.queuePart q.1 == p)
  if (s.part p).state != PartState.resetting || !s.launchesQuiet (fun l => l.partition == p) || !queues.all (fun q => s.queueDead q.1)
  then s else s.resetColumn p

/-- Row PART_RESET. -/
def State.partReset (s : State) : State := s.admRun 0x03 (some 8) (fun z b =>
  let p := leAt b 0 1
  if decide (15 < p) || leAt b 1 7 != 0 then .no z stIllegalOp
  else if (z.part p).state != PartState.active then .no z stBusy
  else .wait (z.resetPart p 2) (.partition p) false)

/-- Row TEARDOWN_TIMEOUT: a launch of the context has not reached its safe point in time; the partition resets (R267). -/
def State.teardownTimeout (s : State) (c : Nat) : State :=
  let x := s.ctx c
  if !x.dying || s.teardownSafe c then s else s.resetPart x.partition 0

/-- Row PART_DESTROY (R268). -/
def State.partDestroy (s : State) : State := s.admRun 0x02 (some 8) (fun z b =>
  let p := leAt b 0 1
  if decide (15 < p) || leAt b 1 7 != 0 || (z.part p).state == PartState.free then .no z stIllegalOp
  else if (z.part p).state != PartState.active || z.contexts.any (fun (c : Nat × Context) => c.2.used && c.2.partition == p) then .no z stBusy
  else
    let z1 := z.clearPart p
    .ok (z1.setPart p { Partition.none with resets := (z.part p).resets }) [])

/-- An error of the partition class (R409, R416): which of its errors the cause byte stands for is open. [DESIGN CHOICE, log entry 70] -/
def State.partitionError (s : State) (p : Nat) : State :=
  if (s.part p).state != PartState.active then s
  else
    let (n, s1) := s.drawNat
    ((s1.bump 0x6061 0 1).event 0x21 2 true (bytesLE 1 p ++ bytesLE 1 n)).resetPart p 1

/-! ## Drains (R346) -/

/-- Row DRAIN_COMPLETE: the accesses under a drain have finished. -/
def State.drainComplete (s : State) (id : Nat) : State :=
  match s.drains.find? (fun d => d.id == id) with
  | none => s
  | some d =>
    if !s.drained d then s
    else
      let s1 := ({ s with drains := s.drains.filter (fun e => e.id != id) }).bump 0x6043 0 1
      let s2 := match d.slot with
        | some i => { s1 with imports := tabErase s1.imports i }
        | none => s1
      let unmapped := s.admin.work.any (fun w => w.waits == AdminWaitFor.unmap id d.context)
      let s3 := if unmapped then s2.freeEmptyQuarters d.context else s2
      s3.adminDone (fun a => match a with
        | .drain e => e == id
        | .unmap e _ => e == id
        | .release e _ => e == id
        | _ => false) stOk []

end Sys2Proof.Machine
end

