-- ==== Sys2Proof/Machine/Pins.lean ====
section
/-!
DEFINITION. Pins, saves handed in and out, quarter heat and migration (rows SET_PIN, RESTORE_LAUNCH, DROP_SAVE,
PLACEMENT_PERIOD, MIGRATION_COPY_DONE, FRAME_MOVED; R256–R259, R266, R304).
-/
namespace Sys2Proof.Machine

/-! ## Migration (R256–R258) -/

/-- Address ranges of the rows of a context's version slots that are not FREE. -/
def State.rowRanges (s : State) (c : Nat) : List (Nat × Nat) :=
  s.tables.flatMap (fun (t : Nat × TableDesc) => t.2.slots.filterMap (fun v =>
    if v.state != SlotSt.free && v.context == c then some (v.rowBase, v.rowBase + recRows t.2.record * rowStride t.2.record) else none))

/-- How far ranges cover from an address, in at most `fuel` extensions: as many as there are ranges reach as far as all of them do. -/
def coverTo (rs : List (Nat × Nat)) : Nat → Nat → Nat
  | 0, a => a
  | n + 1, a => match rs.find? (fun r => decide (r.1 ≤ a) && decide (a < r.2)) with
    | some r => coverTo rs n r.2
    | none => a

/-- Does a forward line lie in a quarter (R211, R257)? -/
def State.forwardIn (s : State) (q : Nat) : Bool :=
  s.foragers.any (fun (f : Nat × Forager) => f.2.lines.any (fun (l : Nat × RcLine) => l.2.ref != 0 && l.2.addr * 64 / 2 ^ 28 == q))

/-- Does an enabled window slot target a quarter, or a registered region hold it (R363, R371)? -/
def State.outsideHolds (s : State) (q : Nat) (x : Quarter) : Bool :=
  s.coversRegion x.context (x.block * 2 ^ 28) (2 ^ 28)
    || s.host.slots.any (fun (k : Nat × DWord) => bitAt k.2.toNat 63 && field k.2.toNat 57 56 == 0 && field k.2.toNat 47 26 / 4 == q)

/-- Is a block mapped by 64 KiB pages, or by its half of a 512 MiB page, onto its one quarter? [DEDUCED, log entry 60] -/
def State.wholeBlock (s : State) (q : Nat) (x : Quarter) : Bool :=
  let c := s.ctx x.context
  match tabFind c.large (x.block / 2) with
  | some e => leafPa e true (x.block * 2 ^ 28) / 2 ^ 28 == q
  | none => c.leaves.all (fun (e : Nat × Nat) => e.1 / 4096 != x.block || ptePa e.2 / 2 ^ 28 == q)

/-- Is a quarter migratable (R257)? -/
def State.migratable (s : State) (q : Nat) (x : Quarter) : Bool :=
  let lo := x.block * 2 ^ 28
  let rs := s.rowRanges x.context
  decide (lo + 2 ^ 28 ≤ coverTo rs rs.length lo) && !s.forwardIn q
    && (s.ctx x.context).pin x.block == FramePin.none && s.wholeBlock q x && !s.outsideHolds q x


/-- The lowest free quarter of a partition in a stack. -/
def State.freeIn (s : State) (p k : Nat) : Option Nat := (s.freeQuarters p).find? (fun q => quarterStack q == k)

/-- Start a migration: the destination is reserved and the nurse copies. -/
def State.startMove (s : State) (q dst : Nat) (x : Quarter) : State :=
  { s with migration := some { src := q, dst := dst, context := x.context, block := x.block, phase := .copying } }

/-- Start the migration that a `STACK` pin asks for, where none runs. [DEDUCED, log entry 61] -/
def State.pinMove (s : State) : State :=
  if s.migration.isSome then s
  else
    let able := s.quarters.findSome? (fun (q : Nat × Quarter) => match ((s.ctx q.2.context).pin q.2.block).stack with
      | some k =>
        if quarterStack q.1 != k && (s.stackTherm k).stage == 0 && (s.stackTherm (quarterStack q.1)).stage == 0 && s.wholeBlock q.1 q.2
            && !s.outsideHolds q.1 q.2
        then (s.freeIn q.2.partition k).map (fun d => (q.1, d, q.2)) else none
      | none => none)
    match able with
    | some (q, d, x) => s.startMove q d x
    | none => s

/-- Heat of a stack: the sum over its quarters (R256). -/
def State.stackHeat (s : State) (k : Nat) : Nat :=
  ((s.quarters.filter (fun (q : Nat × Quarter) => quarterStack q.1 == k)).map (fun (q : Nat × Quarter) => q.2.heat)).sum

/-- The migration that the heats ask for: quarter, destination (R256). -/
def State.heatMove (s : State) : Option (Nat × Nat × Quarter) :=
  let heat := s.stackHeat
  let hot := (List.range 4).foldl (fun b k => if heat b < heat k then k else b) 0
  let total := ((List.range 4).map heat).sum
  if (s.stackTherm hot).stage != 0 || decide (4000 * heat hot ≤ total * s.entry 0x6011 0) || s.entry 0x6012 0 != 1 then none
  else
    let dest := fun (p : Nat) => (List.range 4).foldl (fun (b : Option Nat) k =>
      if k == hot || (s.stackTherm k).stage != 0 || (s.freeIn p k).isNone then b
      else match b with
        | some j => if heat k < heat j then some k else b
        | none => some k) none
    let cand := s.quarters.filterMap (fun (q : Nat × Quarter) =>
      if quarterStack q.1 != hot || !s.migratable q.1 q.2 then none
      else match dest q.2.partition with
        | some k => if 2 * q.2.heat ≤ heat hot - heat k then (s.freeIn q.2.partition k).map (fun d => (q.1, d, q.2)) else none
        | none => none)
    cand.foldl (fun (b : Option (Nat × Nat × Quarter)) c => match b with
      | some y => if y.2.2.heat < c.2.2.heat then some c else b
      | none => some c) none

/-- Row PLACEMENT_PERIOD. -/
def State.placementPeriod (s : State) : State :=
  let s1 := { s with
    quarters := s.quarters.map (fun (q : Nat × Quarter) => (q.1, { q.2 with heat := q.2.heat - q.2.heat / 4 + q.2.fetched, fetched := 0 }))
    images := s.images.map (fun (i : Nat × Image) =>
      (i.1, { i.2 with lastFetchA := i.2.fetchA, lastFetchB := i.2.fetchB, fetchA := 0, fetchB := 0 })) }
  let s2 := (List.range 4).foldl (fun (acc : State) k => acc.setEntry 0x6020 (k + 1) (s1.stackHeat k % 2 ^ 64)) s1
  let s3 := s2.pinMove
  if s3.migration.isSome then s3
  else match s3.heatMove with
    | some (q, d, x) => s3.startMove q d x
    | none => s3

/-- The row-cache lines of a quarter at its remap: pinned ones are copied to the destination's cache, others dropped; `none`
while the destination has no room for a pinned one (R211). -/
def State.moveLines (s : State) (src dst : Nat) : Option State :=
  let k := quarterStack src
  let inside := fun (l : RcLine) => l.addr * 64 / 2 ^ 28 == src
  let pinned := ((s.forager k).lines.filter (fun (l : Nat × RcLine) => inside l.2 && l.2.pin)).map (fun (l : Nat × RcLine) => l.2)
  let s1 := s.modForager k (fun f => { f with lines := f.lines.filter (fun (l : Nat × RcLine) => !inside l.2) })
  pinned.foldl (fun (acc : Option State) l =>
    acc.bind (fun z => z.tryPlace (quarterStack dst) { l with addr := l.addr - src * 2 ^ 22 + dst * 2 ^ 22 })) (some s1)

/-- The entries of a block point to its new quarter: a 512 MiB leaf that covers it becomes 64 KiB leaves with its permissions,
since its halves now lie apart (R258, R337). [DEDUCED, log entry 60] -/
def Context.remap (c : Context) (block src dst : Nat) : Context :=
  let flags := fun (e : Nat) => e - field e 47 16 * 65536
  let split := match tabFind c.large (block / 2) with
    | some e => (List.range 8192).map (fun i => (block / 2 * 8192 + i, flags e + leafPa e true (i * 65536)))
    | none => []
  let leaves := if split.isEmpty then c.leaves
    else c.leaves.filter (fun (e : Nat × Nat) => decide (e.1 < block / 2 * 8192)) ++ split
      ++ c.leaves.filter (fun (e : Nat × Nat) => decide ((block / 2 + 1) * 8192 ≤ e.1))
  { c with
    large := tabErase c.large (block / 2)
    leaves := leaves.map (fun (e : Nat × Nat) =>
      if e.1 / 4096 == block && ptePa e.2 / 2 ^ 28 == src then (e.1, e.2 - src * 2 ^ 28 + dst * 2 ^ 28) else e)
    blocks := tabSet c.blocks block dst }

/-- The bytes of a quarter as the copy carries them: corrected, and with poison. -/
def State.copyQuarter (s : State) (src dst : Nat) : State :=
  let bad := s.damage.filter (fun (d : Nat × List (Nat × Nat)) => d.1 / 2 ^ 22 == src)
  let out := fun (g : Nat) => g / 2 ^ 22 != dst
  let s1 := { s with
    dram := s.dram.copySpan 64 (src * 2 ^ 28) (dst * 2 ^ 28) (2 ^ 28)
    damage := s.damage.filter (fun (d : Nat × List (Nat × Nat)) => out d.1)
    fixups := s.fixups.filter (fun (d : Nat × Fixup) => out d.1)
    struck := s.struck.filter (fun (d : Nat × List Byte) => out d.1) }
  bad.foldl (fun (acc : State) d =>
    let (bs, p) := s.granule d.1
    acc.dramWrite (64 * (d.1 - src * 2 ^ 22 + dst * 2 ^ 22)) bs p) s1

/-- The atomic remap of a quarter whose copy is done: it waits while a forward line lies in the quarter, a window slot that a driver
has enabled targets it, a pinned line has no room, or the page-table store has none for the tables (R211, R258, R331, R371). [DEDUCED, log entry 60] -/
def State.remapNow (s : State) : State :=
  match s.migration with
  | none => s
  | some m =>
    if m.phase != MigPhase.copied || s.forwardIn m.src then s
    else match tabFind s.quarters m.src, (s.copyQuarter m.src m.dst).moveLines m.src m.dst with
      | none, _ => { s with migration := none }
      | some _, none => s
      | some q, some s1 =>
        let grown := s1.setCtx m.context ((s1.ctx m.context).remap m.block m.src m.dst)
        if s.outsideHolds m.src q || decide (671088640 < grown.ptStoreBytes) then s else
        let s2 := { s1.setCtx m.context ((s1.ctx m.context).remap m.block m.src m.dst) with
          quarters := tabSet (tabErase s1.quarters m.src) m.dst q
          migration := some { m with phase := .draining } }
        let big := match tabFind (s.ctx m.context).large (m.block / 2) with | some _ => true | none => false
        (if big then s2.startDrain m.context (m.block / 2 * 2 ^ 29) (2 ^ 29) none true
          else s2.startDrain m.context (m.block * 2 ^ 28) (2 ^ 28) none true).1.taskRun 6

/-- Row MIGRATION_COPY_DONE: the copy stands, unless it is paused while either stack is at stage 1 or above; the page-table
entries are then rewritten as soon as they may be (R258). -/
def State.migrationCopyDone (s : State) : State :=
  match s.migration with
  | none => s
  | some m =>
    if m.phase != MigPhase.copying then s.remapNow
    else if (s.stackTherm (quarterStack m.src)).stage != 0 || (s.stackTherm (quarterStack m.dst)).stage != 0 then s
    else ({ s with migration := some { m with phase := .copied } }).remapNow

/-- Row FRAME_MOVED: the drain of the remap has completed (R258), here or with a DRAIN_COMPLETE of its own. -/
def State.frameMoved (s : State) : State :=
  match s.migration with
  | none => s
  | some m =>
    let mine := s.drains.filter (fun d => d.move)
    if m.phase != MigPhase.draining || !mine.all s.drained then s
    else
      let s1 := { s with migration := none, drains := s.drains.filter (fun d => !d.move) }
      (((s1.bump 0x6021 0 1).bump 0x6043 0 mine.length).notice 3 (bytesLE 8 (m.block * 2 ^ 28) ++ bytesLE 2 m.context ++ bytesLE 1 (quarterStack m.src)
        ++ bytesLE 1 (quarterStack m.dst))).pinMove

/-! ## SET_PIN (R259, R304) -/

/-- Can a set of cells ever be one placement under the shape rule (R250)? -/
def shapeSet (cells : List Nat) : Bool :=
  let n := cells.length
  if n == 1 || n == 2 || n == 4 then (cells.map combOf).eraseDups.length == 1
  else (n == 8 || n == 16 || n == 32 || n == 64) && cells.all (fun c => (cellsOfComb cells (combOf c)).length == 8)

/-- Pin a quarter. [DEDUCED, log entry 61] -/
def State.pinQuarter (z : State) (b : List Byte) : AdminEnd :=
  let c := leAt b 4 2
  let base := leAt b 8 8
  let attr := leAt b 1 1
  let clear := leAt b 2 1 == 1
  let k := leAt b 0x10 1
  let used := if attr == 0 then 1 else 0
  if !(z.ctx c).used || base % 2 ^ 28 != 0 || decide (1 < attr) || !allZero ((b.drop (0x10 + used)).take (16 - used)) then .no z stIllegalOp
  else match tabFind (z.ctx c).blocks (base / 2 ^ 28) with
    | none => .no z stIllegalOp
    | some q =>
      let x := z.ctx c
      let pin := x.pin (base / 2 ^ 28)
      let put := fun (y : FramePin) => z.setCtx c { x with pins := tabSet x.pins (base / 2 ^ 28) y }
      if attr == 1 then .ok (put { pin with noMove := !clear }) []
      else if clear then .ok (put { pin with stack := none }) []
      else if decide (3 < k) then .no z stIllegalOp
      else if quarterStack q != k && (z.freeIn x.partition k).isNone then .no z stBusy
      else .ok (put { pin with stack := some k }).pinMove []

/-- Pin a queue. [DEDUCED, log entry 61] -/
def State.pinQueue (z : State) (b : List Byte) : AdminEnd :=
  let q := leAt b 4 2
  let attr := leAt b 1 1
  let clear := leAt b 2 1 == 1
  let x := z.queue q
  let combs := (z.part (z.queuePart q)).combMask
  let mask := BitVec.ofNat 16 (leAt b 0x10 2)
  let set := BitVec.ofNat 128 (leAt b 0x10 16)
  let cells := (List.range 128).filter (fun c => set.getLsbD c)
  if decide (1023 < q) || x.status == QueueStatus.free || leAt b 8 8 != 0 || (attr == 2 && !allZero ((b.drop 0x12).take 14)) then .no z stIllegalOp
  else if attr == 2 then
    if clear then .ok (z.setQueue q { x with pinMask := none }) []
    else if mask == 0#16 || mask &&& ~~~ combs != 0#16 then .no z stIllegalOp
    else .ok (z.setQueue q { x with pinMask := some mask }) []
  else if attr == 3 then
    if clear then .ok (z.setQueue q { x with pinSet := none }) []
    else if !cells.all (fun c => combs.getLsbD (combOf c) && !z.outOfUse c) || !shapeSet cells then .no z stIllegalOp
    else .ok (z.setQueue q { x with pinSet := some set }) []
  else .no z stIllegalOp

/-- Row SET_PIN. -/
def State.setPin (s : State) : State := s.admRun 0x38 (some 32) (fun z b =>
  if leAt b 3 1 != 0 || leAt b 6 2 != 0 || decide (1 < leAt b 2 1) then .no z stIllegalOp
  else match leAt b 0 1 with
    | 0 => z.pinQuarter b
    | 1 => z.pinQueue b
    | 2 =>
      if leAt b 1 1 != 4 || leAt b 4 2 != 0 || !allZero ((b.drop 0x10).take 16) then .no z stIllegalOp
      else match tabFind z.images (leAt b 8 8) with
        | none => .no z stIllegalOp
        | some im => .ok { z with images := tabSet z.images (leAt b 8 8) { im with pinned := leAt b 2 1 == 0 } } []
    | _ => .no z stIllegalOp)

/-! ## RESTORE_LAUNCH and DROP_SAVE (R262, R266) -/

/-- Is every reserved byte of a save header zero? -/
def saveRsvOk (h : List Byte) : Bool :=
  decide (leAt h 0x2A 2 < 16384) && leAt h 0x43 5 == 0 && allZero ((h.drop 0xC8).take 56) && decide (leAt h 0x42 1 ≤ 8)
    && (List.range 8).all (fun i => leAt h (0x48 + 16 * i + 4) 4 == 0)

/-- Is every reserved byte of the fixed part of a cell record zero? -/
def recordRsvOk (r : List Byte) : Bool :=
  allZero ((r.drop 2).take 62) && allZero ((r.drop 0x11C0).take 64)
    && (List.range 16).all (fun t => leAt r (0x40 + 272 * t + 0x102) 2 == 0 && leAt r (0x40 + 272 * t + 0x10C) 4 == 0)

/-- The launch a save describes, waiting saved on a queue. The save names no ring index and no `IRQ`: both are open.
[DESIGN CHOICE, log entry 70] -/
def State.restoredLaunch (s : State) (q a : Nat) (h : List Byte) (im : Image) (v : Variant) : Launch :=
  let x := s.queue q
  { queue := q, index := Config.freeNat s.free % 2 ^ 32, partition := s.queuePart q, context := x.context, image := leAt h 8 8,
    imageBase := im.va, variant := v, launchId := BitVec.ofNat 64 (leAt h 0x10 8), genKey := BitVec.ofNat 128 (leAt h 0x18 16),
    groups := (List.range (leAt h 0x42 1)).filterMap (fun i =>
      (s.handleOf (leAt h (0x48 + 16 * i) 4)).map (fun g => (g, BitVec.ofNat 64 (leAt h (0x48 + 16 * i + 8) 8))))
    consts := List.replicate 256 0#8, inlineData := List.replicate 192 0#8, priority := x.priority
    irq := Config.freeNat (s.free + 1) % 2 == 1, phase := .saved, cells := [], status := none, detail := 0
    replayed := leAt h 0x40 1, clipped := leAt h 0x41 1, lastClip := none, sticky := 0#7, preempted := true
    walked := [], deliveredPoison := false, deliveredSuspect := false, lostWrites := false, startTime := s.time, elapsed := leAt h 0x38 8
    order := 0, loadsLeft := [], votes := [], tripped := false, reports := [], target := none
    save := some (a, saveBytes v), restored := true, hop := [], hopPoison := [], verdicts := 0 }

/-- Does a save area lie in stacks that accept activates (R37): its header, and the head of each record that it states? -/
def State.saveOpen (s : State) (ctx a : Nat) : Bool :=
  s.spanOpen ctx a 256 && (match s.vread ctx .read a 256 with
    | .ok h _ _ => (List.range (leAt h 0x28 2)).all (fun i => s.spanOpen ctx (a + 256 + i * leAt h 0x30 4) 0x1200)
    | _ => true)

/-- Row RESTORE_LAUNCH. [DEDUCED, log entry 63] -/
def State.restoreLaunch (s : State) : State := s.admRun 0x39 (some 16) (fun z b =>
  let q := leAt b 0 2
  let a := leAt b 8 8
  let x := z.queue q
  if decide (1023 < q) || x.status == QueueStatus.free || leAt b 2 6 != 0 || a % 256 != 0 then .no z stIllegalOp
  else if x.status != QueueStatus.active then .no z stBusy
  else if !z.saveOpen x.context a then .later
  else match z.vread x.context .read a 256 with
    | .ok h po _ =>
      let f := leAt h 0x28 2
      let size := leAt h 0x30 4
      let recs := (List.range f).map (fun i => z.vread x.context .read (a + 256 + i * size) 0x1200)
      if po then .no z stPoisonConsumed
      else if leAt h 0 2 != 0x5356 || leAt h 2 2 != 1 || !saveRsvOk h then .no z stIllegalOp
      else
        let shape := (z.bump 0x6024 0 1)
        let known := (List.range (leAt h 0x42 1)).all (fun i => match z.handleOf (leAt h (0x48 + 16 * i) 4) with
          | some g => z.handleIn (z.queuePart q) g
          | none => false)
        let im? := (tabFind z.images (leAt h 8 8)).bind (fun im =>
          if im.partition == z.queuePart q then (im.variant f).map (fun v => (im, v)) else none)
        (match im? with
         | none => .no shape stContextShape
         | some (im, v) =>
           if decide (scratchBytes < leAt h 0x2C 4) || !z.everFits q f || !known then .no shape stContextShape
           else if recs.any (fun r => match r with | .ok _ _ _ => false | _ => true) then .no z stTranslationFatal
           else if recs.any (fun r => match r with | .ok bs _ _ => !recordRsvOk bs | _ => false) then .no z stIllegalOp
           else
             let l := z.restoredLaunch q a h im v
             let z1 := { z with free := z.free + 2 }
             .ok ((z1.modQueue q (fun y => { y with outstanding := y.outstanding + 1 })).admitted l) [])
    | _ => .no z stTranslationFatal)

/-- Row DROP_SAVE. -/
def State.dropSave (s : State) : State := s.admRun 0x3A (some 16) (fun z b =>
  let q := leAt b 0 2
  match z.launches.find? (fun (l : Nat × Launch) => l.2.queue == q && l.2.launchId.toNat == leAt b 8 8 && l.2.phase == .saved) with
  | none => .no z stIllegalOp
  | some (lid, l) =>
    if leAt b 2 6 != 0 then .no z stIllegalOp
    else
      let at_ := l.save.getD (0, 0)
      let z1 := { z with launches := tabErase z.launches lid }
      .ok (z1.modQueue q (fun x => { x with outstanding := x.outstanding - 1 })) (bytesLE 8 at_.1 ++ bytesLE 8 at_.2))

end Sys2Proof.Machine
end

