-- ==== Sys2Proof/Machine/QueueAdmin.lean ====
section
/-!
DEFINITION. Queue creation, destruction and re-attachment, and program images (rows QUEUE_CREATE, QUEUE_DESTROY,
QUEUE_REATTACH, IMAGE_LOAD, IMAGE_UNLOAD; R271, R294–R296, R302, R303, R305).
-/
namespace Sys2Proof.Machine

/-! ## Queues -/

/-- Is every field of a `QUEUE_CREATE` payload in range (R303)? -/
def queueFieldsOk (b : List Byte) : Bool :=
  let n := fun (off size lo hi : Nat) => decide (lo ≤ leAt b off size) && decide (leAt b off size ≤ hi)
  n 0 2 0 1023 && n 4 1 0 7 && n 5 1 6 16 && (n 6 2 0 2047 || leAt b 6 2 == 0xFFFF) && leAt b 8 4 % 65536 == 0
    && n 8 4 0x40000 0x3FBFFFFF && decide (leAt b 8 4 + 2 ^ leAt b 5 1 * 512 ≤ 0x3FC00000) && n 0xC 4 1 60000000
    && leAt b 0x10 8 % 4096 == 0 && n 0x18 2 1 256 && n 0x1A 2 0 10000 && n 0x1C 1 0 1 && allZero ((b.drop 0x1D).take 35)

/-- Does a ring overlap the ring of a queue that is not FREE (R271)? -/
def State.ringOverlaps (s : State) (off n : Nat) : Bool :=
  s.queues.any (fun (q : Nat × Queue) => q.2.status != QueueStatus.free && decide (q.2.ringOff < off + n)
    && decide (off < q.2.ringOff + q.2.size * 512))

/-- Row QUEUE_CREATE. -/
def State.queueCreate (s : State) : State := s.admRun 0x10 (some 64) (fun z b =>
  let q := leAt b 0 2
  let c := leAt b 2 2
  let x := z.ctx c
  let p := x.partition
  let live := z.queues.filter (fun (k : Nat × Queue) => k.2.status != QueueStatus.free)
  if !queueFieldsOk b || !x.used || x.dying || (z.part p).state != PartState.active
      || z.ringOverlaps (leAt b 8 4) (2 ^ leAt b 5 1 * 512) then .no z stIllegalOp
  else if (z.queue q).status != QueueStatus.free
      || decide ((z.part p).queues.toNat ≤ (live.filter (fun k => z.queuePart k.1 == p)).length)
      || decide (16 ≤ (live.filter (fun k => k.2.context == c)).length) then .no z stBusy
  else
    .ok (z.setQueue q { Queue.free with
      status := .active, context := c, priority := leAt b 4 1, log2Slots := leAt b 5 1, msix := leAt b 6 2, ringOff := leAt b 8 4
      timeoutUs := leAt b 0xC 4, cqBase := leAt b 0x10 8, modCount := leAt b 0x18 2, modUs := leAt b 0x1A 2
      span := leAt b 0x1C 1 == 1 }) [])

/-- Row QUEUE_DESTROY: the queue enters DYING; the admin queue goes on (R295, R300). -/
def State.queueDestroy (s : State) : State := s.admRun 0x11 (some 8) (fun z b =>
  let q := leAt b 0 2
  if decide (1023 < q) || leAt b 2 6 != 0 || (z.queue q).status == QueueStatus.free then .no z stIllegalOp
  else .wait (z.queueDie q stQueueDestroyed) (.queue q) false)

/-- One parked record written to the new ring (R296). [DEDUCED, log entry 62] -/
def State.unpark (s : State) (q : Nat) (r : List Byte) : State :=
  let x := s.queue q
  let c := x.posted.toNat
  let r1 := setByte (setByte r 0x0F (BitVec.ofNat 8 (phaseBit c x.size * 128 + leAt r 0x0F 1 % 128))) 0x13 (BitVec.ofNat 8 (leAt r 0x13 1 ||| 2))
  (s.setQueue q { x with posted := x.posted + 1#64, shadow := tabSet x.shadow (c % 64) r1 }).countRecord.post (.write (x.cqBase + c % x.size * 32) r1 false)

/-- Row QUEUE_REATTACH: parked records are delivered; taking resumes when the runtime writes `DB_TAIL` again. [DEDUCED, log entry 62] -/
def State.queueReattach (s : State) : State := s.admRun 0x12 (some 16) (fun z b =>
  let q := leAt b 0 2
  let x := z.queue q
  if decide (1023 < q) || leAt b 2 6 != 0 || leAt b 8 8 % 4096 != 0 || x.status != QueueStatus.orphaned then .no z stIllegalOp
  else
    let z1 := z.setQueue q { x with
      status := .active, cqBase := leAt b 8 8, posted := 0#64, cqHead := 0#64, tail := x.taken, ringLost := false, parked := [], irqCount := 0 }
    .ok (x.parked.foldl (fun (acc : State) r => acc.unpark q r) z1) [])

/-- A queue loses its rings: ACTIVE queues enter ORPHANED, and later records are parked (R294, R296). -/
def State.orphan (s : State) : State :=
  { s with queues := s.queues.map (fun (q : Nat × Queue) => (q.1, match q.2.status with
      | .active => { q.2 with status := .orphaned, ringLost := true, irqCount := 0 }
      | .dying => { q.2 with ringLost := true }
      | _ => q.2)) }

/-! ## Program images (R305) -/

/-- Does `n` bytes from an offset lie inside an image of `len` bytes? -/
def inImage (len off n : Nat) : Bool := decide (off + n ≤ len)

/-- Footprints a variant may have. -/
def footprints : List Nat := [1, 2, 4, 8, 16, 32, 64]

/-- One site-table entry. -/
def siteOk (img : List Byte) (len codeOff codeLen o : Nat) : Bool :=
  let pc := leAt img o 4
  let cal := leAt img (o + 4) 4
  let wide := leAt img (o + 8) 4
  let pred := leAt img (o + 12) 1
  pc % 4 == 0 && decide (codeOff ≤ pc) && decide (pc < codeOff + codeLen) && cal % 64 == 0 && inImage len cal 64
    && decide (pred ≤ 7) && (pred == 0) == (wide == 0xFFFFFFFF) && (wide == 0xFFFFFFFF || (wide % 64 == 0 && inImage len wide 64))
    && leAt img (o + 13) 3 == 0

/-- The site table entries. -/
def readSites (img : List Byte) (off n : Nat) : List Site :=
  (List.range n).map (fun i =>
    let o := off + 16 * i
    { pc := leAt img o 4, cal := leAt img (o + 4) 4, calWide := leAt img (o + 8) 4, pred := leAt img (o + 12) 1 })

/-- Are numbers strictly ascending? -/
def ascending : List Nat → Bool
  | [] => true
  | [_] => true
  | a :: b :: r => decide (a < b) && ascending (b :: r)

/-- One resident-table entry. An entry with `SP_LEN` 0 has no region, and its offsets are still aligned and inside.
[DEDUCED, log entry 64] -/
def residentOk (img : List Byte) (len o : Nat) : Bool :=
  let off := leAt img o 4
  let n := leAt img (o + 4) 4
  let data := leAt img (o + 8) 8
  off % 256 == 0 && n % 256 == 0 && data % 64 == 0 && inImage len data n
    && (n == 0 || (decide (0x200 ≤ off) && decide (off + n ≤ 0x300000)))

/-- A variant header at offset `o` for a footprint; none where it breaks R305. -/
def readVariant (img : List Byte) (len f o : Nat) : Option Variant :=
  let codeOff := leAt img (o + 8) 8
  let codeLen := leAt img (o + 0x10) 8
  let entry := leAt img (o + 4) 4
  let extent := leAt img (o + 0x1C) 4
  let siteOff := leAt img (o + 0x20) 8
  let sites := leAt img (o + 0x28) 4
  let resOff := leAt img (o + 0x30) 8
  let heads := leAt img o 2 == f && leAt img (o + 2) 2 == 0 && leAt img (o + 0x2C) 4 == 0 && allZero ((img.drop (o + 0x38)).take 72)
  let code := codeOff % 65536 == 0 && codeLen % 4 == 0 && inImage len codeOff codeLen && entry % 4 == 0 && decide (codeOff ≤ entry)
    && decide (entry < codeOff + codeLen) && extent % 256 == 0 && decide (extent ≤ 0x300000)
  let site := siteOff % 16 == 0 && decide (sites ≤ 65536) && (sites != 0 || siteOff == 0) && inImage len siteOff (16 * sites)
    && (List.range sites).all (fun i => siteOk img len codeOff codeLen (siteOff + 16 * i))
    && ascending ((readSites img siteOff sites).map (fun x => x.pc))
  let res := resOff == 0 || (inImage len resOff (16 * f) && (List.range f).all (fun i => residentOk img len (resOff + 16 * i)))
  if !(heads && code && site && res) then none
  else some {
    footprint := f, entry := entry, codeOff := codeOff, codeLen := codeLen, longest := leAt img (o + 0x18) 4, extent := extent
    sites := readSites img siteOff sites
    residents := if resOff == 0 then [] else (List.range f).map (fun i =>
      let r := resOff + 16 * i
      { spOff := leAt img r 4, spLen := leAt img (r + 4) 4, dataOff := leAt img (r + 8) 8 }) }

/-- The variants of an image; none where the image breaks R305. -/
def readImage (img : List Byte) (len : Nat) : Option (List Variant) :=
  let n := leAt img 6 1
  let dir := fun (i : Nat) => 0x80 + 16 * i
  let heads := leAt img 0 4 == 0x5052474D && decide (256 ≤ len)
  let fields := leAt img 4 2 == 1 && decide (1 ≤ n) && decide (n ≤ 7) && decide (leAt img 7 1 ≤ 1) && leAt img 8 4 == 0x820
    && leAt img 0xC 1 == 0x21 && leAt img 0xD 3 == 0 && leAt img 0x10 8 == len && allZero ((img.drop 0x48).take 56)
    && allZero ((img.drop 0xF0).take 16)
  let dirs := (List.range 7).all (fun i =>
    if i < n then footprints.contains (leAt img (dir i) 1) && allZero ((img.drop (dir i + 1)).take 7) && leAt img (dir i + 8) 8 % 64 == 0
      && inImage len (leAt img (dir i + 8) 8) 128
    else allZero ((img.drop (dir i)).take 16))
  let fs := (List.range n).map (fun i => leAt img (dir i) 1)
  if heads && fields && dirs && fs.eraseDups.length == n && sha384 (img.drop 0x100) == (img.drop 0x18).take 48 then
    (List.range n).mapM (fun i => readVariant img len (leAt img (dir i) 1) (leAt img (dir i + 8) 8))
  else none

/-- Row IMAGE_LOAD. [DESIGN CHOICE, log entry 50; DEDUCED, log entry 63] -/
def State.imageLoad (s : State) : State := s.admRun 0x18 (some 24) (fun z b =>
  let c := leAt b 0 2
  let va := leAt b 8 8
  let len := leAt b 0x10 8
  let x := z.ctx c
  if !x.used || x.dying || (z.part x.partition).state != PartState.active || leAt b 2 6 != 0 || va % 65536 != 0
      || decide (2 ^ 48 < va + len) then .no z stIllegalOp
  else if (z.pageFault c .read va len).isSome || (z.pageFault c .fetch va len).isSome then .no z stTranslationFatal
  else if !z.spanOpen c va len then .later
  else match z.vread c .read va len with
    | .ok img po _ =>
      if po then .no z stPoisonConsumed
      else match readImage img len with
        | none => .no z stIllegalOp
        | some vs =>
          if 1024 ≤ z.images.length then .no z stBusy
          else
            let im : Image := { partition := x.partition, context := c, va := va, length := len, noPreempt := bitAt (leAt img 7 1) 0, pinned := false,
                                variants := vs, fetchA := 0, fetchB := 0, lastFetchA := 0, lastFetchB := 0 }
            .ok { z with images := tabSet z.images z.nextImage im, nextImage := z.nextImage + 1 } (bytesLE 8 z.nextImage)
    | _ => .no z stTranslationFatal)

/-- Row IMAGE_UNLOAD. -/
def State.imageUnload (s : State) : State := s.admRun 0x19 (some 8) (fun z b =>
  let i := leAt b 0 8
  if (tabFind z.images i).isNone then .no z stIllegalOp
  else if !z.launchesQuiet (fun l => l.image == i) then .no z stBusy
  else .ok { z with images := tabErase z.images i } [])

end Sys2Proof.Machine
end

