-- ==== Sys2Proof/Machine/Dram.lean ====
section
/-!
DEFINITION. Device-fatal errors, and the stacked memory: interleave, activation counts, decoding, refresh, thermal
stages, scrub and recentring (rows DRAM_READ to RECENTRE_NOW; R28, R34–R50, R409, R416, R417).
-/
namespace Sys2Proof.Machine

/-! ## Device-fatal errors (R417) -/

/-- A device-fatal error: the fatal log and `DEVICE_FATAL`, and the data path stops; the trace stops with its header
written (R417, R521). The cause byte is open; so are the source and value, but those of a trip (R454). -/
def State.deviceFatalAt (s : State) (src : Option (Nat × Nat)) : State :=
  if s.power.path == PathState.stopped && src.isNone then s
  else
    let (n, s1) := s.drawNat
    let s2 := if s1.capturing then s1.stopTrace 0 0 else s1
    let tail := match src with | some (a, v) => bytesLE 1 a ++ bytesLE 4 v | none => bytesLE 5 (n / 256)
    let s3 := (s2.bump 0x6062 0 1).event 0x20 3 true (bytesLE 1 n ++ tail)
    { s3.cmdEnd 0x6058 0 (Config.actionFailed 0x6058).toNat with
      power := { s3.power with path := .stopped, recovering := false }
      replicas := s3.replicas.map (fun (r : Nat × Replica) => (r.1, { r.2 with running := none })) }

/-- A device-fatal error that is no trip. -/
def State.deviceFatal (s : State) : State := s.deviceFatalAt none

/-! ## Where an address lies (R28) -/

/-- Bank of a rank. -/
def dramBank (pa : Nat) : Nat := field pa 19 14 ^^^ field pa 31 26
/-- Rank and row, by variant. -/
def dramRank (o : OrderCode) (pa : Nat) : Nat := match o with | .lt820_256_A => 0 | _ => field pa 20 20
def dramRow (o : OrderCode) (pa : Nat) : Nat := match o with | .lt820_256_A => field pa 35 20 | _ => field pa 36 21

/-- The virtual symbols A0 and A1 of a granule's codeword: o[21:6] and o[36:22], o the offset in the stack (R28, R40). -/
def addrSymbols (g : Nat) : Nat × Nat := (field (64 * g) 21 6, field (64 * g) 36 22)

/-- What an access meant for granule `g` meets where it lands at granule `at_`: the codeword there, read under the address
symbols of `g` (R40). -/
def landErrs (g at_ : Nat) : List (Nat × Nat) :=
  [(36, (addrSymbols g).1 ^^^ (addrSymbols at_).1), (37, (addrSymbols g).2 ^^^ (addrSymbols at_).2)].filter (fun e => e.2 != 0)

/-- Key of a row's activation counter. -/
def rowKey (unit rank bank row : Nat) : Nat := ((unit * 2 + rank) * 64 + bank) * 65536 + row


/-! ## Activation counts (R38, R39) -/

/-- Is an activate refused: all 16 entries are in use and the bank has a pending one? -/
def State.stallsActivate (s : State) (pa : Nat) : Bool :=
  let x := s.channel (dramUnit pa)
  decide (16 ≤ x.targeted.length) && x.targeted.any (fun t => t.1 == dramRank s.code pa && t.2.1 == dramBank pa)

/-- A precharge after an activate of the row: its counter rises, and at the threshold a targeted refresh is queued.
[DESIGN CHOICE, log entry 104] -/
def State.activateRow (s : State) (pa : Nat) : State :=
  let u := dramUnit pa
  let rank := dramRank s.code pa
  let bank := dramBank pa
  let row := dramRow s.code pa
  let k := rowKey u rank bank row
  let n := min 4095 (tabGet 0 s.rowActs k + 1)
  let s1 := ({ s with rowActs := tabSet s.rowActs k n }).countChannel u 2 1
  let x := s1.channel u
  if n < s.entry 0x4004 0 || x.targeted.contains (rank, bank, row) || decide (16 ≤ x.targeted.length) then s1
  else s1.setChannel u { x with targeted := x.targeted ++ [(rank, bank, row)] }

/-- Row TARGETED_REFRESH: the oldest pending refresh of a channel: the rows at distances 1 and 2 are refreshed and the
aggressor's counter is cleared. [DESIGN CHOICE, log entry 104] -/
def State.targetedRefresh (s : State) (u : Nat) : State :=
  let x := s.channel u
  match x.targeted with
  | [] => s
  | (rank, bank, row) :: rest =>
    let rows := (List.range 5).filterMap (fun i => if 2 ≤ row + i ∧ row + i - 2 < 65536 then some (row + i - 2) else none)
    let s1 := { s with rowActs := rows.foldl (fun (t : Table Nat) r => tabErase t (rowKey u rank bank r)) s.rowActs }
    (((s1.setChannel u { x with targeted := rest }).bump 0x4009 (u / 64 + 1) 1).countChannel u 6 1).taskRun 2

/-- Row REFRESH_COMMAND: 16 rows of a bank are refreshed and their counters cleared (R34, R38). -/
def State.refreshCommand (s : State) (u rank bank row16 : Nat) : State :=
  ({ s with rowActs := (List.range 16).foldl (fun (t : Table Nat) i => tabErase t (rowKey u rank bank (16 * row16 + i))) s.rowActs }).taskRun 1

/-! ## Reads and writes (R42–R44) -/

/-- Queue what the nurse owes a granule; one entry per granule: a corrective write that finds one queued is none, and the
poison marker takes its place (R42). [DEDUCED, log entry 103] -/
def State.queueFix (s : State) (g : Nat) (f : Fixup) : State :=
  match f, tabFind s.fixups g with
  | .corrective _, some _ => s
  | _, _ => { s with fixups := tabSet s.fixups g f }

/-- Record the outcome of a decode of a granule whose stored bytes are `clean`, given what the read met beside them; whether the data
is flagged (R42). [DEDUCED, log entry 103] -/
def State.recordDecode (s : State) (g : Nat) (errs : List (Nat × Nat)) (clean : List Byte) : State × Bool :=
  let u := dramUnit (64 * g)
  let data := decodedData clean errs
  match decode16 errs with
  | .clean => (s, false)
  | .corrected p => ((s.queueFix g (.corrective data)).noteCorrected u p, false)
  | .address => ((s.noteMem (.address (64 * g))).addressError u, true)
  | .poison => (s, true)
  | .bad => ((((s.queueFix g (.poison data)).noteMem (.uncorrectable (64 * g))).bump 0x4007 (u / 64 + 1) 1).countChannel u 4 1, true)

/-- Symbol errors that strike a granule: those that stay are stored with it. -/
def State.strike (s : State) (g : Nat) (errs : List (Nat × Nat)) : State :=
  let now := errs.foldl addErr (tabGet [] s.damage g)
  { s with damage := if now.isEmpty then tabErase s.damage g else tabSet s.damage g now }

/-- What a read of a granule returned, flagged by a fault of this access alone, for those the data goes to (R42). -/
def State.setStruck (s : State) (g : Nat) (data : Option (List Byte)) : State :=
  { s with struck := match data with | some bs => tabSet s.struck g bs | none => tabErase s.struck g }

/-- A foreground request aborts a recentring step of its channel (R47). -/
def State.abortRecentre (s : State) (u : Nat) (stepping : Bool) : State :=
  if !stepping then s
  else
    let x := s.channel u
    let n := x.aborts + 1
    s.setChannel u (if 8 ≤ n && x.parts.isNone then { x with aborts := 0, parts := some 0 } else { x with aborts := n })

/-- A decode that comes back flagged, by what it serves. -/
def State.flagged (s : State) (f : ReadFor) : State :=
  match f with
  | .data => s
  | .partition p => s.partitionError p
  | .device => s.deviceFatal

/-- May a foreground access of a granule go to the stack now? An activate waits while the targeted-refresh queue refuses its bank
(R39) and while the stack is in throttle stage 3 (R37). -/
def State.activates (s : State) (pa : Nat) : Bool := !s.stallsActivate pa && s.stackOpen pa

/-- Row DRAM_READ: a granule is read at the location `at_` where the access lands, its codeword struck by `errs` (position, symbol),
which stay in the array or not; the access activates its row or not, and meets a recentring step or not. -/
def State.dramRead (s : State) (g at_ : Nat) (errs : List (Nat × Nat)) (stays act stepping : Bool) (f : ReadFor) : State :=
  let pa := 64 * g
  let u := dramUnit pa
  if !s.isDram pa || !s.isDram (64 * at_) || (act && !s.activates pa) then s
  else
    let kept := errs.filter (fun e => decide (e.1 < 36))
    let s1 := if stays then s.strike at_ kept else s
    let here := landErrs g at_ ++ (if stays then errs.filter (fun e => decide (36 ≤ e.1)) else errs)
    let s2 := (((if act then s1.activateRow pa else s1).abortRecentre u stepping).countChannel u 0 64).count (8 * (2 * (u / 64))) 64
    let met := here.foldl addErr (s2.storedErrs at_)
    let clean := s2.dram.read (64 * at_) 64
    let (s3, bad) := s2.recordDecode g met clean
    let s4 := s3.setStruck g (if bad && !here.isEmpty then some (decodedData clean met) else none)
    if bad then s4.flagged f else s4

/-- Row DRAM_WRITE: bytes reach a granule. A partial write merges with what a read of the granule gives, struck by `errs`;
where that read is an address error the granule is read again, struck by `again` (R43). -/
def State.dramWriteRow (s : State) (pa : Nat) (bs : List Byte) (poison : Bool) (errs again : List (Nat × Nat)) (act stepping : Bool) : State :=
  let g := pa / 64
  let u := dramUnit pa
  if !s.isDram pa || bs.isEmpty || decide (64 < pa % 64 + bs.length) || (act && !s.activates pa) then s
  else
    let s1 := (((if act then s.activateRow pa else s).abortRecentre u stepping).countChannel u 1 bs.length).count (8 * (2 * (u / 64) + 1)) bs.length
    let met := fun (e : List (Nat × Nat)) => e.foldl addErr (s1.storedErrs g)
    (if bs.length = 64 then s1 else s1.mergeRead g (met errs) (met again)).dramStore pa bs poison

/-- Is a nurse access held: its activate is refused (R39), or its task is suspended in a throttle stage (R37)? -/
def State.nurseHeld (s : State) (g : Nat) (act suspends : Bool) : Bool :=
  (act && s.stallsActivate (64 * g)) || (suspends && (s.stackTherm (stackOf (64 * g))).stage != 0)

/-- Row CORRECTIVE_WRITE: what the nurse owes a granule is written, unless a later foreground write stands (R42, R44). The
poison write-back goes on in every throttle stage, the corrective write in none above 0 (R37). -/
def State.correctiveWrite (s : State) (g : Nat) (act : Bool) : State :=
  match tabFind s.fixups g with
  | none => s
  | some f =>
    if s.nurseHeld g act (match f with | .corrective _ => true | .poison _ => false) then s
    else
      let s0 := if act then s.activateRow (64 * g) else s
      let s1 := ({ s0 with fixups := tabErase s0.fixups g }).taskRun 4
      match f with
      | .corrective data => s1.dramStore (64 * g) data false
      | .poison data => s1.dramStore (64 * g) data true

/-- Row PATROL_SCRUB: a scrub read decodes as any read does. -/
def State.patrolScrub (s : State) (g : Nat) (errs : List (Nat × Nat)) (stays act : Bool) : State :=
  if !s.isDram (64 * g) || !s.taskOn 3 || s.nurseHeld g act true then s
  else
    let s0 := if act then s.activateRow (64 * g) else s
    let s1 := if stays then s0.strike g (errs.filter (fun e => decide (e.1 < 36))) else s0
    let here := if stays then errs.filter (fun e => decide (36 ≤ e.1)) else errs
    let met := here.foldl addErr (s1.storedErrs g)
    (s1.recordDecode g met (s1.dram.read (64 * g) 64)).1.taskRun 3

/-! ## Temperature (R35–R37) -/

/-- Rising and falling thresholds of a stage, in 1/16 °C. -/
def memRise (k : Nat) : Int := match k with | 0 => 0 | 1 => 1440 | 2 => 1488 | _ => 1520
def memFall (k : Nat) : Int := match k with | 0 => 0 | 1 => 1392 | 2 => 1440 | _ => 1472

/-- The stage after a sample: the highest stage whose rising threshold is met, or the present one, left downwards below its
falling threshold. -/
def stageAfter (rise fall : Nat → Int) (now : Nat) (t : Int) : Nat :=
  let up := (List.range 4).foldl (fun m k => if k != 0 && decide (rise k ≤ t) then k else m) now
  if now < up then up
  else (List.range 3).foldl (fun m _ => if m != 0 && decide (t < fall m) then m - 1 else m) now

/-- The hottest of a list of readings and its position. [DESIGN CHOICE, log entry 156] -/
def hottest (ts : List Int) : Int × Nat :=
  match ts with
  | [] => (0, 0)
  | t :: r => (r.foldl (fun (m : Int × Nat × Nat) x => if m.1 < x then (x, m.2.2, m.2.2 + 1) else (m.1, m.2.1, m.2.2 + 1)) (t, 0, 1)
      |> fun m => (m.1, m.2.1))

/-- Row DRAM_SENSOR_SAMPLE: the readings of a stack's sensors, four to a die, in die order. [DEDUCED, log entry 168] -/
def State.dramSensorSample (s : State) (k : Nat) (readings : List Int) : State :=
  let x := s.stackTherm k
  let (t, i) := hottest readings
  let fast := x.fast || decide (1360 < t)
  let st := stageAfter memRise memFall x.stage t
  let y : StackTherm := { temp := t, hotDie := i / 4, stage := st, fast := fast, hotMinute := x.hotMinute || fast }
  let s1 := { s with therms := tabSet s.therms k y }
  if st == x.stage then s1 else s1.event 0x14 1 true (bytesLE 1 k ++ bytesLE 1 st ++ bytesLE 2 (unsigned 16 t))

/-- Row REFRESH_PACE_RESTORE: every sensor has read 82.0 °C or less for 10 ms (R35). -/
def State.refreshPaceRestore (s : State) (k : Nat) : State :=
  let x := s.stackTherm k
  if !x.fast || decide (1312 < x.temp) then s else { s with therms := tabSet s.therms k { x with fast := false } }

/-- Row HOT_MINUTE: one operating minute ends (R36). [DESIGN CHOICE, log entry 154] -/
def State.hotMinute (s : State) : State :=
  if !s.keeperUp then s
  else
    let s1 := s.bump 0x4005 6 1
    let s2 := (List.range 4).foldl (fun (acc : State) k =>
      let x := acc.stackTherm k
      let acc1 := if x.hotMinute then acc.bump 0x4005 (k + 1) 1 else acc
      { acc1 with therms := tabSet acc1.therms k { x with hotMinute := x.fast } }) s1
    let most := (List.range 4).foldl (fun m k => max m (s2.entry 0x4005 (k + 1))) 0
    let ratio := most * 1000 / s2.entry 0x4005 6
    let s3 := s2.setEntry 0x4005 5 (min ratio 65535)
    if s.code == .lt820_512_E || ratio ≤ 100 || s.manager.hotRaised then s3
    else ({ s3 with manager := { s3.manager with hotRaised := true } }).event 0x15 1 true (bytesLE 2 (min ratio 65535))

/-! ## Recentring (R47, R48) -/

/-- Row RECENTRE_STEP: a step, or one part in split mode, runs to its end on a channel; split mode ends with its eighth part.
[DESIGN CHOICE, log entry 175] -/
def State.recentreStep (s : State) (u : Nat) (aborted : Bool) : State :=
  let x := s.channel u
  if (s.stackTherm (u / 64)).stage != 0 then s
  else if aborted then s.abortRecentre u true
  else match x.parts with
    | some n =>
      if 8 ≤ n + 1 then (s.setChannel u { x with recentre := false, urgent := false, aborts := 0, parts := none }).taskRunOn 5 u
      else s.setChannel u { x with parts := some (n + 1) }
    | none => (s.setChannel u { x with recentre := false, urgent := false, aborts := 0 }).taskRunOn 5 u

/-- Row CALIB_OVERDUE: a channel has not completed recentring within four intervals. [DEDUCED, log entry 113] -/
def State.calibOverdue (s : State) (u : Nat) : State :=
  ((s.markOverdue 5 u).bump 0x9003 5 1).event 0x16 1 true (bytesLE 1 (u / 64) ++ bytesLE 1 (u % 64))

/-- Row RECENTRE_NOW, once its write is accepted: every channel of the stack is queued. -/
def State.recentreNow (s : State) (k : Nat) : State :=
  (List.range 64).foldl (fun (acc : State) c => acc.setChannel (64 * k + c) { acc.channel (64 * k + c) with recentre := true }) s

/-- `MI_THERM` (R49). -/
def StackTherm.word (x : StackTherm) : Nat :=
  b2n x.fast * 2 ^ 31 + x.stage % 8 * 2 ^ 28 + x.hotDie % 16 * 2 ^ 24 + unsigned 16 x.temp

end Sys2Proof.Machine
end

