-- ==== Sys2Proof/Machine/HostPort.lean ====
section
/-!
DEFINITION. The host port: window slots, function states, retrains, host resets and registered regions (rows
WIN_SLOT_WRITE, HOST_FN_DISABLE to UCIE_LINK_TRAIN, REGION_REGISTER, REGION_RELEASE, BUS_MASTER_SET; R350–R373).
-/
namespace Sys2Proof.Machine

/-! ## Window slots (R353, R354, R363) -/

/-- The bits of `WIN_SLOT` that hold what is written. -/
def slotMask : Nat := 2 ^ 63 + 15 * 2 ^ 58 + 3 * 2 ^ 56 + (2 ^ 22 - 1) * 2 ^ 26 + 127 * 2 ^ 19

def slotEn (v : Nat) : Bool := bitAt v 63
def slotPart (v : Nat) : Nat := field v 61 58
def slotKind (v : Nat) : Nat := field v 57 56
def slotBase (v : Nat) : Nat := field v 47 26 * 2 ^ 26
def slotCell (v : Nat) : Nat := field v 25 19

/-- May a slot with `EN` = 1 be set to a target (R353)? `BAD` is RO, so what is written to it is ignored (R12). -/
def State.slotOk (s : State) (v : Nat) : Bool :=
  let p := s.part (slotPart v)
  let rsv := field v 55 48 == 0 && field v 18 0 == 0
  p.state == PartState.active && rsv && (match slotKind v with
    | 0 => p.frameList.contains (slotBase v / 2 ^ 30) && s.populated (slotBase v)
    | 1 => p.combMask.getLsbD (combOf (slotCell v)) && !s.outOfUse (slotCell v)
    | _ => false)

/-- Does a registered WINDOW_IN region hold a slot? [DEDUCED, log entry 65] -/
def State.slotHeld (s : State) (k : Nat) : Bool :=
  s.regions.any (fun (r : Nat × Region) => r.2.kind == 1 && decide (r.2.firstSlot ≤ k) && decide (k < r.2.firstSlot + r.2.size / 2 ^ 26))

/-- A `WIN_SLOT` register set. -/
def State.setSlotReg (s : State) (k : Nat) (v : Nat) : State :=
  { s with host := { s.host with slots := tabSet s.host.slots k (BitVec.ofNat 64 v) } }

/-- Row WIN_SLOT_WRITE. [DEDUCED, log entry 65] -/
def State.winSlotWrite (s : State) (k : Nat) (v : DWord) : State :=
  let n := v.toNat
  let kept := n &&& slotMask
  if s.slotHeld k then (s.setSlotReg k ((tabGet 0#64 s.host.slots k).toNat % 2 ^ 62 + 2 ^ 62)).bump 0xA008 0 1
  else if slotEn n && !s.slotOk n then (s.setSlotReg k (kept % 2 ^ 63 + 2 ^ 62)).bump 0xA008 0 1
  else s.setSlotReg k kept

/-! ## Function states (R366) -/

/-- Row HOST_FN_DISABLE. -/
def State.hostFnDisable (s : State) : State :=
  if s.host.fn != .active then s else { s with host := { s.host with fn := .draining, req := 0 } }

/-- Row HOST_FN_ENABLE. [DEDUCED, log entry 66] -/
def State.hostFnEnable (s : State) : State :=
  if !s.host.bme then s else { s with host := { s.host with fn := .active, req := 0 } }

/-- Row BUS_MASTER_CLEAR. [DEDUCED, log entry 75] -/
def State.busMasterClear (s : State) : State :=
  ({ s with host := { s.host with bme := false } }).hostFnDisable

/-- Host-bound writes that were held are discarded and counted; the launches they belonged to have lost them (R296, R366).
[DEDUCED, log entry 11] -/
def State.discardHeld (s : State) : State :=
  let s1 := s.host.heldFor.foldl (fun (acc : State) l => acc.modLaunch l (fun x => { x with lostWrites := true })) s
  ({ s1 with host := { s1.host with held := [], heldFor := [], waiting := [] } }).bump 0xA004 0 (s.host.held.length + s.host.waiting.length)

/-- OUTPUT regions whose writes have left end with their context or partition, and releases that waited for that are answered (R365).
[DEDUCED, log entry 67] -/
def State.finishReleases (s0 : State) : State :=
  let s := { s0 with regions := s0.regions.filter (fun (r : Nat × Region) => !r.2.ending || s0.heldTo r.2) }
  let rs := s.admin.work.filterMap (fun w => match w.waits with | .region r => some r | _ => none)
  rs.foldl (fun (acc : State) r => match tabFind acc.regions r with
    | some x => if acc.heldTo x then acc else (acc.freeRegion r).adminDone (fun a => a == AdminWaitFor.region r) stOk []
    | none => acc.adminDone (fun a => a == AdminWaitFor.region r) stOk []) s

/-- Row BUS_MASTER_SET: the post buffer releases what it held. [DEDUCED, log entry 75] -/
def State.busMasterSet (s : State) : State :=
  (({ s with host := { s.host with bme := true } }).flushPost).finishReleases

/-- Row FUNCTION_DRAINED. -/
def State.functionDrained (s : State) : State :=
  if s.host.fn != .draining || !s.launchesQuiet (fun _ => true) then s
  else
    let s1 := { s with host := { s.host with fn := .disabled } }
    if s1.host.bme then s1 else (s1.orphan.discardHeld).finishReleases

/-- Row DRAIN_TIMEOUT: the launches that remain are aborted at their safe points. -/
def State.drainTimeout (s : State) : State :=
  if s.host.fn != .draining then s
  else (s.launches.map (fun (l : Nat × Launch) => l.1)).foldl (fun (acc : State) l => acc.endLaunch l (some stFunctionDisabled) 0) s

/-! ## Retrains and host resets (R367–R369) -/

/-- Row HOST_RESET: link down, or a reset received over CXL.io; the byte that names the cause is open.
[DEDUCED, log entry 11; DESIGN CHOICE, log entry 70] -/
def State.hostReset (s : State) (linkDown : Bool) : State :=
  let (n, s0) := s.drawNat
  let s1 := ((s0.bump 0xA003 0 1).event 0x36 1 false (bytesLE 1 n)).orphan
  let s2 := s1.discardHeld
  let s3 := { s2 with
    regions := s2.regions.map (fun (r : Nat × Region) => (r.1, if r.2.kind == 0 then { r.2 with stale := true } else r.2))
    admin := { s2.admin with running := false }
    host := { s2.host with
      fn := .active, discarding := true, retraining := false
      rate := if linkDown then 0 else s2.host.rate, modules := if linkDown then 0#4 else s2.host.modules
      half := if linkDown then 0#4 else s2.host.half } }
  s3.finishReleases

/-- Row LINK_RETRAIN_START. -/
def State.linkRetrainStart (s : State) : State :=
  if s.host.rate == 0 || s.host.retraining then s
  else ({ s with host := { s.host with retraining := true } }).bump 0xA002 0 1

/-- Row LINK_RETRAIN_END. -/
def State.linkRetrainEnd (s : State) : State :=
  if !s.host.retraining then s else (({ s with host := { s.host with retraining := false } }).flushPost).finishReleases

/-- Row RETRAIN_OVERRUN: a retrain unfinished after 50 ms is a host reset. -/
def State.retrainOverrun (s : State) : State :=
  if !s.host.retraining then s else s.hostReset true

/-- Rate code of `HOST_PORT_STATE`, by GT/s. -/
def rateCode (gt : Nat) : Nat := match gt with | 4 => 1 | 8 => 2 | 12 => 3 | 16 => 4 | 24 => 5 | 32 => 6 | _ => 0

/-- Data rates, highest first (R350). -/
def ucieRates : List Nat := [32, 24, 16, 12, 8, 4]

/-- Row UCIE_LINK_TRAIN: per module, the highest rate it passes in GT/s (0: it fails training) and whether it runs on 32
lanes. The link takes the highest rate that every active module passes. -/
def State.ucieLinkTrain (s : State) (passes : List Nat) (half : BitVec 4) : State :=
  let up := (List.range 4).filter (fun m => passes.getD m 0 != 0)
  let modules := up.foldl (fun (a : BitVec 4) m => a ||| (1#4 <<< m)) 0#4
  let rate := (ucieRates.find? (fun r => up.all (fun m => decide (r ≤ passes.getD m 0)))).getD 0
  if up.isEmpty || !s.running || !s.refclk then s
  else
    (({ s with host := { s.host with modules := modules, half := half &&& modules, rate := rateCode rate } }).flushPost).finishReleases

/-! ## Registered regions (R361–R365) -/

/-- Does every page of a range permit a write and lie in DRAM (R362)? -/
def State.regionPages (s : State) (c va n : Nat) : Bool :=
  (spanPages va n).all (fun p => match (s.ctx c).leaf p with
    | some (e, _) => pteW e && !isWindow (ptePa e)
    | none => false)

/-- Is a `REGION_REGISTER` payload in range (R361, R362)? -/
def State.regionOk (s : State) (b : List Byte) : Bool :=
  let kind := leAt b 2 1
  let c := leAt b 4 2
  let base := leAt b 8 8
  let size := leAt b 0x10 8
  let common := decide (leAt b 0 2 < 4096) && (s.ctx c).used && !(s.ctx c).dying && leAt b 6 2 == 0 && leAt b 0x18 8 == 0
  common && (match kind with
    | 0 => leAt b 3 1 == 0 && base % 4096 == 0 && size % 4096 == 0 && decide (4096 ≤ size) && decide (size ≤ 2 ^ 47)
    | 1 => decide (leAt b 3 1 < 64) && base % 2 ^ 26 == 0 && size % 2 ^ 26 == 0 && decide (2 ^ 26 ≤ size) && decide (size ≤ 2 ^ 32)
        && decide (base + size ≤ 2 ^ 48) && s.regionPages c base size
    | 2 => leAt b 3 1 == 0 && base % 65536 == 0 && size % 65536 == 0 && decide (65536 ≤ size) && decide (size ≤ 2 ^ 34)
        && decide (base + size ≤ 2 ^ 48) && s.regionPages c base size
    | _ => false)

/-- Row REGION_REGISTER. -/
def State.regionRegister (s : State) : State := s.admRun 0x48 (some 32) (fun z b =>
  let r := leAt b 0 2
  let kind := leAt b 2 1
  let c := leAt b 4 2
  let first := leAt b 3 1
  let base := leAt b 8 8
  let n := leAt b 0x10 8 / 2 ^ 26
  let live := (z.regions.filter (fun (x : Nat × Region) => x.2.kind == 2)).length
  let taken := (List.range n).any (fun i => decide (64 ≤ first + i) || slotEn (tabGet 0#64 z.host.slots (first + i)).toNat)
  if !z.regionOk b then .no z stIllegalOp
  else if (tabFind z.regions r).isSome || (kind == 1 && taken) || (kind == 2 && decide (1024 ≤ live)) then .no z stBusy
  else
    let gen := (tabGet 0 z.keyGens r + 1) % 2 ^ 20
    let x : Region := { kind := kind, firstSlot := first, context := c, base := base, size := leAt b 0x10 8, stale := false,
                        ending := false, rkey := if kind == 2 then r * 2 ^ 20 + gen else 0 }
    let z1 := { z with regions := tabSet z.regions r x }
    match kind with
    | 0 => .ok z1 []
    | 1 =>
      let p := (z.ctx c).partition
      let z2 := (List.range n).foldl (fun (acc : State) i =>
        let pa := match (z.ctx c).leaf (base + i * 2 ^ 26) with | some (e, big) => leafPa e big (base + i * 2 ^ 26) | none => 0
        acc.setSlotReg (first + i) (2 ^ 63 + p * 2 ^ 58 + pa / 2 ^ 26 * 2 ^ 26)) z1
      .ok z2 (bytesLE 4 n)
    | _ => .ok { z1 with keyGens := tabSet z1.keyGens r gen } (bytesLE 4 x.rkey))

/-- Does a stream slot that is not IDLE, or a pending re-arm, name an OUTPUT region of the owning partition? -/
def State.regionInUse (s : State) (r : Nat) : Bool :=
  s.cells.any (fun (c : Nat × Cell) => c.2.streams.any (fun (k : Nat × StreamSlot) =>
    let names := fun (d : List Byte) => sdDstSpace d == 2 && sdRegion d == r
    (k.2.state != SlotState.idle && names k.2.desc) || (match k.2.rearm with | some a => names a.1 | none => false)))

/-- Row REGION_RELEASE. [DEDUCED, log entry 67] -/
def State.regionRelease (s : State) : State := s.admRun 0x49 (some 8) (fun z b =>
  let r := leAt b 0 2
  match tabFind z.regions r with
  | none => .no z stIllegalOp
  | some x =>
    if leAt b 2 6 != 0 || x.ending then .no z stIllegalOp
    else if x.kind == 0 && !x.stale then
      if z.regionInUse r then .no z stBusy
      else if z.heldTo x then .wait z (.region r) true
      else .ok (z.freeRegion r) []
    else .ok (z.freeRegion r) [])

/-- `HOST_PORT_STATE` (R373). -/
def HostPort.word (h : HostPort) : Nat :=
  h.modules.toNat * 2 ^ 28 + h.half.toNat * 2 ^ 24 + h.rate % 16 * 2 ^ 20 + b2n h.retraining * 2 ^ 19 + b2n h.bme * 2 ^ 18
    + b2n h.mse * 2 ^ 17 + min ((h.held.map HostMsg.size).sum / 4) 65536

/-- `HOST_FN_CTRL` (R372). [DEDUCED, log entry 66] -/
def HostPort.fnWord (h : HostPort) : Nat := (match h.fn with | .active => 0 | .draining => 1 | .disabled => 2) * 2 ^ 8 + h.req % 4

end Sys2Proof.Machine
end

