-- ==== Sys2Proof/Machine/Ports.lean ====
section
/-!
DEFINITION. Bring-up of the fabric ports (rows PORT_SIGNAL_DETECT to PORT_RESTART; R375–R380, R406, R407).
-/
namespace Sys2Proof.Machine

/-- A port. -/
def State.port (s : State) (p : Nat) : Port := tabGet Port.absent s.ports p
def State.setPort (s : State) (p : Nat) (x : Port) : State := { s with ports := tabSet s.ports p x }
def State.modPort (s : State) (p : Nat) (f : Port → Port) : State := s.setPort p (f (s.port p))

/-- `LINK` of `PORT_STATE`. -/
def LinkState.code : LinkState → Nat
  | .absent => 0 | .training => 1 | .up => 2 | .retrain => 3 | .failed => 4

/-- A counter of a port's group (R507). -/
def State.countPort (s : State) (p i n : Nat) : State := s.countFull (0x42000 + 0x200 * p + 8 * i) n

/-- `PORT_ERR`: while an error is held, further ones are only counted (R407). [DESIGN CHOICE, log entry 89] -/
def State.portErr (s : State) (p code lane qp info : Nat) : State :=
  s.modPort p (fun x =>
    if x.err.msb then { x with errCount := x.errCount + 1 }
    else { x with errCount := x.errCount + 1
                  err := BitVec.ofNat 64 (2 ^ 63 + code % 256 * 2 ^ 48 + lane % 16 * 2 ^ 44 + qp % 4096 * 2 ^ 32 + info % 2 ^ 32) })

/-- The lanes of the widest healthy set, and its width code (R379). -/
def activeLanes (ok : BitVec 4) : BitVec 4 × Nat :=
  if ok == 15#4 then (15#4, 3)
  else if ok &&& 3#4 == 3#4 then (3#4, 2)
  else if ok &&& 12#4 == 12#4 then (12#4, 2)
  else match (List.range 4).find? (fun l => ok.getLsbD l) with
    | some l => (1#4 <<< l, 1)
    | none => (0#4, 0)

/-- A port enters a state: the trace sees it, and a transition into or out of UP is logged and sent (R376, R517). [DEDUCED, log entry 81] -/
def State.enterLink (s : State) (p : Nat) (l : LinkState) : State :=
  let old := (s.port p).link
  let s1 := s.modPort p (fun x => { x with link := l, width := if l == .up || l == .retrain then x.width else 0 })
  let data := bytesLE 1 p ++ bytesLE 1 l.code ++ bytesLE 1 (s1.port p).width
  let s2 := if old == l then s1 else s1.trace (islandPort p) 8 0xFFFF 0xFF data
  if (old == .up) != (l == .up) then s2.event 0x30 0 true data else s2

/-- Flits in the retry buffer are lost and counted. -/
def State.dropRetry (s : State) (p : Nat) : State :=
  let n := (s.port p).retry.length
  (s.modPort p (fun x => { x with retry := [], replays := 0 })).bump 0x5025 (p + 1) n

/-- Flits of a frame (R386). -/
def frameFlits (len : Nat) : Nat := (64 + len + 255) / 256

/-! ## Flits on the wire (R381, R382) -/

/-- A flit as it goes out: link header, payload, and the parity of its two codewords (R381, R382). -/
def flitWire (seq ack type cls n : Nat) (payload : List Byte) : List Byte :=
  let high := bytesLE 4 (seq % 1024 * 2 ^ 22 + ack % 1024 * 2 ^ 12 + type % 4 * 2 ^ 10 + cls % 32 * 2 ^ 5 + n % 32)
  let content := bytesLE 4 (crc32 (high ++ payload)).toNat ++ high ++ payload
  let parity := fun (k : Nat) => parity8 ((List.range 132).map (fun i => (content.getD (2 * i + k) 0#8).toNat))
  let a := parity 0
  let b := parity 1
  content ++ (List.range 8).flatMap (fun i => [BitVec.ofNat 8 (a.getD i 0), BitVec.ofNat 8 (b.getD i 0)])

/-- A flit spread over the active lanes of a port: byte k goes on active lane k mod W (R381). -/
def Port.spread (x : Port) (p : Nat) (bytes : List Byte) : WireOut :=
  let lanes := (List.range 4).filter (fun l => (activeLanes x.lanesOk).1.getLsbD l)
  { port := p, lanes := (List.range lanes.length).map (fun j =>
      (lanes.getD j 0, ((List.range bytes.length).filter (fun k => k % lanes.length == j)).map (fun k => bytes.getD k 0#8))) }

/-- The `ACK` a port sends: the last DATA flit received in order. -/
def Port.ack (x : Port) : Nat := (x.expect + 1023) % 1024

/-- A flit of a port with its `ACK` (R382): types 0 DATA, 1 IDLE, 2 NAK, 3 CONTROL. -/
def Port.flit (x : Port) (p type seq cls n : Nat) (payload : List Byte) : WireOut := x.spread p (flitWire seq x.ack type cls n payload)

/-- The payload of a flit that carries no frame. [DESIGN CHOICE, log entry 162] -/
def plainPayload (type : Nat) (fields : List Nat) : List Byte := (List.range 256).map (Config.frameByte (256 + type) fields)

/-! ## Credits (R384) -/

/-- Dedicated flits of a credit class. -/
def dedicated (c : Nat) : Nat := if c < 16 then 8 else if c < 24 then 48 else 16

/-- Credits for the next flit: a class and up to 31 of what is owed. -/
def Port.takeOwed (x : Port) : Nat × Nat × Port :=
  match x.owed.find? (fun (e : Nat × Nat) => e.2 != 0) with
  | some (c, n) =>
    let k := min 31 n
    (c, k, { x with owed := if n == k then tabErase x.owed c else tabSet x.owed c (n - k) })
  | none => (0, 0, x)

/-- An IDLE flit goes out, with `ACK` and credits. -/
def State.sendIdle (s : State) (p : Nat) : State :=
  let (c, n, x) := (s.port p).takeOwed
  if x.link != .up then s
  else
    let s1 := s.setPort p x
    ({ s1 with wire := s1.wire ++ [x.flit p 1 0 c n (plainPayload 1 [])] }).countPort p 33 1

/-- Flits of a class leave the receive buffer of a port, and their credits go back; those of an earlier life of the link give
none. [DESIGN CHOICE, log entry 85] -/
def State.giveBack (s : State) (h : Option RxHold) (n : Nat) : State :=
  match h with
  | none => s
  | some h =>
    let x := s.port h.port
    if h.gen != x.gen || n == 0 then s
    else
      let held := tabGet 0 x.rxHeld h.cls
      let shared := min n (held - dedicated h.cls)
      let give := fun (t : Table Nat) (k m : Nat) => if m == 0 then t else tabSet t k (tabGet 0 t k + m)
      (s.setPort h.port { x with rxHeld := tabSet x.rxHeld h.cls (held - n)
                                 owed := give (give x.owed h.cls (n - shared)) 31 shared }).sendIdle h.port

/-- A frame goes no further: its flits leave the buffer they lie in. -/
def State.leaves (s : State) (t : Transit) : State := s.giveBack t.hold t.flits.length

/-- How many flits at the front of a receive buffer belong to whole frames. [DEDUCED, log entry 80] -/
def wholeFlits : Nat → List (List Byte) → Nat
  | 0, _ => 0
  | fuel + 1, rx => match rx with
    | [] => 0
    | h :: _ =>
      let n := frameFlits (leAt h 0xA 2)
      if rx.length < n then 0 else n + wholeFlits fuel (rx.drop n)

/-- A frame that an input will not finish: the flits still to come go out as zeros, so that its `E2E_CRC` fails at its destination
(R387). [DESIGN CHOICE, log entry 163] -/
def Transit.cut (p : Nat) (t : Transit) : Transit :=
  if t.more != 0 && (match t.hold with | some h => h.port == p | none => false)
  then { t with flits := t.flits ++ List.replicate t.more (List.replicate 256 0#8), more := 0 } else t

/-- The link of a port goes down: a frame that was arriving goes no further (R389). [DESIGN CHOICE, log entry 163] -/
def State.cutShort (s : State) (p : Nat) : State :=
  let s0 := match (s.port p).sending with | some t => s.leaves t | none => s
  let s1 := { s0 with ports := s0.ports.map (fun (q : Nat × Port) =>
    (q.1, { q.2 with txq := q.2.txq.map (Transit.cut p), sending := q.2.sending.map (Transit.cut p) })) }
  s1.modPort p (fun x => { x with arrived := x.arrived.filter (fun t => t.more == 0), sending := none, rxCut := false, rxLeft := 0
                                  rx := x.rx.take (wholeFlits x.rx.length x.rx) })

/-- A link starts afresh: sequence numbers and credits of a neighbour just met (R379, R384). Whole frames that were received before
stay; the flits of a frame cut short go. [DEDUCED, log entry 80] -/
def Port.fresh (x : Port) : Port :=
  let n := wholeFlits x.rx.length x.rx
  { x with retry := [], nextSeq := 0, replays := 0, expect := 0, nakSent := false, rx := x.rx.take n, rxOld := n, gen := x.gen + 1
           rxClass := 0, rxLeft := 0, rxCut := false, rxHeld := [], owed := []
           credits := (List.range 25).map (fun c => (c, if c < 16 then 8 else if c < 24 then 48 else 16)) ++ [(31, 496)] }

/-- Do the fabric ports work: the data path runs and the SerDes clock is there (R452, R537)? -/
def State.portsLive (s : State) : Bool := s.running && s.power.srefPresent

/-- Row PORT_SIGNAL_DETECT. -/
def State.portSignalDetect (s : State) (p : Nat) : State :=
  if (s.port p).link != .absent || !s.portsLive then s else s.enterLink p .training

/-- A failed attempt: the third in a row, or a mode mismatch, ends in FAILED (R376). [DEDUCED, log entry 80] -/
def State.attemptFailed (s : State) (p : Nat) (mismatch : Bool) : State :=
  if (s.port p).link != .training then s
  else
    let n := min 7 ((s.port p).tries + 1)
    let s1 := s.modPort p (fun x => { x with tries := n })
    if mismatch then (s1.enterLink p .failed).portErr p 2 0 0 0
    else if 3 ≤ n then (s1.enterLink p .failed).portErr p 1 0 0 0
    else s1

/-- Row TRAINING_ATTEMPT_FAIL. -/
def State.trainingAttemptFail (s : State) (p : Nat) (mismatch : Bool) : State := s.attemptFailed p mismatch

/-- Row TRAINING_COMPLETE: `lanes` are healthy in both directions at both ends; a link with none fails the attempt (R378,
R379), and so does an Ethernet port without all four, which has no lower speed (R397). In EXCHANGE the port sends what a control flit carries: address, port number, family member code and healthy lanes. A
neighbour with this device's own address leaves a link for CTRL only (R406). [DEDUCED, log entry 80; DESIGN CHOICE, log entry 162; DEDUCED, log entry 164] -/
def State.trainingComplete (s : State) (p : Nat) (lanes polInv : BitVec 4) (reversed : Bool) (neighbour nport : Nat) : State :=
  if (s.port p).link != .training || !s.portsLive then s
  else if lanes == 0#4 || ((s.port p).ether && lanes != 15#4) then s.attemptFailed p false
  else
    let s1 := s.modPort p (fun x => { x.fresh with
      lanesOk := lanes, polInv := polInv, reversed := reversed, width := (activeLanes lanes).2, tries := 0
      neighbour := if x.ether then 0 else neighbour % 2 ^ 24, neighbourPort := if x.ether then 0 else nport % 8 })
    let x := s1.port p
    let s0 := if x.ether then s1 else { s1 with wire := s1.wire ++ [x.flit p 3 0 0 0 (plainPayload 3 [s.ownAddr, p, 0x820, lanes.toNat])] }
    let s2 := s0.enterLink p .up
    if !(s.port p).ether && neighbour % 2 ^ 24 == s.ownAddr && s.ownAddr != 0 then s2.portErr p 5 0 0 0 else s2

/-- A port that was UP goes to electrical idle (R377). -/
def State.portLost (s : State) (p : Nat) : State :=
  let n := (s.port p).retry.length
  let s1 := ((s.dropRetry p).cutShort p).enterLink p .absent
  if n == 0 then s1 else s1.portErr p 4 0 0 0

/-- Row PORT_ELECTRICAL_IDLE. [DEDUCED, log entry 81] -/
def State.portElectricalIdle (s : State) (p : Nat) : State :=
  match (s.port p).link with
  | .training => s.enterLink p .absent
  | .up => s.portLost p
  | .retrain => s.portLost p
  | _ => s

/-- Row LANE_FAIL: a lane of the link fails and the port retrains on the next set (R380); with none left, lock is lost on all
lanes. An Ethernet port has no narrower width to go to (R397). [DEDUCED, log entry 164] -/
def State.laneFail (s : State) (p lane : Nat) : State :=
  let x := s.port p
  if x.link != .up || !x.lanesOk.getLsbD lane then s
  else
    let ok := x.lanesOk &&& ~~~ (1#4 <<< lane)
    let was := activeLanes x.lanesOk
    let now := activeLanes ok
    let s1 := s.modPort p (fun y => { y with lanesOk := ok })
    if !was.1.getLsbD lane then s1
    else if now.2 == 0 || x.ether then s1.portLost p
    else
      let s2 := (s1.modPort p (fun y => { y with width := now.2, replays := 0 })).enterLink p .retrain
      let s3 := if now.2 < was.2 then s2.bump 0x5021 (p + 1) 1 else s2
      s3.portErr p 3 lane 0 0

/-- The retry buffer goes out again (R383). [DEDUCED, log entry 83] -/
def State.replayAll (s : State) (p : Nat) : State :=
  let x := s.port p
  if x.retry.isEmpty then s
  else
    let s1 := { s with wire := s.wire ++ x.retry.map (fun (f : SentFlit) => x.flit p 0 f.seq 0 0 f.payload) }
    (s1.bump 0x5020 (p + 1) 1).countPort p 4 1

/-- Row PORT_RETRAIN_COMPLETE. -/
def State.portRetrainComplete (s : State) (p : Nat) : State :=
  if (s.port p).link != .retrain then s else (s.enterLink p .up).replayAll p

/-- Row PORT_RETRAIN_TIMEOUT. -/
def State.portRetrainTimeout (s : State) (p : Nat) : State :=
  if (s.port p).link != .retrain then s else (((s.dropRetry p).cutShort p).enterLink p .training).portErr p 6 0 0 0

/-- Row PORT_FAILED_RETRY. -/
def State.portFailedRetry (s : State) (p : Nat) : State :=
  if (s.port p).link != .failed || !s.portsLive then s else s.enterLink p .training

/-- The pair of a port takes the mode set for it (R375). The states of its links stand. [DEDUCED, log entry 81] -/
def State.takePairMode (s : State) (pair : Nat) : State :=
  let m := s.entry 0x5002 (pair + 1) == 1
  (s.modPort (2 * pair) (fun x => { x with ether := m, restarted := false })).modPort (2 * pair + 1) (fun x =>
    { x with ether := m, restarted := false })

/-- A new mode is set for a pair: both its ports have yet to be restarted (R375). -/
def State.pairAsked (s : State) (pair : Nat) : State :=
  (s.modPort (2 * pair) (fun x => { x with restarted := false })).modPort (2 * pair + 1) (fun x => { x with restarted := false })

/-- Do the flits of a frame lie in the receive buffer of a port? -/
def Transit.heldBy (p : Nat) (t : Transit) : Bool := match t.hold with | some h => h.port == p | none => false

/-- Flits in the receive buffer of a port, those of frames on their way included. -/
def State.rxFlits (s : State) (p : Nat) : Nat := (s.port p).rx.length + heldFlits s.ports p

/-- Row PORT_RESTART, once its write is accepted: buffers are dropped and counted, and training starts again. -/
def State.portRestart (s : State) (p : Nat) : State :=
  let x := s.port p
  let own := ((x.txq ++ x.sending.toList).map (fun t => if t.heldBy p then 0 else t.flits.length)).sum
  let n := x.retry.length + s.rxFlits p + own
  let s0 := { s with ports := s.ports.map (fun (q : Nat × Port) => (q.1, { q.2 with txq := q.2.txq.filter (fun t => !t.heldBy p) })) }
  let s1 := (((x.txq.foldl State.leaves s0).cutShort p).modPort p (fun y => { y.fresh with txq := [], rx := [], rxOld := 0, arrived := [], credits := [], restarted := true })).bump
    0x5025 (p + 1) n
  let s2 := if s.portsLive then s1.enterLink p .training else s1
  let pair := p / 2
  if (s2.port (2 * pair)).restarted && (s2.port (2 * pair + 1)).restarted then s2.takePairMode pair else s2

/-- `PORT_STATE` (R407). -/
def State.portWord (s : State) (p : Nat) : Nat :=
  let x := s.port p
  x.link.code * 2 ^ 61 + b2n x.ether * 2 ^ 60 + x.width % 4 * 2 ^ 58 + x.lanesOk.toNat * 2 ^ 54 + x.polInv.toNat * 2 ^ 50
    + b2n x.reversed * 2 ^ 49 + b2n (s.entry 0x5003 (p + 1) == 1) * 2 ^ 48 + (if x.link == .up && !x.ether then x.neighbour % 2 ^ 24 else 0) * 2 ^ 24
    + x.neighbourPort % 8 * 2 ^ 21 + x.tries % 8 * 2 ^ 18 + min x.retry.length 1023 * 2 ^ 8

end Sys2Proof.Machine
end

