-- ==== Sys2Proof/Machine/Fabric.lean ====
section
/-!
DEFINITION. The Hante link: flits, credits and replay, frames and their routes, and waggles (rows FLIT_RECEIVE to
WAGGLE_FILTER_AGE; R381–R396).
-/
namespace Sys2Proof.Machine

/-! ## Sending (R383–R385) -/

/-- Credit class of a frame (R384). -/
def Frame.creditClass (f : Frame) : Nat := if f.vc == 3 then 24 else 8 * f.vc + 2 * f.phase + b2n f.dl

/-- May a frame start on a port: it is UP, sends no other frame, and holds credits for all its flits (R385)?
[DESIGN CHOICE, log entry 85] -/
def Port.canStart (x : Port) (f : Frame) : Bool :=
  let c := f.creditClass
  x.link == .up && x.sending.isNone && decide (frameFlits f.len ≤ tabGet 0 x.credits c + (if c < 16 then tabGet 0 x.credits 31 else 0))

/-- The frame that starts next on a port: a CTRL frame first, then the VCs in turn, the oldest of each (R385). -/
def Port.nextFrame (x : Port) : Option Nat :=
  let oldest := fun (v : Nat) => (List.range x.txq.length).find? (fun i => match x.txq[i]? with | some t => t.frame.vc == v | none => false)
  let ready := fun (v : Nat) => match oldest v with
    | some i => (match x.txq[i]? with | some t => if x.canStart t.frame then some i else none | none => none)
    | none => none
  match ready 3 with
  | some i => some i
  | none => ([1, 2, 3].map (fun k => (x.lastVc + k) % 3)).findSome? ready

/-- One flit payload goes out. -/
def State.sendFlit (s : State) (p : Nat) (payload : List Byte) : State :=
  let (c, n, x) := (s.port p).takeOwed
  let s1 := s.setPort p { x with nextSeq := (x.nextSeq + 1) % 1024, retry := x.retry ++ [{ seq := x.nextSeq, payload := payload }] }
  (((({ s1 with wire := s1.wire ++ [x.flit p 0 x.nextSeq c n payload] }).countPort p 1 256).countPort p 3 1)).count (8 * (21 + 2 * p)) 256

/-- The flits at hand of the frame under way go out one after another, while fewer than 512 are unacknowledged (R383, R385). -/
def State.sendFlits (s : State) (p : Nat) : Nat → State
  | 0 => s
  | k + 1 =>
    let x := s.port p
    match x.sending with
    | none => s
    | some t => match t.flits with
      | [] => s
      | b :: rest =>
        if x.link != .up || decide (512 ≤ x.retry.length) then s
        else
          let next := if rest.isEmpty && t.more == 0 then none else some { t with flits := rest }
          (((s.setPort p { x with sending := next }).sendFlit p b).giveBack t.hold 1).sendFlits p k

/-- A frame starts on a port: its credits are taken. -/
def State.startFrame (s : State) (p i : Nat) (t : Transit) : State :=
  let n := frameFlits t.frame.len
  let c := t.frame.creditClass
  s.modPort p (fun x =>
    let own := min n (tabGet 0 x.credits c)
    { x with credits := tabSet (tabSet x.credits c (tabGet 0 x.credits c - own)) 31 (tabGet 0 x.credits 31 - (n - own))
             lastVc := if t.frame.vc == 3 then x.lastVc else t.frame.vc
             txq := x.txq.eraseIdx i, sending := some t })

/-- The frame under way, and then those that wait for the port, leave while they can. -/
def State.pump (s : State) (p : Nat) : Nat → State
  | 0 => s.sendFlits p 16
  | k + 1 =>
    let s1 := s.sendFlits p 16
    let x := s1.port p
    match x.nextFrame with
    | none => s1
    | some i => match x.txq[i]? with
      | none => s1
      | some t => (s1.startFrame p i t).pump p k

/-- The frames of a port leave while they can. -/
def State.pumpAll (s : State) (p : Nat) : State := s.pump p (s.port p).txq.length

/-- A frame waits for a port. -/
def State.queueFrame (s : State) (p : Nat) (t : Transit) : State := (s.modPort p (fun x => { x with txq := x.txq ++ [t] })).pumpAll p

/-! ## Receiving (R381–R385) -/

/-- Flits up to `ACK` have arrived. -/
def Port.acked (x : Port) (a : Nat) : Port :=
  let left := x.retry.filter (fun f => decide (512 ≤ (a + 1024 - f.seq) % 1024))
  if left.length == x.retry.length then x else { x with retry := left, replays := 0 }

/-- Row NAK_RECEIVE: a replay from `ACK` + 1; where sixteen in a row have not delivered a flit, `lane` is marked failed and the
port retrains (R383). [DEDUCED, log entry 83] -/
def State.nakReceive (s : State) (p a lane : Nat) : State :=
  let x := (s.port p).acked (a % 1024)
  if x.link != .up || x.ether then s
  else if x.retry.isEmpty then (s.setPort p x).pumpAll p
  else if 16 ≤ x.replays then (s.setPort p x).laneFail p lane
  else
    ((s.setPort p { x with replays := x.replays + 1 }).replayAll p).pumpAll p

/-- A NAK goes out, with `ACK` (R383). -/
def State.sendNak (s : State) (p : Nat) : State :=
  let x := s.port p
  let s1 := s.setPort p { x with nakSent := true }
  ({ s1 with wire := s1.wire ++ [x.flit p 2 0 0 0 (plainPayload 2 [])] }).countPort p 6 1

/-- A later DATA flit is discarded: the gap has one NAK (R383). [DEDUCED, log entry 83] -/
def State.gapFlit (s : State) (p : Nat) : State := if (s.port p).nakSent then s else s.sendNak p

/-- The content of a flit as received, and how many symbols FEC corrected; none where a codeword fails (R381). [DEDUCED, log entry 84] -/
def flitContent (wire : List Byte) : Option (List Byte × Nat) :=
  let part := fun (k : Nat) => (List.range 140).map (fun i => (wire.getD (2 * i + k) 0#8).toNat)
  match correct8 (part 0), correct8 (part 1) with
  | some a, some b =>
    let fixed := ((List.range 140).filter (fun i => a.getD i 0 != (part 0).getD i 0 )).length
      + ((List.range 140).filter (fun i => b.getD i 0 != (part 1).getD i 0)).length
    some ((List.range 132).flatMap (fun i => [BitVec.ofNat 8 (a.getD i 0), BitVec.ofNat 8 (b.getD i 0)]), fixed)
  | _, _ => none

/-- A frame that brings its flits still: one more of them is here. -/
def Transit.feed (t : Transit) (p : Nat) (payload : List Byte) : Transit :=
  if t.more != 0 && t.heldBy p then { t with flits := t.flits ++ [payload], more := t.more - 1 } else t

/-- A flit of a frame that has been routed follows it (R385): to an output, or to the frame's check; where the frame was dropped, it
leaves the buffer. -/
def State.followFlit (s : State) (p cls : Nat) (payload : List Byte) : State :=
  let takes := fun (t : Transit) => t.more != 0 && t.heldBy p
  let outs := (List.range 8).filter (fun q => ((s.port q).txq ++ (s.port q).sending.toList).any takes)
  if outs.isEmpty && !(s.port p).arrived.any takes then s.giveBack (some { port := p, cls := cls, gen := (s.port p).gen }) 1
  else
    let s1 := s.modPort p (fun x => { x with arrived := x.arrived.map (fun t => t.feed p payload) })
    outs.foldl (fun (acc : State) q => (acc.modPort q (fun x =>
      { x with txq := x.txq.map (fun t => t.feed p payload), sending := x.sending.map (fun t => t.feed p payload) })).pumpAll q) s1

/-- A DATA flit in order enters the receive buffer, behind the flits of its frame. [DEDUCED, log entry 83] -/
def State.acceptFlit (s : State) (p : Nat) (payload : List Byte) : State :=
  let x := s.port p
  let first := x.rxLeft == 0
  let fl := leAt payload 1 1
  let vc := field fl 7 6
  let c := if first then (if vc == 3 then 24 else 8 * vc + 2 * field fl 5 4 + b2n (bitAt fl 3)) else x.rxClass
  let left := if first then frameFlits (leAt payload 0xA 2) - 1 else x.rxLeft - 1
  let follows := x.rxCut && !first
  let s1 := s.setPort p { x with
    expect := (x.expect + 1) % 1024, nakSent := false, rx := if follows then x.rx else x.rx ++ [payload], rxClass := c, rxLeft := left
    rxCut := follows && left != 0, rxHeld := tabSet x.rxHeld c (tabGet 0 x.rxHeld c + 1) }
  let s2 := if follows then s1.followFlit p c payload else s1
  ((((s2.countPort p 0 256).countPort p 2 1).countPort p (7 + c) 1).count (8 * (20 + 2 * p)) 256).sendIdle p

/-- Row FLIT_RECEIVE: 280 bytes from the link; `lane` is the offending one, should a NAK end sixteen replays (R383). Each flit that
fails sends a NAK, so that a replay that fails is asked for again; a CONTROL flit belongs to bring-up (R378). -/
def State.flitReceive (s : State) (p : Nat) (bytes : List Byte) (lane : Nat) : State :=
  let x := s.port p
  if x.link != .up || x.ether || !s.portsLive || bytes.length != 280 then s
  else match flitContent bytes with
    | none => s.sendNak p
    | some (content, fixed) =>
      let h := leAt content 0 8
      let payload := content.drop 8
      let s1 := if fixed == 0 then s else s.countPort p 5 fixed
      if crc32 ((content.drop 4).take 4 ++ payload) != BitVec.ofNat 32 (field h 31 0) then s1.sendNak p
      else
        let crs := field h 36 32
        let cls := field h 41 37
        let s2 := s1.modPort p (fun y =>
          let z := y.acked (field h 53 44)
          if crs == 0 then z else { z with credits := tabSet z.credits cls (tabGet 0 z.credits cls + crs) })
        let s3 := match field h 43 42 with
          | 0 =>
            let d := (field h 63 54 + 1024 - (s2.port p).expect) % 1024
            if d == 0 then s2.acceptFlit p payload
            else if d < 512 then s2.gapFlit p
            else s2
          | 2 => s2.nakReceive p (field h 53 44) lane
          | _ => s2
        s3.pumpAll p

/-! ## Frames (R386–R389) -/

/-- Header bytes 0x00–0x3F as `E2E_CRC` sees them (R386). -/
def Frame.crcHeader (f : Frame) : List Byte :=
  bytesLE 1 f.kind ++ bytesLE 3 0 ++ bytesLE 3 f.dest ++ bytesLE 3 f.src ++ bytesLE 2 f.len ++ bytesLE 6 0 ++ bytesLE 1 f.spart
  ++ bytesLE 1 f.dpart ++ bytesLE 4 f.tag ++ bytesLE 8 f.poison ++ (f.kspec ++ List.replicate 24 0#8).take 24 ++ bytesLE 4 (f.rsv / 8)
  ++ bytesLE 4 0

/-- `E2E_CRC` of a frame (R386). -/
def Frame.e2e (f : Frame) : Nat := (crc32 (f.crcHeader ++ f.payload)).toNat

/-- `FFLAGS`. -/
def Frame.flags (f : Frame) : Nat := f.vc % 4 * 64 + f.phase % 4 * 16 + b2n f.dl * 8 + f.rsv % 8

/-- A header with the fields that change on the way as the frame has them: `FFLAGS`, `TTL`, `SR_COUNT` and `SR_PORTS`. -/
def Frame.onto (f : Frame) (h : List Byte) : List Byte :=
  h.take 1 ++ bytesLE 1 f.flags ++ bytesLE 1 f.ttl ++ bytesLE 1 f.srCount ++ (h.drop 4).take 8 ++ bytesLE 6 f.srPorts ++ h.drop 0x12

/-- The flit payloads of a frame: header, payload, zeros to the end of the last flit (R386). -/
def Frame.flits (f : Frame) : List (List Byte) :=
  let n := frameFlits f.len
  let b := f.onto (f.crcHeader.take 60 ++ bytesLE 4 f.crc) ++ f.payload
  (List.range n).map (fun i => ((b ++ List.replicate (256 * n - b.length) 0#8).drop (256 * i)).take 256)

/-- A frame from its bytes. -/
def parseFrame (b : List Byte) : Frame :=
  let fl := leAt b 1 1
  let len := leAt b 0xA 2
  { kind := leAt b 0 1, vc := field fl 7 6, phase := field fl 5 4, dl := bitAt fl 3, ttl := leAt b 2 1, srCount := leAt b 3 1
    srPorts := leAt b 0xC 6, dest := leAt b 4 3, src := leAt b 7 3, len := len, spart := leAt b 0x12 1, dpart := leAt b 0x13 1
    tag := leAt b 0x14 4, poison := leAt b 0x18 8, kspec := (b.drop 0x20).take 24, rsv := leAt b 0x38 4 * 8 + fl % 8
    crc := leAt b 0x3C 4, payload := (b.drop 64).take len }

/-- A frame on its way as a change of its header leaves it. -/
def Transit.readdress (t : Transit) (f : Frame) : Transit :=
  { t with frame := f, flits := match t.flits with | h :: rest => f.onto h :: rest | [] => [] }

/-- The kinds that are not reserved (R388). -/
def frameKinds : List Nat := [1, 2, 3, 4, 5, 6, 8, 9, 0xA, 0xB, 0xC, 0xE, 0x10]

/-- Does a frame pass the checks of its destination (R387)? -/
def Frame.passes (f : Frame) : Bool :=
  let ks := if f.kind == 1 || f.kind == 2 then leAt f.kspec 5 3 == 0 else true
  f.rsv == 0 && decide (f.srCount ≤ 16) && decide (f.len ≤ 4032) && ks && frameKinds.contains f.kind && f.payload.length == f.len
    && f.e2e == f.crc

/-- Kind, VC and tag of a message (R388). [DESIGN CHOICE, log entry 41] -/
def FabBody.meta : FabBody → Nat × Nat × Nat
  | .fanout _ _ _ _ _ _ _ => (0x08, 2, 0)
  | .bagReq _ _ _ _ _ tag => (0x09, 0, tag)
  | .gather tag _ _ _ _ _ => (0x0A, 1, tag)
  | .span _ _ => (0x0C, 2, 0)
  | .winWrite tag _ _ _ _ _ _ => (0x01, 0, tag)
  | .winRead tag _ _ _ _ _ => (0x02, 0, tag)
  | .winAck tag _ _ => (0x03, 1, tag)
  | .winData tag _ _ _ => (0x04, 1, tag)
  | .winProbe tag _ _ _ _ => (0x05, 0, tag)
  | .winProbeAck tag _ _ _ => (0x06, 1, tag)
  | .noRoute tag _ => (0x0E, 1, tag)
  | _ => (0x0B, 0, 0)

/-- The fields of a message whose places in a frame the spec does not give, its subtype first. [DESIGN CHOICE, log entry 41] -/
def FabBody.fields : FabBody → List Nat
  | .fanout launch block groupId epoch vers _ _ => [launch, block, groupId, epoch.toNat] ++ vers.flatMap (fun v => [v.1, v.2])
  | .bagReq launch block first count rank tag => [launch, block, first, count, rank, tag]
  | .gather tag rank seg row _ _ => [tag, rank, seg, row]
  | .winProbe _ part window key perm => [part, window, key, perm]
  | .winProbeAck _ check size _ => [check, size]
  | .prepare g t => [0, g, t.toNat]
  | .ready g rank t d => [1, g, rank, t.toNat, d]
  | .lowReport g rank low => [2, g, rank, low.toNat]
  | .versions g rank t l => [3, g, rank, t.toNat] ++ l.flatMap (fun v => [v.1, v.2.1, v.2.2])
  | .patchStage g src seq recs es => [4, g, src, seq] ++ recs.flatMap (fun r => [r.1, leNat r.2])
      ++ es.flatMap (fun e => [e.key.pver, e.key.src, e.key.seq, e.key.idx, e.epoch, e.table, e.row, e.mode])
  | .patchAnswer src seq rank status code => [5, src, seq, rank, status, code]
  | .patchOutcome src seq commit => [6, src, seq, b2n commit]
  | .abandon launch => [7, launch]
  | .abandonAck launch => [8, launch]
  | .patchQuery src seq asker => [9, src, seq, asker]
  | .epochRequest g t => [10, g, t.toNat]
  | .abortPublish g table tver => [11, g, table, tver]
  | _ => []

/-- Bytes of a message whose places the spec does not give. -/
def FabBody.open_ (b : FabBody) (from_ n : Nat) : List Byte := (List.range n).map (fun i => Config.frameByte b.meta.1 b.fields (from_ + i))

/-- `KSPEC` of a message (R388), sent by the device with address `own`. [DESIGN CHOICE, log entry 41] -/
def FabBody.kspec (b : FabBody) (own : Nat) : List Byte :=
  let access := fun (key window offset : Nat) => bytesLE 4 key ++ bytesLE 1 window ++ bytesLE 3 0 ++ bytesLE 8 offset
  match b with
  | .winWrite _ _ window key offset _ _ => access key window offset ++ bytesLE 8 0
  | .winRead _ _ window key offset n => access key window offset ++ bytesLE 4 n ++ bytesLE 4 0
  | .winAck _ check _ => bytesLE 24 check
  | .winData _ _ _ _ => bytesLE 24 0
  | .span _ _ => bytesLE 24 0
  | .noRoute _ kind => bytesLE 3 own ++ bytesLE 21 kind
  | b => b.open_ 0 24

/-- Payload of a message. [DESIGN CHOICE, log entry 41] -/
def FabBody.payload (b : FabBody) : List Byte :=
  match b with
  | .fanout _ _ _ _ _ bs _ => bs
  | .bagReq _ _ _ _ _ _ => b.open_ 24 32
  | .gather _ _ _ _ bs _ => bs
  | .span r _ => r
  | .winWrite _ _ _ _ _ bs _ => bs
  | .winData _ _ bs _ => bs
  | .patchStage _ _ _ _ es => es.flatMap (fun e => e.data)
  | .versions _ _ _ l => b.open_ 24 (18 * l.length)
  | _ => []

/-- The 64 B granules of a payload that carry poison (R386, R411). -/
def FabBody.poisoned (b : FabBody) : List Nat :=
  let all := fun (bs : List Byte) (po : Bool) => if po then List.range ((bs.length + 63) / 64) else []
  match b with
  | .fanout _ _ _ _ _ _ gs => gs
  | .gather _ _ _ _ bs po => all bs po
  | .span _ gs => gs
  | .winWrite _ _ _ _ _ bs po => all bs po
  | .winData _ _ bs po => all bs po
  | .patchStage _ _ _ _ es =>
    (es.foldl (fun (acc : Nat × List Nat) e =>
      (acc.1 + e.data.length, if e.poison.isEmpty || e.data.isEmpty then acc.2
        else acc.2 ++ (List.range ((acc.1 + e.data.length - 1) / 64 - acc.1 / 64 + 1)).map (fun i => acc.1 / 64 + i))) (0, [])).2
  | _ => []

/-- The partition of this device that sends a message, and that of the other device that it is for, where this device knows
them (R386). [DEDUCED, log entry 87] -/
def State.partsOf (s : State) (b : FabBody) : Option Nat × Option Nat :=
  let group := fun (id : Nat) => (s.handleOf id).bind (fun h => (s.group? h).map (fun g => g.partition))
  let launch := fun (l : Nat) => (s.launch? l).map (fun x => x.partition)
  let importer := fun (tag : Nat) => (tabFind s.winReqs tag).bind (fun r => (tabFind s.imports r.slot).map (fun i => i.partition))
  match b with
  | .winWrite tag part _ _ _ _ _ => (importer tag, some part)
  | .winRead tag part _ _ _ _ => (importer tag, some part)
  | .winProbe tag part _ _ _ => ((tabFind s.probes tag).map (fun p => (s.ctx p.context).partition), some part)
  | .winAck _ _ part => (some part, none)
  | .winData _ part _ _ => (some part, none)
  | .winProbeAck _ _ _ part => (some part, none)
  | .fanout l _ _ _ _ _ _ => (launch l, none)
  | .bagReq l _ _ _ _ _ => (launch l, none)
  | .prepare g _ => (group g, none)
  | .ready g _ _ _ => (group g, none)
  | .lowReport g _ _ => (group g, none)
  | .versions g _ _ _ => (group g, none)
  | .patchStage g _ _ _ _ => (group g, none)
  | .epochRequest g _ => (group g, none)
  | .abortPublish g _ _ => (group g, none)
  | _ => (none, none)

/-- Part `i` of a message as a frame: `PHASE` 3, `TTL` from `FRAME_TTL` (R386, R391). A partition byte that this device does not know
is open. [DEDUCED, log entry 87] -/
def State.frameOf (s : State) (m : FabMsg) (i : Nat) : Frame :=
  let (kind, vc, tag) := m.body.meta
  let (sp, dp) := s.partsOf m.body
  let part := fun (k : Nat) (o : Option Nat) => o.getD (Config.frameByte kind m.body.fields (4096 + k)).toNat
  let data := (m.body.payload.drop (4032 * i)).take 4032
  let gs := (m.body.poisoned.filter (fun g => g / 63 == i)).map (fun g => g % 63)
  let f : Frame :=
    { kind := kind, vc := vc, phase := 3, dl := false, ttl := s.entry 0x5006 0, srCount := 0, srPorts := 0, dest := m.dst, src := s.ownAddr
      len := data.length, spart := part 0 sp, dpart := part 1 dp, tag := tag % 2 ^ 32, poison := (gs.eraseDups.map (fun g => 2 ^ g)).sum
      kspec := m.body.kspec s.ownAddr, rsv := 0, crc := 0, payload := data }
  { f with crc := f.e2e }

/-- The frames of a message. -/
def State.framesOf (s : State) (m : FabMsg) : List Transit :=
  (List.range (max 1 ((m.body.payload.length + 4031) / 4032))).map (fun i =>
    let f := s.frameOf m i
    { frame := f, flits := f.flits, more := 0, hold := none, body := some m.body })

/-! ## Routes (R390–R393) -/

/-- Does a port carry frames of a VC: UP or in RETRAIN, in Hante mode, and for CTRL only where the neighbour has this device's
address (R392, R406)? -/
def State.carries (s : State) (p vc : Nat) : Bool :=
  let x := s.port p
  (x.link == .up || x.link == .retrain) && !x.ether && (vc == 3 || x.neighbour != s.ownAddr)

/-- The port a route entry gives (R392). -/
def State.pick (s : State) (e vc : Nat) : Option Nat :=
  if bitAt e 7 && s.carries (field e 6 4) vc then some (field e 6 4)
  else if bitAt e 3 && s.carries (field e 2 0) vc then some (field e 2 0)
  else none

/-- What becomes of a frame (R391). -/
inductive RouteEnd where
  | deliver
  | unreachable
  | loop
  | ttl
  | out (port : Nat) (f : Frame)
deriving DecidableEq, Repr

/-- The highest tier at which two addresses differ. -/
def highTier (a b : Nat) : Nat := if a / 65536 != b / 65536 then 2 else if a / 256 != b / 256 then 1 else 0

/-- The entry of a route table. -/
def State.routeEntry (s : State) (t dest : Nat) : Nat := s.entry (0x5010 + t) (dest / 256 ^ t % 256)

/-- The last lines of R391: tier, dateline and hops. -/
def State.leaveBy (s : State) (f : Frame) (p t : Nat) (forwarding : Bool) : RouteEnd :=
  let dl1 := if t != f.phase then false else f.dl
  let dl2 := dl1 || s.entry 0x5003 (p + 1) == 1
  if forwarding && f.ttl ≤ 1 then .ttl
  else .out p { f with dl := dl2, phase := t, ttl := if forwarding then f.ttl - 1 else f.ttl }

/-- R391. [DEDUCED, log entry 82] -/
def State.routeFrame (s : State) (f : Frame) (forwarding : Bool) : RouteEnd :=
  if s.ownAddr == 0 && f.vc != 3 then .unreachable
  else if f.srCount != 0 then
    let p := f.srPorts % 8
    if !s.carries p f.vc then .unreachable
    else s.leaveBy { f with srPorts := f.srPorts / 8, srCount := f.srCount - 1 } p 3 forwarding
  else if f.dest == s.ownAddr then .deliver
  else
    let t := highTier f.dest s.ownAddr
    if f.phase < t && f.phase != 3 then .loop
    else match s.pick (s.routeEntry t f.dest) f.vc with
      | none => .unreachable
      | some p => s.leaveBy f p t forwarding

/-- `NOROUTE` to the source of a dropped REQ or FAN frame (R393). -/
def State.sendNoRoute (s : State) (f : Frame) : State :=
  if f.vc == 0 || f.vc == 2 then
    let m : FabMsg := { dst := f.src, body := .noRoute f.tag f.kind }
    { s with fabricOut := s.fabricOut ++ [m] }
  else s

/-- A frame for this device has its check passed, or has failed it: it is handed over, or dropped (R387). A window requester takes
`NOROUTE` as a refusal at check 1 (R393). -/
def State.takeFrame (s : State) (f : Frame) : State :=
  if !f.passes then s.bump 0x5026 0 1
  else
    let s1 := { s with delivered := s.delivered ++ [f] }
    if f.kind == 0x0E then (s1.windowResponse f.tag 1 [] false).probeAnswerReceive f.tag 1 0 else s1

/-- A frame for which there is no route is dropped (R393). -/
def State.unreachable (s : State) (t : Transit) : State := ((s.leaves t).bump 0x5022 0 1).sendNoRoute t.frame

/-- The oldest frame that waits for a port that no longer carries it is routed again, at its tier (R389, R392). [DEDUCED, log entry 82] -/
def State.reroute (s : State) (p : Nat) : State :=
  let x := s.port p
  match x.txq with
  | [] => s
  | t :: rest =>
    let f := t.frame
    if s.carries p f.vc then s
    else
      let s1 := s.setPort p { x with txq := rest }
      if f.kind == 0x10 then s1.bump 0x5027 0 1
      else if f.phase == 3 then s1.unreachable t
      else match s1.pick (s1.routeEntry f.phase f.dest) f.vc with
        | some q => s1.queueFrame q (t.readdress { f with dl := f.dl || s1.entry 0x5003 (q + 1) == 1 })
        | none => s1.unreachable t

/-- Frames that wait for ports that went down take their alternate routes before a newer frame does, so that the order of each VC holds
(R389). [DEDUCED, log entry 82] -/
def State.rerouteAll (s : State) : State :=
  (List.range 8).foldl (fun (acc : State) p => (List.range (acc.port p).txq.length).foldl (fun (z : State) _ => z.reroute p) acc) s

/-- A routed frame leaves, is delivered or is dropped; `from` is the port it came in by. [DESIGN CHOICE, log entry 86] -/
def State.dispose (s : State) (t : Transit) (from_ : Option Nat) (e : RouteEnd) : State :=
  let f := t.frame
  match e with
  | .deliver => match from_ with
    | some p => s.modPort p (fun x => { x with arrived := x.arrived ++ [t] })
    | none => (s.leaves t).takeFrame f
  | .unreachable => s.unreachable t
  | .ttl => ((s.leaves t).bump 0x5023 0 1).sendNoRoute f
  | .loop =>
    let s1 := (s.leaves t).bump 0x5024 0 1
    (match from_ with | some p => s1.portErr p 7 0 0 f.dest | none => s1).sendNoRoute f
  | .out p g =>
    let s1 := s.rerouteAll
    (match from_ with | some q => s1.countPort q 32 1 | none => s1).queueFrame p (t.readdress g)

/-- A waggle's copy for a port, one hop further (R395). `HOPS` is under `E2E_CRC`, which is computed anew. [DEDUCED, log entry 88] -/
def Frame.hopped (f : Frame) : Frame :=
  let g := { f with ttl := f.ttl - 1, payload := f.payload.set 1 (f.payload.getD 1 0#8 + 1#8) }
  { g with crc := g.e2e }

/-- A frame that this device sends of itself. -/
def Frame.transit (f : Frame) : Transit := { frame := f, flits := f.flits, more := 0, hold := none, body := none }

/-- Are the RSV bytes of a waggle's payload zero, and its length right (R394)? [DEDUCED, log entry 88] -/
def waggleOk (b : List Byte) : Bool :=
  b.length == 48 && leAt b 7 1 == 0 && (match leAt b 0 1 with
    | 1 => leAt b 0x14 4 == 0 && leAt b 0x28 8 == 0
    | 2 => leAt b 0x14 4 == 0 && leAt b 0x28 8 == 0
    | 3 => allZero (b.drop 0x15)
    | _ => true)

/-- A waggle's payload with its `STAMP`: the device counter at send (R394). -/
def stamped (b : List Byte) (t : Nat) : List Byte := b.take 8 ++ bytesLE 8 t ++ b.drop 16

/-- May waggles leave by a port (R395)? -/
def State.waggleOut (s : State) (p : Nat) : Bool :=
  let x := s.port p
  x.link == .up && !x.ether && bitAt (s.entry 0x5005 0) p

/-- The frame of a waggle this device originates (R394). -/
def State.waggleFrame (s : State) (payload : List Byte) : Frame :=
  let f : Frame := { kind := 0x10, vc := 3, phase := 3, dl := false, ttl := s.entry 0x5006 0, srCount := 0, srPorts := 0, dest := 0xFFFFFF,
                     src := s.ownAddr, len := 48, spart := 0, dpart := 0, tag := 0, poison := 0, kspec := List.replicate 24 0#8, rsv := 0, crc := 0
                     payload := payload }
  { f with crc := f.e2e }

/-- A pair enters the waggle filter: the 1,024 most recent (R395). -/
def State.filterAdd (s : State) (origin seq : Nat) : State :=
  let l := s.filter ++ [(origin, seq, s.time)]
  { s with filter := l.drop (l.length - 1024) }

/-- A frame at the front of a receive buffer is on its way, with the flits of it that are here; the others follow it (R385). -/
def State.frontFrame (s : State) (p n : Nat) : Transit × State :=
  let x := s.port p
  let here := x.rx.take n
  let f := parseFrame (here.flatMap (fun (b : List Byte) => b))
  ({ frame := f, flits := here, more := n - here.length, body := none
     hold := if x.rxOld == 0 then some { port := p, cls := f.creditClass, gen := x.gen } else none },
   s.setPort p { x with rx := x.rx.drop n, rxOld := x.rxOld - n, rxCut := decide (here.length < n) })

/-- Row FRAME_ROUTE: a frame is routed as soon as its header is here (R385). [DEDUCED, log entry 82; DEDUCED, log entry 87] -/
def State.frameRoute (s : State) (r : RouteFrom) : State :=
  if !s.portsLive then s
  else match r with
  | .own => match s.fabricOut with
    | [] => s
    | m :: rest =>
      (s.framesOf m).foldl (fun (acc : State) t => acc.dispose t none (acc.routeFrame t.frame false)) { s with fabricOut := rest }
  | .waggle => match s.wagglesOut with
    | [] => s
    | w :: rest =>
      let soon := match s.waggleAt with | some t => decide ((s.time - t).toNat < 1000) | none => false
      if soon then s
      else
        let s1 := ({ s with wagglesOut := rest, waggleAt := some s.time }).filterAdd (leAt w 4 3) (leAt w 2 2)
        let f := s1.waggleFrame (stamped w s.time.toNat)
        ((List.range 8).filter s1.waggleOut).foldl (fun (acc : State) p => acc.queueFrame p f.transit) s1
  | .port p =>
    (match (s.port p).rx with
     | [] => s
     | h :: _ =>
       let (t, s1) := s.frontFrame p (frameFlits (leAt h 0xA 2))
       if t.frame.kind == 0x10 && t.frame.dest == 0xFFFFFF then s1.dispose t (some p) .deliver
       else s1.dispose t (some p) (s1.routeFrame t.frame true))
  | .waiting p => s.reroute p

/-- Does the fan-out staging refuse a frame, so that the port withholds its credit (R217, R276)? -/
def State.fanFull (s : State) (f : Frame) : Bool :=
  f.vc == 2 && (s.fanStages.any (fun x => x.held) || !s.spanPort.isEmpty || decide (stagingBytes < s.stagingUsed + f.len))

/-- A frame whose flits are all here, as received. -/
def Transit.whole (t : Transit) : Frame := parseFrame (t.flits.flatMap (fun (b : List Byte) => b))

/-- Row FRAME_DELIVER: the oldest frame for this device that is here whole, and whose staging has room, leaves the receive buffer, is
checked and is handed over (R384, R387). [DESIGN CHOICE, log entry 86] -/
def State.frameDeliver (s : State) (p : Nat) : State :=
  let x := s.port p
  match x.arrived.find? (fun t => t.frame.kind != 0x10 && t.more == 0 && !s.fanFull t.frame) with
  | none => s
  | some t => ((s.setPort p { x with arrived := x.arrived.erase t }).leaves t).takeFrame t.whole

/-! ## Waggles (R394–R396) -/

/-- Is a pair in the filter, and not older than 10 ms? -/
def State.filtered (s : State) (origin seq : Nat) : Bool :=
  s.filter.any (fun (e : Nat × Nat × DWord) => e.1 == origin && e.2.1 == seq && decide ((s.time - e.2.2).toNat ≤ 10000000))

/-- What a waggle asks for (R396); the arrival port notes its own counter value at a TRIGGER. [DEDUCED, log entry 88] -/
def State.waggleAct (s : State) (p : Nat) (b : List Byte) : State :=
  match leAt b 0 1 with
  | 1 => s.epochWaggle (leAt b 0x10 4) (leAt b 4 3) (BitVec.ofNat 64 (leAt b 0x18 8)) (BitVec.ofNat 64 (leAt b 0x20 8))
  | 2 => s.epochWaggle (leAt b 0x10 4) (leAt b 4 3) (BitVec.ofNat 64 (leAt b 0x18 8)) (BitVec.ofNat 64 (leAt b 0x20 8))
  | 3 =>
    let s1 := { s with tracer := { s.tracer with arrival := some (p, (s.islandTime (islandPort p)).toNat, leAt b 8 8, leAt b 1 1) } }
    s1.fireTrigger 1 (leAt b 0x14 1) (leAt b 0x10 4)
  | _ => s

/-- Row WAGGLE_RECEIVE: the oldest waggle that a port received. [DEDUCED, log entry 88] -/
def State.waggleReceive (s : State) (p : Nat) : State :=
  let x := s.port p
  match x.arrived.find? (fun t => t.frame.kind == 0x10 && t.more == 0) with
  | none => s
  | some t =>
    let s1 := (s.setPort p { x with arrived := x.arrived.erase t }).leaves t
    let f := t.whole
    let b := f.payload
    let origin := leAt b 4 3
    let seq := leAt b 2 2
    if !f.passes || !waggleOk b then s1.bump 0x5026 0 1
    else if s1.filtered origin seq then s1
    else
      let s2 := (s1.filterAdd origin seq).waggleAct p b
      let outs := (List.range 8).filter (fun q => q != p && s2.waggleOut q)
      if f.ttl ≤ 1 then (if outs.isEmpty then s2 else s2.bump 0x5023 0 1)
      else outs.foldl (fun (acc : State) q => acc.queueFrame q f.hopped.transit) s2

/-- Row WAGGLE_CREDIT_TIMEOUT: the oldest waggle that waits for a CTRL credit of a port is dropped. -/
def State.waggleCreditTimeout (s : State) (p : Nat) : State :=
  let x := s.port p
  match x.txq.find? (fun t => t.frame.kind == 0x10) with
  | none => s
  | some t =>
    if x.link == .up && decide (frameFlits t.frame.len ≤ tabGet 0 x.credits 24) then s
    else (s.setPort p { x with txq := x.txq.erase t }).bump 0x5027 0 1

/-- Row WAGGLE_FILTER_AGE: pairs older than 10 ms leave the filter. -/
def State.waggleFilterAge (s : State) : State :=
  { s with filter := s.filter.filter (fun (e : Nat × Nat × DWord) => decide ((s.time - e.2.2).toNat ≤ 10000000)) }

end Sys2Proof.Machine
end

