-- ==== Sys2Proof/Machine/Roce.lean ====
section
/-!
DEFINITION. Ethernet mode: frames, the RoCEv2 responder, congestion control and queue pairs (rows ETH_FRAME_RECEIVE to
QP_DESTROY; R397–R405).
-/
namespace Sys2Proof.Machine

/-! ## Ethernet frames (R398) -/

/-- Big-endian number of `n` bytes at an offset. -/
def beAt (b : List Byte) (off n : Nat) : Nat := beNat ((b.drop off).take n)

/-- The VLAN identifier of a frame; 0xFFFF where it has no tag. -/
def ethVlan (b : List Byte) : Nat := if beAt b 12 2 == 0x8100 then beAt b 14 2 % 4096 else 0xFFFF

/-- What an Ethernet frame is to a port. [DESIGN CHOICE, log entry 92] -/
inductive EthKind where
  | arp | solicit | roce | other
deriving DecidableEq, Repr

/-- Sort a frame without its FCS, by what R398 handles. [DESIGN CHOICE, log entry 92; DEDUCED, log entry 93] -/
def State.ethKind (s : State) (p : Nat) (b : List Byte) : EthKind :=
  let mac := s.blob 0x5103 (p + 1) 6
  let mine := b.take 6 == mac || bitAt (leAt b 0 1) 0
  let tagged := beAt b 12 2 == 0x8100
  let type := if tagged then beAt b 16 2 else beAt b 12 2
  let d := b.drop (if tagged then 18 else 14)
  let v4 := s.entry 0x5102 (p + 1)
  let v6 := s.blob 0x5101 (p + 1) 16
  let ihl := 4 * (leAt d 0 1 % 16)
  let home := ethVlan b == s.entry 0x5104 (p + 1)
  if !mine || decide (4196 < b.length) then .other
  else if type == 0x0806 then
    if home && beAt d 0 2 == 1 && beAt d 2 2 == 0x0800 && beAt d 6 2 == 1 && v4 != 0 && beAt d 24 4 == v4 then .arp else .other
  else if type == 0x86DD then
    if home && beAt d 6 1 == 58 && beAt d 40 1 == 135 && !allZero v6 && (d.drop 48).take 16 == v6 then .solicit
    else if beAt d 6 1 == 17 && beAt d 42 2 == 4791 then .roce else .other
  else if type == 0x0800 then
    if leAt d 0 1 / 16 == 4 && beAt d 9 1 == 17 && beAt d (ihl + 2) 2 == 4791 then .roce else .other
  else .other

/-- An Ethernet frame of a port, in the port's VLAN (R398), padded to the least length. [DEDUCED, log entry 164; PRESUMED, log entry 165] -/
def State.ethFrame (s : State) (p : Nat) (dst : List Byte) (type : Nat) (d : List Byte) : EthOut :=
  let v := s.entry 0x5104 (p + 1)
  let b := dst ++ s.blob 0x5103 (p + 1) 6 ++ (if v == 0xFFFF then [] else bytesBE 2 0x8100 ++ bytesBE 2 v) ++ bytesBE 2 type ++ d
  .frame p (b ++ List.replicate (60 - b.length) 0#8)

/-- The answer to an ARP request for the port's IPv4 address. [PRESUMED, log entry 165] -/
def State.arpReply (s : State) (p : Nat) (b : List Byte) : EthOut :=
  let d := b.drop (if beAt b 12 2 == 0x8100 then 18 else 14)
  s.ethFrame p ((d.drop 8).take 6) 0x0806
    (bytesBE 2 1 ++ bytesBE 2 0x0800 ++ bytesBE 1 6 ++ bytesBE 1 4 ++ bytesBE 2 2 ++ s.blob 0x5103 (p + 1) 6 ++ bytesBE 4 (s.entry 0x5102 (p + 1))
      ++ (d.drop 8).take 10)

/-- The 16-bit ones' complement sum of bytes. [PRESUMED, log entry 165] -/
def onesSum (b : List Byte) : Nat :=
  let sum := ((List.range ((b.length + 1) / 2)).map (fun i => beAt (b ++ [0#8]) (2 * i) 2)).sum
  65535 - (if sum = 0 then 0 else (sum - 1) % 65535 + 1)

/-- A neighbour advertisement for an address at a MAC address: the IPv6 packet, to the solicitation's source, or to all nodes where
it has none. [PRESUMED, log entry 165] -/
def neighbourAdvert (own mac peer : List Byte) : List Byte :=
  let none_ := allZero peer
  let dst := if none_ then allNodes else peer
  let icmp := fun (sum : Nat) => [136#8, 0#8] ++ bytesBE 2 sum ++ [if none_ then 0x20#8 else 0x60#8, 0#8, 0#8, 0#8] ++ own ++ [2#8, 1#8] ++ mac
  let sum := onesSum (own ++ dst ++ bytesBE 4 32 ++ bytesBE 4 58 ++ icmp 0)
  [0x60#8, 0#8, 0#8, 0#8] ++ bytesBE 2 32 ++ [58#8, 255#8] ++ own ++ dst ++ icmp sum

/-- The answer to a neighbour solicitation for the port's IPv6 address. [PRESUMED, log entry 165] -/
def State.nsReply (s : State) (p : Nat) (b : List Byte) : EthOut :=
  let src := ((b.drop (if beAt b 12 2 == 0x8100 then 18 else 14)).drop 8).take 16
  s.ethFrame p (if allZero src then [0x33#8, 0x33#8, 0#8, 0#8, 0#8, 1#8] else (b.drop 6).take 6) 0x86DD
    (neighbourAdvert (s.blob 0x5101 (p + 1) 16) (s.blob 0x5103 (p + 1) 6) src)

/-- Row ETH_FRAME_RECEIVE: a frame without its FCS, and whether the FCS was right. A port answers in its own VLAN alone.
[DEDUCED, log entry 164] -/
def State.ethFrameReceive (s : State) (p : Nat) (b : List Byte) (fcsOk : Bool) : State :=
  let x := s.port p
  if x.link != .up || !x.ether || !s.portsLive then s
  else if !fcsOk then s.bump 0x5121 0 1
  else match s.ethKind p b with
    | .arp => { s with ethOut := s.ethOut ++ [s.arpReply p b] }
    | .solicit => { s with ethOut := s.ethOut ++ [s.nsReply p b] }
    | .roce => { s with ethOut := s.ethOut ++ [EthOut.toEngine p b] }
    | .other => s.bump 0x5121 0 1

/-! ## Queue pairs (R400) -/

def State.setQp (s : State) (q : Nat) (x : Qp) : State := { s with qps := tabSet s.qps q x }

/-- Line rate in Mb/s (R397). -/
def lineRate : Nat := 800000

/-- Is a `QP_CREATE` block in range (R400)? -/
def State.qpOk (s : State) (b : List Byte) : Bool :=
  let slots := leAt b 0x34 2
  let size := leAt b 0x36 2
  let off := leAt b 0x30 4
  let vlan := leAt b 0x14 2
  let rsv := leAt b 0x17 1 == 0 && leAt b 0x1E 2 == 0 && leAt b 0x38 8 == 0 && leAt b 3 1 / 8 == 0 && leAt b 0x16 1 / 64 == 0
  let nums := decide (leAt b 0 2 < 4096) && decide (leAt b 2 1 < 8) && decide (leAt b 4 1 < 16) && decide (leAt b 5 1 < 3)
    && decide (leAt b 8 4 < 2 ^ 24) && decide (leAt b 0xC 4 < 2 ^ 24) && decide (leAt b 0x10 4 < 2 ^ 24)
    && (decide (vlan ≤ 4094) || vlan == 0xFFFF) && off % 64 == 0
    && (log2Exact slots).isSome && decide (64 ≤ slots) && decide (slots ≤ 4096) && decide (256 ≤ size) && decide (size ≤ 4096) && size % 64 == 0
  b.length == 64 && rsv && nums && (s.port (leAt b 2 1)).ether && (match tabFind s.regions (leAt b 6 2) with
    | some r => r.kind == 2 && (s.ctx r.context).partition == leAt b 4 1 && decide (off + 64 + 32 * slots + slots * size ≤ r.size)
    | none => false)

/-- Row QP_CREATE, once its write is accepted: a device status and the state. -/
def State.qpCreate (s : State) (b : List Byte) : Nat × State :=
  let q := leAt b 0 2
  if !s.qpOk b then (stIllegalOp, s)
  else if (tabFind s.qps q).isSome then (stBusy, s)
  else
    let x : Qp := { port := leAt b 2 1, flags := leAt b 3 1, partition := leAt b 4 1, pmtu := leAt b 5 1, region := leAt b 6 2,
                    destQpn := leAt b 8 4, psnRx := leAt b 0xC 4, psnFirst := leAt b 0xC 4, psnTx := leAt b 0x10 4, vlan := leAt b 0x14 2, dscp := leAt b 0x16 1,
                    mac := (b.drop 0x18).take 6, ip := (b.drop 0x20).take 16, ringOff := leAt b 0x30 4, slots := leAt b 0x34 2,
                    slotSize := leAt b 0x36 2, error := false, rate := lineRate, rateAt := s.time, cnpSent := none, gap := false, arrived := 0#64, msg := none }
    (stOk, s.setQp q x)

/-- Row QP_DESTROY, once its write is accepted. [DEDUCED, log entry 93] -/
def State.qpDestroy (s : State) (q : Nat) : Nat × State :=
  if (tabFind s.qps q).isNone then (stIllegalOp, s) else (stOk, { s with qps := tabErase s.qps q })

/-! ## Answers (R401) -/

/-- AETH syndromes: acknowledgement, and the NAK codes. [PRESUMED, log entry 90] -/
def synAck : Nat := 0x1F
/-- [PRESUMED, log entry 90] -/
def synSequence : Nat := 0x60
/-- [PRESUMED, log entry 90] -/
def synInvalid : Nat := 0x61
/-- [PRESUMED, log entry 90] -/
def synAccess : Nat := 0x62
/-- [PRESUMED, log entry 90] -/
def synOperational : Nat := 0x63

/-- A packet of a QP, that answers the request with PSN `psn`: `PSN_TX` answers the first packet expected, and the others follow in
step (R400). It leaves marked ECT(0) (R403). [DEDUCED, log entry 91] -/
def Qp.packet (x : Qp) (psn : Nat) (body : RoceBody) : EthOut :=
  .packet { port := x.port, vlan := x.vlan, v6 := bitAt x.flags 2, dscp := x.dscp, ecn := 2, mac := x.mac, ip := x.ip, destQpn := x.destQpn
            psn := (psn + x.psnTx + 2 ^ 24 - x.psnFirst) % 2 ^ 24, body := body }

/-- A QP sends a packet. -/
def State.roceOut (s : State) (x : Qp) (psn : Nat) (body : RoceBody) : State := { s with ethOut := s.ethOut ++ [x.packet psn body] }

/-- A NAK: counted, recorded and sent; the QP enters ERROR or not. [PRESUMED, log entry 90] -/
def State.roceNak (s : State) (q : Nat) (x : Qp) (psn syn : Nat) (fatal : Bool) : State :=
  let s1 := s.setQp q { x with error := x.error || fatal, msg := if fatal then none else x.msg }
  ((s1.bump 0x5120 0 1).portErr x.port 0x10 0 q syn).roceOut x psn (.ack syn)

/-- An acknowledgement. -/
def State.roceAck (s : State) (x : Qp) (psn : Nat) : State := s.roceOut x psn (.ack synAck)

/-! ## The arrival ring (R402) -/

/-- Virtual address of the ring. -/
def Qp.ring (x : Qp) (r : Region) : Nat := r.base + x.ringOff
/-- Virtual address of the SEND slot of arrival `n`. -/
def Qp.slotVa (x : Qp) (r : Region) (n : Nat) : Nat := x.ring r + 64 + 32 * x.slots + n % x.slots * x.slotSize

/-- Is the ring full? -/
def State.ringFull (s : State) (x : Qp) (r : Region) : Bool :=
  match s.vread r.context .read (x.ring r + 8) 8 with
  | .ok b _ _ => (x.arrived - BitVec.ofNat 64 (leNat b)).toNat == x.slots
  | _ => true

/-- The record of arrival `ARRIVED`, and `ARRIVED` raised. -/
def State.arrive (s : State) (q : Nat) (x : Qp) (r : Region) (opcode imm len va : Nat) : State :=
  let n := x.arrived.toNat
  let rec_ := bytesLE 1 opcode ++ bytesLE 3 0 ++ bytesLE 4 imm ++ bytesLE 4 len ++ bytesLE 4 0 ++ bytesLE 8 va ++ bytesLE 8 n
  let s1 := s.vwrite r.context (x.ring r + 64 + 32 * (n % x.slots)) rec_ false
  (s1.vwrite r.context (x.ring r) (bytesLE 8 (n + 1)) false).setQp q { x with arrived := x.arrived + 1#64, msg := none }

/-! ## The responder (R401–R405) -/

/-- A live key's region, for a QP's partition and a range (R401). -/
def State.keyRegion (s : State) (x : Qp) (rkey va len : Nat) : Option Region :=
  match tabFind s.regions (rkey / 2 ^ 20) with
  | some r => if r.kind == 2 && r.rkey == rkey && (s.ctx r.context).partition == x.partition && decide (r.base ≤ va)
                  && decide (va + len ≤ r.base + r.size) then some r else none
  | none => none

/-- Bytes of a packet of a path MTU. -/
def Qp.mtu (x : Qp) : Nat := 1024 * 2 ^ x.pmtu

/-- The response packets of a READ, up to a poisoned granule, which ends it (R405). -/
def State.readResponses (s : State) (q : Nat) (x : Qp) (r : Region) (va len psn : Nat) : Nat → State
  | 0 => s
  | k + 1 =>
    let n := min x.mtu len
    match s.vread r.context .read va n with
    | .ok b false _ =>
      let s1 := (s.roceOut x psn (.readResponse b)).count (8 * (21 + 2 * x.port)) n
      if len ≤ n then s1 else s1.readResponses q x r (va + n) (len - n) ((psn + 1) % 2 ^ 24) k
    | .ok _ true _ => (s.roceNak q x psn synOperational true).bump 0x5124 0 1
    | _ => s.roceNak q x psn synAccess true

/-- Packets of a READ's response. -/
def Qp.readPackets (x : Qp) (len : Nat) : Nat := max 1 ((len + x.mtu - 1) / x.mtu)

/-- A READ request is answered; one inside a message, or over 16 MiB, is an invalid request. A repeated one leaves the gap that a NAK
asked to fill (R401). [DEDUCED, log entry 91] -/
def State.roceRead (s : State) (q : Nat) (x : Qp) (psn va rkey len : Nat) : State :=
  let next := psn == x.psnRx
  if decide (2 ^ 24 < len) || (next && x.msg.isSome) then s.roceNak q x psn synInvalid true
  else match (if bitAt x.flags 1 then s.keyRegion x rkey va len else none) with
    | none => s.roceNak q x psn synAccess true
    | some r =>
      let n := x.readPackets len
      let y := { x with psnRx := if next then (x.psnRx + n) % 2 ^ 24 else x.psnRx, gap := x.gap && !next }
      (s.setQp q y).readResponses q y r va len psn n

/-- Does a packet fit its place in a message: a First or Only opens one, a Middle or Last goes on with it, and all but the last
are of the path MTU (R399)? [PRESUMED, log entry 90] -/
def Qp.fits (x : Qp) (first last : Bool) (n : Nat) : Bool := first == x.msg.isNone && (if last then decide (n ≤ x.mtu) else n == x.mtu)

/-- A packet of a SEND message in sequence. [DEDUCED, log entry 91] -/
def State.roceSend (s : State) (q : Nat) (x : Qp) (first last : Bool) (imm : Option Nat) (b : List Byte) : State :=
  let m : Option QpMsg := if first then some { write := false, rkey := 0, va := 0, done := 0, total := 0 } else x.msg
  match m, tabFind s.regions x.region with
  | some w, some r =>
    let total := w.done + b.length
    if w.write || !x.fits first last b.length then s.roceNak q x x.psnRx synInvalid true
    else if x.slotSize < total then s.roceNak q x x.psnRx synInvalid true
    else if s.ringFull x r then s.roceNak q x x.psnRx (0x20 + s.entry 0x5115 0 % 32) false
    else
      let va := x.slotVa r x.arrived.toNat
      let s1 := s.vwrite r.context (va + w.done) b false
      let y := { x with psnRx := (x.psnRx + 1) % 2 ^ 24, gap := false, msg := some { w with va := va, done := total } }
      let s2 := if last then s1.arrive q y r (match imm with | some _ => 1 | none => 0) (imm.getD 0) total va else s1.setQp q y
      (s2.roceAck x x.psnRx).count (8 * (20 + 2 * x.port)) b.length
  | _, _ => s.roceNak q x x.psnRx synInvalid true

/-- A packet of a WRITE message in sequence. [DEDUCED, log entry 91] -/
def State.roceWrite (s : State) (q : Nat) (x : Qp) (first last : Bool) (imm : Option Nat) (va rkey len : Nat) (b : List Byte) : State :=
  let m : Option QpMsg := if first then some { write := true, rkey := rkey, va := va, done := 0, total := len } else x.msg
  match m with
  | none => s.roceNak q x x.psnRx synInvalid true
  | some w =>
    let short := if last then w.total != w.done + b.length else decide (w.total < w.done + b.length)
    if !w.write || !x.fits first last b.length || short then s.roceNak q x x.psnRx synInvalid true
    else match (if bitAt x.flags 0 then s.keyRegion x w.rkey w.va w.total else none), tabFind s.regions x.region with
      | some r, some ring =>
        if last && imm.isSome && s.ringFull x ring then s.roceNak q x x.psnRx (0x20 + s.entry 0x5115 0 % 32) false
        else
          let s1 := s.vwrite r.context (w.va + w.done) b false
          let y := { x with psnRx := (x.psnRx + 1) % 2 ^ 24, gap := false, msg := if last then none else some { w with done := w.done + b.length } }
          let s2 := match last, imm with
            | true, some i => s1.arrive q y ring 2 i (w.done + b.length) w.va
            | _, _ => s1.setQp q y
          (s2.roceAck x x.psnRx).count (8 * (20 + 2 * x.port)) b.length
      | _, _ => s.roceNak q x x.psnRx synAccess true

/-- A CE mark makes the engine send a CNP, at most one in `CNP_GAP_US` (R403). -/
def State.answerCe (s : State) (q : Nat) (x : Qp) : State :=
  let due := match x.cnpSent with | some t => decide (1000 * s.entry 0x5112 0 ≤ (s.time - t).toNat) | none => true
  if due then ((s.roceOut x x.psnRx .cnp).setQp q { x with cnpSent := some s.time }).bump 0x5122 0 1 else s

/-- Row ROCE_PACKET. [DEDUCED, log entry 91; DESIGN CHOICE, log entry 92] -/
def State.rocePacket (s : State) (p : Nat) (k : RocePkt) : State :=
  let q := k.qpn - 0x100000
  match (if k.intact && decide (0x100000 ≤ k.qpn) then tabFind s.qps q else none) with
  | none => if (s.port p).link == .up && (s.port p).ether && s.running then s.bump 0x5121 0 1 else s
  | some x0 =>
    if x0.port != p then s.bump 0x5121 0 1
    else if x0.error || (s.port p).link != .up || !s.running then s
    else
      let s1 := if k.ce then s.answerCe q x0 else s
      let x := (tabFind s1.qps q).getD x0
      let d := (k.psn + 2 ^ 24 - x.psnRx) % 2 ^ 24
      if 2 ^ 23 ≤ d then
        match k.op with
        | .read va rkey len => s1.roceRead q x k.psn va rkey len
        | _ => s1.roceAck x ((x.psnRx + 2 ^ 24 - 1) % 2 ^ 24)
      else if d != 0 then (if x.gap then s1 else s1.roceNak q { x with gap := true } x.psnRx synSequence false)
      else match k.op with
        | .unsupported => s1.roceNak q x x.psnRx synInvalid true
        | .read va rkey len => s1.roceRead q x x.psnRx va rkey len
        | .send f l i b => s1.roceSend q x f l i b
        | .write f l i va rkey len b => s1.roceWrite q x f l i va rkey len b

/-- Row CNP_RECEIVE: the QP's rate is cut (R403). -/
def State.cnpReceive (s : State) (p qpn : Nat) : State :=
  let q := qpn - 0x100000
  match (if 0x100000 ≤ qpn then tabFind s.qps q else none) with
  | none => s
  | some x =>
    if x.port != p || !s.running then s
    else (s.setQp q { x with rate := max (s.entry 0x5114 0) (x.rate * (256 - s.entry 0x5113 0) / 256), rateAt := s.time }).bump 0x5123 0 1

/-- Row RATE_RECOVER: `RECOVER_US` have passed without a CNP since the rate was last cut or raised (R403). -/
def State.rateRecover (s : State) (q : Nat) : State :=
  match tabFind s.qps q with
  | none => s
  | some x =>
    if (s.time - x.rateAt).toNat < 1000 * s.entry 0x5116 0 then s
    else s.setQp q { x with rate := min lineRate (x.rate + s.entry 0x5117 0), rateAt := s.time }

end Sys2Proof.Machine
end

