-- ==== Sys2Proof/Machine/Sign.lean ====
section
/-!
DEFINITION. The signature checks of images and sessions: RSASSA-PSS under PKCS#1 v2.2 with SHA-384, MGF1-SHA-384 and a 48 B salt,
and SLH-DSA-SHA2-192s under FIPS 205 in pure mode with an empty context string (R478, R489). The manual names the standards;
their algorithms are taken from these.
-/
namespace Sys2Proof.Machine

/-! ## SHA-512 and SHA-256 -/

/-- SHA-512: 64 bytes. [PRESUMED, log entry 171] -/
def sha512 (bs : List Byte) : List Byte :=
  let len := bs.length
  let n := (len + 17 + 127) / 128
  let padded := bs ++ [0x80#8] ++ List.replicate (128 * n - len - 17) 0#8 ++ bytesBE 16 (8 * len)
  (shaBlocks n (((primesTo 19).take 8).map (rootFraction 2)) padded).flatMap (bytesBE 8)

/-- Rotate a 32-bit word right. -/
def ror32 (x n : Nat) : Nat := (x >>> n) ||| (x <<< (32 - n)) % 2 ^ 32

/-- Extend the schedule of a SHA-256 block by `n` words; `w` holds the last sixteen, oldest first. -/
def sha256Schedule : Nat → List Nat → List Nat
  | 0, _ => []
  | n + 1, w =>
    let s0 := let x := w.getD 1 0
              ror32 x 7 ^^^ ror32 x 18 ^^^ (x >>> 3)
    let s1 := let x := w.getD 14 0
              ror32 x 17 ^^^ ror32 x 19 ^^^ (x >>> 10)
    let x := (s1 + w.getD 9 0 + s0 + w.getD 0 0) % 2 ^ 32
    x :: sha256Schedule n (w.drop 1 ++ [x])

/-- One SHA-256 round on (a … h) with constant plus schedule word `kw`. -/
def sha256Round (v : List Nat) (kw : Nat) : List Nat :=
  match v with
  | [a, b, c, d, e, f, g, h] =>
    let s1 := ror32 e 6 ^^^ ror32 e 11 ^^^ ror32 e 25
    let ch := (e &&& f) ^^^ ((2 ^ 32 - 1 - e) &&& g)
    let t1 := (h + s1 + ch + kw) % 2 ^ 32
    let s0 := ror32 a 2 ^^^ ror32 a 13 ^^^ ror32 a 22
    let maj := (a &&& b) ^^^ (a &&& c) ^^^ (b &&& c)
    [(t1 + s0 + maj) % 2 ^ 32, a, b, c, (d + t1) % 2 ^ 32, e, f, g]
  | _ => v

/-- One 64 B block. -/
def sha256Block (h : List Nat) (b : List Byte) : List Nat :=
  let w := (List.range 16).map (fun i => beNat ((b.drop (4 * i)).take 4))
  let k := (shaK.take 64).map (fun x => x / 2 ^ 32)
  let v := ((k.zip (w ++ sha256Schedule 48 w)).map (fun p => p.1 + p.2)).foldl sha256Round h
  (h.zip v).map (fun p => (p.1 + p.2) % 2 ^ 32)

/-- The padded message in `n` blocks. -/
def sha256Blocks : Nat → List Nat → List Byte → List Nat
  | 0, h, _ => h
  | n + 1, h, bs => sha256Blocks n (sha256Block h (bs.take 64)) (bs.drop 64)

/-- SHA-256: 32 bytes. [PRESUMED, log entry 171] -/
def sha256 (bs : List Byte) : List Byte :=
  let len := bs.length
  let n := (len + 9 + 63) / 64
  let padded := bs ++ [0x80#8] ++ List.replicate (64 * n - len - 9) 0#8 ++ bytesBE 8 (8 * len)
  (sha256Blocks n (((primesTo 19).take 8).map (fun p => rootFraction 2 p / 2 ^ 32)) padded).flatMap (bytesBE 4)

/-- MGF1 with a hash of `hlen` bytes: `n` bytes. -/
def mgf1 (hash : List Byte → List Byte) (hlen : Nat) (seed : List Byte) (n : Nat) : List Byte :=
  ((List.range (n / hlen + 1)).flatMap (fun i => hash (seed ++ bytesBE 4 i))).take n

/-! ## RSASSA-PSS -/

/-- b^e mod n, over the lowest `k` bits of `e`. -/
def powMod (n : Nat) : Nat → Nat → Nat → Nat
  | 0, _, _ => 1 % n
  | k + 1, b, e =>
    let r := powMod n k (b * b % n) (e / 2)
    if e % 2 == 1 then b * r % n else r

/-- Is an encoded message of `bits` bits that of `msg` (PKCS#1 EMSA-PSS-VERIFY)? -/
def pssEncodes (bits : Nat) (em msg : List Byte) : Bool :=
  let n := (bits + 7) / 8
  let m := n - 49
  let h := (em.drop m).take 48
  let top : Byte := BitVec.ofNat 8 (2 ^ (8 - (8 * n - bits)) - 1)
  let masked := em.take m
  let db := ((masked.zip (mgf1 sha384 48 h m)).map (fun p => p.1 ^^^ p.2)).modifyHead (fun b => b &&& top)
  decide (98 ≤ n) && em.length == n && em.getLast? == some 0xBC#8 && ((masked.headD 0#8) &&& ~~~ top) == 0#8
  && allZero (db.take (m - 49)) && (db.drop (m - 49)).headD 0#8 == 1#8
  && sha384 (List.replicate 8 0#8 ++ sha384 msg ++ db.drop (m - 48)) == h

/-- Does the RSA signature `sig`, a big-endian octet string, verify under the modulus `n` and the exponent `e`? [PRESUMED, log entry 171] -/
def rsaVerifies (n e : Nat) (msg sig : List Byte) : Bool :=
  let bits := Nat.log2 n
  let len := (bits + 7) / 8
  let m := powMod n 32 (beNat sig) e
  sig.length == (bits + 8) / 8 && decide (beNat sig < n) && decide (m < 256 ^ len) && pssEncodes bits (bytesBE len m) msg

/-! ## SLH-DSA-SHA2-192s: n 24, h 63, d 7, h' 9, a 14, k 17, w 16 -/

/-- A hash address: layer, tree, type and its three words. -/
structure SlhAddr where
  layer : Nat
  tree : Nat
  type : Nat
  key : Nat
  chain : Nat
  hash : Nat

/-- The 22 compressed bytes of an address. -/
def SlhAddr.bytes (a : SlhAddr) : List Byte :=
  bytesBE 1 a.layer ++ bytesBE 8 a.tree ++ bytesBE 1 a.type ++ bytesBE 4 a.key ++ bytesBE 4 a.chain ++ bytesBE 4 a.hash

/-- The function F of one block. -/
def slhF (seed : List Byte) (a : SlhAddr) (m : List Byte) : List Byte :=
  (sha256 (seed ++ List.replicate 40 0#8 ++ a.bytes ++ m)).take 24
/-- The functions H and T of more blocks. -/
def slhH (seed : List Byte) (a : SlhAddr) (m : List Byte) : List Byte :=
  (sha512 (seed ++ List.replicate 104 0#8 ++ a.bytes ++ m)).take 24

/-- The first `n` digits of `b` bits of a byte string. -/
def slhDigits (bs : List Byte) (b n : Nat) : List Nat :=
  (List.range n).map (fun i => beNat bs / 2 ^ (8 * bs.length - b * (i + 1)) % 2 ^ b)

/-- Part `i` of a signature, 24 B each. -/
def slhPart (bs : List Byte) (i : Nat) : List Byte := (bs.drop (24 * i)).take 24

/-- Apply F from chain position `i` on, `n` times. -/
def slhChain (seed : List Byte) (a : SlhAddr) : Nat → Nat → List Byte → List Byte
  | 0, _, x => x
  | n + 1, i, x => slhChain seed a n (i + 1) (slhF seed { a with hash := i } x)

/-- Up a tree: `j` the height reached, `i` the node's index at that height, with the authentication path in `auth`. -/
def slhClimb (seed : List Byte) (a : SlhAddr) (auth : List Byte) : Nat → Nat → Nat → List Byte → List Byte
  | 0, _, _, x => x
  | n + 1, j, i, x =>
    let sib := slhPart auth j
    slhClimb seed a auth n (j + 1) (i / 2)
      (slhH seed { a with chain := j + 1, hash := i / 2 } (if i % 2 == 0 then x ++ sib else sib ++ x))

/-- The WOTS+ public key that a signature of `m` gives. -/
def slhWots (seed : List Byte) (a : SlhAddr) (sig m : List Byte) : List Byte :=
  let ds := slhDigits m 4 48
  let sum := (ds.map (fun d => 15 - d)).sum
  let all := ds ++ slhDigits (bytesBE 2 (sum * 16)) 4 3
  let ends := (List.range 51).map (fun i =>
    let d := all.getD i 0
    slhChain seed { a with type := 0, chain := i } (15 - d) d (slhPart sig i))
  slhH seed { a with type := 1, chain := 0, hash := 0 } ends.flatten

/-- The root of an XMSS tree that the signature of `m` with leaf `leaf` gives. -/
def slhXmss (seed : List Byte) (layer tree leaf : Nat) (sig m : List Byte) : List Byte :=
  let a : SlhAddr := { layer := layer, tree := tree, type := 0, key := leaf, chain := 0, hash := 0 }
  let x := slhWots seed a (sig.take (24 * 51)) m
  slhClimb seed { a with type := 2, key := 0 } (sig.drop (24 * 51)) 9 0 leaf x

/-- Through the layers of the hypertree: `n` layers left, from layer `j`. -/
def slhLayers (seed : List Byte) : Nat → Nat → Nat → Nat → List Byte → List Byte → List Byte
  | 0, _, _, _, _, m => m
  | n + 1, j, tree, leaf, sig, m =>
    slhLayers seed n (j + 1) (tree / 512) (tree % 512) (sig.drop (24 * 60)) (slhXmss seed j tree leaf (sig.take (24 * 60)) m)

/-- The FORS public key that a signature gives. -/
def slhFors (seed : List Byte) (tree leaf : Nat) (md sig : List Byte) : List Byte :=
  let a : SlhAddr := { layer := 0, tree := tree, type := 3, key := leaf, chain := 0, hash := 0 }
  let roots := ((slhDigits md 14 17).zip (List.range 17)).map (fun (x : Nat × Nat) =>
    let part := (sig.drop (24 * 15 * x.2)).take (24 * 15)
    let at_ := x.2 * 2 ^ 14 + x.1
    slhClimb seed a (part.drop 24) 14 0 at_ (slhF seed { a with hash := at_ } (part.take 24)))
  slhH seed { a with type := 4 } roots.flatten

/-- Does the SLH-DSA signature verify under a public key of 48 B (seed and root)? [PRESUMED, log entry 171] -/
def slhVerifies (pk msg sig : List Byte) : Bool :=
  let seed := pk.take 24
  let r := sig.take 24
  let m := [0#8, 0#8] ++ msg
  let dig := mgf1 sha512 64 (r ++ seed ++ sha512 (r ++ pk ++ m)) 39
  let tree := beNat ((dig.drop 30).take 7) % 2 ^ 54
  let leaf := beNat ((dig.drop 37).take 2) % 2 ^ 9
  pk.length == 48 && sig.length == 16224
  && slhLayers seed 7 0 tree leaf (sig.drop (24 * 256)) (slhFors seed tree leaf (dig.take 30) ((sig.drop 24).take (24 * 255))) == pk.drop 24

end Sys2Proof.Machine
end

