-- ==== Sys2Proof/Machine/Boot.lean ====
section
/-!
DEFINITION. Boot: boot records, image checks, the boot ROM and the images of the data path (R487–R494).
-/
namespace Sys2Proof.Machine

/-! ## Boot records (R488) -/

/-- Is a record copy valid? -/
def bootRecordValid (b : List Byte) : Bool :=
  b.length == 64 && leAt b 0 2 == 0x4252 && leAt b 2 2 == 1 && allZero ((b.drop 0xE).take 46)
    && crc32 (b.take 0x3C) == BitVec.ofNat 32 (leAt b 0x3C 4)

/-- Which copy is in force: the valid one with the higher `GENERATION`. -/
def Boot.forceCopy (x : Boot) : Option Nat :=
  let a := x.records.getD 0 []
  let b := x.records.getD 1 []
  match bootRecordValid a, bootRecordValid b with
  | true, true => if leAt a 4 4 < leAt b 4 4 then some 1 else some 0
  | true, false => some 0
  | false, true => some 1
  | false, false => none

/-- The record in force; without one every bank is A and no trial is pending. -/
def Boot.inForce (x : Boot) : List Byte := match x.forceCopy with
  | some i => x.records.getD i []
  | none => List.replicate 64 0#8

/-- `ACTIVE` bank of a type, and the fields of a trial. -/
def recActive (b : List Byte) (type : Nat) : Nat := leAt b (0x7 + type) 1
def recTrialType (b : List Byte) : Nat := leAt b 0xB 1
def recTrialBank (b : List Byte) : Nat := leAt b 0xC 1
def recTries (b : List Byte) : Nat := leAt b 0xD 1

/-- Write a record with new `ACTIVE` (three bytes) and trial fields over the other copy, `GENERATION` one higher. -/
def Boot.writeRecord (x : Boot) (active : List Byte) (trialType trialBank tries : Nat) : Boot :=
  let gen := match x.forceCopy with | some i => leAt (x.records.getD i []) 4 4 + 1 | none => 1
  let other := match x.forceCopy with | some 0 => 1 | _ => 0
  let body := bytesLE 2 0x4252 ++ bytesLE 2 1 ++ bytesLE 4 gen ++ active ++ bytesLE 1 trialType ++ bytesLE 1 trialBank ++ bytesLE 1 tries
    ++ List.replicate 46 0#8
  { x with records := (x.records ++ [[], []]).take 2 |>.set other (body ++ bytesLE 4 (crc32 body).toNat) }

/-- The three `ACTIVE` bytes in force. -/
def Boot.activeBytes (x : Boot) : List Byte := (x.inForce.drop 8).take 3

/-! ## Image checks (R489, R490) -/

/-- Size of a type's area in a bank (R487). -/
def areaSize (type : Nat) : Nat := match type with | 1 => 2 ^ 20 | 2 => 24 * 2 ^ 20 | _ => 5 * 2 ^ 20

/-- An area of flash. [DEDUCED, log entry 117] -/
def Boot.area (x : Boot) (bank type : Nat) : Memory := tabGet (factoryArea (4 * bank + type)) x.areas (4 * bank + type)

/-- Payload length as padded. -/
def payloadLen (h : List Byte) : Nat := roundUp (leAt h 0x10 4) 64

/-- The checks that R490 names, by code, each true where it passes; both signatures, behind the padded payload, are over the header
(R489). [DEDUCED, log entry 117; PRESUMED, log entry 171] -/
def State.imageChecks (s : State) (type : Nat) (area : Memory) (v : ImageVerdict) : List (Nat × Bool) :=
  let h := area.read 0 1024
  let key := leAt h 7 1
  let len := leAt h 0x10 4
  let revoke := leAt h 0x1D 1
  let c1 := leAt h 0 4 == 0x4C54494D && leAt h 4 2 == 1 && leAt h 6 1 == type && decide (leAt h 0x14 4 < len) && decide (revoke < 16)
    && leAt h 0x1E 2 == 0 && allZero ((h.drop 0x204).take 508) && decide (len ≤ areaSize type - 17632)
  let c2 := leAt h 0x18 4 == 0x820 && leAt h 0x1C 1 == 0x21
  let c3 := decide (key < 4) && !s.boot.revoked.getLsbD key && sha384 ((h.drop 0x50).take (384 + 4 + 48)) == s.blob 0x7007 (key + 1) 48
    && !bitAt revoke key
  let sigs := 1024 + payloadLen h
  [(1, c1), (2, c2), (3, c3), (4, rsaVerifies (leAt h 0x50 384) (leAt h 0x1D0 4) h (area.read sigs 384)),
   (5, slhVerifies ((h.drop 0x1D4).take 48) h (area.read (sigs + 384) 16224)), (6, decide (tabGet 0 s.boot.svn type ≤ leAt h 8 4)),
   (7, sha384 (area.read 1024 (payloadLen h)) == (h.drop 0x20).take 48), (8, v.readOk)]

/-- The code the verifier reports: the lowest that fails; 0x00 where all passed (R490). -/
def State.imageCode (s : State) (type : Nat) (area : Memory) (v : ImageVerdict) : Nat :=
  match (s.imageChecks type area v).find? (fun c => !c.2) with
  | some c => c.1
  | none => 0

/-! ## Which bank boots (R492, R494) -/

/-- A boot event: logged now, or left for the keeper. -/
def State.bootEvent (s : State) (code severity : Nat) (data : List Byte) : State :=
  if s.keeperUp then s.event code severity true data
  else { s with boot := { s.boot with owed := s.boot.owed ++ [(code, severity, data)] } }

/-- The trial rule: the bank a type boots from, and whether that is on trial. -/
def State.trialRule (s : State) (type : Nat) : Nat × Bool × State :=
  let r := s.boot.inForce
  if recTrialType r != type then (recActive r type, false, s)
  else if recTries r != 0 then
    (recTrialBank r, true, { s with boot := s.boot.writeRecord s.boot.activeBytes type (recTrialBank r) (recTries r - 1) })
  else
    let b := s.boot.writeRecord s.boot.activeBytes 0 0 0
    (recActive r type, false, ({ s with boot := { b with update := { b.update with state := 0 } } }).bootEvent 0x52 2 (bytesLE 1 type))

/-- Where the payload of a type is loaded (R20, R494). -/
def loadAddr (type : Nat) : Nat := if type == 2 then 0x6041000000 else 0x6042800000

/-- The payload of a bank's image for the data path is copied into the device-reserved region, at most the type's room there, while it is
hashed (R494). -/
def State.copyPayload (s : State) (type bank : Nat) : State :=
  let m := s.boot.area bank type
  s.dramWrite (loadAddr type) (m.read 1024 (min (areaSize type) (payloadLen (m.read 0 1024)))) false

/-- Verify a bank's image, one for the data path as it is copied (R490, R494); a failure is counted. -/
def State.tryImage (s : State) (type bank : Nat) (v : ImageVerdict) : Nat × State :=
  let c := s.imageCode type (s.boot.area bank type) v
  let s1 := if type == 1 then s else s.copyPayload type bank
  (c, if c == 0 then s1 else s1.bump 0x7040 0 1)

/-- An image runs. -/
def State.runImage (s : State) (type bank : Nat) (trial : Bool) : State :=
  let x : RunningImage := { bank := bank, trial := trial, header := (s.boot.area bank type).read 0 1024 }
  { s with boot := { s.boot with running := tabSet s.boot.running type x } }

/-- Pick a type's image: the first bank's, else the other's. The code shown is that of the image that runs, or of the last
bank tried; then the code of each bank, and whether one passed. [DEDUCED, log entry 118] -/
def State.bootType (s : State) (type : Nat) (a b : ImageVerdict) : Nat × Nat × Nat × Bool × State :=
  let (bank, trial, s1) := s.trialRule type
  let v := fun (k : Nat) => if k == 0 then a else b
  let (c1, s2) := s1.tryImage type bank (v bank)
  if c1 == 0 then (0, 0, 0, true, s2.runImage type bank trial)
  else
    let (c2, s3) := s2.tryImage type (1 - bank) (v (1 - bank))
    let codes := if bank == 0 then (c1, c2) else (c2, c1)
    if c2 == 0 then (0, codes.1, codes.2, true, (s3.runImage type (1 - bank) false).bootEvent 0x51 2 (bytesLE 1 type ++ bytesLE 1 c1))
    else (c2, codes.1, codes.2, false, { s3 with boot := { s3.boot with running := tabErase s3.boot.running type } })

/-- Join the field network: the node ID is sampled, node 0 coordinates, and without a beacon the device falls back to CSMA/CD (R467).
[DEDUCED, log entry 172] -/
def State.joinField (s : State) (plca reversed : Bool) : State :=
  let node := (s.power.strapId % 16 + s.entry 0x1010 0) % 256
  let s1 := s.setEntry 0x1013 0 node
  { s1 with keeper := { s1.keeper with field := if node = 0 then 3 else if plca then 1 else 2, reversedPair := reversed } }

/-- The boot ROM: the keeper image of the bank that boots, or of the other; with neither, recovery, which joins the field network and
waits there for a beacon (R467, R492, R493). [DEDUCED, log entry 172] -/
def State.bootRom (s : State) (a b : ImageVerdict) : State :=
  let (_, ca, cb, ok, s1) := s.bootType 1 a b
  if ok then { s1 with boot := { s1.boot with keeperCode := 0, recovery := false } }
  else
    let s2 := ({ s1 with boot := { s1.boot with keeperCode := cb, recovery := true } }).joinField false false
    s2.bootEvent 0x50 3 (bytesLE 1 1 ++ bytesLE 1 ca ++ bytesLE 1 cb)

/-- Load one type's payload; true where an image passed. [DEDUCED, log entry 118] -/
def State.loadType (s : State) (type : Nat) (a b : ImageVerdict) : Bool × State :=
  let (c, ca, cb, ok, s1) := s.bootType type a b
  let s2 := { s1 with boot := if type == 2 then { s1.boot with fwCode := c } else { s1.boot with ucodeCode := c } }
  if ok then (true, s2) else (false, s2.bootEvent 0x50 3 (bytesLE 1 type ++ bytesLE 1 ca ++ bytesLE 1 cb))

/-! ## What a keeper restart loses (R424, R466) -/

/-- Does an entry keep its value over a keeper restart: written entries kept in flash, and the counts that are (R36, R50, R486)?
[DEDUCED, log entry 120] -/
def keptEntry (key : Nat) : Bool :=
  match dictRow (key / 256) (key % 256) with
  | some r => r.access == .rwp || r.index == 0x1009 || r.index == 0x4005
  | none => false

/-- What the keeper's SRAM held is lost: sessions, assemblies, the event log, strikes and counts; an update that was only staged is
discarded. The fatal log and RWP values stay. [DEDUCED, log entry 120] -/
def State.keeperLost (s : State) : State :=
  { s with
    keeperUp := false, fieldUsable := false
    log := { EventLog.empty with fatal := s.log.fatal }
    keeper := { s.keeper with
      sessions := [], failures := [], locked := [], assemblies := [], cmdStatus := [], acting := [], field := 0, duplicate := false, startEvent := none }
    partitions := s.partitions.map (fun (p : Nat × Partition) => (p.1, { p.2 with resets := 0#64 }))
    dict := s.dict.filter (fun (d : Nat × Nat) => keptEntry d.1)
    blobs := s.blobs.filter (fun (d : Nat × List Byte) => keptEntry d.1)
    health := s.health.map (fun (h : Nat × Health) => (h.1, { h.2 with strikes := [] }))
    boot := { s.boot with
      attest := [], update := if s.boot.update.state == 3 then s.boot.update else { s.boot.update with state := 0, spans := [] } } }

/-- `BOOT_STATUS` (R504). -/
def Boot.status (x : Boot) : Nat :=
  let bank := fun (t : Nat) => match tabFind x.running t with | some r => r.bank | none => 0
  let trial := x.running.any (fun (r : Nat × RunningImage) => r.2.trial)
  x.keeperCode * 2 ^ 24 + x.fwCode * 2 ^ 16 + x.ucodeCode * 2 ^ 8 + b2n x.recovery * 128 + bank 1 * 64 + bank 2 * 32 + bank 3 * 16
    + b2n trial * 8 + recTries x.inForce % 4

end Sys2Proof.Machine
end

