-- ==== Sys2Proof/Machine/Power.lean ====
section
/-!
DEFINITION. Supplies and sequencing, the release and the stop of the data path, operating points, the power cap, thermal
stages and trips, clocks and the nurse's own tasks (rows VAUX_GOOD, POWER_UP to SELFTEST_DONE, RAIL_OFF, VAUX_LOSS,
SREFCLK_RETURN, BRIDGE_RETRY_EXHAUSTED, DEVICE_RECOVER; R15, R417, R436–R463, R494, R537).
-/
namespace Sys2Proof.Machine

/-! ## The data path stops (R417, R439, R442) -/

/-- All partition, context and queue state is lost, and with it whatever the data path held (R439). What the keeper, the
host's configuration and flash hold stays, and so do the numbers already given out. [DEDUCED, log entry 107] -/
def State.dataPathLost (s : State) : State :=
  { s with
    cells := []
    partitions := s.partitions.map (fun (p : Nat × Partition) => (p.1, { Partition.none with resets := p.2.resets }))
    contexts := [], quarters := [], migration := none, images := [], launches := [], queues := []
    admin := { Admin.reset with start := s.admin.start + 1 }, regions := [], streamErr := [], tlbs := [], walks := [], walkCaches := [], collectors := []
    drains := [], groups := [], tables := [], foragers := [], works := [], staged := [], patches := [], committed := [], returns := []
    nextReturn := 0, fanStages := [], earlyReqs := [], spanWait := [], spanPort := [], fanned := [], windows := [], keyFails := [], imports := [], probes := [], winReqs := [], fabricOut := []
    wagglesOut := []
    ports := s.ports.map (fun (p : Nat × Port) => (p.1, { Port.absent with ether := p.2.ether, restarted := p.2.restarted }))
    filter := [], qps := [], tasters := []
    health := s.health.map (fun (h : Nat × Health) => (h.1, { h.2 with sampled := 0, eligible := 0, taken := false }))
    boot := { s.boot with running := s.boot.running.filter (fun (r : Nat × RunningImage) => r.1 == 1) }
    replicas := [], channels := [], fixups := [], struck := []
    therms := s.therms.map (fun (t : Nat × StackTherm) =>
      (t.1, { StackTherm.cool with temp := t.2.temp, hotDie := t.2.hotDie, hotMinute := t.2.hotMinute }))
    host := { s.host with slots := [], held := [], heldFor := [], waiting := [] } }

/-- The data path stops and the host link goes down, a host reset (R439). -/
def State.stopPath (s : State) : State :=
  if s.power.path == PathState.held && !s.power.recovering then s
  else
    let s1 := if s.host.rate == 0 then s else s.hostReset true
    let s2 := if s1.capturing then s1.stopTrace 0 0 else s1
    let s3 := (List.range 16).foldl (fun (acc : State) p => acc.cmdEnd 0x9020 (p + 1) (Config.actionFailed 0x9020).toNat)
      (s2.dataPathLost.cmdEnd 0x6058 0 (Config.actionFailed 0x6058).toNat)
    { s3 with power := { s3.power with path := .held, recovering := false } }

/-- DRAM loses its contents with its supplies (R439). [DESIGN CHOICE, log entry 108] -/
def State.dramLost (s : State) : State :=
  { s with dram := Memory.undefined s.free, free := s.free + 1, damage := [], fixups := [], struck := [], rowActs := [] }

/-! ## Rails (R436–R441) -/

/-- Nominal voltage of rails 1–8, mV. -/
def railNominal : List Nat := [1800, 1800, 1200, 850, 750, 1800, 1050, 1800]

/-- The level a voltage stands for (R436). -/
def railLevel (r mv : Nat) : RailLevel :=
  let nom := railNominal.getD (r - 1) 0
  if mv * 10 < nom then .off else if nom * 95 ≤ mv * 100 then .good else .between

def State.rail (s : State) (r : Nat) : RailLevel := tabGet RailLevel.off s.power.rails r
def State.setRail (s : State) (r : Nat) (l : RailLevel) : State := { s with power := { s.power with rails := tabSet s.power.rails r l } }

/-- Is the device self-sequenced? -/
def State.selfSeq (s : State) : Bool := s.power.mode != 0

/-- The keeper starts step 1 once it runs, `PWROK` is high and the mode allows (R438); after a trip, once its recovery is accepted, the
steps it had switched off (R455). -/
def State.seqStart (s : State) : State :=
  let p := s.power
  if !s.keeperUp || !p.pwrok || !s.selfSeq || p.seq != .idle || !p.upAsked || p.pmbSwapped || p.trip then s
  else match ([3, 4, 5, 6, 7, 8] : List Nat).find? (fun r => !p.enabled.contains r) with
    | some r => { s with power := { p with enabled := flagAdd p.enabled r, seq := .rising (r - 2) } }
    | none => { s.cmdEnd 0x2007 0 stOk with power := { p with seq := .up } }

/-- The next rail goes off, in reverse order (R439); with none left, sequencing may begin anew where it may (R438). -/
def State.fallNext (s : State) : State :=
  match s.power.enabled.getLast? with
  | some r => { s with power := { s.power with enabled := flagDel s.power.enabled r, seq := .falling (r - 2) } }
  | none => ({ s.cmdEnd 0x2008 0 stOk with power := { s.power with seq := .idle, down := false, pmbFails := (0, 0) } }).seqStart

/-- Are the rails going off? -/
def State.falling (s : State) : Bool := match s.power.seq with
  | .falling _ => true
  | _ => false

/-- The keeper starts to switch every rail off; a rail already going off ends first (R439). A sequence under way stops, and with it the
action of `POWER_UP` (R461, R470). -/
def State.fallStart (s : State) : State :=
  let s1 := { s.cmdEnd 0x2007 0 (Config.actionFailed 0x2007).toNat with power := { s.power with down := true } }
  if s1.falling then s1 else s1.fallNext

/-- Self-sequenced power-down: the data path stops, then the rails go off (R439). -/
def State.seqDown (s : State) : State := if s.selfSeq then s.stopPath.fallStart else s.stopPath

/-- `SEQ_FAULT`, with `SUPPLY_ORDER` (R440, R441). -/
def State.seqFault (s : State) (rail code : Nat) : State :=
  let v := rail % 256 * 256 + code % 256
  (s.setEntry 0x2006 0 v).event 0x10 2 true (bytesLE 4 v)

/-- Row VAUX_GOOD: the straps are latched and the boot ROM runs (R437, R492). -/
def State.vauxGood (s : State) (mode strapId : Nat) (a b : ImageVerdict) : State :=
  if s.rail 1 == .good then s
  else
    let m := mode % 4
    let s1 := s.setRail 1 .good
    let s2 := { s1 with
                        power := { s1.power with mode := m, strapId := strapId % 16, seq := .idle, upAsked := m == 1, path := .held }
                        keeper := { s1.keeper with cause := 0 } }
    let s3 := if m == 3 then { s2 with boot := { s2.boot with owed := s2.boot.owed ++ [(2, 1, bytesLE 1 m)] } } else s2
    s3.bootRom a b

/-- Row VAUX_LOSS: everything stops; what the keeper keeps in SRAM is lost with it (R537). [DESIGN CHOICE, log entry 3] -/
def State.vauxLoss (s : State) : State :=
  let s1 := s.stopPath.keeperLost
  { s1 with
    power := { Power.reset with
                                rails := tabErase s1.power.rails 1, pwrok := s1.power.pwrok, resetN := s1.power.resetN
                                srefPresent := s1.power.srefPresent, path := .held }
    tracer := Debug.reset, counters := []
    boot := { s1.boot with running := [], recovery := false, owed := [], aliasReady := false } }

/-- Row RAIL_GOOD. -/
def State.railGood (s : State) (r : Nat) : State :=
  if r < 2 ∨ 8 < r then s
  else
    let s1 := s.setRail r .good
    let p := s1.power
    { s1 with
        power := { p with
        seq := match p.seq with | .rising k => if k + 2 == r then .waiting k else .rising k | q => q
        tripHolds := flagDel p.tripHolds r } }

/-- Row SEQ_WAIT_EXPIRY. -/
def State.seqWaitExpiry (s : State) : State :=
  match s.power.seq with
  | .waiting _ =>
    if !s.keeperUp then s else ({ s with power := { s.power with seq := .idle } }).seqStart
  | _ => s

/-- Row RAIL_OFF. -/
def State.railOff (s : State) (r : Nat) : State :=
  if r < 2 ∨ 8 < r then s
  else
    let s1 := s.setRail r .off
    let s2 := if (r == 6 || r == 7) && s.rail r != .off then s1.dramLost else s1
    let s3 := if r == 8 && s2.host.rate != 0 then s2.hostReset true else s2
    let s4 := if s3.power.enabled.contains r then s3 else { s3 with power := { s3.power with tripHolds := flagDel s3.power.tripHolds r } }
    if s4.power.seq != .falling (r - 2) then s4
    else if s4.power.down then s4.fallNext
    else ({ s4 with power := { s4.power with seq := .idle } }).seqStart

/-- Does rail `r`, above off, break the rail-order rule of a code (R440)? A rail that the keeper has just switched off may still be
above off (R439). [DEDUCED, log entry 105] -/
def State.orderBroken (s : State) (code r : Nat) : Bool :=
  match code with
  | 1 => r == 2 && s.rail 1 != .good
  | 2 => decide (4 ≤ r) && decide (r ≤ 8) && s.rail (r - 1) != .good
  | 3 => s.selfSeq && decide (3 ≤ r) && decide (r ≤ 8) && !s.power.enabled.contains r && s.power.seq != .falling (r - 2)
  | _ => false

/-- Row RAIL_ORDER_FAULT: the monitors find `rail` above off, and the rule broken that the code names, while the data path is not
released (R440). [DEDUCED, log entry 105] -/
def State.railOrderFault (s : State) (code rail : Nat) : State :=
  if (s.power.path != .held && s.power.path != .stopped) || s.rail 1 == .off || !s.orderBroken code rail then s
  else
    let s0 := if s.rail rail == .off then s.setRail rail .between else s
    let s1 := s0.seqFault rail code
    if s1.selfSeq then ({ s1 with power := { s1.power with upAsked := false } }).fallStart
    else { s1 with power := { s1.power with orderHold := true, pwrokFell := !s1.power.pwrok } }

/-- Row PWROK_RISE. -/
def State.pwrokRise (s : State) : State :=
  let p := s.power
  ({ s with power := { p with pwrok := true, orderHold := p.orderHold && !p.pwrokFell } }).seqStart

/-- Row PWROK_FALL: the power-down, in either mode (R439, R461). A board that has switched `VIN_C` off after a trip only cycles its
permission, until its recovery has released the data path (R454, R455). [DEDUCED, log entry 107] -/
def State.pwrokFall (s : State) : State :=
  if !s.power.pwrok then s
  else
    let s1 := { s with power := { s.power with pwrok := false, pwrokFell := true } }
    if !s.selfSeq && (s.power.trip || (s.power.recovering && s.power.path == .held)) then s1 else s1.seqDown

/-- Row POWER_UP, once its write is accepted. [DEDUCED, log entry 105; DEDUCED, log entry 106] -/
def State.powerUp (s : State) : Nat × State :=
  if !s.selfSeq then (stIllegalOp, s)
  else if s.power.seq != .idle && s.power.seq != .up then (stBusy, s)
  else (stOk, ({ s with power := { s.power with upAsked := true } }).seqStart)

/-- Row POWER_DOWN, once its write is accepted (R439, R461). [DEDUCED, log entry 105; DEDUCED, log entry 106] -/
def State.powerDown (s : State) : Nat × State :=
  if !s.selfSeq then (stIllegalOp, s)
  else if (s.host.fn != .disabled && s.host.rate != 0) || s.falling then (stBusy, s)
  else (stOk, ({ s with power := { s.power with upAsked := false } }).seqDown)

/-- Row PMB_ALERT: the regulator that answered, and its `STATUS_WORD` (R441). -/
def State.pmbAlert (s : State) (addr page word : Nat) : State :=
  if !s.keeperUp || s.power.pmbSwapped then s
  else s.event 0x12 1 false (bytesLE 1 addr ++ bytesLE 1 page ++ bytesLE 2 word)

/-- Row PMBUS_TRANSACTION: the third failure in a row of a rail's transaction, during sequencing, ends the sequence (R441).
[DEDUCED, log entry 105] -/
def State.pmbusTransaction (s : State) (rail : Nat) (ok : Bool) : State :=
  let put := fun (x : Nat × Nat) => { s with power := { s.power with pmbFails := x } }
  if !s.keeperUp || s.power.pmbSwapped then s
  else
    let going := match s.power.seq with | .rising _ => true | .waiting _ => true | _ => false
    let (r, n) := s.power.pmbFails
    if !going then put (0, 0)
    else if ok then (if r == rail then put (0, 0) else s)
    else if r == rail && decide (2 ≤ n) then
      (({ s with power := { s.power with pmbFails := (0, 0), upAsked := false } }).seqFault rail 0x12).seqDown
    else put (rail, if r == rail then n + 1 else 1)

/-- Row RESET_N_ASSERT (R442). -/
def State.resetAssert (s : State) : State := ({ s with power := { s.power with resetN := false } }).stopPath

/-- Row RESET_N_RELEASE. -/
def State.resetRelease (s : State) : State := { s with power := { s.power with resetN := true } }

/-! ## The data path starts (R417, R438, R494) -/

/-- A cell of a data path that restarts: its scratchpad and `CELL_FAULT` stand. [DEDUCED, log entry 110] -/
def Cell.restarted (x : Cell) : Cell := { Cell.reset with scratch := x.scratch, fault := x.fault, faultCount := x.faultCount, residency := x.residency }

/-- After a device-fatal stop every partition goes through the reset column and the queues' final records are posted; then the notices
with cause 3 for those that were ACTIVE, behind the notices that the stop held (R306, R417). The replica copies stand: a digest pass is
abandoned, and a repair begins again from the start (R433). [DEDUCED, log entry 110] -/
def State.recoverParts (s : State) : State :=
  let s1 := { s with
    cells := s.cells.map (fun (c : Nat × Cell) => (c.1, c.2.restarted)), works := [], walks := [], tlbs := [], returns := [], fanStages := []
    earlyReqs := []
    winReqs := [], fabricOut := [], wagglesOut := [], tasters := []
    ports := s.ports.map (fun (p : Nat × Port) => (p.1, { Port.absent with ether := p.2.ether, restarted := p.2.restarted })) }
  let s2 := s1.liveParts.foldl (fun (acc : State) p => ((acc.beginReset p.1 3).cutQueues p.1).resetColumn p.1) s1
  let s3 := { s2.flushNotices s2.admin.held with replicas := s.replicas.map (fun (r : Nat × Replica) =>
    (r.1, { r.2 with running := none, copied := 0, asked := none })) }
  (s1.liveParts.filter (fun (p : Nat × Partition) => p.2.state == PartState.active)).foldl (fun (acc : State) p =>
    acc.notice 4 (bytesLE 1 p.1 ++ bytesLE 1 3)) s3

/-- Row DATA_PATH_RELEASE: images are to be loaded; every comb is set to P1 and the always-on counters start anew (R438, R449,
R506). [DEDUCED, log entry 110] -/
def State.dataPathRelease (s : State) : State :=
  let p := s.power
  if p.path != .held || p.trip || !((List.range 8).all (fun i => s.rail (i + 1) == .good)) || !p.pwrok || !p.resetN || !s.refclk || p.orderHold
      || (s.selfSeq && p.seq != .up) || !s.keeperUp then s
  else
    State.recount { s with
      tracer := { s.tracer with always := { spans := [], since := if s.tracer.frozen then none else some s.free } }
      power := { p with path := .loading }
      manager := { s.manager with
        combs := s.manager.combs.map (fun (c : Nat × CombPower) => (c.1, { c.2 with point := 1, cap := 1, heldAt := 0 })), calm := 0, cool := 0
        recent := [] }
      counters := s.counters.filter (fun (c : Nat × Nat) => decide (0x200 ≤ c.1)) }

/-- Row FIRMWARE_LOADED: the firmware and the microcode are loaded and verified, each with the other bank behind it; then the
data path runs, or `BOOT_FAIL` (R494). -/
def State.firmwareLoaded (s : State) (fwA fwB ucA ucB : ImageVerdict) : State :=
  if s.power.path != .loading || !s.keeperUp then s
  else
    let (ok2, s1) := s.loadType 2 fwA fwB
    let (ok3, s2) := s1.loadType 3 ucA ucB
    if !(ok2 && ok3) then
      { s2.cmdEnd 0x6058 0 (Config.actionFailed 0x6058).toNat with power := { s2.power with path := .stopped, recovering := false } }
    else
      let s3 := if s2.power.poisonAll then
          { s2 with dram := { Memory.undefined s2.free with inv := true }, free := s2.free + 1, damage := [], fixups := [], struck := [] }
        else s2
      let again := s3.power.recovering
      let s4 := { s3.cmdEnd 0x6058 0 stOk with power := { s3.power with path := .running, recovering := false, poisonAll := false } }
      if again then s4.recoverParts else s4

/-- Row DEVICE_RECOVER, once its write is accepted: refused while a trip's sensors are above 85.0 °C or its cause stands (R417,
R455), or while a recovery runs (R470). [DESIGN CHOICE, log entry 108; DEDUCED, log entry 109] -/
def State.deviceRecover (s : State) (v : Nat) : Nat × State :=
  let hot := s.manager.combs.any (fun (c : Nat × CombPower) => decide (1360 < c.2.temp)) || decide (1360 < s.manager.edge)
    || s.therms.any (fun (k : Nat × StackTherm) => decide (1360 < k.2.temp))
  if s.power.recovering then (stBusy, s)
  else if v != 1 || (s.power.path != .stopped && !s.power.trip) then (stIllegalOp, s)
  else if !s.power.trip then (stOk, { s with power := { s.power with path := .loading, recovering := true } })
  else if hot || !s.power.tripHolds.isEmpty then (stBusy, s)
  else
    let s1 := { s with power := { s.power with
                                               trip := false, thermtrip := false, recovering := true, path := .held
                                               upAsked := true } }
    (stOk, s1.seqStart)

/-- Row BRIDGE_RETRY_EXHAUSTED (R15). -/
def State.bridgeFailed (s : State) : State := if s.running then s.deviceFatal else s

/-! ## Operating points (R444–R447) -/

def State.comb (s : State) (k : Nat) : CombPower := tabGet CombPower.p1 s.manager.combs k
def State.setComb (s : State) (k : Nat) (x : CombPower) : State :=
  { s with manager := { s.manager with combs := tabSet s.manager.combs k x } }

/-- Stacks of a comb's die. -/
def combStacks (k : Nat) : List Nat := if k < 8 then [0, 1] else [2, 3]

/-- The headroom condition (R445). -/
def State.headroom (s : State) (k : Nat) : Bool :=
  decide (100 ≤ s.manager.cool) && decide ((s.comb k).temp < 1520) && (combStacks k).all (fun i => (s.stackTherm i).stage == 0)

/-- The four ceilings by `LIMIT_SRC` code: operator and headroom, cap, logic stage, DRAM stage (R445, R462). A comb whose
task 12 is overdue may not use P0 (R459). [DEDUCED, log entry 112] -/
def State.ceilings (s : State) (k : Nat) : List Nat :=
  let x := s.comb k
  [max (s.entry 0x3003 (k + 1)) (if s.headroom k && !x.overdue then 0 else 1), x.cap,
   (match x.lstage with | 0 => 0 | 1 => 3 | _ => 7),
   if (combStacks k).any (fun i => decide (2 ≤ (s.stackTherm i).stage)) then 3 else 0]

/-- The effective ceiling and its source: the lowest point, the lower code among equals (R461). -/
def State.ceiling (s : State) (k : Nat) : Nat × Nat :=
  let c := s.ceilings k
  let top := c.foldl max 0
  (top, (c.findIdx? (· == top)).getD 0)

/-- Row POINT_CHANGE_COMPLETE: a comb reaches the point its ceiling allows. -/
def State.pointChangeComplete (s : State) (k : Nat) : State :=
  let (p, src) := s.ceiling k
  let x := s.comb k
  if x.point == p || !s.running then s
  else (s.setComb k { x with point := p }).trace (islandHub k) 9 0xFFFF 0xFF (bytesLE 1 k ++ bytesLE 1 p ++ bytesLE 1 src)

/-! ## The power cap (R448, R449) -/

/-- Comb power max by point, mW (R444). [DEDUCED, log entry 111] -/
def pointPower (p : Nat) : Nat := ([52, 45, 35, 28, 22, 17, 12, 8] : List Nat).getD p 8 * 1000

/-- The point a comb would run at under a cap setting. [DEDUCED, log entry 111] -/
def State.pointUnder (s : State) (k cap : Nat) : Nat := ((s.ceilings k).set 1 cap).foldl max 0

/-- Lower the combs at the highest point in use by a step, again while the estimate exceeds the cap. [DEDUCED, log entry 111] -/
def State.lowerCaps (s : State) (cap others : Nat) : Nat → List Nat → List Nat
  | 0, caps => caps
  | n + 1, caps =>
    let at_ := (List.range 16).map (fun k => s.pointUnder k (caps.getD k 7))
    let top := at_.foldl min 7
    let next := (List.range 16).map (fun k => if at_.getD k 7 == top then min 7 (caps.getD k 7 + 1) else caps.getD k 7)
    let estimate := (next.map pointPower).sum + others
    if cap < estimate && next != caps then s.lowerCaps cap others n next else next

/-- Power of the rails 1–7, mW: the latest reading of each that is mapped, and `OTHER_RAILS_W` for the rest together.
[DEDUCED, log entry 112] -/
def State.otherRails (s : State) : Nat :=
  let mapped := ([1, 2, 3, 4, 5, 6, 7] : List Nat).filter (fun r => s.entry 0x2009 r != 0xFFFF && !s.power.pmbSwapped)
  (mapped.map (fun r => tabGet 0 s.manager.railMw r)).sum + (if mapped.length = 7 then 0 else s.entry 0x200A 0 * 1000)

/-- Cap settings changed to a list. -/
def State.setCaps (s : State) (caps : List Nat) : State :=
  (List.range 16).foldl (fun (acc : State) k => acc.setComb k { acc.comb k with cap := caps.getD k 7 }) s

/-- Which combs their cap setting limits, and since when. -/
def State.noteHeld (s : State) : State :=
  let n := s.manager.nextHeld
  let s1 := (List.range 16).foldl (fun (acc : State) k =>
    let x := acc.comb k
    let held := (acc.ceiling k).2 == 1
    acc.setComb k { x with heldAt := if held then (if x.heldAt == 0 then n else x.heldAt) else 0 }) s
  { s1 with manager := { s1.manager with nextHeld := n + 1 } }

/-- The comb held below longest by its cap setting, the lowest number among equals. -/
def State.longestHeld (s : State) : Option Nat :=
  ((List.range 16).filter (fun k => (s.ceiling k).2 == 1 && (s.comb k).cap != 0)).foldl (fun (b : Option Nat) k =>
    match b with
    | some j => if (s.comb k).heldAt < (s.comb j).heldAt then some k else b
    | none => some k) none

/-- Row POWER_WINDOW: a window in which the comb domains drew `combs` mW and the other `VIN_C` domains `rest` mW. The power manager, in
the keeper island, measures while `VAUX` is good (R417, R448). -/
def State.powerWindow (s : State) (combs rest : Nat) : State :=
  if s.rail 1 != .good then s
  else
    let cap := s.entry 0x2004 0 * 1000
    let others := rest + s.otherRails
    let pkg := combs + others
    let m := s.manager
    let units := m.energyRest + pkg
    let limited := (List.range 16).any (fun k => decide (1 < (s.comb k).cap))
    let hot := s.therms.any (fun (k : Nat × StackTherm) => k.2.stage != 0)
    let calm := if pkg * 100 < cap * 98 then min 10 (m.calm + 1) else 0
    let s1 := { s with
      manager := { m with
      recent := (pkg :: m.recent).take 100, energyRest := units % 100000, calm := calm, cool := if pkg * 10 < cap * 9 then min 100 (m.cool + 1) else 0 } }
    let s2 := ((s1.count (8 * 56) (units / 100000)).count (8 * 57) (if limited then 10 else 0)).count (8 * 58) (if hot then 10 else 0)
    if cap < pkg then
      let caps := s2.lowerCaps cap others 128 ((List.range 16).map (fun k => (s2.comb k).cap))
      (({ s2 with manager := { s2.manager with calm := 0 } }).setCaps caps).noteHeld
    else
      let s3 := s2.noteHeld
      match (if 10 ≤ calm then s3.longestHeld else none) with
      | some k => (({ s3 with manager := { s3.manager with calm := 0 } }).setComb k { s3.comb k with cap := (s3.comb k).cap - 1 }).noteHeld
      | none => s3

/-- Package power averaged over the last 1 ms. -/
def Manager.average (m : Manager) : Nat := if m.recent.isEmpty then 0 else m.recent.sum / m.recent.length

/-- Row RAIL_POWER_POLL: readings of rails 1–8 in mW, and their voltages in mV (R448). [DEDUCED, log entry 112] -/
def State.railPowerPoll (s : State) (mw mv : List Nat) : State :=
  if !s.keeperUp then s
  else
    let mapped := fun (r : Nat) => s.entry 0x2009 r != 0xFFFF && !s.power.pmbSwapped
    let m := s.manager
    let s1 := { s with
      manager := { m with
      railMw := ([1, 2, 3, 4, 5, 6, 7, 8] : List Nat).map (fun r => (r, if mapped r then mw.getD (r - 1) 0 else 0))
      railMv := ([1, 2, 3, 4, 5, 6, 7, 8] : List Nat).map (fun r => (r, mv.getD (r - 1) 0)) } }
    if (List.range 16).any (fun k => decide (1 < (s.comb k).cap)) then s1.bump 0x200C 0 1 else s1

/-! ## Thermal (R453–R456) -/

def logicRise (k : Nat) : Int := match k with | 1 => 1600 | 2 => 1680 | _ => 1000000
def logicFall (k : Nat) : Int := match k with | 1 => 1552 | 2 => 1632 | _ => 0

/-- Row LOGIC_SENSOR_SAMPLE: the nine readings of each comb, and those of the edge strips, in 1/16 °C, whether or not the data path
runs (R453, R455). [DEDUCED, log entry 168] -/
def State.logicSensorSample (s : State) (combs : List (List Int)) (edge : List Int) : State :=
  let s0 := if edge.isEmpty then s else { s with manager := { s.manager with edge := (hottest edge).1 } }
  (List.range 16).foldl (fun (acc : State) k =>
    match combs[k]? with
    | none => acc
    | some [] => acc
    | some ts =>
      let x := acc.comb k
      let t := (hottest ts).1
      let st := min 2 (stageAfter logicRise logicFall x.lstage t)
      let acc1 := acc.setComb k { x with temp := t, lstage := st }
      if st == x.lstage then acc1 else acc1.event 0x13 1 true (bytesLE 1 k ++ bytesLE 1 st ++ bytesLE 2 (unsigned 16 t))) s0

/-- Self-sequenced: the keeper switches `VIN_C` off, and a sequence under way stops (R454, R461). -/
def State.tripRails (s : State) : State :=
  if !s.selfSeq || s.falling then s
  else
    let s1 := if s.power.seq == .up then s else s.cmdEnd 0x2007 0 (Config.actionFailed 0x2007).toNat
    { s1 with power := { s1.power with
      enabled := flagDel s1.power.enabled 8, pmbFails := (0, 0), seq := if s1.power.enabled.contains 8 then .falling 6 else .idle } }

/-- Row THERMAL_TRIP: a logic sensor, edge strips included, at 112.0 °C, or a DRAM sensor at 100.0 °C. [DESIGN CHOICE, log entry 114] -/
def State.thermalTrip (s : State) (dram : Bool) (sensor : Nat) (value : Int) : State :=
  if value < (if dram then 1600 else 1792) then s
  else
    let s1 := (s.bump 0x3005 0 1).deviceFatalAt (some (sensor, unsigned 32 value))
    ({ s1 with power := { s1.power with trip := true, thermtrip := true } }).tripRails

/-- Least voltage and absolute maximum of rails 1–8, mV (R436). -/
def railLimits : List (Nat × Nat) :=
  [(1710, 2100), (1710, 2100), (1164, 1400), (825, 1000), (728, 900), (1746, 2100), (1019, 1250), (1710, 2100)]

/-- Is a supply trip due: a voltage below the rail's min or above its absolute max, or a rail above off that breaks a rail-order rule
(R436, R440, R454)? [DESIGN CHOICE, log entry 114] -/
def State.supplyBad (s : State) (rail mv : Nat) : Bool :=
  let lim := railLimits.getD (rail - 1) (0, 0)
  decide (mv < lim.1) || decide (lim.2 < mv)
    || (railLevel rail mv != .off && (s.orderBroken 1 rail || s.orderBroken 2 rail || s.orderBroken 3 rail))

/-- Row SUPPLY_TRIP: a rail out of its limits, or out of order, from the release of the data path on (R440, R454).
[DESIGN CHOICE, log entry 114] -/
def State.supplyTrip (s : State) (rail mv : Nat) : State :=
  if !(s.running || s.power.path == .loading) || rail < 1 || 8 < rail || !s.supplyBad rail mv then s
  else
    let s1 := ((s.setRail rail (railLevel rail mv)).bump 0x200D 0 1).deviceFatalAt (some (rail, mv))
    ({ s1 with power := { s1.power with
      trip := true, tripHolds := flagAdd s1.power.tripHolds rail
      poisonAll := s1.power.poisonAll || rail == 6 || rail == 7 } }).tripRails

/-- A supply or PMBus warning is held in the keeper log (R440, R441, R456). -/
def State.supplyWarning (s : State) : Bool := s.log.entries.any (fun e => e.code == 0x10 || e.code == 0x11 || e.code == 0x12)

/-- `ALERT_N` is low (R456). -/
def State.alertLow (s : State) : Bool :=
  let mask := s.entry 0x3008 0
  let src := fun (i : Nat) (b : Bool) => b && !bitAt mask i
  src 0 ((List.range 16).any (fun k => (s.comb k).lstage != 0)) || src 1 ((List.range 4).any (fun k => (s.stackTherm k).stage != 0))
    || src 2 ((List.range 16).any (fun k => decide (1 < (s.comb k).cap))) || src 3 s.supplyWarning

/-! ## Reference clocks (R452) -/

/-- Row REFCLK_LOSS. [DESIGN CHOICE, log entry 3; DEDUCED, log entry 113] -/
def State.refclkLoss (s : State) : State :=
  if !s.refclk then s
  else
    let s1 := { s with refclk := false }
    if s1.power.path == .held then s1.event 3 2 true []
    else if s1.host.rate == 0 then s1 else s1.hostReset true

/-- Row REFCLK_RETURN. -/
def State.refclkReturn (s : State) : State := { s with refclk := true }

/-- Row SREFCLK_LOSS: every port loses lock. -/
def State.srefclkLoss (s : State) : State :=
  let s1 := { s with power := { s.power with srefPresent := false } }
  (List.range 8).foldl (fun (acc : State) p => match (acc.port p).link with
    | .absent => acc
    | .up => acc.portLost p
    | .retrain => acc.portLost p
    | _ => acc.enterLink p .absent) s1

/-- Row SREFCLK_RETURN. -/
def State.srefclkReturn (s : State) : State := { s with power := { s.power with srefPresent := true } }

/-! ## The nurse's own tasks (R457–R460) -/

/-- Row LANE_TUNING: one lane of a Hante port. [DEDUCED, log entry 94] -/
def State.laneTuning (s : State) (p lane : Nat) : State :=
  let x := s.port p
  if !s.keeperUp || !s.taskOn 11 || x.ether || x.link != .up then s
  else (s.setPort p { x with tuning := x.tuning &&& ~~~ (1#4 <<< lane) }).taskRun 11

/-- Has a comb no launch? -/
def State.combIdle (s : State) (k : Nat) : Bool := (List.range 8).all (fun i => s.cellFree (8 * k + i))

/-- Row GUARDBAND_RUN: a run ends with a change of the offset, or is abandoned. -/
def State.guardbandRun (s : State) (k : Nat) (delta : Int) (abandoned : Bool) : State :=
  let x := s.comb k
  if !s.keeperUp || !s.taskOn 12 || !s.running || abandoned || !s.combIdle k then s
  else
    let g := clampInt 0 30 ((x.guard : Int) + clampInt (-5) 5 delta)
    (s.setComb k { x with guard := g.toNat, overdue := false, guardNow := false }).taskRunOn 12 k

/-- Row NURSE_OVERDUE: a task, for task 12 of comb k, has not completed a due run within four of its periods; for task 5,
`CALIB_OVERDUE` of channel k (R47). [DEDUCED, log entry 113] -/
def State.nurseOverdue (s : State) (t k : Nat) : State :=
  if t == 5 then (if k < 256 then s.calibOverdue k else s)
  else if !s.keeperUp || t < 1 || 14 < t then s
  else
    let s1 := s.markOverdue t (if t == 12 then k else 0)
    let s2 := if t == 12 then s1.setComb k { s1.comb k with overdue := true } else s1
    (s2.bump 0x9003 t 1).event 0x17 1 true (bytesLE 1 t)

/-- Row TUNE_NOW, once its write is accepted. [DEDUCED, log entry 94] -/
def State.tuneNow (s : State) (p : Nat) : Nat × State := (stOk, s.modPort p (fun x => if x.ether then x else { x with tuning := 15#4 }))

/-- Row GUARD_NOW, once its write is accepted. -/
def State.guardNow (s : State) (k : Nat) : Nat × State := (stOk, s.setComb k { s.comb k with guardNow := true })

/-- Is a partition idle: no launch placed or saved, no queue with an untaken command (R460)? -/
def State.partIdle (s : State) (p : Nat) : Bool :=
  !s.launches.any (fun (l : Nat × Launch) => l.2.partition == p)
    && s.queues.all (fun (q : Nat × Queue) => q.2.status == QueueStatus.free || s.queuePart q.1 != p
      || (if q.2.span then !(s.spanWait ++ s.spanPort).any (fun r => r.1 == q.1) else q.2.taken == q.2.tail))

/-- Does a migration copy one of the partition's quarters (R461)? -/
def State.partMigrates (s : State) (p : Nat) : Bool := match s.migration with
  | some m => m.phase != MigPhase.draining && (s.ctx m.context).partition == p
  | none => false

/-- Row PART_SELFTEST, once its write is accepted. [DEDUCED, log entry 115] -/
def State.partSelftest (s : State) (p : Nat) : Nat × State :=
  if (s.part p).state != PartState.active || (s.part p).selfTest || !s.partIdle p || s.partMigrates p then (stBusy, s)
  else (stOk, s.modPart p (fun x => { x with selfTest := true }))

/-- Row SELFTEST_DONE: failing granules and cells found. -/
def State.selftestDone (s : State) (p failing : Nat) : State :=
  if !(s.part p).selfTest then s
  else
    ((s.modPart p (fun x => { x with selfTest := false })).setEntry 0x9021 (p + 1)
      (2 ^ 31 + (if failing = 0 then 0 else 2 ^ 30) + min failing (2 ^ 30 - 1))).cmdEnd 0x9020 (p + 1) stOk

/-- `COMB_PWR` (R462). -/
def State.combPwr (s : State) (k : Nat) : Nat :=
  let x := s.comb k
  let c := s.ceiling k
  x.point % 8 * 2 ^ 29 + c.1 % 8 * 2 ^ 26 + c.2 % 4 * 2 ^ 24 + b2n (s.headroom k) * 2 ^ 23 + x.lstage % 4 * 2 ^ 21 + x.guard % 32 * 2 ^ 16
    + unsigned 16 x.temp

end Sys2Proof.Machine
end

