-- ==== Sys2Proof/Machine/Errors.lean ====
section
/-!
DEFINITION. The taster's checks and verdicts, quarantine, and replica digests (rows TASTER_CHECKER_DISPATCH to
REPLICA_REPAIRED; R418–R435).
-/
namespace Sys2Proof.Machine

/-! ## Quarantine (R423, R424) -/

/-- End what can no longer be placed after a cell left the placeable ones: launches that wait saved (R249). A queued command
ends when the dispatcher takes it. [DEDUCED, log entry 99] -/
def State.shrinkEnd (s : State) : State :=
  (s.launches.filter (fun (l : Nat × Launch) =>
    (l.2.phase == .saved || l.2.phase == .taken) && !s.everFits l.2.queue l.2.variant.footprint)).foldl
    (fun (acc : State) l => (acc.bump 0x6024 0 1).endLaunch l.1 (some stContextShape) 0) s

/-- Row QUARANTINE_EFFECTIVE: the launch has left the cell; its residency tag is cleared (R253, R423). [DEDUCED, log entry 99] -/
def State.quarantineEffective (s : State) (c : Nat) : State :=
  if !(s.healthOf c).pending || (s.cell c).launch.isSome then s
  else ((s.setHealth c { s.healthOf c with pending := false }).modCell c (fun x => { x with residency := none })).shrinkEnd

/-- Quarantine a cell: its bit is set and the event sent; a launch that holds it runs on (R423). [DEDUCED, log entry 99] -/
def State.quarantine (s : State) (c : Nat) : State :=
  if s.quarantined.getLsbD c then s
  else
    let s1 := { s with quarantined := s.quarantined ||| (1#128 <<< c) }
    (((s1.event 0x24 2 true (bytesLE 1 c)).setHealth c { s.healthOf c with pending := true })).quarantineEffective c

/-- Strikes that still stand within the window (R423). [DEDUCED, log entry 98] -/
def State.strikesOf (s : State) (c : Nat) : List DWord :=
  (s.healthOf c).strikes.filter (fun t => decide ((s.time - t).toNat ≤ s.entry 0x6056 0 * 3600000000000))

/-- Charge a cell a strike (R421, R423). -/
def State.strikeCell (s : State) (c : Nat) : State :=
  let all := s.strikesOf c ++ [s.time]
  let s1 := (s.setHealth c { s.healthOf c with strikes := all }).event 0x23 1 false (bytesLE 1 c)
  if s1.entry 0x6055 0 ≤ all.length then s1.quarantine c else s1

/-- Row QUARANTINED_WRITE: a cell whose bit the operator clears is released at once with no strikes, one whose bit he sets is
quarantined (R424). -/
def State.quarantinedWrite (s : State) (b : List Byte) : Nat × State :=
  if b.length != 16 then (stIllegalOp, s)
  else
    let mask := BitVec.ofNat 128 (leNat b)
    let old := s.quarantined
    let out := (List.range 128).foldl (fun (acc : State) c =>
      if old.getLsbD c && !mask.getLsbD c then
        ({ acc with quarantined := acc.quarantined &&& ~~~(1#128 <<< c) }).setHealth c { acc.healthOf c with strikes := [], pending := false }
      else if mask.getLsbD c && !old.getLsbD c then acc.quarantine c
      else acc) s
    (stOk, out)

/-! ## The taster (R418–R422) -/

/-- The partition of a comb, if one has it. -/
def State.combPart (s : State) (k : Nat) : Option Nat := (s.liveParts.find? (fun p => p.2.combMask.getLsbD k)).map (fun p => p.1)

/-- May a cell check a capture of another (R420)? One capture at a time runs on a cell. [DEDUCED, log entry 96] -/
def State.mayCheck (s : State) (t : TasterCheck) (c : Nat) : Bool :=
  decide (c < 128) && s.cellFree c && !s.outOfUse c && c != t.cell && t.first.map (·.1) != some c
  && !s.tasters.any (fun (u : Nat × TasterCheck) => u.2.on == some c)
  && (match s.combPart (combOf c) with | none => true | some p => s.combPart (combOf t.cell) == some p)

/-- Row TASTER_CHECKER_DISPATCH: the checker's weight registers become undefined; nothing else of it changes (R420).
[DEDUCED, log entry 96] -/
def State.tasterDispatch (s : State) (id c : Nat) : State :=
  match tabFind s.tasters id with
  | none => s
  | some t =>
    if t.on.isSome || !s.mayCheck t c then s
    else ({ s with tasters := tabSet s.tasters id { t with on := some c } }).modCell c (fun x =>
      { x with array := { x.array with wregs := [] } })

/-- A verdict has been reached: the launch awaits one fewer, and may end (R60, R422). [DEDUCED, log entry 97] -/
def State.verdictDone (s : State) (id : Nat) (t : TasterCheck) : State :=
  let s1 := ({ s with tasters := tabErase s.tasters id }).modLaunch t.launch (fun x => { x with verdicts := x.verdicts - 1 })
  match s1.launch? t.launch with
  | some x => (match x.cells.head? with | some c => s1.checkCellEnd c | none => s1)
  | none => s1

/-- End the origin's launch with ARITH_MISMATCH; a launch that has ended already is told nothing (R421, R422). -/
def State.mismatchEnd (s : State) (t : TasterCheck) : State := s.endLaunch t.launch (some stArithMismatch) 0

/-- A vote without a majority (R421). -/
def State.tasterUndecided (s : State) (id : Nat) (t : TasterCheck) (first third : Nat) : State :=
  (((s.bump 0x6054 0 1).event 0x22 2 true (bytesLE 1 t.cell ++ bytesLE 1 first ++ bytesLE 1 third)).mismatchEnd t).verdictDone id t

/-- Row TASTER_SEARCH_TIMEOUT: no checker skips the sample; no third cell leaves the vote undecided (R420, R421). -/
def State.tasterTimeout (s : State) (id : Nat) : State :=
  match tabFind s.tasters id with
  | none => s
  | some t =>
    if t.on.isSome then s
    else match t.first with
      | none => (s.bump 0x6052 0 1).verdictDone id t
      | some (c, _) => s.tasterUndecided id t c 0xFF

/-- Row TASTER_CHECK_COMPLETE: the checker's checksum is that of the capture, but for the silent error `err` of its own array (R420,
R421). [DEDUCED, log entry 96; DEDUCED, log entry 97] -/
def State.tasterComplete (s : State) (id : Nat) (err : DWord) : State :=
  match tabFind s.tasters id with
  | none => s
  | some t =>
    let sum := captureSum t.key t.pass ^^^ err
    match t.on, t.first with
    | none, _ => s
    | some c, none =>
      if sum == t.sum then (s.bump 0x6051 0 1).verdictDone id t
      else { s with tasters := tabSet s.tasters id { t with on := none, first := some (c, sum) } }
    | some c, some (d, other) =>
      if sum == t.sum then ((s.bump 0x6053 0 1).strikeCell d).verdictDone id t
      else if sum == other then
        ((((s.bump 0x6053 0 1).event 0x22 2 true (bytesLE 1 t.cell ++ bytesLE 1 d ++ bytesLE 1 c)).strikeCell t.cell).mismatchEnd t).verdictDone id t
      else s.tasterUndecided id t d c

/-- `CELL_HEALTH` (R434). -/
def State.cellHealth (s : State) (c : Nat) : Nat :=
  let h := s.healthOf c
  b2n (s.tasters.any (fun (u : Nat × TasterCheck) => u.2.on == some c)) * 2 ^ 31 + min 7 (s.strikesOf c).length * 2 ^ 28
  + b2n h.pending * 2 ^ 27 + h.sampled % 65536

/-! ## Replica sets (R425–R432) -/

/-- The copy of a set on this device. -/
def State.replicaOf (s : State) (id : Nat) : Option (Nat × Replica) := s.replicas.find? (fun (r : Nat × Replica) => r.2.setId == id)

/-- The copy a record describes (R425). -/
def replicaFrom (b : List Byte) : Replica :=
  { setId := leAt b 0 4, copies := leAt b 4 1, self := leAt b 5 1, partition := leAt b 6 1, context := leAt b 8 2
    boardWin := leAt b 0x0A 1, weightWin := leAt b 0x0B 1, vbase := leAt b 0x10 8, length := leAt b 0x18 8, board := leAt b 0x20 8
    h := BitVec.ofNat 128 (leAt b 0x28 16), peers := (List.range 8).map (fun i => (leAt b (0x40 + 8 * i) 2, leAt b (0x42 + 8 * i) 2))
    version := 0#64, suspect := false, repairing := none, copied := 0, asked := none, running := none, passes := 0, seen := [], silent := [], reported := false
    healed := false }

/-- Is the peer entry `i` of a record in range (R425)? [DEDUCED, log entry 100] -/
def peerOk (b : List Byte) (copies self i : Nat) : Bool :=
  if i == self || decide (copies ≤ i) then leAt b (0x40 + 8 * i) 8 == 0
  else leAt b (0x44 + 8 * i) 4 == 0 && decide (leAt b (0x40 + 8 * i) 2 < 4096) && decide (leAt b (0x42 + 8 * i) 2 < 4096)

/-- Are the fields of a replica set record in range and its RSV fields zero (R425)? [DEDUCED, log entry 100] -/
def replicaFieldsOk (b : List Byte) : Bool :=
  let r := replicaFrom b
  b.length == 128 && r.setId != 0 && decide (2 ≤ r.copies) && decide (r.copies ≤ 8) && decide (r.self < r.copies)
  && decide (r.partition < 16) && leAt b 7 1 == 0 && leAt b 0x0C 4 == 0 && leAt b 0x38 8 == 0
  && r.vbase % 65536 == 0 && r.length % 65536 == 0 && decide (65536 ≤ r.length) && decide (r.length ≤ 2 ^ 34)
  && r.board % 65536 == 0 && r.h != 0#128 && (List.range 8).all (peerOk b r.copies r.self)

/-- Is every page of a span mapped with `R`? -/
def State.mappedR (s : State) (c va n : Nat) : Bool :=
  (spanPages va n).all (fun p => match (s.ctx c).leaf p with | some (e, _) => pteR e | none => false)

/-- Row REPLICA_DEFINE (R425). [DEDUCED, log entry 100] -/
def State.replicaDefine (s : State) (b : List Byte) : Nat × State :=
  let r := replicaFrom b
  let x := s.ctx r.context
  if !replicaFieldsOk b || !x.used || x.partition != r.partition || !s.mappedR r.context r.vbase r.length || (s.replicaOf r.setId).isSome then
    (stIllegalOp, s)
  else match tabFree s.replicas 0 16 with
    | none => (stBusy, s)
    | some k => (stOk, { s with replicas := tabSet s.replicas k r })

/-- Row REPLICA_VERSION: a pass under way is discarded; a new version ends a mark (R427, R431). [DEDUCED, log entry 101] -/
def State.replicaVersion (s : State) (b : List Byte) : Nat × State :=
  match s.replicaOf (leAt b 0 4) with
  | none => (stIllegalOp, s)
  | some (k, r) =>
    if b.length != 16 || leAt b 4 4 != 0 then (stIllegalOp, s)
    else
      let v := BitVec.ofNat 64 (leAt b 8 8)
      let fresh := v != 0#64
      (stOk, { s with replicas := tabSet s.replicas k { r with
        version := v, running := none, repairing := none, asked := none, suspect := r.suspect && !fresh, reported := r.reported && !fresh, healed := false } })

/-- Row REPLICA_REMOVE (R425). -/
def State.replicaRemove (s : State) (id : Nat) : Nat × State :=
  match s.replicaOf id with
  | none => (stIllegalOp, s)
  | some (k, _) => (stOk, { s with replicas := tabErase s.replicas k })

/-- Row REPLICA_CLEAR (R431). [DEDUCED, log entry 101] -/
def State.replicaClear (s : State) (id : Nat) : Nat × State :=
  match s.replicaOf id with
  | none => (stIllegalOp, s)
  | some (k, r) => (stOk, { s with replicas := tabSet s.replicas k { r with suspect := false, reported := false } })

/-! ### A digest pass (R426, R428) -/

/-- The region as the digest units read it: bytes, and whether a granule is poisoned; none where a page is not mapped. -/
def State.regionBytes (s : State) (r : Replica) : Option (List Byte × Bool) :=
  (spanPages r.vbase r.length).foldl (fun (acc : Option (List Byte × Bool)) p =>
    match acc, (s.ctx r.context).leaf p with
    | some (bs, po), some (e, big) => let (d, q) := s.dramView (leafPa e big p) 65536
                                      some (bs ++ d, po || q)
    | _, _ => none) (some ([], false))

/-- Product in GF(2^128) (R426). -/
def mul128 (a b : Nat) : Nat := gfMul 128 (2 ^ 128 + 0x87) a b

/-- The digest over 16 B words (R426), `fuel` words at most. -/
def digestFrom (h : Nat) : Nat → List Byte → Nat → Nat
  | 0, _, d => d
  | n + 1, bs, d => if bs.isEmpty then d else digestFrom h n (bs.drop 16) (mul128 (d ^^^ leNat (bs.take 16)) h)

/-- The digest D of a region (R426). -/
def digest (h : Nat) (bs : List Byte) : Nat := mul128 (digestFrom h (bs.length / 16 + 1) bs 0 ^^^ bs.length) h

/-- A digest record's bytes (R428). -/
def DigestRecord.bytes (d : DigestRecord) : List Byte :=
  bytesLE 4 d.setId ++ bytesLE 1 d.state ++ bytesLE 1 d.copy ++ bytesLE 2 0 ++ bytesLE 8 d.version ++ bytesLE 16 d.digest ++ bytesLE 8 d.pass
  ++ bytesLE 8 d.stamp ++ bytesLE 16 0

/-- A record read from a board. -/
def digestRecord (b : List Byte) : DigestRecord :=
  { setId := leAt b 0 4, state := leAt b 4 1, copy := leAt b 5 1, version := leAt b 8 8, digest := leAt b 0x10 16, pass := leAt b 0x20 8
    stamp := leAt b 0x28 8 }

/-- Write a record into slot `SELF` of every peer's board and of the own board (R428). -/
def State.postDigest (s : State) (r : Replica) (d : DigestRecord) : State :=
  let s1 := s.vwrite r.context (r.board + 64 * r.self) d.bytes false
  ((List.range r.copies).filter (· != r.self)).foldl (fun (acc : State) i =>
    let slot := (r.peers.getD i (0, 0)).1
    let pa := windowBase + slot * windowSlotBytes + 64 * r.self
    match acc.importAt pa 64 with
    | some im => acc.windowSend im .nurse 0 0 pa true d.bytes 64 false 0 0 0
    | none => acc) s1

/-- The record of copy `i` on the own board; none where it is another set's, or cannot be read. -/
def State.boardRecord (s : State) (r : Replica) (i : Nat) : Option DigestRecord :=
  match (s.ctx r.context).leaf (r.board + 64 * i) with
  | none => none
  | some (e, big) =>
    let (bs, po, _) := s.memRead (leafPa e big (r.board + 64 * i)) 64
    let d := digestRecord bs
    if !po && d.setId == r.setId && d.copy == i then some d else none

/-- Row DIGEST_PASS_START: a repair that waits is taken up again instead (R427, R428, R430, R457). [DESIGN CHOICE, log entry 166] -/
def State.digestStart (s : State) (k : Nat) : State :=
  match tabFind s.replicas k with
  | some r => if r.repairing.isSome then s.repairNext k
              else if !s.taskOn 9 || r.running.isSome then s
              else { s with replicas := tabSet s.replicas k { r with running := some r.version } }
  | none => s

/-- Keep account of the peers' pass counts: a peer whose `PASS` has not changed over two passes is silent (R428).
[DEDUCED, log entry 102] -/
def State.noteSilence (s : State) (r : Replica) : State × Replica :=
  ((List.range r.copies).filter (· != r.self)).foldl (fun (acc : State × Replica) i =>
    let (z, x) := acc
    let pass := match z.boardRecord x i with | some d => d.pass | none => 0
    match tabFind x.seen i with
    | none => (z, { x with seen := tabSet x.seen i (pass, 0) })
    | some (was, n) =>
      if was != pass then (z, { x with seen := tabSet x.seen i (pass, 0), silent := x.silent.filter (· != i) })
      else if n + 1 == 2 then
        ((z.bump 0x4309 0 1).event 0x26 1 true (bytesLE 4 x.setId ++ bytesLE 1 i),
          { x with seen := tabSet x.seen i (pass, 2), silent := x.silent ++ [i] })
      else (z, { x with seen := tabSet x.seen i (pass, min 2 (n + 1)) })) (s, r)

/-- What a copy finds after a pass (R429). -/
inductive Verdict where
  | nothing
  | winner
  | divergent
  /-- It is no winner, and repairs from this copy; `bad` by a minority digest or by poison. -/
  | repair (copy : Nat) (bad : Bool)
deriving DecidableEq, Repr

/-- The decision of R429 from the copy's own record and those of its peers. [DEDUCED, log entry 102] -/
def decideCopy (own : DigestRecord) (peers : List DigestRecord) : Verdict :=
  let all := (own :: peers).filter (fun (d : DigestRecord) => d.state == 0 || d.state == 4)
  let v := (all.map (fun (d : DigestRecord) => d.version)).foldl max 0
  let n := all.filter (fun (d : DigestRecord) => d.version == v)
  let holders := fun (g : Nat) => n.filter (fun (d : DigestRecord) => d.digest == g)
  let win : Option (List DigestRecord) := match n with
    | [] => none
    | d :: _ =>
      if (holders d.digest).length == n.length then some n
      else if decide (3 ≤ n.length) then
        (match n.find? (fun (e : DigestRecord) => decide (n.length < 2 * (holders e.digest).length)) with
         | some e => some (holders e.digest)
         | none => none)
      else none
  match win with
  | none => if n.contains own then .divergent else .nothing
  | some w =>
    if w.contains own then .winner
    else if own.state == 1 then .nothing
    else .repair ((w.map (fun (d : DigestRecord) => d.copy)).foldl min 255) (own.state == 3 || own.version == v)

/-- Counter of replica copy `k` (R507). -/
def State.countReplica (s : State) (k i n : Nat) : State := s.countFull (0x45000 + 8 * (28 + 4 * k + i)) n

/-- Row DIGEST_PASS_DONE: the pass posts its record and the copy decides (R428–R430). A decision that finds a winner ends an earlier
mark, and a copy that lost by digest or poison is SUSPECT until its repair ends (R431). [DEDUCED, log entry 102] -/
def State.digestDone (s : State) (k : Nat) : State :=
  match tabFind s.replicas k with
  | none => s
  | some r =>
    if r.running.isNone || !s.keeperUp then s
    else match s.regionBytes r with
      | none => { s with replicas := tabSet s.replicas k { r with running := none } }
      | some (bs, poison) =>
        let st := if r.version == 0#64 then 1 else if poison then 3 else if r.suspect then 4 else 0
        let own : DigestRecord := { setId := r.setId, state := st, copy := r.self, version := r.version.toNat
                                    digest := digest r.h.toNat bs, pass := r.passes + 1, stamp := s.time.toNat }
        let r1 := { r with running := none, passes := r.passes + 1 }
        let s1 := ((s.postDigest r1 own).taskRun 9).countReplica k 0 1
        let (s2, r2) := s1.noteSilence r1
        let peers := ((List.range r.copies).filter (fun i => i != r.self && !r2.silent.contains i)).filterMap (s2.boardRecord r2)
        let put := fun (z : State) (x : Replica) => { z with replicas := tabSet z.replicas k x }
        match decideCopy own peers with
        | .nothing => put s2 r2
        | .winner =>
          let s3 := if r2.healed then s2.event 0x27 0 true (bytesLE 4 r.setId ++ bytesLE 1 r.self) else s2
          put s3 { r2 with suspect := false, reported := false, healed := false }
        | .divergent =>
          let s3 := if r2.reported then s2
                    else ((s2.bump 0x4307 0 1).event 0x25 2 true (bytesLE 4 r.setId ++ bytesLE 8 r.version.toNat)).countReplica k 1 1
          put s3 { r2 with suspect := true, reported := true }
        | .repair w bad =>
          if !s2.taskOn 10 then put s2 { r2 with suspect := bad }
          else
            ((put s2 { r2 with repairing := some w, copied := 0, asked := none, suspect := bad, reported := false }).postDigest r2
              { own with state := 2 }).repairNext k

/-- Row REPLICA_REPAIRED: the region of copy `w` has been copied; its version is taken and a new pass begins, once the keeper runs
(R430, R466). [DEDUCED, log entry 102] -/
def State.replicaRepaired (s : State) (k w : Nat) : State :=
  match tabFind s.replicas k with
  | none => s
  | some r =>
    if r.repairing != some w || r.copied != r.length || !s.keeperUp then s
    else
      let v := match s.boardRecord r w with | some d => BitVec.ofNat 64 d.version | none => r.version
      let s1 := (s.bump 0x4308 0 1).taskRun 10
      let s2 := (s1.countReplica k 2 1).countReplica k 3 r.length
      { s2 with replicas := tabSet s2.replicas k { r with repairing := none, suspect := false, version := v, running := some v, healed := true } }

end Sys2Proof.Machine
end

