-- ==== Sys2Proof/Machine/Regs.lean ====
section
/-!
DEFINITION. Control space: what every register of it reads, what a write does to a register without behaviour of its own,
and the admin commands that read and clear registers (rows REG_READ, REG_CLEAR, REGISTER_WRITE; R12, R21, R74, R185, R212,
R245, R273, R298, R302, R328, R348, R353, R372, R373, R407, R434, R462, R505, R522).
-/
namespace Sys2Proof.Machine

/-- First address of control space (R17). -/
def ctlBase : Nat := 0x020000000000

/-! ## Pages the host can reach (R245, R273, R298, R353, R372, R481) -/

/-- A 64-bit register of the doorbell page of queue `q`. -/
def State.doorbellReg (s : State) (q off : Nat) : Nat := if off = 0x10 then (s.queue q).dbStatus else 0

/-- `MB_STATE` (R481). A request is served at its doorbell, so no state of the model shows the mailbox busy.
[DESIGN CHOICE, log entry 133] -/
def State.mbState (s : State) : Nat :=
  s.keeper.mailbox.done.toNat % 2 ^ 32 * 2 ^ 32 + (if !s.keeperUp then 2 else 0)

/-- A 64-bit register of the device control page. -/
def State.deviceReg (s : State) (off : Nat) : Nat :=
  match off with
  | 0x018 => s.admin.cqBase.toNat
  | 0x020 => s.admin.replyBase.toNat
  | 0x028 => s.admin.noteBase.toNat
  | 0x030 => b2n s.admin.running
  | 0x038 => b2n s.admin.irqEn * 2 ^ 63 + s.admin.irqVector.toNat
  | 0x040 => s.host.fnWord
  | 0x108 => s.mbState
  | _ =>
    if 0x200 ≤ off ∧ off < 0x400 then (tabGet 0#64 s.host.slots ((off - 0x200) / 8)).toNat
    else if 0xA00 ≤ off ∧ off < 0x1000 then leNat (s.keeper.mailbox.reply.read (off - 0xA00) 8) else 0

/-- Code of a partition state. -/
def PartState.code : PartState → Nat
  | .free => 0 | .active => 1 | .resetting => 2

/-- Contexts and queues of a partition in use. -/
def State.contextsOf (s : State) (p : Nat) : Nat := (s.contexts.filter (fun (c : Nat × Context) => c.2.used && c.2.partition == p)).length
def State.queuesOf (s : State) (p : Nat) : Nat :=
  (s.queues.filter (fun (q : Nat × Queue) => q.2.status != QueueStatus.free && (s.ctx q.2.context).partition == p)).length

/-- A 64-bit register of the control page of partition `p` (R245); `DEVICE_TIME` is the host port's copy of the counter (R16). -/
def State.partReg (s : State) (p off : Nat) : Nat :=
  let x := s.part p
  match off with
  | 0x000 => (if x.state == .free then 0 else p % 16 * 2 ^ 60) + x.state.code * 2 ^ 58 + x.combMask.toNat * 2 ^ 40 + x.frames.toNat * 2 ^ 24
      + x.rcShare.toNat * 2 ^ 16 + x.foragerWt.toNat * 2 ^ 8
  | 0x008 => x.contexts.toNat * 2 ^ 48 + x.queues.toNat * 2 ^ 32 + s.contextsOf p % 65536 * 2 ^ 16 + s.queuesOf p % 65536
  | 0x010 => s.placeableCount p
  | 0x018 => (s.islandTime 152).toNat
  | 0x020 => s.host.fnWord / 256 % 4
  | 0x028 => x.resets.toNat
  | _ => 0

/-! ## Register blocks -/

/-- A register of the block of cell `c` (R74, R98, R120, R142, R157, R434). -/
def State.cellReg (s : State) (c off : Nat) : Nat :=
  let x := s.cell c
  let quar := s.outOfUse c
  match off with
  | 0x000 => b2n quar * 2 ^ 31 + b2n x.launch.isSome * 2 ^ 30 + x.layerCount.toNat * 2 ^ 16
      + ((List.range 16).map (fun t => b2n ((x.thread t).status != .idle) * 2 ^ t)).sum
  | 0x008 => x.fault.toNat
  | 0x040 => x.arrayStateWord
  | 0x044 => x.quantStateWord
  | 0x048 => x.vecStateWord
  | 0x04C => x.sampStateWord
  | 0x050 => s.cellHealth c
  | _ => if 0x100 ≤ off ∧ off < 0x140 ∧ off % 4 = 0 then (x.calendar.getD ((off - 0x100) / 4) 0#32).toNat else 0

/-- The fault registers of a collector (R348), from the base of its records. -/
def State.faultReg (s : State) (k off : Nat) : Nat :=
  let x := s.collector k
  if off = 0x400 then x.fatal.toNat
  else if off = 0x408 then x.fatalVa.toNat
  else if 0x400 ≤ off then 0
  else match tabFind x.records (off / 0x20) with
    | some f => if off % 0x20 = 0 then (faultWord0 f).toNat else if off % 0x20 = 8 then f.page % 2 ^ 32 * 65536 else 0
    | none => 0

/-- A register of the hub block of comb `k` (R74, R328, R348, R462). -/
def State.combReg (s : State) (k off : Nat) : Nat :=
  if off = 0x100 then s.combPwr k
  else if 0x20000 ≤ off ∧ off < 0x20410 then s.faultReg k (off - 0x20000)
  else if off = 0x30000 then (tabGet (0#64, 0) s.streamErr k).1.toNat
  else if 0x40000 ≤ off ∧ off < 0x42000 then
    let v := tabGet StreamSlot.idle (s.cell (8 * k + (off - 0x40000) / 0x400)).streams ((off - 0x40000) % 0x400 / 0x40)
    match off % 0x40 with
    | 0x00 => v.word
    | 0x08 => v.pos 0
    | 0x10 => v.pos 1
    | 0x18 => v.pos 2
    | _ => 0
  else if 0x80000 ≤ off ∧ off < 0x88000 then s.cellReg (8 * k + (off - 0x80000) / 0x1000) (off % 0x1000)
  else 0

/-- Does a fetch of forager `f` wait on its stack in throttle stage 3 (R185)? -/
def State.fetchHeld (s : State) (f : Nat) : Bool :=
  s.works.any (fun (w : Nat × BagWork) => w.2.fetches.any (fun (x : Fetch) => x.forager == f && (match x.state with
    | .missed pa => (s.stackTherm (stackOf pa)).stage == 3
    | _ => false)))

/-- `RC_STATE` (R212). -/
def State.rcState (s : State) (f : Nat) : Nat :=
  let x := tabGet Forager.idle s.foragers f
  let sectors := fun (p : RcLine → Bool) => ((x.lines.filter (fun (l : Nat × RcLine) => p l.2)).map (fun (l : Nat × RcLine) => l.2.sectors)).sum
  x.epochs.length % 32 * 2 ^ 59 + (s.staged.filter (fun (e : Staged) => e.stack == f)).length % 16384 * 2 ^ 45
    + sectors (fun l => l.ref != 0) % 2 ^ 17 * 2 ^ 28 + sectors (fun l => l.pin && l.ref == 0) % 2 ^ 20 * 2 ^ 8

/-- A register of the block of forager `f` (R185, R212, R348). -/
def State.foragerReg (s : State) (f off : Nat) : Nat :=
  let x := tabGet Forager.idle s.foragers f
  match off with
  | 0x000 => s.foragerStateWord f (s.fetchHeld f)
  | 0x008 => x.err.toNat
  | 0x010 => x.errRow.toNat
  | 0x040 => s.rcState f
  | 0x048 => x.rcErr.toNat
  | 0x050 => x.rcErrRow.toNat
  | _ => if 0x10000 ≤ off ∧ off < 0x10410 then s.faultReg (16 + f) (off - 0x10000) else 0

/-- `DBG_STATE` (R522). -/
def State.dbgState (s : State) : Nat :=
  let d := s.tracer
  b2n d.frozen * 2 ^ 62 + d.mode.code * 2 ^ 60 + d.source % 16 * 2 ^ 56 + d.island % 256 * 2 ^ 48 + b2n (s.entry 0x8002 0 == 1) * 2 ^ 32
    + d.id % 2 ^ 32

/-- A register of counter space (R505, R511, R522). -/
def State.counterReg (s : State) (off : Nat) : Nat :=
  if off % 8 ≠ 0 then 0
  else if off < 0x200 ∨ (0x10000 ≤ off ∧ off < 0x45800) then s.counterAt off
  else if 0x1000 ≤ off ∧ off < 0x1000 + 163 * 8 then (tabGet 0#64 s.tracer.stamps ((off - 0x1000) / 8)).toNat
  else if off = 0x2000 then s.dbgState
  else if off = 0x2008 then s.tracer.trigTime.toNat
  else if 0x46000 ≤ off ∧ off < 0x46080 ∧ off % 16 = 0 then
    let p := tabGet (0, 0) s.tracer.ports ((off - 0x46000) / 16)
    p.1 % 2 ^ 32 + p.2 % 2 ^ 32 * 2 ^ 32
  else 0

/-- What a read of the register at control-space address `a` returns (R21): 32-bit registers in the low half, zero at a
reserved address or of a write-only register. -/
def State.regValue (s : State) (a : Nat) : Nat :=
  let off := a - ctlBase
  if a < ctlBase then 0
  else if off < 0x400000 then s.doorbellReg (off / 0x1000) (off % 0x1000)
  else if off < 0x401000 then s.deviceReg (off - 0x400000)
  else if off < 0x411000 then s.partReg ((off - 0x401000) / 0x1000) (off % 0x1000)
  else if 0x1000000 ≤ off ∧ off < 0x2000000 then s.combReg ((off - 0x1000000) / 0x100000) (off % 0x100000)
  else if 0x2000000 ≤ off ∧ off < 0x2400000 then s.foragerReg ((off - 0x2000000) / 0x100000) (off % 0x100000)
  else if 0x3000000 ≤ off ∧ off < 0x4000000 then
    (match off % 0x200000 with
     | 0 => s.portWord ((off - 0x3000000) / 0x200000)
     | 8 => (s.port ((off - 0x3000000) / 0x200000)).err.toNat
     | _ => 0)
  else if 0x4000000 ≤ off ∧ off < 0x4100000 then
    let o := off - 0x4000000
    if o = 0 then s.host.word
    else if 0x100 ≤ o ∧ o < 0x300 ∧ o % 8 = 0 then (tabGet 0#64 s.host.slots ((o - 0x100) / 8)).toNat
    else 0
  else if 0x5000000 ≤ off ∧ off < 0x6000000 ∧ off % 0x400000 = 0x100 then (s.stackTherm ((off - 0x5000000) / 0x400000)).word
  else if 0x10000000 ≤ off ∧ off < 0x11000000 then s.counterReg (off - 0x10000000)
  else 0

/-! ## Clearing `VALID` (R74, R185, R212, R328, R348, R407) -/

/-- A register with its `VALID` bit cleared. [DEDUCED, log entry 135] -/
def dropValid (x : DWord) : DWord := x &&& ~~~(1#64 <<< 63)

/-- Writing 1 to the `VALID` bit of the register at control-space address `a`; other addresses hold no such bit. [DEDUCED, log entry 135] -/
def State.clearValid (s : State) (a : Nat) : State :=
  let off := a - ctlBase
  let fatal := fun (k : Nat) => s.setCollector k { s.collector k with fatal := dropValid (s.collector k).fatal }
  if a < ctlBase then s
  else if 0x1000000 ≤ off ∧ off < 0x2000000 then
    let k := (off - 0x1000000) / 0x100000
    let o := off % 0x100000
    if o = 0x20400 then fatal k
    else if o = 0x30000 then
      let e := tabGet (0#64, 0) s.streamErr k
      { s with streamErr := tabSet s.streamErr k (dropValid e.1, e.2) }
    else if 0x80000 ≤ o ∧ o < 0x88000 ∧ o % 0x1000 = 8 then s.modCell (8 * k + (o - 0x80000) / 0x1000) (fun x => { x with fault := dropValid x.fault })
    else s
  else if 0x2000000 ≤ off ∧ off < 0x2400000 then
    let f := (off - 0x2000000) / 0x100000
    let x := tabGet Forager.idle s.foragers f
    match off % 0x100000 with
    | 0x008 => { s with foragers := tabSet s.foragers f { x with err := dropValid x.err } }
    | 0x048 => { s with foragers := tabSet s.foragers f { x with rcErr := dropValid x.rcErr } }
    | 0x10400 => fatal (16 + f)
    | _ => s
  else if 0x3000000 ≤ off ∧ off < 0x4000000 ∧ off % 0x200000 = 8 then
    s.modPort ((off - 0x3000000) / 0x200000) (fun x => { x with err := dropValid x.err })
  else s

/-! ## Writes -/

/-- Is an offset of counter space listed by R505? The others are reserved. -/
def counterListed (o : Nat) : Bool :=
  decide (o < 0x200) || (decide (0x1000 ≤ o) && decide (o < 0x1000 + 163 * 8)) || (decide (0x2000 ≤ o) && decide (o < 0x2010))
  || (decide (0x10000 ≤ o) && decide (o < 0x45800)) || (decide (0x46000 ≤ o) && decide (o < 0x46080))

/-- Is a control-space address in a block of the table of R21, and in counter space at an offset that R505 lists? -/
def isBlock (off : Nat) : Bool :=
  decide (off < 0x411000) || (decide (0x1000000 ≤ off) && decide (off < 0x2400000)) || (decide (0x3000000 ≤ off) && decide (off < 0x4100000))
  || (decide (0x5000000 ≤ off) && decide (off < 0x6000000))
  || (decide (0x10000000 ≤ off) && decide (off < 0x11000000) && counterListed (off - 0x10000000))

/-- Device-page registers that rows of their own write. -/
def ownRow (off : Nat) : Bool :=
  [0x000, 0x008, 0x010, 0x030, 0x040, 0x100].contains off || (decide (0x200 ≤ off) && decide (off < 0x400))

/-- Eight aligned bytes written to the device control page, where the register has no behaviour of its own (R298, R481).
[DESIGN CHOICE, log entry 74; DEDUCED, log entry 136] -/
def State.devicePut (s : State) (off : Nat) (v : DWord) : State :=
  match off with
  | 0x018 => { s with admin := { s.admin with cqBase := v } }
  | 0x020 => { s with admin := { s.admin with replyBase := v } }
  | 0x028 => { s with admin := { s.admin with noteBase := v } }
  | 0x038 => { s with admin := { s.admin with irqEn := v.getLsbD 63, irqVector := v.truncate 11 } }
  | _ =>
    if 0x400 ≤ off ∧ off < 0xA00 then
      { s with keeper := { s.keeper with mailbox := { s.keeper.mailbox with
          request := s.keeper.mailbox.request.write (off - 0x400) (bytesLE 8 v.toNat) } } }
    else s

/-- Row REGISTER_WRITE: a write to the register at control-space address `a`. A register with a row of its own is written by
that row; RO registers ignore the write; `VALID` bits clear; writes to reserved addresses are ignored and counted (R12, R21,
R245, R273). -/
def State.registerWrite (s : State) (a : Nat) (v : DWord) : State :=
  let off := a - ctlBase
  if a < ctlBase then s
  else if off < 0x400000 then if off % 0x1000 = 0 ∨ off % 0x1000 = 8 then s else s.bump 0xA101 0 1
  else if off < 0x401000 then
    if off % 8 ≠ 0 || ownRow (off - 0x400000) then s
    else if decide (0x48 ≤ off - 0x400000) && decide (off - 0x400000 < 0x100) then { s with rsvWrites := s.rsvWrites + 1 }
    else s.devicePut (off - 0x400000) v
  else if off < 0x411000 then s.bump 0xA101 0 1
  else if !isBlock off then { s with rsvWrites := s.rsvWrites + 1 }
  else if v.getLsbD 63 then s.clearValid a else s

/-! ## The admin commands (R302) -/

/-- Row REG_READ. [DEDUCED, log entry 73; DESIGN CHOICE, log entry 79; DEDUCED, log entry 135] -/
def State.regRead (s : State) : State := s.admRun 0x50 (some 8) (fun z b =>
  let a := leAt b 0 8
  if a < ctlBase ∨ ctlBase + 2 ^ 32 ≤ a then .no z stIllegalOp else .ok z (bytesLE 8 (z.regValue a)))

/-- Row REG_CLEAR. [DEDUCED, log entry 135] -/
def State.regClear (s : State) : State := s.admRun 0x51 (some 8) (fun z b =>
  let a := leAt b 0 8
  if a < ctlBase ∨ ctlBase + 2 ^ 32 ≤ a then .no z stIllegalOp else .ok (z.clearValid a) [])

end Sys2Proof.Machine
end

