-- ==== Sys2Proof/Machine/Keeper.lean ====
section
/-!
DEFINITION. The keeper's start and restart, its field port, the timers of sessions and assemblies, emergency repeats, and the
readback of pins (rows KEEPER_START to KEEPER_WATCHDOG, PLCA_BEACON_LOSS, PLCA_REJOIN, LOCKOUT_END, SESSION_AUTH_TIMEOUT,
SESSION_EXPIRY, SEGMENT_GAP_TIMEOUT, EMCY_REPEAT, ALIAS_KEYS_READY, PIN_READBACK; R464–R468, R474, R477–R483, R497, R535).
-/
namespace Sys2Proof.Machine

/-! ## Start (R437, R441, R452, R465, R467) -/

/-- Every RWP entry of areas 0x2000–0xA000 at its default (R486). [DEDUCED, log entry 119] -/
def State.restoreDefaults (s : State) : State :=
  let keep := fun (key : Nat) => match dictRow (key / 256) (key % 256) with
    | some r => !(r.access == .rwp && decide (0x2000 ≤ r.index) && decide (r.index < 0xB000))
    | none => true
  State.recount { s with
    dict := s.dict.filter (fun (d : Nat × Nat) => keep d.1)
    blobs := s.blobs.filter (fun (d : Nat × List Byte) => keep d.1)
    quarantined := 0#128
    keeper := { s.keeper with restoreAsked := false } }

/-- Keys of the entries that take effect at keeper start. [DEDUCED, log entry 119] -/
def startKeys : List Nat := [dkey 0x1010 0, dkey 0x1011 0, dkey 0x1012 0, dkey 0x1015 0, dkey 0x5001 0]

/-- The values in force from this start on. -/
def State.latchEntries (s : State) : State :=
  { s with keeper := { s.keeper with latched := startKeys.foldl (fun (t : Table Nat) k => tabSet t k (s.entry (k / 256) (k % 256))) [] } }

/-- The measurement of the running keeper: SHA-384 of its header (R497). -/
def Boot.measurement (x : Boot) : List Byte := match tabFind x.running 1 with
  | some r => sha384 r.header
  | none => []

/-- Log the events the boot ROM has left (R492). -/
def State.logOwed (s : State) : State :=
  s.boot.owed.foldl (fun (acc : State) e => acc.event e.1 e.2.1 true e.2.2) { s with boot := { s.boot with owed := [] } }

/-- Row KEEPER_START: `plca` says that a beacon is seen, `reversed` that the pair is, `swapped` that the PMBus wires are.
[DEDUCED, log entry 120] -/
def State.keeperStart (s : State) (plca reversed swapped : Bool) : State :=
  if s.keeperUp || s.boot.recovery || (tabFind s.boot.running 1).isNone || s.rail 1 != .good then s
  else
    let s0 := if s.keeper.restoreAsked then s.restoreDefaults else s
    let s2 := s0.latchEntries.joinField plca reversed
    let s3 := { s2 with
      keeperUp := true
      keeper := { s2.keeper with started := s2.time, duplicate := false }
      boot := { s2.boot with aliasReady := s2.boot.measured.contains s2.boot.measurement } }
    let s4 := s3.event 1 0 true (bytesLE 1 s3.keeper.cause)
    let s5 := { s4 with keeper := { s4.keeper with startEvent := s4.log.entries.getLast? } }
    let s6 := s5.logOwed
    let s7 := if s6.refclk || s6.power.path == .running then s6 else s6.event 3 2 true []
    let s8 := if s7.power.srefPresent then s7 else s7.event 4 2 true []
    let s9 := if swapped then
        ({ (s8.setEntry 0x2006 0 0x13) with power := { s8.power with pmbSwapped := true } }).event 0x11 2 true []
      else { s8 with power := { s8.power with pmbSwapped := false } }
    let s10 := (List.range 4).foldl State.takePairMode s9
    let s11 := (s10.replicas.map (fun (r : Nat × Replica) => r.1)).foldl State.repairNext s10
    s11.seqStart

/-- Row DAD_COMPLETE: duplicate address detection ends; the start's emergency message is sent once the address is usable.
[DEDUCED, log entry 120] -/
def State.dadComplete (s : State) (dup : Bool) : State :=
  if s.fieldUsable || s.keeper.duplicate || !(s.keeperUp || s.boot.recovery) then s
  else if dup then ({ s with keeper := { s.keeper with duplicate := true } }).event 5 2 false []
  else
    let s1 := { s with fieldUsable := true, keeper := { s.keeper with startEvent := none } }
    match s.keeper.startEvent with
    | some e => if s.keeperUp then s1.sendEmcy e else s1
    | none => s1

/-- Row DAD_REPROBE: the probe is sent again; DAD_COMPLETE ends it. -/
def State.dadReprobe (s : State) : State := { s with keeper := { s.keeper with duplicate := false } }

/-- Row PLCA_BEACON_LOSS. -/
def State.plcaLoss (s : State) : State := if s.keeper.field == 1 then { s with keeper := { s.keeper with field := 2 } } else s
/-- Row PLCA_REJOIN. A coordinator sends the beacon itself. -/
def State.plcaRejoin (s : State) : State := if s.keeper.field == 2 then { s with keeper := { s.keeper with field := 1 } } else s

/-! ## Restart (R466) -/

/-- The keeper stops and the boot ROM runs, the data path going on. [DEDUCED, log entry 132] -/
def State.keeperRestart (s : State) (cause : Nat) (a b : ImageVerdict) : State :=
  let s1 := (s.bump 0x1009 0 1).keeperLost
  ({ s1 with keeper := { s1.keeper with cause := cause }, boot := { s1.boot with aliasReady := false } }).bootRom a b

/-- Row KEEPER_WATCHDOG. -/
def State.keeperWatchdog (s : State) (a b : ImageVerdict) : State := if s.keeperUp then s.keeperRestart 2 a b else s

/-! ## Sessions and assemblies end (R474, R477, R479, R480) -/

/-- Code of a path (R478, R484). -/
def pathCode : KdpPath → Nat
  | .field _ _ => 0
  | .mailbox => 1

/-- A session ends, and with it an assembly that belongs to it (R485). -/
def State.endSession (s : State) (n : Nat) : State :=
  { s with keeper := { s.keeper with
      sessions := tabErase s.keeper.sessions n, assemblies := s.keeper.assemblies.filter (fun (a : Assembly) => a.session != n) } }

/-- Row SESSION_AUTH_TIMEOUT: 30 s without authentication. -/
def State.authTimeout (s : State) (n : Nat) : State := match tabFind s.keeper.sessions n with
  | some x => if x.opened then s else s.endSession n
  | none => s

/-- Row SESSION_EXPIRY: idle for `SESSION_IDLE_S`, or 8 h old. [DEDUCED, log entry 123] -/
def State.sessionExpiry (s : State) (n : Nat) : State := match tabFind s.keeper.sessions n with
  | some x => if x.opened then s.endSession n else s
  | none => s

/-- Row LOCKOUT_END: of the field network (0) or the mailbox (1). -/
def State.lockoutEnd (s : State) (path : Nat) : State := { s with keeper := { s.keeper with locked := flagDel s.keeper.locked path } }

/-- Row SEGMENT_GAP_TIMEOUT: the assembly of a path and source ends; the next segment is answered SEGMENT. -/
def State.segmentGap (s : State) (path : KdpPath) : State :=
  { s with keeper := { s.keeper with assemblies := s.keeper.assemblies.filter (fun (a : Assembly) => a.path != path) } }

/-- Row EMCY_REPEAT: the message of event `seq` goes to subscriber `i` again, three times at most (R483). [DEDUCED, log entry 123] -/
def State.emcyRepeat (s : State) (i seq : Nat) : State :=
  match s.log.unacked.find? (fun (u : Unacked) => u.subscriber == i && u.entry.seq == seq) with
  | none => s
  | some u =>
    if !s.fieldUsable then s
    else
      let rest := s.log.unacked.filter (fun (v : Unacked) => v != u)
      { s with
        fieldOut := s.fieldOut ++ [s.emcyTo i u.entry]
        log := { s.log with unacked := if u.repeats + 1 < 3 then rest ++ [{ u with repeats := u.repeats + 1 }] else rest } }

/-- Row ALIAS_KEYS_READY (R497). -/
def State.aliasKeysReady (s : State) : State :=
  if !s.keeperUp || s.boot.aliasReady then s
  else { s with boot := { s.boot with aliasReady := true, measured := s.boot.measured ++ [s.boot.measurement] } }

/-! ## Pins (R535) -/

/-- One sample of a site: `kind` of the condition that holds, if one does. -/
def State.pinSample (s : State) (site : Nat) (kind : Option Nat) : State :=
  let m := s.manager
  match kind with
  | some k =>
    let n := tabGet 0 m.pinBad site + 1
    let s1 := { s with manager := { m with pinBad := tabSet m.pinBad site (min n 10), pinGood := tabErase m.pinGood site } }
    if n == 10 && !m.pinFaults.contains site then
      (({ s1 with manager := { s1.manager with pinFaults := flagAdd m.pinFaults site } }).bump 0x2011 0 1).event 0x60 1 true (bytesLE 1 site ++ bytesLE 1 k)
    else s1
  | none =>
    let s1 := { s with manager := { m with pinBad := tabErase m.pinBad site } }
    if !m.pinFaults.contains site then s1
    else
      let n := tabGet 0 m.pinGood site + 1
      if n < 1000 then { s1 with manager := { s1.manager with pinGood := tabSet m.pinGood site n } }
      else { s1 with manager := { s1.manager with pinGood := tabErase m.pinGood site, pinFaults := flagDel m.pinFaults site } }

/-- Row PIN_READBACK: the sites at which a condition holds in this sample, with its kind. -/
def State.pinReadback (s : State) (bad : List (Nat × Nat)) : State :=
  if !s.keeperUp then s
  else (List.range 48).foldl (fun (acc : State) n => acc.pinSample n ((bad.find? (fun (b : Nat × Nat) => b.1 == n)).map (fun (b : Nat × Nat) => b.2))) s

/-- `PIN_FAULT_MAP` (R544). -/
def Manager.pinMap (m : Manager) : Nat := (m.pinFaults.map (fun n => 2 ^ n)).sum

end Sys2Proof.Machine
end

