-- ==== Sys2Proof/Machine/Update.lean ====
section
/-!
DEFINITION. Updates and rollback, operator key slots, attestation (rows UPDATE_BEGIN to UPDATE_ABORT, KEY_SLOT_WRITE,
OWNER_RELEASE, ATTEST_NONCE, ATTEST_REPORT_SIGNED; R493, R495–R500). Each command answers a device status; `UPDATE_VERIFY` also
answers its detail.
-/
namespace Sys2Proof.Machine

/-! ## Updates (R495, R496) -/

/-- The bank an update of a type goes to: the one that is not active; bank A in ROM recovery (R493). -/
def Boot.stageBank (x : Boot) (type : Nat) : Nat := if x.recovery then 0 else 1 - recActive x.inForce type % 2

/-- Is an update or a trial pending? In ROM recovery a trial bars no update: the image goes to bank A as active and no trial is
left (R493). [DEDUCED, log entry 152] -/
def Boot.pendingUpdate (x : Boot) : Bool :=
  x.update.state == 1 || x.update.state == 2 || (!x.recovery && (x.update.state != 0 || recTrialType x.inForce != 0))

/-- Does the image on trial run? -/
def Boot.trialRuns (x : Boot) : Bool := match tabFind x.running (recTrialType x.inForce) with
  | some r => r.trial
  | none => false

/-- Row UPDATE_BEGIN: the area is erased; what erased flash reads as is open. -/
def State.updateBegin (s : State) (type : Nat) : Nat × State :=
  if s.boot.pendingUpdate then (stBusy, s)
  else
    let k := 4 * s.boot.stageBank type + type
    (stOk, { s with
      free := s.free + 1
      boot := { s.boot with areas := tabSet s.boot.areas k (Memory.undefined s.free), update := { state := 1, type := type, spans := [] } } })

/-- Row UPDATE_DATA: an offset of 8 B, then bytes. -/
def State.updateData (s : State) (b : List Byte) : Nat × State :=
  let u := s.boot.update
  let off := leAt b 0 8
  let n := b.length - 8
  if u.state != 1 || off % 256 != 0 || decide (areaSize u.type < off + n)
      || u.spans.any (fun (x : Nat × Nat) => decide (off < x.1 + x.2) && decide (x.1 < off + n)) then (stBusy, s)
  else
    let k := 4 * s.boot.stageBank u.type + u.type
    let area := (s.boot.area (s.boot.stageBank u.type) u.type).write off (b.drop 8)
    (stOk, { s with boot := { s.boot with areas := tabSet s.boot.areas k area, update := { u with spans := u.spans ++ [(off, n)] } } })

/-- Row UPDATE_VERIFY: status, detail, state. -/
def State.updateVerify (s : State) (v : ImageVerdict) : Nat × Nat × State :=
  let u := s.boot.update
  if u.state != 1 then (stBusy, 0, s)
  else
    let c := s.imageCode u.type (s.boot.area (s.boot.stageBank u.type) u.type) v
    if c == 0 then (stOk, 0, { s with boot := { s.boot with update := { u with state := 2 } } })
    else (stIllegalOp, c, (s.bump 0x7040 0 1).event 0x56 1 false (bytesLE 1 u.type ++ bytesLE 1 c))

/-- Row UPDATE_ACTIVATE: a trial boot record; a keeper image restarts the keeper, in ROM recovery as the active one of bank A. -/
def State.updateActivate (s : State) (a b : ImageVerdict) : Nat × State :=
  let u := s.boot.update
  if u.state != 2 then (stBusy, s)
  else if s.boot.recovery then
    let x := s.boot.writeRecord (bytesLE 1 0 ++ s.boot.activeBytes.drop 1) 0 0 0
    (stOk, ({ s with boot := { x with update := { u with state := 0, spans := [] } }, keeper := { s.keeper with cause := 3 } }).bootRom a b)
  else
    let x := s.boot.writeRecord s.boot.activeBytes u.type (s.boot.stageBank u.type) 3
    let s1 := { s with boot := { x with update := { u with state := 3, spans := [] } } }
    (stOk, if u.type == 1 then s1.keeperRestart 3 a b else s1)

/-- Row UPDATE_COMMIT: the trial bank becomes active, then the fuses. -/
def State.updateCommit (s : State) : Nat × State :=
  if !s.boot.trialRuns then (stBusy, s)
  else
    let t := recTrialType s.boot.inForce
    match tabFind s.boot.running t with
    | none => (stBusy, s)
    | some r =>
      let x := s.boot.writeRecord (s.boot.activeBytes.set (t - 1) (BitVec.ofNat 8 (recTrialBank s.boot.inForce))) 0 0 0
      let svn := min 63 (leAt r.header 8 4)
      let mask := leAt r.header 0x1D 1 % 16
      let y := { x with
        svn := tabSet x.svn t (max (tabGet 0 x.svn t) svn), revoked := x.revoked ||| BitVec.ofNat 4 mask
        update := { x.update with state := 0, spans := [] }, running := tabSet x.running t { r with trial := false } }
      let s1 := ({ s with boot := y }).event 0x53 0 true (bytesLE 1 t ++ bytesLE 1 svn ++ bytesLE 4 (leAt r.header 0xC 4))
      (stOk, if mask == 0 then s1 else s1.event 0x54 1 true (bytesLE 1 mask))

/-- Row UPDATE_ABORT: the staging is discarded, or a trial that has not yet booted. [DEDUCED, log entry 122] -/
def State.updateAbort (s : State) : Nat × State :=
  if s.boot.trialRuns then (stBusy, s)
  else
    let x := if recTrialType s.boot.inForce != 0 then s.boot.writeRecord s.boot.activeBytes 0 0 0 else s.boot
    (stOk, { s with boot := { x with update := { x.update with state := 0, spans := [] } } })

/-! ## Operator key slots (R499) -/

/-- The key pair of slot `k`. -/
def State.keySlot (s : State) (k : Nat) : List Byte := tabGet (List.replicate 432 0#8) s.blobs (dkey 0x7020 (k + 1))

/-- Is a slot empty? -/
def State.slotEmpty (s : State) (k : Nat) : Bool := allZero (s.keySlot k)

/-- The sessions opened with a slot end. -/
def State.closeSlot (s : State) (k : Nat) : State :=
  (s.keeper.sessions.filter (fun (x : Nat × Session) => x.2.slot == k)).foldl (fun (acc : State) x => acc.endSession x.1) s

/-- Row KEY_SLOT_WRITE. -/
def State.keySlotWrite (s : State) (k : Nat) (b : List Byte) : State :=
  (({ s with blobs := tabSet s.blobs (dkey 0x7020 (k + 1)) b }).closeSlot k).event 0x55 1 true
    (bytesLE 1 k ++ bytesLE 1 (if allZero b then 0 else 1))

/-- Row OWNER_RELEASE: every slot that holds a key is emptied. -/
def State.ownerRelease (s : State) : Nat × State :=
  (stOk, (List.range 8).foldl (fun (acc : State) k => if acc.slotEmpty k then acc.closeSlot k else acc.keySlotWrite k (List.replicate 432 0#8)) s)

/-! ## Attestation (R500) -/

/-- The RWP entries of the dictionary, in index.subindex order. -/
def rwpKeys : Table DictRow :=
  (dictRows.filter (fun (r : DictRow) => r.access == .rwp && decide (0x1000 ≤ r.index) && decide (r.index < 0xB000))).foldl
    (fun (t : Table DictRow) r => (List.range (r.last + 1 - r.first)).foldl (fun (u : Table DictRow) i => tabSet u (dkey r.index (r.first + i)) r) t) []


/-- The value of an RWP entry as bytes. -/
def State.rwpValue (s : State) (key : Nat) (r : DictRow) : List Byte :=
  let sub := key % 256
  match r.index with
  | 0x6057 => bytesLE 16 s.quarantined.toNat
  | 0x1016 => tabGet allNodes s.blobs key
  | 0x100A => tabGet [] s.blobs key
  | _ => if r.type.bits = 0 then tabGet (List.replicate r.hi 0#8) s.blobs key else bytesLE (r.type.bits / 8) (s.entry r.index sub)

/-- What `CONFIG_HASH` covers. -/
def State.configBytes (s : State) : List Byte :=
  rwpKeys.flatMap (fun (k : Nat × DictRow) =>
    let v := s.rwpValue k.1 k.2
    bytesLE 2 (k.1 / 256) ++ bytesLE 1 (k.1 % 256) ++ bytesLE 4 v.length ++ v)

/-- The entry of a type in a report. -/
def Boot.reportImage (x : Boot) (t : Nat) : List Byte := match tabFind x.running t with
  | some r => bytesLE 1 t ++ bytesLE 1 r.bank ++ bytesLE 1 (b2n r.trial) ++ bytesLE 1 0 ++ bytesLE 4 (leAt r.header 8 4)
      ++ bytesLE 4 (leAt r.header 0xC 4) ++ bytesLE 4 0 ++ (r.header.drop 0x20).take 48
  | none => bytesLE 1 t ++ bytesLE 1 0xFF ++ bytesLE 62 0

/-- The signed part of a report, 0x280 B. -/
def State.reportBody (s : State) (nonce : List Byte) : List Byte :=
  bytesLE 4 0x41545354 ++ bytesLE 2 1 ++ bytesLE 2 0x280 ++ s.blob 0x1005 0 16 ++ nonce ++ bytesLE 8 s.time.toNat ++ bytesLE 4 0x820
  ++ bytesLE 1 0x21 ++ bytesLE 3 s.ownAddr ++ [1, 2, 3].flatMap s.boot.reportImage
  ++ [1, 2, 3].flatMap (fun (t : Nat) => bytesLE 1 (tabGet 0 s.boot.svn t)) ++ bytesLE 1 s.boot.revoked.toNat ++ bytesLE 4 0
  ++ sha384 s.configBytes
  ++ (List.range 16).flatMap (fun p =>
      let x := s.part p
      bytesLE 1 p ++ bytesLE 1 x.state.code ++ bytesLE 2 0 ++ bytesLE 2 x.combMask.toNat ++ bytesLE 2 x.frames.toNat ++ bytesLE 1 x.rcShare.toNat
      ++ bytesLE 1 x.foragerWt.toNat ++ bytesLE 2 x.contexts.toNat ++ bytesLE 2 x.queues.toNat ++ bytesLE 2 0)
  ++ bytesLE 16 s.quarantined.toNat ++ List.replicate 32 0#8

/-- The attestation state of a path. -/
def State.attestOf (s : State) (sub : Nat) : Attest := tabGet { signing := none, report := [] } s.boot.attest sub

/-- Row ATTEST_NONCE: refused while the Alias keys are generated or a report of the path is being signed. [DEDUCED, log entry 122] -/
def State.attestNonce (s : State) (sub : Nat) (nonce : List Byte) : Nat × State :=
  let x := s.attestOf sub
  if !s.boot.aliasReady || x.signing.isSome then (stBusy, s)
  else (stOk, { s with boot := { s.boot with attest := tabSet s.boot.attest sub { x with signing := some nonce } } })

/-- Row ATTEST_REPORT_SIGNED: both Alias signatures, made by the security engine. [DESIGN CHOICE, log entry 116] -/
def State.attestSigned (s : State) (sub : Nat) (rsa slh : List Byte) : State :=
  match (s.attestOf sub).signing with
  | none => s
  | some nonce =>
    if rsa.length != 384 || slh.length != 16224 || !s.keeperUp then s
    else State.cmdEnd { s with boot := { s.boot with
      attest := tabSet s.boot.attest sub { signing := none, report := s.reportBody nonce ++ rsa ++ slh } } } 0x7030 sub stOk

end Sys2Proof.Machine
end

