-- ==== Sys2Proof/Machine/Entries.lean ====
section
/-!
DEFINITION. What a read of a dictionary entry returns (R50, R269, R374, R463, R470, R486, R504, R507, R523, R544).
-/
namespace Sys2Proof.Machine

/-- The bytes of an ASCII string. -/
def asciiBytes (t : String) : List Byte := t.toList.map (fun c => BitVec.ofNat 8 c.toNat)

/-- `ORDERING_CODE` (R5). -/
def OrderCode.text : OrderCode → String
  | .lt820_512_A => "LT820-512-A" | .lt820_512_E => "LT820-512-E" | .lt820_256_A => "LT820-256-A"

/-- `TASK_STATE` (R463). Whether a task that is due waits for its budget, and whether a task that the model completes at once runs, is
open at any time. [DESIGN CHOICE, log entry 167] -/
def State.taskState (s : State) (t : Nat) : Nat :=
  if s.entry 0x9004 t != 1 || (t == 6 && s.entry 0x6012 0 != 1) then 4
  else if s.manager.overdue.any (fun x => x.1 == t) then 3
  else
    let due := match t with
      | 6 => some s.migration.isSome
      | 9 => some (s.replicas.any (fun (r : Nat × Replica) => r.2.running.isSome))
      | 10 => some (s.replicas.any (fun (r : Nat × Replica) => r.2.repairing.isSome))
      | _ => none
    let open_ := (Config.taskPhase t s.time).toNat
    match due with
    | some false => 0
    | some true => 1 + open_ % 2
    | none => open_ % 3

/-- The value of a number that the device computes when it is read; none where the entry holds its value. -/
def State.computed (s : State) (index sub : Nat) : Option Nat :=
  match index with
  | 0x1008 => some ((s.time - s.keeper.started).toNat / 1000000)
  | 0x1014 => some (s.keeper.field % 8 + b2n s.keeper.reversedPair * 128)
  | 0x1019 => some s.keeper.sessions.length
  | 0x1020 => some (s.log.next - 1)
  | 0x2001 => some (tabGet 0 s.manager.railMv sub)
  | 0x2002 => some (tabGet 0 s.manager.railMw sub)
  | 0x2003 => some s.manager.average
  | 0x2005 => some s.power.mode
  | 0x2012 => some (s.power.mode % 4 * 16 + s.power.strapId % 16)
  | 0x3001 => some (unsigned 16 (s.comb (sub - 1)).temp)
  | 0x3002 => some (s.comb (sub - 1)).point
  | 0x3004 => some (unsigned 16 (((List.range 16).map (fun k => (s.comb k).temp)).foldl max s.manager.edge))
  | 0x3006 => some (b2n s.refclk + b2n s.power.srefPresent * 2)
  | 0x3007 => some (s.comb (sub - 1)).guard
  | 0x4001 => some (unsigned 16 (s.stackTherm (sub - 1)).temp)
  | 0x4002 => some (s.stackTherm (sub - 1)).stage
  | 0x6001 => some (s.part (sub - 1)).combMask.toNat
  | 0x6002 => some (s.part (sub - 1)).frames.toNat
  | 0x6003 => some (s.part (sub - 1)).rcShare.toNat
  | 0x6004 => some (s.part (sub - 1)).foragerWt.toNat
  | 0x6005 => some (s.part (sub - 1)).state.code
  | 0x6044 => some (s.ptStoreBytes / 1024)
  | 0x7001 => some s.boot.status
  | 0x7002 => some (match tabFind s.boot.running sub with | some r => leAt r.header 0xC 4 | none => 0)
  | 0x7003 => some (match tabFind s.boot.running sub with | some r => leAt r.header 8 4 | none => 0)
  | 0x7004 => some (tabGet 0 s.boot.svn sub)
  | 0x7005 => some s.boot.revoked.toNat
  | 0x7016 => some s.boot.update.state
  | 0x8013 => some (b2n s.tracer.frozen)
  | 0x9001 => some (s.taskState sub)
  | 0xA001 => some (s.host.word % 2 ^ 32)
  | 0xA106 => some (s.queues.filter (fun (q : Nat × Queue) => q.2.status != QueueStatus.free)).length
  | _ => none

/-- Base, stride, instances and counters of each group of the full set, in the order of R507. -/
def fullGroups : List (Nat × Nat × Nat × Nat) :=
  [(0x10000, 0x200, 128, 48), (0x20000, 0x400, 16, 96), (0x30000, 0x40, 256, 8), (0x40000, 0x400, 4, 128), (0x41000, 0, 1, 32),
   (0x41100, 0, 1, 64), (0x42000, 0x200, 8, 64), (0x43000, 0x100, 16, 32), (0x44000, 0, 1, 512), (0x45000, 0, 1, 128)]

/-- `CTR_GROUP` 01 the always-on set, 02–0B the full-set groups, instance after instance. [DESIGN CHOICE, log entry 121] -/
def State.groupBytes (s : State) (sub : Nat) : List Byte :=
  if sub = 1 then (List.range 64).flatMap (fun i => bytesLE 8 (s.counterAt (8 * i)))
  else
    let (base, stride, n, k) := fullGroups.getD (sub - 2) (0, 0, 0, 0)
    (List.range n).flatMap (fun i => (List.range k).flatMap (fun j => bytesLE 8 (s.counterAt (base + i * stride + 8 * j))))

/-- `EVENT_LOG`: entry `SEQ` at ((`SEQ` − 1) mod 1,024) × 32. -/
def EventLog.image (l : EventLog) : List Byte :=
  (List.range 1024).flatMap (fun i => match l.entries.find? (fun (e : EventEntry) => (e.seq - 1) % 1024 == i) with
    | some e => e.bytes
    | none => List.replicate 32 0#8)

/-- The whole value of a string or BLOB. -/
def State.longEntry (s : State) (r : DictRow) (sub : Nat) : List Byte :=
  match r.index with
  | 0x1001 => asciiBytes "Enmaex"
  | 0x1002 => asciiBytes "LT-820"
  | 0x1003 => asciiBytes s.code.text
  | 0x1004 => asciiBytes "B1"
  | 0x1021 => s.log.image
  | 0x1022 => (s.log.fatal.flatMap EventEntry.bytes ++ List.replicate 2048 0#8).take 2048
  | 0x2010 => bytesLE 6 s.manager.pinMap
  | 0x7006 => s.boot.inForce
  | 0x7011 => List.replicate r.hi 0#8
  | 0x7031 => (s.attestOf sub).report
  | 0x7032 => (List.range (Config.factoryLen r.index sub % 32769)).map (Config.factory r.index sub)
  | 0x7033 => (List.range (Config.factoryLen r.index sub % 32769)).map (Config.aliasByte (leNat s.boot.measurement) sub)
  | 0x7034 => (List.range (Config.factoryLen r.index sub % 32769)).map (Config.factory r.index sub)
  | 0x7035 => (List.range (Config.factoryLen r.index sub % 32769)).map (Config.factory r.index sub)
  | 0x7036 => (List.range (Config.factoryLen r.index sub % 257)).map (Config.factory r.index sub)
  | 0x8001 => bytesLE 8 s.tracer.copyTime.toNat ++ (List.range 64).flatMap (fun i => bytesLE 8 (tabGet 0 s.tracer.copy (8 * i)))
  | 0x8014 => (List.range 163).flatMap (fun i => bytesLE 8 (tabGet 0#64 s.tracer.stamps i).toNat)
  | 0x8016 => (List.range 8).flatMap (fun p => let x := tabGet (0, 0) s.tracer.ports p
                                               bytesLE 4 x.1 ++ bytesLE 4 x.2 ++ bytesLE 8 0)
  | 0x8024 => s.tracer.header ++ List.replicate 3984 0#8
  | 0x8023 => tabGet (List.replicate 40 0#8) s.blobs (dkey r.index sub)
  | 0x8030 => s.groupBytes sub
  | _ => if r.access == .rwp then s.rwpValue (dkey r.index sub) r else s.blob r.index sub r.hi

/-- Total length of an entry's value and `n` bytes of it from `off`: CMD entries read as the last completion status, WO entries as
zeros (R12, R470). [DEDUCED, log entry 122] -/
def State.readEntry (s : State) (r : DictRow) (sub off n : Nat) : Nat × List Byte :=
  let cut := fun (b : List Byte) => (b.length, (b.drop off).take n)
  if r.access == .cmd then
    let busy := r.index == 0x7030 && s.keeper.acting.contains (dkey r.index sub)
    cut (bytesLE 1 (if busy then stBusy else tabGet 0 s.keeper.cmdStatus (dkey r.index sub)))
  else if r.index == 0x8025 then
    (2 ^ 20, s.dram.read (0x6040000000 + (sub - 1) * 2 ^ 20 + off) (min n (2 ^ 20 - off)))
  else if r.type.bits = 0 then cut (s.longEntry r sub)
  else cut (bytesLE (r.type.bits / 8) ((s.computed r.index sub).getD (s.entry r.index sub)))

/-! ## Protection (R471) -/

/-- Is an entry protected over the mailbox? -/
def isProtected (index : Nat) : Bool :=
  !((0x8000 ≤ index && decide (index < 0x9000)) || (0xA000 ≤ index && decide (index < 0xB000)) || (0x4301 ≤ index && decide (index ≤ 0x4304))
    || index == 0x5110 || index == 0x5111)

end Sys2Proof.Machine
end

