-- ==== Sys2Proof/Machine/Kdp.lean ====
section
/-!
DEFINITION. The keeper dictionary protocol: messages, sessions, segments, reads and writes of the dictionary, on the field network
and over the mailbox (rows DISCOVER to SESSION_CLOSE, EMCY_ACK, MB_DOORBELL and every command that a dictionary write carries;
R12, R457, R470–R481, R483, R493, R499, R507, R518, R521).
-/
namespace Sys2Proof.Machine

/-! ## Messages (R472, R475) -/

/-- Reply status codes. -/
def kOk : Nat := 0x00
def kNoEntry : Nat := 0x01
def kAccess : Nat := 0x02
def kType : Nat := 0x03
def kRange : Nat := 0x04
def kAuthRequired : Nat := 0x05
def kAuthFailed : Nat := 0x06
def kSession : Nat := 0x07
def kReplay : Nat := 0x08
def kMac : Nat := 0x09
def kFormat : Nat := 0x0A
def kSegment : Nat := 0x0B
def kCmdRefused : Nat := 0x0C
def kFlashLimit : Nat := 0x0D
def kLocked : Nat := 0x0E

/-- Header fields of a message. -/
def kOp (b : List Byte) : Nat := leAt b 0x03 1
def kSess (b : List Byte) : Nat := leAt b 0x08 4
def kSeqno (b : List Byte) : Nat := leAt b 0x0C 4
def kLen (b : List Byte) : Nat := leAt b 0x10 2
def kFlags (b : List Byte) : Nat := leAt b 0x13 1
def kSeg (b : List Byte) : Nat := leAt b 0x14 2
def kSegs (b : List Byte) : Nat := leAt b 0x16 2
/-- Body of a message, and the tag behind it. -/
def kBody (b : List Byte) : List Byte := (b.drop 24).take (kLen b)
def kTag (b : List Byte) : List Byte := (b.drop (24 + kLen b)).take 24

/-- HMAC-SHA-384 with a key of at most a block (R479). [DESIGN CHOICE, log entry 116] -/
def hmac384 (key msg : List Byte) : List Byte :=
  let k := key ++ List.replicate (128 - key.length) 0#8
  sha384 (k.map (· ^^^ 0x5C#8) ++ sha384 (k.map (· ^^^ 0x36#8) ++ msg))

/-- Is the message dropped without a reply: shorter than its header, wrong `MAGIC` or `VERSION`? -/
def kDropped (b : List Byte) : Bool := decide (b.length < 24) || leAt b 0 2 != 0x4B44 || leAt b 2 1 != 1

/-- Operations whose requests may be segmented. -/
def kSegmented (op : Nat) : Bool := op == 0x03 || op == 0x06

/-- Is a request well formed: a defined operation on the right path, lengths that agree, nothing reserved or of a reply set? -/
def kWellFormed (path : KdpPath) (b : List Byte) : Bool :=
  let op := kOp b
  let need := 24 + kLen b + (if bitAt (kFlags b) 1 then 24 else 0)
  let fits := match path with | .field _ _ => b.length == need | .mailbox => decide (need ≤ b.length)
  let pathOk := match path with | .field _ _ => true | .mailbox => op != 0x01 && op != 0x09
  [0x01, 0x02, 0x03, 0x04, 0x05, 0x06, 0x07, 0x09].contains op && pathOk && fits && decide (kLen b ≤ 1400) && leAt b 0x12 1 == 0
    && kFlags b &&& 0xF9 == 0 && decide (1 ≤ kSegs b) && decide (kSegs b ≤ 1024)
    && (kSegmented op || (kSegs b == 1 && kSeg b == 0 && !bitAt (kFlags b) 2))
    && (kSess b != 0 || (kSeqno b == 0 && !bitAt (kFlags b) 1)) && (op != 0x06 || !bitAt (kFlags b) 1)

/-- The reply to request `b`: its fields echoed, `REPLY` set, a tag under `key` where the session is open. [DEDUCED, log entry 129] -/
def kReply (b : List Byte) (key : Option (List Byte)) (status : Nat) (body : List Byte) : List Byte :=
  let head := (b.take 0x10) ++ bytesLE 2 body.length ++ bytesLE 1 status ++ bytesLE 1 (if key.isSome then 3 else 1) ++ (b.drop 0x14).take 4
  match key with
  | some k => head ++ body ++ (hmac384 k (head ++ body)).take 24
  | none => head ++ body

/-- What serving a request gives: reply status, reply body, the state. -/
structure Served where
  status : Nat
  body : List Byte
  next : State

/-- A request refused, or answered, with nothing changed. -/
def Served.no (s : State) (status : Nat) : Served := ⟨status, [], s⟩
/-- A device command's outcome: accepted, or CMD_REFUSED with its device status. -/
def Served.cmd (r : Nat × State) : Served := if r.1 == stOk then ⟨kOk, [], r.2⟩ else ⟨kCmdRefused, bytesLE 1 r.1, r.2⟩

/-! ## Authentication failures (R480) -/

/-- An AUTH_FAILED result on a path; sixteen within 60 s lock it. [DEDUCED, log entry 130] -/
def State.authFailed (s : State) (path : KdpPath) : State :=
  let p := pathCode path
  let recent := (tabGet [] s.keeper.failures p).filter (fun t => decide ((s.time - t).toNat < 60000000000)) ++ [s.time]
  let s1 := ({ s with keeper := { s.keeper with failures := tabSet s.keeper.failures p recent } }).bump 0x101A 0 1
  if recent.length < 16 || s.keeper.locked.contains p then s1
  else
    ({ s1 with keeper := { s1.keeper with locked := flagAdd s1.keeper.locked p, failures := tabErase s1.keeper.failures p } }).event 0x40 1 true
      (bytesLE 1 p)

/-! ## Writes of the dictionary (R470, R471) -/

/-- Does a value fit its entry's type and length? -/
def typeFits (r : DictRow) (type : Nat) (v : List Byte) : Bool :=
  type == r.type.code
  && (if r.type.bits != 0 then v.length == r.type.bits / 8
      else if r.type == .str then decide (v.length ≤ r.hi)
      else if r.index == 0x7011 then decide (16 ≤ v.length) && decide (v.length ≤ r.hi)
      else v.length == r.hi)

/-- Is a value inside its entry's range? -/
def rangeFits (r : DictRow) (v : List Byte) : Bool :=
  let x := leNat v
  if r.type.bits = 0 then true
  else
    decide (r.lo ≤ x) && decide (x ≤ r.hi) && r.type.encodes x
    && (match r.index with
        | 0x5104 => decide (x ≤ 4094) || x == 0xFFFF
        | 0x200B => x == 100 || x == 400
        | 0x6050 => x == 0 || decide (4 ≤ x)
        | _ => true)

/-- The bits that a write stores; reserved bits are ignored (R9). [DESIGN CHOICE, log entry 153] -/
def storedValue (r : DictRow) (x : Nat) : Nat :=
  match r.index with
  | 0x8011 => x % 16
  | 0x8012 => x % 4
  | 0x2009 => if x == 0xFFFF then x else x % 2 ^ 15
  | _ => x

/-- The same for BLOBs: the reserved bytes of a match unit's entry (R520). -/
def storedBytes (r : DictRow) (v : List Byte) : List Byte :=
  if r.index == 0x8023 then v.take 2 ++ List.replicate 6 0#8 ++ v.drop 8 else v

/-- Has the request the session its entry needs? `slot` is the key slot of the session it comes in, if any (R471, R499).
[DESIGN CHOICE, log entry 127] -/
def State.writeAuth (s : State) (path : KdpPath) (slot : Option Nat) (index sub : Nat) : Bool :=
  if index == 0x7020 || index == 0x7021 then
    slot == some 0 || (index == 0x7020 && sub == 1 && path == .mailbox && s.slotEmpty 0)
  else slot.isSome || (path == .mailbox && !isProtected index)

/-- Commits of an entry within the last hour. -/
def State.hourCommits (s : State) (key : Nat) : List DWord :=
  (tabGet [] s.keeper.commits key).filter (fun t => decide ((s.time - t).toNat < 3600000000000))

/-- A commit to flash noted: a run of task 13, which alone writes the parameter region (R458, R487). -/
def State.noteCommit (s : State) (key : Nat) : State :=
  ({ s with keeper := { s.keeper with commits := tabSet s.keeper.commits key (s.hourCommits key ++ [s.time]) } }).taskRun 13

/-- An applied write noted in the entry's change count. -/
def State.noteChange (s : State) (key : Nat) : State :=
  { s with keeper := { s.keeper with changes := tabSet s.keeper.changes key ((tabGet 0 s.keeper.changes key + 1) % 2 ^ 32) } }

/-- A value stored in its entry. -/
def State.storeEntry (s : State) (r : DictRow) (sub : Nat) (v : List Byte) : State :=
  if r.type.bits = 0 then { s with blobs := tabSet s.blobs (dkey r.index sub) (storedBytes r v) }
  else s.setEntry r.index sub (storedValue r (leNat v))

/-- A unit of the data path answers a command; BUSY while the data path does not run (the manual names no status).
[DESIGN CHOICE, log entry 131] -/
def State.pathCmd (s : State) (f : State → Nat × State) : Nat × State := if s.running then f s else (stBusy, s)

/-- `TRACE_CTRL` (R518). [DESIGN CHOICE, log entry 131] -/
def State.traceCtrl (s : State) (v : Nat) : Nat × State :=
  if v == 1 then if s.tracer.mode == .post then (stBusy, s) else (stOk, s.traceArm)
  else if v == 2 then (stOk, s.traceOff) else (stIllegalOp, s)

/-- A write to a CMD entry: the device status, and the action's effect. [DEDUCED, log entry 122] -/
def State.cmdWrite (s : State) (index sub : Nat) (v : List Byte) (aux : KdpAux) : Nat × State :=
  let x := leNat v
  match index with
  | 0x100B => (stOk, s.keeperRestart 1 aux.bankA aux.bankB)
  | 0x100C => (stOk, { s with keeper := { s.keeper with restoreAsked := true } })
  | 0x2007 => s.powerUp
  | 0x2008 => s.powerDown
  | 0x400B => s.pathCmd (fun z => (stOk, z.recentreNow (sub - 1)))
  | 0x4301 => s.pathCmd (fun z => z.replicaDefine v)
  | 0x4302 => s.pathCmd (fun z => z.replicaVersion v)
  | 0x4303 => s.pathCmd (fun z => z.replicaRemove x)
  | 0x4304 => s.pathCmd (fun z => z.replicaClear x)
  | 0x5007 => s.pathCmd (fun z => (stOk, z.portRestart (sub - 1)))
  | 0x5110 => s.pathCmd (fun z => z.qpCreate v)
  | 0x5111 => s.pathCmd (fun z => z.qpDestroy x)
  | 0x6058 => s.deviceRecover x
  | 0x7010 => s.updateBegin x
  | 0x7012 => let r := s.updateVerify aux.image; (r.1, r.2.2)
  | 0x7013 => s.updateActivate aux.bankA aux.bankB
  | 0x7014 => s.updateCommit
  | 0x7015 => s.updateAbort
  | 0x7021 => s.ownerRelease
  | 0x7030 => s.attestNonce sub v
  | 0x8003 => (stOk, s.ctrClear)
  | 0x8004 => (stOk, s.ctrRelease)
  | 0x8010 => (stOk, s.fireTrigger 0 0 x)
  | 0x8020 => s.traceCtrl x
  | 0x9011 => s.pathCmd (fun z => z.tuneNow (sub - 1))
  | 0x9012 => s.pathCmd (fun z => z.guardNow (sub - 1))
  | 0x9020 => s.pathCmd (fun z => z.partSelftest (sub - 1))
  | _ => (stIllegalOp, s)

/-- The detail of a refused command (R495: that of `UPDATE_VERIFY`). [DEDUCED, log entry 132] -/
def State.cmdDetail (s : State) (index : Nat) (aux : KdpAux) : List Byte :=
  if index == 0x7012 && s.boot.update.state == 1 then bytesLE 1 (s.updateVerify aux.image).2.1 else []

/-- Does the action that a CMD entry began go on once its write is accepted (R470)? -/
def State.actionRuns (s : State) (index sub : Nat) : Bool :=
  match index with
  | 0x2007 => s.power.seq != .up
  | 0x2008 => s.power.seq != .idle
  | 0x6058 => s.power.recovering
  | 0x7030 => (s.attestOf sub).signing.isSome
  | 0x9020 => (s.part (sub - 1)).selfTest
  | _ => false

/-- A CMD entry written: an applied command is counted as a change, and its completion status kept, at once or when its action ends
(R470). [DESIGN CHOICE, log entry 131; DESIGN CHOICE, log entry 169] -/
def State.runCmd (s : State) (r : DictRow) (sub : Nat) (v : List Byte) (aux : KdpAux) : Served :=
  let key := dkey r.index sub
  let (st, s1) := if s.keeper.acting.contains key then (stBusy, s) else s.cmdWrite r.index sub v aux
  let s2 := if st == stBusy then s1
    else if st == stOk && s1.actionRuns r.index sub then { s1 with keeper := { s1.keeper with acting := flagAdd s1.keeper.acting key } }
    else { s1 with keeper := { s1.keeper with cmdStatus := tabSet s1.keeper.cmdStatus key st } }
  if st == stOk then ⟨kOk, [], s2.noteChange key⟩ else ⟨kCmdRefused, bytesLE 1 st ++ s.cmdDetail r.index aux, s2⟩

/-- An RWP entry written: committed to flash, then in force (R470). -/
def State.commitEntry (s : State) (r : DictRow) (sub : Nat) (v : List Byte) : Served :=
  let key := dkey r.index sub
  if r.index == 0x8002 && s.tracer.frozen then ⟨kCmdRefused, bytesLE 1 stBusy, s⟩
  else if 64 ≤ (s.hourCommits key).length then .no s kFlashLimit
  else
    let done := fun (z : State) => (⟨kOk, [], (z.noteCommit key).noteChange key⟩ : Served)
    match r.index with
    | 0x6057 => let q := s.quarantinedWrite v
                if q.1 == stOk then done q.2 else ⟨kCmdRefused, bytesLE 1 q.1, q.2⟩
    | 0x7020 => done (s.keySlotWrite (sub - 1) v)
    | 0x8002 => done (s.storeEntry r sub v).recount
    | 0x5002 => done ((s.storeEntry r sub v).pairAsked (sub - 1))
    | _ => done (s.storeEntry r sub v)

/-- A whole value written to an entry. [DESIGN CHOICE, log entry 127] -/
def State.writeEntry (s : State) (path : KdpPath) (slot : Option Nat) (index sub type : Nat) (v : List Byte) (aux : KdpAux) : Served :=
  match dictRow index sub with
  | none => .no s kNoEntry
  | some r =>
    if r.access == .ro || (index == 0x9004 && sub != 3 && sub != 11 && sub != 12) then .no s kAccess
    else if !typeFits r type v then .no s kType
    else if !rangeFits r v then .no s kRange
    else if !s.writeAuth path slot index sub then .no s kAuthRequired
    else match r.access with
      | .ro => .no s kAccess
      | .rw => ⟨kOk, [], (s.storeEntry r sub v).noteChange (dkey index sub)⟩
      | .rwp => s.commitEntry r sub v
      | .wo => let u := s.updateData v
               if u.1 == stOk then ⟨kOk, [], u.2.noteChange (dkey index sub)⟩ else ⟨kCmdRefused, bytesLE 1 u.1, u.2⟩
      | .cmd => s.runCmd r sub v aux

/-! ## Operations without a session of their own (R473, R483) -/

/-- DISCOVER. -/
def State.discoverBody (s : State) : List Byte :=
  s.blob 0x1005 0 16 ++ (asciiBytes s.code.text ++ List.replicate 16 0#8).take 16 ++ bytesLE 1 (s.entry 0x1013 0) ++ bytesLE 3 s.ownAddr
    ++ bytesLE 4 (if s.boot.recovery then 0 else match tabFind s.boot.running 1 with | some r => leAt r.header 0xC 4 | none => 0)
    ++ bytesLE 8 ((s.computed 0x1008 0).getD 0)

/-- Number of an access code in a reply: the manual names the codes and gives no numbers. [DESIGN CHOICE, log entry 128] -/
def DAccess.code : DAccess → List Byte
  | .ro => [Config.accessCode 0] | .rw => [Config.accessCode 1] | .rwp => [Config.accessCode 2]
  | .wo => [Config.accessCode 3] | .cmd => [Config.accessCode 4]

/-- READ: a reply body, or a status. [DESIGN CHOICE, log entry 127] -/
def State.readReply (s : State) (body : List Byte) : Nat × List Byte :=
  let index := leAt body 0 2
  let sub := leAt body 2 1
  let off := leAt body 4 4
  if body.length != 12 || leAt body 3 1 != 0 || leAt body 10 2 != 0 then (kFormat, [])
  else match dictRow index sub with
    | none => (kNoEntry, [])
    | some r =>
      if r.type.bits != 0 && off != 0 then (kRange, [])
      else
        let v := s.readEntry r sub off (min (leAt body 8 2) 1388)
        (kOk, bytesLE 1 r.type.code ++ r.access.code ++ bytesLE 2 0 ++ bytesLE 4 v.1
          ++ bytesLE 4 (tabGet 0 s.keeper.changes (dkey index sub)) ++ v.2)

/-- DESCRIBE: a reply body, or a status. A string's or BLOB's size is its largest; its default and limits read zero.
[DESIGN CHOICE, log entry 128] -/
def describeReply (body : List Byte) : Nat × List Byte :=
  let index := leAt body 0 2
  if body.length != 4 || leAt body 3 1 != 0 then (kFormat, [])
  else match dictRow index (leAt body 2 1) with
    | none => (kNoEntry, [])
    | some r =>
      let limits :=
        if r.type.bits = 0 then List.replicate 24 0#8
        else if r.type == .i16 then bytesLE 8 r.default ++ bytesLE 8 0x8000 ++ bytesLE 8 0x7FFF
        else if r.type == .i32 then bytesLE 8 r.default ++ bytesLE 8 0x80000000 ++ bytesLE 8 0x7FFFFFFF
        else bytesLE 8 r.default ++ bytesLE 8 r.lo ++ bytesLE 8 r.hi
      (kOk, bytesLE 1 r.type.code ++ r.access.code ++ bytesLE 1 (b2n (isProtected index) + 2 * b2n r.atStart) ++ bytesLE 1 0
        ++ bytesLE 4 (if r.type.bits = 0 then r.hi else r.type.bits / 8) ++ limits ++ (asciiBytes r.name).take 32)

/-- EMCY_ACK: repeats of an event to the subscriber that answers stop. [DEDUCED, log entry 132] -/
def State.emcyAck (s : State) (path : KdpPath) (seq : Nat) : State :=
  match path with
  | .mailbox => s
  | .field addr _ =>
    { s with log := { s.log with unacked := s.log.unacked.filter (fun (u : Unacked) =>
        !(u.entry.seq == seq && leAt (tabGet [] s.blobs (dkey 0x1017 (u.subscriber + 1))) 0 16 == addr)) } }

/-! ## Sessions (R477–R480) -/

/-- SESSION_OPEN. [DEDUCED, log entry 130] -/
def State.sessionOpen (s : State) (path : KdpPath) (body : List Byte) : Served :=
  let slot := leAt body 0 1
  if body.length != 1 then .no s kFormat
  else if s.keeper.locked.contains (pathCode path) then .no s kLocked
  else if 7 < slot then .no s kRange
  else if s.slotEmpty slot then ⟨kAuthFailed, [], s.authFailed path⟩
  else if 4 ≤ s.keeper.sessions.length then ⟨kCmdRefused, bytesLE 1 stBusy, s⟩
  else
    let nonce := (List.range 48).map (fun i => BitVec.ofNat 8 (Config.freeNat (s.free + i)))
    let n := s.keeper.nextSession
    let x : Session := { slot := slot, path := path, nonce := nonce, opened := false, key := [], seqno := 0 }
    ⟨kOk, bytesLE 4 n ++ nonce, { s with
      free := s.free + 48
      keeper := { s.keeper with sessions := tabSet s.keeper.sessions n x, nextSession := n + 1 } }⟩

/-- The message that SESSION_AUTH signs (R478). -/
def State.authMessage (s : State) (path : KdpPath) (n : Nat) (x : Session) (cipher : List Byte) : List Byte :=
  let src := match path with
    | .field addr port => bytesLE 16 addr ++ bytesLE 2 port
    | .mailbox => List.replicate 18 0#8
  asciiBytes "LT820-KDP-SESSION-1" ++ s.blob 0x1005 0 16 ++ bytesLE 4 n ++ x.nonce ++ bytesLE 1 x.slot ++ bytesLE 1 (pathCode path) ++ src ++ cipher

/-- Do both signatures of a SESSION_AUTH body verify with the keys of the session's slot, `RSA_N` and then `SLH_PK` (R478, R499)?
[PRESUMED, log entry 171] -/
def State.authVerifies (s : State) (path : KdpPath) (n : Nat) (x : Session) (whole : List Byte) : Bool :=
  let key := s.keySlot x.slot
  let m := s.authMessage path n x (whole.take 384)
  rsaVerifies (leAt key 0 384) 65537 m ((whole.drop 384).take 384) && slhVerifies (key.drop 384) m (whole.drop 768)

/-- SESSION_AUTH, its segments complete: both signatures verify and the key decrypts, or the session is discarded (R478).
[DESIGN CHOICE, log entry 116; DEDUCED, log entry 130] -/
def State.sessionAuth (s : State) (path : KdpPath) (n : Nat) (x : Session) (whole : List Byte) : Served :=
  if whole.length != 16992 then .no s kFormat
  else match Config.sessionUnwrap (whole.take 384) with
    | some k =>
      if k.length == 48 && s.authVerifies path n x whole then
        ⟨kOk, [], { s with keeper := { s.keeper with sessions := tabSet s.keeper.sessions n { x with opened := true, key := k } } }⟩
      else ⟨kAuthFailed, [], (s.endSession n).authFailed path⟩
    | none => ⟨kAuthFailed, [], (s.endSession n).authFailed path⟩

/-! ## Segments (R474) -/

/-- The assembly of a path and source ended. -/
def State.dropAssembly (s : State) (path : KdpPath) : State :=
  { s with keeper := { s.keeper with assemblies := s.keeper.assemblies.filter (fun (a : Assembly) => a.path != path) } }

/-- What a segment does to the assembly of its source. [DEDUCED, log entry 126] -/
inductive Assembled where
  /-- It does not belong: the assembly ends. -/
  | bad
  /-- Taken; more follow. -/
  | more (next : State)
  /-- The last one: the head and the whole data. -/
  | whole (head data : List Byte) (next : State)

/-- Take a segment: `head` is the part of the body that every segment of a WRITE repeats.
[DEDUCED, log entry 125; DEDUCED, log entry 126] -/
def State.takeSegment (s : State) (path : KdpPath) (b head data : List Byte) : Assembled :=
  let k := kSeg b
  let last := k + 1 == kSegs b
  if bitAt (kFlags b) 2 == last || decide (kSegs b ≤ k) then .bad
  else
    let s1 := s.dropAssembly path
    let put := fun (d : List Byte) =>
      let a : Assembly := { path := path, op := kOp b, session := kSess b, head := head, data := d, next := k + 1, segs := kSegs b }
      if last then Assembled.whole head d s1 else .more { s1 with keeper := { s1.keeper with assemblies := s1.keeper.assemblies ++ [a] } }
    match s.keeper.assemblies.find? (fun (a : Assembly) => a.path == path) with
    | none => if k == 0 then put data else .bad
    | some a =>
      if a.op == kOp b && a.session == kSess b && a.head == head && a.segs == kSegs b && a.next == k then put (a.data ++ data) else .bad

/-- Is an assembly of this source in progress? [DEDUCED, log entry 125] -/
def State.assembling (s : State) (path : KdpPath) : Bool := s.keeper.assemblies.any (fun (a : Assembly) => a.path == path)

/-- WRITE: a value in one message, or the next segment of one. [DEDUCED, log entry 126] -/
def State.serveWrite (s : State) (path : KdpPath) (slot : Option Nat) (b : List Byte) (aux : KdpAux) : Served :=
  let body := kBody b
  let head := body.take 12
  if body.length < 12 || leAt body 8 4 != 0 then (if s.assembling path then .no (s.dropAssembly path) kSegment else .no s kFormat)
  else match s.takeSegment path b head (body.drop 12) with
    | .bad => .no (s.dropAssembly path) kSegment
    | .more z => .no z kOk
    | .whole h v z =>
      if v.length != leAt h 4 4 then .no z kFormat else z.writeEntry path slot (leAt h 0 2) (leAt h 2 1) (leAt h 3 1) v aux

/-! ## Serving a request (R474, R476, R479, R493) -/

/-- The session a request is in: the checks of R479 in order. An authentication comes in a session that is not open yet. -/
def State.sessionCheck (s : State) (path : KdpPath) (b : List Byte) : Nat × Option Session :=
  if kSess b == 0 then (if kOp b == 0x06 || kOp b == 0x07 then kSession else kOk, none)
  else match tabFind s.keeper.sessions (kSess b) with
    | none => (kSession, none)
    | some x =>
      if x.path != path || x.opened == (kOp b == 0x06) then (kSession, none)
      else if kOp b == 0x06 then (kOk, some x)
      else if !bitAt (kFlags b) 1 || kTag b != (hmac384 x.key (b.take (24 + kLen b))).take 24 then (kMac, some x)
      else if kSeqno b ≤ x.seqno then (kReplay, some x)
      else (kOk, some x)

/-- An accepted request in an open session notes its `SEQNO`. -/
def State.noteSeqno (s : State) (b : List Byte) (x : Option Session) : State := match x with
  | some y => if y.opened then { s with keeper := { s.keeper with sessions := tabSet s.keeper.sessions (kSess b) { y with seqno := kSeqno b } } } else s
  | none => s

/-- The operation of an accepted request. -/
def State.serveOp (s : State) (path : KdpPath) (x : Option Session) (b : List Byte) (aux : KdpAux) : Served :=
  let body := kBody b
  let slot := match x with | some y => if y.opened then some y.slot else none | none => none
  if s.assembling path && !kSegmented (kOp b) then .no (s.dropAssembly path) kSegment
  else match kOp b with
    | 0x01 => if body.isEmpty then ⟨kOk, s.discoverBody, s⟩ else .no s kFormat
    | 0x02 => let r := s.readReply body; ⟨r.1, r.2, s⟩
    | 0x03 => s.serveWrite path slot b aux
    | 0x04 => let r := describeReply body; ⟨r.1, r.2, s⟩
    | 0x05 => s.sessionOpen path body
    | 0x06 =>
      (match x with
       | none => .no s kSession
       | some y =>
         if s.keeper.locked.contains (pathCode path) then .no s kLocked
         else match s.takeSegment path b [] body with
           | .bad => .no (s.dropAssembly path) kSegment
           | .more z => .no z kOk
           | .whole _ v z => z.sessionAuth path (kSess b) y v)
    | 0x07 => if body.isEmpty then ⟨kOk, [], s.endSession (kSess b)⟩ else .no s kFormat
    | 0x09 => if body.length == 4 then ⟨kOk, [], s.emcyAck path (leAt body 0 4)⟩ else .no s kFormat
    | _ => .no s kFormat

/-- What the boot ROM in recovery answers (R493). -/
def State.serveRecovery (s : State) (path : KdpPath) (b : List Byte) (aux : KdpAux) : Served :=
  let body := kBody b
  let index := leAt body 0 2
  if s.assembling path && kOp b != 0x03 then .no (s.dropAssembly path) kSegment
  else match kOp b with
  | 0x01 => if body.isEmpty then ⟨kOk, s.discoverBody, s⟩ else .no s kFormat
  | 0x02 => if index == 0x7001 || index == 0x7006 then let r := s.readReply body; ⟨r.1, r.2, s⟩ else .no s kAccess
  | 0x03 =>
    if index == 0x7010 && leAt body 12 1 != 1 then .no s kAccess
    else if index == 0x7010 || index == 0x7011 || index == 0x7012 || index == 0x7013 then s.serveWrite path (some 0) b aux
    else .no s kAccess
  | _ => .no s kAccess

/-- The key under which a reply is tagged: that of the session of the request, open before it or since. [DEDUCED, log entry 129] -/
def State.replyKey (s t : State) (path : KdpPath) (b : List Byte) : Option (List Byte) :=
  let of := fun (z : State) => match tabFind z.keeper.sessions (kSess b) with
    | some x => if x.opened && x.path == path then some x.key else none
    | none => none
  match of s with
  | some k => some k
  | none => of t

/-- Serve one request: the reply, none where the message is dropped, and the state. [DEDUCED, log entry 125] -/
def State.kdpServe (s : State) (path : KdpPath) (b : List Byte) (aux : KdpAux) : Option (List Byte) × State :=
  let answer := fun (r : Served) => (some (kReply b (s.replyKey r.next path b) r.status r.body), r.next)
  if kDropped b then (none, s.bump 0x101B 0 1)
  else if !kWellFormed path b then answer (if s.assembling path then .no (s.dropAssembly path) kSegment else .no s kFormat)
  else if s.boot.recovery then answer (s.serveRecovery path b aux)
  else
    let c := s.sessionCheck path b
    if c.1 != kOk then answer (.no s c.1)
    else
      let r := (s.noteSeqno b c.2).serveOp path c.2 b aux
      let inOpen := match c.2 with | some x => x.opened | none => false
      answer (if inOpen && kSeqno b == 0xFFFFFFFF then ⟨r.status, r.body, r.next.endSession (kSess b)⟩ else r)

/-! ## Rows -/

/-- The link-local address that `KEEPER_MAC` forms as a modified EUI-64 (R468). -/
def State.linkLocal (s : State) : List Byte :=
  let mac := s.blob 0x1007 0 6
  [0xFE#8, 0x80#8] ++ List.replicate 6 0#8 ++ [mac.headD 0#8 ^^^ 2#8] ++ (mac.drop 1).take 2 ++ [0xFF#8, 0xFE#8] ++ (mac.drop 3).take 3

/-- The solicited-node multicast address of an address. [PRESUMED, log entry 165] -/
def solicitedNode (a : List Byte) : List Byte := [0xFF#8, 0x02#8] ++ List.replicate 9 0#8 ++ [1#8, 0xFF#8] ++ a.drop 13

/-- An ICMPv6 echo reply as an IPv6 packet. [PRESUMED, log entry 165] -/
def echoReply (own peer data : List Byte) : List Byte :=
  let icmp := fun (sum : Nat) => [129#8, 0#8] ++ bytesBE 2 sum ++ data
  let n := data.length + 4
  [0x60#8, 0#8, 0#8, 0#8] ++ bytesBE 2 n ++ [58#8, 255#8] ++ own ++ peer ++ icmp (onesSum (own ++ peer ++ bytesBE 4 n ++ bytesBE 4 58 ++ icmp 0))

/-- A frame to the keeper's field port: it answers once its address is usable, from the keeper or the boot ROM in recovery. Neighbour
solicitations for its link-local address and echo requests to it or to `ff02::1` are answered, datagrams to either at `KDP_PORT` served,
and other frames dropped (R468). -/
def State.kdpField (s : State) (r : KdpRequest) : State :=
  let own := s.linkLocal
  let here := r.dst == leNat own || r.dst == leNat allNodes
  if !s.fieldUsable || !(s.keeperUp || s.boot.recovery) then s
  else match r.frame with
    | .other => s
    | .solicit =>
      if (r.dst == leNat own || r.dst == leNat (solicitedNode own)) && r.bytes == own then
        { s with fieldOut := s.fieldOut ++ [FieldMsg.ip (neighbourAdvert own (s.blob 0x1007 0 6) (bytesLE 16 r.addr))] }
      else s
    | .echo => if here then { s with fieldOut := s.fieldOut ++ [FieldMsg.ip (echoReply own (bytesLE 16 r.addr) r.bytes)] } else s
    | .udp =>
      if !here || r.dstPort != s.kdpPort then s
      else
        let a := s.kdpServe (.field r.addr r.port) r.bytes r.aux
        match a.1 with
        | some bytes => { a.2 with fieldOut := a.2.fieldOut ++ [FieldMsg.udp r.addr r.port bytes] }
        | none => a.2

/-- Is a frame a request with operation `op`? [DESIGN CHOICE, log entry 134] -/
def isOp (op : Nat) (r : KdpRequest) : Bool := r.frame == .udp && !kDropped r.bytes && kOp r.bytes == op
/-- Is a datagram a WRITE to entry `index`? [DESIGN CHOICE, log entry 134] -/
def isWrite (index : Nat) (r : KdpRequest) : Bool := isOp 3 r && leAt (kBody r.bytes) 0 2 == index
/-- The parameter of a one-byte WRITE. -/
def writeParam (r : KdpRequest) : Nat := leAt (kBody r.bytes) 12 1

/-- Entries whose writes are rows of their own. -/
def ownWrites : List Nat :=
  [0x100B, 0x2007, 0x2008, 0x400B, 0x4301, 0x4302, 0x4303, 0x4304, 0x5007, 0x5110, 0x5111, 0x6057, 0x6058, 0x7010, 0x7011, 0x7012, 0x7013,
   0x7014, 0x7015, 0x7020, 0x7021, 0x7030, 0x8002, 0x8003, 0x8004, 0x8010, 0x9011, 0x9012, 0x9020]

/-- Does a frame belong to a row: KDP_WRITE takes writes to entries without a row, KDP_READ whatever has no row of its own?
[DESIGN CHOICE, log entry 134] -/
def isKdpWrite (r : KdpRequest) : Bool :=
  isOp 3 r && !ownWrites.contains (leAt (kBody r.bytes) 0 2)
  && !(isWrite 0x8020 r && (writeParam r == 1 || writeParam r == 2))
/-- [DESIGN CHOICE, log entry 134] -/
def isKdpRead (r : KdpRequest) : Bool := !([1, 3, 4, 5, 6, 7, 9].any (fun o => isOp o r))

/-- A row of the protocol: it serves the datagrams that are its own. [DESIGN CHOICE, log entry 134] -/
def State.kdpRow (s : State) (own : Bool) (r : KdpRequest) : State := if own then s.kdpField r else s

/-- Row MB_DOORBELL: the request in the buffer is served; where it has a reply, that is placed and then `MB_DONE` rises. A doorbell is
ignored and counted while the keeper is down or where the number is not above the last (R481). [DESIGN CHOICE, log entry 133] -/
def State.mbDoorbell (s : State) (v : DWord) (aux : KdpAux) : State :=
  let m := s.keeper.mailbox
  if !s.keeperUp || !m.last.ult v then s.bump 0x101C 0 1
  else
    let a := ({ s with keeper := { s.keeper with mailbox := { m with last := v } } }).kdpServe .mailbox (m.request.read 0 1536) aux
    let box := a.2.keeper.mailbox
    match a.1 with
    | some bytes => { a.2 with keeper := { a.2.keeper with mailbox := { box with reply := box.reply.write 0 (bytes.take 1536), done := v } } }
    | none => a.2

end Sys2Proof.Machine
end

