-- ==== Sys2Proof/Machine/HostPages.lean ====
section
/-!
DEFINITION. The host-visible range: window slots, the queue aperture, doorbell and control pages (rows WINDOW_WRITE, WINDOW_READ,
DB_TAIL and DB_CQ_HEAD in stopped mode; R22, R23, R245, R270, R273, R292, R298, R353–R359, R366, R372, R417, R481).
-/
namespace Sys2Proof.Machine

/-- What an offset of the host-visible range reaches (R22, R270). -/
inductive HostTarget where
  | dram (pa : Nat)
  | scratch (c off : Nat)
  /-- A disabled slot, a scratchpad hole, or past the populated part. -/
  | beyond
  | shadow (q off : Nat)
  /-- The doorbell page of a queue, the device page, a partition's page: offset in the page. -/
  | doorbell (q off : Nat)
  | device (off : Nat)
  | partition (off : Nat)
  | reserved
deriving DecidableEq, Repr

/-- What offset `off` reaches. -/
def State.hostTarget (s : State) (off : Nat) : HostTarget :=
  if off < 0x100000000 then
    let v := (tabGet 0#64 s.host.slots (off / 2 ^ 26)).toNat
    let o := off % 2 ^ 26
    if !slotEn v then .beyond
    else if slotKind v == 0 then if s.isDram (slotBase v + o) then .dram (slotBase v + o) else .beyond
    else if o < 0x300000 then .scratch (slotCell v) o else .beyond
  else if off < 0x13FC00000 then .dram (0x6000000000 + (off - 0x100000000))
  else if off < 0x140000000 then .shadow ((off - 0x13FC00000) / 0x1000) (off % 0x1000)
  else if off < 0x140400000 then .doorbell ((off - 0x140000000) / 0x1000) (off % 0x1000)
  else if off < 0x140401000 then .device (off % 0x1000)
  else if off < 0x140411000 then .partition (off % 0x1000)
  else .reserved

/-- May CXL.mem accesses arrive and complete: the link is up, no retrain holds them (R367), and Memory Space Enable is set (R366)?
[DEDUCED, log entry 75] -/
def State.hostOpen (s : State) : Bool := s.host.rate != 0 && !s.host.retraining && s.host.mse
/-- Is the host port in its stopped mode (R417)? -/
def State.hostStopped (s : State) : Bool := s.power.path == PathState.stopped

/-! ## Doorbells -/

/-- Is every host write received so far committed, but for those that wait in the crossing of cell `but` (R355)? -/
def State.hostLanded (s : State) (but : Option Nat) : Bool :=
  s.cells.all (fun (x : Nat × Cell) => some x.1 == but || x.2.ingress.all (fun w => w.sender != .host))

/-- A doorbell write to queue `q`: `head` for `DB_CQ_HEAD`. It is acted on once every earlier host write is committed (R23). In stopped
mode it is ignored and counted (R417). [DEDUCED, log entry 73; DESIGN CHOICE, log entry 143] -/
def State.doorbell (s : State) (q : Nat) (head whole : Bool) (v : DWord) : State :=
  if s.hostStopped then s.bump 0xA101 0 1
  else if !s.running || !s.hostLanded none then s
  else (if head then s.dbCqHead q whole v else s.dbTail q whole v).spanTakeAll q

/-- Row ADM_DB_TAIL, once every earlier host write is committed (R23). -/
def State.admDoorbell (s : State) (v : DWord) : State := if s.hostLanded none then s.admDbTail v else s

/-- `HOST_FN_CTRL` written (R372): the reserved bits are ignored, and requests 0 and 3. [DEDUCED, log entry 66] -/
def State.fnCtrl (s : State) (v : DWord) : State :=
  match v.toNat % 4 with
  | 1 => s.hostFnDisable
  | 2 => s.hostFnEnable
  | _ => s

/-- Eight aligned bytes written to the device control page. [DEDUCED, log entry 73] -/
def State.deviceWrite (s : State) (off : Nat) (v : DWord) (aux : KdpAux) : State :=
  match off with
  | 0x000 => s.admDoorbell v
  | 0x008 => s.admCqHead v
  | 0x010 => s.noteHead v
  | 0x030 => s.admCtrl v
  | 0x040 => s.fnCtrl v
  | 0x100 => s.mbDoorbell v aux
  | _ =>
    if decide (0x200 ≤ off) && decide (off < 0x400) then s.winSlotWrite ((off - 0x200) / 8) v
    else if decide (0x48 ≤ off) && decide (off < 0x100) then { s with rsvWrites := s.rsvWrites + 1 }
    else s.devicePut off v

/-- Bytes written to the mailbox request buffer. -/
def State.requestWrite (s : State) (off : Nat) (bs : List Byte) : State :=
  { s with keeper := { s.keeper with mailbox := { s.keeper.mailbox with request := s.keeper.mailbox.request.write (off - 0x400) bs } } }

/-- A host write that carries poison is counted, by granule. -/
def State.countPoisonIn (s : State) (poison : Bool) : State := if poison then s.bump 0xA00A 0 1 else s

/-! ## Rows -/

/-- The cell whose crossing a host write would join. -/
def HostTarget.crossing : HostTarget → Option Nat
  | .scratch c _ => some c
  | _ => none

/-- Row WINDOW_WRITE: bytes of one granule written at an offset of the host-visible range. While an earlier write waits in a cell's
crossing, the host port commits nothing behind it and acts on no doorbell (R23, R355). [DESIGN CHOICE, log entry 72; DESIGN CHOICE, log entry 74] -/
def State.windowWrite (s : State) (off : Nat) (bs : List Byte) (poison : Bool) (aux : KdpAux) : State :=
  let whole := bs.length == 8 && off % 8 == 0
  let v := BitVec.ofNat 64 (leNat bs)
  if !s.hostOpen || bs.isEmpty || decide (64 < off % 64 + bs.length) || !s.hostLanded (s.hostTarget off).crossing then s
  else
    match s.hostTarget off with
    | .dram pa => if s.running then (s.dramWrite pa bs poison).countPoisonIn poison else s.bump 0xA007 0 1
    | .scratch c o =>
      if !s.running then s.bump 0xA007 0 1
      else if !(s.cell c).ingressRoom bs.length then s
      else (s.ingest c { sender := .host, off := o, bytes := bs, poison := poison, suspect := false }).countPoisonIn poison
    | .beyond => s.bump 0xA007 0 1
    | .shadow _ _ => if s.running then s.bump 0xA101 0 1 else s.bump 0xA007 0 1
    | .doorbell q o =>
      if o == 0 then s.doorbell q false whole v else if o == 8 then s.doorbell q true whole v else s.bump 0xA101 0 1
    | .device o =>
      if 0x400 ≤ o ∧ o < 0xA00 then s.requestWrite o bs else if whole then s.deviceWrite o v aux else s
    | .partition _ => s.bump 0xA101 0 1
    | .reserved => { s with rsvWrites := s.rsvWrites + 1 }

/-- What a read of `n` bytes of one granule returns: data and the poison indication; whether it counts as dropped. -/
def State.windowView (s : State) (off n : Nat) : List Byte × Bool × Bool :=
  let dropped := (List.replicate n 0#8, false, true)
  match s.hostTarget off with
  | .dram pa => if s.running then (let r := s.memRead pa n; (r.1, r.2.1, false)) else dropped
  | .scratch c o => if s.running then (s.spRead c o n, (s.cell c).scratch.poisoned 64 o n, false) else dropped
  | .beyond => dropped
  | .shadow q o => if s.running then ((List.range n).map (fun i => (s.queue q).shadowByte (o + i)), false, false) else dropped
  | .reserved => (List.replicate n 0#8, false, false)
  | _ =>
    let base := ctlBase + (off - 0x140000000)
    let words := (List.range ((off % 8 + n + 7) / 8)).flatMap (fun i => bytesLE 8 (s.regValue (base - base % 8 + 8 * i)))
    ((words.drop (off % 8)).take n, false, false)

/-- Must a read wait: for earlier host writes that are not committed (R356), or in a scratchpad for an `EGRESS` slot (R70)?
[DESIGN CHOICE, log entry 143] -/
def State.windowHeld (s : State) (off n : Nat) : Bool :=
  !s.hostLanded none || (match s.hostTarget off with
    | .scratch c o => s.running && !calReaches (s.cell c).calendar .egress o n
    | _ => false)

/-- Row WINDOW_READ: every earlier write is committed, since writes are applied as they arrive; the answer goes to the host.
[DESIGN CHOICE, log entry 79] -/
def State.windowRead (s : State) (off n : Nat) : State :=
  if !s.hostOpen || n == 0 || decide (64 < off % 64 + n) || s.windowHeld off n then s
  else
    let r := s.windowView off n
    let s1 := { s with host := { s.host with answer := r.1, answerPoison := r.2.1 } }
    let s2 := if r.2.1 then s1.bump 0xA009 0 1 else s1
    let s3 := match s.hostTarget off with
      | .scratch c o => if s.running then s2.noteResident c o n else s2
      | _ => s2
    if r.2.2 then s3.bump 0xA007 0 1 else s3

/-- Configuration writes to the Command register: Bus Master Enable cleared or set, with the Memory Space Enable it leaves.
[DEDUCED, log entry 75] -/
def State.putMse (s : State) (mse : Bool) : State := { s with host := { s.host with mse := mse } }

end Sys2Proof.Machine
end

