-- ==== Sys2Proof/Machine/CellRows.lean ====
section
/-!
DEFINITION. The meanings of the commands of cells and their threads: each the effect of its row, on units the device has.
-/
namespace Sys2Proof.Machine

/-- INT_ARITH (R545). -/
def execIntArith (c t : Nat) (w : Word) (op : Option IntOp) (s : State) : Res := onThread c t s (fun z => z.intArith c t w op)

/-- DIVIDE_COMPLETE (R54). -/
def execDivideComplete (c t : Nat) (s : State) : Res := onThread c t s (fun z => z.divideComplete c t)

/-- COMPARE_PREDICATE (R56). -/
def execComparePredicate (c t : Nat) (w : Word) (op : Option PredOp) (s : State) : Res :=
  onThread c t s (fun z => z.comparePredicate c t w op)

/-- BRANCH (R546). -/
def execBranch (c t : Nat) (w : Word) (s : State) : Res := onThread c t s (fun z => z.branch c t w)

/-- INDIRECT_JUMP (R546). -/
def execIndirectJump (c t : Nat) (w : Word) (op : Option JumpOp) (s : State) : Res :=
  onThread c t s (fun z => z.indirectJump c t w op)

/-- SP_LOAD (R57). -/
def execSpLoad (c t : Nat) (w : Word) (op : Option MemOp) (s : State) : Res := onThread c t s (fun z => z.spLoad c t w op)

/-- SP_LOAD_RETURN (R54). -/
def execSpLoadReturn (c t : Nat) (s : State) : Res := onThread c t s (fun z => z.spLoadReturn c t)

/-- SP_STORE (R57). -/
def execSpStore (c t : Nat) (w : Word) (op : Option MemOp) (s : State) : Res := onThread c t s (fun z => z.spStore c t w op)

/-- VA_LOAD (R54). -/
def execVaLoad (c t : Nat) (w : Word) (op : Option MemOp) (s : State) : Res := onThread c t s (fun z => z.vaLoad c t w op)

/-- VA_LOAD_RETURN (R54). -/
def execVaLoadReturn (c t : Nat) (s : State) : Res := onThread c t s (fun z => z.vaLoadReturn c t)

/-- VA_STORE (R54). -/
def execVaStore (c t : Nat) (w : Word) (op : Option MemOp) (s : State) : Res := onThread c t s (fun z => z.vaStore c t w op)

/-- FENCE (R54). -/
def execFence (c t : Nat) (w : Word) (s : State) : Res := onThread c t s (fun z => z.fence c t w)

/-- FENCE_COMPLETE (R54). -/
def execFenceComplete (c t : Nat) (s : State) : Res := onThread c t s (fun z => z.fenceComplete c t)

/-- ICACHE_MISS_FILL (R54). -/
def execIcacheMissFill (c : Nat) (t : Option Nat) (off : Nat) (s : State) : Res := onCell c s (fun z => z.icacheFill c t off)

/-- SYSTEM_VALUE_READ (R58). -/
def execSystemValueRead (c t : Nat) (w : Word) (s : State) : Res := onThread c t s (fun z => z.systemValueRead c t w)

/-- SIG (R61). -/
def execSig (c t : Nat) (w : OpWord) (s : State) : Res := onThread c t s (fun z => z.sig c t w.word w.known)

/-- WAIT (R62). -/
def execWait (c t : Nat) (w : OpWord) (s : State) : Res := onThread c t s (fun z => z.wait c t w.word w.known)

/-- TRY (R61). -/
def execTryOp (c t : Nat) (w : OpWord) (s : State) : Res := onThread c t s (fun z => z.tryOp c t w.word w.known)

/-- SEM_READ (R61). -/
def execSemRead (c t : Nat) (w : OpWord) (s : State) : Res := onThread c t s (fun z => z.semRead c t w.word w.known)

/-- TSPAWN (R59). -/
def execTspawn (c t : Nat) (w : OpWord) (s : State) : Res := onThread c t s (fun z => z.tspawn c t w.word w.known)

/-- TEXIT (R59). -/
def execTexit (c t : Nat) (w : OpWord) (s : State) : Res := onThread c t s (fun z => z.texit c t w.word w.known)

/-- ARRAY_CMD (R65). -/
def execArrayCmd (c t : Nat) (w w1 : Word) (s : State) : Res := onThread c t s (fun z => z.arrayCmd c t w w1)

/-- VECTOR_CMD (R65). -/
def execVectorCmd (c t : Nat) (w w1 : Word) (s : State) : Res := onThread c t s (fun z => z.vectorCmd c t w w1)

/-- STREAM_CMD (R309). -/
def execStreamCmd (c t : Nat) (w w1 : Word) (s : State) : Res := onThread c t s (fun z => z.streamCmd c t w w1)

/-- BAG_CMD (R165). -/
def execBagCmd (c t : Nat) (w w1 : Word) (s : State) : Res := onThread c t s (fun z => z.bagCmd c t w w1)

/-- SAMPLE_CMD (R65). -/
def execSampleCmd (c t : Nat) (w w1 : Word) (s : State) : Res := onThread c t s (fun z => z.sampleCmd c t w w1)

/-- LAYER (R68). -/
def execLayer (c t : Nat) (w : Word) (s : State) : Res := onThread c t s (fun z => z.layer c t w)

/-- LAYER_DRAIN_DONE (R68). -/
def execLayerDrainDone (c : Nat) (s : State) : Res := onCell c s (fun z => z.layerDrainDone c)

/-- LAYERW (R115). -/
def execLayerw (c t : Nat) (w : Word) (s : State) : Res := onThread c t s (fun z => z.layerW c t w)

/-- LAYERW_VERDICT (R115). -/
def execLayerwVerdict (l : Nat) (s : State) : Res := onPath s (fun z => z.layerwVerdict l)

/-- ENGINE_SAFE_POINT_ABANDON (R71). -/
def execEngineSafePointAbandon (c e rows : Nat) (s : State) : Res := onCell c s (fun z => z.engineAbandon c e rows)

end Sys2Proof.Machine
end

