-- ==== Sys2Proof/Machine/EngineRows.lean ====
section
/-!
DEFINITION. The meanings of the commands of the matrix array, the vector engine and the sampler: each the effect of its row, on units the device has.
-/
namespace Sys2Proof.Machine

/-- ARRAY_PASS_START (R83). -/
def execArrayPassStart (c : Nat) (sampled : Bool) (s : State) : Res := onCell c s (fun z => z.arrayPassStart c sampled)

/-- ARRAY_PASS_COMPLETE (R76). -/
def execArrayPassComplete (c : Nat) (s : State) : Res := onCell c s (fun z => z.arrayPassComplete c)

/-- LOAD_ONLY (R87). -/
def execLoadOnly (c : Nat) (s : State) : Res := onCell c s (fun z => z.loadOnly c)

/-- WEIGHT_LOAD_COMPLETE (R87). -/
def execWeightLoadComplete (c : Nat) (s : State) : Res := onCell c s (fun z => z.weightLoadComplete c)

/-- RAMP_DOWN (R91). -/
def execRampDown (c cols : Nat) (s : State) : Res := onCell c s (fun z => z.rampDown c cols)

/-- VECTOR_COMMAND_START (R126). -/
def execVectorCommandStart (c : Nat) (s : State) : Res := onCell c s (fun z => z.vectorCommandStart c)

/-- VEC_FLOAT_OP (R129). -/
def execVecFloatOp (c : Nat) (w : Word) (op : Option (FloatOp × FloatFmt)) (s : State) : Res :=
  onCell c s (fun z => z.vecFloatOp c w op)

/-- VEC_INT_OP (R130). -/
def execVecIntOp (c : Nat) (w : Word) (op : Option (VIntOp × IntFmt)) (s : State) : Res := onCell c s (fun z => z.vecIntOp c w op)

/-- VEC_COMPARE (R127). -/
def execVecCompare (c : Nat) (w : Word) (op : Option MaskOp) (s : State) : Res := onCell c s (fun z => z.vecCompare c w op)

/-- VEC_SCRATCH_ACCESS (R134). -/
def execVecScratchAccess (c : Nat) (w : Word) (op : Option ScratchOp) (s : State) : Res :=
  onCell c s (fun z => z.vecScratchAccess c w op)

/-- VEC_TILE_ACCESS (R135). -/
def execVecTileAccess (c : Nat) (w : Word) (op : Option TileOp) (s : State) : Res := onCell c s (fun z => z.vecTileAccess c w op)

/-- VEC_CONVERT (R131). -/
def execVecConvert (c : Nat) (w : Word) (op : Option ConvertOp) (s : State) : Res := onCell c s (fun z => z.vecConvert c w op)

/-- VEC_CROSS_LANE (R132). -/
def execVecCrossLane (c : Nat) (w : Word) (op : Option CrossOp) (s : State) : Res := onCell c s (fun z => z.vecCrossLane c w op)

/-- VEC_RANDOM_DRAW (R133). -/
def execVecRandomDraw (c : Nat) (w : Word) (op : Bool) (s : State) : Res := onCell c s (fun z => z.vecRandomDraw c w op)

/-- VNEXT (R124). -/
def execVnext (c : Nat) (w : Word) (s : State) : Res := onCell c s (fun z => z.vnext c w)

/-- VEND (R124). -/
def execVend (c : Nat) (w : Word) (s : State) : Res := onCell c s (fun z => z.vend c w)

/-- VECTOR_COMPLETE (R126). -/
def execVectorComplete (c : Nat) (s : State) : Res := onCell c s (fun z => z.vectorComplete c)

/-- SAMPLE_START (R151). -/
def execSampleStart (c : Nat) (s : State) : Res := onCell c s (fun z => z.sampleStart c)

/-- SAMPLE_COMPLETE (R153). -/
def execSampleComplete (c : Nat) (s : State) : Res := onCell c s (fun z => z.sampleComplete c)

end Sys2Proof.Machine
end

