-- ==== Sys2Proof/Machine/FabricRows.lean ====
section
/-!
DEFINITION. The meanings of the commands of fabric ports, frames, waggles and Ethernet: each the effect of its row, on units the device has.
-/
namespace Sys2Proof.Machine

/-- PORT_SIGNAL_DETECT (R376). -/
def execPortSignalDetect (p : Nat) (s : State) : Res := onPort p s (fun z => z.portSignalDetect p)

/-- TRAINING_COMPLETE (R378). -/
def execTrainingComplete (p : Nat) (lanes polInv : BitVec 4) (reversed : Bool) (neighbour nport : Nat) (s : State) : Res :=
  onPort p s (fun z => z.trainingComplete p lanes polInv reversed neighbour nport)

/-- TRAINING_ATTEMPT_FAIL (R378). -/
def execTrainingAttemptFail (p : Nat) (mismatch : Bool) (s : State) : Res :=
  onPort p s (fun z => z.trainingAttemptFail p mismatch)

/-- LANE_FAIL (R380). -/
def execLaneFail (p lane : Nat) (s : State) : Res := onLane p lane s (fun z => z.laneFail p lane)

/-- PORT_ELECTRICAL_IDLE (R377). -/
def execPortElectricalIdle (p : Nat) (s : State) : Res := onPort p s (fun z => z.portElectricalIdle p)

/-- PORT_RETRAIN_COMPLETE (R376). -/
def execPortRetrainComplete (p : Nat) (s : State) : Res := onPort p s (fun z => z.portRetrainComplete p)

/-- PORT_RETRAIN_TIMEOUT (R376). -/
def execPortRetrainTimeout (p : Nat) (s : State) : Res := onPort p s (fun z => z.portRetrainTimeout p)

/-- PORT_FAILED_RETRY (R376). -/
def execPortFailedRetry (p : Nat) (s : State) : Res := onPort p s (fun z => z.portFailedRetry p)

/-- PORT_RESTART (R376). -/
def execPortRestart (req : KdpRequest) (s : State) : Res := always s (fun z => z.kdpRow (isWrite 0x5007 req) req)

/-- FLIT_RECEIVE (R383). -/
def execFlitReceive (p : Nat) (flit : LinkFlit) (s : State) : Res := onPort p s (fun z => z.flitReceive p flit.bytes flit.lane)

/-- NAK_RECEIVE (R383). -/
def execNakReceive (p ack lane : Nat) (s : State) : Res := onPort p s (fun z => z.nakReceive p ack lane)

/-- FRAME_ROUTE (R391). -/
def execFrameRoute (src : RouteFrom) (s : State) : Res := onPath s (fun z => z.frameRoute src)

/-- FRAME_DELIVER (R387). -/
def execFrameDeliver (p : Nat) (s : State) : Res := onPort p s (fun z => z.frameDeliver p)

/-- WAGGLE_RECEIVE (R395). -/
def execWaggleReceive (p : Nat) (s : State) : Res := onPort p s (fun z => z.waggleReceive p)

/-- WAGGLE_CREDIT_TIMEOUT (R395). -/
def execWaggleCreditTimeout (p : Nat) (s : State) : Res := onPort p s (fun z => z.waggleCreditTimeout p)

/-- WAGGLE_FILTER_AGE (R395). -/
def execWaggleFilterAge (s : State) : Res := onPath s (fun z => z.waggleFilterAge)

/-- ETH_FRAME_RECEIVE (R398). -/
def execEthFrameReceive (p : Nat) (bytes : List Byte) (fcsOk : Bool) (s : State) : Res :=
  onPort p s (fun z => z.ethFrameReceive p bytes fcsOk)

/-- ROCE_PACKET (R401). -/
def execRocePacket (p : Nat) (pkt : RocePkt) (s : State) : Res := onPort p s (fun z => z.rocePacket p pkt)

/-- CNP_RECEIVE (R403). -/
def execCnpReceive (p qpn : Nat) (s : State) : Res := onPort p s (fun z => z.cnpReceive p qpn)

/-- RATE_RECOVER (R403). -/
def execRateRecover (qpn : Nat) (s : State) : Res := onPath s (fun z => z.rateRecover qpn)

/-- QP_CREATE (R400). -/
def execQpCreate (req : KdpRequest) (s : State) : Res := always s (fun z => z.kdpRow (isWrite 0x5110 req) req)

/-- QP_DESTROY (R400). -/
def execQpDestroy (req : KdpRequest) (s : State) : Res := always s (fun z => z.kdpRow (isWrite 0x5111 req) req)

end Sys2Proof.Machine
end

