-- ==== Sys2Proof/Machine/GroupRows.lean ====
section
/-!
DEFINITION. The meanings of the commands of table groups, spans and fabric windows: each the effect of its row, on units the device has.
-/
namespace Sys2Proof.Machine

/-- GROUP_CREATE (R214). -/
def execGroupCreate (s : State) : Res := onPath s (fun z => z.groupCreate)

/-- GROUP_DESTROY (R304). -/
def execGroupDestroy (s : State) : Res := onPath s (fun z => z.groupDestroy)

/-- SPAN_BIND (R304). -/
def execSpanBind (s : State) : Res := onPath s (fun z => z.spanBind)

/-- FANOUT_RECEIVE (R217). -/
def execFanoutReceive (home launch block groupId : Nat) (epoch : DWord) (versions : List (Nat × Nat)) (bytes : List Byte) (poison : List Nat) (s : State) : Res :=
  onPath s (fun z => z.fanoutReceive home launch block groupId epoch versions bytes poison)

/-- BAG_REQ_RECEIVE (R216). -/
def execBagReqReceive (home launch block first count rank tag : Nat) (s : State) : Res :=
  onPath s (fun z => z.bagReqReceive home launch block first count rank tag)

/-- GATHER_RECEIVE (R218). -/
def execGatherReceive (tag rank seg row : Nat) (bytes : List Byte) (poison : Bool) (s : State) : Res :=
  onPath s (fun z => z.gatherReceive tag rank seg row bytes poison)

/-- FANOUT_TIMEOUT (R221). -/
def execFanoutTimeout (tag rank : Nat) (s : State) : Res := onPath s (fun z => z.fanoutTimeout tag rank)

/-- ABANDON_RECEIVE (R222). -/
def execAbandonReceive (home launch : Nat) (s : State) : Res := onPath s (fun z => z.abandonReceive home launch)

/-- RETURN_ENTRY_EXPIRY (R222). -/
def execReturnEntryExpiry (tag : Nat) (s : State) : Res := onPath s (fun z => z.returnEntryExpiry tag)

/-- EPOCH_ADVANCE (R224). -/
def execEpochAdvance (q : Nat) (s : State) : Res := onQueue q s (fun z => z.epochAdvance q)

/-- PREPARE_RECEIVE (R225). -/
def execPrepareReceive (groupId : Nat) (e : DWord) (s : State) : Res := onPath s (fun z => z.prepareReceive groupId e)

/-- READY_RECEIVE (R225). -/
def execReadyReceive (groupId rank : Nat) (e : DWord) (digest : Nat) (s : State) : Res :=
  onPath s (fun z => z.readyReceive groupId rank e digest)

/-- PREPARE_RETRY (R225). -/
def execPrepareRetry (h : Nat) (s : State) : Res := onPath s (fun z => z.prepareRetry h)

/-- LOW_REPORT (R226). -/
def execLowReport (h : Nat) (s : State) : Res := onPath s (fun z => z.lowReport h)

/-- LOW_REPORT_RECEIVE (R226). -/
def execLowReportReceive (groupId rank : Nat) (low : DWord) (s : State) : Res :=
  onPath s (fun z => z.lowReportReceive groupId rank low)

/-- LOW_BROADCAST (R226). -/
def execLowBroadcast (h : Nat) (s : State) : Res := onPath s (fun z => z.lowBroadcast h)

/-- GROUP_DEGRADED (R227). -/
def execGroupDegraded (h : Nat) (silent : List Nat) (s : State) : Res := onPath s (fun z => z.groupDegraded h silent)

/-- SPAN_RECORD_ARRIVAL (R231). -/
def execSpanRecordArrival (bytes : List Byte) (poison : List Nat) (s : State) : Res :=
  onPath s (fun z => z.spanRecordArrival bytes poison)

/-- SPAN_RETURN_ARRIVAL (R233). -/
def execSpanReturnArrival (bytes : List Byte) (poison : List Nat) (s : State) : Res :=
  onPath s (fun z => z.spanReturnArrival bytes poison)

/-- SPAN_TIMEOUT (R233). -/
def execSpanTimeout (tag : Nat) (s : State) : Res := onPath s (fun z => z.spanTimeout tag)

/-- OPEN_WINDOW (R235). -/
def execOpenWindow (s : State) : Res := onPath s (fun z => z.openWindow)

/-- IMPORT_WINDOW (R236). -/
def execImportWindow (s : State) : Res := onPath s (fun z => z.importWindow)

/-- WINDOW_PROBE_RECEIVE (R236). -/
def execWindowProbeReceive (src tag part window key perm : Nat) (s : State) : Res :=
  onPath s (fun z => z.windowProbeReceive src tag part window key perm)

/-- WINDOW_ACCESS_AT_OWNER (R237). -/
def execWindowAccessAtOwner (src tag part window key offset : Nat) (write : Bool) (bytes : List Byte) (n : Nat) (poison : Bool) (s : State) : Res :=
  onPath s (fun z => z.windowAccess src tag part window key offset write bytes n poison)

/-- WINDOW_RESPONSE (R238). -/
def execWindowResponse (tag check : Nat) (bytes : List Byte) (poison : Bool) (s : State) : Res :=
  onPath s (fun z => z.windowResponse tag check bytes poison)

/-- WINDOW_TIMEOUT (R237). -/
def execWindowTimeout (tag : Nat) (s : State) : Res := onPath s (fun z => z.windowTimeout tag)

/-- CLOSE_WINDOW (R239). -/
def execCloseWindow (s : State) : Res := onPath s (fun z => z.closeWindow)

/-- WINDOW_CLOSED (R239). -/
def execWindowClosed (p win : Nat) (s : State) : Res := onPartition p s (fun z => z.windowClosed p win)

/-- RELEASE_IMPORT (R304). -/
def execReleaseImport (s : State) : Res := onPath s (fun z => z.releaseImport)

end Sys2Proof.Machine
end

