-- ==== Sys2Proof/Machine/HostRows.lean ====
section
/-!
DEFINITION. The meanings of the commands of the host port: each the effect of its row, on units the device has.
-/
namespace Sys2Proof.Machine

/-- WIN_SLOT_WRITE (R353). -/
def execWinSlotWrite (k : Nat) (v : DWord) (s : State) : Res := onHostUnit k 64 s (fun z => z.winSlotWrite k v)

/-- WINDOW_WRITE (R355). -/
def execWindowWrite (off : Nat) (bytes : List Byte) (poison : Bool) (aux : KdpAux) (s : State) : Res :=
  onHost s (fun z => z.windowWrite off bytes poison aux)

/-- WINDOW_READ (R356). -/
def execWindowRead (off n : Nat) (s : State) : Res := onHost s (fun z => z.windowRead off n)

/-- HOST_FN_DISABLE (R366). -/
def execHostFnDisable (s : State) : Res := onHost s (fun z => z.hostFnDisable)

/-- HOST_FN_ENABLE (R366). -/
def execHostFnEnable (s : State) : Res := onHost s (fun z => z.hostFnEnable)

/-- BUS_MASTER_CLEAR (R366). -/
def execBusMasterClear (mse : Bool) (s : State) : Res := onHost s (fun z => (z.putMse mse).busMasterClear)

/-- FUNCTION_DRAINED (R366). -/
def execFunctionDrained (s : State) : Res := onPath s (fun z => z.functionDrained)

/-- DRAIN_TIMEOUT (R366). -/
def execDrainTimeout (s : State) : Res := onPath s (fun z => z.drainTimeout)

/-- LINK_RETRAIN_START (R367). -/
def execLinkRetrainStart (s : State) : Res := onHost s (fun z => z.linkRetrainStart)

/-- LINK_RETRAIN_END (R367). -/
def execLinkRetrainEnd (s : State) : Res := onHost s (fun z => z.linkRetrainEnd)

/-- RETRAIN_OVERRUN (R368). -/
def execRetrainOverrun (s : State) : Res := onHost s (fun z => z.retrainOverrun)

/-- HOST_RESET (R368). -/
def execHostReset (linkDown : Bool) (s : State) : Res := onHost s (fun z => z.hostReset linkDown)

/-- UCIE_LINK_TRAIN (R350). -/
def execUcieLinkTrain (passes : List Nat) (half : BitVec 4) (s : State) : Res := onPath s (fun z => z.ucieLinkTrain passes half)

/-- REGION_REGISTER (R361). -/
def execRegionRegister (s : State) : Res := onPath s (fun z => z.regionRegister)

/-- REGION_RELEASE (R365). -/
def execRegionRelease (s : State) : Res := onPath s (fun z => z.regionRelease)

end Sys2Proof.Machine
end

