-- ==== Sys2Proof/Machine/IntegrityRows.lean ====
section
/-!
DEFINITION. The meanings of the commands of the taster, replicas, quarantine and the stacks: each the effect of its row, on units the device has.
-/
namespace Sys2Proof.Machine

/-- TASTER_CHECKER_DISPATCH (R420). -/
def execTasterCheckerDispatch (id c : Nat) (s : State) : Res := onCell c s (fun z => z.tasterDispatch id c)

/-- TASTER_SEARCH_TIMEOUT (R420). -/
def execTasterSearchTimeout (id : Nat) (s : State) : Res := onPath s (fun z => z.tasterTimeout id)

/-- TASTER_CHECK_COMPLETE (R421). -/
def execTasterCheckComplete (id : Nat) (err : DWord) (s : State) : Res := onPath s (fun z => z.tasterComplete id err)

/-- QUARANTINE_EFFECTIVE (R423). -/
def execQuarantineEffective (c : Nat) (s : State) : Res := onCell c s (fun z => z.quarantineEffective c)

/-- QUARANTINED_WRITE (R424). -/
def execQuarantinedWrite (req : KdpRequest) (s : State) : Res := always s (fun z => z.kdpRow (isWrite 0x6057 req) req)

/-- REPLICA_DEFINE (R425). -/
def execReplicaDefine (req : KdpRequest) (s : State) : Res := always s (fun z => z.kdpRow (isWrite 0x4301 req) req)

/-- REPLICA_VERSION (R427). -/
def execReplicaVersion (req : KdpRequest) (s : State) : Res := always s (fun z => z.kdpRow (isWrite 0x4302 req) req)

/-- REPLICA_REMOVE (R425). -/
def execReplicaRemove (req : KdpRequest) (s : State) : Res := always s (fun z => z.kdpRow (isWrite 0x4303 req) req)

/-- REPLICA_CLEAR (R431). -/
def execReplicaClear (req : KdpRequest) (s : State) : Res := always s (fun z => z.kdpRow (isWrite 0x4304 req) req)

/-- DIGEST_PASS_START (R428). -/
def execDigestPassStart (k : Nat) (s : State) : Res := onPath s (fun z => z.digestStart k)

/-- DIGEST_PASS_DONE (R429). -/
def execDigestPassDone (k : Nat) (s : State) : Res := onPath s (fun z => z.digestDone k)

/-- REPLICA_REPAIRED (R430). -/
def execReplicaRepaired (k : Nat) (w : Nat) (s : State) : Res := onPath s (fun z => z.replicaRepaired k w)

/-- BRIDGE_RETRY_EXHAUSTED (R15). -/
def execBridgeRetryExhausted (s : State) : Res := onPath s (fun z => z.bridgeFailed)

/-- DEVICE_RECOVER (R417). -/
def execDeviceRecover (req : KdpRequest) (s : State) : Res := always s (fun z => z.kdpRow (isWrite 0x6058 req) req)

/-- DRAM_READ (R42). -/
def execDramRead (g : DramPlace) (errs : List (Nat × Nat)) (stays act stepping : Bool) (what : ReadFor) (s : State) : Res :=
  onPath s (fun z => z.dramRead g.granule g.landed errs stays act stepping what)

/-- DRAM_WRITE (R43). -/
def execDramWrite (pa : Nat) (bytes : List Byte) (poison : Bool) (errs again : List (Nat × Nat)) (act stepping : Bool) (s : State) : Res :=
  onPath s (fun z => z.dramWriteRow pa bytes poison errs again act stepping)

/-- CORRECTIVE_WRITE (R44). -/
def execCorrectiveWrite (g : NurseAccess) (s : State) : Res := onPath s (fun z => z.correctiveWrite g.granule g.act)

/-- REFRESH_COMMAND (R34). -/
def execRefreshCommand (u rank bank row16 : Nat) (s : State) : Res := onUnit u 256 s (fun z => z.refreshCommand u rank bank row16)

/-- TARGETED_REFRESH (R38). -/
def execTargetedRefresh (u : Nat) (s : State) : Res := onUnit u 256 s (fun z => z.targetedRefresh u)

/-- DRAM_SENSOR_SAMPLE (R35). -/
def execDramSensorSample (k : Nat) (readings : List Int) (s : State) : Res := anyUnit k 4 s (fun z => z.dramSensorSample k readings)

/-- REFRESH_PACE_RESTORE (R35). -/
def execRefreshPaceRestore (k : Nat) (s : State) : Res := onStack k s (fun z => z.refreshPaceRestore k)

/-- HOT_MINUTE (R36). -/
def execHotMinute (s : State) : Res := always s (fun z => z.hotMinute)

/-- PATROL_SCRUB (R46). -/
def execPatrolScrub (g : NurseAccess) (errs : List (Nat × Nat)) (stays : Bool) (s : State) : Res :=
  onPath s (fun z => z.patrolScrub g.granule errs stays g.act)

/-- RECENTRE_STEP (R47). -/
def execRecentreStep (u : Nat) (aborted : Bool) (s : State) : Res := onUnit u 256 s (fun z => z.recentreStep u aborted)

/-- CALIB_OVERDUE (R47). -/
def execCalibOverdue (u : Nat) (s : State) : Res := onUnit u 256 s (fun z => z.calibOverdue u)

/-- RECENTRE_NOW (R48). -/
def execRecentreNow (req : KdpRequest) (s : State) : Res := always s (fun z => z.kdpRow (isWrite 0x400B req) req)

end Sys2Proof.Machine
end

