-- ==== Sys2Proof/Machine/LaterRows.lean ====
section
/-!
DEFINITION. The meanings of the commands of the rows at the end of the table: each the effect of its row, on units the device has.
-/
namespace Sys2Proof.Machine

/-- RAIL_OFF (R439). -/
def execRailOff (rail : Nat) (s : State) : Res := onRail rail s (fun z => z.railOff rail)

/-- VAUX_LOSS (R537). -/
def execVauxLoss (s : State) : Res := always s (fun z => z.vauxLoss)

/-- BUS_MASTER_SET (R366). -/
def execBusMasterSet (mse : Bool) (s : State) : Res := onHost s (fun z => (z.putMse mse).busMasterSet)

/-- SREFCLK_RETURN (R452). -/
def execSrefclkReturn (s : State) : Res := always s (fun z => z.srefclkReturn)

/-- EPOCH_REQUEST_RECEIVE (R225). -/
def execEpochRequestReceive (groupId : Nat) (e : DWord) (s : State) : Res := onPath s (fun z => z.epochRequestReceive groupId e)

/-- VERSION_LIST_RECEIVE (R197). -/
def execVersionListReceive (groupId rank : Nat) (e : DWord) (versions : List (Nat × Nat × Nat)) (s : State) : Res :=
  onPath s (fun z => z.versionListReceive groupId rank e versions)

/-- PATCH_QUERY_RECEIVE (R202). -/
def execPatchQueryReceive (src seq asker : Nat) (s : State) : Res := onPath s (fun z => z.patchQueryReceive src seq asker)

/-- ABORT_PUBLISH_RECEIVE (R197). -/
def execAbortPublishReceive (groupId table tver : Nat) (s : State) : Res :=
  onPath s (fun z => z.abortPublishReceive groupId table tver)

/-- ABANDON_ACK_RECEIVE (R222). -/
def execAbandonAckReceive (src launch : Nat) (s : State) : Res := onPath s (fun z => z.abandonAckReceive src launch)

/-- PROBE_ANSWER_RECEIVE (R236). -/
def execProbeAnswerReceive (tag check size : Nat) (s : State) : Res := onPath s (fun z => z.probeAnswerReceive tag check size)

/-- ADMIN_IRQ_HOLDOFF_EXPIRY (R298). -/
def execAdminIrqHoldoffExpiry (s : State) : Res := onPath s (fun z => z.adminHoldoff)

end Sys2Proof.Machine
end

