-- ==== Sys2Proof/Machine/LookupRows.lean ====
section
/-!
DEFINITION. The meanings of the commands of embedding lookup: each the effect of its row, on units the device has.
-/
namespace Sys2Proof.Machine

/-- BAG_DISPATCH (R159). -/
def execBagDispatch (c : Nat) (s : State) : Res := onCell c s (fun z => z.bagDispatch c)

/-- LOOKUP_INTAKE (R171). -/
def execLookupIntake (f id : Nat) (s : State) : Res := onStack f s (fun z => z.lookupIntake f id)

/-- ROW_REQUEST (R189). -/
def execRowRequest (id n : Nat) (s : State) : Res := onPath s (fun z => z.rowRequest id n)

/-- RC_MISS_FILL (R191). -/
def execRcMissFill (id n : Nat) (s : State) : Res := onPath s (fun z => z.rcMissFill id n)

/-- ROW_SECTORS_RETURN (R160). -/
def execRowSectorsReturn (id n : Nat) (s : State) : Res := onPath s (fun z => z.rowSectorsReturn id n)

/-- SLICE_WRITE (R179). -/
def execSliceWrite (id bag : Nat) (s : State) : Res := onPath s (fun z => z.sliceWrite id bag)

/-- BAG_COMMAND_COMPLETE (R165). -/
def execBagCommandComplete (id : Nat) (s : State) : Res := onPath s (fun z => z.bagCommandComplete id)

/-- FORAGER_ABANDON (R182). -/
def execForagerAbandon (f : Nat) (s : State) : Res := onStack f s (fun z => z.foragerAbandon f)

/-- RC_DECAY_PASS (R192). -/
def execRcDecayPass (f : Nat) (s : State) : Res := onStack f s (fun z => z.rcDecayPass f)

end Sys2Proof.Machine
end

