-- ==== Sys2Proof/Machine/ManagementRows.lean ====
section
/-!
DEFINITION. The meanings of the commands of the keeper, its protocol, updates, attestation, counters and trace: each the effect of its row, on units the device has.
-/
namespace Sys2Proof.Machine

/-- DISCOVER (R473). -/
def execDiscover (req : KdpRequest) (s : State) : Res := always s (fun z => z.kdpRow (isOp 0x01 req) req)

/-- KDP_READ (R473). -/
def execKdpRead (req : KdpRequest) (s : State) : Res := always s (fun z => z.kdpRow (isKdpRead req) req)

/-- KDP_WRITE (R470). -/
def execKdpWrite (req : KdpRequest) (s : State) : Res := always s (fun z => z.kdpRow (isKdpWrite req) req)

/-- DESCRIBE (R473). -/
def execDescribe (req : KdpRequest) (s : State) : Res := always s (fun z => z.kdpRow (isOp 0x04 req) req)

/-- SESSION_OPEN (R477). -/
def execSessionOpen (req : KdpRequest) (s : State) : Res := always s (fun z => z.kdpRow (isOp 0x05 req) req)

/-- SESSION_AUTH (R478). -/
def execSessionAuth (req : KdpRequest) (s : State) : Res := always s (fun z => z.kdpRow (isOp 0x06 req) req)

/-- LOCKOUT_END (R480). -/
def execLockoutEnd (path : Nat) (s : State) : Res := always s (fun z => z.lockoutEnd path)

/-- SESSION_CLOSE (R479). -/
def execSessionClose (req : KdpRequest) (s : State) : Res := always s (fun z => z.kdpRow (isOp 0x07 req) req)

/-- SESSION_AUTH_TIMEOUT (R477). -/
def execSessionAuthTimeout (n : Nat) (s : State) : Res := always s (fun z => z.authTimeout n)

/-- SESSION_EXPIRY (R479). -/
def execSessionExpiry (n : Nat) (s : State) : Res := always s (fun z => z.sessionExpiry n)

/-- SEGMENT_GAP_TIMEOUT (R474). -/
def execSegmentGapTimeout (path : KdpPath) (s : State) : Res := always s (fun z => z.segmentGap path)

/-- EMCY_ACK (R483). -/
def execEmcyAck (req : KdpRequest) (s : State) : Res := always s (fun z => z.kdpRow (isOp 0x09 req) req)

/-- EMCY_REPEAT (R483). -/
def execEmcyRepeat (n seq : Nat) (s : State) : Res := always s (fun z => z.emcyRepeat n seq)

/-- MB_DOORBELL (R481). -/
def execMbDoorbell (v : DWord) (aux : KdpAux) (s : State) : Res := onHost s (fun z => z.mbDoorbell v aux)

/-- UPDATE_BEGIN (R495). -/
def execUpdateBegin (req : KdpRequest) (s : State) : Res := always s (fun z => z.kdpRow (isWrite 0x7010 req) req)

/-- UPDATE_DATA (R495). -/
def execUpdateData (req : KdpRequest) (s : State) : Res := always s (fun z => z.kdpRow (isWrite 0x7011 req) req)

/-- UPDATE_VERIFY (R495). -/
def execUpdateVerify (req : KdpRequest) (s : State) : Res := always s (fun z => z.kdpRow (isWrite 0x7012 req) req)

/-- UPDATE_ACTIVATE (R495). -/
def execUpdateActivate (req : KdpRequest) (s : State) : Res := always s (fun z => z.kdpRow (isWrite 0x7013 req) req)

/-- UPDATE_COMMIT (R496). -/
def execUpdateCommit (req : KdpRequest) (s : State) : Res := always s (fun z => z.kdpRow (isWrite 0x7014 req) req)

/-- UPDATE_ABORT (R495). -/
def execUpdateAbort (req : KdpRequest) (s : State) : Res := always s (fun z => z.kdpRow (isWrite 0x7015 req) req)

/-- KEY_SLOT_WRITE (R499). -/
def execKeySlotWrite (req : KdpRequest) (s : State) : Res := always s (fun z => z.kdpRow (isWrite 0x7020 req) req)

/-- OWNER_RELEASE (R499). -/
def execOwnerRelease (req : KdpRequest) (s : State) : Res := always s (fun z => z.kdpRow (isWrite 0x7021 req) req)

/-- ALIAS_KEYS_READY (R497). -/
def execAliasKeysReady (s : State) : Res := always s (fun z => z.aliasKeysReady)

/-- ATTEST_NONCE (R500). -/
def execAttestNonce (req : KdpRequest) (s : State) : Res := always s (fun z => z.kdpRow (isWrite 0x7030 req) req)

/-- ATTEST_REPORT_SIGNED (R500). -/
def execAttestReportSigned (sub : Nat) (rsa slh : List Byte) (s : State) : Res := always s (fun z => z.attestSigned sub rsa slh)

/-- TRIGGER_NOW (R510). -/
def execTriggerNow (req : KdpRequest) (s : State) : Res := always s (fun z => z.kdpRow (isWrite 0x8010 req) req)

/-- DBG_TRIG_N_FALL (R536). -/
def execDbgTrigNFall (rested : Bool) (s : State) : Res := always s (fun z => z.dbgTrigFall rested)

/-- TRACE_DRAIN_BLOCK (R519). -/
def execTraceDrainBlock (k : Nat) (s : State) : Res := onComb k s (fun z => z.traceDrainBlock k)

/-- TRACE_ARM (R518). -/
def execTraceArm (req : KdpRequest) (s : State) : Res :=
  always s (fun z => z.kdpRow (isWrite 0x8020 req && writeParam req == 1) req)

/-- TRACE_OFF (R518). -/
def execTraceOff (req : KdpRequest) (s : State) : Res :=
  always s (fun z => z.kdpRow (isWrite 0x8020 req && writeParam req == 2) req)

/-- CTR_FULL_EN (R507). -/
def execCtrFullEn (req : KdpRequest) (s : State) : Res := always s (fun z => z.kdpRow (isWrite 0x8002 req) req)

/-- CTR_CLEAR (R507). -/
def execCtrClear (req : KdpRequest) (s : State) : Res := always s (fun z => z.kdpRow (isWrite 0x8003 req) req)

/-- CTR_RELEASE (R514). -/
def execCtrRelease (req : KdpRequest) (s : State) : Res := always s (fun z => z.kdpRow (isWrite 0x8004 req) req)

/-- PIN_READBACK (R535). -/
def execPinReadback (bad : List (Nat × Nat)) (s : State) : Res := always s (fun z => z.pinReadback bad)

/-- REGISTER_WRITE (R12). -/
def execRegisterWrite (a : Nat) (v : DWord) (s : State) : Res := always s (fun z => z.registerWrite a v)

end Sys2Proof.Machine
end

