-- ==== Sys2Proof/Machine/PartitionRows.lean ====
section
/-!
DEFINITION. The meanings of the commands of partitions, contexts, launches and placement: each the effect of its row, on units the device has.
-/
namespace Sys2Proof.Machine

/-- PART_CREATE (R242). -/
def execPartCreate (s : State) : Res := onPath s (fun z => z.partCreate)

/-- PART_DESTROY (R268). -/
def execPartDestroy (s : State) : Res := onPath s (fun z => z.partDestroy)

/-- PART_RESET (R267). -/
def execPartReset (s : State) : Res := onPath s (fun z => z.partReset)

/-- PARTITION_RESET_DONE (R268). -/
def execPartitionResetDone (p : Nat) (s : State) : Res := onPartition p s (fun z => z.partitionResetDone p)

/-- CTX_CREATE (R335). -/
def execCtxCreate (s : State) : Res := onPath s (fun z => z.ctxCreate)

/-- CTX_DESTROY (R267). -/
def execCtxDestroy (s : State) : Res := onPath s (fun z => z.ctxDestroy)

/-- CONTEXT_TORN_DOWN (R267). -/
def execContextTornDown (ctx : Nat) (s : State) : Res := onPath s (fun z => z.contextTornDown ctx)

/-- TEARDOWN_TIMEOUT (R267). -/
def execTeardownTimeout (ctx : Nat) (s : State) : Res := onPath s (fun z => z.teardownTimeout ctx)

/-- NOP (R280). -/
def execNop (q : Nat) (s : State) : Res := onQueue q s (fun z => z.nop q)

/-- LAUNCH (R282). -/
def execLaunch (q : Nat) (s : State) : Res := onQueue q s (fun z => z.launch q)

/-- LAUNCH_PLACE (R254). -/
def execLaunchPlace (l : Nat) (s : State) : Res := onPath s (fun z => z.launchPlace l)

/-- RESIDENT_LOAD_DONE (R252). -/
def execResidentLoadDone (c : Nat) (s : State) : Res := onCell c s (fun z => z.residentLoadDone c)

/-- PREEMPT_WAIT_EXPIRY (R248). -/
def execPreemptWaitExpiry (q : Nat) (s : State) : Res := onQueue q s (fun z => z.preemptWaitExpiry q)

/-- PREEMPT_MARK_REPLY (R261). -/
def execPreemptMarkReply (l : Nat) (s : State) : Res := onPath s (fun z => z.preemptMarkReply l)

/-- SAVE_START (R261). -/
def execSaveStart (l : Nat) (s : State) : Res := onPath s (fun z => z.saveStart l)

/-- SAVE_COMPLETE (R264). -/
def execSaveComplete (l : Nat) (s : State) : Res := onPath s (fun z => z.saveComplete l)

/-- RESUME (R265). -/
def execResume (l : Nat) (s : State) : Res := onPath s (fun z => z.resume l)

/-- RESTORE_LAUNCH (R266). -/
def execRestoreLaunch (s : State) : Res := onPath s (fun z => z.restoreLaunch)

/-- DROP_SAVE (R266). -/
def execDropSave (s : State) : Res := onPath s (fun z => z.dropSave)

/-- SET_PIN (R259). -/
def execSetPin (s : State) : Res := onPath s (fun z => z.setPin)

/-- PLACEMENT_PERIOD (R256). -/
def execPlacementPeriod (s : State) : Res := onPath s (fun z => z.placementPeriod)

/-- MIGRATION_COPY_DONE (R258). -/
def execMigrationCopyDone (s : State) : Res := onPath s (fun z => z.migrationCopyDone)

/-- FRAME_MOVED (R258). -/
def execFrameMoved (s : State) : Res := onPath s (fun z => z.frameMoved)

end Sys2Proof.Machine
end

