-- ==== Sys2Proof/Machine/PowerRows.lean ====
section
/-!
DEFINITION. The meanings of the commands of supplies, clocks, thermal protection and the nurse: each the effect of its row, on units the device has.
-/
namespace Sys2Proof.Machine

/-- VAUX_GOOD (R437). -/
def execVauxGood (mode strapId : Nat) (bankA bankB : ImageVerdict) (s : State) : Res :=
  always s (fun z => z.vauxGood mode strapId bankA bankB)

/-- KEEPER_START (R465). -/
def execKeeperStart (plca reversed swapped : Bool) (s : State) : Res := always s (fun z => z.keeperStart plca reversed swapped)

/-- DAD_COMPLETE (R465). -/
def execDadComplete (dup : Bool) (s : State) : Res := always s (fun z => z.dadComplete dup)

/-- DAD_REPROBE (R465). -/
def execDadReprobe (s : State) : Res := always s (fun z => z.dadReprobe)

/-- KEEPER_WATCHDOG (R466). -/
def execKeeperWatchdog (bankA bankB : ImageVerdict) (s : State) : Res := always s (fun z => z.keeperWatchdog bankA bankB)

/-- KEEPER_RESTART (R466). -/
def execKeeperRestart (req : KdpRequest) (s : State) : Res := always s (fun z => z.kdpRow (isWrite 0x100B req) req)

/-- POWER_UP (R438). -/
def execPowerUp (req : KdpRequest) (s : State) : Res := always s (fun z => z.kdpRow (isWrite 0x2007 req) req)

/-- RAIL_GOOD (R438). -/
def execRailGood (rail : Nat) (s : State) : Res := onRail rail s (fun z => z.railGood rail)

/-- SEQ_WAIT_EXPIRY (R438). -/
def execSeqWaitExpiry (s : State) : Res := always s (fun z => z.seqWaitExpiry)

/-- DATA_PATH_RELEASE (R438). -/
def execDataPathRelease (s : State) : Res := always s (fun z => z.dataPathRelease)

/-- FIRMWARE_LOADED (R494). -/
def execFirmwareLoaded (fwA fwB ucA ucB : ImageVerdict) (s : State) : Res := always s (fun z => z.firmwareLoaded fwA fwB ucA ucB)

/-- PWROK_RISE (R438). -/
def execPwrokRise (s : State) : Res := always s (fun z => z.pwrokRise)

/-- PWROK_FALL (R439). -/
def execPwrokFall (s : State) : Res := always s (fun z => z.pwrokFall)

/-- POWER_DOWN (R439). -/
def execPowerDown (req : KdpRequest) (s : State) : Res := always s (fun z => z.kdpRow (isWrite 0x2008 req) req)

/-- RAIL_ORDER_FAULT (R440). -/
def execRailOrderFault (code rail : Nat) (s : State) : Res := always s (fun z => z.railOrderFault code rail)

/-- PMB_ALERT (R441). -/
def execPmbAlert (addr page word : Nat) (s : State) : Res := always s (fun z => z.pmbAlert addr page word)

/-- PMBUS_TRANSACTION (R441). -/
def execPmbusTransaction (rail : Nat) (ok : Bool) (s : State) : Res := onRail rail s (fun z => z.pmbusTransaction rail ok)

/-- RESET_N_ASSERT (R442). -/
def execResetNAssert (s : State) : Res := always s (fun z => z.resetAssert)

/-- RESET_N_RELEASE (R442). -/
def execResetNRelease (s : State) : Res := always s (fun z => z.resetRelease)

/-- RAIL_POWER_POLL (R448). -/
def execRailPowerPoll (mw mv : List Nat) (s : State) : Res := always s (fun z => z.railPowerPoll mw mv)

/-- POWER_WINDOW (R449). -/
def execPowerWindow (combs rest : Nat) (s : State) : Res := always s (fun z => z.powerWindow combs rest)

/-- POINT_CHANGE_COMPLETE (R446). -/
def execPointChangeComplete (k : Nat) (s : State) : Res := onComb k s (fun z => z.pointChangeComplete k)

/-- LOGIC_SENSOR_SAMPLE (R453). -/
def execLogicSensorSample (combs : List (List Int)) (edge : List Int) (s : State) : Res :=
  always s (fun z => z.logicSensorSample combs edge)

/-- THERMAL_TRIP (R454). -/
def execThermalTrip (dram : Bool) (sensor : Nat) (value : Int) (s : State) : Res :=
  always s (fun z => z.thermalTrip dram sensor value)

/-- SUPPLY_TRIP (R454). -/
def execSupplyTrip (rail mv : Nat) (s : State) : Res := onRail rail s (fun z => z.supplyTrip rail mv)

/-- REFCLK_LOSS (R452). -/
def execRefclkLoss (s : State) : Res := always s (fun z => z.refclkLoss)

/-- REFCLK_RETURN (R452). -/
def execRefclkReturn (s : State) : Res := always s (fun z => z.refclkReturn)

/-- SREFCLK_LOSS (R452). -/
def execSrefclkLoss (s : State) : Res := always s (fun z => z.srefclkLoss)

/-- LANE_TUNING (R458). -/
def execLaneTuning (p lane : Nat) (s : State) : Res := onLane p lane s (fun z => z.laneTuning p lane)

/-- GUARDBAND_RUN (R458). -/
def execGuardbandRun (k : Nat) (delta : Int) (abandoned : Bool) (s : State) : Res :=
  onComb k s (fun z => z.guardbandRun k delta abandoned)

/-- NURSE_OVERDUE (R459). -/
def execNurseOverdue (task k : Nat) (s : State) : Res := always s (fun z => z.nurseOverdue task k)

/-- TUNE_NOW (R460). -/
def execTuneNow (req : KdpRequest) (s : State) : Res := always s (fun z => z.kdpRow (isWrite 0x9011 req) req)

/-- GUARD_NOW (R460). -/
def execGuardNow (req : KdpRequest) (s : State) : Res := always s (fun z => z.kdpRow (isWrite 0x9012 req) req)

/-- PART_SELFTEST (R460). -/
def execPartSelftest (req : KdpRequest) (s : State) : Res := always s (fun z => z.kdpRow (isWrite 0x9020 req) req)

/-- SELFTEST_DONE (R460). -/
def execSelftestDone (p failing : Nat) (s : State) : Res := onPartition p s (fun z => z.selftestDone p failing)

/-- TELEMETRY_COPY (R506). -/
def execTelemetryCopy (s : State) : Res := always s (fun z => z.telemetryCopy)

/-- PLCA_BEACON_LOSS (R467). -/
def execPlcaBeaconLoss (s : State) : Res := always s (fun z => z.plcaLoss)

/-- PLCA_REJOIN (R467). -/
def execPlcaRejoin (s : State) : Res := always s (fun z => z.plcaRejoin)

end Sys2Proof.Machine
end

