-- ==== Sys2Proof/Machine/QueueRows.lean ====
section
/-!
DEFINITION. The meanings of the commands of queues and the admin queue: each the effect of its row, on units the device has.
-/
namespace Sys2Proof.Machine

/-- DB_TAIL (R274). -/
def execDbTail (q : Nat) (whole : Bool) (v : DWord) (s : State) : Res := anyUnit q 1024 s (fun z => z.doorbell q false whole v)

/-- DB_CQ_HEAD (R274). -/
def execDbCqHead (q : Nat) (whole : Bool) (v : DWord) (s : State) : Res := anyUnit q 1024 s (fun z => z.doorbell q true whole v)

/-- COMPLETION_POST (R287). -/
def execCompletionPost (q : Nat) (s : State) : Res := onQueue q s (fun z => z.completionPost q)

/-- MSIX_MOD_TIMER (R288). -/
def execMsixModTimer (q : Nat) (s : State) : Res := onQueue q s (fun z => z.msixModTimer q)

/-- QUEUE_TIMEOUT (R291). -/
def execQueueTimeout (q : Nat) (what : TimeoutOf) (s : State) : Res := onQueue q s (fun z => z.queueTimeoutRow q what)

/-- QUEUE_CREATE (R303). -/
def execQueueCreate (s : State) : Res := onPath s (fun z => z.queueCreate)

/-- QUEUE_DESTROY (R295). -/
def execQueueDestroy (s : State) : Res := onPath s (fun z => z.queueDestroy)

/-- QUEUE_FINAL_RECORD (R295). -/
def execQueueFinalRecord (q : Nat) (s : State) : Res := onQueue q s (fun z => z.queueFinalRow q)

/-- QUEUE_REATTACH (R296). -/
def execQueueReattach (s : State) : Res := onPath s (fun z => z.queueReattach)

/-- ADM_DB_TAIL (R298). -/
def execAdmDbTail (v : DWord) (s : State) : Res := onHost s (fun z => z.admDoorbell v)

/-- ADM_CQ_HEAD (R298). -/
def execAdmCqHead (v : DWord) (s : State) : Res := onHost s (fun z => z.admCqHead v)

/-- NOTE_HEAD (R306). -/
def execNoteHead (v : DWord) (s : State) : Res := onHost s (fun z => z.noteHead v)

/-- ADM_CTRL (R298). -/
def execAdmCtrl (v : DWord) (s : State) : Res := onHost s (fun z => z.admCtrl v)

/-- IMAGE_LOAD (R305). -/
def execImageLoad (s : State) : Res := onPath s (fun z => z.imageLoad)

/-- IMAGE_UNLOAD (R302). -/
def execImageUnload (s : State) : Res := onPath s (fun z => z.imageUnload)

/-- REG_READ (R302). -/
def execRegRead (s : State) : Res := onPath s (fun z => z.regRead)

/-- REG_CLEAR (R302). -/
def execRegClear (s : State) : Res := onPath s (fun z => z.regClear)

end Sys2Proof.Machine
end

