-- ==== Sys2Proof/Machine/StreamRows.lean ====
section
/-!
DEFINITION. The meanings of the commands of streams and address translation: each the effect of its row, on units the device has.
-/
namespace Sys2Proof.Machine

/-- STREAM_ACCEPT (R309). -/
def execStreamAccept (c : Nat) (s : State) : Res := onCell c s (fun z => z.streamAccept c)

/-- STREAM_CHUNK_START (R313). -/
def execStreamChunkStart (c k : Nat) (s : State) : Res := onThread c k s (fun z => z.streamChunkStart c k)

/-- STREAM_SRC_DONE (R313). -/
def execStreamSrcDone (c k : Nat) (s : State) : Res := onThread c k s (fun z => z.streamSrcDone c k)

/-- STREAM_CHUNK_FILL (R314). -/
def execStreamChunkFill (c k : Nat) (s : State) : Res := onThread c k s (fun z => z.streamChunkFill c k)

/-- STREAM_COMPLETE (R321). -/
def execStreamComplete (c k : Nat) (s : State) : Res := onThread c k s (fun z => z.streamComplete c k)

/-- STREAM_STOP (R326). -/
def execStreamStop (c k : Nat) (s : State) : Res := onThread c k s (fun z => z.streamStop c k)

/-- TLB_WALK_COMPLETE (R341). -/
def execTlbWalkComplete (who : Requester) (s : State) : Res := onPath s (fun z => z.tlbWalkComplete who)

/-- MAP (R336). -/
def execMap (s : State) : Res := onPath s (fun z => z.map)

/-- PT_SYNC (R338). -/
def execPtSync (s : State) : Res := onPath s (fun z => z.ptSync)

/-- UNMAP (R339). -/
def execUnmap (s : State) : Res := onPath s (fun z => z.unmap)

/-- INVALIDATE (R346). -/
def execInvalidate (s : State) : Res := onPath s (fun z => z.invalidate)

/-- DRAIN_COMPLETE (R346). -/
def execDrainComplete (id : Nat) (s : State) : Res := onPath s (fun z => z.drainComplete id)

/-- RESOLVE (R345). -/
def execResolve (s : State) : Res := onPath s (fun z => z.resolve)

end Sys2Proof.Machine
end

