-- ==== Sys2Proof/Machine/TableRows.lean ====
section
/-!
DEFINITION. The meanings of the commands of tables, versions and patches: each the effect of its row, on units the device has.
-/
namespace Sys2Proof.Machine

/-- PIN_ROWS (R194). -/
def execPinRows (s : State) : Res := onPath s (fun z => z.pinRows)

/-- UNPIN_ROWS (R194). -/
def execUnpinRows (s : State) : Res := onPath s (fun z => z.unpinRows)

/-- TABLE_QUERY (R195). -/
def execTableQuery (s : State) : Res := onPath s (fun z => z.tableQuery)

/-- TABLE_REGISTER (R304). -/
def execTableRegister (s : State) : Res := onPath s (fun z => z.tableRegister)

/-- TABLE_UNREGISTER (R304). -/
def execTableUnregister (s : State) : Res := onPath s (fun z => z.tableUnregister)

/-- PUBLISH (R196). -/
def execPublish (q : Nat) (s : State) : Res := onQueue q s (fun z => z.publish q)

/-- ABORT_PUBLISH (R197). -/
def execAbortPublish (s : State) : Res := onPath s (fun z => z.abortPublish)

/-- VERSION_RELEASED (R199). -/
def execVersionReleased (h t n : Nat) (s : State) : Res := onPath s (fun z => z.versionReleased h t n)

/-- PATCH (R201). -/
def execPatch (q : Nat) (s : State) : Res := onQueue q s (fun z => z.patch q)

/-- PATCH_STAGE_RECEIVE (R202). -/
def execPatchStageReceive (groupId src seq : Nat) (records : List (Nat × List Byte)) (es : List PatchEntry) (s : State) : Res :=
  onPath s (fun z => z.patchStageReceive groupId src seq records es)

/-- PATCH_ANSWER_RECEIVE (R202). -/
def execPatchAnswerReceive (src seq rank status code : Nat) (s : State) : Res :=
  onPath s (fun z => (z.patchAnswerReceive src seq rank status code).answerAll)

/-- PATCH_COMMIT_RECEIVE (R206). -/
def execPatchCommitReceive (src seq : Nat) (s : State) : Res := onPath s (fun z => (z.patchCommitReceive src seq).answerAll)

/-- PATCH_CANCEL_RECEIVE (R202). -/
def execPatchCancelReceive (src seq : Nat) (s : State) : Res := onPath s (fun z => (z.patchCancelReceive src seq).answerAll)

/-- PATCH_OUTCOME_QUERY (R202). -/
def execPatchOutcomeQuery (src seq : Nat) (s : State) : Res := onPath s (fun z => z.patchOutcomeQuery src seq)

/-- PATCH_WRITEBACK (R207). -/
def execPatchWriteback (h t row e : Nat) (s : State) : Res := onPath s (fun z => z.patchWriteback h t row e)

end Sys2Proof.Machine
end

