-- ==== Sys2Proof/Machine/Dispatch.lean ====
section
/-!
DEFINITION. Which meaning each command has.
-/
namespace Sys2Proof.Machine

def exec (i : Instr) (s : State) : Host.Outcome State Fault Refusal :=
  match i with
  | .intArith c t w op => Sys2Proof.Machine.execIntArith c t w op s
  | .divideComplete c t => Sys2Proof.Machine.execDivideComplete c t s
  | .comparePredicate c t w op => Sys2Proof.Machine.execComparePredicate c t w op s
  | .branch c t w => Sys2Proof.Machine.execBranch c t w s
  | .indirectJump c t w op => Sys2Proof.Machine.execIndirectJump c t w op s
  | .spLoad c t w op => Sys2Proof.Machine.execSpLoad c t w op s
  | .spLoadReturn c t => Sys2Proof.Machine.execSpLoadReturn c t s
  | .spStore c t w op => Sys2Proof.Machine.execSpStore c t w op s
  | .vaLoad c t w op => Sys2Proof.Machine.execVaLoad c t w op s
  | .vaLoadReturn c t => Sys2Proof.Machine.execVaLoadReturn c t s
  | .vaStore c t w op => Sys2Proof.Machine.execVaStore c t w op s
  | .fence c t w => Sys2Proof.Machine.execFence c t w s
  | .fenceComplete c t => Sys2Proof.Machine.execFenceComplete c t s
  | .icacheMissFill c t off => Sys2Proof.Machine.execIcacheMissFill c t off s
  | .systemValueRead c t w => Sys2Proof.Machine.execSystemValueRead c t w s
  | .sig c t w => Sys2Proof.Machine.execSig c t w s
  | .wait c t w => Sys2Proof.Machine.execWait c t w s
  | .tryOp c t w => Sys2Proof.Machine.execTryOp c t w s
  | .semRead c t w => Sys2Proof.Machine.execSemRead c t w s
  | .tspawn c t w => Sys2Proof.Machine.execTspawn c t w s
  | .texit c t w => Sys2Proof.Machine.execTexit c t w s
  | .arrayCmd c t w w1 => Sys2Proof.Machine.execArrayCmd c t w w1 s
  | .vectorCmd c t w w1 => Sys2Proof.Machine.execVectorCmd c t w w1 s
  | .streamCmd c t w w1 => Sys2Proof.Machine.execStreamCmd c t w w1 s
  | .bagCmd c t w w1 => Sys2Proof.Machine.execBagCmd c t w w1 s
  | .sampleCmd c t w w1 => Sys2Proof.Machine.execSampleCmd c t w w1 s
  | .layer c t w => Sys2Proof.Machine.execLayer c t w s
  | .layerDrainDone c => Sys2Proof.Machine.execLayerDrainDone c s
  | .layerw c t w => Sys2Proof.Machine.execLayerw c t w s
  | .layerwVerdict l => Sys2Proof.Machine.execLayerwVerdict l s
  | .engineSafePointAbandon c e rows => Sys2Proof.Machine.execEngineSafePointAbandon c e rows s
  | .arrayPassStart c sampled => Sys2Proof.Machine.execArrayPassStart c sampled s
  | .arrayPassComplete c => Sys2Proof.Machine.execArrayPassComplete c s
  | .loadOnly c => Sys2Proof.Machine.execLoadOnly c s
  | .weightLoadComplete c => Sys2Proof.Machine.execWeightLoadComplete c s
  | .rampDown c cols => Sys2Proof.Machine.execRampDown c cols s
  | .vectorCommandStart c => Sys2Proof.Machine.execVectorCommandStart c s
  | .vecFloatOp c w op => Sys2Proof.Machine.execVecFloatOp c w op s
  | .vecIntOp c w op => Sys2Proof.Machine.execVecIntOp c w op s
  | .vecCompare c w op => Sys2Proof.Machine.execVecCompare c w op s
  | .vecScratchAccess c w op => Sys2Proof.Machine.execVecScratchAccess c w op s
  | .vecTileAccess c w op => Sys2Proof.Machine.execVecTileAccess c w op s
  | .vecConvert c w op => Sys2Proof.Machine.execVecConvert c w op s
  | .vecCrossLane c w op => Sys2Proof.Machine.execVecCrossLane c w op s
  | .vecRandomDraw c w op => Sys2Proof.Machine.execVecRandomDraw c w op s
  | .vnext c w => Sys2Proof.Machine.execVnext c w s
  | .vend c w => Sys2Proof.Machine.execVend c w s
  | .vectorComplete c => Sys2Proof.Machine.execVectorComplete c s
  | .sampleStart c => Sys2Proof.Machine.execSampleStart c s
  | .sampleComplete c => Sys2Proof.Machine.execSampleComplete c s
  | .bagDispatch c => Sys2Proof.Machine.execBagDispatch c s
  | .lookupIntake f id => Sys2Proof.Machine.execLookupIntake f id s
  | .rowRequest id n => Sys2Proof.Machine.execRowRequest id n s
  | .rcMissFill id n => Sys2Proof.Machine.execRcMissFill id n s
  | .rowSectorsReturn id n => Sys2Proof.Machine.execRowSectorsReturn id n s
  | .sliceWrite id bag => Sys2Proof.Machine.execSliceWrite id bag s
  | .bagCommandComplete id => Sys2Proof.Machine.execBagCommandComplete id s
  | .foragerAbandon f => Sys2Proof.Machine.execForagerAbandon f s
  | .rcDecayPass f => Sys2Proof.Machine.execRcDecayPass f s
  | .pinRows => Sys2Proof.Machine.execPinRows s
  | .unpinRows => Sys2Proof.Machine.execUnpinRows s
  | .tableQuery => Sys2Proof.Machine.execTableQuery s
  | .tableRegister => Sys2Proof.Machine.execTableRegister s
  | .tableUnregister => Sys2Proof.Machine.execTableUnregister s
  | .publish q => Sys2Proof.Machine.execPublish q s
  | .abortPublish => Sys2Proof.Machine.execAbortPublish s
  | .versionReleased h t n => Sys2Proof.Machine.execVersionReleased h t n s
  | .patch q => Sys2Proof.Machine.execPatch q s
  | .patchStageReceive groupId src seq records es => Sys2Proof.Machine.execPatchStageReceive groupId src seq records es s
  | .patchAnswerReceive src seq rank status code => Sys2Proof.Machine.execPatchAnswerReceive src seq rank status code s
  | .patchCommitReceive src seq => Sys2Proof.Machine.execPatchCommitReceive src seq s
  | .patchCancelReceive src seq => Sys2Proof.Machine.execPatchCancelReceive src seq s
  | .patchOutcomeQuery src seq => Sys2Proof.Machine.execPatchOutcomeQuery src seq s
  | .patchWriteback h t row e => Sys2Proof.Machine.execPatchWriteback h t row e s
  | .groupCreate => Sys2Proof.Machine.execGroupCreate s
  | .groupDestroy => Sys2Proof.Machine.execGroupDestroy s
  | .spanBind => Sys2Proof.Machine.execSpanBind s
  | .fanoutReceive home launch block groupId epoch versions bytes poison => Sys2Proof.Machine.execFanoutReceive home launch block groupId epoch versions bytes poison s
  | .bagReqReceive home launch block first count rank tag => Sys2Proof.Machine.execBagReqReceive home launch block first count rank tag s
  | .gatherReceive tag rank seg row bytes poison => Sys2Proof.Machine.execGatherReceive tag rank seg row bytes poison s
  | .fanoutTimeout tag rank => Sys2Proof.Machine.execFanoutTimeout tag rank s
  | .abandonReceive home launch => Sys2Proof.Machine.execAbandonReceive home launch s
  | .returnEntryExpiry tag => Sys2Proof.Machine.execReturnEntryExpiry tag s
  | .epochAdvance q => Sys2Proof.Machine.execEpochAdvance q s
  | .prepareReceive groupId e => Sys2Proof.Machine.execPrepareReceive groupId e s
  | .readyReceive groupId rank e digest => Sys2Proof.Machine.execReadyReceive groupId rank e digest s
  | .prepareRetry h => Sys2Proof.Machine.execPrepareRetry h s
  | .lowReport h => Sys2Proof.Machine.execLowReport h s
  | .lowReportReceive groupId rank low => Sys2Proof.Machine.execLowReportReceive groupId rank low s
  | .lowBroadcast h => Sys2Proof.Machine.execLowBroadcast h s
  | .groupDegraded h silent => Sys2Proof.Machine.execGroupDegraded h silent s
  | .spanRecordArrival bytes poison => Sys2Proof.Machine.execSpanRecordArrival bytes poison s
  | .spanReturnArrival bytes poison => Sys2Proof.Machine.execSpanReturnArrival bytes poison s
  | .spanTimeout tag => Sys2Proof.Machine.execSpanTimeout tag s
  | .openWindow => Sys2Proof.Machine.execOpenWindow s
  | .importWindow => Sys2Proof.Machine.execImportWindow s
  | .windowProbeReceive src tag part window key perm => Sys2Proof.Machine.execWindowProbeReceive src tag part window key perm s
  | .windowAccessAtOwner src tag part window key offset write bytes n poison => Sys2Proof.Machine.execWindowAccessAtOwner src tag part window key offset write bytes n poison s
  | .windowResponse tag check bytes poison => Sys2Proof.Machine.execWindowResponse tag check bytes poison s
  | .windowTimeout tag => Sys2Proof.Machine.execWindowTimeout tag s
  | .closeWindow => Sys2Proof.Machine.execCloseWindow s
  | .windowClosed p win => Sys2Proof.Machine.execWindowClosed p win s
  | .releaseImport => Sys2Proof.Machine.execReleaseImport s
  | .partCreate => Sys2Proof.Machine.execPartCreate s
  | .partDestroy => Sys2Proof.Machine.execPartDestroy s
  | .partReset => Sys2Proof.Machine.execPartReset s
  | .partitionResetDone p => Sys2Proof.Machine.execPartitionResetDone p s
  | .ctxCreate => Sys2Proof.Machine.execCtxCreate s
  | .ctxDestroy => Sys2Proof.Machine.execCtxDestroy s
  | .contextTornDown ctx => Sys2Proof.Machine.execContextTornDown ctx s
  | .teardownTimeout ctx => Sys2Proof.Machine.execTeardownTimeout ctx s
  | .nop q => Sys2Proof.Machine.execNop q s
  | .launch q => Sys2Proof.Machine.execLaunch q s
  | .launchPlace l => Sys2Proof.Machine.execLaunchPlace l s
  | .residentLoadDone c => Sys2Proof.Machine.execResidentLoadDone c s
  | .preemptWaitExpiry q => Sys2Proof.Machine.execPreemptWaitExpiry q s
  | .preemptMarkReply l => Sys2Proof.Machine.execPreemptMarkReply l s
  | .saveStart l => Sys2Proof.Machine.execSaveStart l s
  | .saveComplete l => Sys2Proof.Machine.execSaveComplete l s
  | .resume l => Sys2Proof.Machine.execResume l s
  | .restoreLaunch => Sys2Proof.Machine.execRestoreLaunch s
  | .dropSave => Sys2Proof.Machine.execDropSave s
  | .setPin => Sys2Proof.Machine.execSetPin s
  | .placementPeriod => Sys2Proof.Machine.execPlacementPeriod s
  | .migrationCopyDone => Sys2Proof.Machine.execMigrationCopyDone s
  | .frameMoved => Sys2Proof.Machine.execFrameMoved s
  | .dbTail q whole v => Sys2Proof.Machine.execDbTail q whole v s
  | .dbCqHead q whole v => Sys2Proof.Machine.execDbCqHead q whole v s
  | .completionPost q => Sys2Proof.Machine.execCompletionPost q s
  | .msixModTimer q => Sys2Proof.Machine.execMsixModTimer q s
  | .queueTimeout q what => Sys2Proof.Machine.execQueueTimeout q what s
  | .queueCreate => Sys2Proof.Machine.execQueueCreate s
  | .queueDestroy => Sys2Proof.Machine.execQueueDestroy s
  | .queueFinalRecord q => Sys2Proof.Machine.execQueueFinalRecord q s
  | .queueReattach => Sys2Proof.Machine.execQueueReattach s
  | .admDbTail v => Sys2Proof.Machine.execAdmDbTail v s
  | .admCqHead v => Sys2Proof.Machine.execAdmCqHead v s
  | .noteHead v => Sys2Proof.Machine.execNoteHead v s
  | .admCtrl v => Sys2Proof.Machine.execAdmCtrl v s
  | .imageLoad => Sys2Proof.Machine.execImageLoad s
  | .imageUnload => Sys2Proof.Machine.execImageUnload s
  | .regRead => Sys2Proof.Machine.execRegRead s
  | .regClear => Sys2Proof.Machine.execRegClear s
  | .streamAccept c => Sys2Proof.Machine.execStreamAccept c s
  | .streamChunkStart c k => Sys2Proof.Machine.execStreamChunkStart c k s
  | .streamSrcDone c k => Sys2Proof.Machine.execStreamSrcDone c k s
  | .streamChunkFill c k => Sys2Proof.Machine.execStreamChunkFill c k s
  | .streamComplete c k => Sys2Proof.Machine.execStreamComplete c k s
  | .streamStop c k => Sys2Proof.Machine.execStreamStop c k s
  | .tlbWalkComplete who => Sys2Proof.Machine.execTlbWalkComplete who s
  | .map => Sys2Proof.Machine.execMap s
  | .ptSync => Sys2Proof.Machine.execPtSync s
  | .unmap => Sys2Proof.Machine.execUnmap s
  | .invalidate => Sys2Proof.Machine.execInvalidate s
  | .drainComplete id => Sys2Proof.Machine.execDrainComplete id s
  | .resolve => Sys2Proof.Machine.execResolve s
  | .winSlotWrite k v => Sys2Proof.Machine.execWinSlotWrite k v s
  | .windowWrite off bytes poison aux => Sys2Proof.Machine.execWindowWrite off bytes poison aux s
  | .windowRead off n => Sys2Proof.Machine.execWindowRead off n s
  | .hostFnDisable => Sys2Proof.Machine.execHostFnDisable s
  | .hostFnEnable => Sys2Proof.Machine.execHostFnEnable s
  | .busMasterClear mse => Sys2Proof.Machine.execBusMasterClear mse s
  | .functionDrained => Sys2Proof.Machine.execFunctionDrained s
  | .drainTimeout => Sys2Proof.Machine.execDrainTimeout s
  | .linkRetrainStart => Sys2Proof.Machine.execLinkRetrainStart s
  | .linkRetrainEnd => Sys2Proof.Machine.execLinkRetrainEnd s
  | .retrainOverrun => Sys2Proof.Machine.execRetrainOverrun s
  | .hostReset linkDown => Sys2Proof.Machine.execHostReset linkDown s
  | .ucieLinkTrain passes half => Sys2Proof.Machine.execUcieLinkTrain passes half s
  | .regionRegister => Sys2Proof.Machine.execRegionRegister s
  | .regionRelease => Sys2Proof.Machine.execRegionRelease s
  | .portSignalDetect p => Sys2Proof.Machine.execPortSignalDetect p s
  | .trainingComplete p lanes polInv reversed neighbour nport => Sys2Proof.Machine.execTrainingComplete p lanes polInv reversed neighbour nport s
  | .trainingAttemptFail p mismatch => Sys2Proof.Machine.execTrainingAttemptFail p mismatch s
  | .laneFail p lane => Sys2Proof.Machine.execLaneFail p lane s
  | .portElectricalIdle p => Sys2Proof.Machine.execPortElectricalIdle p s
  | .portRetrainComplete p => Sys2Proof.Machine.execPortRetrainComplete p s
  | .portRetrainTimeout p => Sys2Proof.Machine.execPortRetrainTimeout p s
  | .portFailedRetry p => Sys2Proof.Machine.execPortFailedRetry p s
  | .portRestart req => Sys2Proof.Machine.execPortRestart req s
  | .flitReceive p flit => Sys2Proof.Machine.execFlitReceive p flit s
  | .nakReceive p ack lane => Sys2Proof.Machine.execNakReceive p ack lane s
  | .frameRoute src => Sys2Proof.Machine.execFrameRoute src s
  | .frameDeliver p => Sys2Proof.Machine.execFrameDeliver p s
  | .waggleReceive p => Sys2Proof.Machine.execWaggleReceive p s
  | .waggleCreditTimeout p => Sys2Proof.Machine.execWaggleCreditTimeout p s
  | .waggleFilterAge => Sys2Proof.Machine.execWaggleFilterAge s
  | .ethFrameReceive p bytes fcsOk => Sys2Proof.Machine.execEthFrameReceive p bytes fcsOk s
  | .rocePacket p pkt => Sys2Proof.Machine.execRocePacket p pkt s
  | .cnpReceive p qpn => Sys2Proof.Machine.execCnpReceive p qpn s
  | .rateRecover qpn => Sys2Proof.Machine.execRateRecover qpn s
  | .qpCreate req => Sys2Proof.Machine.execQpCreate req s
  | .qpDestroy req => Sys2Proof.Machine.execQpDestroy req s
  | .tasterCheckerDispatch id c => Sys2Proof.Machine.execTasterCheckerDispatch id c s
  | .tasterSearchTimeout id => Sys2Proof.Machine.execTasterSearchTimeout id s
  | .tasterCheckComplete id err => Sys2Proof.Machine.execTasterCheckComplete id err s
  | .quarantineEffective c => Sys2Proof.Machine.execQuarantineEffective c s
  | .quarantinedWrite req => Sys2Proof.Machine.execQuarantinedWrite req s
  | .replicaDefine req => Sys2Proof.Machine.execReplicaDefine req s
  | .replicaVersion req => Sys2Proof.Machine.execReplicaVersion req s
  | .replicaRemove req => Sys2Proof.Machine.execReplicaRemove req s
  | .replicaClear req => Sys2Proof.Machine.execReplicaClear req s
  | .digestPassStart k => Sys2Proof.Machine.execDigestPassStart k s
  | .digestPassDone k => Sys2Proof.Machine.execDigestPassDone k s
  | .replicaRepaired k w => Sys2Proof.Machine.execReplicaRepaired k w s
  | .bridgeRetryExhausted => Sys2Proof.Machine.execBridgeRetryExhausted s
  | .deviceRecover req => Sys2Proof.Machine.execDeviceRecover req s
  | .dramRead g errs stays act stepping what => Sys2Proof.Machine.execDramRead g errs stays act stepping what s
  | .dramWrite pa bytes poison errs again act stepping => Sys2Proof.Machine.execDramWrite pa bytes poison errs again act stepping s
  | .correctiveWrite g => Sys2Proof.Machine.execCorrectiveWrite g s
  | .refreshCommand u rank bank row16 => Sys2Proof.Machine.execRefreshCommand u rank bank row16 s
  | .targetedRefresh u => Sys2Proof.Machine.execTargetedRefresh u s
  | .dramSensorSample k readings => Sys2Proof.Machine.execDramSensorSample k readings s
  | .refreshPaceRestore k => Sys2Proof.Machine.execRefreshPaceRestore k s
  | .hotMinute => Sys2Proof.Machine.execHotMinute s
  | .patrolScrub g errs stays => Sys2Proof.Machine.execPatrolScrub g errs stays s
  | .recentreStep u aborted => Sys2Proof.Machine.execRecentreStep u aborted s
  | .calibOverdue u => Sys2Proof.Machine.execCalibOverdue u s
  | .recentreNow req => Sys2Proof.Machine.execRecentreNow req s
  | .vauxGood mode strapId bankA bankB => Sys2Proof.Machine.execVauxGood mode strapId bankA bankB s
  | .keeperStart plca reversed swapped => Sys2Proof.Machine.execKeeperStart plca reversed swapped s
  | .dadComplete dup => Sys2Proof.Machine.execDadComplete dup s
  | .dadReprobe => Sys2Proof.Machine.execDadReprobe s
  | .keeperWatchdog bankA bankB => Sys2Proof.Machine.execKeeperWatchdog bankA bankB s
  | .keeperRestart req => Sys2Proof.Machine.execKeeperRestart req s
  | .powerUp req => Sys2Proof.Machine.execPowerUp req s
  | .railGood rail => Sys2Proof.Machine.execRailGood rail s
  | .seqWaitExpiry => Sys2Proof.Machine.execSeqWaitExpiry s
  | .dataPathRelease => Sys2Proof.Machine.execDataPathRelease s
  | .firmwareLoaded fwA fwB ucA ucB => Sys2Proof.Machine.execFirmwareLoaded fwA fwB ucA ucB s
  | .pwrokRise => Sys2Proof.Machine.execPwrokRise s
  | .pwrokFall => Sys2Proof.Machine.execPwrokFall s
  | .powerDown req => Sys2Proof.Machine.execPowerDown req s
  | .railOrderFault code rail => Sys2Proof.Machine.execRailOrderFault code rail s
  | .pmbAlert addr page word => Sys2Proof.Machine.execPmbAlert addr page word s
  | .pmbusTransaction rail ok => Sys2Proof.Machine.execPmbusTransaction rail ok s
  | .resetNAssert => Sys2Proof.Machine.execResetNAssert s
  | .resetNRelease => Sys2Proof.Machine.execResetNRelease s
  | .railPowerPoll mw mv => Sys2Proof.Machine.execRailPowerPoll mw mv s
  | .powerWindow combs rest => Sys2Proof.Machine.execPowerWindow combs rest s
  | .pointChangeComplete k => Sys2Proof.Machine.execPointChangeComplete k s
  | .logicSensorSample combs edge => Sys2Proof.Machine.execLogicSensorSample combs edge s
  | .thermalTrip dram sensor value => Sys2Proof.Machine.execThermalTrip dram sensor value s
  | .supplyTrip rail mv => Sys2Proof.Machine.execSupplyTrip rail mv s
  | .refclkLoss => Sys2Proof.Machine.execRefclkLoss s
  | .refclkReturn => Sys2Proof.Machine.execRefclkReturn s
  | .srefclkLoss => Sys2Proof.Machine.execSrefclkLoss s
  | .laneTuning p lane => Sys2Proof.Machine.execLaneTuning p lane s
  | .guardbandRun k delta abandoned => Sys2Proof.Machine.execGuardbandRun k delta abandoned s
  | .nurseOverdue task k => Sys2Proof.Machine.execNurseOverdue task k s
  | .tuneNow req => Sys2Proof.Machine.execTuneNow req s
  | .guardNow req => Sys2Proof.Machine.execGuardNow req s
  | .partSelftest req => Sys2Proof.Machine.execPartSelftest req s
  | .selftestDone p failing => Sys2Proof.Machine.execSelftestDone p failing s
  | .telemetryCopy => Sys2Proof.Machine.execTelemetryCopy s
  | .plcaBeaconLoss => Sys2Proof.Machine.execPlcaBeaconLoss s
  | .plcaRejoin => Sys2Proof.Machine.execPlcaRejoin s
  | .discover req => Sys2Proof.Machine.execDiscover req s
  | .kdpRead req => Sys2Proof.Machine.execKdpRead req s
  | .kdpWrite req => Sys2Proof.Machine.execKdpWrite req s
  | .describe req => Sys2Proof.Machine.execDescribe req s
  | .sessionOpen req => Sys2Proof.Machine.execSessionOpen req s
  | .sessionAuth req => Sys2Proof.Machine.execSessionAuth req s
  | .lockoutEnd path => Sys2Proof.Machine.execLockoutEnd path s
  | .sessionClose req => Sys2Proof.Machine.execSessionClose req s
  | .sessionAuthTimeout n => Sys2Proof.Machine.execSessionAuthTimeout n s
  | .sessionExpiry n => Sys2Proof.Machine.execSessionExpiry n s
  | .segmentGapTimeout path => Sys2Proof.Machine.execSegmentGapTimeout path s
  | .emcyAck req => Sys2Proof.Machine.execEmcyAck req s
  | .emcyRepeat n seq => Sys2Proof.Machine.execEmcyRepeat n seq s
  | .mbDoorbell v aux => Sys2Proof.Machine.execMbDoorbell v aux s
  | .updateBegin req => Sys2Proof.Machine.execUpdateBegin req s
  | .updateData req => Sys2Proof.Machine.execUpdateData req s
  | .updateVerify req => Sys2Proof.Machine.execUpdateVerify req s
  | .updateActivate req => Sys2Proof.Machine.execUpdateActivate req s
  | .updateCommit req => Sys2Proof.Machine.execUpdateCommit req s
  | .updateAbort req => Sys2Proof.Machine.execUpdateAbort req s
  | .keySlotWrite req => Sys2Proof.Machine.execKeySlotWrite req s
  | .ownerRelease req => Sys2Proof.Machine.execOwnerRelease req s
  | .aliasKeysReady => Sys2Proof.Machine.execAliasKeysReady s
  | .attestNonce req => Sys2Proof.Machine.execAttestNonce req s
  | .attestReportSigned sub rsa slh => Sys2Proof.Machine.execAttestReportSigned sub rsa slh s
  | .triggerNow req => Sys2Proof.Machine.execTriggerNow req s
  | .dbgTrigNFall rested => Sys2Proof.Machine.execDbgTrigNFall rested s
  | .traceDrainBlock k => Sys2Proof.Machine.execTraceDrainBlock k s
  | .traceArm req => Sys2Proof.Machine.execTraceArm req s
  | .traceOff req => Sys2Proof.Machine.execTraceOff req s
  | .ctrFullEn req => Sys2Proof.Machine.execCtrFullEn req s
  | .ctrClear req => Sys2Proof.Machine.execCtrClear req s
  | .ctrRelease req => Sys2Proof.Machine.execCtrRelease req s
  | .pinReadback bad => Sys2Proof.Machine.execPinReadback bad s
  | .registerWrite a v => Sys2Proof.Machine.execRegisterWrite a v s
  | .railOff rail => Sys2Proof.Machine.execRailOff rail s
  | .vauxLoss => Sys2Proof.Machine.execVauxLoss s
  | .busMasterSet mse => Sys2Proof.Machine.execBusMasterSet mse s
  | .srefclkReturn => Sys2Proof.Machine.execSrefclkReturn s
  | .epochRequestReceive groupId e => Sys2Proof.Machine.execEpochRequestReceive groupId e s
  | .versionListReceive groupId rank e versions => Sys2Proof.Machine.execVersionListReceive groupId rank e versions s
  | .patchQueryReceive src seq asker => Sys2Proof.Machine.execPatchQueryReceive src seq asker s
  | .abortPublishReceive groupId table tver => Sys2Proof.Machine.execAbortPublishReceive groupId table tver s
  | .abandonAckReceive src launch => Sys2Proof.Machine.execAbandonAckReceive src launch s
  | .probeAnswerReceive tag check size => Sys2Proof.Machine.execProbeAnswerReceive tag check size s
  | .adminIrqHoldoffExpiry => Sys2Proof.Machine.execAdminIrqHoldoffExpiry s

end Sys2Proof.Machine
end

