-- ==== Sys2Proof/Machine/Step.lean ====
section
/-!
DEFINITION. One step: the command at the front of the queue runs; on an empty queue the device counter counts one nanosecond and
what waits only for time goes on.
-/
namespace Sys2Proof.Machine

/-- What waits for nothing but time: posted stores land (R54), return entries whose writes have all landed signal (R219, R233), held
patch rows and a copied quarter are tried again (R206, R258), and span records are taken in order of arrival (R276). [DESIGN CHOICE, log entry 3] -/
def State.settle (s : State) : State := s.landPosted.settleReturns.retryPatches.retryChecks.remapNow.spanTakeEvery

/-- Nothing is waiting: the free-running counter counts (R16), one nanosecond a step, and the counters that follow time go on by a free
amount. [DESIGN CHOICE, log entry 3] -/
def State.tick (s : State) : State := { keepQueue s s.settle with time := s.time + 1#64, free := s.settle.free + 1 }

/-- One step. [DESIGN CHOICE, log entry 4] -/
def step (s : State) : Host.Outcome State Fault Refusal :=
  match s.pending with
  | [] => .next s.tick
  | c :: rest => exec c { s with pending := rest }

/-- The state with the command that a word spells at the front of its queue; unchanged where it spells none. [DESIGN CHOICE, log entry 4] -/
def State.withFetchWord (s : State) (nbits w : Nat) : State :=
  match decodeTableWord nbits w with
  | some c => { s with pending := c :: s.pending }
  | none => s

end Sys2Proof.Machine
end

