-- ==== Sys2Proof/WellFormed.lean ====
section
/-!
DEFINITION. Which commands can occur: those that name units the device has (R14, R376, R437), and host accesses and flits of the
sizes the links carry (R351, R381).
-/
namespace Sys2Proof

/-- Is a command well formed? -/
def Instr.wellFormed : Instr → Bool
  | .intArith c t _ _ => decide (c < 128) && decide (t < 16)
  | .divideComplete c t => decide (c < 128) && decide (t < 16)
  | .comparePredicate c t _ _ => decide (c < 128) && decide (t < 16)
  | .branch c t _ => decide (c < 128) && decide (t < 16)
  | .indirectJump c t _ _ => decide (c < 128) && decide (t < 16)
  | .spLoad c t _ _ => decide (c < 128) && decide (t < 16)
  | .spLoadReturn c t => decide (c < 128) && decide (t < 16)
  | .spStore c t _ _ => decide (c < 128) && decide (t < 16)
  | .vaLoad c t _ _ => decide (c < 128) && decide (t < 16)
  | .vaLoadReturn c t => decide (c < 128) && decide (t < 16)
  | .vaStore c t _ _ => decide (c < 128) && decide (t < 16)
  | .fence c t _ => decide (c < 128) && decide (t < 16)
  | .fenceComplete c t => decide (c < 128) && decide (t < 16)
  | .icacheMissFill c _ _ => decide (c < 128)
  | .systemValueRead c t _ => decide (c < 128) && decide (t < 16)
  | .sig c t _ => decide (c < 128) && decide (t < 16)
  | .wait c t _ => decide (c < 128) && decide (t < 16)
  | .tryOp c t _ => decide (c < 128) && decide (t < 16)
  | .semRead c t _ => decide (c < 128) && decide (t < 16)
  | .tspawn c t _ => decide (c < 128) && decide (t < 16)
  | .texit c t _ => decide (c < 128) && decide (t < 16)
  | .arrayCmd c t _ _ => decide (c < 128) && decide (t < 16)
  | .vectorCmd c t _ _ => decide (c < 128) && decide (t < 16)
  | .streamCmd c t _ _ => decide (c < 128) && decide (t < 16)
  | .bagCmd c t _ _ => decide (c < 128) && decide (t < 16)
  | .sampleCmd c t _ _ => decide (c < 128) && decide (t < 16)
  | .layer c t _ => decide (c < 128) && decide (t < 16)
  | .layerDrainDone c => decide (c < 128)
  | .layerw c t _ => decide (c < 128) && decide (t < 16)
  | .layerwVerdict _ => true
  | .engineSafePointAbandon c _ _ => decide (c < 128)
  | .arrayPassStart c _ => decide (c < 128)
  | .arrayPassComplete c => decide (c < 128)
  | .loadOnly c => decide (c < 128)
  | .weightLoadComplete c => decide (c < 128)
  | .rampDown c _ => decide (c < 128)
  | .vectorCommandStart c => decide (c < 128)
  | .vecFloatOp c _ _ => decide (c < 128)
  | .vecIntOp c _ _ => decide (c < 128)
  | .vecCompare c _ _ => decide (c < 128)
  | .vecScratchAccess c _ _ => decide (c < 128)
  | .vecTileAccess c _ _ => decide (c < 128)
  | .vecConvert c _ _ => decide (c < 128)
  | .vecCrossLane c _ _ => decide (c < 128)
  | .vecRandomDraw c _ _ => decide (c < 128)
  | .vnext c _ => decide (c < 128)
  | .vend c _ => decide (c < 128)
  | .vectorComplete c => decide (c < 128)
  | .sampleStart c => decide (c < 128)
  | .sampleComplete c => decide (c < 128)
  | .bagDispatch c => decide (c < 128)
  | .lookupIntake f _ => decide (f < 4)
  | .rowRequest _ _ => true
  | .rcMissFill _ _ => true
  | .rowSectorsReturn _ _ => true
  | .sliceWrite _ _ => true
  | .bagCommandComplete _ => true
  | .foragerAbandon f => decide (f < 4)
  | .rcDecayPass f => decide (f < 4)
  | .pinRows => true
  | .unpinRows => true
  | .tableQuery => true
  | .tableRegister => true
  | .tableUnregister => true
  | .publish q => decide (q < 1024)
  | .abortPublish => true
  | .versionReleased _ _ _ => true
  | .patch q => decide (q < 1024)
  | .patchStageReceive _ _ _ _ _ => true
  | .patchAnswerReceive _ _ _ _ _ => true
  | .patchCommitReceive _ _ => true
  | .patchCancelReceive _ _ => true
  | .patchOutcomeQuery _ _ => true
  | .patchWriteback _ _ _ _ => true
  | .groupCreate => true
  | .groupDestroy => true
  | .spanBind => true
  | .fanoutReceive _ _ _ _ _ _ _ _ => true
  | .bagReqReceive _ _ _ _ _ _ _ => true
  | .gatherReceive _ _ _ _ _ _ => true
  | .fanoutTimeout _ _ => true
  | .abandonReceive _ _ => true
  | .returnEntryExpiry _ => true
  | .epochAdvance q => decide (q < 1024)
  | .prepareReceive _ _ => true
  | .readyReceive _ _ _ _ => true
  | .prepareRetry _ => true
  | .lowReport _ => true
  | .lowReportReceive _ _ _ => true
  | .lowBroadcast _ => true
  | .groupDegraded _ _ => true
  | .spanRecordArrival _ _ => true
  | .spanReturnArrival _ _ => true
  | .spanTimeout _ => true
  | .openWindow => true
  | .importWindow => true
  | .windowProbeReceive _ _ _ _ _ _ => true
  | .windowAccessAtOwner _ _ _ _ _ _ _ _ _ _ => true
  | .windowResponse _ _ _ _ => true
  | .windowTimeout _ => true
  | .closeWindow => true
  | .windowClosed p _ => decide (p < 16)
  | .releaseImport => true
  | .partCreate => true
  | .partDestroy => true
  | .partReset => true
  | .partitionResetDone p => decide (p < 16)
  | .ctxCreate => true
  | .ctxDestroy => true
  | .contextTornDown _ => true
  | .teardownTimeout _ => true
  | .nop q => decide (q < 1024)
  | .launch q => decide (q < 1024)
  | .launchPlace _ => true
  | .residentLoadDone c => decide (c < 128)
  | .preemptWaitExpiry q => decide (q < 1024)
  | .preemptMarkReply _ => true
  | .saveStart _ => true
  | .saveComplete _ => true
  | .resume _ => true
  | .restoreLaunch => true
  | .dropSave => true
  | .setPin => true
  | .placementPeriod => true
  | .migrationCopyDone => true
  | .frameMoved => true
  | .dbTail q _ _ => decide (q < 1024)
  | .dbCqHead q _ _ => decide (q < 1024)
  | .completionPost q => decide (q < 1024)
  | .msixModTimer q => decide (q < 1024)
  | .queueTimeout q _ => decide (q < 1024)
  | .queueCreate => true
  | .queueDestroy => true
  | .queueFinalRecord q => decide (q < 1024)
  | .queueReattach => true
  | .admDbTail _ => true
  | .admCqHead _ => true
  | .noteHead _ => true
  | .admCtrl _ => true
  | .imageLoad => true
  | .imageUnload => true
  | .regRead => true
  | .regClear => true
  | .streamAccept c => decide (c < 128)
  | .streamChunkStart c k => decide (c < 128) && decide (k < 16)
  | .streamSrcDone c k => decide (c < 128) && decide (k < 16)
  | .streamChunkFill c k => decide (c < 128) && decide (k < 16)
  | .streamComplete c k => decide (c < 128) && decide (k < 16)
  | .streamStop c k => decide (c < 128) && decide (k < 16)
  | .tlbWalkComplete _ => true
  | .map => true
  | .ptSync => true
  | .unmap => true
  | .invalidate => true
  | .drainComplete _ => true
  | .resolve => true
  | .winSlotWrite k _ => decide (k < 64)
  | .windowWrite off bytes _ _ => decide (off < 2 ^ 33) && decide (1 ≤ bytes.length) && decide (off % 64 + bytes.length ≤ 64)
  | .windowRead off n => decide (off < 2 ^ 33) && decide (1 ≤ n) && decide (off % 64 + n ≤ 64)
  | .hostFnDisable => true
  | .hostFnEnable => true
  | .busMasterClear _ => true
  | .functionDrained => true
  | .drainTimeout => true
  | .linkRetrainStart => true
  | .linkRetrainEnd => true
  | .retrainOverrun => true
  | .hostReset _ => true
  | .ucieLinkTrain _ _ => true
  | .regionRegister => true
  | .regionRelease => true
  | .portSignalDetect p => decide (p < 8)
  | .trainingComplete p _ _ _ _ _ => decide (p < 8)
  | .trainingAttemptFail p _ => decide (p < 8)
  | .laneFail p lane => decide (p < 8) && decide (lane < 4)
  | .portElectricalIdle p => decide (p < 8)
  | .portRetrainComplete p => decide (p < 8)
  | .portRetrainTimeout p => decide (p < 8)
  | .portFailedRetry p => decide (p < 8)
  | .portRestart _ => true
  | .flitReceive p flit => decide (p < 8) && flit.bytes.length == 280
  | .nakReceive p _ _ => decide (p < 8)
  | .frameRoute _ => true
  | .frameDeliver p => decide (p < 8)
  | .waggleReceive p => decide (p < 8)
  | .waggleCreditTimeout p => decide (p < 8)
  | .waggleFilterAge => true
  | .ethFrameReceive p _ _ => decide (p < 8)
  | .rocePacket p _ => decide (p < 8)
  | .cnpReceive p _ => decide (p < 8)
  | .rateRecover _ => true
  | .qpCreate _ => true
  | .qpDestroy _ => true
  | .tasterCheckerDispatch _ c => decide (c < 128)
  | .tasterSearchTimeout _ => true
  | .tasterCheckComplete _ _ => true
  | .quarantineEffective c => decide (c < 128)
  | .quarantinedWrite _ => true
  | .replicaDefine _ => true
  | .replicaVersion _ => true
  | .replicaRemove _ => true
  | .replicaClear _ => true
  | .digestPassStart _ => true
  | .digestPassDone _ => true
  | .replicaRepaired _ _ => true
  | .bridgeRetryExhausted => true
  | .deviceRecover _ => true
  | .dramRead _ _ _ _ _ _ => true
  | .dramWrite _ _ _ _ _ _ _ => true
  | .correctiveWrite _ => true
  | .refreshCommand u _ _ _ => decide (u < 256)
  | .targetedRefresh u => decide (u < 256)
  | .dramSensorSample k _ => decide (k < 4)
  | .refreshPaceRestore k => decide (k < 4)
  | .hotMinute => true
  | .patrolScrub _ _ _ => true
  | .recentreStep u _ => decide (u < 256)
  | .calibOverdue u => decide (u < 256)
  | .recentreNow _ => true
  | .vauxGood _ _ _ _ => true
  | .keeperStart _ _ _ => true
  | .dadComplete _ => true
  | .dadReprobe => true
  | .keeperWatchdog _ _ => true
  | .keeperRestart _ => true
  | .powerUp _ => true
  | .railGood rail => decide (1 ≤ rail) && decide (rail ≤ 8)
  | .seqWaitExpiry => true
  | .dataPathRelease => true
  | .firmwareLoaded _ _ _ _ => true
  | .pwrokRise => true
  | .pwrokFall => true
  | .powerDown _ => true
  | .railOrderFault _ _ => true
  | .pmbAlert _ _ _ => true
  | .pmbusTransaction rail _ => decide (1 ≤ rail) && decide (rail ≤ 8)
  | .resetNAssert => true
  | .resetNRelease => true
  | .railPowerPoll _ _ => true
  | .powerWindow _ _ => true
  | .pointChangeComplete k => decide (k < 16)
  | .logicSensorSample _ _ => true
  | .thermalTrip _ _ _ => true
  | .supplyTrip rail _ => decide (1 ≤ rail) && decide (rail ≤ 8)
  | .refclkLoss => true
  | .refclkReturn => true
  | .srefclkLoss => true
  | .laneTuning p lane => decide (p < 8) && decide (lane < 4)
  | .guardbandRun k _ _ => decide (k < 16)
  | .nurseOverdue _ _ => true
  | .tuneNow _ => true
  | .guardNow _ => true
  | .partSelftest _ => true
  | .selftestDone p _ => decide (p < 16)
  | .telemetryCopy => true
  | .plcaBeaconLoss => true
  | .plcaRejoin => true
  | .discover _ => true
  | .kdpRead _ => true
  | .kdpWrite _ => true
  | .describe _ => true
  | .sessionOpen _ => true
  | .sessionAuth _ => true
  | .lockoutEnd _ => true
  | .sessionClose _ => true
  | .sessionAuthTimeout _ => true
  | .sessionExpiry _ => true
  | .segmentGapTimeout _ => true
  | .emcyAck _ => true
  | .emcyRepeat _ _ => true
  | .mbDoorbell _ _ => true
  | .updateBegin _ => true
  | .updateData _ => true
  | .updateVerify _ => true
  | .updateActivate _ => true
  | .updateCommit _ => true
  | .updateAbort _ => true
  | .keySlotWrite _ => true
  | .ownerRelease _ => true
  | .aliasKeysReady => true
  | .attestNonce _ => true
  | .attestReportSigned _ _ _ => true
  | .triggerNow _ => true
  | .dbgTrigNFall _ => true
  | .traceDrainBlock k => decide (k < 16)
  | .traceArm _ => true
  | .traceOff _ => true
  | .ctrFullEn _ => true
  | .ctrClear _ => true
  | .ctrRelease _ => true
  | .pinReadback _ => true
  | .registerWrite _ _ => true
  | .railOff rail => decide (1 ≤ rail) && decide (rail ≤ 8)
  | .vauxLoss => true
  | .busMasterSet _ => true
  | .srefclkReturn => true
  | .epochRequestReceive _ _ => true
  | .versionListReceive _ _ _ _ => true
  | .patchQueryReceive _ _ _ => true
  | .abortPublishReceive _ _ _ => true
  | .abandonAckReceive _ _ => true
  | .probeAnswerReceive _ _ _ => true
  | .adminIrqHoldoffExpiry => true

end Sys2Proof
end

