-- ==== Sys2Proof/Safety.lean ====
section
/-!
DEFINITION. What a safe run is: every command that waits can occur on this device, so no step faults and none is refused.
-/
namespace Sys2Proof.Machine

/-- Every waiting command names units the device has. -/
def State.queueWellFormed (s : State) : Prop := ∀ c ∈ s.pending, c.wellFormed = true

/-- One step ends in a next state. -/
def StepsOn (s : State) : Prop := ∃ t, step s = .next t

/-- The state after `n` steps; none where one of them does not end in a next state. -/
def runSteps : Nat → State → Option State
  | 0, s => some s
  | n + 1, s => match step s with
    | .next t => runSteps n t
    | _ => none

/-! ## When a command has its own effect -/

/-- Word `w` of class `cls`, `size` bytes long, issues in thread `t` of cell `c` for launch `l` and completes there: the thread is
ready and it is its turn (R53), no check runs on a cell of the launch (R420), its guard lets the instruction execute (R55), and the code goes on behind it (R546). -/
structure Issues (s : State) (c t : Nat) (w : Word) (cls size : Nat) (l : Launch) : Prop where
  path : s.running = true
  cell : c < 128
  thread : t < 16
  launch : ∃ id, s.activeLaunch c = some (id, l)
  ready : (s.thread c t).status = .running
  turn : (s.cell c).mayIssue t = true
  unchecked : s.checkRuns l = false
  cls : wClass w = cls
  guard : (s.thread c t).guard w = true
  inCode : l.inCode ((s.thread c t).pc.toNat + size) = true

/-- Thread `t` of cell `c` is ready and it is its turn, for launch `l` on a running data path, and no check runs on a cell of the launch
(R53, R420). -/
structure ThreadReady (s : State) (c t : Nat) (l : Launch) : Prop where
  path : s.running = true
  cell : c < 128
  thread : t < 16
  launch : ∃ id, s.activeLaunch c = some (id, l)
  ready : (s.thread c t).status = .running
  turn : (s.cell c).mayIssue t = true
  unchecked : s.checkRuns l = false

/-- A cell fault of thread `t` with a code: `CELL_FAULT` records it where its `VALID` is clear, the launch of the cell ends with
ILLEGAL_OP, and no register and no DRAM byte changes, nor a scratchpad byte where no store is posted (R54, R71, R74). -/
def FaultEnds (s u : State) (c code t cls : Nat) : Prop :=
  (u.cell c).fault = (if (s.cell c).fault.getLsbD 63 then (s.cell c).fault else cellFaultWord code t cls (s.thread c t).pc)
  ∧ (∀ id l, s.activeLaunch c = some (id, l) → ∃ y, u.launch? id = some y ∧ y.phase = .ended ∧ y.status = some stIllegalOp ∧ y.detail = 64 + code)
  ∧ ((∀ k, (s.thread c k).spStores = []) → (u.cell c).scratch = (s.cell c).scratch) ∧ (∀ k, (u.thread c k).regs = (s.thread c k).regs) ∧ u.dram = s.dram

/-- Thread `t` of cell `c` exists on a running data path. -/
structure OnThread (s : State) (c t : Nat) : Prop where
  path : s.running = true
  cell : c < 128
  thread : t < 16

/-- Cell `c` exists on a running data path. -/
structure OnCell (s : State) (c : Nat) : Prop where
  path : s.running = true
  cell : c < 128

/-- Cell `c` of a running data path works for a launch that has not ended. -/
structure CellWorks (s : State) (c : Nat) : Prop where
  path : s.running = true
  cell : c < 128
  active : s.cellActive c = true

/-- Some thread of cell `c` still runs, so a completing command ends nothing there (R60). -/
def ThreadRuns (s : State) (c : Nat) : Prop := ∃ k h, (k, h) ∈ (s.cell c).threads ∧ h.status = .running

/-- The vector engine of cell `c` runs a command and meets a word of class `cls` (R126, R127). -/
structure VecIssues (s : State) (c : Nat) (w : Word) (cls : Nat) : Prop where
  works : CellWorks s c
  busy : (s.cell c).vec.cmd.isSome = true
  open_ : (s.cell c).vec.ended = false
  cls : field w.toNat 31 28 = cls

/-- The cell after a vector instruction that leaves `v` of its engine: the pc past the word. -/
def Cell.vecDone (x : Cell) (v : VecState) : Cell := { x with vec := { v with pc := v.pc + 4#32 } }

/-- Cell `c` awaits a `LAYERW` verdict (R115): its last thread `t` names a calendar block at `off` for this verdict, which is valid and
unpoisoned, and predicate `p`; no pre-emption mark stands. -/
def VoteReady (s : State) (replay : Bool) (c t off p : Nat) : Prop :=
  (s.cell c).layer = .voting t ∧ (s.cell c).mark = .none ∧
  (∃ site cal wide, ((s.cell c).thread t).waits = .layerW site cal wide p ∧ off = (if replay then wide else cal)) ∧
  off + 64 ≤ scratchBytes ∧ (s.cell c).spPoison off 64 = false ∧ calValid (calOfBytes ((s.cell c).scratch.read off 64)) = true

/-- Every page of a span of launch `lid` has been translated for its save or restore, each through the stream TLB of the comb of the cell
that `at_` gives, or is page `p0`, which that TLB holds: it is in populated memory of a stack that is not in throttle stage 3 (R37,
R263, R341, R348). -/
def PagesWalked (s : State) (lid : Nat) (l : Launch) (at_ : Nat → Nat) (ctx : Nat) (a : Access) (va n p0 : Nat) : Prop :=
  ∀ p ∈ spanPages va n, (combOf (at_ (max va p)), p) ∈ l.walked ∨
    (p = p0 ∧ ∃ pa, s.xlate (tlbOf (.save lid (at_ (max va p)))) ctx (max va p) a = .hit pa ∧ s.populated pa = true ∧ s.stackOpen pa = true)

/-- Fetch `n` of pooling work `id` on a running data path, with the lookup record and the version slot it reads (R160, R171). -/
structure FetchAt (s : State) (id n : Nat) (w : BagWork) (x : Fetch) (d : TableDesc) (sl : VerSlot) : Prop where
  path : s.running = true
  work : s.work? id = some w
  fetch : w.fetches[n]? = some x
  slot : s.fetchSlot w x = some (d, sl)

/-! ### Admin and user queues -/

/-- The head admin command can be taken, its slot is sound, no waiting command holds it, and it carries opcode `op` with a payload `p`
of `n` bytes (R299, R300). -/
structure AdminHead (s : State) (op n : Nat) (p : List Byte) : Prop where
  ready : s.admReady = true
  sound : s.admRefusal s.admSlot = none
  opcode : ahOpcode s.admSlot = op
  held : s.admHeld s.admSlot = false
  length : ahLen s.admSlot = n
  payload : ahPayload s.admSlot = p

/-- The head admin command of `s` taken, its effect `z` done, and its record posted with a status, a detail and a result (R299, R301). -/
def State.answered (s z : State) (st d : Nat) (r : List Byte) : State :=
  keepQueue s (({ z with admin := { z.admin with taken := z.admin.taken + 1#64 } }).adminRecord s.admin.taken.toNat (ahCmdId s.admSlot)
    s.admin.start st d r)

/-- The head admin command of `s` taken, its effect `z` begun, and its record awaited; `holds` says that it holds the admin queue (R300). -/
def State.awaits (s z : State) (w : AdminWaitFor) (holds : Bool) : State :=
  keepQueue s { z with admin := { z.admin with
      taken := z.admin.taken + 1#64
      work := z.admin.work ++ [{ index := s.admin.taken.toNat, cmdId := ahCmdId s.admSlot, waits := w, start := s.admin.start, blocks := holds }] } }

/-- User queue `q` is the next to be served, and its head slot `b` is an unpoisoned command of kind `k` that passes the header checks
(R247, R275, R281, R415). -/
structure QueueHead (s : State) (q k : Nat) (b : List Byte) : Prop where
  path : s.running = true
  queue : q < 1024
  next : s.isNext q = true
  clean : s.slotPoison q = false
  slot : s.slotOf q = b
  kind : chKind b = k
  known : k ≤ 4
  sound : s.headerCheck q b = none

/-- Queue `q` after it has taken one command and nothing more (R272). -/
def Queue.tookOne (x : Queue) : Queue := { x with taken := x.taken + 1#64, outstanding := x.outstanding + 1, waits := false, preempting := false }

/-- Queue `q` took its head command `b` and lists its completion with a status and a detail, at the moment it took it (R272, R287). -/
def EndsAs (s u : State) (q : Nat) (b : List Byte) (st d : Nat) : Prop :=
  u.queue q = { (s.queue q).tookOne with
    ready := (s.queue q).ready ++ [.cmd (chLaunchId b) ((s.queue q).taken.toNat % 2 ^ 32) st d (chIrq b) 0] }

/-! ## What a command leaves as it was -/

/-- `u` is `s` but for the counters and counts. -/
def CountOnly (s u : State) : Prop := u = { s with dict := u.dict, counters := u.counters }
/-- `u` is `s` but for the fields that tracing may change. -/
def TraceOnly (s u : State) : Prop :=
  u = { s with free := u.free, tracer := u.tracer, dict := u.dict, counters := u.counters, wagglesOut := u.wagglesOut, waggleSeq := u.waggleSeq }
/-- `u` is `s` but for the fields that an event may change. -/
def EventOnly (s u : State) : Prop := u = { s with log := u.log, fieldOut := u.fieldOut, dict := u.dict, counters := u.counters }
/-- `u` is `s` but for the fields that posting to the host may change. -/
def HostOnly (s u : State) : Prop :=
  u = { s with admin := u.admin, host := u.host, hostOut := u.hostOut, dict := u.dict, counters := u.counters }

/-- `u` is `s` but for what the device reports and traces: the event log, field messages, counters and trace. -/
def Reports (s u : State) : Prop :=
  u = { s with free := u.free, tracer := u.tracer, dict := u.dict, counters := u.counters, wagglesOut := u.wagglesOut, waggleSeq := u.waggleSeq,
               log := u.log, fieldOut := u.fieldOut }

/-- `u` is `s` after a run of nurse task `t` on its unit `k`: that unit is overdue no more and the run is counted (R459, R463), and
reports may follow. -/
def TaskRan (s u : State) (t k : Nat) : Prop :=
  Reports { s with manager := { s.manager with overdue := s.manager.overdue.filter (· != (t, k)) } } u
  ∧ u.entry 0x9002 t = satAdd (dictBits (dkey 0x9002 t)) (s.entry 0x9002 t) 1

/-- The state `s` whose data path has stopped, with a recovery that was under way ended (R417, R470). -/
def State.halted (s : State) : State :=
  { s.cmdEnd 0x6058 0 (Config.actionFailed 0x6058).toNat with
    power := { s.power with path := .stopped, recovering := false }
    replicas := s.replicas.map (fun (r : Nat × Replica) => (r.1, { r.2 with running := none })) }

/-- The data path of `s` stopped by a device-fatal error; where no trace was capturing, nothing else but reports changed (R417, R521). -/
def Stopped (s u : State) : Prop :=
  u.power = { s.power with path := .stopped, recovering := false } ∧ u.cells = s.cells ∧ u.queues = s.queues
  ∧ u.entry 0x6062 0 = satAdd (dictBits (dkey 0x6062 0)) (s.entry 0x6062 0) 1
  ∧ (s.capturing = false → Reports s.halted u)

/-- Nothing but port `p` and what is reported changed. -/
def OnlyPort (s u : State) (p : Nat) : Prop := Reports { s with ports := u.ports } u ∧ ∀ q, q ≠ p → u.port q = s.port q

/-- Fabric port `p` of a running data path whose SerDes clock is there (R452, R537). -/
structure LivePort (s : State) (p : Nat) : Prop where
  port : p < 8
  path : s.running = true
  clock : s.power.srefPresent = true

/-! ## The keeper's requests -/

/-- A datagram `r` with operation `op` reaches a keeper whose address is usable, at its port, is well formed, passes the session checks in
the session `x` if any, and no assembly of its source is open but for a SESSION_AUTH (R468, R472–R479); its `SEQNO` is not the last. -/
structure KdpAccepts (s : State) (r : KdpRequest) (op : Nat) (x : Option Session) : Prop where
  datagram : r.frame = .udp
  here : (r.dst == leNat s.linkLocal || r.dst == leNat allNodes) = true
  port : r.dstPort = s.kdpPort
  usable : s.fieldUsable = true
  up : s.keeperUp = true
  noRecovery : s.boot.recovery = false
  kept : kDropped r.bytes = false
  operation : kOp r.bytes = op
  formed : kWellFormed (.field r.addr r.port) r.bytes = true
  session : s.sessionCheck (.field r.addr r.port) r.bytes = (kOk, x)
  alone : op ≠ 0x06 → s.assembling (.field r.addr r.port) = false
  more : kSeqno r.bytes ≠ 0xFFFFFFFF

/-- `r` is an accepted WRITE, in one message and in an open session `x`, of the value `v` to entry `index`.`sub`, whose row `d` it fits,
whose access the session has and of which no action goes on (R470, R471). -/
structure KdpWrites (s : State) (r : KdpRequest) (x : Session) (d : DictRow) (index sub : Nat) (v : List Byte) : Prop where
  accepts : KdpAccepts s r 0x03 (some x)
  opened : x.opened = true
  first : kSeg r.bytes = 0
  single : kSegs r.bytes = 1
  whole : bitAt (kFlags r.bytes) 2 = false
  head : kBody r.bytes = bytesLE 2 index ++ bytesLE 1 sub ++ bytesLE 1 d.type.code ++ bytesLE 4 v.length ++ bytesLE 4 0 ++ v
  small : index < 65536 ∧ sub < 256 ∧ v.length < 2 ^ 32
  row : dictRow index sub = some d
  writable : d.access ≠ .ro
  fits : typeFits d d.type.code v = true
  range : rangeFits d v = true
  auth : s.writeAuth (.field r.addr r.port) (some x.slot) index sub = true
  quiet : s.keeper.acting.contains (dkey index sub) = false

/-- The request taken in: its session notes its `SEQNO` (R479). -/
def State.took (s : State) (r : KdpRequest) (x : Option Session) : State := s.noteSeqno r.bytes x

/-- The reply to `r`, served on `s` with the outcome `z` (R475). -/
def State.replied (s z : State) (r : KdpRequest) (st : Nat) (body : List Byte) : State :=
  keepQueue s { z with fieldOut := z.fieldOut ++
    [.udp r.addr r.port (kReply r.bytes (s.replyKey z (.field r.addr r.port) r.bytes) st body)] }

/-- A command written to entry `index`.`sub` was applied with the effect `z`: its change is noted, and its completion status unless the
action it began goes on (R12, R470). -/
def State.applied (s z : State) (r : KdpRequest) (index sub : Nat) : State :=
  s.replied ((if z.actionRuns index sub then { z with keeper := { z.keeper with acting := flagAdd z.keeper.acting (dkey index sub) } }
    else { z with keeper := { z.keeper with cmdStatus := tabSet z.keeper.cmdStatus (dkey index sub) stOk } }).noteChange (dkey index sub)) r kOk []

/-- A command written to entry `index`.`sub` was refused with device status `st` and a detail, leaving `z` (R12). -/
def State.refusedCmd (s z : State) (r : KdpRequest) (index sub st : Nat) (detail : List Byte) : State :=
  s.replied (if st == stBusy then z else { z with keeper := { z.keeper with cmdStatus := tabSet z.keeper.cmdStatus (dkey index sub) st } }) r
    kCmdRefused (bytesLE 1 st ++ detail)

/-- A value was written to the flash-backed entry `index`.`sub` with the effect `z` (R470). -/
def State.flashed (s z : State) (r : KdpRequest) (index sub : Nat) : State :=
  s.replied ((z.noteCommit (dkey index sub)).noteChange (dkey index sub)) r kOk []

/-! ## What stays in one cell or thread -/

/-- Nothing but cell `c` and the counters changed. -/
def OnlyCell (s u : State) (c : Nat) : Prop :=
  u = { s with cells := u.cells, counters := u.counters } ∧ ∀ d, d ≠ c → u.cell d = s.cell d

/-- Nothing but thread `t` of cell `c`, the record of who issued lately, and the counters changed. -/
def OnlyThread (s u : State) (c t : Nat) : Prop :=
  OnlyCell s u c ∧ u.cell c = { s.cell c with threads := (u.cell c).threads, recent := (u.cell c).recent }
  ∧ ∀ k, k ≠ t → u.thread c k = s.thread c k

end Sys2Proof.Machine
end

