-- ==== Sys2Proof/Certificates/Slice0/Obligations.lean ====
section
/-!
DEFINITION. The statements for the provers: what the spec's rules say the device does, over this model.
-/
open Sys2Proof Sys2Proof.Machine

/-- Whatever the command and the state, a step with that command at the front of the queue answers what exec answers for it on the state with the rest of the queue. With no command waiting a step adds one to the device counter, and none waits after it; where nothing waits for time alone (posted stores, return entries, held patch rows, span records) it changes nothing else but the model's counter of free values. That such a step stands for one nanosecond is the model's choice (log entry 3). -/
def Obligations.StepRunsTheFrontCommand : Prop :=
  (∀ (c : Instr) (rest : List Instr) (s : State), s.pending = c :: rest → step s = exec c { s with pending := rest }) ∧
  (∀ (s : State), s.pending = [] → ∃ t, step s = .next t ∧ t.time = s.time + 1#64 ∧ t.pending = [] ∧ t.code = s.code ∧
    (s.settle = s → t = { s with time := s.time + 1#64, free := s.free + 1 }))

/-- In the state after reset every entry of the object dictionary that holds a number has the default of its row; only NODE (0x1013), which the keeper derives at its start, differs. The data path runs, the link and the ports are down, no launch, queue or context exists, and no
cell is quarantined. At which moment of the start the model begins is its choice (log entry 1). -/
def Obligations.ResetLeavesTheDictionaryAtItsDefaults : Prop :=
  (∀ (index sub : Nat) (r : DictRow), dictRow index sub = some r → r.type.bits ≠ 0 → index ≠ 0x1013 → State.reset.entry index sub = r.default) ∧
  State.reset.running = true ∧ State.reset.host.rate = 0 ∧ (∀ p, (State.reset.port p).link = .absent) ∧ State.reset.launches = [] ∧ State.reset.queues = [] ∧
  State.reset.contexts = [] ∧ State.reset.quarantined = 0#128 ∧ State.reset.tracer.frozen = false ∧ State.reset.tracer.mode = .off ∧ State.reset.pending = []

/-- Let every waiting command name units the device has. Then a step ends in a next state, never in a fault or a refusal, and the commands that still wait name units the device has. -/
def Obligations.EveryStepKeepsTheQueueWellFormed : Prop :=
  ∀ (s : State), s.queueWellFormed → ∃ t, step s = .next t ∧ t.queueWellFormed

/-- The state after reset satisfies the invariant that EveryStepKeepsTheQueueWellFormed keeps, and a first step goes on. -/
def Obligations.ResetQueueIsWellFormed : Prop := State.reset.queueWellFormed ∧ StepsOn State.reset

/-- From every state whose waiting commands name existing units, as many steps as there are waiting commands, or fewer, all end in next states; after n of them the first n commands are gone and the others wait in their
order, the device counter has not moved, and the ordering code is the same. After as many steps as commands waited, none waits. -/
def Obligations.WaitingCommandsRunToTheEnd : Prop :=
  ∀ (s : State) (n : Nat), s.queueWellFormed → n ≤ s.pending.length →
    ∃ t, runSteps n s = some t ∧ t.pending = s.pending.drop n ∧ t.time = s.time ∧ t.code = s.code

/-- For every command and every state exec answers a next state, or faults because the command names a unit the device does not have. It is never refused. A next state has the waiting commands, the device counter and the
ordering code of the state before. -/
def Obligations.NoCommandIsRefused : Prop :=
  ∀ (c : Instr) (s : State),
    (∃ t, exec c s = .next t ∧ t.pending = s.pending ∧ t.time = s.time ∧ t.code = s.code) ∨ (exec c s = .fault .noSuchUnit ∧ c.wellFormed = false)

/-- A command that names a cell above 127, a thread above 15, a queue above 1,023, a partition or comb above 15, a forager or stack above 3, a port above 7, a channel above 255, a window slot above 63 or a rail outside 1 to 8 stops with noSuchUnit. -/
def Obligations.UnitsTheDeviceLacksFault : Prop :=
  (∀ (s : State) (c t : Nat) (w : Word) (op : Option IntOp), 128 ≤ c ∨ 16 ≤ t → exec (.intArith c t w op) s = .fault .noSuchUnit) ∧
  (∀ (s : State) (c : Nat), 128 ≤ c → exec (.arrayPassComplete c) s = .fault .noSuchUnit) ∧
  (∀ (s : State) (q : Nat), 1024 ≤ q → exec (.launch q) s = .fault .noSuchUnit) ∧
  (∀ (s : State) (p : Nat), 16 ≤ p → exec (.partitionResetDone p) s = .fault .noSuchUnit) ∧
  (∀ (s : State) (k : Nat), 16 ≤ k → exec (.pointChangeComplete k) s = .fault .noSuchUnit) ∧
  (∀ (s : State) (k : Nat), 4 ≤ k → exec (.refreshPaceRestore k) s = .fault .noSuchUnit) ∧
  (∀ (s : State) (f : Nat), 4 ≤ f → exec (.rcDecayPass f) s = .fault .noSuchUnit) ∧
  (∀ (s : State) (p : Nat), 8 ≤ p → exec (.portSignalDetect p) s = .fault .noSuchUnit) ∧
  (∀ (s : State) (u : Nat), 256 ≤ u → exec (.targetedRefresh u) s = .fault .noSuchUnit) ∧
  (∀ (s : State) (k : Nat) (v : DWord), 64 ≤ k → exec (.winSlotWrite k v) s = .fault .noSuchUnit) ∧
  (∀ (s : State) (r : Nat), r = 0 ∨ 8 < r → exec (.railGood r) s = .fault .noSuchUnit)

/-- While the data path does not run, commands of cells, engines, foragers, groups, windows, launches, streams, translation, ports, tasters, DRAM and operating points on units the device has leave the state as it is. -/
def Obligations.AStoppedDataPathDoesNothing : Prop :=
  ∀ (s : State), s.running = false →
    (∀ (c t : Nat) (w : Word), c < 128 → t < 16 →
      (∀ op, exec (.intArith c t w op) s = .next s) ∧ (∀ op, exec (.spStore c t w op) s = .next s) ∧ (∀ k, exec (.sig c t ⟨w, k⟩) s = .next s) ∧
      exec (.layer c t w) s = .next s ∧ (∀ w1, exec (.arrayCmd c t w w1) s = .next s) ∧ exec (.streamChunkStart c t) s = .next s) ∧
    (∀ c, c < 128 → exec (.arrayPassComplete c) s = .next s ∧ exec (.sampleComplete c) s = .next s ∧ exec (.bagDispatch c) s = .next s ∧
      exec (.streamAccept c) s = .next s) ∧
    (∀ id n, exec (.rowSectorsReturn id n) s = .next s ∧ exec (.sliceWrite id n) s = .next s) ∧
    (∀ q, q < 1024 → exec (.launch q) s = .next s ∧ exec (.patch q) s = .next s ∧ exec (.publish q) s = .next s ∧ exec (.completionPost q) s = .next s) ∧
    (∀ l, exec (.launchPlace l) s = .next s ∧ exec (.saveComplete l) s = .next s) ∧
    (∀ who, exec (.tlbWalkComplete who) s = .next s) ∧ exec .partCreate s = .next s ∧ exec .map s = .next s ∧ exec .groupCreate s = .next s ∧
    (∀ p, p < 8 → exec (.frameDeliver p) s = .next s ∧ exec (.waggleReceive p) s = .next s) ∧
    (∀ g a errs what, exec (.dramRead ⟨g, a⟩ errs false false false what) s = .next s) ∧ (∀ k, k < 16 → exec (.pointChangeComplete k) s = .next s)

/-- Byte i of a number written as n bytes is its bits [8i+7:8i], reading n bytes back gives the number modulo 256^n, wherever they stand in a list; bit 0 is the least significant; and bit i of the field [hi:lo] is bit lo+i, for every i up to hi − lo, and no further. -/
def Obligations.LittleEndianFields : Prop :=
  (∀ n x i, i < n → (bytesLE n x)[i]? = some (BitVec.ofNat 8 (x / 256 ^ i))) ∧
  (∀ (pre post : List Byte) n x, leAt (pre ++ bytesLE n x ++ post) pre.length n = x % 256 ^ n) ∧
  (∀ x, bitAt x 0 = decide (x % 2 = 1)) ∧
  (∀ x hi lo i, lo ≤ hi → bitAt (field x hi lo) i = (decide (i ≤ hi - lo) && bitAt x (lo + i)))

/-- A load or store of class 0x4 or 0x5 at an address that is no multiple of its size faults with code 0x02; an aligned class 0x4 access at or above 0x30_0000 faults with code 0x03: the fault is recorded, the launch ends with ILLEGAL_OP and no register changes, nor memory but by stores posted before. An aligned load inside the
scratchpad, in a line its role reaches, waits for the bytes at that offset of its own cell. An aligned store joins its thread's posted stores, the oldest of four landing first; a store that lands changes the bytes at that offset of its own cell alone. Before a load returns, and before a FENCE ends, the thread's posted stores land. -/
def Obligations.AccessesAreAlignedAndInRange : Prop :=
  (∀ (s : State) (c t : Nat) (w : Word) (l : Launch) (o : MemOp), Issues s c t w 4 4 l → o.log2 ≤ 3 →
    let a := memAddr ((s.thread c t).reg (wRs1 w)) w o.log2
    (a % 2 ^ o.log2 ≠ 0 →
      (∃ u, exec (.spLoad c t w (some o)) s = .next u ∧ FaultEnds s u c 2 t 4) ∧
      (o.sext = false → ∃ u, exec (.spStore c t w (some o)) s = .next u ∧ FaultEnds s u c 2 t 4)) ∧
    (a % 2 ^ o.log2 = 0 → 0x300000 ≤ a →
      (∃ u, exec (.spLoad c t w (some o)) s = .next u ∧ FaultEnds s u c 3 t 4) ∧
      (o.sext = false → ∃ u, exec (.spStore c t w (some o)) s = .next u ∧ FaultEnds s u c 3 t 4)) ∧
    (a % 2 ^ o.log2 = 0 → a < 0x300000 →
      (calReaches (s.cell c).calendar .scalarRd a (2 ^ o.log2) = true →
        ∃ u, exec (.spLoad c t w (some o)) s = .next u ∧ OnlyThread s u c t ∧ (u.thread c t).waits = .spLoad (wRd w) a (2 ^ o.log2) o.sext) ∧
      (calReaches (s.cell c).calendar .scalarWr a (2 ^ o.log2) = true → o.sext = false →
        let y := if (s.thread c t).spStores.length < 4 then s.cell c else (s.cell c).landOne t
        ∃ u, exec (.spStore c t w (some o)) s = .next u ∧ OnlyCell s u c ∧ (u.cell c).scratch = y.scratch ∧
          (u.thread c t).spStores = (y.thread t).spStores ++ [(a, bytesLE (2 ^ o.log2) ((s.thread c t).reg (wRd w)).toNat)] ∧
          (u.thread c t).regs = (s.thread c t).regs))) ∧
  (∀ (x : Cell) (t off : Nat) (bs : List Byte) (rest : List (Nat × List Byte)), (x.thread t).spStores = (off, bs) :: rest → x.scratch.wf = true →
    (∀ i, i < bs.length → bs[i]? = some ((x.landOne t).scratch.get (off + i))) ∧
    (∀ a, (a < off ∨ off + bs.length ≤ a) → (x.landOne t).scratch.get a = x.scratch.get a) ∧
    ((x.landOne t).thread t).spStores = rest ∧ (x.landOne t).scratch.wf = true ∧ x.landSp t = (x.landOne t).landSp t) ∧
  (∀ (s : State) (c t rd off n : Nat) (sx : Bool), OnThread s c t → (s.thread c t).waits = .spLoad rd off n sx → ((s.cell c).landSp t).spPoison off n = false →
    ∃ u, exec (.spLoadReturn c t) s = .next u ∧ OnlyCell s u c ∧ (u.cell c).scratch = ((s.cell c).landSp t).scratch ∧
      u.thread c t = { (s.thread c t).setReg rd (loadValue (((s.cell c).landSp t).scratch.read off n) sx) with
                       status := .running, waits := .nothing, spStores := [] }) ∧
  (∀ (s : State) (c t : Nat), OnThread s c t → (s.thread c t).waits = .fence → (s.thread c t).stores = [] →
    ∃ u, exec (.fenceComplete c t) s = .next u ∧ OnlyCell s u c ∧ (u.cell c).scratch = ((s.cell c).landSp t).scratch ∧
      u.thread c t = { s.thread c t with status := .running, waits := .nothing, spStores := [] }) ∧
  (∀ (s : State) (c t : Nat) (w : Word) (l : Launch) (o : MemOp), Issues s c t w 5 4 l → o.log2 ≤ 3 →
    memAddr ((s.thread c t).reg (wRs1 w)) w o.log2 % 2 ^ o.log2 ≠ 0 →
    (∃ u, exec (.vaLoad c t w (some o)) s = .next u ∧ FaultEnds s u c 2 t 5) ∧
    (o.sext = false → ∃ u, exec (.vaStore c t w (some o)) s = .next u ∧ FaultEnds s u c 2 t 5))

/-- After a SIG on a semaphore whose waiters are threads, the waiters granted are a first part of the line: each runs again and took its n, and the first of those left asks for more than the count that is left, so all behind it wait on. A thread that cannot be satisfied, or
finds others waiting, goes to the end of the line, whatever its n; so does an engine command with a start semaphore that reaches the head of its queue. -/
def Obligations.SemaphoresGrantInArrivalOrder : Prop :=
  (∀ (s : State) (c t i n : Nat) (w : Word) (l : Launch), Issues s c t w 6 4 l → wRd w = 0 → ((s.thread c t).reg (wRs1 w)).toNat = i → i ≤ 63 →
    ((s.thread c t).reg (wRs2 w)).toNat = n → 1 ≤ n → ((s.cell c).sem i).toNat + n ≤ 65535 →
    (∀ p ∈ (s.cell c).semWaiters i, ∃ k, p.1 = .thread k) →
    ∃ u k, exec (.sig c t ⟨w, true⟩) s = .next u ∧ OnlyCell s u c ∧
      let line := (s.cell c).semWaiters i
      (u.cell c).semWaiters i = line.drop k ∧
      ((u.cell c).sem i).toNat + ((line.take k).map (·.2)).sum = ((s.cell c).sem i).toNat + n ∧
      (∀ p, (line.drop k).head? = some p → ((u.cell c).sem i).toNat < p.2) ∧
      (∀ p ∈ line.take k, ∀ j, p.1 = .thread j → (u.thread c j).status = .running ∧ (u.thread c j).waits = .nothing) ∧
      (∀ j, j ≠ t → (∀ p ∈ line.take k, p.1 ≠ .thread j) → u.thread c j = s.thread c j)) ∧
  (∀ (s : State) (c t i n : Nat) (w : Word) (l : Launch), Issues s c t w 6 4 l → wRd w = 0 → ((s.thread c t).reg (wRs1 w)).toNat = i → i ≤ 63 →
    ((s.thread c t).reg (wRs2 w)).toNat = n → 1 ≤ n → n ≤ 65535 → (((s.cell c).sem i).toNat < n ∨ (s.cell c).semWaiters i ≠ []) →
    ∃ u, exec (.wait c t ⟨w, true⟩) s = .next u ∧ OnlyCell s u c ∧ (u.cell c).sem i = (s.cell c).sem i ∧
      (u.cell c).semWaiters i = (s.cell c).semWaiters i ++ [(.thread t, n)] ∧ (u.thread c t).status = .blocked) ∧
  (∀ (s : State) (c t : Nat) (w w1 : Word) (l : Launch), Issues s c t w 8 8 l → eEngine w = 1 → eLegal w w1 = true → eWaitEn w = true →
    let x := s.cell c
    let k := engineCmd x (s.thread c t) t w w1
    let i := eSemWait w1
    1 ≤ k.opB.toNat → k.opB.toNat ≤ 16777216 → calHasRole x.calendar .vecRd = true → x.equeue 1 = [] → x.sem i = 0#16 ∨ x.semWaiters i ≠ [] →
    (∀ p ∈ x.semWaiters i, p.1 ≠ .engine 1) →
    ∃ u, exec (.vectorCmd c t w w1) s = .next u ∧ (u.cell c).semWaiters i = x.semWaiters i ++ [(.engine 1, 1)] ∧ (u.cell c).equeue 1 = [k])

/-- A restart of the keeper by its watchdog or by command, and a loss of VAUX, leave QUARANTINED as it was and every cell without strikes. A write of QUARANTINED sets it to the value written; a cell whose bit it clears has no strikes and no quarantine pending; a cell whose bit alone it sets is
quarantined at once where no launch holds it, and else once the launch leaves. -/
def Obligations.QuarantineHoldsAcrossRestarts : Prop :=
  (∀ (s : State) (a b : ImageVerdict), s.keeperUp = true →
    ∃ u, exec (.keeperWatchdog a b) s = .next u ∧ u.quarantined = s.quarantined ∧ ∀ c, (u.healthOf c).strikes = []) ∧
  (∀ (s : State) (r : KdpRequest) (x : Session) (d : DictRow) (sub : Nat) (v : List Byte), KdpWrites s r x d 0x100B sub v →
    ∃ u, exec (.keeperRestart r) s = .next u ∧ u.quarantined = s.quarantined ∧ ∀ c, (u.healthOf c).strikes = []) ∧
  (∀ (s : State), ∃ u, exec .vauxLoss s = .next u ∧ u.quarantined = s.quarantined ∧ ∀ c, (u.healthOf c).strikes = []) ∧
  (∀ (s : State) (r : KdpRequest) (x : Session) (d : DictRow) (sub : Nat) (v : List Byte), KdpWrites s r x d 0x6057 sub v →
    (s.hourCommits (dkey 0x6057 sub)).length < 64 →
    ∃ u, exec (.quarantinedWrite r) s = .next u ∧ u.quarantined = BitVec.ofNat 128 (leNat v) ∧
      (∀ c, c < 128 → s.quarantined.getLsbD c = true → (BitVec.ofNat 128 (leNat v)).getLsbD c = false →
        (u.healthOf c).strikes = [] ∧ (u.healthOf c).pending = false) ∧
      (∀ c, c < 128 → s.quarantined.getLsbD c = false → BitVec.ofNat 128 (leNat v) = s.quarantined ||| (1#128 <<< c) →
        (u.healthOf c).pending = (s.cell c).launch.isSome))

/-- A word of a reserved class, or an undefined operation, faults with code 0x01 in a ready thread whose turn it is, its guard unread. A legal word whose guard is false has no effect but that the pc moves on. A word behind which the pc would leave the code faults with code 0x01. -/
def Obligations.IllegalWordsFaultAndFalseGuardsSkip : Prop :=
  (∀ (s : State) (c t : Nat) (w : Word) (l : Launch) (op : Option IntOp), ThreadReady s c t l → 0xB ≤ wClass w →
    ∃ u, exec (.intArith c t w op) s = .next u ∧ FaultEnds s u c 1 t (wClass w)) ∧
  (∀ (s : State) (c t : Nat) (w : Word) (l : Launch), ThreadReady s c t l → wClass w = 0 →
    ∃ u, exec (.intArith c t w none) s = .next u ∧ FaultEnds s u c 1 t 0) ∧
  (∀ (s : State) (c t : Nat) (w : Word) (l : Launch), ThreadReady s c t l → wClass w = 6 →
    ∃ u, exec (.sig c t ⟨w, false⟩) s = .next u ∧ FaultEnds s u c 1 t 6) ∧
  (∀ (s : State) (c t : Nat) (w : Word) (l : Launch), ThreadReady s c t l → (s.thread c t).guard w = false → l.inCode ((s.thread c t).pc.toNat + 4) = true →
    (∀ o, wClass w = 0 → ∃ u, exec (.intArith c t w (some o)) s = .next u ∧ OnlyThread s u c t ∧ u.thread c t = { s.thread c t with pc := (s.thread c t).pc + 4#32 }) ∧
    (wClass w = 3 → ∃ u, exec (.branch c t w) s = .next u ∧ OnlyThread s u c t ∧ u.thread c t = { s.thread c t with pc := (s.thread c t).pc + 4#32 }) ∧
    (∀ (o : MemOp), wClass w = 4 → o.log2 ≤ 3 → o.sext = false →
      (∃ u, exec (.spLoad c t w (some o)) s = .next u ∧ OnlyThread s u c t ∧ u.thread c t = { s.thread c t with pc := (s.thread c t).pc + 4#32 }) ∧
      (∃ u, exec (.spStore c t w (some o)) s = .next u ∧ OnlyThread s u c t ∧ u.thread c t = { s.thread c t with pc := (s.thread c t).pc + 4#32 })) ∧
    (∀ (o : MemOp), wClass w = 5 → o.log2 ≤ 3 → o.sext = false →
      (∃ u, exec (.vaLoad c t w (some o)) s = .next u ∧ OnlyThread s u c t ∧ u.thread c t = { s.thread c t with pc := (s.thread c t).pc + 4#32 }) ∧
      (∃ u, exec (.vaStore c t w (some o)) s = .next u ∧ OnlyThread s u c t ∧ u.thread c t = { s.thread c t with pc := (s.thread c t).pc + 4#32 }))) ∧
  (∀ (s : State) (c t : Nat) (w : Word) (l : Launch) (o : IntOp), ThreadReady s c t l → wClass w = 0 → l.inCode ((s.thread c t).pc.toNat + 4) = false →
    (s.thread c t).guard w = false → ∃ u, exec (.intArith c t w (some o)) s = .next u ∧ FaultEnds s u c 1 t 0)

/-- On a device whose DRAM holds no damaged codeword and owes no correction, a DRAM_WRITE of a whole granule outside a suspect region leaves exactly its bytes and its poison flag there, and every other byte and flag of DRAM as it was; the list form of memory stays canonical. A read of the granule then gives the bytes. -/
def Obligations.DramKeepsWhatWasWritten : Prop :=
  ∀ (s : State) (g : Nat) (bs : List Byte) (po : Bool), s.running = true → s.isDram (64 * g) = true → bs.length = 64 → s.dram.wf = true → s.damage = [] → s.fixups = [] →
    s.suspectSpan (64 * g) 64 = false →
    ∃ u, exec (.dramWrite (64 * g) bs po [] [] false false) s = .next u ∧ u.dram.wf = true ∧ u.dram.read (64 * g) 64 = bs ∧
      (∀ x, (x < 64 * g ∨ 64 * g + 64 ≤ x) → u.dram.get x = s.dram.get x) ∧ u.dram.hasPoison g = po ∧ (∀ k, k ≠ g → u.dram.hasPoison k = s.dram.hasPoison k) ∧
      (po = false → (u.memRead (64 * g) 64).1 = bs ∧ (u.memRead (64 * g) 64).2.1 = false) ∧ u.cells = s.cells

/-- An INT_ARITH, COMPARE_PREDICATE or DIVIDE_COMPLETE that issues answers a next state. Arithmetic puts the result of its operation
in rd; a divide or remainder blocks its thread with the result to come, and DIVIDE_COMPLETE puts it there. A compare or a
predicate operation writes predicate rd. s0 and p0 stay. Only that thread, the record of the last issuer and the counters change.
Completion: under its conditions on the state and the operands alone, exec answers a next state for each of `intArith`, `divideComplete`, `comparePredicate`. -/
def Obligations.ScalarResultsReachTheirRegister : Prop :=
  (∀ (s : State) (c t : Nat) (w : Word) (l : Launch) (o : IntOp), Issues s c t w 0 4 l →
    ∃ u, exec (.intArith c t w (some o)) s = .next u ∧ OnlyThread s u c t ∧
      let h := s.thread c t
      let v := intResult o (h.reg (wRs1 w)) (h.reg (wRs2 w))
      u.thread c t = (if intBlocks o then { h with pc := h.pc + 4#32, status := .blocked, waits := .divide (wRd w) v }
                      else ({ h with pc := h.pc + 4#32 }).setReg (wRd w) v)) ∧
  (∀ (s : State) (c t : Nat) (w : Word) (l : Launch) (o : IntOp), Issues s c t w 1 4 l →
    ∃ u, exec (.intArith c t w (some o)) s = .next u ∧ OnlyThread s u c t ∧
      let h := s.thread c t
      let v := intResult o (h.reg (wRs1 w)) (BitVec.ofInt 64 (wImm10 w))
      u.thread c t = (if intBlocks o then { h with pc := h.pc + 4#32, status := .blocked, waits := .divide (wRd w) v }
                      else ({ h with pc := h.pc + 4#32 }).setReg (wRd w) v)) ∧
  (∀ (s : State) (c t rd : Nat) (v : DWord), OnThread s c t → (s.thread c t).waits = .divide rd v →
    ∃ u, exec (.divideComplete c t) s = .next u ∧ OnlyThread s u c t ∧
      u.thread c t = { (s.thread c t).setReg rd v with status := .running, waits := .nothing }) ∧
  (∀ (s : State) (c t : Nat) (w : Word) (l : Launch) (k : Cmp), Issues s c t w 2 4 l → wRd w < 8 →
    ∃ u, exec (.comparePredicate c t w (some (.compare k))) s = .next u ∧ OnlyThread s u c t ∧
      let h := s.thread c t
      u.thread c t = ({ h with pc := h.pc + 4#32 }).setPred (wRd w) (cmpResult k (h.reg (wRs1 w)) (h.reg (wRs2 w)))) ∧
  (∀ (s : State) (c t : Nat) (w : Word) (l : Launch) (tt : BitVec 4), Issues s c t w 2 4 l → wRd w < 8 → wRs1 w < 8 → wRs2 w < 8 →
    ∃ u, exec (.comparePredicate c t w (some (.logic tt))) s = .next u ∧ OnlyThread s u c t ∧
      let h := s.thread c t
      u.thread c t = ({ h with pc := h.pc + 4#32 }).setPred (wRd w) (logicResult tt (h.pred (wRs1 w)) (h.pred (wRs2 w))))

/-- A BRANCH or an INDIRECT_JUMP that issues to a word of the variant's code answers a next state with the pc at its target; a
jump-and-link leaves the offset of the next word in rd. A SYSTEM_VALUE_READ leaves the value its operation selects in rd; for CYCLES that
is a count that is not below the last one read on the cell and whose growth is a free value (log entry 30). Only that thread, the
record of the last issuers, the counters and, for CYCLES, the cell's count and the free-value index change.
Completion: under its conditions on the state and the operands alone, exec answers a next state for each of `branch`, `indirectJump`, `systemValueRead`. -/
def Obligations.ControlTransfersMoveThePc : Prop :=
  (∀ (s : State) (c t : Nat) (w : Word) (l : Launch), Issues s c t w 3 4 l → 0 ≤ branchTarget (s.thread c t).pc w →
    l.inCode (branchTarget (s.thread c t).pc w).toNat = true →
    ∃ u, exec (.branch c t w) s = .next u ∧ OnlyThread s u c t ∧
      u.thread c t = { s.thread c t with pc := BitVec.ofNat 32 (branchTarget (s.thread c t).pc w).toNat }) ∧
  (∀ (s : State) (c t : Nat) (w : Word) (l : Launch), Issues s c t w 0xA 4 l → wRs2 w = 0 → wRd w = 0 →
    ((s.thread c t).reg (wRs1 w)).toNat % 4 = 0 → l.inCode ((s.thread c t).reg (wRs1 w)).toNat = true →
    ∃ u, exec (.indirectJump c t w (some .jump)) s = .next u ∧ OnlyThread s u c t ∧
      u.thread c t = { s.thread c t with pc := BitVec.ofNat 32 ((s.thread c t).reg (wRs1 w)).toNat }) ∧
  (∀ (s : State) (c t : Nat) (w : Word) (l : Launch), Issues s c t w 0xA 4 l → wRs2 w = 0 →
    ((s.thread c t).reg (wRs1 w)).toNat % 4 = 0 → l.inCode ((s.thread c t).reg (wRs1 w)).toNat = true →
    ∃ u, exec (.indirectJump c t w (some .jumpLink)) s = .next u ∧ OnlyThread s u c t ∧
      let h := s.thread c t
      u.thread c t = { h.setReg (wRd w) ((h.pc + 4#32).setWidth 64) with pc := BitVec.ofNat 32 (h.reg (wRs1 w)).toNat }) ∧
  (∀ (s : State) (c t : Nat) (w : Word) (l : Launch) (v : DWord), Issues s c t w 9 4 l → wRs1 w = 0 → wRs2 w = 0 →
    s.systemValue c t (wOpR w) l = some v → wOpR w ≠ 6 →
    ∃ u, exec (.systemValueRead c t w) s = .next u ∧ OnlyThread s u c t ∧
      u.thread c t = ({ s.thread c t with pc := (s.thread c t).pc + 4#32 }).setReg (wRd w) v) ∧
  (∀ (s : State) (c t : Nat) (w : Word) (l : Launch), Issues s c t w 9 4 l → wRs1 w = 0 → wRs2 w = 0 → wOpR w = 6 →
    let v := countOn (s.cell c).cycles s.free
    (s.cell c).cycles.toNat ≤ v.toNat ∧
    ∃ u, exec (.systemValueRead c t w) s = .next u ∧ OnlyCell s { u with free := s.free } c ∧ u.free = s.free + 1 ∧ (u.cell c).cycles = v ∧
      u.thread c t = ({ s.thread c t with pc := (s.thread c t).pc + 4#32 }).setReg (wRd w) v ∧ ∀ k, k ≠ t → u.thread c k = s.thread c k)

/-- An SP_LOAD of an aligned address that its role reaches blocks its thread; SP_LOAD_RETURN, behind the thread's own posted stores, of
unpoisoned bytes puts their value in rd and lets the thread go on. An SP_STORE posts the low bytes of rd, a fifth once the oldest has
landed; DRAM and every other cell stand. A load that returns behind one posted store finds its bytes; every other byte of the scratchpad stands.
Completion: under its conditions on the state and the operands alone, exec answers a next state for each of `spLoad`, `spLoadReturn`, `spStore`. -/
def Obligations.ScratchpadLoadsAndStores : Prop :=
  (∀ (s : State) (c t : Nat) (w : Word) (l : Launch) (o : MemOp), Issues s c t w 4 4 l → o.log2 ≤ 3 →
    (s.cell c).spFault .scalarRd (memAddr ((s.thread c t).reg (wRs1 w)) w o.log2) (2 ^ o.log2) = none →
    ∃ u, exec (.spLoad c t w (some o)) s = .next u ∧ OnlyThread s u c t ∧
      let h := s.thread c t
      u.thread c t = { h with pc := h.pc + 4#32, status := .blocked,
                              waits := .spLoad (wRd w) (memAddr (h.reg (wRs1 w)) w o.log2) (2 ^ o.log2) o.sext }) ∧
  (∀ (s : State) (c t rd off n : Nat) (sx : Bool), OnThread s c t → (s.thread c t).waits = .spLoad rd off n sx →
    (s.thread c t).spStores = [] → (s.cell c).spPoison off n = false →
    ∃ u, exec (.spLoadReturn c t) s = .next u ∧ OnlyThread s u c t ∧
      u.thread c t = { (s.thread c t).setReg rd (loadValue ((s.cell c).scratch.read off n) sx) with
                       status := .running, waits := .nothing }) ∧
  (∀ (s : State) (c t rd off a : Nat) (bs : List Byte) (sx : Bool), OnThread s c t → (s.thread c t).waits = .spLoad rd off bs.length sx →
    (s.thread c t).spStores = [(a, bs)] → (s.cell c).scratch.wf = true → ((s.cell c).landSp t).spPoison off bs.length = false →
    ∃ u, exec (.spLoadReturn c t) s = .next u ∧ OnlyCell s u c ∧ (u.thread c t).spStores = [] ∧ (u.thread c t).status = .running ∧
      (off = a → (u.thread c t).regs = ((s.thread c t).setReg rd (loadValue bs sx)).regs) ∧
      (∀ x, (x < a ∨ a + bs.length ≤ x) → (u.cell c).scratch.get x = (s.cell c).scratch.get x)) ∧
  (∀ (s : State) (c t : Nat) (w : Word) (l : Launch) (o : MemOp), Issues s c t w 4 4 l → o.log2 ≤ 3 → o.sext = false →
    (s.cell c).spFault .scalarWr (memAddr ((s.thread c t).reg (wRs1 w)) w o.log2) (2 ^ o.log2) = none →
    let h := s.thread c t
    let p := (memAddr (h.reg (wRs1 w)) w o.log2, bytesLE (2 ^ o.log2) (h.reg (wRd w)).toNat)
    (h.spStores.length < 4 → ∃ u, exec (.spStore c t w (some o)) s = .next u ∧ OnlyThread s u c t ∧
      u.thread c t = { h with pc := h.pc + 4#32, spStores := h.spStores ++ [p] }) ∧
    (4 ≤ h.spStores.length → ∃ u, exec (.spStore c t w (some o)) s = .next u ∧ OnlyCell s u c ∧
      (u.cell c).scratch = ((s.cell c).landOne t).scratch ∧ u.thread c t = { h with pc := h.pc + 4#32, spStores := h.spStores.drop 1 ++ [p] }))

/-- A VA_LOAD that its TLB translates into DRAM blocks its thread with the physical address, one that misses starts a walk; a clean
VA_LOAD_RETURN puts the bytes' value in rd. A VA_STORE that translates is outstanding with its physical address. A FENCE blocks its thread
until FENCE_COMPLETE has made its stores visible: the bytes of one that is translated read back from DRAM and every other byte stands. An
ICACHE_MISS_FILL is the miss, which blocks a ready thread alone, or the fill: clean code that the TLB translates lets the thread go on.
No stack that is reached is in throttle stage 3 (R37).
Completion: under its conditions on the state and the operands alone, exec answers a next state for each of `vaLoad`, `vaLoadReturn`, `vaStore`, `fence`,
`fenceComplete`, `icacheMissFill`. -/
def Obligations.VirtualLoadsAndStores : Prop :=
  (∀ (s : State) (c t pa : Nat) (w : Word) (l : Launch) (o : MemOp), Issues s c t w 5 4 l → o.log2 ≤ 3 →
    let h := s.thread c t
    let va := memAddr (h.reg (wRs1 w)) w o.log2
    va % 2 ^ o.log2 = 0 → s.xlate (tlbCell c) l.context va .read = .hit pa → isWindow pa = false →
    ∃ u, exec (.vaLoad c t w (some o)) s = .next u ∧
      u.thread c t = { h with pc := h.pc + 4#32, status := .blocked,
                              waits := .vaLoad (wRd w) va (2 ^ o.log2) o.sext (some pa) } ∧
      u = { s with cells := u.cells, counters := u.counters, tlbs := u.tlbs }) ∧
  (∀ (s : State) (c t : Nat) (w : Word) (l : Launch) (o : MemOp), Issues s c t w 5 4 l → o.log2 ≤ 3 →
    let h := s.thread c t
    let va := memAddr (h.reg (wRs1 w)) w o.log2
    va % 2 ^ o.log2 = 0 → s.xlate (tlbCell c) l.context va .read = .walk →
    ∃ u, exec (.vaLoad c t w (some o)) s = .next u ∧
      u.thread c t = { h with pc := h.pc + 4#32, status := .blocked,
                              waits := .vaLoad (wRd w) va (2 ^ o.log2) o.sext none } ∧ u.dram = s.dram) ∧
  (∀ (s : State) (c t rd va n pa : Nat) (sx : Bool), OnThread s c t → (s.thread c t).waits = .vaLoad rd va n sx (some pa) →
    isWindow pa = false → s.stackOpen pa = true → (s.thread c t).stores = [] → (s.memRead pa n).2.1 = false →
    ∃ u, exec (.vaLoadReturn c t) s = .next u ∧ OnlyThread s u c t ∧
      u.thread c t = { (s.thread c t).setReg rd (loadValue (s.memRead pa n).1 sx) with status := .running, waits := .nothing }) ∧
  (∀ (s : State) (c t pa : Nat) (w : Word) (l : Launch) (o : MemOp), Issues s c t w 5 4 l → o.log2 ≤ 3 → o.sext = false →
    let h := s.thread c t
    let va := memAddr (h.reg (wRs1 w)) w o.log2
    va % 2 ^ o.log2 = 0 → h.stores.length < 8 → s.xlate (tlbCell c) l.context va .write = .hit pa → isWindow pa = false →
    ∃ u, exec (.vaStore c t w (some o)) s = .next u ∧
      u.thread c t = { h with pc := h.pc + 4#32, stores := h.stores ++ [{ va := va, bytes := bytesLE (2 ^ o.log2) (h.reg (wRd w)).toNat,
                                                                          pa := some pa, window := none }] } ∧
      u = { s with cells := u.cells, counters := u.counters, tlbs := u.tlbs }) ∧
  (∀ (s : State) (c t : Nat) (w : Word) (l : Launch), Issues s c t w 9 4 l → wRd w = 0 → wRs1 w = 0 → wRs2 w = 0 →
    ∃ u, exec (.fence c t w) s = .next u ∧ OnlyThread s u c t ∧
      u.thread c t = { s.thread c t with pc := (s.thread c t).pc + 4#32, status := .blocked, waits := .fence }) ∧
  (∀ (s : State) (c t : Nat), OnThread s c t → (s.thread c t).waits = .fence → (s.thread c t).stores = [] →
    ∃ u, exec (.fenceComplete c t) s = .next u ∧ OnlyCell s u c ∧ (u.cell c).scratch = ((s.cell c).landSp t).scratch ∧
      u.thread c t = { s.thread c t with status := .running, waits := .nothing, spStores := [] }) ∧
  (∀ (s : State) (c t pa : Nat) (v : PostedStore), OnThread s c t → (s.thread c t).waits = .fence → (s.thread c t).stores = [v] → v.pa = some pa →
    s.stackOpen pa = true → s.dram.wf = true → s.damage = [] → s.fixups = [] → (∀ g ∈ partGranules pa v.bytes.length, s.dram.hasPoison g = false) →
    ∃ u, exec (.fenceComplete c t) s = .next u ∧
      u.thread c t = { s.thread c t with status := .running, waits := .nothing, spStores := [], stores := [] } ∧
      (∀ i, i < v.bytes.length → v.bytes[i]? = some (u.dram.get (pa + i))) ∧
      (∀ x, (x < pa ∨ pa + v.bytes.length ≤ x) → u.dram.get x = s.dram.get x) ∧
      u = { s with cells := u.cells, dict := u.dict, counters := u.counters, dram := u.dram, struck := u.struck }) ∧
  (∀ (s : State) (c k off id : Nat) (l : Launch), OnCell s c → s.activeLaunch c = some (id, l) → l.inCode (off / 64 * 64) = true →
    (s.thread c k).status = .running →
    ∃ u, exec (.icacheMissFill c (some k) off) s = .next u ∧ OnlyThread s u c k ∧
      u.thread c k = { s.thread c k with status := .blocked, waits := .fetch (l.imageBase + off / 64 * 64) }) ∧
  (∀ (s : State) (c k off pa id : Nat) (l : Launch), OnCell s c → s.activeLaunch c = some (id, l) → l.inCode (off / 64 * 64) = true →
    (s.thread c k).status ≠ .running → (s.thread c k).waits = .fetch (l.imageBase + off / 64 * 64) →
    s.xlate (tlbCell c) l.context (l.imageBase + off / 64 * 64) .fetch = .hit pa → s.populated pa = true → s.stackOpen pa = true →
    (s.memRead pa 64).2.1 = false →
    ∃ u, exec (.icacheMissFill c (some k) off) s = .next u ∧
      u.thread c k = { s.thread c k with status := .running, waits := .nothing } ∧ u = { s with cells := u.cells, tlbs := u.tlbs })

/-- A SIG that no waiter awaits adds n to the count of semaphore s[rs1]. A WAIT that the count covers takes n and the thread goes on;
one that must wait blocks the thread behind every earlier waiter with the count untouched. A TRY takes n and sets its predicate exactly
when a WAIT would have been granted. A SEM_READ puts the count in rd. Each moves the pc on and changes only its cell and the counters.
Completion: under its conditions on the state and the operands alone, exec answers a next state for each of `sig`, `wait`, `tryOp`, `semRead`. -/
def Obligations.SemaphoreOperations : Prop :=
  (∀ (s : State) (c t i n : Nat) (w : Word) (l : Launch), Issues s c t w 6 4 l → wRd w = 0 → ((s.thread c t).reg (wRs1 w)).toNat = i → i ≤ 63 →
    ((s.thread c t).reg (wRs2 w)).toNat = n → 1 ≤ n → ((s.cell c).sem i).toNat + n ≤ 65535 → (s.cell c).semWaiters i = [] →
    ∃ u, exec (.sig c t ⟨w, true⟩) s = .next u ∧ OnlyCell s u c ∧ ((u.cell c).sem i).toNat = ((s.cell c).sem i).toNat + n ∧
      (∀ j, j ≠ i → (u.cell c).sem j = (s.cell c).sem j) ∧ u.thread c t = { s.thread c t with pc := (s.thread c t).pc + 4#32 }) ∧
  (∀ (s : State) (c t i n : Nat) (w : Word) (l : Launch), Issues s c t w 6 4 l → wRd w = 0 → ((s.thread c t).reg (wRs1 w)).toNat = i → i ≤ 63 →
    ((s.thread c t).reg (wRs2 w)).toNat = n → 1 ≤ n → n ≤ ((s.cell c).sem i).toNat → (s.cell c).semWaiters i = [] →
    (s.thread c t).waits = .nothing →
    ∃ u, exec (.wait c t ⟨w, true⟩) s = .next u ∧ OnlyCell s u c ∧ ((u.cell c).sem i).toNat = ((s.cell c).sem i).toNat - n ∧
      u.thread c t = { s.thread c t with pc := (s.thread c t).pc + 4#32 }) ∧
  (∀ (s : State) (c t i n : Nat) (w : Word) (l : Launch), Issues s c t w 6 4 l → wRd w = 0 → ((s.thread c t).reg (wRs1 w)).toNat = i → i ≤ 63 →
    ((s.thread c t).reg (wRs2 w)).toNat = n → 1 ≤ n → n ≤ 65535 → (((s.cell c).sem i).toNat < n ∨ (s.cell c).semWaiters i ≠ []) →
    ∃ u, exec (.wait c t ⟨w, true⟩) s = .next u ∧ OnlyCell s u c ∧ (u.cell c).sem i = (s.cell c).sem i ∧
      (u.cell c).semWaiters i = (s.cell c).semWaiters i ++ [(.thread t, n)] ∧
      u.thread c t = { s.thread c t with pc := (s.thread c t).pc + 4#32, status := .blocked, waits := .semaphore i n }) ∧
  (∀ (s : State) (c t i n : Nat) (w : Word) (l : Launch), Issues s c t w 6 4 l → wRd w < 8 → ((s.thread c t).reg (wRs1 w)).toNat = i → i ≤ 63 →
    ((s.thread c t).reg (wRs2 w)).toNat = n → n ≤ 65535 →
    ∃ u, exec (.tryOp c t ⟨w, true⟩) s = .next u ∧ OnlyCell s u c ∧
      let ok := decide ((s.cell c).semWaiters i = [] ∧ n ≤ ((s.cell c).sem i).toNat)
      ((u.cell c).sem i).toNat = ((s.cell c).sem i).toNat - (if ok then n else 0) ∧
      u.thread c t = ({ s.thread c t with pc := (s.thread c t).pc + 4#32 }).setPred (wRd w) ok) ∧
  (∀ (s : State) (c t i : Nat) (w : Word) (l : Launch), Issues s c t w 6 4 l → wRs2 w = 0 → ((s.thread c t).reg (wRs1 w)).toNat = i → i ≤ 63 →
    ∃ u, exec (.semRead c t ⟨w, true⟩) s = .next u ∧ OnlyThread s u c t ∧
      u.thread c t = ({ s.thread c t with pc := (s.thread c t).pc + 4#32 }).setReg (wRd w) (((s.cell c).sem i).setWidth 64))

/-- TSPAWN of an idle thread starts it at the given word of the code with its registers 0 and its predicates false but p0; the issuing
thread goes on. TEXIT makes its own thread IDLE and, while another thread of the cell still runs, ends nothing. Only the cell and the
counters change.
Completion: under its conditions on the state and the operands alone, exec answers a next state for each of `tspawn`, `texit`. -/
def Obligations.ThreadsStartAndEnd : Prop :=
  (∀ (s : State) (c t n off : Nat) (w : Word) (l : Launch), Issues s c t w 7 4 l → wRd w = 0 → ((s.thread c t).reg (wRs1 w)).toNat = n → n ≤ 15 →
    ((s.thread c t).reg (wRs2 w)).toNat = off → (s.thread c n).status = .idle → off % 4 = 0 → l.inCode off = true →
    ∃ u, exec (.tspawn c t ⟨w, true⟩) s = .next u ∧ OnlyCell s u c ∧ (u.thread c n).status = .running ∧ (u.thread c n).pc = BitVec.ofNat 32 off ∧
      (∀ r, (u.thread c n).reg r = 0#64) ∧ (∀ p, p < 8 → (u.thread c n).pred p = decide (p = 0)) ∧
      u.thread c t = { s.thread c t with pc := (s.thread c t).pc + 4#32 }) ∧
  (∀ (s : State) (c t k : Nat) (w : Word) (l : Launch), Issues s c t w 7 4 l → wRd w = 0 → wRs1 w = 0 → wRs2 w = 0 → k ≠ t →
    (∃ h, (k, h) ∈ (s.cell c).threads ∧ h.status = .running ∧ h.waits = .nothing) →
    ∃ u, exec (.texit c t ⟨w, true⟩) s = .next u ∧ OnlyThread s u c t ∧ u.thread c t = { s.thread c t with status := .idle, waits := .nothing } ∧
      (u.cell c).launch = (s.cell c).launch)

/-- An ARRAY_CMD, VECTOR_CMD, STREAM_CMD, BAG_CMD or SAMPLE_CMD without a start semaphore, whose operands are in range and whose roles
hold calendar slots, joins the end of its engine's queue with the register values read at issue, where the queue has room; the thread
goes on behind the two words. DRAM, every other cell and every other queue stand.
Completion: under its conditions on the state and the operands alone, exec answers a next state for each of `arrayCmd`, `vectorCmd`, `streamCmd`, `bagCmd`,
`sampleCmd`. -/
def Obligations.EngineCommandsJoinTheirQueue : Prop :=
  (∀ (s : State) (c t : Nat) (w w1 : Word) (l : Launch), Issues s c t w 8 8 l → eEngine w = 0 → eLegal w w1 = true → eWaitEn w = false →
    let x := s.cell c
    let k := engineCmd x (s.thread c t) t w w1
    aImmLegal k.imm = true → aLoadOnly k.imm = false → (aEw k.imm && (aEwOp k.imm == 3 || aWload k.imm)) = false → k.opA.toNat % 64 = 0 → k.opA.toNat + 128 ≤ scratchBytes →
    1 ≤ k.opB.toNat → k.opB.toNat ≤ 65535 → calHasRole x.calendar .arrayWt = true → calHasRole x.calendar .arrayAct = true →
    calHasRole x.calendar .arrayOut = true → (x.equeue 0).length < 8 →
    ∃ u, exec (.arrayCmd c t w w1) s = .next u ∧ (u.cell c).equeue 0 = x.equeue 0 ++ [k] ∧ (∀ e, e ≠ 0 → (u.cell c).equeue e = x.equeue e) ∧
      u.thread c t = { s.thread c t with pc := (s.thread c t).pc + 8#32 } ∧ u.dram = s.dram ∧ ∀ d, d ≠ c → u.cell d = s.cell d) ∧
  (∀ (s : State) (c t : Nat) (w w1 : Word) (l : Launch), Issues s c t w 8 8 l → eEngine w = 1 → eLegal w w1 = true → eWaitEn w = false →
    let x := s.cell c
    let k := engineCmd x (s.thread c t) t w w1
    1 ≤ k.opB.toNat → k.opB.toNat ≤ 16777216 → calHasRole x.calendar .vecRd = true → (x.equeue 1).length < 8 →
    ∃ u, exec (.vectorCmd c t w w1) s = .next u ∧ (u.cell c).equeue 1 = x.equeue 1 ++ [k] ∧ (∀ e, e ≠ 1 → (u.cell c).equeue e = x.equeue e) ∧
      u.thread c t = { s.thread c t with pc := (s.thread c t).pc + 8#32 } ∧ u.dram = s.dram ∧ ∀ d, d ≠ c → u.cell d = s.cell d) ∧
  (∀ (s : State) (c t : Nat) (w w1 : Word) (l : Launch), Issues s c t w 8 8 l → eEngine w = 2 → eLegal w w1 = true → eWaitEn w = false →
    let x := s.cell c
    let k := engineCmd x (s.thread c t) t w w1
    eImm w1 = 0#24 → eSb w = 0 → calHasRole x.calendar .egress = true → (x.equeue 2).length < 16 →
    ∃ u, exec (.streamCmd c t w w1) s = .next u ∧ (u.cell c).equeue 2 = x.equeue 2 ++ [k] ∧ (∀ e, e ≠ 2 → (u.cell c).equeue e = x.equeue e) ∧
      u.thread c t = { s.thread c t with pc := (s.thread c t).pc + 8#32 } ∧ u.dram = s.dram ∧ ∀ d, d ≠ c → u.cell d = s.cell d) ∧
  (∀ (s : State) (c t : Nat) (w w1 : Word) (l : Launch), Issues s c t w 8 8 l → eEngine w = 3 → eLegal w w1 = true → eWaitEn w = false →
    let x := s.cell c
    let k := engineCmd x (s.thread c t) t w w1
    1 ≤ field k.opB.toNat 31 0 → field k.opB.toNat 31 0 ≤ 65536 → calHasRole x.calendar .ingress = true → (x.equeue 3).length < 32 →
    ∃ u, exec (.bagCmd c t w w1) s = .next u ∧ (u.cell c).equeue 3 = x.equeue 3 ++ [k] ∧ (∀ e, e ≠ 3 → (u.cell c).equeue e = x.equeue e) ∧
      u.thread c t = { s.thread c t with pc := (s.thread c t).pc + 8#32 } ∧ u.dram = s.dram ∧ ∀ d, d ≠ c → u.cell d = s.cell d) ∧
  (∀ (s : State) (c t : Nat) (w w1 : Word) (l : Launch), Issues s c t w 8 8 l → eEngine w = 4 → eLegal w w1 = true → eWaitEn w = false →
    let x := s.cell c
    let k := engineCmd x (s.thread c t) t w w1
    eImm w1 = 0#24 → 1 ≤ k.opB.toNat → k.opB.toNat ≤ 1048576 → calHasRole x.calendar .auxRd = true → calHasRole x.calendar .auxWr = true →
    (x.equeue 4).length < 2 →
    ∃ u, exec (.sampleCmd c t w w1) s = .next u ∧ (u.cell c).equeue 4 = x.equeue 4 ++ [k] ∧ (∀ e, e ≠ 4 → (u.cell c).equeue e = x.equeue e) ∧
      u.thread c t = { s.thread c t with pc := (s.thread c t).pc + 8#32 } ∧ u.dram = s.dram ∧ ∀ d, d ≠ c → u.cell d = s.cell d)

/-- A LAYER or LAYERW blocks its thread at the barrier, its operands kept. When the last thread has arrived and the cell is drained,
LAYER_DRAIN_DONE of a LAYER with a valid, unpoisoned calendar block and no posted store loads it and raises the layer count, and the waiting threads go on where no
pre-emption mark stands. LAYERW_VERDICT with every rank's vote in clears the votes, counts a replay exactly where some cell tripped, loads
on every cell the calendar it chooses, clears the trip bit, and lets the waiting threads go on with the verdict in their predicate.
ENGINE_SAFE_POINT_ABANDON on a cell whose launch has ended drops the engine's queued commands.
Completion: under its conditions on the state and the operands alone, exec answers a next state for each of `layer`, `layerDrainDone`, `layerw`,
`layerwVerdict`, `engineSafePointAbandon`. -/
def Obligations.LayerBoundaries : Prop :=
  (∀ (s : State) (c t : Nat) (w : Word) (l : Launch), Issues s c t w 9 4 l → wRd w = 0 → wRs2 w = 0 →
    ∃ u, exec (.layer c t w) s = .next u ∧ OnlyCell s u c ∧
      u.thread c t = { s.thread c t with pc := (s.thread c t).pc + 4#32, status := .blocked,
                                         waits := .layer (s.thread c t).pc.toNat ((s.thread c t).reg (wRs1 w)).toNat }) ∧
  (∀ (s : State) (c t : Nat) (w : Word) (l : Launch), Issues s c t w 9 4 l → wRd w < 8 →
    ∃ u, exec (.layerw c t w) s = .next u ∧ OnlyCell s u c ∧
      let h := s.thread c t
      u.thread c t = { h with pc := h.pc + 4#32, status := .blocked,
                              waits := .layerW h.pc.toNat (h.reg (wRs1 w)).toNat (h.reg (wRs2 w)).toNat (wRd w) }) ∧
  (∀ (s : State) (c t site off : Nat), OnCell s c → (s.cell c).layer = .draining t → s.cellActive c = true → (s.cell c).drained = true →
    ((s.cell c).thread t).waits = .layer site off → (s.cell c).quant.trip = false → off + 64 ≤ scratchBytes → (s.cell c).spPoison off 64 = false →
    calValid (calOfBytes ((s.cell c).scratch.read off 64)) = true → (s.cell c).mark = .none → (∀ k, (s.thread c k).spStores = []) →
    ∃ u, exec (.layerDrainDone c) s = .next u ∧ (u.cell c).calendar = calOfBytes ((s.cell c).scratch.read off 64) ∧
      (u.cell c).layerCount = (s.cell c).layerCount + 1#14 ∧ (u.cell c).layer = .running ∧ u.dram = s.dram ∧
      (u.cell c).scratch = (s.cell c).scratch ∧ ∀ d, d ≠ c → u.cell d = s.cell d) ∧
  (∀ (s : State) (l : Nat) (x : Launch), s.running = true → s.launch? l = some x → x.cells ≠ [] → x.cells.Nodup →
    (∀ r, r < x.cells.length → r ∈ x.votes) → (∀ c ∈ x.cells, ∃ t off p, VoteReady s x.tripped c t off p) →
    ∃ u, exec (.layerwVerdict l) s = .next u ∧
      u.launch? l = some { x with votes := [], tripped := false, replayed := if x.tripped then satAdd 8 x.replayed 1 else x.replayed } ∧
      ∀ c ∈ x.cells, ∀ t off p, VoteReady s x.tripped c t off p →
        (u.cell c).layer = .running ∧ (u.cell c).quant.trip = false ∧ (u.cell c).calendar = calOfBytes ((s.cell c).scratch.read off 64) ∧
        (u.cell c).layerCount = (s.cell c).layerCount + 1#14 ∧ (u.thread c t).status = .running ∧
        (p ≠ 0 → p < 8 → (u.thread c t).pred p = x.tripped)) ∧
  (∀ (s : State) (c e rows : Nat), OnCell s c → e ≤ 4 → s.cellEnded c = true →
    ∃ u, exec (.engineSafePointAbandon c e rows) s = .next u ∧ (u.cell c).equeue e = [] ∧
      (∀ d, d ≠ e → (u.cell c).equeue d = (s.cell c).equeue d) ∧ u.dram = s.dram)

/-- A startable pass whose blocks are sound joins the passes in flight; ARRAY_PASS_COMPLETE writes the rows of the oldest unwritten pass,
sets the checksum to the CRC of the bytes it wrote, and sets the trip bit where the clips pass the threshold. A LOAD_ONLY joins the weight loader;
WEIGHT_LOAD_COMPLETE moves the tile at the loader's head into its register with its class, and at most clears the residency tag where it
read poison (R253). RAMP_DOWN of an idle array lowers the active columns. DRAM and every other cell stand. How far a row's outputs trail its
entry is the model's choice (log entry 17).
Completion: under its conditions on the state and the operands alone, exec answers a next state for each of `arrayPassStart`, `arrayPassComplete`, `loadOnly`,
`weightLoadComplete`, `rampDown`. -/
def Obligations.MatrixArrayPasses : Prop :=
  (∀ (s : State) (c : Nat) (sampled : Bool) (k : EngineCmd) (p : ArrayPass), CellWorks s c → (s.cell c).head 0 = some k → aLoadOnly k.imm = false →
    (s.cell c).mayStart k = true → (s.cell c).passGate k (s.cell c).tbFreeForArray = .go p →
    ∃ u, exec (.arrayPassStart c sampled) s = .next u ∧ (∃ pick, (u.cell c).array = ((s.cell c).startPass { p with sampled := pick }).array) ∧
      (u.cell c).scratch = (s.cell c).scratch ∧ u.dram = s.dram ∧ ∀ d, d ≠ c → u.cell d = s.cell d) ∧
  (∀ (s : State) (c : Nat) (p : ArrayPass), CellWorks s c → ThreadRuns s c → (s.cell c).array.passes.find? (fun q => !q.written) = some p →
    p.cmd.doneEn = false →
    ∃ u, exec (.arrayPassComplete c) s = .next u ∧
      let x := s.cell c
      let y := x.writeRows (s.genKeyOn c) c x.genSteps s.free p (x.passFlags p) p.cmd.opB.toNat
      (u.cell c).scratch = y.1.scratch ∧ (u.cell c).tbufs = y.1.tbufs ∧ (u.cell c).array.checksum = crc64 (y.1.passBytes p) ∧
      (u.cell c).quant.trip = (passTrips p y.2 || y.1.quant.trip) ∧ u.dram = s.dram ∧ ∀ d, d ≠ c → u.cell d = s.cell d) ∧
  (∀ (s : State) (c : Nat) (k : EngineCmd) (b : List Byte), CellWorks s c → (s.cell c).head 0 = some k → aLoadOnly k.imm = true → (s.cell c).mayStart k = true →
    (s.cell c).ctl .arrayWt k.opA.toNat 64 = .ok b → (s.cell c).spPoison k.opA.toNat 64 = false → operandFmt (pbWtFmt b) = true → pbWtOff b % 256 = 0 →
    pbWtOff b + tileBytes (pbWtFmt b) ≤ scratchBytes → calReaches (s.cell c).calendar .arrayWt (pbWtOff b) (tileBytes (pbWtFmt b)) = true →
    ∃ u, exec (.loadOnly c) s = .next u ∧
      (u.cell c).array = { (s.cell c).array with loader := (s.cell c).array.loader ++
        [{ reg := aWsel k.imm, off := pbWtOff b, fmt := pbWtFmt b, only := some k, pass := none }] } ∧
      (u.cell c).scratch = (s.cell c).scratch ∧ u.dram = s.dram ∧ ∀ d, d ≠ c → u.cell d = s.cell d) ∧
  (∀ (s : State) (c : Nat) (l : LoadReq) (rest : List LoadReq), CellWorks s c → (s.cell c).array.loader = l :: rest → l.only = none → l.pass = none →
    ∃ u, exec (.weightLoadComplete c) s = .next u ∧ OnlyCell s u c ∧ (u.cell c).array.loader = rest ∧
      tabFind (u.cell c).array.wregs l.reg = some (WReg.mk ((s.cell c).scratch.read l.off (tileBytes l.fmt)) (some (fmtClass l.fmt))
        ((s.cell c).spPoison l.off (tileBytes l.fmt)) ((s.cell c).spSuspect l.off (tileBytes l.fmt)))) ∧
  (∀ (s : State) (c : Nat) (l : LoadReq) (k : EngineCmd) (rest : List LoadReq), CellWorks s c → ThreadRuns s c → (s.cell c).array.loader = l :: rest →
    l.only = some k → k.doneEn = false →
    ∃ u, exec (.weightLoadComplete c) s = .next u ∧ OnlyCell s u c ∧ u.cell c = { (s.cell c).finishLoad l with residency := (u.cell c).residency } ∧
      ((u.cell c).residency = (s.cell c).residency ∨ (u.cell c).residency = none)) ∧
  (∀ (s : State) (c cols : Nat), OnCell s c → (s.cell c).arrayRampIdle = true → cols < (s.cell c).array.actCols →
    ∃ u, exec (.rampDown c cols) s = .next u ∧ OnlyCell s u c ∧
      u.cell c = { s.cell c with array := { (s.cell c).array with actCols := cols } })

/-- A VECTOR_COMMAND_START with a sound block starts the engine at strip 0. Float and integer operations write the enabled elements of vd;
compares and mask logic write mask vd below 7; line loads, tile loads, conversions, cross-lane operations and random draws write vd, and
DRAM stands throughout. VNEXT takes the next strip, VEND writes the held partial lines and ends the program, VECTOR_COMPLETE without a count record frees
the engine and ORs the lane flags into its thread's sticky word.
Completion: under its conditions on the state and the operands alone, exec answers a next state for each of `vectorCommandStart`, `vecFloatOp`, `vecIntOp`,
`vecCompare`, `vecScratchAccess`, `vecTileAccess`, `vecConvert`, `vecCrossLane`, `vecRandomDraw`, `vnext`, `vend`, `vectorComplete`. -/
def Obligations.VectorInstructions : Prop :=
  (∀ (s : State) (c : Nat) (k : EngineCmd), CellWorks s c → (s.cell c).head 1 = some k → (s.cell c).vec.cmd = none → (s.cell c).mayStart k = true →
    k.opA.toNat % 128 = 0 → k.opA.toNat + 128 ≤ scratchBytes → calReaches (s.cell c).calendar .vecRd k.opA.toNat 128 = true →
    (s.cell c).spPoison k.opA.toNat 128 = false →
    let b := (s.cell c).scratch.read k.opA.toNat 128
    vecRsvOk b = true → vecBlockOk b = true → (∀ t, t < 4 → bitAt (vbTbUse b) t = true → (s.cell c).tbFreeForVector t = true) →
    ∃ u, exec (.vectorCommandStart c) s = .next u ∧ (u.cell c).vec = VecState.start k b s.free ∧ (u.cell c).scratch = (s.cell c).scratch ∧ u.dram = s.dram) ∧
  (∀ (s : State) (c : Nat) (w : Word) (o : FloatOp) (f : FloatFmt), VecIssues s c w 0 → (floatUsesB o = true ∨ vwVb w = 0) →
    ∃ u, exec (.vecFloatOp c w (some (o, f))) s = .next u ∧ OnlyCell s u c ∧
      u.cell c = (s.cell c).vecDone ((s.cell c).vec.elementwise w (widthBytes (floatWidth f))
        ([vwVa w] ++ (if floatUsesB o then [vwVb w] else []) ++ (if o = .fma then [vwVd w] else []))
        (fun a b d => floatResult o (floatOf f) a b d))) ∧
  (∀ (s : State) (c : Nat) (w : Word) (o : VIntOp) (f : IntFmt), VecIssues s c w 1 → (vintUsesB o = true ∨ vwVb w = 0) →
    ∃ u, exec (.vecIntOp c w (some (o, f))) s = .next u ∧ OnlyCell s u c ∧
      u.cell c = (s.cell c).vecDone ((s.cell c).vec.elementwise w (widthBytes (intWidth f))
        ([vwVa w] ++ (if vintUsesB o then [vwVb w] else []) ++ (if o = .mulAdd then [vwVd w] else []))
        (fun a b d => vintResult o (intBits f) a b d))) ∧
  (∀ (s : State) (c : Nat) (w : Word) (k : VCmp) (f : IntFmt), VecIssues s c w 2 → vwVd w < 7 →
    ∃ u, exec (.vecCompare c w (some (.compareI k f))) s = .next u ∧ OnlyCell s u c ∧
      let v := (s.cell c).vec
      u.cell c = (s.cell c).vecDone (v.setMask (vwVd w) (v.compareMask w (widthBytes (intWidth f)) (fun a b => intCompare k (intBits f) a b)))) ∧
  (∀ (s : State) (c : Nat) (w : Word) (k : ElemWidth), VecIssues s c w 3 → vwVa w < 8 → (s.cell c).lineFault (vwVa w) (256 * vwVb w) false = none →
    ∃ u, exec (.vecScratchAccess c w (some (.lineLoad k))) s = .next u ∧ OnlyCell s u c ∧ (u.cell c).scratch = (s.cell c).scratch ∧
      (u.cell c).vec.pc = (s.cell c).vec.pc + 4#32 ∧ (u.cell c).vec.lineUse = (s.cell c).vec.lineUse ||| (1#8 <<< (vwVa w)) ∧
      let x := s.cell c
      let a := (x.vec.ptrAddr (vwVa w) (256 * vwVb w)).toNat
      let b := widthBytes k
      (u.cell c).vec.regs = (x.vec.put b (vwVd w) (fun e => if x.vec.enabled w b e then
        some (VElem.mk (leNat (x.scratch.read (a + b * e) b)) (x.unitPoison (a + b * e)) (x.unitSuspect (a + b * e)) 0) else none)).regs) ∧
  (∀ (s : State) (c : Nat) (w : Word), VecIssues s c w 4 → vwVa w < 4 → bitAt (vbTbUse (s.cell c).vec.block) (vwVa w) = true →
    ∃ u, exec (.vecTileAccess c w (some .store)) s = .next u ∧ OnlyCell s u c ∧ (u.cell c).scratch = (s.cell c).scratch ∧
      (∀ t, t ≠ vwVa w → tabFind (u.cell c).tbufs t = tabFind (s.cell c).tbufs t) ∧ (u.cell c).vec.regs = (s.cell c).vec.regs ∧
      (u.cell c).vec.pc = (s.cell c).vec.pc + 4#32 ∧
      let v := (s.cell c).vec
      let base := vbTbBase v.block (vwVa w) + 64 * v.strip + 32 * vwVb w
      ((tabGet Memory.zero (s.cell c).tbufs (vwVa w)).wf = true → ∀ l, l < 64 → v.enabled w 4 l = true → base + l < 9216 →
        leNat ((tabGet Memory.zero (u.cell c).tbufs (vwVa w)).read (4 * (base + l)) 4) = v.elem 4 (vwVd w) l)) ∧
  (∀ (s : State) (c : Nat) (w : Word) (o : ConvertOp), VecIssues s c w 5 → convertOk o = true → (convertUsesB o = true ∨ vwVb w = 0) →
    ∃ u, exec (.vecConvert c w (some o)) s = .next u ∧ OnlyCell s { u with free := s.free } c ∧ u.free = s.free + 512 ∧
      let x := s.cell c
      u.cell c = (x.stepGen s.free 1 (b2n (vbRound x.vec.block == 1)) (convertCycles o - 1)).vecDone
        (x.vec.convert w o (s.genKeyOn c) c x.genSteps s.free)) ∧
  (∀ (s : State) (c : Nat) (w : Word) (k : ElemWidth), VecIssues s c w 6 →
    ∃ u, exec (.vecCrossLane c w (some (.permute k))) s = .next u ∧ OnlyCell s { u with free := s.free } c ∧
      u.cell c = (s.cell c).vecDone ((s.cell c).vec.cross w (.permute k) s.free)) ∧
  (∀ (s : State) (c : Nat) (w : Word), VecIssues s c w 7 → vwVa w = 0 → vwVb w = 0 →
    ∃ u, exec (.vecRandomDraw c w true) s = .next u ∧ OnlyCell s { u with free := s.free } c ∧ (u.cell c).vec.draws = (s.cell c).vec.draws + 1 ∧
      (u.cell c).vec.pc = (s.cell c).vec.pc + 4#32 ∧
      let v := (s.cell c).vec
      (u.cell c).vec.regs = (v.put 4 (vwVd w) (fun l => if v.enabled w 4 l then some (VElem.mk (v.word (s.genKeyOn c) c domVector l (genCount 1 (s.cell c).genSteps s.free 0)
        (l * (vbE v.block / 64)) ((vbDraw v.block + v.draws) % 65536)) false false 0) else none)).regs) ∧
  (∀ (s : State) (c : Nat) (w : Word), VecIssues s c w 8 → field w.toNat 27 24 = 0 → (s.cell c).vec.strip + 1 < (s.cell c).vec.strips →
    ∃ u, exec (.vnext c w) s = .next u ∧ OnlyCell s u c ∧ (u.cell c).vec.strip = (s.cell c).vec.strip + 1 ∧ (u.cell c).vec.draws = 0 ∧
      (u.cell c).vec.mask 7 = tailMask (vbE (s.cell c).vec.block) ((s.cell c).vec.strip + 1) (s.cell c).vec.count ∧
      (u.cell c).vec.pc = (s.cell c).vec.pc + BitVec.ofInt 32 (4 * signed 24 (field w.toNat 23 0))) ∧
  (∀ (s : State) (c : Nat) (w : Word), VecIssues s c w 8 → field w.toNat 27 24 = 0 → ¬ (s.cell c).vec.strip + 1 < (s.cell c).vec.strips →
    ∃ u, exec (.vnext c w) s = .next u ∧ OnlyCell s u c ∧ u.cell c = (s.cell c).vecDone (s.cell c).vec) ∧
  (∀ (s : State) (c : Nat) (w : Word), VecIssues s c w 9 → field w.toNat 27 0 = 0 →
    ∃ u, exec (.vend c w) s = .next u ∧ OnlyCell s u c ∧ (u.cell c).vec.ended = true ∧ (u.cell c).vec.part = [] ∧
      (u.cell c).scratch = ((s.cell c).spMerge ((s.cell c).vec.part.flatMap (fun p => p.2))).scratch) ∧
  (∀ (s : State) (c : Nat) (k : EngineCmd), CellWorks s c → ThreadRuns s c → (s.cell c).vec.cmd = some k → (s.cell c).vec.ended = true →
    vbCountOff (s.cell c).vec.block = 0xFFFFFFFF → k.doneEn = false →
    ∃ u, exec (.vectorComplete c) s = .next u ∧ OnlyCell s u c ∧ (u.cell c).vec = VecState.idle ∧
      u.thread c k.thread = (s.thread c k.thread).orSticky (s.cell c).vec.allFlags ∧ (u.cell c).scratch = (s.cell c).scratch)

/-- Writing results of 1, 2 or 4 byte elements to register r: an element with a result reads it, cut to its width; one without a result
reads as before, and so does every element of every other register. -/
def Obligations.VectorElementsKeepOrChange : Prop :=
  ∀ (v : VecState) (b r : Nat) (f : Nat → Option VElem), (b = 1 ∨ b = 2 ∨ b = 4) → v.regs.wf = true →
    (∀ e, e < vcount b → (v.put b r f).elem b r e = (match f e with | some x => x.code % 2 ^ (8 * b) | none => v.elem b r e)) ∧
    (∀ q e, q ≠ r → e < vcount b → (v.put b r f).elem b q e = v.elem b q e)

/-- A SAMPLE_START with a sound block, its areas in reach, scans the scores it names: with FIRST from an empty list, without FIRST from the
state area, whose tag and TOP_K fit and whose header is not poisoned. SAMPLE_COMPLETE frees the sampler, writes the result with LAST and the
state area without it at the block's offset, and says whether a segment stays open; the rest of the cell stands.
Completion: under its conditions on the state and the operands alone, exec answers a next state for each of `sampleStart`, `sampleComplete`. -/
def Obligations.SamplerAndBagCommands : Prop :=
  (∀ (s : State) (c : Nat) (k : EngineCmd), CellWorks s c → (s.cell c).head 4 = some k → (s.cell c).samp.cmd = none → (s.cell c).mayStart k = true →
    k.opA.toNat % 64 = 0 → inScratch k.opA.toNat 64 = true → calReaches (s.cell c).calendar .auxRd k.opA.toNat 64 = true →
    (s.cell c).spPoison k.opA.toNat 64 = false →
    let x := s.cell c
    let b := x.scratch.read k.opA.toNat 64
    let st := x.scratch.read (sbStateOff b) (sbStateBytes b)
    let cont := !(sbFirst b)
    sampBlockOk b k.opB.toNat = true → x.sampAreas b k.opB.toNat = none →
    (sbFirst b = false → x.spPoison (sbStateOff b) 16 = false ∧ leAt st 14 2 = 0x5A4D ∧ leAt st 12 2 = sbTopK b) →
    ∃ u, exec (.sampleStart c) s = .next u ∧ OnlyCell s u c ∧ (u.cell c).scratch = x.scratch ∧
      (u.cell c).samp = SampState.scan k b st (x.scratch.read (sbScoreOff b) (k.opB.toNat * sbWidth b))
        (x.spPoison (sbScoreOff b) (k.opB.toNat * sbWidth b) || (cont && x.spPoison (sbStateOff b) (sbStateBytes b)))
        (x.spSuspect (sbScoreOff b) (k.opB.toNat * sbWidth b) || (cont && x.spSuspect (sbStateOff b) (sbStateBytes b))) x.samp.segOpen) ∧
  (∀ (s : State) (c : Nat) (k : EngineCmd), CellWorks s c → ThreadRuns s c → (s.cell c).samp.cmd = some k → k.doneEn = false →
    let x := s.cell c
    let z := x.samp
    let b := z.block
    let word := fun d => if sbFree b then (genFree (s.genKeyOn c) domFreeSampler c 0 (genCount 1 x.genSteps s.free d)).toNat else (genKeyed (s.genKeyOn c) domSampler (sbElem b) (sbTensor b) ((sbDraw b + d) % 65536)).toNat
    let bs := if sbLast b then z.result word (Config.freeNat (s.free + 64)) else z.area
    let off := if sbLast b then sbOutOff b else sbStateOff b
    inScratch off bs.length = true → calReaches x.calendar .auxWr off bs.length = true →
    ∃ u, exec (.sampleComplete c) s = .next u ∧ OnlyCell s { u with free := s.free } c ∧
      (u.cell c).samp = { SampState.idle with segOpen := !(sbLast b), topK := z.topK } ∧
      (u.cell c).scratch = (x.spMerge (flagged off (bs.take 16) (z.poison && !(sbLast b)) (z.suspect && !(sbLast b))
        ++ flagged (off + 16) (bs.drop 16) z.poison z.suspect)).scratch)

/-- BAG_DISPATCH of a startable BAG command whose rows are not split opens its pooling work. LOOKUP_INTAKE takes the next bag of a work into a slice
with room when the deficit round-robin serves its partition. ROW_REQUEST takes a fetch slot and is served from the owning stack's row cache, its
line counter raised by the multiplicity and held at 255, or starts a read of the row; behind an unresolved patch it waits with its slot;
RC_MISS_FILL brings the row, of a stack that is not in throttle stage 3, and raises the sketch; ROW_SECTORS_RETURN ends the fetch. SLICE_WRITE lands a pooled bag's output rows in the cell
and counts the bag written. BAG_COMMAND_COMPLETE frees the work and the command once its slices have landed. FORAGER_ABANDON drops the bags of
an ended launch. RC_DECAY_PASS halves counters. The bag at a time, and the slice chosen, are the model's choice (log entry 34).
Completion: under its conditions on the state and the operands alone, exec answers a next state for each of `bagDispatch`, `lookupIntake`, `rowRequest`,
`rcMissFill`, `rowSectorsReturn`, `sliceWrite`, `bagCommandComplete`, `foragerAbandon`, `rcDecayPass`. -/
def Obligations.EmbeddingLookupsReadAndPool : Prop :=
  (∀ (s : State) (c l h : Nat) (x : Launch) (k : EngineCmd) (g : Group) (e : DWord), OnCell s c → s.activeLaunch c = some (l, x) →
    (s.cell c).head 3 = some k → (s.cell c).mayStart k = true → s.group? k.imm.toNat = some g →
    x.groups.find? (fun p => p.1 == k.imm.toNat) = some (h, e) → g.partition = x.partition → g.split = 1 →
    ∃ u, exec (.bagDispatch c) s = .next u ∧ u.works = tabSet s.works s.nextWork (bagWork c c l x k e.toNat) ∧ u.nextWork = s.nextWork + 1 ∧
      (u.cell c).bags = (s.cell c).bags ++ [k] ∧ (u.cell c).scratch = (s.cell c).scratch ∧ u.dram = s.dram ∧ ∀ d, d ≠ c → u.cell d = s.cell d) ∧
  (∀ (s : State) (f id i j n sl : Nat) (w : BagWork) (segs : List Seg) (g : Seg) (ds : Table Nat) (b : RawBag) (rows : Nat × Nat), s.running = true →
    f < 4 → s.work? id = some w → s.workRuns w = true → s.stalled (.bag f id 0) = false → w.nextBag f = some i → s.readBlock (tlbForager f) w = .ok segs →
    segOfBag segs (w.first + i) = some (j, g) → s.bagLookupCount (tlbForager f) w g (w.first + i - g.start) = .ok n →
    s.sliceFor f (s.tableWidth w.handle (g.table (w.first + i - g.start))) = some sl → s.drrTake f w.partition n = some ds →
    s.readBag (tlbForager f) w segs (w.first + i) = .ok b →
    s.outputRows (tlbForager f) w (segs.getD b.seg (segOf [] 0)) (w.first + i) b.lookups.length = .ok rows →
    ∃ u, exec (.lookupIntake f id) s = .next u ∧ u = { s with
      works := tabSet s.works id (w.openBag f sl b rows), foragers := u.foragers, tlbs := u.tlbs, dict := u.dict, counters := u.counters } ∧
      (u.forager f).turn = w.partition ∧ (u.forager f).deficits = ds) ∧
  (∀ (s : State) (id n pa key : Nat) (w : BagWork) (x : Fetch) (d : TableDesc) (sl : VerSlot) (line : RcLine), FetchAt s id n w x d sl →
    (x.state = .issued ∨ (x.state = .waiting ∧ s.workRuns w = true ∧ s.slotFree w x = true)) →
    s.bagStalled id n w x = false → s.patchHolds w.handle x.table x.slot x.row w.epoch = false → s.xlate (tlbForager x.forager) sl.context x.va .read = .hit pa →
    s.populated pa = true → (s.forager (stackOf pa)).serve (pa / 64) w.epoch = some (key, line) →
    ∃ u, exec (.rowRequest id n) s = .next u ∧ u = { s with
      works := tabSet s.works id { w with fetches := w.fetches.modify n (fun y => { y with place := some pa, state := .served line.row }) }
      foragers := tabSet s.foragers (stackOf pa) { s.forager (stackOf pa) with
        lines := tabSet (s.forager (stackOf pa)).lines key { line with counter := min 255 (line.counter + x.mult) } }
      tlbs := u.tlbs, images := u.images, dict := u.dict, counters := u.counters }) ∧
  (∀ (s : State) (id n pa : Nat) (w : BagWork) (x : Fetch) (d : TableDesc) (sl : VerSlot), FetchAt s id n w x d sl →
    (x.state = .issued ∨ (x.state = .waiting ∧ s.workRuns w = true ∧ s.slotFree w x = true)) →
    s.bagStalled id n w x = false → s.patchHolds w.handle x.table x.slot x.row w.epoch = false → s.xlate (tlbForager x.forager) sl.context x.va .read = .hit pa →
    s.populated pa = true → (s.forager (stackOf pa)).serve (pa / 64) w.epoch = none →
    ∃ u, exec (.rowRequest id n) s = .next u ∧ u = { s with
      works := tabSet s.works id { w with fetches := w.fetches.modify n (fun y => { y with place := some pa, miss := true, state := .missed pa }) }
      tlbs := u.tlbs, dict := u.dict, counters := u.counters }) ∧
  (∀ (s : State) (id n : Nat) (w : BagWork) (x : Fetch) (d : TableDesc) (sl : VerSlot), FetchAt s id n w x d sl → x.state = .waiting →
    s.workRuns w = true → s.slotFree w x = true → s.bagStalled id n w x = false → s.patchHolds w.handle x.table x.slot x.row w.epoch = true →
    ∃ u, exec (.rowRequest id n) s = .next u ∧
      u = { s with works := tabSet s.works id (w.setFetch n .issued), dict := u.dict, counters := u.counters }) ∧
  (∀ (s : State) (id n pa : Nat) (w : BagWork) (x : Fetch) (d : TableDesc) (sl : VerSlot), FetchAt s id n w x d sl → x.state = .missed pa → s.stackOpen pa = true →
    ∃ u, exec (.rcMissFill id n) s = .next u ∧ u = { s with
      works := tabSet s.works id { w with fetches := w.fetches.modify n (fun y =>
        { y with place := some pa, state := .served (s.rowInDram pa (rowStride d.record)) }) }
      foragers := u.foragers, images := u.images, quarters := u.quarters, dict := u.dict, counters := u.counters } ∧
      (u.forager (stackOf pa)).sketch = ((s.forager (stackOf pa)).sketchAdd (pa / 64) x.mult).sketch) ∧
  (∀ (s : State) (id n : Nat) (w : BagWork) (x : Fetch) (d : TableDesc) (sl : VerSlot) (row : RowData), FetchAt s id n w x d sl → x.state = .served row →
    s.workRuns w = true →
    ∃ u, exec (.rowSectorsReturn id n) s = .next u ∧
      u = { s with works := tabSet s.works id (w.setFetch n (.done row)), dict := u.dict, counters := u.counters }) ∧
  (∀ (s : State) (id bag c : Nat) (w : BagWork) (b : OpenBag) (segs : List Seg) (d : TableDesc), s.running = true → s.work? id = some w →
    w.bags.find? (fun b => b.bag == bag) = some b → s.workRuns w = true → w.bagReady b = true → s.readBlock (tlbForager b.forager) w = .ok segs →
    let g := segs.getD b.seg (segOf [] 0)
    s.table? w.handle (g.table (bag - g.start)) = some d → w.cell = some c →
    let outs := w.outputs g d.record b s.free
    (s.cell c).ingress = [] →
    (∀ o ∈ outs, calReaches (s.cell c).calendar .ingress (g.outOff + o.1 * g.outStride) o.2.1.length = true) →
    ∃ u, exec (.sliceWrite id bag) s = .next u ∧ u = { s with
      works := tabSet s.works id { w with bags := w.bags.filter (fun x => x.bag != bag), written := w.written + 1 }
      free := s.free + 1, cells := u.cells } ∧ (∀ e, e ≠ c → u.cell e = s.cell e) ∧
      u.cell c = { s.cell c with scratch := outs.foldl (fun (m : Memory) o =>
        m.store 64 (g.outOff + o.1 * g.outStride) o.2.1 o.2.2.1 o.2.2.2) (s.cell c).scratch }) ∧
  (∀ (s : State) (id c : Nat) (w : BagWork), s.running = true → s.work? id = some w → s.workRuns w = true → w.count ≤ w.written → w.cell = some c →
    s.landed c (.forager id) = true → w.cmd.doneEn = false → ThreadRuns s c →
    ∃ u, exec (.bagCommandComplete id) s = .next u ∧ u = { s with works := tabErase s.works id, cells := u.cells } ∧
      u.cell c = { s.cell c with bags := (s.cell c).bags.filter (fun k => k.seq != w.cmd.seq) } ∧ ∀ d, d ≠ c → u.cell d = s.cell d) ∧
  (∀ (s : State) (f id : Nat) (w : BagWork), s.running = true → f < 4 → s.works = [(id, w)] → s.workRuns w = false → f ∉ w.left → w.left.length < 3 →
    exec (.foragerAbandon f) s = .next { s with works := [(id, { w with left := f :: w.left, bags := w.bags.filter (fun b => b.forager != f) })] }) ∧
  (∀ (s : State) (f : Nat), s.running = true → f < 4 →
    ∃ u, exec (.rcDecayPass f) s = .next u ∧ u = { s with foragers := u.foragers, manager := u.manager, dict := u.dict, counters := u.counters } ∧
      u.forager f = { s.forager f with
        lines := (s.forager f).lines.map (fun p => (p.1, { p.2 with counter := p.2.counter / 2 }))
        sketch := (s.forager f).sketch.filterMap (fun p => if p.2 / 2 = 0 then none else some (p.1, p.2 / 2)) } ∧
      ∀ k, k ≠ f → u.forager k = s.forager k)

/-- FANOUT_RECEIVE stages a bag block while the stage's 64 MiB hold it; else the block waits at the port and the wait is counted. BAG_REQ_RECEIVE opens
pooling work on a staged block with the carried rank, and waits with a waiting block, or for its block (log entry 183). GATHER_RECEIVE lands a peer's slice at its offset and notes
it; with no such entry it is dropped and counted. FANOUT_TIMEOUT lands poisoned zeros for every row of the lost peer. ABANDON_RECEIVE frees the
launch's stages, stops its bags and acknowledges; the acknowledgement removes the peer from the entries' lists and frees an entry nobody is
awaited for; expiry frees the entry of an ended launch.
Completion: under its conditions on the state and the operands alone, exec answers a next state for each of `fanoutReceive`, `bagReqReceive`, `gatherReceive`,
`fanoutTimeout`, `abandonReceive`, `returnEntryExpiry`, `abandonAckReceive`. -/
def Obligations.GroupLookupsCrossDevices : Prop :=
  (∀ (s : State) (home launch block gid h : Nat) (e : DWord) (vs : List (Nat × Nat)) (bs : List Byte) (po : List Nat), s.running = true →
    s.handleOf gid = some h → (∀ f ∈ s.fanStages, f.held = false) → s.stagingUsed + bs.length ≤ stagingBytes →
    exec (.fanoutReceive home launch block gid e vs bs po) s = .next (State.serveEarly { s with
      fanStages := s.fanStages ++ [{ home := home, launch := launch, block := block, handle := h, epoch := e, versions := vs, bytes := bs, poison := po,
                                     held := false, requests := [], served := false }]
      tables := (s.arriveEpoch h e.toNat).tables } (home, launch, block))) ∧
  (∀ (s : State) (home launch block gid h : Nat) (e : DWord) (vs : List (Nat × Nat)) (bs : List Byte) (po : List Nat), s.running = true →
    s.handleOf gid = some h → stagingBytes < s.stagingUsed + bs.length → (∀ r ∈ s.earlyReqs, r.1 ≠ (home, launch, block)) →
    ∃ u, exec (.fanoutReceive home launch block gid e vs bs po) s = .next u ∧ u = { s with
      fanStages := s.fanStages ++ [{ home := home, launch := launch, block := block, handle := h, epoch := e, versions := vs, bytes := bs, poison := po,
                                     held := true, requests := [], served := false }]
      dict := u.dict, counters := u.counters } ∧ u.entry 0x5301 0 = satAdd (dictBits (dkey 0x5301 0)) (s.entry 0x5301 0) 1) ∧
  (∀ (s : State) (k : Nat × Nat × Nat), (∀ r ∈ s.earlyReqs, r.1 ≠ k) → s.serveEarly k = s) ∧
  (∀ (s : State) (home launch block first n rank tag : Nat), s.running = true →
    s.fanStages.find? (fun f => f.home == home && f.launch == launch && f.block == block) = none →
    exec (.bagReqReceive home launch block first n rank tag) s = .next { s with
      earlyReqs := s.earlyReqs ++ [((home, launch, block), (first, n, rank, tag))] }) ∧
  (∀ (s : State) (home launch block first n rank tag : Nat) (f : FanStage) (g : Group), s.running = true →
    s.fanStages.find? (fun f => f.home == home && f.launch == launch && f.block == block) = some f → f.held = false → s.group? f.handle = some g →
    ∃ w, exec (.bagReqReceive home launch block first n rank tag) s = .next { s with
        works := tabSet s.works s.nextWork w, nextWork := s.nextWork + 1
        fanStages := s.fanStages.map (fun x => if x == f then { f with served := true } else x) } ∧
      w.home = some (home, tag) ∧ w.homeLaunch = launch ∧ w.homeBlock = block ∧ w.handle = f.handle ∧ w.block = f.bytes ∧ w.first = first ∧
      w.count = n ∧ w.n = rank ∧ w.epoch = f.epoch.toNat ∧ w.versions = f.versions ∧ w.partition = g.partition ∧ w.cell = none) ∧
  (∀ (s : State) (home launch block first n rank tag : Nat) (f : FanStage), s.running = true →
    s.fanStages.find? (fun f => f.home == home && f.launch == launch && f.block == block) = some f → f.held = true →
    exec (.bagReqReceive home launch block first n rank tag) s = .next { s with
      fanStages := s.fanStages.map (fun x => if x == f then { f with requests := f.requests ++ [(first, n, rank, tag)] } else x) }) ∧
  (∀ (s : State) (tag rank seg row t : Nat) (bs : List Byte) (po : Bool) (e : RetEntry) (sem : Option Nat) (pc : Word) (segs : List (Nat × Nat))
      (rows : List (Nat × Nat × Nat)) (peers : Table Nat) (landed : Table (List (Nat × Nat))) (g : Group), s.running = true →
    tabFind s.returns tag = some e → e.kind = .bag sem t pc segs rows peers landed → e.ended = false → tabFind peers rank = some 0 →
    s.group? e.handle = some g → (seg, row) ∉ tabGet [] landed rank → (tabGet [] landed rank).length + 1 < rows.length →
    (∀ p ∈ peers, p.2 ≠ 3 ∧ (p.2 = 0 → (tabGet [] landed p.1).length < rows.length)) →
    let off := peerOffset segs g.rank rank seg row bs.length
    (s.cell e.cell).ingress = [] → calReaches (s.cell e.cell).calendar .ingress off bs.length = true →
    ∃ u, exec (.gatherReceive tag rank seg row bs po) s = .next u ∧ u = { s with
      cells := u.cells
      returns := tabSet s.returns tag { e with kind := RetKind.bag sem t pc segs rows peers (tabSet landed rank ((seg, row) :: tabGet [] landed rank)) } } ∧
      u.cell e.cell = { s.cell e.cell with scratch := (s.cell e.cell).scratch.store 64 off bs po false } ∧ ∀ d, d ≠ e.cell → u.cell d = s.cell d) ∧
  (∀ (s : State) (tag rank seg row : Nat) (bs : List Byte) (po : Bool), s.running = true → tabFind s.returns tag = none →
    ∃ u, exec (.gatherReceive tag rank seg row bs po) s = .next u ∧ u = { s with dict := u.dict, counters := u.counters } ∧
      u.entry 0x5309 0 = satAdd (dictBits (dkey 0x5309 0)) (s.entry 0x5309 0) 1) ∧
  (∀ (s : State) (tag rank t : Nat) (e : RetEntry) (pc : Word) (segs : List (Nat × Nat)) (rows : List (Nat × Nat × Nat)) (peers : Table Nat)
      (landed : Table (List (Nat × Nat))) (g : Group), s.running = true →
    tabFind s.returns tag = some e → e.kind = .bag none t pc segs rows peers landed → e.ended = false → tabFind peers rank = some 0 →
    s.group? e.handle = some g → (∀ p ∈ peers, p.2 ≠ 3 ∧ (p.2 = 0 → (tabGet [] landed p.1).length < rows.length)) →
    (s.cell e.cell).ingress = [] →
    (∀ r ∈ rows, calReaches (s.cell e.cell).calendar .ingress (peerOffset segs g.rank rank r.1 r.2.1 r.2.2) r.2.2 = true) →
    ∃ u, exec (.fanoutTimeout tag rank) s = .next u ∧ u = { s with
      cells := u.cells, log := u.log, fieldOut := u.fieldOut, dict := u.dict, counters := u.counters
      returns := if (tabSet peers rank 2).all (fun p => p.2 == 1 || p.2 == 2) then tabErase s.returns tag
        else tabSet s.returns tag { e with kind := .bag none t pc segs rows (tabSet peers rank 2) landed } } ∧
      u.cell e.cell = { s.cell e.cell with scratch := rows.foldl (fun (m : Memory) r =>
        m.store 64 (peerOffset segs g.rank rank r.1 r.2.1 r.2.2) (List.replicate r.2.2 0#8) true false) (s.cell e.cell).scratch } ∧
      ∀ d, d ≠ e.cell → u.cell d = s.cell d) ∧
  (∀ (s : State) (home launch : Nat), s.running = true → (∀ f ∈ s.fanStages, f.held = false) →
    exec (.abandonReceive home launch) s = .next { s with
      fanStages := s.fanStages.filter (fun f => !(f.home == home && f.launch == launch))
      earlyReqs := s.earlyReqs.filter (fun r => !(r.1.1 == home && r.1.2.1 == launch))
      works := s.works.map (fun p =>
        if p.2.homeLaunch == launch && (match p.2.home with | some (h, _) => h == home | none => false) then (p.1, { p.2 with abandoned := true }) else p)
      fabricOut := s.fabricOut ++ [{ dst := home, body := .abandonAck launch }] }) ∧
  (∀ (s : State) (src launch : Nat), s.running = true → exec (.abandonAckReceive src launch) s = .next { s with
      returns := s.returns.filterMap (fun p =>
        let left := p.2.acks.filter (fun r => some r != (match s.group? p.2.handle with | some g => g.members.findIdx? (· == src) | none => none))
        if p.2.launch == launch && p.2.ended && p.2.acks != [] then (if left.isEmpty then none else some (p.1, { p.2 with acks := left })) else some p) }) ∧
  (∀ (s : State) (tag : Nat) (e : RetEntry), s.running = true → tabFind s.returns tag = some e → e.ended = true →
    exec (.returnEntryExpiry tag) s = .next { s with returns := tabErase s.returns tag })

/-- TABLE_REGISTER holds a sound new record with four FREE slots; TABLE_QUERY returns the descriptor; TABLE_UNREGISTER removes a table with no used slot.
PIN_ROWS adds the rows not yet pinned, UNPIN_ROWS takes away those that are. PUBLISH that passes its checks fills the lowest FREE slot as STAGED with the header's
TVER, epoch and bases. What reads DRAM waits while a stack it needs is in throttle stage 3 (R37). ABORT_PUBLISH frees the STAGED slot of a TVER, here and at a member; VERSION_RELEASED frees a superseded slot nothing needs.
Completion: under its conditions on the state and the operands alone, exec answers a next state for each of `pinRows`, `unpinRows`, `tableQuery`,
`tableRegister`, `tableUnregister`, `publish`, `abortPublish`, `versionReleased`, `abortPublishReceive`. -/
def Obligations.TablesRegisterPublishAndRelease : Prop :=
  (∀ (s : State) (p : List Byte), AdminHead s 0x28 24 p → (s.group? (leAt p 0 4)).isSome = true → leAt p 4 2 ≤ 4095 →
    s.table? (leAt p 0 4) (leAt p 4 2) = none → leAt p 6 2 = 0 → recordOk ((p.drop 8).take 16) = true → s.tables.length < 65536 →
    exec .tableRegister s = .next (s.answered (s.setTable (leAt p 0 4) (leAt p 4 2)
      { record := (p.drop 8).take 16, tverLast := 0, slots := List.replicate 4 VerSlot.none, pins := [] }) stOk 0 [])) ∧
  (∀ (s : State) (p : List Byte) (h t : Nat) (g : Group) (d : TableDesc), AdminHead s 0x2A 8 p → s.namedTable p = some (h, t, g, d) → leAt p 6 2 = 0 →
    exec .tableQuery s = .next (s.answered s stOk 0 (s.descriptor h g d))) ∧
  (∀ (s : State) (p : List Byte) (h t : Nat) (g : Group) (d : TableDesc), AdminHead s 0x29 8 p → s.namedTable p = some (h, t, g, d) → leAt p 6 2 = 0 →
    d.used = [] → s.groupNamed h = false →
    exec .tableUnregister s = .next (s.answered { s with tables := tabErase s.tables (tableKey h t) } stOk 0 [])) ∧
  (∀ (s : State) (p : List Byte) (h t : Nat) (g : Group) (d : TableDesc) (rows : List Nat), AdminHead s 0x2B 24 p → s.pinListOpen p = true → s.pinList p = .ok (h, t, g, d, rows) →
    let new := rows.filter (fun r => !d.pins.contains r)
    s.pinsFit g.partition (rowStride d.record) (s.rowLines d d.used new) = true → s.pinsOpen d d.used new = true →
    exec .pinRows s = .next (s.answered ((s.setTable h t { d with pins := d.pins ++ new }).pinLines g.partition d d.used new) stOk 0 (bytesLE 4 new.length))) ∧
  (∀ (s : State) (p : List Byte) (h t : Nat) (g : Group) (d : TableDesc) (rows : List Nat), AdminHead s 0x2C 24 p → s.pinListOpen p = true → s.pinList p = .ok (h, t, g, d, rows) →
    let gone := rows.filter (fun r => d.pins.contains r)
    exec .unpinRows s = .next (s.answered ((s.setTable h t { d with pins := d.pins.filter (fun r => !gone.contains r) }).unpinLines d d.used gone)
      stOk 0 (bytesLE 4 gone.length))) ∧
  (∀ (s : State) (q i : Nat) (b : List Byte) (g : Group) (d : TableDesc), QueueHead s q 2 b →
    let k := chConsts b
    s.publishCheck (s.queuePart q) k = none → s.publishOpen (s.queue q).context k = true → s.group? (leAt k 0 4) = some g → s.table? (leAt k 0 4) (leAt k 4 2) = some d →
    (List.range 4).find? (fun j => (d.slot j).state == SlotSt.free) = some i →
    ∃ u, exec (.publish q) s = .next u ∧ EndsAs s u q b stOk 0 ∧
      u = { s with tables := u.tables, foragers := u.foragers, queues := u.queues, partitions := u.partitions, dict := u.dict, counters := u.counters } ∧
      u.tables = tabSet s.tables (tableKey (leAt k 0 4) (leAt k 4 2)) { d.setSlot i (VerSlot.mk .staged (leAt k 8 8) (leAt k 0x10 8)
        (leAt k 0x18 8) (leAt k 0x20 8) (s.queue q).context 0) with tverLast := leAt k 8 8 }) ∧
  (∀ (s : State) (p : List Byte) (h t : Nat) (g : Group) (d : TableDesc), AdminHead s 0x2D 16 p → s.namedTable p = some (h, t, g, d) → leAt p 6 2 = 0 →
    exec .abortPublish s = .next (s.answered ((if g.size = 1 then s else s.sendPeers g (.abortPublish g.id t (leAt p 8 8))).abortSlot h t (leAt p 8 8)) stOk 0 [])) ∧
  (∀ (s : State) (gid h t tver i : Nat) (d : TableDesc), s.running = true → s.handleOf gid = some h → s.table? h t = some d →
    (List.range 4).find? (fun j => (d.slot j).state == SlotSt.staged && (d.slot j).tver == tver) = some i →
    ∃ u, exec (.abortPublishReceive gid t tver) s = .next u ∧ u.tables = tabSet s.tables (tableKey h t) (d.setSlot i VerSlot.none) ∧
      u.staged = s.staged.filter (fun x => !(x.committed && x.handle == h && x.entry.table == t && x.slot == i)) ∧
      u = { s with
                   tables := u.tables, staged := u.staged, foragers := u.foragers, migration := u.migration, admin := u.admin, host := u.host
                   hostOut := u.hostOut, dict := u.dict, counters := u.counters }) ∧
  (∀ (s : State) (h t i : Nat) (g : Group) (d : TableDesc), s.running = true → s.group? h = some g → s.table? h t = some d →
    s.slotFreeable h t g d i = true →
    ∃ u, exec (.versionReleased h t i) s = .next u ∧ u.tables = tabSet s.tables (tableKey h t) (d.setSlot i VerSlot.none) ∧
      u = { s with
                   tables := u.tables, foragers := u.foragers, migration := u.migration, admin := u.admin, host := u.host
                   hostOut := u.hostOut, dict := u.dict, counters := u.counters })

/-- A PATCH that passes the checks and concerns this member alone commits its entries and completes OK; otherwise it sends the other members their entries and waits.
A member that accepts stages the entries and answers OK. An answer that is not the last is only noted; the last acceptance sends COMMIT and
commits here. COMMIT makes the identity's tentative entries committed, but those that an ABORT_PUBLISH has left no slot (log entry 47); CANCEL drops them, and a PREPARE that they held back is answered. A member that waits asks for the outcome; the entry member
of a decided PATCH answers it. PATCH_WRITEBACK stores the forward line in DRAM and retires its entries.
Completion: under its conditions on the state and the operands alone, exec answers a next state for each of `patch`, `patchStageReceive`,
`patchAnswerReceive`, `patchCommitReceive`, `patchCancelReceive`, `patchOutcomeQuery`, `patchWriteback`, `patchQueryReceive`. -/
def Obligations.RowPatchesStageCommitAndWriteBack : Prop :=
  (∀ (s : State) (q : Nat) (b : List Byte) (h : Nat) (g : Group) (own : List PatchEntry), QueueHead s q 3 b →
    let k := chConsts b
    let n := (s.queue q).taken.toNat % 2 ^ 32
    let seq := ((s.queue q).patches + 1) % 2 ^ 32
    let w := CmdWork.mk n (chLaunchId b) 3 (chIrq b) 0 0#64 seq (leAt k 0 8) (leAt k 8 4) false s.time
    let z := ((s.modQueue q (fun x => { x with patches := seq })).countTaken q).modQueue q (fun x => { x with work := x.work ++ [w] })
    leAt k 0 8 % 64 = 0 → 1 ≤ leAt k 8 4 → leAt k 8 4 ≤ 4096 → allZero (k.drop 12) = true → (∀ j ∈ (s.queue q).work, j.index ≠ n) →
    z.patchRead q w = .ok (h, g, [(g.rank, own)]) →
    exec (.patch q) s = .next (keepQueue s (({ (z.stageEntries h own).commitEntries (s.patchSrc q) seq with
      committed := (s.patchSrc q, seq, h) :: s.committed }).workDone q n stOk 0))) ∧
  (∀ (s : State) (gid h src seq : Nat) (recs : List (Nat × List Byte)) (es : List PatchEntry) (g : Group), s.running = true → s.handleOf gid = some h →
    s.group? h = some g → s.entriesCheck h g recs es = none →
    exec (.patchStageReceive gid src seq recs es) s = .next { s with
      staged := s.staged ++ (es.map PatchEntry.framed).map (fun e => { handle := h, entry := e, committed := false, slot := 0, va := 0, stack := s.entryStack h e, resolved := false, lost := false })
      fabricOut := s.fabricOut ++ [{ dst := src / 1024, body := .patchAnswer src seq g.rank stOk 0 }] }) ∧
  (∀ (s : State) (gid h src seq st code t i row : Nat) (recs : List (Nat × List Byte)) (es : List PatchEntry) (g : Group), s.running = true →
    s.handleOf gid = some h → s.group? h = some g → s.entriesCheck h g recs es = some (.refuse st code t i row) →
    ∃ u, exec (.patchStageReceive gid src seq recs es) s = .next u ∧ u = { s with
      foragers := u.foragers
      fabricOut := s.fabricOut ++ [{ dst := src / 1024, body := .patchAnswer src seq g.rank st code }] }) ∧
  (∀ (s : State) (src seq rank st code a b : Nat) (w : PatchWork) (g : Group), s.running = true →
    s.patches.find? (fun p => p.1 == src && p.2.1 == seq) = some (a, b, w) → s.group? w.handle = some g → rank < g.size → rank ≠ g.rank → (∀ x ∈ s.groups, x.2.prepared = none) →
    let w1 := { w with answers := tabSet w.answers rank (st, code) }
    let rest := s.patches.filter (fun p => !(p.1 == src && p.2.1 == seq))
    (w1.answers.length + 1 < g.size →
      exec (.patchAnswerReceive src seq rank st code) s = .next { s with patches := rest ++ [(src, seq, w1)] }) ∧
    (¬ w1.answers.length + 1 < g.size → (∀ x ∈ w1.answers, x.2.1 = 0) →
      exec (.patchAnswerReceive src seq rank st code) s = .next (keepQueue s (({ (({ s with patches := rest }).sendOutcome w.handle src seq true).commitEntries src seq with
        committed := (src, seq, w.handle) :: s.committed }).workDone w.queue w.index stOk 0)))) ∧
  (∀ (s : State) (src seq : Nat), s.running = true →
    ∃ u, exec (.patchCommitReceive src seq) s = .next u ∧ (∀ y ∈ u.staged, y.tentative src seq = false) ∧ u.tables = s.tables ∧
      u.staged.length = (s.staged.filter (fun x => !x.tentative src seq || (s.targetSlot x).isSome)).length) ∧
  (∀ (s : State) (src seq : Nat), s.running = true → (∀ x ∈ s.groups, x.2.prepared = none) →
    exec (.patchCancelReceive src seq) s = .next { s with staged := s.staged.filter (fun x => !x.tentative src seq) }) ∧
  (∀ (s : State) (src seq h : Nat) (t : DWord) (g : Group), s.running = true → s.groups = [(h, g)] → g.prepared = some t → g.rank ≠ 0 → g.size ≠ 1 →
    let z := { s with staged := s.staged.filter (fun x => !x.tentative src seq) }
    z.tentativeBelow h t.toNat = false →
    exec (.patchCancelReceive src seq) s = .next { z with
      groups := [(h, { g with prepared := none })]
      fabricOut := s.fabricOut ++ [{ dst := g.members.getD 0 0, body := .ready g.id g.rank t (s.versionDigest h t.toNat) }] }) ∧
  (∀ (s : State) (src seq : Nat), s.running = true → (∃ x ∈ s.staged, x.tentative src seq = true) → src / 1024 ≠ s.ownAddr →
    exec (.patchOutcomeQuery src seq) s = .next { s with fabricOut := s.fabricOut ++ [{ dst := src / 1024, body := .patchQuery src seq s.ownAddr }] }) ∧
  (∀ (s : State) (src seq asker : Nat), s.running = true → (∀ p ∈ s.patches, ¬ (p.1 = src ∧ p.2.1 = seq)) →
    exec (.patchQueryReceive src seq asker) s = .next { s with
      fabricOut := s.fabricOut ++ [{ dst := asker, body := .patchOutcome src seq (s.committed.any (fun c => c.1 == src && c.2.1 == seq)) }] }) ∧
  (∀ (s : State) (h t row e pa key : Nat) (g : Group) (d : TableDesc) (x : Staged) (l : RcLine), s.running = true → s.group? h = some g → s.table? h t = some d →
    let mine := fun (y : Staged) => y.committed && y.handle == h && y.entry.table == t && y.entry.row == row
    s.staged.find? (fun y => y.committed && y.resolved && y.handle == h && y.entry.table == t && y.entry.row == row && y.entry.epoch == e) = some x →
    e ≤ s.lowMark h g → s.migrating (d.slot x.slot).context x.va = false → s.blockPa (d.slot x.slot).context x.va = some pa →
    (∀ y ∈ (s.forager (stackOf pa)).lines, y.2.addr = pa / 64 → y.2.ref ≠ 0 → e ≤ tabGet 0 (s.forager (stackOf pa)).epochs y.2.ref) →
    (s.forager (stackOf pa)).forward (pa / 64) e = some (key, l) → s.damage = [] → s.fixups = [] → s.struck = [] → partGranules pa l.row.bytes.length = [] →
    ∃ u, exec (.patchWriteback h t row e) s = .next u ∧ u = { s with
      staged := s.staged.filter (fun y => !(mine y && y.entry.epoch == e))
      dram := s.dram.store 64 pa l.row.bytes (!l.row.poison.isEmpty) false
      foragers := u.foragers, manager := u.manager, dict := u.dict, counters := u.counters })

/-- GROUP_CREATE holds the record's group under a new handle, GROUP_DESTROY removes one nothing names. EPOCH_ADVANCE in a group of one raises the epoch; on a member
that is not the coordinator it asks the coordinator and waits. A request to an idle coordinator sends PREPARE; a member answers PREPARE with its digest; the last READY
with equal digests raises the epoch and sends a waggle; PREPARE_RETRY repeats it while they differ. LOW_REPORT sends l, which the coordinator notes and
LOW_BROADCAST spreads; L stays while a rank is silent. A silent rank and a version mismatch are logged, and what another member listed and this one lacks is noted (log entry 149).
Completion: under its conditions on the state and the operands alone, exec answers a next state for each of `groupCreate`, `groupDestroy`, `epochAdvance`,
`prepareReceive`, `readyReceive`, `prepareRetry`, `lowReport`, `lowReportReceive`, `lowBroadcast`, `groupDegraded`, `epochRequestReceive`,
`versionListReceive`. -/
def Obligations.GroupsAndTheirEpochs : Prop :=
  (∀ (s : State) (p : List Byte), AdminHead s 0x20 800 p → leAt p 1 7 = 0 → leAt p 0 1 ≤ 15 → (s.part (leAt p 0 1)).state = .active →
    s.groupOk (p.drop 8) = true → s.groups.length < 256 →
    exec .groupCreate s = .next (s.answered { s with groups := tabSet s.groups s.nextHandle (groupOf (leAt p 0 1) s.freeGroupSlot (p.drop 8)), nextHandle := s.nextHandle + 1 }
      stOk 0 (bytesLE 4 (s.nextHandle % 2 ^ 24)))) ∧
  (∀ (s : State) (p : List Byte), AdminHead s 0x21 8 p → leAt p 4 4 = 0 → (s.group? (leAt p 0 4)).isSome = true → s.groupTables (leAt p 0 4) = [] →
    s.spanBound (leAt p 0 4) = false → s.groupNamed (leAt p 0 4) = false →
    exec .groupDestroy s = .next (s.answered { s with groups := tabErase s.groups (leAt p 0 4) } stOk 0 [])) ∧
  (∀ (s : State) (q : Nat) (b : List Byte) (g : Group), QueueHead s q 4 b →
    let k := chConsts b
    let h := leAt k 0 4
    let t := BitVec.ofNat 64 (leAt k 8 8)
    s.group? h = some g → g.partition = s.queuePart q → leAt k 4 4 = 0 → allZero (k.drop 16) = true → g.epoch.toNat < t.toNat →
    (g.rank = 0 → g.size = 1 → g.advance = none → g.prepared = none → g.goal.toNat ≤ t.toNat → s.tentativeBelow h t.toNat = false →
      ∃ u gu, exec (.epochAdvance q) s = .next u ∧ u.group? h = some gu ∧ gu.epoch = t ∧ u.dram = s.dram ∧ u.tables = s.tables) ∧
    (g.rank ≠ 0 →
      ∃ u, exec (.epochAdvance q) s = .next u ∧ u.fabricOut = s.fabricOut ++ [{ dst := g.members.getD 0 0, body := .epochRequest g.id t }] ∧
        u.group? h = some { g with asked := if g.asked.ult t then t else g.asked } ∧
        u.queue q = { (s.queue q).tookOne with work := (s.queue q).work ++ [CmdWork.mk ((s.queue q).taken.toNat % 2 ^ 32) (chLaunchId b) 4
          (chIrq b) h t 0 0 0 true s.time] } ∧ u.dram = s.dram ∧ u.tables = s.tables)) ∧
  (∀ (s : State) (gid h : Nat) (t : DWord) (g : Group), s.running = true → s.handleOf gid = some h → s.group? h = some g → g.rank = 0 → g.size ≠ 1 →
    g.advance = none → g.goal.toNat ≤ t.toNat → g.epoch.toNat < t.toNat → s.tentativeBelow h t.toNat = false →
    ∃ u, exec (.epochRequestReceive gid t) s = .next u ∧ u = { s with groups := u.groups, fabricOut := u.fabricOut } ∧
      u.group? h = some { g with
                                 goal := t, asked := if g.asked.ult t then t else g.asked, advance := some t, ready := [(0, s.versionDigest h t.toNat)]
                                 prepared := none } ∧
      u.fabricOut = s.fabricOut ++ ((List.range g.size).filter (· != 0)).map (fun r => { dst := g.members.getD r 0, body := .prepare g.id t })) ∧
  (∀ (s : State) (gid h : Nat) (t : DWord) (g : Group), s.running = true → s.handleOf gid = some h → s.group? h = some g → g.rank ≠ 0 → g.size ≠ 1 →
    s.tentativeBelow h t.toNat = false →
    ∃ u, exec (.prepareReceive gid t) s = .next u ∧ u = { s with
      groups := u.groups
      fabricOut := s.fabricOut ++ [{ dst := g.members.getD 0 0, body := .ready g.id g.rank t (s.versionDigest h t.toNat) }] } ∧
      u.group? h = some { g with prepared := none, asked := if g.asked.ult t then t else g.asked }) ∧
  (∀ (s : State) (gid h rank d : Nat) (t : DWord) (g : Group), s.running = true → s.handleOf gid = some h → s.group? h = some g → g.rank = 0 →
    g.advance = some t → rank ≠ 0 → rank < g.size →
    let r := tabSet g.ready rank d
    (r.length < g.size → exec (.readyReceive gid rank t d) s = .next { s with groups := tabSet s.groups h { g with ready := r, silent := g.silent.filter (· != rank) } }) ∧
    (¬ r.length < g.size → (∀ x ∈ r, x.2 = tabGet 0 r 0) → g.epoch.toNat < t.toNat → g.goal.toNat ≤ t.toNat →
      ∃ u gu, exec (.readyReceive gid rank t d) s = .next u ∧ u.group? h = some gu ∧ gu.epoch = t ∧ gu.advance = none ∧
        u.wagglesOut.length = s.wagglesOut.length + 1 ∧ u.tables = s.tables)) ∧
  (∀ (s : State) (h : Nat) (t : DWord) (g : Group), s.running = true → s.group? h = some g → g.advance = some t → ¬ g.ready.length < g.size →
    (∃ x ∈ g.ready, x.2 ≠ tabGet 0 g.ready 0) → g.size ≠ 1 → s.tentativeBelow h t.toNat = false →
    exec (.prepareRetry h) s = .next { s with
      groups := tabSet s.groups h { g with ready := [(0, s.versionDigest h t.toNat)], prepared := none }
      fabricOut := s.fabricOut ++ ((List.range g.size).filter (· != g.rank)).map (fun r => { dst := g.members.getD r 0, body := .prepare g.id t }) }) ∧
  (∀ (s : State) (h : Nat) (g : Group), s.running = true → s.group? h = some g → g.size ≠ 1 → g.rank ≠ 0 →
    let l := BitVec.ofNat 64 (s.ownLow h g)
    exec (.lowReport h) s = .next { s with
      groups := tabSet s.groups h { g with reported := l }
      fabricOut := s.fabricOut ++ [{ dst := g.members.getD 0 0, body := .lowReport g.id g.rank l }] }) ∧
  (∀ (s : State) (gid h rank : Nat) (l : DWord) (g : Group), s.running = true → s.handleOf gid = some h → s.group? h = some g → g.rank = 0 → rank < g.size →
    exec (.lowReportReceive gid rank l) s = .next { s with groups := tabSet s.groups h { g with lows := tabSet g.lows rank l.toNat, silent := g.silent.filter (· != rank) } }) ∧
  (∀ (s : State) (h : Nat) (g : Group), s.running = true → s.group? h = some g → g.rank = 0 → g.size ≠ 1 → g.size ≤ (tabSet g.lows 0 0).length →
    ∃ u, exec (.lowBroadcast h) s = .next u ∧ u = { s with
      groups := tabSet s.groups h { g with low := BitVec.ofNat 64 (s.coordLow h g) }
      wagglesOut := u.wagglesOut, waggleSeq := (s.waggleSeq + 1) % 65536 } ∧ ∃ w, u.wagglesOut = s.wagglesOut ++ [w] ∧ w.take 1 = [2#8]) ∧
  (∀ (s : State) (h r : Nat) (rest : List Nat) (g : Group), s.running = true → s.keeperUp = true → s.group? h = some g → g.size ≠ 1 →
    (∀ x ∈ r :: rest, x < g.size ∧ x ≠ g.rank) → s.logFull = false →
    ∃ u, exec (.groupDegraded h (r :: rest)) s = .next u ∧
      EventOnly { s with groups := tabSet s.groups h { g with silent := (g.silent ++ (r :: rest)).eraseDups } } u ∧ u.log.next = s.log.next + 1 ∧
      ∃ e, u.log.entries.getLast? = some e ∧ e.code = 0x33 ∧ e.data = bytesLE 4 g.id ++ bytesLE 2 r) ∧
  (∀ (s : State) (h : Nat) (g : Group), g.silent ≠ [] → s.coordLow h g = g.low.toNat) ∧
  (∀ (s : State) (gid h rank : Nat) (t : DWord) (l : List (Nat × Nat × Nat)) (g : Group), s.running = true → s.keeperUp = true → s.handleOf gid = some h →
    s.group? h = some g →
    let own := s.versionList h t.toNat
    let bad := ((own ++ l).map (·.1)).eraseDups.filter (fun x => own.filter (fun v => v.1 == x) != l.filter (fun v => v.1 == x))
    let lacks := l.filter (fun v => !own.contains v && !g.missing.contains v)
    s.log.entries.length + bad.length ≤ 1024 →
    ∃ u, exec (.versionListReceive gid rank t l) s = .next u ∧
      EventOnly { s with groups := tabSet s.groups h { g with missing := g.missing ++ lacks } } { u with fabricOut := s.fabricOut } ∧
      u.log.next = s.log.next + bad.length ∧
      u.fabricOut = s.fabricOut ++ (if rank = 0 ∧ g.rank ≠ 0 then
        ((List.range g.size).filter (· != g.rank)).map (fun r => { dst := g.members.getD r 0, body := .versions gid g.rank t own }) else []))

/-- SPAN_BIND sets or clears a span queue's binding. A span record for this member waits while its queue cannot place it, else starts its hop launch; a return frees its entry, lands in the
home cell and signals; a timeout writes a header with TIMEOUT and signals. OPEN_WINDOW opens a window under a fresh key; a probe is answered with its check; an access that
fails a check is refused, counted and answered with the check, one that passes is applied or read and answered; CLOSE_WINDOW marks it and WINDOW_CLOSED frees it.
IMPORT_WINDOW probes the owner, an accepting answer takes the lowest free slot, RELEASE_IMPORT drains it; a response completes the thread's load; a
probe without answer is refused.
Completion: under its conditions on the state and the operands alone, exec answers a next state for each of `spanBind`, `spanRecordArrival`,
`spanReturnArrival`, `spanTimeout`, `openWindow`, `importWindow`, `windowProbeReceive`, `windowAccessAtOwner`, `windowResponse`, `windowTimeout`,
`closeWindow`, `windowClosed`, `releaseImport`, `probeAnswerReceive`. -/
def Obligations.SpansAndWindowsServe : Prop :=
  (∀ (s : State) (p : List Byte) (g : Group), AdminHead s 0x22 24 p →
    let q := leAt p 4 2
    let im := leAt p 8 8
    s.group? (leAt p 0 4) = some g → g.kind = 1 → q ≤ 1023 → (s.queue q).status ≠ .free → (s.queue q).span = true → s.queuePart q = g.partition → leAt p 7 1 = 0 → allZero (p.drop 0x10) = true →
    (im ≠ 0 → leAt p 6 1 ≤ 6 ∧ ∃ i, tabFind s.images im = some i ∧ i.partition = g.partition ∧ (i.variant (2 ^ leAt p 6 1)).isSome = true) →
    s.hopInFlight q = false →
    exec .spanBind s = .next (s.answered (s.setQueue q { s.queue q with binding := if im = 0 then none else some (leAt p 0 4, leAt p 6 1, im) }) stOk 0 [])) ∧
  (∀ (s : State) (h q fp id : Nat) (r : List Byte) (po : List Nat) (g : Group) (im : Image) (v : Variant), s.running = true → s.handleOf (leAt r 4 4) = some h →
    s.group? h = some g → leAt r 0 2 = 0x5350 → leAt r 2 2 = g.rank → g.kind = 1 → s.spanQueue h = some q → s.stagingUsed + r.length ≤ stagingBytes →
    s.spanWait = [] → s.spanPort = [] → (∀ f ∈ s.fanStages, f.held = false) →
    let z := { s with spanWait := [(q, r, po)] }
    (z.hopLeaves q = false →
      exec (.spanRecordArrival r po) s = .next (if z.hopShort q then z.modQueue q (fun x => { x with waits := true }) else z)) ∧
    (z.hopLeaves q = true → (s.queue q).binding = some (h, fp, id) → tabFind s.images id = some im →
      im.variant (2 ^ fp) = some v → s.everFits q (2 ^ fp) = true →
      ∃ u, exec (.spanRecordArrival r po) s = .next u ∧ u.launch? s.nextLaunch = some (s.hopLaunch q h im id v r po) ∧ u.nextLaunch = s.nextLaunch + 1 ∧
        u.spanWait = [] ∧ u.queue q = (s.queue q).tookOne ∧ u.dram = s.dram ∧ u.fabricOut = s.fabricOut)) ∧
  (∀ (s : State) (r : List Byte) (po : List Nat) (e : RetEntry) (off sem : Nat), s.running = true → tabFind s.returns (leAt r 0x10 4) = some e →
    e.kind = .span off sem → e.ended = false → s.answers e r = true → (s.cell e.cell).ingress = [] →
    let gran := (List.range ((r.length + 63) / 64)).map (fun i => ((r.drop (64 * i)).take 64, po.contains i, off + 64 * i))
    (∀ p ∈ gran, calReaches (s.cell e.cell).calendar .ingress p.2.2 p.1.length = true) →
    ((s.cell e.cell).sem sem).toNat < 65535 → (s.cell e.cell).semWaiters sem = [] →
    ∃ u, exec (.spanReturnArrival r po) s = .next u ∧ u.returns = tabErase s.returns (leAt r 0x10 4) ∧
      ((u.cell e.cell).sem sem).toNat = ((s.cell e.cell).sem sem).toNat + 1 ∧ u.dram = s.dram ∧
      (u.cell e.cell).scratch = gran.foldl (fun (m : Memory) p => m.store 64 p.2.2 p.1 p.2.1 false) (s.cell e.cell).scratch ∧
      ∀ d, d ≠ e.cell → u.cell d = s.cell d) ∧
  (∀ (s : State) (tag off sem : Nat) (e : RetEntry), s.running = true → tabFind s.returns tag = some e → e.kind = .span off sem → e.ended = false →
    (s.cell e.cell).ingress = [] → calReaches (s.cell e.cell).calendar .ingress off 64 = true → ((s.cell e.cell).sem sem).toNat < 65535 →
    (s.cell e.cell).semWaiters sem = [] →
    ∃ u h, exec (.spanTimeout tag) s = .next u ∧ u.returns = tabErase s.returns tag ∧ ((u.cell e.cell).sem sem).toNat = ((s.cell e.cell).sem sem).toNat + 1 ∧
      (u.cell e.cell).scratch = (s.cell e.cell).scratch.store 64 off h false false ∧ h.length = 64 ∧ leAt h 0x14 1 = stTimeout ∧ leAt h 0x10 4 = tag % 2 ^ 32 ∧
      u.dram = s.dram ∧ ∀ d, d ≠ e.cell → u.cell d = s.cell d) ∧
  (∀ (s : State) (p : List Byte), AdminHead s 0x30 32 p →
    let c := leAt p 2 2
    let va := leAt p 8 8
    let size := leAt p 0x10 8
    let x := s.win (s.ctx c).partition (leAt p 0 1)
    (s.ctx c).used = true → leAt p 1 1 ≠ 0 → leAt p 1 1 ≤ 3 → leAt p 4 4 ≠ 0 → leAt p 4 4 ∉ x.lastKeys → va % 65536 = 0 → size % 65536 = 0 → 65536 ≤ size →
    size ≤ 2 ^ 34 → va + size ≤ 2 ^ 48 → leAt p 0x1E 2 = 0 → s.dramOnly c va size = true → x.opened = false →
    exec .openWindow s = .next (s.answered (s.setWin (s.ctx c).partition (leAt p 0 1) (Window.mk true false (leAt p 1 1) c (leAt p 4 4)
      ((leAt p 4 4 :: x.lastKeys).take 4) va size (leAt p 0x18 3) (leAt p 0x1B 3))) stOk 0 [])) ∧
  (∀ (s : State) (src tag part win key perm : Nat), s.running = true →
    exec (.windowProbeReceive src tag part win key perm) s = .next { s with
      fabricOut := s.fabricOut ++ [{ dst := src, body := .winProbeAck tag ((s.win part win).check src key perm) (s.win part win).size part }] }) ∧
  (∀ (s : State) (src tag part win key off n k : Nat) (wr : Bool) (bs : List Byte) (po : Bool), s.running = true →
    (s.win part win).check src key (if wr then 2 else 1) = k → k ≠ 0 →
    ∃ u, exec (.windowAccessAtOwner src tag part win key off wr bs n po) s = .next u ∧
      u = { s with
        fabricOut := s.fabricOut ++ [{ dst := src, body := .winAck tag k part }]
        keyFails := u.keyFails, log := u.log, fieldOut := u.fieldOut, dict := u.dict, counters := u.counters } ∧
      u.entry 0x5308 0 = satAdd (dictBits (dkey 0x5308 0)) (s.entry 0x5308 0) 1) ∧
  (∀ (s : State) (src tag part win key off n : Nat) (bs : List Byte) (po : Bool), s.running = true →
    let x := s.win part win
    x.check src key 2 = 0 → off + bs.length ≤ x.size → s.allPresent x.context (x.vbase + off) bs.length = true →
    exec (.windowAccessAtOwner src tag part win key off true bs n po) s = .next (keepQueue s { s.vwrite x.context (x.vbase + off) bs po with
      fabricOut := (s.vwrite x.context (x.vbase + off) bs po).fabricOut ++ [{ dst := src, body := .winAck tag 0 part }] })) ∧
  (∀ (s : State) (src tag part win key off n a e : Nat) (big : Bool) (bs : List Byte) (po : Bool), s.running = true →
    let x := s.win part win
    x.check src key 1 = 0 → off + n ≤ x.size → s.allPresent x.context (x.vbase + off) n = true →
    (spanPages (x.vbase + off) n).map (fun p => pagePart (x.vbase + off) n p) = [(a, n)] → (s.ctx x.context).leaf a = some (e, big) →
    exec (.windowAccessAtOwner src tag part win key off false bs n po) s = .next { s with
      fabricOut := s.fabricOut ++ [{ dst := src, body := .winData tag part (s.memRead (leafPa e big a) n).1 (s.memRead (leafPa e big a) n).2.1 }] }) ∧
  (∀ (s : State) (p : List Byte), AdminHead s 0x31 8 p → leAt p 2 6 = 0 → leAt p 0 1 ≤ 15 → (s.win (leAt p 0 1) (leAt p 1 1)).opened = true →
    exec .closeWindow s = .next (s.awaits (s.setWin (leAt p 0 1) (leAt p 1 1) { s.win (leAt p 0 1) (leAt p 1 1) with closing := true })
      (.window (leAt p 0 1) (leAt p 1 1)) false)) ∧
  (∀ (s : State) (p win : Nat), s.running = true → p < 16 → (s.win p win).opened = true → (s.win p win).closing = true →
    ∃ u, exec (.windowClosed p win) s = .next u ∧ u.win p win = { Window.none with lastKeys := (s.win p win).lastKeys } ∧
      HostOnly { s with windows := u.windows } u ∧ u.admin.work = s.admin.work.filter (fun w => w.waits != .window p win)) ∧
  (∀ (s : State) (p : List Byte), AdminHead s 0x32 16 p → (s.ctx (leAt p 0 2)).used = true → leAt p 2 1 ≠ 0 → leAt p 2 1 ≤ 3 → leAt p 7 1 ≤ 15 → leAt p 0xC 4 = 0 →
    (tabFree s.imports 0 4096).isSome = true →
    exec .importWindow s = .next (s.awaits { s with
      nextTag := s.nextTag + 1
      probes := tabSet s.probes s.nextTag { context := leAt p 0 2, perm := leAt p 2 1, window := leAt p 3 1, owner := leAt p 4 3, ownerPart := leAt p 7 1, key := leAt p 8 4 }
      fabricOut := s.fabricOut ++ [{ dst := leAt p 4 3, body := .winProbe s.nextTag (leAt p 7 1) (leAt p 3 1) (leAt p 8 4) (leAt p 2 1) }] } (.probe s.nextTag) true)) ∧
  (∀ (s : State) (tag size i : Nat) (pr : Probe), s.running = true → tabFind s.probes tag = some pr → tabFree s.imports 0 4096 = some i →
    ∃ u, exec (.probeAnswerReceive tag 0 size) s = .next u ∧ HostOnly { s with
      probes := tabErase s.probes tag
      imports := tabSet s.imports i { context := pr.context, partition := (s.ctx pr.context).partition, owner := pr.owner, ownerPart := pr.ownerPart, window := pr.window, key := pr.key, perm := pr.perm, size := size, releasing := false } } u ∧
      u.admin.work = s.admin.work.filter (fun w => w.waits != .probe tag)) ∧
  (∀ (s : State) (tag c t rd va n y : Nat) (sx : Bool) (bs : List Byte) (r : WindowReq) (l : Launch), s.running = true → tabFind s.winReqs tag = some r →
    r.user = .load c t → s.launch? r.launch = some l → (l.phase = .running ∨ l.phase = .marked) → (s.thread c t).waits = .vaLoad rd va n sx (some y) →
    ∃ u, exec (.windowResponse tag 0 bs false) s = .next u ∧ u = { s with winReqs := tabErase s.winReqs tag, cells := u.cells } ∧
      u.thread c t = { (s.thread c t).setReg rd (loadValue (bs.take n) sx) with status := .running, waits := .nothing } ∧
      (∀ k, k ≠ t → u.thread c k = s.thread c k) ∧ ∀ d, d ≠ c → u.cell d = s.cell d) ∧
  (∀ (s : State) (tag : Nat), s.running = true → (tabFind s.probes tag).isSome = true →
    ∃ u, exec (.windowTimeout tag) s = .next u ∧ HostOnly { s with probes := tabErase s.probes tag } u ∧
      u.admin.work = s.admin.work.filter (fun w => w.waits != .probe tag)) ∧
  (∀ (s : State) (p : List Byte) (im : Import), AdminHead s 0x33 8 p → tabFind s.imports (leAt p 0 2) = some im → leAt p 2 6 = 0 → im.releasing = false →
    s.slotMapped (leAt p 0 2) = false →
    let d := ({ s with imports := tabSet s.imports (leAt p 0 2) { im with releasing := true } }).startDrain 0 0 0 (some (leAt p 0 2)) false
    exec .releaseImport s = .next (s.awaits d.1 (.release d.2 (leAt p 0 2)) true))

/-- PART_CREATE of a sound record within the limits zeroes its frames and cells and makes it ACTIVE with its frames drawn; PART_DESTROY of one without contexts frees it.
PART_RESET makes it RESETTING and waits; PARTITION_RESET_DONE brings it back ACTIVE, its groups gone, its reset counted. CTX_CREATE makes a context; CTX_DESTROY
marks it, its queues die, and the command waits; CONTEXT_TORN_DOWN at its safe points removes it and answers; TEARDOWN_TIMEOUT resets its partition.
DRAIN_COMPLETE ends a drain, counts it and answers the commands that wait for it.
Completion: under its conditions on the state and the operands alone, exec answers a next state for each of `partCreate`, `partDestroy`, `partReset`,
`partitionResetDone`, `ctxCreate`, `ctxDestroy`, `contextTornDown`, `teardownTimeout`, `drainComplete`. -/
def Obligations.PartitionsAndContexts : Prop :=
  (∀ (s : State) (r : List Byte), AdminHead s 0x01 64 r → partRecordOk r = true → (s.part (leAt r 0 1)).state = .free → s.partFits r = true →
    let frames := drawFrames (leAt r 4 2) ((List.range 4).map s.freeFrames) [0, 0, 0, 0] []
    let mask := BitVec.ofNat 16 (leAt r 2 2)
    exec .partCreate s = .next (s.answered ((s.zeroPart frames mask).setPart (leAt r 0 1) { Partition.none with
      state := .active
      combMask := mask
      frames := BitVec.ofNat 16 (leAt r 4 2)
      rcShare := BitVec.ofNat 8 (leAt r 6 1)
      foragerWt := BitVec.ofNat 8 (leAt r 7 1)
      contexts := BitVec.ofNat 16 (leAt r 8 2)
      queues := BitVec.ofNat 16 (leAt r 0xA 2)
      frameList := frames
      resets := (s.part (leAt r 0 1)).resets }) stOk 0 [])) ∧
  (∀ (s : State) (r : List Byte), AdminHead s 0x02 8 r → leAt r 0 1 ≤ 15 → leAt r 1 7 = 0 → (s.part (leAt r 0 1)).state = .active →
    (∀ c ∈ s.contexts, ¬ (c.2.used = true ∧ c.2.partition = leAt r 0 1)) →
    exec .partDestroy s = .next (s.answered ((s.clearPart (leAt r 0 1)).setPart (leAt r 0 1) { Partition.none with resets := (s.part (leAt r 0 1)).resets }) stOk 0 [])) ∧
  (∀ (s : State) (r : List Byte), AdminHead s 0x03 8 r → leAt r 0 1 ≤ 15 → leAt r 1 7 = 0 → (s.part (leAt r 0 1)).state = .active →
    ∃ u, exec .partReset s = .next u ∧ u = s.awaits (s.resetPart (leAt r 0 1) 2) (.partition (leAt r 0 1)) false ∧
      (u.part (leAt r 0 1)).state = .resetting) ∧
  (∀ (s : State) (p : Nat), s.running = true → p < 16 → (s.part p).state = .resetting → s.launchesQuiet (fun l => l.partition == p) = true →
    (∀ q ∈ s.queues, q.2.status ≠ .free → s.queuePart q.1 = p → s.queueDead q.1 = true) →
    ∃ u, exec (.partitionResetDone p) s = .next u ∧ (u.part p).state = .active ∧ (u.part p).resets = BitVec.ofNat 64 (satAdd 64 (s.part p).resets.toNat 1) ∧
      ∀ g ∈ u.groups, g.2.partition ≠ p) ∧
  (∀ (s : State) (b : List Byte), AdminHead s 0x08 24 b → leAt b 0 2 ≤ 255 → leAt b 2 1 ≤ 15 → (s.part (leAt b 2 1)).state = .active → leAt b 3 5 = 0 →
    leAt b 8 8 % 65536 = 0 → leAt b 0x10 8 % 65536 = 0 → leAt b 8 8 + leAt b 0x10 8 ≤ 2 ^ 48 → (s.ctx (leAt b 0 2)).used = false →
    (s.contexts.filter (fun x => x.2.used && x.2.partition == leAt b 2 1)).length < (s.part (leAt b 2 1)).contexts.toNat →
    exec .ctxCreate s = .next (s.answered (s.setCtx (leAt b 0 2) { Context.unused with
      used := true
      partition := leAt b 2 1
      saveBase := leAt b 8 8
      saveSize := leAt b 0x10 8 }) stOk 0 [])) ∧
  (∀ (s : State) (b : List Byte), AdminHead s 0x09 8 b → (s.ctx (leAt b 0 2)).used = true → (s.ctx (leAt b 0 2)).dying = false → leAt b 2 6 = 0 →
    ∃ u, exec .ctxDestroy s = .next u ∧ u.ctx (leAt b 0 2) = { s.ctx (leAt b 0 2) with dying := true } ∧
      u.admin = { s.admin with
        taken := s.admin.taken + 1#64
        work := s.admin.work ++ [{ index := s.admin.taken.toNat, cmdId := ahCmdId s.admSlot, waits := .context (leAt b 0 2), start := s.admin.start, blocks := false }] } ∧
      (∀ q x, tabFind s.queues q = some x → x.status ≠ .free → x.context = leAt b 0 2 → (u.queue q).status = .dying) ∧ u.dram = s.dram ∧ u.tables = s.tables) ∧
  (∀ (s : State) (c : Nat), s.running = true → (s.ctx c).dying = true → (s.part (s.ctx c).partition).state = .active → s.teardownSafe c = true →
    (∀ q ∈ s.queues, q.2.status ≠ .free → q.2.context = c → s.queueDead q.1 = true) →
    s.drained { id := 0, context := c, va := 0, length := 0, big := [], slot := none, move := false } = true → tabSorted s.contexts = true →
    ∃ u, exec (.contextTornDown c) s = .next u ∧ u.ctx c = Context.unused ∧ ∀ w ∈ u.admin.work, w.waits ≠ .context c) ∧
  (∀ (s : State) (c : Nat), s.running = true → (s.ctx c).dying = true → s.teardownSafe c = false → (s.part (s.ctx c).partition).state = .active →
    ∃ u, exec (.teardownTimeout c) s = .next u ∧ (u.part (s.ctx c).partition).state = .resetting ∧ (u.part (s.ctx c).partition).cause = 0) ∧
  (∀ (s : State) (id : Nat) (d : Drain), s.running = true → s.drains.find? (fun d => d.id == id) = some d → s.drained d = true →
    (∀ w ∈ s.admin.work, w.waits ≠ .unmap id d.context) →
    ∃ u, exec (.drainComplete id) s = .next u ∧ HostOnly { s with
      drains := s.drains.filter (fun e => e.id != id)
      imports := match d.slot with
        | some i => tabErase s.imports i
        | none => s.imports } u ∧ u.entry 0x6043 0 = satAdd (dictBits (dkey 0x6043 0)) (s.entry 0x6043 0) 1 ∧ ∀ w ∈ u.admin.work, w.waits ≠ .drain id)

/-- NOP completes OK when taken. LAUNCH admits the launch its header describes. LAUNCH_PLACE puts a taken launch that none outranks on the cells R254
chooses, its threads held while a resident region loads. RESIDENT_LOAD_DONE tags the cell, and the last one starts thread 0 everywhere.
PREEMPT_WAIT_EXPIRY marks the victims; PREEMPT_MARK_REPLY sets the target one above the highest reported count and tells the cells; SAVE_START
writes the cell records; SAVE_COMPLETE frees the cells; RESUME puts the launch back on cells. RESTORE_LAUNCH admits a save as a saved launch,
DROP_SAVE removes one and answers where it lies. The order of a launch that is taken but not placed among those that wait is the model's
reading (log entry 14).
Completion: under its conditions on the state and the operands alone, exec answers a next state for each of `nop`, `launch`, `launchPlace`,
`residentLoadDone`, `preemptWaitExpiry`, `preemptMarkReply`, `saveStart`, `saveComplete`, `resume`, `restoreLaunch`, `dropSave`. -/
def Obligations.LaunchesAreTakenPlacedAndPreempted : Prop :=
  (∀ (s : State) (q : Nat) (b : List Byte), QueueHead s q 0 b →
    ∃ u, exec (.nop q) s = .next u ∧ EndsAs s u q b stOk 0 ∧
      u = { s with queues := u.queues, partitions := u.partitions, dict := u.dict, counters := u.counters }) ∧
  (∀ (s : State) (q : Nat) (b : List Byte) (im : Image) (v : Variant), QueueHead s q 1 b → tabFind s.images (chImageId b) = some im →
    im.variant (2 ^ chFpLog2 b) = some v →
    ∃ u, exec (.launch q) s = .next u ∧ u.launch? s.nextLaunch = some (s.newLaunch q b im v) ∧ u.nextLaunch = s.nextLaunch + 1 ∧
      u.queue q = (s.queue q).tookOne ∧
      u = { s with
        launches := u.launches, nextLaunch := u.nextLaunch, tables := u.tables, queues := u.queues, partitions := u.partitions, dict := u.dict
        counters := u.counters }) ∧
  (∀ (s : State) (lid : Nat) (l : Launch) (cells : List Nat), s.running = true → s.launch? lid = some l → l.phase = .taken →
    s.everFits l.queue l.variant.footprint = true → s.outranked l.partition l.priority = false →
    s.choosePlacement l.queue l.image l.variant.footprint (s.freeCells l.queue) = some cells → cells.Nodup →
    let left := (((List.range cells.length).zip cells).filter (s.mustLoad l)).map (fun rc => rc.1)
    ∃ u, exec (.launchPlace lid) s = .next u ∧
      u.launch? lid = some { l with phase := .running, cells := cells, startTime := s.time, order := s.nextOrder, loadsLeft := left } ∧
      u.nextOrder = s.nextOrder + 1 ∧ u.dram = s.dram ∧
      (∀ r c, cells[r]? = some c → (u.cell c).launch = some lid ∧ (u.cell c).rank = r ∧ (u.cell c).calendar = bootCalendar ∧
        (u.thread c 0).pc = BitVec.ofNat 32 l.variant.entry ∧ (u.thread c 0).status = (if left = [] then .running else .idle)) ∧
      ∀ d, d ∉ cells → d ≠ cells.headD 0 → u.cell d = s.cell d) ∧
  (∀ (s : State) (c lid : Nat) (l : Launch), OnCell s c → s.activeLaunch c = some (lid, l) → (s.cell c).rank ∈ l.loadsLeft →
    let r := l.variant.resident (s.cell c).rank
    let left := l.loadsLeft.filter (· != (s.cell c).rank)
    (∃ b po su, s.tread (tlbOf (.resident c)) (match tabFind s.images l.image with | some im => im.context | none => l.context) .read
      (l.imageBase + r.dataOff) r.spLen = .ok b po su) →
    ∃ u, exec (.residentLoadDone c) s = .next u ∧ (u.cell c).residency = some (l.tag (s.cell c).rank) ∧
      u.launch? lid = some { l with loadsLeft := left } ∧ u.dram = s.dram ∧
      (left = [] → ∀ d ∈ l.cells, (u.thread d 0).status = .running) ∧ (left ≠ [] → ∀ d, d ≠ c → u.cell d = s.cell d) ∧
      ∀ d, d ≠ c → d ∉ l.cells → u.cell d = s.cell d) ∧
  (∀ (s : State) (q im f : Nat) (vs : List (Nat × Launch)), s.running = true → q < 1024 → s.waitingFor q = some (im, f) →
    ((s.queue q).preempting && s.preempts (s.queuePart q)) = false →
    (s.victimPrefix q im f (s.freeCells q) []
      ((s.candidates q).filter (fun l => (s.freeRun l.2.context (saveBytes l.2.variant) []).isSome))).1 = some vs →
    ∃ u, exec (.preemptWaitExpiry q) s = .next u ∧ u.queue q = { s.queue q with preempting := !vs.isEmpty } ∧ u.dram = s.dram ∧
      (∀ v ∈ vs, (∃ x, u.launch? v.1 = some x ∧ x.phase = .marked ∧ x.target = none) ∧ ∀ c ∈ v.2.cells, (u.cell c).mark = .marked)) ∧
  (∀ (s : State) (lid : Nat) (l : Launch), s.running = true → s.launch? lid = some l → l.phase = .marked → l.target = none → l.cells.Nodup →
    let n := (highestCount (l.reports.map (fun r => r.2)) + 1) % 16384
    ∃ u, exec (.preemptMarkReply lid) s = .next u ∧ u = { s with launches := tabSet s.launches lid { l with target := some n }, cells := u.cells } ∧
      (∀ c ∈ l.cells, u.cell c = (s.cell c).learnTarget n) ∧ ∀ c, c ∉ l.cells → u.cell c = s.cell c) ∧
  (∀ (s : State) (lid a n p0 : Nat) (l : Launch), s.running = true → s.launch? lid = some l → l.phase = .marked →
    (∀ c ∈ l.cells, (s.cell c).layer = .halted ∧ (s.cell c).quiet = true) → (∀ r ∈ s.returns, r.2.launch ≠ lid) → l.save = some (a, n) →
    PagesWalked s lid l (saveCell l.cells a (0x1200 + l.variant.extent)) l.context .write a (saveBytes l.variant) p0 →
    ∃ u, exec (.saveStart lid) s = .next u ∧ u.launch? lid = some { l with phase := .saving, restored := false, walked := [] } ∧
      (∀ c, u.cell c = { s.cell c with residency := (u.cell c).residency }) ∧ u.tables = s.tables) ∧
  (∀ (s : State) (lid a n : Nat) (l : Launch), s.running = true → s.launch? lid = some l → l.phase = .saving → l.save = some (a, n) →
    ∃ u, exec (.saveComplete lid) s = .next u ∧ u.launch? lid = some { l with
      phase := .saved
      preempted := true
      elapsed := s.elapsedNs l
      sticky := s.stickyOf l
      cells := []
      target := none
      reports := [] } ∧ (∀ c ∈ l.cells, (u.cell c).launch = none) ∧ ∀ c, c ∉ l.cells → u.cell c = s.cell c) ∧
  (∀ (s : State) (lid a n p0 : Nat) (l : Launch) (cells : List Nat) (h : List Byte) (po su : Bool), s.running = true → s.launch? lid = some l →
    l.phase = .saved → l.save = some (a, n) → s.everFits l.queue l.variant.footprint = true → s.mayResume l = true →
    s.choosePlacement l.queue l.image l.variant.footprint (s.freeCells l.queue) = some cells →
    PagesWalked s lid l (fun _ => cells.headD 0) l.context .read a 256 p0 →
    s.vread l.context .read a 256 = .ok h po su →
    PagesWalked s lid l (saveCell cells a (leAt h 0x30 4)) l.context .read a (256 + l.variant.footprint * leAt h 0x30 4) p0 →
    ∃ u, exec (.resume lid) s = .next u ∧ u.launch? lid = some { l with
      phase := .running
      cells := cells
      save := none
      startTime := s.time
      order := s.nextOrder
      loadsLeft := []
      walked := [] } ∧ u.nextOrder = s.nextOrder + 1 ∧ u.dram = s.dram ∧ ∀ d, d ∉ cells → u.cell d = s.cell d) ∧
  (∀ (s : State) (p h : List Byte) (su : Bool) (im : Image) (v : Variant), AdminHead s 0x39 16 p →
    let q := leAt p 0 2
    let a := leAt p 8 8
    let f := leAt h 0x28 2
    let recs := (List.range f).map (fun i => s.vread (s.queue q).context .read (a + 256 + i * leAt h 0x30 4) 0x1200)
    q ≤ 1023 → (s.queue q).status = .active → leAt p 2 6 = 0 → a % 256 = 0 → s.saveOpen (s.queue q).context a = true → s.vread (s.queue q).context .read a 256 = .ok h false su →
    leAt h 0 2 = 0x5356 → leAt h 2 2 = 1 → saveRsvOk h = true → tabFind s.images (leAt h 8 8) = some im → im.partition = s.queuePart q → im.variant f = some v →
    leAt h 0x2C 4 ≤ scratchBytes → s.everFits q f = true →
    (∀ i, i < leAt h 0x42 1 → ∃ g, s.handleOf (leAt h (0x48 + 16 * i) 4) = some g ∧ s.handleIn (s.queuePart q) g = true) →
    (∀ r ∈ recs, ∃ b po s2, r = .ok b po s2 ∧ recordRsvOk b = true) →
    exec .restoreLaunch s = .next (s.answered ((({ s with free := s.free + 2 }).modQueue q (fun y => { y with outstanding := y.outstanding + 1 })).admitted
      (s.restoredLaunch q a h im v)) stOk 0 [])) ∧
  (∀ (s : State) (p : List Byte) (lid : Nat) (l : Launch), AdminHead s 0x3A 16 p →
    s.launches.find? (fun l => l.2.queue == leAt p 0 2 && l.2.launchId.toNat == leAt p 8 8 && l.2.phase == .saved) = some (lid, l) → leAt p 2 6 = 0 →
    exec .dropSave s = .next (s.answered (({ s with launches := tabErase s.launches lid }).modQueue (leAt p 0 2) (fun x => { x with outstanding := x.outstanding - 1 }))
      stOk 0 (bytesLE 8 (l.save.getD (0, 0)).1 ++ bytesLE 8 (l.save.getD (0, 0)).2)))

/-- SET_PIN sets an image's NO_PREEMPT pin, a block's NO_MOVE or STACK pin, or a queue's comb mask or cell set. PLACEMENT_PERIOD ages every quarter's heat by a quarter and adds
the sectors fetched, and closes the images' fetch counts. MIGRATION_COPY_DONE copies the quarter and, once no forward line lies in it and its
pinned lines have room and the split leaves fit the page-table store, rebinds its block and drains the old translations; FRAME_MOVED ends the migration, counted and noticed.
Completion: under its conditions on the state and the operands alone, exec answers a next state for each of `setPin`, `placementPeriod`, `migrationCopyDone`,
`frameMoved`. -/
def Obligations.PinsAndMigration : Prop :=
  (∀ (s : State) (p : List Byte) (im : Image), AdminHead s 0x38 32 p → leAt p 0 1 = 2 → leAt p 1 1 = 4 → leAt p 2 1 ≤ 1 → leAt p 3 1 = 0 → leAt p 4 2 = 0 →
    leAt p 6 2 = 0 → allZero ((p.drop 0x10).take 16) = true → tabFind s.images (leAt p 8 8) = some im →
    exec .setPin s = .next (s.answered { s with images := tabSet s.images (leAt p 8 8) { im with pinned := leAt p 2 1 == 0 } } stOk 0 [])) ∧
  (∀ (s : State) (p : List Byte) (k : Nat), AdminHead s 0x38 32 p → leAt p 0 1 = 0 → leAt p 2 1 ≤ 1 → leAt p 3 1 = 0 → leAt p 6 2 = 0 →
    (s.ctx (leAt p 4 2)).used = true → leAt p 8 8 % 2 ^ 28 = 0 → tabFind (s.ctx (leAt p 4 2)).blocks (leAt p 8 8 / 2 ^ 28) = some k →
    let x := s.ctx (leAt p 4 2)
    let b := leAt p 8 8 / 2 ^ 28
    let put := fun (y : FramePin) => s.setCtx (leAt p 4 2) { x with pins := tabSet x.pins b y }
    (leAt p 1 1 = 1 → allZero ((p.drop 0x10).take 16) = true →
      exec .setPin s = .next (s.answered (put { x.pin b with noMove := leAt p 2 1 == 0 }) stOk 0 [])) ∧
    (leAt p 1 1 = 0 → leAt p 2 1 = 1 → allZero ((p.drop 0x11).take 15) = true →
      exec .setPin s = .next (s.answered (put { x.pin b with stack := none }) stOk 0 [])) ∧
    (leAt p 1 1 = 0 → leAt p 2 1 = 0 → allZero ((p.drop 0x11).take 15) = true → leAt p 0x10 1 ≤ 3 →
      (quarterStack k = leAt p 0x10 1 ∨ (s.freeIn x.partition (leAt p 0x10 1)).isSome = true) →
      exec .setPin s = .next (s.answered (put { x.pin b with stack := some (leAt p 0x10 1) }).pinMove stOk 0 []))) ∧
  (∀ (s : State) (p : List Byte), AdminHead s 0x38 32 p → leAt p 0 1 = 1 → leAt p 2 1 ≤ 1 → leAt p 3 1 = 0 → leAt p 6 2 = 0 → leAt p 4 2 ≤ 1023 → leAt p 8 8 = 0 →
    let q := leAt p 4 2
    let combs := (s.part (s.queuePart q)).combMask
    let mask := BitVec.ofNat 16 (leAt p 0x10 2)
    let set := BitVec.ofNat 128 (leAt p 0x10 16)
    let cells := (List.range 128).filter (fun c => set.getLsbD c)
    (s.queue q).status ≠ .free →
    (leAt p 2 1 = 1 → leAt p 1 1 = 2 → allZero ((p.drop 0x12).take 14) = true → exec .setPin s = .next (s.answered (s.setQueue q { s.queue q with pinMask := none }) stOk 0 [])) ∧
    (leAt p 2 1 = 1 → leAt p 1 1 = 3 → exec .setPin s = .next (s.answered (s.setQueue q { s.queue q with pinSet := none }) stOk 0 [])) ∧
    (leAt p 2 1 = 0 → leAt p 1 1 = 2 → allZero ((p.drop 0x12).take 14) = true → mask ≠ 0#16 → mask &&& ~~~ combs = 0#16 →
      exec .setPin s = .next (s.answered (s.setQueue q { s.queue q with pinMask := some mask }) stOk 0 [])) ∧
    (leAt p 2 1 = 0 → leAt p 1 1 = 3 → (∀ c ∈ cells, combs.getLsbD (combOf c) = true ∧ s.outOfUse c = false) → shapeSet cells = true →
      exec .setPin s = .next (s.answered (s.setQueue q { s.queue q with pinSet := some set }) stOk 0 []))) ∧
  (∀ (s : State), s.running = true →
    ∃ u, exec .placementPeriod s = .next u ∧ u = { s with quarters := u.quarters, images := u.images, dict := u.dict, migration := u.migration } ∧
      u.quarters = s.quarters.map (fun q => (q.1, { q.2 with heat := q.2.heat - q.2.heat / 4 + q.2.fetched, fetched := 0 })) ∧
      u.images = s.images.map (fun i => (i.1, { i.2 with lastFetchA := i.2.fetchA, lastFetchB := i.2.fetchB, fetchA := 0, fetchB := 0 })) ∧
      (s.migration.isSome = true → u.migration = s.migration)) ∧
  (∀ (s : State) (m : Migration) (q : Quarter), s.running = true → s.migration = some m →
    (m.phase = .copied ∨ (m.phase = .copying ∧ (s.stackTherm (quarterStack m.src)).stage = 0 ∧ (s.stackTherm (quarterStack m.dst)).stage = 0)) →
    s.forwardIn m.src = false → tabFind s.quarters m.src = some q → s.damage = [] → s.fixups = [] → s.outsideHolds m.src q = false →
    (s.setCtx m.context ((s.ctx m.context).remap m.block m.src m.dst)).ptStoreBytes ≤ 671088640 →
    ((s.copyQuarter m.src m.dst).moveLines m.src m.dst).isSome = true →
    ∃ u, exec .migrationCopyDone s = .next u ∧ u.migration = some { m with phase := .draining } ∧ u.quarters = tabSet (tabErase s.quarters m.src) m.dst q ∧
      (u.ctx m.context).blocks = tabSet (s.ctx m.context).blocks m.block m.dst ∧
      u.dram = s.dram.copySpan 64 (m.src * 2 ^ 28) (m.dst * 2 ^ 28) (2 ^ 28) ∧ u.cells = s.cells ∧ u.tables = s.tables) ∧
  (∀ (s : State) (m : Migration), s.running = true → s.migration = some m → m.phase = .draining →
    (∀ d ∈ s.drains, d.move = true → s.drained d = true) → (∀ q ∈ s.quarters, ((s.ctx q.2.context).pin q.2.block).stack = none) →
    ∃ u, exec .frameMoved s = .next u ∧ u.migration = none ∧ u.drains = s.drains.filter (fun d => !d.move) ∧ u.dram = s.dram ∧ HostOnly { s with migration := none, drains := u.drains } u)

/-- A valid DB_TAIL or DB_CQ_HEAD write is taken over, any other is only counted. COMPLETION_POST posts the next record in end order. The modulation timer
sends the interrupt. QUEUE_TIMEOUT ends a launch or a command with TIMEOUT. QUEUE_CREATE makes a queue ACTIVE with its fields; QUEUE_DESTROY makes it
DYING and waits; the final record, which stays in its shadow, frees it; QUEUE_REATTACH makes an ORPHANED queue ACTIVE on its new ring.
Completion: under its conditions on the state and the operands alone, exec answers a next state for each of `dbTail`, `dbCqHead`, `completionPost`,
`msixModTimer`, `queueTimeout`, `queueCreate`, `queueDestroy`, `queueFinalRecord`, `queueReattach`. -/
def Obligations.QueuesDoorbellsAndRecords : Prop :=
  (∀ (s : State) (q : Nat) (v : DWord), s.running = true → q < 1024 → s.hostLanded none = true → (∀ r ∈ s.spanWait, r.1 ≠ q) → s.spanPort = [] → (∀ f ∈ s.fanStages, f.held = false) →
    (s.queue q).tailOk true v = true →
    ∃ u, exec (.dbTail q true v) s = .next u ∧ u = { s with queues := tabSet s.queues q { s.queue q with tail := v }, counters := u.counters }) ∧
  (∀ (s : State) (q : Nat) (w : Bool) (v : DWord), s.running = true → q < 1024 → s.hostLanded none = true → (∀ r ∈ s.spanWait, r.1 ≠ q) → s.spanPort = [] → (∀ f ∈ s.fanStages, f.held = false) →
    (s.queue q).tailOk w v = false →
    ∃ u, exec (.dbTail q w v) s = .next u ∧ CountOnly s u ∧ u.entry 0xA101 0 = satAdd (dictBits (dkey 0xA101 0)) (s.entry 0xA101 0) 1) ∧
  (∀ (s : State) (q : Nat) (v : DWord), s.running = true → q < 1024 → s.hostLanded none = true → (∀ r ∈ s.spanWait, r.1 ≠ q) → s.spanPort = [] → (∀ f ∈ s.fanStages, f.held = false) →
    (s.queue q).cqHeadOk true v = true →
    ∃ u, exec (.dbCqHead q true v) s = .next u ∧ u = { s with queues := tabSet s.queues q { s.queue q with cqHead := v }, counters := u.counters }) ∧
  (∀ (s : State) (q n st d ns : Nat) (id : DWord) (irq : Bool) (rest : List Ready), s.running = true → q < 1024 → s.postRoom 32 = true →
    (s.queue q).ready = .cmd id n st d irq ns :: rest → (s.queue q).ringLost = false →
    let x := s.queue q
    let bytes := completionBytes id.toNat n q st (phaseBit x.posted.toNat x.size * 128) 0 0 d 0 (min (ns / 1000) (2 ^ 32 - 1)) s.time.toNat
    ∃ u, exec (.completionPost q) s = .next u ∧ HostOnly { s with queues := u.queues } u ∧ (u.queue q).ready = rest ∧ (u.queue q).posted = x.posted + 1#64 ∧
      (u.queue q).outstanding = x.outstanding - 1 ∧ (u.queue q).shadow = tabSet x.shadow (x.posted.toNat % 64) bytes ∧
      (s.host.discarding = false → s.holdsPosts = false → irq = false →
        u.hostOut = s.hostOut ++ [.write (x.cqBase + x.posted.toNat % x.size * 32) bytes false])) ∧
  (∀ (s : State) (q l : Nat) (y : Launch) (rest : List Ready), s.running = true → q < 1024 → s.postRoom 32 = true → (s.queue q).ready = .launch l :: rest →
    s.launch? l = some y → s.launchQuiet l y = true → (s.queue q).ringLost = false →
    let x := s.queue q
    ∃ u, exec (.completionPost q) s = .next u ∧ HostOnly { s with queues := u.queues, launches := tabErase s.launches l } u ∧ (u.queue q).ready = rest ∧
      (u.queue q).posted = x.posted + 1#64 ∧
      (u.queue q).shadow = tabSet x.shadow (x.posted.toNat % 64) (y.record s.time (phaseBit x.posted.toNat x.size))) ∧
  (∀ (s : State) (q : Nat), s.running = true → q < 1024 → (s.queue q).irqCount ≠ 0 → (s.queue q).msix ≠ 0xFFFF → s.host.discarding = false → s.holdsPosts = false →
    ∃ u, exec (.msixModTimer q) s = .next u ∧ u = { s with
      queues := tabSet s.queues q { s.queue q with irqCount := 0 }
      hostOut := s.hostOut ++ [.msix (s.queue q).msix]
      counters := u.counters }) ∧
  (∀ (s : State) (q l : Nat) (x : Launch), s.running = true → q < 1024 → s.launch? l = some x → x.queue = q → (x.phase = .running ∨ x.phase = .marked ∨ x.phase = .saving) →
    ∃ u y, exec (.queueTimeout q (.launch l)) s = .next u ∧ u.launch? l = some y ∧ y.phase = .ended ∧ y.status = some stTimeout ∧ u.dram = s.dram) ∧
  (∀ (s : State) (q n : Nat) (k : CmdWork), s.running = true → q < 1024 → (s.queue q).work.find? (fun k => k.index == n && k.kind != 3) = some k →
    (∀ j ∈ (s.queue q).work, j.index = n → j.kind ≠ 3) → (s.queue q).status ≠ .dying →
    ∃ u, exec (.queueTimeout q (.work n)) s = .next u ∧ u = { s with queues := u.queues, dict := u.dict, counters := u.counters } ∧
      u.queue q = { s.queue q with
        work := (s.queue q).work.filter (fun j => j.index != n)
        ready := (s.queue q).ready ++ [.cmd k.launchId k.index stTimeout 0 k.irq (s.time - k.start).toNat] }) ∧
  (∀ (s : State) (b : List Byte), AdminHead s 0x10 64 b →
    let q := leAt b 0 2
    let c := leAt b 2 2
    let p := (s.ctx c).partition
    let live := s.queues.filter (fun k => k.2.status != QueueStatus.free)
    queueFieldsOk b = true → (s.ctx c).used = true → (s.ctx c).dying = false → (s.part p).state = .active →
    s.ringOverlaps (leAt b 8 4) (2 ^ leAt b 5 1 * 512) = false → (s.queue q).status = .free →
    (live.filter (fun k => s.queuePart k.1 == p)).length < (s.part p).queues.toNat → (live.filter (fun k => k.2.context == c)).length < 16 →
    exec .queueCreate s = .next (s.answered (s.setQueue q { Queue.free with
      status := .active
      context := c
      priority := leAt b 4 1
      log2Slots := leAt b 5 1
      msix := leAt b 6 2
      ringOff := leAt b 8 4
      timeoutUs := leAt b 0xC 4
      cqBase := leAt b 0x10 8
      modCount := leAt b 0x18 2
      modUs := leAt b 0x1A 2
      span := leAt b 0x1C 1 == 1 }) stOk 0 [])) ∧
  (∀ (s : State) (b : List Byte), AdminHead s 0x11 8 b → leAt b 0 2 ≤ 1023 → leAt b 2 6 = 0 → (s.queue (leAt b 0 2)).status ≠ .free →
    ∃ u, exec .queueDestroy s = .next u ∧ u = s.awaits (s.queueDie (leAt b 0 2) stQueueDestroyed) (.queue (leAt b 0 2)) false ∧
      (u.queue (leAt b 0 2)).status = .dying) ∧
  (∀ (s : State) (q : Nat), s.running = true → q < 1024 → s.queueDead q = true → (s.ctx (s.queue q).context).dying = false →
    (s.part (s.queuePart q)).state ≠ .resetting →
    let x := s.queue q
    let bytes := completionBytes 0 (x.taken.toNat % 2 ^ 32) q x.cause (phaseBit x.posted.toNat x.size * 128) 0 0 0 0 0 s.time.toNat
    ∃ u, exec (.queueFinalRecord q) s = .next u ∧ (u.queue q).status = .free ∧ (u.queue q).posted = x.posted + 1#64 ∧
      (u.queue q).shadow = tabSet x.shadow (x.posted.toNat % 64) bytes ∧ u.launches = s.launches.filter (fun l => l.2.queue != q) ∧
      (∀ w ∈ u.admin.work, w.waits ≠ .queue q) ∧ HostOnly { s with queues := u.queues, launches := u.launches } u) ∧
  (∀ (s : State) (b : List Byte), AdminHead s 0x12 16 b → leAt b 0 2 ≤ 1023 → leAt b 2 6 = 0 → leAt b 8 8 % 4096 = 0 → (s.queue (leAt b 0 2)).status = .orphaned →
    (s.queue (leAt b 0 2)).parked = [] →
    exec .queueReattach s = .next (s.answered (s.setQueue (leAt b 0 2) { s.queue (leAt b 0 2) with
      status := .active
      cqBase := leAt b 8 8
      posted := 0#64
      cqHead := 0#64
      tail := (s.queue (leAt b 0 2)).taken
      ringLost := false
      parked := []
      irqCount := 0 }) stOk 0 []))

/-- A rising ADM_DB_TAIL announces commands; ADM_CQ_HEAD and NOTE_HEAD are taken over; ADM_CTRL = 1 starts the queue with its counts zero. After the holdoff the admin
interrupt that was pending goes out, else the holdoff ends. IMAGE_LOAD of a readable, unpoisoned, sound image holds it under a new identity; IMAGE_UNLOAD
removes one no launch uses. REG_READ returns the register at an address of control space; REG_CLEAR clears its VALID bit.
Completion: under its conditions on the state and the operands alone, exec answers a next state for each of `admDbTail`, `admCqHead`, `noteHead`, `admCtrl`,
`imageLoad`, `imageUnload`, `regRead`, `regClear`, `adminIrqHoldoffExpiry`. -/
def Obligations.AdminQueueImagesAndRegisters : Prop :=
  (∀ (s : State) (v : DWord), s.running = true → s.hostLanded none = true → s.admin.running = true → s.admin.tail.ult v = true →
    let z := { s with admin := { s.admin with tail := v } }
    (z.admReady = false ∨ z.admRefusal z.admSlot = none) → exec (.admDbTail v) s = .next z) ∧
  (∀ (s : State) (v : DWord), s.running = true → s.admin.running = true → s.admin.cqHead.ult v = true → s.admin.posted.ult v = false →
    exec (.admCqHead v) s = .next { s with admin := { s.admin with cqHead := v } }) ∧
  (∀ (s : State) (v : DWord), s.running = true → s.admin.noteHead.ult v = true → s.admin.notes.ult v = false → s.admin.held = [] → s.admin.dropped = 0 →
    exec (.noteHead v) s = .next { s with admin := { s.admin with noteHead := v } }) ∧
  (∀ (s : State), s.running = true → s.admin.held = [] → s.admin.dropped = 0 →
    exec (.admCtrl 1#64) s = .next { s with
      host := { s.host with discarding := false }
      admin := { s.admin with running := true, tail := 0#64, cqHead := 0#64, noteHead := 0#64, taken := 0#64, posted := 0#64, notes := 0#64, start := s.admin.start + 1 } }) ∧
  (∀ (s : State), s.running = true → s.admin.holdoff = true → s.admin.irqPending = true → s.admin.irqEn = true → s.host.discarding = false → s.holdsPosts = false →
    ∃ u, exec .adminIrqHoldoffExpiry s = .next u ∧ u = { s with
      admin := { s.admin with irqPending := false }
      hostOut := s.hostOut ++ [.msix s.admin.irqVector.toNat]
      counters := u.counters }) ∧
  (∀ (s : State), s.running = true → s.admin.holdoff = true → (s.admin.irqPending = false ∨ s.admin.irqEn = false) →
    exec .adminIrqHoldoffExpiry s = .next { s with admin := { s.admin with holdoff := false, irqPending := false } }) ∧
  (∀ (s : State) (b img : List Byte) (su : Bool) (vs : List Variant), AdminHead s 0x18 24 b →
    let c := leAt b 0 2
    let va := leAt b 8 8
    let len := leAt b 0x10 8
    (s.ctx c).used = true → (s.ctx c).dying = false → (s.part (s.ctx c).partition).state = .active → leAt b 2 6 = 0 → va % 65536 = 0 → va + len ≤ 2 ^ 48 →
    s.pageFault c .read va len = none → s.pageFault c .fetch va len = none → s.spanOpen c va len = true → s.vread c .read va len = .ok img false su → readImage img len = some vs →
    s.images.length < 1024 →
    exec .imageLoad s = .next (s.answered { s with
      images := tabSet s.images s.nextImage { partition := (s.ctx c).partition, context := c, va := va, length := len, noPreempt := bitAt (leAt img 7 1) 0, pinned := false, variants := vs, fetchA := 0, fetchB := 0, lastFetchA := 0, lastFetchB := 0 }
      nextImage := s.nextImage + 1 } stOk 0 (bytesLE 8 s.nextImage))) ∧
  (∀ (s : State) (b : List Byte), AdminHead s 0x19 8 b → (tabFind s.images (leAt b 0 8)).isSome = true → s.launchesQuiet (fun l => l.image == leAt b 0 8) = true →
    exec .imageUnload s = .next (s.answered { s with images := tabErase s.images (leAt b 0 8) } stOk 0 [])) ∧
  (∀ (s : State) (b : List Byte), AdminHead s 0x50 8 b → ctlBase ≤ leAt b 0 8 → leAt b 0 8 < ctlBase + 2 ^ 32 →
    exec .regRead s = .next (s.answered s stOk 0 (bytesLE 8 (s.regValue (leAt b 0 8))))) ∧
  (∀ (s : State) (b : List Byte), AdminHead s 0x51 8 b → ctlBase ≤ leAt b 0 8 → leAt b 0 8 < ctlBase + 2 ^ 32 →
    exec .regClear s = .next (s.answered (s.clearValid (leAt b 0 8)) stOk 0 [])) ∧
  (∀ (s : State) (a n : Nat) (id : DWord) (st d : Nat) (r : List Byte), s.host.discarding = false → s.holdsPosts = false → s.admin.irqEn = false → r.length ≤ 16 → n = s.admin.start →
    (s.adminRecord a id n st d r).hostOut = s.hostOut ++ [.write (s.admin.cqBase.toNat + s.admin.posted.toNat % 256 * 32)
      (adminRecordBytes id.toNat a 0 st d (phaseBit s.admin.posted.toNat 256) r) false] ∧
    (s.adminRecord a id n st d r).admin = { s.admin with posted := s.admin.posted + 1#64 })

/-- STREAM_ACCEPT of a sound descriptor on an IDLE slot makes it the slot's ACTIVE stream; on a slot in use it becomes the pending re-arm. STREAM_CHUNK_START moves the chunk's elements
and turns to the end of the chunk. STREAM_SRC_DONE marks the sources read and signals where asked; STREAM_CHUNK_FILL counts the chunk and signals FILL. After the last
chunk STREAM_COMPLETE makes the slot IDLE or activates the re-arm. STREAM_STOP makes the slot of an ended launch IDLE.
Completion: under its conditions on the state and the operands alone, exec answers a next state for each of `streamAccept`, `streamChunkStart`,
`streamSrcDone`, `streamChunkFill`, `streamComplete`, `streamStop`. -/
def Obligations.StreamsMoveInChunks : Prop :=
  (∀ (s : State) (c lid : Nat) (l : Launch) (k : EngineCmd) (d : List Byte), OnCell s c → s.activeLaunch c = some (lid, l) → (s.cell c).head 2 = some k →
    (s.cell c).mayStart k = true → k.opA.toNat % 64 = 0 → (s.cell c).ctl .egress k.opA.toNat 64 = .ok d → (s.cell c).spPoison k.opA.toNat 64 = false →
    k.doneEn = false → ThreadRuns s c → (∀ x ∈ (s.cell c).streams, x.2.checking = 0) →
    ((s.slot c (sdSlot d)).state = .idle → s.streamOk l d = true → sdDstSpace d ≠ 3 →
      ∃ u, exec (.streamAccept c) s = .next u ∧ (u.slot c (sdSlot d)).state = .active ∧ (u.slot c (sdSlot d)).desc = d ∧ (u.slot c (sdSlot d)).launch = lid ∧
        (u.cell c).scratch = (s.cell c).scratch ∧ u.dram = s.dram) ∧
    ((s.slot c (sdSlot d)).state ≠ .idle → (s.slot c (sdSlot d)).rearm = none →
      ∃ u, exec (.streamAccept c) s = .next u ∧ u.slot c (sdSlot d) = { s.slot c (sdSlot d) with rearm := some (d, k.thread, k.pc) } ∧
        (u.cell c).scratch = (s.cell c).scratch ∧ u.dram = s.dram)) ∧
  (∀ (s z : State) (c k lid : Nat) (l : Launch), OnThread s c k → s.activeLaunch c = some (lid, l) → (s.slot c k).state = .active → (s.slot c k).phase = .moving →
    (s.slot c k).moved = false → (s.slot c k).checking = 0 → sdDstSpace (s.slot c k).desc ≤ 1 →
    let stop := ((s.slot c k).chunks + 1) * sdChunkElems (s.slot c k).desc
    s.moveElems c k lid l (stop - (s.slot c k).elem) (s.slot c k).elem (s.slot c k).byteOff = (z, true) →
    exec (.streamChunkStart c k) s = .next (keepQueue s (z.setSlot c k { z.slot c k with moved := true, phase := .moving, elem := stop, byteOff := 0 }))) ∧
  (∀ (s : State) (c k : Nat), OnThread s c k → (s.activeLaunch c).isSome = true → (s.slot c k).state = .active → (s.slot c k).moved = true → (s.slot c k).reads = 0 →
    (s.slot c k).srcDone = false →
    (descSemEn (s.slot c k).desc 0x3E = false →
      exec (.streamSrcDone c k) s = .next (s.setSlot c k { s.slot c k with srcDone := true, phase := .filling })) ∧
    (descSemEn (s.slot c k).desc 0x3E = true →
      let i := descSem (s.slot c k).desc 0x3E
      (s.cell c).semWaiters i = [] → ((s.cell c).sem i).toNat < 65535 →
      ∃ u, exec (.streamSrcDone c k) s = .next u ∧ OnlyCell s u c ∧ u.slot c k = { s.slot c k with srcDone := true, phase := .filling } ∧
        ((u.cell c).sem i).toNat = ((s.cell c).sem i).toNat + 1)) ∧
  (∀ (s : State) (c k lid : Nat) (l : Launch), OnThread s c k → s.activeLaunch c = some (lid, l) → (s.slot c k).state = .active → (s.slot c k).srcDone = true →
    (s.slot c k).held = [] → (s.slot c k).outstanding = 0 → (s.slot c k).chunks < sdChunks (s.slot c k).desc →
    (sdDstSpace (s.slot c k).desc = 1 → s.landed (l.cells.getD (sdRank (s.slot c k).desc 1) 0) (.stream c k) = true) → s.recordLeft (s.slot c k) = true →
    (descSemEn (s.slot c k).desc 0x3B = false →
      ∃ u, exec (.streamChunkFill c k) s = .next u ∧ (u.slot c k).chunks = (s.slot c k).chunks + 1 ∧ (u.slot c k).desc = (s.slot c k).desc ∧
        (u.cell c).scratch = (s.cell c).scratch ∧ u.dram = s.dram) ∧
    (descSemEn (s.slot c k).desc 0x3B = true → (s.slot c k).chunks + 1 = sdChunks (s.slot c k).desc →
      let p := peerCell l (s.slot c k).desc
      let i := descSem (s.slot c k).desc 0x3B
      (s.cell p).semWaiters i = [] → ((s.cell p).sem i).toNat < 65535 →
      ∃ u, exec (.streamChunkFill c k) s = .next u ∧ u.slot c k = { s.slot c k with chunks := (s.slot c k).chunks + 1 } ∧
        ((u.cell p).sem i).toNat = ((s.cell p).sem i).toNat + 1 ∧ u.dram = s.dram)) ∧
  (∀ (s : State) (c k lid : Nat) (l : Launch), OnThread s c k → s.activeLaunch c = some (lid, l) → (s.slot c k).state = .active →
    (s.slot c k).checking = 0 → (s.slot c k).chunks = sdChunks (s.slot c k).desc →
    ((s.slot c k).rearm = none →
      exec (.streamComplete c k) s = .next (s.setSlot c k { StreamSlot.idle with granules := (s.slot c k).granules, chunks := (s.slot c k).chunks })) ∧
    (∀ d t pc, (s.slot c k).rearm = some (d, t, pc) → sdSlot d = k → s.streamOk l d = true → sdDstSpace d ≠ 3 →
      ∃ u, exec (.streamComplete c k) s = .next u ∧ (u.slot c k).state = .active ∧ (u.slot c k).desc = d ∧ (u.slot c k).chunks = 0 ∧ u.dram = s.dram)) ∧
  (∀ (s : State) (c k : Nat), OnThread s c k → s.cellEnded c = true → (s.slot c k).state ≠ .idle →
    ∃ u, exec (.streamStop c k) s = .next u ∧ u.slot c k = StreamSlot.idle ∧ (u.cell c).scratch = (s.cell c).scratch ∧ u.dram = s.dram)

/-- TLB_WALK_COMPLETE installs the leaf that permits the access and gives a waiting load its address; a page with no entry opens a fault record; a walk an invalidation covered walks
again. MAP binds quarters and writes the leaves; PT_SYNC writes checked entries; UNMAP clears leaves and drains; INVALIDATE drains; RESOLVE closes the page's records
and retries or aborts those that waited.
Completion: under its conditions on the state and the operands alone, exec answers a next state for each of `tlbWalkComplete`, `map`, `ptSync`, `unmap`,
`invalidate`, `resolve`. -/
def Obligations.TranslationMapsAndDrains : Prop :=
  (∀ (s : State) (c t rd va n e : Nat) (sx big : Bool) (w : Walk), s.running = true → s.walks.find? (fun w => w.who == .load c t) = some w → w.stale = false →
    s.walks.filter w.samePage = [w] → s.walkRuns w = true → s.walkLives w = true → (s.ctx w.context).leaf w.va = some (e, big) → ptePermits e w.access = true → isWindow (leafPa e big w.va) = false → s.populated (leafPa e big w.va) = true →
    (s.thread c t).waits = .vaLoad rd va n sx none →
    ∃ u, exec (.tlbWalkComplete (.load c t)) s = .next u ∧ u = { s with
      walks := s.walks.filter (fun v => !w.samePage v)
      walkCaches := u.walkCaches
      tlbs := (s.tlbInstall (tlbCell c) { context := w.context, page := if big then w.va / 2 ^ 29 else w.va / 2 ^ 16, large := big, entry := e }).tlbs
      cells := u.cells } ∧ u.thread c t = { s.thread c t with waits := .vaLoad rd va n sx (some (leafPa e big w.va)) } ∧
      (∀ k, k ≠ t → u.thread c k = s.thread c k) ∧ ∀ d, d ≠ c → u.cell d = s.cell d) ∧
  (∀ (s : State) (c t r : Nat) (w : Walk), s.running = true → s.walks.find? (fun w => w.who == .load c t) = some w → w.stale = false →
    s.walks.filter w.samePage = [w] → s.walkRuns w = true → s.walkLives w = true → (s.ctx w.context).leaf w.va = none → (s.collector w.collector).find w.context w.va = none → tabFree (s.collector w.collector).records 0 32 = some r →
    ∃ u f, exec (.tlbWalkComplete (.load c t)) s = .next u ∧ u.walks = s.walks.filter (fun v => !w.samePage v) ∧
      tabFind (u.collector w.collector).records r = some f ∧ f.context = w.context ∧ f.page = w.va / 65536 ∧ f.waiters = [w] ∧
      u.cells = s.cells ∧ u.dram = s.dram ∧ u.tlbs = s.tlbs) ∧
  (∀ (s : State) (who : Requester) (w : Walk), s.running = true → s.walks.find? (fun w => w.who == who) = some w → w.stale = true →
    s.walks.filter w.samePage = [w] → s.walkRuns w = true → s.walkLives w = true →
    ∃ u, exec (.tlbWalkComplete who) s = .next u ∧
      CountOnly { s with walks := s.walks.filter (fun v => !w.samePage v) ++ [{ w with stale := false }], walkCaches := u.walkCaches } u) ∧
  (∀ (s z : State) (b : List Byte) (n : Nat), AdminHead s 0x40 32 b →
    let c := leAt b 0 2
    let va := leAt b 8 8
    let len := leAt b 0x10 8
    let perm := leAt b 3 1
    let pages := span (va / 2 ^ 16) ((va + len - 1) / 2 ^ 16)
    (s.ctx c).used = true → leAt b 2 1 = 0 → perm ≤ 7 → (bitAt perm 1 = true → bitAt perm 0 = true) → leAt b 4 4 = 0 → leAt b 0x18 8 = 0 → va % 2 ^ 16 = 0 → len ≠ 0 →
    len % 2 ^ 16 = 0 → va + len ≤ 2 ^ 48 → (∀ e ∈ (s.ctx c).large, e.1 ∉ span (va / 2 ^ 29) ((va + len - 1) / 2 ^ 29)) → (∀ e ∈ (s.ctx c).leaves, e.1 ∉ pages) →
    s.allocBlocks (s.ctx c).partition c (span (va / 2 ^ 28) ((va + len - 1) / 2 ^ 28)) = some (z, n) →
    let y := { z.ctx c with leaves := pages.foldl (fun t p =>
      tabSet t p (mkPte ((tabGet 0 (z.ctx c).blocks (p / 4096)) * 2 ^ 28 + p % 4096 * 65536) perm)) (z.ctx c).leaves }
    (z.setCtx c y).ptStoreBytes ≤ 671088640 →
    exec .map s = .next (s.answered (z.setCtx c y) stOk 0 (bytesLE 4 n))) ∧
  (∀ (s z : State) (b : List Byte) (n : Nat), AdminHead s 0x40 32 b →
    let c := leAt b 0 2
    let va := leAt b 8 8
    let len := leAt b 0x10 8
    let perm := leAt b 3 1
    let regions := span (va / 2 ^ 29) ((va + len - 1) / 2 ^ 29)
    (s.ctx c).used = true → leAt b 2 1 = 1 → perm ≤ 7 → (bitAt perm 1 = true → bitAt perm 0 = true) → leAt b 4 4 = 0 → leAt b 0x18 8 = 0 → va % 2 ^ 29 = 0 → len ≠ 0 →
    len % 2 ^ 29 = 0 → va + len ≤ 2 ^ 48 → (∀ e ∈ (s.ctx c).large, e.1 ∉ regions) → (∀ e ∈ (s.ctx c).leaves, e.1 / 8192 ∉ regions) →
    s.allocPairs (s.ctx c).partition c regions = some (z, n) →
    let y := { z.ctx c with large := regions.foldl (fun t r => tabSet t r (mkPte ((tabGet 0 (z.ctx c).blocks (2 * r)) * 2 ^ 28) perm)) (z.ctx c).large }
    (z.setCtx c y).ptStoreBytes ≤ 671088640 →
    exec .map s = .next (s.answered (z.setCtx c y) stOk 0 (bytesLE 4 n))) ∧
  (∀ (s : State) (b : List Byte) (n : Nat), AdminHead s 0x41 (8 + 16 * n) b → b.length = 8 + 16 * n → leAt b 2 2 = n → 1 ≤ n → n ≤ 60 → leAt b 4 4 = 0 →
    (s.ctx (leAt b 0 2)).used = true →
    let pairs := (List.range n).map (fun i => (leAt b (8 + 16 * i) 8, leAt b (16 + 16 * i) 8))
    (∀ p ∈ pairs, s.ptSyncOk (leAt b 0 2) p.1 p.2 = true) →
    let z := s.setCtx (leAt b 0 2) (pairs.foldl (fun (x : Context) p => x.putLeaf p.1 p.2) (s.ctx (leAt b 0 2)))
    z.ptStoreBytes ≤ 671088640 → exec .ptSync s = .next (s.answered z stOk 0 [])) ∧
  (∀ (s : State) (b : List Byte), AdminHead s 0x42 24 b →
    let c := leAt b 0 2
    let va := leAt b 8 8
    let len := leAt b 0x10 8
    let x := s.ctx c
    x.used = true → leAt b 2 6 = 0 → va % 65536 = 0 → len % 65536 = 0 → len ≠ 0 → va + len ≤ 2 ^ 48 →
    (∀ e ∈ x.large, e.1 * 2 ^ 29 < va + len → va < (e.1 + 1) * 2 ^ 29 → va ≤ e.1 * 2 ^ 29 ∧ (e.1 + 1) * 2 ^ 29 ≤ va + len) → s.coversRows c va len = false →
    s.coversRegion c va len = false → s.migration = none →
    let d := (s.setCtx c { x with
      leaves := x.leaves.filter (fun e => !(decide (va ≤ e.1 * 65536) && decide ((e.1 + 1) * 65536 ≤ va + len)))
      large := x.large.filter (fun e => !(decide (va ≤ e.1 * 2 ^ 29) && decide ((e.1 + 1) * 2 ^ 29 ≤ va + len))) }).startDrain c va len none false
    exec .unmap s = .next (s.awaits d.1 (.unmap d.2 c) true)) ∧
  (∀ (s : State) (b : List Byte), AdminHead s 0x43 24 b → (s.ctx (leAt b 0 2)).used = true → leAt b 2 6 = 0 →
    let d := s.startDrain (leAt b 0 2) (leAt b 8 8) (leAt b 0x10 8) none false
    exec .invalidate s = .next (s.awaits d.1 (.drain d.2) false)) ∧
  (∀ (s : State) (b : List Byte), AdminHead s 0x44 16 b →
    let c := leAt b 0 2
    let va := leAt b 8 8
    let hit := fun (f : FaultRecord) => f.context == c && f.page == va / 65536
    let recs := s.collectors.flatMap (fun k => (k.2.records.filter (fun r => hit r.2)).map (·.2))
    let ws := recs.flatMap (fun (f : FaultRecord) => f.waiters.map (fun w => (f.waiters.any s.haltedStream, w)))
    (s.ctx c).used = true → leAt b 2 1 ≤ 1 → leAt b 3 5 = 0 → va % 65536 = 0 →
    let z := { s with collectors := s.collectors.map (fun k => (k.1, { k.2 with records := k.2.records.filter (fun r => !hit r.2) })) }
    exec .resolve s = .next (s.answered (ws.foldl (fun (acc : State) (w : Bool × Walk) => if leAt b 2 1 = 0 then acc.retryWait w.2 else acc.abortWait w.1 w.2) z).openAllQueued
      stOk 0 (bytesLE 4 recs.length ++ bytesLE 4 ws.length)))

/-- A valid WIN_SLOT value is held as written, one that fails its checks is kept disabled and counted, one for a slot a region holds is refused, counted and leaves BAD set. A host write lands in the
DRAM or scratchpad its slot targets and a host read answers what stands there; a write past any target is dropped and counted. REGION_REGISTER holds a sound region, with its slots or its key;
REGION_RELEASE frees it, or waits for its writes.
Completion: under its conditions on the state and the operands alone, exec answers a next state for each of `winSlotWrite`, `windowWrite`, `windowRead`,
`regionRegister`, `regionRelease`. -/
def Obligations.HostWindowsAndSlots : Prop :=
  (∀ (s : State) (k : Nat) (v : DWord), s.running = true → k < 64 →
    let kept := v.toNat &&& slotMask
    (s.slotHeld k = true → ∃ u, exec (.winSlotWrite k v) s = .next u ∧
      CountOnly { s with host := { s.host with slots := tabSet s.host.slots k (BitVec.ofNat 64 ((tabGet 0#64 s.host.slots k).toNat % 2 ^ 62 + 2 ^ 62)) } } u) ∧
    (s.slotHeld k = false → (slotEn v.toNat = true → s.slotOk v.toNat = true) →
      exec (.winSlotWrite k v) s = .next { s with host := { s.host with slots := tabSet s.host.slots k (BitVec.ofNat 64 kept) } }) ∧
    (s.slotHeld k = false → slotEn v.toNat = true → s.slotOk v.toNat = false →
      ∃ u, exec (.winSlotWrite k v) s = .next u ∧
        CountOnly { s with host := { s.host with slots := tabSet s.host.slots k (BitVec.ofNat 64 (kept % 2 ^ 63 + 2 ^ 62)) } } u)) ∧
  (∀ (s : State) (off : Nat) (bs : List Byte) (aux : KdpAux), s.running = true → s.hostOpen = true → bs ≠ [] → off % 64 + bs.length ≤ 64 →
    s.hostLanded (s.hostTarget off).crossing = true →
    (∀ pa, s.hostTarget off = .dram pa → s.damage = [] → s.fixups = [] → s.struck = [] → (∀ g ∈ partGranules pa bs.length, s.dram.hasPoison g = false) →
      exec (.windowWrite off bs false aux) s = .next { s with dram := s.dram.store 64 pa bs false false }) ∧
    (∀ c o, s.hostTarget off = .scratch c o → (s.cell c).ingress = [] →
      (calReaches (s.cell c).calendar .ingress o bs.length = true →
        exec (.windowWrite off bs false aux) s = .next (s.modCell c (fun x => { x with scratch := x.scratch.store 64 o bs false false }))) ∧
      (calReaches (s.cell c).calendar .ingress o bs.length = false →
        exec (.windowWrite off bs false aux) s = .next (s.modCell c (fun x => { x with
          ingress := [{ sender := .host, off := o, bytes := bs, poison := false, suspect := false }] })))) ∧
    (s.hostTarget off = .beyond →
      ∃ u, exec (.windowWrite off bs false aux) s = .next u ∧ CountOnly s u ∧ u.entry 0xA007 0 = satAdd (dictBits (dkey 0xA007 0)) (s.entry 0xA007 0) 1)) ∧
  (∀ (s : State) (off n : Nat), s.running = true → s.hostOpen = true → n ≠ 0 → off % 64 + n ≤ 64 →
    s.hostLanded none = true →
    (∀ pa, s.hostTarget off = .dram pa →
      ∃ u, exec (.windowRead off n) s = .next u ∧ CountOnly { s with host := { s.host with answer := (s.memRead pa n).1, answerPoison := (s.memRead pa n).2.1 } } u) ∧
    (∀ c o, s.hostTarget off = .scratch c o → calReaches (s.cell c).calendar .egress o n = true →
      ∃ u, exec (.windowRead off n) s = .next u ∧
        CountOnly ({ s with host := { s.host with answer := s.spRead c o n, answerPoison := (s.cell c).scratch.poisoned 64 o n } }.noteResident c o n) u) ∧
    (∀ c o, s.hostTarget off = .scratch c o → calReaches (s.cell c).calendar .egress o n = false → exec (.windowRead off n) s = .next s) ∧
    (s.hostTarget off = .beyond →
      ∃ u, exec (.windowRead off n) s = .next u ∧ CountOnly { s with host := { s.host with answer := List.replicate n 0#8, answerPoison := false } } u)) ∧
  (∀ (s : State) (b : List Byte), AdminHead s 0x48 32 b → s.regionOk b = true → tabFind s.regions (leAt b 0 2) = none →
    let r := leAt b 0 2
    let c := leAt b 4 2
    let first := leAt b 3 1
    let base := leAt b 8 8
    let size := leAt b 0x10 8
    (leAt b 2 1 = 0 →
      exec .regionRegister s = .next (s.answered { s with regions := tabSet s.regions r (Region.mk 0 first c base size false false 0) } stOk 0 [])) ∧
    (leAt b 2 1 = 1 → (∀ i, i < size / 2 ^ 26 → first + i < 64 ∧ slotEn (tabGet 0#64 s.host.slots (first + i)).toNat = false) →
      ∃ z, exec .regionRegister s = .next (s.answered z stOk 0 (bytesLE 4 (size / 2 ^ 26))) ∧ z.regions = tabSet s.regions r (Region.mk 1 first c base size false false 0) ∧
        z = { s with regions := z.regions, host := { s.host with slots := z.host.slots } } ∧
        ∀ i, i < size / 2 ^ 26 → slotEn (tabGet 0#64 z.host.slots (first + i)).toNat = true) ∧
    (leAt b 2 1 = 2 → (s.regions.filter (fun x => x.2.kind == 2)).length < 1024 →
      let gen := (tabGet 0 s.keyGens r + 1) % 2 ^ 20
      exec .regionRegister s = .next (s.answered { s with
        regions := tabSet s.regions r (Region.mk 2 first c base size false false (r * 2 ^ 20 + gen))
        keyGens := tabSet s.keyGens r gen } stOk 0 (bytesLE 4 (r * 2 ^ 20 + gen))))) ∧
  (∀ (s : State) (b : List Byte) (x : Region), AdminHead s 0x49 8 b → tabFind s.regions (leAt b 0 2) = some x → leAt b 2 6 = 0 → x.ending = false →
    ((x.kind ≠ 0 ∨ x.stale = true ∨ (s.regionInUse (leAt b 0 2) = false ∧ s.heldTo x = false)) →
      exec .regionRelease s = .next (s.answered (s.freeRegion (leAt b 0 2)) stOk 0 [])) ∧
    (x.kind = 0 → x.stale = false → s.regionInUse (leAt b 0 2) = false → s.heldTo x = true →
      exec .regionRelease s = .next (s.awaits s (.region (leAt b 0 2)) true)))

/-- HOST_FN_DISABLE drains an ACTIVE function; HOST_FN_ENABLE with BME set makes it ACTIVE; clearing BME also drains it, setting it releases what was held. FUNCTION_DRAINED with every launch at
its safe point disables it; DRAIN_TIMEOUT ends every launch. A training brings the link up at the highest rate every module passes; a retrain holds the posts until it
ends; one that overruns, and a host reset, stop the admin queue, stale the OUTPUT regions and discard what was held. DRAM and cells stand.
Completion: under its conditions on the state and the operands alone, exec answers a next state for each of `hostFnDisable`, `hostFnEnable`, `busMasterClear`,
`functionDrained`, `drainTimeout`, `linkRetrainStart`, `linkRetrainEnd`, `retrainOverrun`, `hostReset`, `ucieLinkTrain`, `busMasterSet`. -/
def Obligations.HostFunctionAndLink : Prop :=
  (∀ (s : State), s.running = true → s.host.fn = .active → exec .hostFnDisable s = .next { s with host := { s.host with fn := .draining, req := 0 } }) ∧
  (∀ (s : State), s.running = true → s.host.bme = true → exec .hostFnEnable s = .next { s with host := { s.host with fn := .active, req := 0 } }) ∧
  (∀ (s : State) (m : Bool), s.running = true → s.host.fn = .active →
    exec (.busMasterClear m) s = .next { s with host := { s.host with mse := m, bme := false, fn := .draining, req := 0 } }) ∧
  (∀ (s : State) (m : Bool), s.running = true → s.host.rate ≠ 0 → s.host.retraining = false → (∀ w ∈ s.admin.work, ∀ r, w.waits ≠ .region r) →
    ∃ u, exec (.busMasterSet m) s = .next u ∧ u = { s with
      host := { s.host with mse := m, bme := true, held := [], heldFor := [], waiting := [] }
      hostOut := s.hostOut ++ (s.host.held ++ s.host.waiting)
      regions := s.regions.filter (fun r => !r.2.ending)
      counters := u.counters }) ∧
  (∀ (s : State), s.running = true → s.host.fn = .draining → s.launchesQuiet (fun _ => true) = true →
    (s.host.bme = true → exec .functionDrained s = .next { s with host := { s.host with fn := .disabled } }) ∧
    (s.host.bme = false → (∀ w ∈ s.admin.work, ∀ r, w.waits ≠ .region r) →
      ∃ u, exec .functionDrained s = .next u ∧ u.host.fn = .disabled ∧ u.host.held = [] ∧ u.dram = s.dram ∧ u.cells = s.cells ∧
        ∀ q ∈ u.queues, q.2.status ≠ .active)) ∧
  (∀ (s : State), s.running = true → s.host.fn = .draining →
    ∃ u, exec .drainTimeout s = .next u ∧ u.dram = s.dram ∧
      ∀ l x, s.launch? l = some x → ∃ y, u.launch? l = some y ∧ y.phase = .ended ∧ (x.phase ≠ .ended → y.status = some stFunctionDisabled)) ∧
  (∀ (s : State) (ps : List Nat) (half : BitVec 4), s.running = true → s.refclk = true → s.holdsPosts = true → s.host.bme = false →
    (∃ m, m < 4 ∧ ps.getD m 0 ≠ 0) → (∀ w ∈ s.admin.work, ∀ r, w.waits ≠ .region r) → (∀ r ∈ s.regions, r.2.ending = false) →
    ∃ u, exec (.ucieLinkTrain ps half) s = .next u ∧ u = { s with host := { s.host with modules := u.host.modules, half := half &&& u.host.modules, rate := u.host.rate } } ∧
      (∀ m, m < 4 → u.host.modules.getLsbD m = decide (ps.getD m 0 ≠ 0)) ∧
      u.host.rate = rateCode ((ucieRates.find? (fun r => (List.range 4).all (fun m => ps.getD m 0 == 0 || decide (r ≤ ps.getD m 0)))).getD 0)) ∧
  (∀ (s : State), s.running = true → s.host.rate ≠ 0 → s.host.retraining = false →
    ∃ u, exec .linkRetrainStart s = .next u ∧ CountOnly { s with host := { s.host with retraining := true } } u) ∧
  (∀ (s : State), s.running = true → s.host.retraining = true → s.host.bme = true → s.host.rate ≠ 0 → (∀ w ∈ s.admin.work, ∀ r, w.waits ≠ .region r) →
    ∃ u, exec .linkRetrainEnd s = .next u ∧ u = { s with
      host := { s.host with retraining := false, held := [], heldFor := [], waiting := [] }
      hostOut := s.hostOut ++ (s.host.held ++ s.host.waiting)
      regions := s.regions.filter (fun r => !r.2.ending)
      counters := u.counters }) ∧
  (∀ (s : State), s.running = true → s.host.retraining = true →
    ∃ u, exec .retrainOverrun s = .next u ∧ u.host.rate = 0 ∧ u.host.retraining = false ∧ u.host.fn = .active ∧ u.admin.running = false ∧ u.host.held = [] ∧
      u.dram = s.dram ∧ u.cells = s.cells) ∧
  (∀ (s : State) (down : Bool), s.running = true →
    ∃ u, exec (.hostReset down) s = .next u ∧ u.host.rate = (if down then 0 else s.host.rate) ∧ u.host.fn = .active ∧ u.host.discarding = true ∧
      u.admin.running = false ∧ u.host.held = [] ∧ u.dram = s.dram ∧ u.cells = s.cells ∧ u.tables = s.tables ∧ (∀ q ∈ u.queues, q.2.status ≠ .active))

/-- A signal on an ABSENT port starts training; a training that succeeds makes it UP on its healthy lanes, with fresh buffers and credits; a failed attempt is counted, and
the third in a row or a mode mismatch makes it FAILED. A used lane that fails retrains an UP port on the next set; electrical idle makes it ABSENT; a retrain that completes
replays the retry buffer, one that times out trains anew; a FAILED port is tried again. PORT_RESTART drops the port's buffers and trains it.
Completion: under its conditions on the state and the operands alone, exec answers a next state for each of `portSignalDetect`, `trainingComplete`,
`trainingAttemptFail`, `laneFail`, `portElectricalIdle`, `portRetrainComplete`, `portRetrainTimeout`, `portFailedRetry`, `portRestart`. -/
def Obligations.PortsTrainRetrainAndFail : Prop :=
  (∀ (s : State) (p : Nat), LivePort s p → (s.port p).link = .absent →
    ∃ u, exec (.portSignalDetect p) s = .next u ∧ OnlyPort s u p ∧ u.port p = { s.port p with link := .training, width := 0 }) ∧
  (∀ (s : State) (p n m : Nat) (ok inv : BitVec 4) (rev : Bool), LivePort s p → (s.port p).link = .training → ok ≠ 0#4 →
    ((s.port p).ether = true ∨ n % 2 ^ 24 ≠ s.ownAddr ∨ s.ownAddr = 0) → ((s.port p).ether = true → ok = 15#4) →
    let x := { (s.port p).fresh with
      link := .up
      lanesOk := ok
      polInv := inv
      reversed := rev
      width := (activeLanes ok).2
      tries := 0
      neighbour := if (s.port p).ether then 0 else n % 2 ^ 24
      neighbourPort := if (s.port p).ether then 0 else m % 8 }
    let w := if (s.port p).ether then s.wire else s.wire ++ [x.flit p 3 0 0 0 (plainPayload 3 [s.ownAddr, p, 0x820, ok.toNat])]
    ∃ u, exec (.trainingComplete p ok inv rev n m) s = .next u ∧ OnlyPort { s with wire := w } u p ∧ u.port p = x) ∧
  (∀ (s : State) (p : Nat), LivePort s p → (s.port p).link = .training → (s.port p).tries < 2 →
    exec (.trainingAttemptFail p false) s = .next (s.setPort p { s.port p with tries := (s.port p).tries + 1 })) ∧
  (∀ (s : State) (p : Nat) (m : Bool), LivePort s p → (s.port p).link = .training → (s.port p).err.msb = false → (m = true ∨ 2 ≤ (s.port p).tries) →
    ∃ u, exec (.trainingAttemptFail p m) s = .next u ∧ OnlyPort s u p ∧
      u.port p = { s.port p with
        link := .failed
        width := 0
        tries := min 7 ((s.port p).tries + 1)
        errCount := (s.port p).errCount + 1
        err := BitVec.ofNat 64 (2 ^ 63 + (if m then 2 else 1) * 2 ^ 48) }) ∧
  (∀ (s : State) (p lane : Nat), LivePort s p → lane < 4 → (s.port p).link = .up → (s.port p).err.msb = false → (s.port p).lanesOk.getLsbD lane = true → (s.port p).ether = false →
    (activeLanes (s.port p).lanesOk).1.getLsbD lane = true →
    let ok := (s.port p).lanesOk &&& ~~~ (1#4 <<< lane)
    ok ≠ 0#4 →
    ∃ u, exec (.laneFail p lane) s = .next u ∧ OnlyPort s u p ∧
      u.port p = { s.port p with
        link := .retrain
        lanesOk := ok
        width := (activeLanes ok).2
        replays := 0
        errCount := (s.port p).errCount + 1
        err := BitVec.ofNat 64 (2 ^ 63 + 3 * 2 ^ 48 + lane * 2 ^ 44) }) ∧
  (∀ (s : State) (p : Nat), LivePort s p → (s.port p).link = .up ∨ (s.port p).link = .retrain →
    ∃ u, exec (.portElectricalIdle p) s = .next u ∧ Reports { s with ports := u.ports, wire := u.wire } u ∧ (u.port p).link = .absent ∧ (u.port p).width = 0 ∧
      (u.port p).retry = [] ∧ (u.port p).replays = 0 ∧ (u.port p).sending = none ∧
      ((s.port p).retry = [] → (u.port p).err = (s.port p).err) ∧
      ((s.port p).retry ≠ [] → (s.port p).err.msb = false → (u.port p).err = BitVec.ofNat 64 (2 ^ 63 + 4 * 2 ^ 48))) ∧
  (∀ (s : State) (p : Nat), LivePort s p → (s.port p).link = .retrain →
    ∃ u, exec (.portRetrainComplete p) s = .next u ∧ Reports { s with ports := u.ports, wire := u.wire } u ∧ u.port p = { s.port p with link := .up } ∧
      u.wire = s.wire ++ (s.port p).retry.map (fun f => (s.port p).flit p 0 f.seq 0 0 f.payload)) ∧
  (∀ (s : State) (p : Nat), LivePort s p → (s.port p).link = .retrain → (s.port p).err.msb = false →
    ∃ u, exec (.portRetrainTimeout p) s = .next u ∧ Reports { s with ports := u.ports, wire := u.wire } u ∧ (u.port p).link = .training ∧ (u.port p).width = 0 ∧
      (u.port p).retry = [] ∧ (u.port p).replays = 0 ∧ (u.port p).sending = none ∧ (u.port p).errCount = (s.port p).errCount + 1 ∧
      (u.port p).err = BitVec.ofNat 64 (2 ^ 63 + 6 * 2 ^ 48)) ∧
  (∀ (s : State) (p : Nat), LivePort s p → (s.port p).link = .failed →
    ∃ u, exec (.portFailedRetry p) s = .next u ∧ OnlyPort s u p ∧ u.port p = { s.port p with link := .training, width := 0 }) ∧
  (∀ (s : State) (r : KdpRequest) (x : Session) (d : DictRow) (sub : Nat) (v : List Byte), KdpWrites s r x d 0x5007 sub v → s.running = true →
    s.power.srefPresent = true → 1 ≤ sub → sub ≤ 8 →
    ∃ u, exec (.portRestart r) s = .next (s.applied u r 0x5007 sub) ∧ (u.port (sub - 1)).link = .training ∧ (u.port (sub - 1)).txq = [] ∧
      (u.port (sub - 1)).retry = [] ∧ (u.port (sub - 1)).rx = [] ∧ u.dram = s.dram ∧ u.cells = s.cells)

/-- On an UP port in Hante mode, a flit that passes FEC and CRC and is the DATA flit in sequence enters the receive buffer, behind the flits of its frame that
have not been routed; one out of sequence enters nothing and is NAKed, once per gap; one that fails FEC enters nothing and is NAKed. A NAK sends every flit behind its ACK
again, up to sixteen times in a row.
Completion: under its conditions on the state and the operands alone, exec answers a next state for each of `flitReceive`, `nakReceive`. -/
def Obligations.FlitsAreAcceptedReplayedAndCounted : Prop :=
  (∀ (s : State) (p fixed lane : Nat) (b content : List Byte), LivePort s p → (s.port p).link = .up → (s.port p).ether = false → b.length = 280 →
    flitContent b = some (content, fixed) →
    let h := leAt content 0 8
    crc32 ((content.drop 4).take 4 ++ content.drop 8) = BitVec.ofNat 32 (field h 31 0) → field h 43 42 = 0 →
    (field h 63 54 = (s.port p).expect → (s.port p).expect < 1024 → (s.port p).rxCut = false →
      ∃ u, exec (.flitReceive p ⟨b, lane⟩) s = .next u ∧ (u.port p).rx = (s.port p).rx ++ [content.drop 8] ∧ (u.port p).expect = ((s.port p).expect + 1) % 1024 ∧
        (u.port p).nakSent = false ∧ Reports { s with ports := u.ports, wire := u.wire } u) ∧
    (0 < (field h 63 54 + 1024 - (s.port p).expect) % 1024 → (field h 63 54 + 1024 - (s.port p).expect) % 1024 < 512 → (s.port p).nakSent = false →
      ∃ u, exec (.flitReceive p ⟨b, lane⟩) s = .next u ∧ (u.port p).rx = (s.port p).rx ∧ (u.port p).expect = (s.port p).expect ∧ (u.port p).nakSent = true ∧
        (∃ rest, u.wire = s.wire ++ (s.port p).flit p 2 0 0 0 (plainPayload 2 []) :: rest) ∧ Reports { s with ports := u.ports, wire := u.wire } u)) ∧
  (∀ (s : State) (p lane : Nat) (b : List Byte), LivePort s p → (s.port p).link = .up → (s.port p).ether = false → b.length = 280 → flitContent b = none →
    ∃ u, exec (.flitReceive p ⟨b, lane⟩) s = .next u ∧ OnlyPort { s with wire := s.wire ++ [(s.port p).flit p 2 0 0 0 (plainPayload 2 [])] } u p ∧
      u.port p = { s.port p with nakSent := true }) ∧
  (∀ (s : State) (p a lane : Nat), LivePort s p → (s.port p).link = .up → (s.port p).ether = false →
    let x := (s.port p).acked (a % 1024)
    x.retry ≠ [] → x.replays < 16 →
    ∃ u, exec (.nakReceive p a lane) s = .next u ∧ (u.port p).replays = x.replays + 1 ∧ (∃ more, (u.port p).retry = x.retry ++ more) ∧
      (∃ rest, u.wire = s.wire ++ x.retry.map (fun f => (s.port p).flit p 0 f.seq 0 0 f.payload) ++ rest) ∧
      Reports { s with ports := u.ports, wire := u.wire } u)

/-- A message of one frame leaves its queue and goes where R391 routes it: to this device, to a port, or nowhere, with NOROUTE for a request. A frame whose header is at the
front of a receive buffer leaves it and is routed one hop further, its later flits behind it. An arrived frame that is here whole is handed over where it passes its
checks, and else dropped and counted; NOROUTE is taken as a refusal of its window request.
Completion: under its conditions on the state and the operands alone, exec answers a next state for each of `frameRoute`, `frameDeliver`. -/
def Obligations.FramesFollowTheirRoutes : Prop :=
  (∀ (s : State) (m : FabMsg) (rest : List FabMsg) (t : Transit), s.running = true → s.power.srefPresent = true → s.fabricOut = m :: rest → s.framesOf m = [t] →
    s.ownAddr ≠ 0 →
    let z := { s with fabricOut := rest }
    (m.dst = s.ownAddr → exec (.frameRoute .own) s = .next (keepQueue s (z.takeFrame t.frame))) ∧
    (m.dst ≠ s.ownAddr →
      let tier := highTier m.dst s.ownAddr
      (∀ p, s.pick (s.routeEntry tier m.dst) t.frame.vc = some p →
        exec (.frameRoute .own) s = .next (keepQueue s (z.rerouteAll.queueFrame p
          (t.readdress { t.frame with dl := s.entry 0x5003 (p + 1) == 1, phase := tier })))) ∧
      (s.pick (s.routeEntry tier m.dst) t.frame.vc = none →
        ∃ u, exec (.frameRoute .own) s = .next u ∧
          CountOnly { s with fabricOut := rest ++ (if t.frame.vc = 0 ∨ t.frame.vc = 2 then [⟨s.ownAddr, .noRoute t.frame.tag t.frame.kind⟩] else []) } u))) ∧
  (∀ (s : State) (p : Nat) (h : List Byte) (more : List (List Byte)), LivePort s p → (s.port p).rx = h :: more →
    let t := (s.frontFrame p (frameFlits (leAt h 0xA 2))).1
    let z := (s.frontFrame p (frameFlits (leAt h 0xA 2))).2
    let f := t.frame
    (f.kind = 0x10 → f.dest = 0xFFFFFF →
      exec (.frameRoute (.port p)) s = .next (z.setPort p { z.port p with arrived := (z.port p).arrived ++ [t] })) ∧
    (f.kind ≠ 0x10 → s.ownAddr ≠ 0 → f.srCount = 0 → f.dest = s.ownAddr →
      exec (.frameRoute (.port p)) s = .next (z.setPort p { z.port p with arrived := (z.port p).arrived ++ [t] })) ∧
    (f.kind ≠ 0x10 → s.ownAddr ≠ 0 → f.srCount = 0 → f.dest ≠ s.ownAddr → highTier f.dest s.ownAddr ≤ f.phase → 2 ≤ f.ttl →
      ∀ q, z.pick (s.routeEntry (highTier f.dest s.ownAddr) f.dest) f.vc = some q →
      exec (.frameRoute (.port p)) s = .next (keepQueue s ((z.rerouteAll.countPort p 32 1).queueFrame q
        (t.readdress { f with
          dl := (if highTier f.dest s.ownAddr = f.phase then f.dl else false) || s.entry 0x5003 (q + 1) == 1
          phase := highTier f.dest s.ownAddr
          ttl := f.ttl - 1 }))))) ∧
  (∀ (s : State) (p : Nat) (t : Transit), LivePort s p →
    (s.port p).arrived.find? (fun t => t.frame.kind != 0x10 && t.more == 0 && !s.fanFull t.frame) = some t →
    let z := (s.setPort p { s.port p with arrived := (s.port p).arrived.erase t }).leaves t
    let f := t.whole
    (f.passes = true → f.kind ≠ 0x0E → exec (.frameDeliver p) s = .next (keepQueue s { z with delivered := z.delivered ++ [f] })) ∧
    (f.passes = true → f.kind = 0x0E →
      exec (.frameDeliver p) s = .next (keepQueue s
        ((({ z with delivered := z.delivered ++ [f] }).windowResponse f.tag 1 [] false).probeAnswerReceive f.tag 1 0))) ∧
    (f.passes = false →
      ∃ u, exec (.frameDeliver p) s = .next (keepQueue s u) ∧ CountOnly z u ∧ u.entry 0x5026 0 = satAdd (dictBits (dkey 0x5026 0)) (z.entry 0x5026 0) 1))

/-- A sound waggle not in the filter enters it, acts, and leaves by every other port that may send waggles, one hop further, where its hops last; a copy of one in the
filter only leaves the port. A waggle that finds no credit within the time is dropped and counted; a pair older than 10 ms leaves the filter.
Completion: under its conditions on the state and the operands alone, exec answers a next state for each of `waggleReceive`, `waggleCreditTimeout`,
`waggleFilterAge`. -/
def Obligations.WagglesSpreadOnce : Prop :=
  (∀ (s : State) (p : Nat) (t : Transit), LivePort s p → (s.port p).arrived.find? (fun t => t.frame.kind == 0x10 && t.more == 0) = some t →
    let f := t.whole
    let b := f.payload
    f.passes = true → waggleOk b = true →
    let z := (s.setPort p { s.port p with arrived := (s.port p).arrived.erase t }).leaves t
    (s.filtered (leAt b 4 3) (leAt b 2 2) = true → exec (.waggleReceive p) s = .next (keepQueue s z)) ∧
    (s.filtered (leAt b 4 3) (leAt b 2 2) = false → 2 ≤ f.ttl →
      let y := (z.filterAdd (leAt b 4 3) (leAt b 2 2)).waggleAct p b
      exec (.waggleReceive p) s = .next (keepQueue s (((List.range 8).filter (fun q => q != p && y.waggleOut q)).foldl
        (fun (a : State) q => a.queueFrame q f.hopped.transit) y)))) ∧
  (∀ (s : State) (p : Nat) (t : Transit), LivePort s p → (s.port p).txq.find? (fun t => t.frame.kind == 0x10) = some t →
    ((s.port p).link ≠ .up ∨ tabGet 0 (s.port p).credits 24 < frameFlits t.frame.len) →
    ∃ u, exec (.waggleCreditTimeout p) s = .next u ∧ CountOnly (s.setPort p { s.port p with txq := (s.port p).txq.erase t }) u ∧
      u.entry 0x5027 0 = satAdd (dictBits (dkey 0x5027 0)) (s.entry 0x5027 0) 1) ∧
  (∀ (s : State), s.running = true →
    exec .waggleFilterAge s = .next { s with filter := s.filter.filter (fun e => decide ((s.time - e.2.2).toNat ≤ 10000000)) })

/-- ARP requests and neighbour solicitations for the port are answered, RoCEv2 frames go to the engine, the rest is dropped and counted. A packet of no pair of the port is dropped
and counted. A WRITE in sequence stores its bytes through its key and is acknowledged; a SEND fills its ring slot; a READ is answered from memory; a repeat is acknowledged again; a
gap is NAKed once; an opcode without support puts the pair in ERROR. A CNP cuts the pair's rate, recovery raises it once the time without one has passed. QP_CREATE makes a sound pair, QP_DESTROY removes one.
Completion: under its conditions on the state and the operands alone, exec answers a next state for each of `ethFrameReceive`, `rocePacket`, `cnpReceive`,
`rateRecover`, `qpCreate`, `qpDestroy`. -/
def Obligations.EthernetAndRoce : Prop :=
  (∀ (s : State) (p : Nat) (b : List Byte) (ok : Bool), LivePort s p → (s.port p).link = .up → (s.port p).ether = true →
    (ok = true → s.ethKind p b = .arp → exec (.ethFrameReceive p b ok) s = .next { s with ethOut := s.ethOut ++ [s.arpReply p b] }) ∧
    (ok = true → s.ethKind p b = .solicit → exec (.ethFrameReceive p b ok) s = .next { s with ethOut := s.ethOut ++ [s.nsReply p b] }) ∧
    (ok = true → s.ethKind p b = .roce → exec (.ethFrameReceive p b ok) s = .next { s with ethOut := s.ethOut ++ [.toEngine p b] }) ∧
    (ok = false ∨ s.ethKind p b = .other →
      ∃ u, exec (.ethFrameReceive p b ok) s = .next u ∧ CountOnly s u ∧ u.entry 0x5121 0 = satAdd (dictBits (dkey 0x5121 0)) (s.entry 0x5121 0) 1)) ∧
  (∀ (s : State) (p : Nat) (k : RocePkt), LivePort s p → (s.port p).link = .up → (s.port p).ether = true → (k.intact = false ∨ tabFind s.qps (k.qpn - 0x100000) = none) →
    ∃ u, exec (.rocePacket p k) s = .next u ∧ CountOnly s u ∧ u.entry 0x5121 0 = satAdd (dictBits (dkey 0x5121 0)) (s.entry 0x5121 0) 1) ∧
  (∀ (s : State) (p q : Nat) (k : RocePkt) (x : Qp), LivePort s p → (s.port p).link = .up → k.intact = true → k.qpn = 0x100000 + q → tabFind s.qps q = some x →
    x.port = p → x.error = false → k.ce = false → x.psnRx < 2 ^ 24 →
    (k.psn = x.psnRx → ∀ (va rkey : Nat) (bs : List Byte) (g ring : Region), k.op = .write true true none va rkey bs.length bs → bitAt x.flags 0 = true → x.msg = none → bs.length ≤ x.mtu →
      s.keyRegion x rkey va bs.length = some g → tabFind s.regions x.region = some ring →
      ∃ u, exec (.rocePacket p k) s = .next u ∧
        CountOnly { (s.vwrite g.context va bs false) with
          qps := tabSet s.qps q { x with psnRx := (x.psnRx + 1) % 2 ^ 24, gap := false, msg := none }
          ethOut := (s.vwrite g.context va bs false).ethOut ++ [x.packet x.psnRx (.ack synAck)] } u) ∧
    (k.psn = x.psnRx → ∀ (bs : List Byte) (r : Region), k.op = .send true false none bs → tabFind s.regions x.region = some r → bs.length ≤ x.slotSize → x.msg = none → bs.length = x.mtu →
      s.ringFull x r = false →
      let va := x.slotVa r x.arrived.toNat
      ∃ u, exec (.rocePacket p k) s = .next u ∧
        CountOnly { (s.vwrite r.context va bs false) with
          qps := tabSet s.qps q { x with psnRx := (x.psnRx + 1) % 2 ^ 24, gap := false, msg := some (QpMsg.mk false 0 va bs.length 0) }
          ethOut := (s.vwrite r.context va bs false).ethOut ++ [x.packet x.psnRx (.ack synAck)] } u) ∧
    (k.psn = x.psnRx → ∀ (b : List Byte) (va rkey n : Nat) (g : Region), k.op = .read va rkey n → bitAt x.flags 1 = true → n ≤ x.mtu → x.mtu ≤ 2 ^ 24 → x.msg = none →
      s.keyRegion x rkey va n = some g → (∃ z, ({ s with qps := tabSet s.qps q { x with psnRx := (x.psnRx + 1) % 2 ^ 24, gap := false } }).vread g.context .read va n = .ok b false z) →
      ∃ u, exec (.rocePacket p k) s = .next u ∧ CountOnly { s with
        qps := tabSet s.qps q { x with psnRx := (x.psnRx + 1) % 2 ^ 24, gap := false }
        ethOut := s.ethOut ++ [x.packet x.psnRx (.readResponse b)] } u) ∧
    (2 ^ 23 ≤ (k.psn + 2 ^ 24 - x.psnRx) % 2 ^ 24 → (∀ va rkey n, k.op ≠ .read va rkey n) →
      exec (.rocePacket p k) s = .next { s with ethOut := s.ethOut ++ [x.packet ((x.psnRx + 2 ^ 24 - 1) % 2 ^ 24) (.ack synAck)] }) ∧
    (0 < (k.psn + 2 ^ 24 - x.psnRx) % 2 ^ 24 → (k.psn + 2 ^ 24 - x.psnRx) % 2 ^ 24 < 2 ^ 23 →
      (x.gap = true → exec (.rocePacket p k) s = .next s) ∧
      (x.gap = false → (s.port p).err.msb = false →
        ∃ u, exec (.rocePacket p k) s = .next u ∧ CountOnly { s with
          qps := tabSet s.qps q { x with gap := true }
          ports := u.ports
          ethOut := s.ethOut ++ [x.packet x.psnRx (.ack synSequence)] } u ∧
          u.port p = { s.port p with errCount := (s.port p).errCount + 1, err := BitVec.ofNat 64 (2 ^ 63 + 0x10 * 2 ^ 48 + q % 4096 * 2 ^ 32 + synSequence) } ∧
          ∀ o, o ≠ p → u.port o = s.port o)) ∧
    (k.psn = x.psnRx → k.op = .unsupported →
      ∃ u, exec (.rocePacket p k) s = .next u ∧ CountOnly { s with
        qps := tabSet s.qps q { x with error := true, msg := none }
        ports := u.ports
        ethOut := s.ethOut ++ [x.packet x.psnRx (.ack synInvalid)] } u ∧ ∀ o, o ≠ p → u.port o = s.port o)) ∧
  (∀ (s : State) (p q : Nat) (x : Qp), LivePort s p → tabFind s.qps q = some x → x.port = p →
    ∃ u, exec (.cnpReceive p (0x100000 + q)) s = .next u ∧
      CountOnly { s with qps := tabSet s.qps q { x with rate := max (s.entry 0x5114 0) (x.rate * (256 - s.entry 0x5113 0) / 256), rateAt := s.time } } u ∧
      u.entry 0x5123 0 = satAdd (dictBits (dkey 0x5123 0)) (s.entry 0x5123 0) 1) ∧
  (∀ (s : State) (q : Nat) (x : Qp), s.running = true → tabFind s.qps q = some x →
    1000 * s.entry 0x5116 0 ≤ (s.time - x.rateAt).toNat →
    exec (.rateRecover q) s = .next { s with qps := tabSet s.qps q { x with rate := min lineRate (x.rate + s.entry 0x5117 0), rateAt := s.time } }) ∧
  (∀ (s : State) (r : KdpRequest) (x : Session) (d : DictRow) (sub : Nat) (v : List Byte), KdpWrites s r x d 0x5110 sub v → s.running = true → s.qpOk v = true →
    let q := leAt v 0 2
    let y : Qp :=
      { port := leAt v 2 1
        flags := leAt v 3 1
        partition := leAt v 4 1
        pmtu := leAt v 5 1
        region := leAt v 6 2
        destQpn := leAt v 8 4
        psnRx := leAt v 0xC 4
        psnFirst := leAt v 0xC 4
        psnTx := leAt v 0x10 4
        vlan := leAt v 0x14 2
        dscp := leAt v 0x16 1
        mac := (v.drop 0x18).take 6
        ip := (v.drop 0x20).take 16
        ringOff := leAt v 0x30 4
        slots := leAt v 0x34 2
        slotSize := leAt v 0x36 2
        error := false
        rate := lineRate
        rateAt := s.time
        cnpSent := none
        gap := false
        arrived := 0#64
        msg := none }
    (tabFind s.qps q = none →
      exec (.qpCreate r) s = .next (s.applied { s.took r (some x) with qps := tabSet s.qps q y } r 0x5110 sub)) ∧
    ((tabFind s.qps q).isSome = true → exec (.qpCreate r) s = .next (s.refusedCmd (s.took r (some x)) r 0x5110 sub stBusy []))) ∧
  (∀ (s : State) (r : KdpRequest) (x : Session) (d : DictRow) (sub : Nat) (v : List Byte), KdpWrites s r x d 0x5111 sub v → s.running = true →
    (tabFind s.qps (leNat v)).isSome = true →
    exec (.qpDestroy r) s = .next (s.applied { s.took r (some x) with qps := tabErase s.qps (leNat v) } r 0x5111 sub))

/-- A capture goes to a free cell that may check it, and only clears that cell's weight registers. A search that finds none skips the sample, or leaves the vote undecided
and ends the launch. A checker that agrees settles the sample; one that differs calls for a third cell, whose agreement with the origin charges the first checker, and whose agreement with the first
checker charges the origin and ends its launch with ARITH_MISMATCH; no agreement ends it too. A pending quarantine takes effect once the cell is free. An operator's write releases a cell.
Completion: under its conditions on the state and the operands alone, exec answers a next state for each of `tasterCheckerDispatch`, `tasterSearchTimeout`,
`tasterCheckComplete`, `quarantineEffective`, `quarantinedWrite`. -/
def Obligations.TasterVerdictsAndQuarantine : Prop :=
  (∀ (s : State) (id c : Nat) (t : TasterCheck), OnCell s c → tabFind s.tasters id = some t → t.on = none → s.mayCheck t c = true →
    exec (.tasterCheckerDispatch id c) s = .next ((({ s with tasters := tabSet s.tasters id { t with on := some c } }).setCell c
      { s.cell c with array := { (s.cell c).array with wregs := [] } }))) ∧
  (∀ (s : State) (id : Nat) (t : TasterCheck) (l : Launch), s.running = true → tabFind s.tasters id = some t → t.on = none → s.launch? t.launch = some l →
    (t.first = none → (∀ c, l.cells.head? = some c → ThreadRuns s c) →
      ∃ u, exec (.tasterSearchTimeout id) s = .next u ∧ CountOnly { s with tasters := tabErase s.tasters id, launches := u.launches } u ∧
        u.launch? t.launch = some { l with verdicts := l.verdicts - 1 } ∧ ∀ k, k ≠ t.launch → u.launch? k = s.launch? k) ∧
    (∀ d sum, t.first = some (d, sum) → l.phase ≠ .ended →
      ∃ u y, exec (.tasterSearchTimeout id) s = .next u ∧ u.tasters = tabErase s.tasters id ∧ u.launch? t.launch = some y ∧ y.phase = .ended ∧
        y.status = some stArithMismatch ∧ u.health = s.health ∧ u.dram = s.dram)) ∧
  (∀ (s : State) (id c : Nat) (t : TasterCheck) (l : Launch) (err : DWord), s.running = true → tabFind s.tasters id = some t → t.on = some c → s.launch? t.launch = some l →
    let sum := captureSum t.key t.pass ^^^ err
    (t.first = none → sum = t.sum → (∀ d, l.cells.head? = some d → ThreadRuns s d) →
      ∃ u, exec (.tasterCheckComplete id err) s = .next u ∧ CountOnly { s with tasters := tabErase s.tasters id, launches := u.launches } u ∧
        u.launch? t.launch = some { l with verdicts := l.verdicts - 1 } ∧ u.entry 0x6051 0 = satAdd (dictBits (dkey 0x6051 0)) (s.entry 0x6051 0) 1) ∧
    (t.first = none → sum ≠ t.sum →
      exec (.tasterCheckComplete id err) s = .next { s with tasters := tabSet s.tasters id { t with on := none, first := some (c, sum) } }) ∧
    (∀ d other, t.first = some (d, other) → sum = t.sum → (s.strikesOf d).length + 1 < s.entry 0x6055 0 → (∀ k, l.cells.head? = some k → ThreadRuns s k) →
      ∃ u, exec (.tasterCheckComplete id err) s = .next u ∧ Reports { s with tasters := tabErase s.tasters id, launches := u.launches, health := u.health } u ∧
        u.healthOf d = { s.healthOf d with strikes := s.strikesOf d ++ [s.time] } ∧ (∀ k, k ≠ d → u.healthOf k = s.healthOf k)) ∧
    (∀ d, t.first = some (d, sum) → sum ≠ t.sum → l.phase ≠ .ended → (s.strikesOf t.cell).length + 1 < s.entry 0x6055 0 →
      ∃ u y, exec (.tasterCheckComplete id err) s = .next u ∧ u.tasters = tabErase s.tasters id ∧ u.launch? t.launch = some y ∧ y.phase = .ended ∧
        y.status = some stArithMismatch ∧ u.healthOf t.cell = { s.healthOf t.cell with strikes := s.strikesOf t.cell ++ [s.time] }) ∧
    (∀ d other, t.first = some (d, other) → sum ≠ t.sum → sum ≠ other → l.phase ≠ .ended →
      ∃ u y, exec (.tasterCheckComplete id err) s = .next u ∧ u.tasters = tabErase s.tasters id ∧ u.launch? t.launch = some y ∧ y.phase = .ended ∧
        y.status = some stArithMismatch ∧ u.health = s.health)) ∧
  (∀ (s : State) (c : Nat), OnCell s c → (s.healthOf c).pending = true → (s.cell c).launch = none →
    (∀ l ∈ s.launches, l.2.phase ≠ .saved ∧ l.2.phase ≠ .taken) →
    exec (.quarantineEffective c) s =
      .next ((s.setHealth c { s.healthOf c with pending := false }).setCell c { s.cell c with residency := none })) ∧
  (∀ (s : State) (r : KdpRequest) (x : Session) (d : DictRow) (sub : Nat) (v : List Byte), KdpWrites s r x d 0x6057 sub v →
    (s.hourCommits (dkey 0x6057 sub)).length < 64 →
    ∃ u, exec (.quarantinedWrite r) s = .next (s.flashed u r 0x6057 sub) ∧ u.quarantined = BitVec.ofNat 128 (leNat v) ∧
      (∀ c, c < 128 → s.quarantined.getLsbD c = true → u.quarantined.getLsbD c = false → (u.healthOf c).strikes = [] ∧ (u.healthOf c).pending = false) ∧
      u.dram = s.dram)

/-- REPLICA_DEFINE of a sound record takes the lowest free copy; a version set discards the pass under way and ends a mark; a clear ends a mark; a remove frees the copy. A pass begins at the
copy's version. A pass that ends posts its record, and the copy's count of passes rises; a copy that wins ends its mark. A repair that has copied the whole region takes the winner's version and starts a new pass.
Completion: under its conditions on the state and the operands alone, exec answers a next state for each of `replicaDefine`, `replicaVersion`,
`replicaRemove`, `replicaClear`, `digestPassStart`, `digestPassDone`, `replicaRepaired`. -/
def Obligations.ReplicasDigestAndRepair : Prop :=
  (∀ (s : State) (r : KdpRequest) (x : Session) (d : DictRow) (sub : Nat) (v : List Byte), KdpWrites s r x d 0x4301 sub v → s.running = true →
    let c := replicaFrom v
    replicaFieldsOk v = true → (s.ctx c.context).used = true → (s.ctx c.context).partition = c.partition → s.mappedR c.context c.vbase c.length = true →
    s.replicaOf c.setId = none →
    (∀ k, tabFree s.replicas 0 16 = some k →
      exec (.replicaDefine r) s = .next (s.applied { s.took r (some x) with replicas := tabSet s.replicas k c } r 0x4301 sub)) ∧
    (tabFree s.replicas 0 16 = none → exec (.replicaDefine r) s = .next (s.refusedCmd (s.took r (some x)) r 0x4301 sub stBusy []))) ∧
  (∀ (s : State) (r : KdpRequest) (x : Session) (d : DictRow) (sub : Nat) (v : List Byte) (k : Nat) (c : Replica), KdpWrites s r x d 0x4302 sub v → s.running = true →
    s.replicaOf (leAt v 0 4) = some (k, c) → v.length = 16 → leAt v 4 4 = 0 → leAt v 8 8 ≠ 0 →
    let y := { c with version := BitVec.ofNat 64 (leAt v 8 8), running := none, repairing := none, asked := none, suspect := false, reported := false, healed := false }
    exec (.replicaVersion r) s = .next (s.applied { s.took r (some x) with replicas := tabSet s.replicas k y } r 0x4302 sub)) ∧
  (∀ (s : State) (r : KdpRequest) (x : Session) (d : DictRow) (sub : Nat) (v : List Byte) (k : Nat) (c : Replica), KdpWrites s r x d 0x4303 sub v → s.running = true →
    s.replicaOf (leNat v) = some (k, c) →
    exec (.replicaRemove r) s = .next (s.applied { s.took r (some x) with replicas := tabErase s.replicas k } r 0x4303 sub)) ∧
  (∀ (s : State) (r : KdpRequest) (x : Session) (d : DictRow) (sub : Nat) (v : List Byte) (k : Nat) (c : Replica), KdpWrites s r x d 0x4304 sub v → s.running = true →
    s.replicaOf (leNat v) = some (k, c) →
    exec (.replicaClear r) s = .next (s.applied { s.took r (some x) with replicas := tabSet s.replicas k { c with suspect := false, reported := false } } r 0x4304 sub)) ∧
  (∀ (s : State) (k : Nat) (c : Replica), s.running = true → tabFind s.replicas k = some c → s.taskOn 9 = true → c.running = none → c.repairing = none →
    exec (.digestPassStart k) s = .next { s with replicas := tabSet s.replicas k { c with running := some c.version } }) ∧
  (∀ (s : State) (k : Nat) (c : Replica) (bs : List Byte) (po : Bool), s.running = true → tabFind s.replicas k = some c → c.running.isSome = true →
    s.keeperUp = true → s.regionBytes c = some (bs, po) →
    ∃ u y, exec (.digestPassDone k) s = .next u ∧ tabFind u.replicas k = some y ∧ y.running = none ∧ y.passes = c.passes + 1 ∧ y.version = c.version ∧
      y.setId = c.setId ∧ (∀ j, j ≠ k → tabFind u.replicas j = tabFind s.replicas j) ∧ u.cells = s.cells) ∧
  (∀ (s : State) (k w : Nat) (c : Replica), s.running = true → tabFind s.replicas k = some c → c.repairing = some w → c.copied = c.length → s.keeperUp = true →
    let v := match s.boardRecord c w with | some d => BitVec.ofNat 64 d.version | none => c.version
    ∃ u, exec (.replicaRepaired k w) s = .next u ∧ tabFind u.replicas k = some { c with
        repairing := none
        suspect := false
        version := v
        running := some v
        healed := true } ∧ (∀ j, j ≠ k → tabFind u.replicas j = tabFind s.replicas j) ∧ u.dram = s.dram ∧
      u.entry 0x4308 0 = satAdd (dictBits (dkey 0x4308 0)) (s.entry 0x4308 0) 1)

/-- Whatever the records, a copy that R429 makes a winner has a ready record (state 0 or 4) of the newest version among the ready ones, and its digest is the one that every
ready record of that version holds, or, where there are three or more of them, the one that more than half hold. -/
def Obligations.AWinnerHoldsTheNewestMajority : Prop :=
  ∀ (own : DigestRecord) (peers : List DigestRecord), decideCopy own peers = .winner →
    let ready := (own :: peers).filter (fun (d : DigestRecord) => d.state == 0 || d.state == 4)
    let newest := ready.filter (fun (d : DigestRecord) => d.version == own.version)
    own ∈ ready ∧ (∀ d ∈ ready, d.version ≤ own.version) ∧
      ((∀ d ∈ newest, d.digest = own.digest) ∨
        (3 ≤ newest.length ∧ newest.length < 2 * (newest.filter (fun (d : DigestRecord) => d.digest == own.digest)).length))

/-- A read of a clean codeword changes nothing but counters; errors that stay are kept; one correctable symbol is logged, counted and owes a corrective write; an uncorrectable read is logged,
counted, flagged and owes the poison marker; an address error is logged, counted and flagged; a poisoned read by a device-wide reader stops the device. An access that activates counts on its row, and the threshold queues a targeted refresh. A full write stores its bytes; a partial
write merges with what a read of its granule gives. A corrective write stores the corrected data and clears the damage, the poison marker stands over the data as read. A bridge that exhausts its retries stops the device.
Completion: under its conditions on the state and the operands alone, exec answers a next state for each of `bridgeRetryExhausted`, `dramRead`, `dramWrite`,
`correctiveWrite`. -/
def Obligations.DramReadsAndWrites : Prop :=
  (∀ (s : State) (g at_ : Nat) (errs : List (Nat × Nat)) (what : ReadFor), s.running = true → s.isDram (64 * g) = true → s.isDram (64 * at_) = true →
    let here := landErrs g at_ ++ errs
    let seen := here.foldl addErr (s.storedErrs at_)
    let data := decodedData (s.dram.read (64 * at_) 64) seen
    let k := stackOf (64 * g) + 1
    let flagged := if here.isEmpty then tabErase s.struck g else tabSet s.struck g data
    (decode16 seen = .clean →
      ∃ u, exec (.dramRead ⟨g, at_⟩ errs false false false what) s = .next u ∧ CountOnly { s with struck := tabErase s.struck g } u) ∧
    (∀ pos, decode16 seen = .corrected pos →
      ∃ u, exec (.dramRead ⟨g, at_⟩ errs false false false what) s = .next u ∧
        CountOnly { s with
          fixups := if (tabFind s.fixups g).isSome then s.fixups else tabSet s.fixups g (.corrective data)
          memLog := s.memLog ++ [.corrected (dramUnit (64 * g)) pos]
          struck := tabErase s.struck g } u ∧
        u.entry 0x4006 k = satAdd (dictBits (dkey 0x4006 k)) (s.entry 0x4006 k) 1) ∧
    (decode16 seen = .bad →
      ∃ u, exec (.dramRead ⟨g, at_⟩ errs false false false .data) s = .next u ∧
        CountOnly { s with
          fixups := tabSet s.fixups g (.poison data)
          memLog := s.memLog ++ [.uncorrectable (64 * g)]
          struck := flagged } u ∧
        u.entry 0x4007 k = satAdd (dictBits (dkey 0x4007 k)) (s.entry 0x4007 k) 1) ∧
    (decode16 seen = .address →
      ∃ u, exec (.dramRead ⟨g, at_⟩ errs false false false .data) s = .next u ∧
        CountOnly { s with
          channels := u.channels
          memLog := s.memLog ++ [.address (64 * g)]
          struck := flagged } u ∧
        u.entry 0x4008 k = satAdd (dictBits (dkey 0x4008 k)) (s.entry 0x4008 k) 1) ∧
    (decode16 seen = .poison → ∃ u, exec (.dramRead ⟨g, at_⟩ errs false false false .device) s = .next u ∧ Stopped { s with struck := flagged } u)) ∧
  (∀ (s : State) (g : Nat) (errs : List (Nat × Nat)), s.running = true → s.isDram (64 * g) = true → (∀ e ∈ errs, e.1 < 36) →
    let now := errs.foldl addErr (tabGet [] s.damage g)
    let met := now ++ if s.dram.hasPoison g then poisonPattern else []
    now ≠ [] → ∀ pos, decode16 met = .corrected pos →
    ∃ u, exec (.dramRead ⟨g, g⟩ errs true false false .data) s = .next u ∧ CountOnly { s with
      damage := tabSet s.damage g now
      fixups := if (tabFind s.fixups g).isSome then s.fixups else tabSet s.fixups g (.corrective (decodedData (s.dram.read (64 * g) 64) met))
      memLog := s.memLog ++ [.corrected (dramUnit (64 * g)) pos]
      struck := tabErase s.struck g } u) ∧
  (∀ (s : State) (g : Nat), s.running = true → s.isDram (64 * g) = true → decode16 (s.storedErrs g) = .clean → s.activates (64 * g) = true →
    let u := dramUnit (64 * g)
    let place := (dramRank s.code (64 * g), dramBank (64 * g), dramRow s.code (64 * g))
    let k := rowKey u place.1 place.2.1 place.2.2
    let n := min 4095 (tabGet 0 s.rowActs k + 1)
    let z := { s with rowActs := tabSet s.rowActs k n, struck := tabErase s.struck g }
    (n < s.entry 0x4004 0 → ∃ t, exec (.dramRead ⟨g, g⟩ [] false true false .data) s = .next t ∧ CountOnly z t) ∧
    (s.entry 0x4004 0 ≤ n → place ∉ (s.channel u).targeted → (s.channel u).targeted.length < 16 →
      ∃ t, exec (.dramRead ⟨g, g⟩ [] false true false .data) s = .next t ∧
        CountOnly (z.setChannel u { s.channel u with targeted := (s.channel u).targeted ++ [place] }) t)) ∧
  (∀ (s : State) (pa : Nat) (bs : List Byte) (po : Bool) (errs again : List (Nat × Nat)), s.running = true → s.isDram pa = true → pa % 64 + bs.length ≤ 64 →
    let met := fun (e : List (Nat × Nat)) => e.foldl addErr (s.storedErrs (pa / 64))
    (bs.length = 64 → ∃ u, exec (.dramWrite pa bs po errs again false false) s = .next u ∧ CountOnly (s.dramStore pa bs po) u) ∧
    (bs ≠ [] → bs.length < 64 →
      ∃ u, exec (.dramWrite pa bs po errs again false false) s = .next u ∧ CountOnly ((s.mergeRead (pa / 64) (met errs) (met again)).dramStore pa bs po) u)) ∧
  (∀ (s : State) (g : Nat) (data : List Byte), s.running = true → tabFind s.fixups g = some (.corrective data) → (s.stackTherm (stackOf (64 * g))).stage = 0 →
    data.length = 64 →
    ∃ u, exec (.correctiveWrite ⟨g, false⟩) s = .next u ∧
      TaskRan { s with
        dram := s.dram.store 64 (64 * g) data false false
        fixups := u.fixups
        damage := u.damage
        struck := u.struck } u 4 0 ∧
      tabFind u.fixups g = none ∧ tabFind u.damage g = none ∧ tabFind u.struck g = none) ∧
  (∀ (s : State) (g : Nat) (data : List Byte), s.running = true → tabFind s.fixups g = some (.poison data) → data.length = 64 →
    ∃ u, exec (.correctiveWrite ⟨g, false⟩) s = .next u ∧
      TaskRan { s with
        dram := s.dram.store 64 (64 * g) data true false
        fixups := u.fixups
        damage := u.damage
        struck := u.struck } u 4 0 ∧
      tabFind u.fixups g = none ∧ tabFind u.damage g = none ∧ tabFind u.struck g = none) ∧
  (∀ (s : State), s.running = true → ∃ u, exec .bridgeRetryExhausted s = .next u ∧ Stopped s u)

/-- A refresh clears the counters of its sixteen rows, a targeted one those of the aggressor and its neighbours. A sample of a stack's sensors sets its temperature, stage and pace; the pace is
restored once cool; each operating minute is counted, hot or not. A scrub read of a clean granule counts as a run. A recentring step, or the eighth part of one, ends the channel's wait, a command queues every channel of a stack, an
overdue one is reported.
Completion: under its conditions on the state and the operands alone, exec answers a next state for each of `refreshCommand`, `targetedRefresh`,
`dramSensorSample`, `refreshPaceRestore`, `hotMinute`, `patrolScrub`, `recentreStep`, `calibOverdue`, `recentreNow`. -/
def Obligations.DramRefreshScrubAndTemperature : Prop :=
  (∀ (s : State) (u rank bank row16 : Nat), s.running = true → u < 256 →
    ∃ t, exec (.refreshCommand u rank bank row16) s = .next t ∧
      TaskRan { s with rowActs := (List.range 16).foldl (fun a i => tabErase a (rowKey u rank bank (16 * row16 + i))) s.rowActs } t 1 0) ∧
  (∀ (s : State) (u rank bank row : Nat) (rest : List (Nat × Nat × Nat)), s.running = true → u < 256 → 2 ≤ row → row + 2 < 65536 →
    (s.channel u).targeted = (rank, bank, row) :: rest →
    ∃ t, exec (.targetedRefresh u) s = .next t ∧
      TaskRan ({ s with rowActs := [row - 2, row - 1, row, row + 1, row + 2].foldl (fun a r => tabErase a (rowKey u rank bank r)) s.rowActs }.setChannel u
        { s.channel u with targeted := rest }) t 2 0) ∧
  (∀ (s : State) (k : Nat) (ts : List Int), k < 4 →
    let x := s.stackTherm k
    let m := hottest ts
    let fast := x.fast || decide (1360 < m.1)
    let y := StackTherm.mk m.1 (m.2 / 4) (stageAfter memRise memFall x.stage m.1) fast (x.hotMinute || fast)
    ∃ u, exec (.dramSensorSample k ts) s = .next u ∧ Reports { s with therms := tabSet s.therms k y } u) ∧
  (∀ (s : State) (k : Nat), s.running = true → k < 4 → (s.stackTherm k).fast = true → (s.stackTherm k).temp ≤ 1312 →
    exec (.refreshPaceRestore k) s = .next { s with therms := tabSet s.therms k { s.stackTherm k with fast := false } }) ∧
  (∀ (s : State), s.keeperUp = true →
    ∃ u, exec .hotMinute s = .next u ∧ u.entry 0x4005 6 = satAdd (dictBits (dkey 0x4005 6)) (s.entry 0x4005 6) 1 ∧
      (∀ k, k < 4 → u.stackTherm k = { s.stackTherm k with hotMinute := (s.stackTherm k).fast } ∧
        u.entry 0x4005 (k + 1) = (if (s.stackTherm k).hotMinute then satAdd (dictBits (dkey 0x4005 (k + 1))) (s.entry 0x4005 (k + 1)) 1 else s.entry 0x4005 (k + 1)))) ∧
  (∀ (s : State) (g : Nat), s.running = true → s.isDram (64 * g) = true → s.taskOn 3 = true → (s.stackTherm (stackOf (64 * g))).stage = 0 →
    decode16 (s.storedErrs g) = .clean → ∃ u, exec (.patrolScrub ⟨g, false⟩ [] false) s = .next u ∧ TaskRan s u 3 0) ∧
  (∀ (s : State) (u : Nat), s.running = true → u < 256 → (s.stackTherm (u / 64)).stage = 0 → (s.channel u).parts = none →
    ∃ t, exec (.recentreStep u false) s = .next t ∧ TaskRan (s.setChannel u { s.channel u with recentre := false, urgent := false, aborts := 0 }) t 5 u) ∧
  (∀ (s : State) (u n : Nat), s.running = true → u < 256 → (s.stackTherm (u / 64)).stage = 0 → (s.channel u).parts = some n →
    (n < 7 → exec (.recentreStep u false) s = .next (s.setChannel u { s.channel u with parts := some (n + 1) })) ∧
    (7 ≤ n → ∃ t, exec (.recentreStep u false) s = .next t ∧
      TaskRan (s.setChannel u { s.channel u with recentre := false, urgent := false, aborts := 0, parts := none }) t 5 u)) ∧
  (∀ (s : State) (u : Nat), s.running = true → u < 256 →
    ∃ t, exec (.calibOverdue u) s = .next t ∧ Reports (s.markOverdue 5 u) t ∧ (5, u) ∈ t.manager.overdue) ∧
  (∀ (s : State) (r : KdpRequest) (x : Session) (d : DictRow) (sub : Nat) (v : List Byte), KdpWrites s r x d 0x400B sub v → s.running = true →
    1 ≤ sub → sub ≤ 4 →
    ∃ z, exec (.recentreNow r) s = .next (s.applied z r 0x400B sub) ∧ z = { s.took r (some x) with channels := z.channels } ∧
      ∀ u, z.channel u = if u / 64 = sub - 1 then { s.channel u with recentre := true } else s.channel u)

/-- VAUX_GOOD latches the straps and runs the keeper image of the active bank, else that of the other, else the boot ROM waits in recovery. A rail that becomes good starts its wait, a wait that ends enables the next rail, and with the last one the sequence is
up. PWROK_RISE permits, POWER_UP asks for the sequence and is refused in board mode. A broken order is latched, and holds the data path or switches the rails off; a PMBus alert is logged; the third failure in a row of
one rail's transaction during sequencing ends the sequence.
Completion: under its conditions on the state and the operands alone, exec answers a next state for each of `vauxGood`, `powerUp`, `railGood`,
`seqWaitExpiry`, `pwrokRise`, `railOrderFault`, `pmbAlert`, `pmbusTransaction`. -/
def Obligations.SuppliesComeUpInOrder : Prop :=
  (∀ (s : State) (m id : Nat) (a b : ImageVerdict), s.rail 1 ≠ .good → m < 3 → recTrialType s.boot.inForce ≠ 1 → recActive s.boot.inForce 1 ≤ 1 →
    let k := recActive s.boot.inForce 1
    let code := fun (j : Nat) => s.imageCode 1 (s.boot.area j 1) (if j = 0 then a else b)
    let z := { s with
      power := { s.power with rails := tabSet s.power.rails 1 .good, mode := m, strapId := id % 16, seq := .idle, upAsked := m == 1, path := .held }
      keeper := { s.keeper with cause := 0 } }
    ∃ u, exec (.vauxGood m id a b) s = .next u ∧ u.power = z.power ∧ u.dram = s.dram ∧
      if code k = 0 then u = { z with boot := { s.boot with
        running := tabSet s.boot.running 1 (RunningImage.mk k false ((s.boot.area k 1).read 0 1024))
        keeperCode := 0
        recovery := false } }
      else if code (1 - k) = 0 then u.boot.recovery = false ∧ u.boot.keeperCode = 0 ∧
        tabFind u.boot.running 1 = some (RunningImage.mk (1 - k) false ((s.boot.area (1 - k) 1).read 0 1024))
      else u.boot.recovery = true ∧ u.boot.keeperCode = code 1 ∧ u.keeper.field = (if (id % 16 + s.entry 0x1010 0) % 256 = 0 then 3 else 2)) ∧
  (∀ (s : State) (r k : Nat), 2 ≤ r → r ≤ 8 →
    let p := { s.power with rails := tabSet s.power.rails r .good, tripHolds := flagDel s.power.tripHolds r }
    (s.power.seq = .rising k → r = k + 2 → exec (.railGood r) s = .next { s with power := { p with seq := .waiting k } }) ∧
    ((∀ j, s.power.seq ≠ .rising j) → exec (.railGood r) s = .next { s with power := p })) ∧
  (∀ (s : State) (k : Nat), s.power.seq = .waiting k → s.keeperUp = true → s.power.pwrok = true → s.power.mode ≠ 0 → s.power.upAsked = true →
    s.power.pmbSwapped = false → s.power.trip = false →
    (∀ r, ([3, 4, 5, 6, 7, 8] : List Nat).find? (fun r => !s.power.enabled.contains r) = some r →
      exec .seqWaitExpiry s = .next { s with power := { s.power with enabled := flagAdd s.power.enabled r, seq := .rising (r - 2) } }) ∧
    (([3, 4, 5, 6, 7, 8] : List Nat).find? (fun r => !s.power.enabled.contains r) = none →
      exec .seqWaitExpiry s = .next { s.cmdEnd 0x2007 0 stOk with power := { s.power with seq := .up } })) ∧
  (∀ (s : State), s.power.mode = 0 →
    exec .pwrokRise s = .next { s with power := { s.power with pwrok := true, orderHold := s.power.orderHold && !s.power.pwrokFell } }) ∧
  (∀ (s : State) (q : KdpRequest) (x : Session) (d : DictRow) (sub : Nat) (v : List Byte), KdpWrites s q x d 0x2007 sub v →
    (s.power.mode = 0 → exec (.powerUp q) s = .next (s.refusedCmd (s.took q (some x)) q 0x2007 sub stIllegalOp [])) ∧
    (s.power.mode ≠ 0 → s.power.seq = .idle → s.power.pwrok = true → s.power.pmbSwapped = false → s.power.trip = false →
      s.power.enabled = [] →
      exec (.powerUp q) s = .next (s.applied { s.took q (some x) with power := { s.power with upAsked := true, enabled := [3], seq := .rising 1 } } q 0x2007 sub))) ∧
  (∀ (s : State) (code r : Nat), (s.power.path = .held ∨ s.power.path = .stopped) → s.rail 1 ≠ .off → s.orderBroken code r = true →
    let z := if s.rail r = .off then s.setRail r .between else s
    (s.power.mode = 0 →
      ∃ u, exec (.railOrderFault code r) s = .next u ∧ Reports { z with power := { z.power with orderHold := true, pwrokFell := !s.power.pwrok } } u ∧
        u.entry 0x2006 0 = r * 256 + code) ∧
    (∀ e, s.power.mode ≠ 0 → s.falling = false → s.power.enabled.getLast? = some e →
      ∃ u, exec (.railOrderFault code r) s = .next u ∧ u.entry 0x2006 0 = r * 256 + code ∧ u.power = { z.power with
        upAsked := false
        down := true
        enabled := flagDel s.power.enabled e
        seq := .falling (e - 2) })) ∧
  (∀ (s : State) (a p w : Nat), s.keeperUp = true → s.power.pmbSwapped = false →
    ∃ u, exec (.pmbAlert a p w) s = .next u ∧ Reports s u ∧ u.supplyWarning = true) ∧
  (∀ (s : State) (r : Nat), 1 ≤ r → r ≤ 8 → s.keeperUp = true → s.power.pmbSwapped = false →
    let put := fun (x : Nat × Nat) => { s with power := { s.power with pmbFails := x } }
    (∀ ok, (∀ k, s.power.seq ≠ .rising k ∧ s.power.seq ≠ .waiting k) → exec (.pmbusTransaction r ok) s = .next (put (0, 0))) ∧
    (∀ k, (s.power.seq = .rising k ∨ s.power.seq = .waiting k) →
      exec (.pmbusTransaction r true) s = .next (if s.power.pmbFails.1 = r then put (0, 0) else s) ∧
      (s.power.pmbFails.1 ≠ r → exec (.pmbusTransaction r false) s = .next (put (r, 1))) ∧
      (s.power.pmbFails.1 = r → s.power.pmbFails.2 < 2 → exec (.pmbusTransaction r false) s = .next (put (r, s.power.pmbFails.2 + 1))) ∧
      (s.power.pmbFails.1 = r → 2 ≤ s.power.pmbFails.2 → s.power.path = .held → s.power.recovering = false → s.power.mode ≠ 0 →
        ∃ u, exec (.pmbusTransaction r false) s = .next u ∧ u.power.pmbFails = (0, 0) ∧ u.power.upAsked = false ∧ u.power.path = .held ∧
          u.power.enabled = (match s.power.enabled.getLast? with | some e => flagDel s.power.enabled e | none => s.power.enabled) ∧
          u.entry 0x2006 0 = r * 256 + 0x12)))

/-- With every rail, PWROK, RESET_N and REFCLK there, the data path is released and loads its images, then runs. PWROK_FALL, RESET_N, POWER_DOWN and VAUX_LOSS hold it and its state is lost. A stack rail that goes off loses
the DRAM; the last rails follow in reverse order. A trip stops the device, and DEVICE_RECOVER restarts it once it is cool and its cause is gone. Losing REFCLK resets the host link, losing SREFCLK every
port.
Completion: under its conditions on the state and the operands alone, exec answers a next state for each of `deviceRecover`, `dataPathRelease`,
`firmwareLoaded`, `pwrokFall`, `powerDown`, `resetNAssert`, `resetNRelease`, `thermalTrip`, `supplyTrip`, `refclkLoss`, `refclkReturn`, `srefclkLoss`,
`railOff`, `vauxLoss`, `srefclkReturn`. -/
def Obligations.TheDataPathStartsAndStops : Prop :=
  (∀ (s : State), s.power.path = .held → (∀ i, i < 8 → s.rail (i + 1) = .good) → s.power.pwrok = true → s.power.resetN = true → s.refclk = true →
    s.power.orderHold = false → (s.power.mode = 0 ∨ s.power.seq = .up) → s.keeperUp = true →
    s.power.trip = false →
    ∃ u, exec .dataPathRelease s = .next u ∧ u = { s with
      power := { s.power with path := .loading }
      manager := { s.manager with
        combs := s.manager.combs.map (fun c => (c.1, { c.2 with point := 1, cap := 1, heldAt := 0 }))
        calm := 0
        cool := 0
        recent := [] }
      tracer := { s.tracer with always := u.tracer.always, full := u.tracer.full }
      counters := s.counters.filter (fun c => decide (0x200 ≤ c.1)) }) ∧
  (∀ (s : State) (fa fb ua ub : ImageVerdict), s.power.path = .loading → s.keeperUp = true →
    let fw := s.loadType 2 fa fb
    let uc := fw.2.loadType 3 ua ub
    let z := uc.2
    z.power.poisonAll = false → z.power.recovering = false →
    exec (.firmwareLoaded fa fb ua ub) s = .next (keepQueue s (if fw.1 && uc.1 then
        { z.cmdEnd 0x6058 0 stOk with power := { z.power with path := .running, recovering := false, poisonAll := false } }
      else { z.cmdEnd 0x6058 0 (Config.actionFailed 0x6058).toNat with power := { z.power with path := .stopped, recovering := false } }))) ∧
  (∀ (s : State), s.power.path = .running → s.power.pwrok = true → s.power.mode = 0 → s.power.trip = false → s.power.recovering = false → s.capturing = false →
    ∃ u, exec .pwrokFall s = .next u ∧ u.power.path = .held ∧ u.power.pwrok = false ∧ u.cells = [] ∧ (∀ k, u.part k = { Partition.none with resets := (s.part k).resets }) ∧ u.contexts = [] ∧ u.queues = [] ∧
      u.launches = [] ∧ u.host.rate = 0 ∧ u.dram = s.dram ∧
      u.boot = { s.boot with running := s.boot.running.filter (fun r => r.1 == 1) }) ∧
  (∀ (s : State), s.power.path = .running → s.capturing = false →
    ∃ u, exec .resetNAssert s = .next u ∧ u.power.path = .held ∧ u.power.resetN = false ∧ u.cells = [] ∧ (∀ k, u.part k = { Partition.none with resets := (s.part k).resets }) ∧ u.contexts = [] ∧ u.queues = [] ∧
      u.launches = [] ∧ u.host.rate = 0 ∧ u.dram = s.dram ∧
      u.boot = { s.boot with running := s.boot.running.filter (fun r => r.1 == 1) }) ∧
  (∀ (s : State), exec .resetNRelease s = .next { s with power := { s.power with resetN := true } }) ∧
  (∀ (s : State) (q : KdpRequest) (x : Session) (d : DictRow) (sub : Nat) (v : List Byte), KdpWrites s q x d 0x2008 sub v → s.power.mode ≠ 0 →
    (s.host.fn ≠ .disabled → s.host.rate ≠ 0 → exec (.powerDown q) s = .next (s.refusedCmd (s.took q (some x)) q 0x2008 sub stBusy [])) ∧
    (s.host.rate = 0 → s.falling = false → s.power.path = .running → s.capturing = false →
      ∃ z, exec (.powerDown q) s = .next (s.applied z q 0x2008 sub) ∧ z.power.path = .held ∧ z.power.upAsked = false ∧ z.cells = [] ∧ z.queues = [] ∧ z.dram = s.dram ∧
        z.power.enabled = (match s.power.enabled.getLast? with | some e => flagDel s.power.enabled e | none => s.power.enabled))) ∧
  (∀ (s : State), s.power.path = .running → tabSorted s.power.rails = true → s.capturing = false →
    ∃ u, exec .vauxLoss s = .next u ∧ u.power.path = .held ∧ u.rail 1 = .off ∧ u.keeperUp = false ∧ u.fieldUsable = false ∧ u.boot.running = [] ∧ u.counters = [] ∧
      u.cells = [] ∧ u.queues = [] ∧ u.log.entries = [] ∧ u.dram = s.dram) ∧
  (∀ (s : State) (r : Nat), 2 ≤ r → r ≤ 8 → (r ≠ 8 ∨ s.host.rate = 0) →
    let y := { s with power := { s.power with
      rails := tabSet s.power.rails r .off
      tripHolds := if s.power.enabled.contains r then s.power.tripHolds else flagDel s.power.tripHolds r } }
    (s.power.seq ≠ .falling (r - 2) → (r ≠ 6 ∧ r ≠ 7 ∨ s.rail r = .off) → exec (.railOff r) s = .next y) ∧
    (s.power.seq ≠ .falling (r - 2) → (r = 6 ∨ r = 7) → s.rail r ≠ .off →
      exec (.railOff r) s = .next { y with dram := Memory.undefined s.free, free := s.free + 1, damage := [], fixups := [], struck := [], rowActs := [] }) ∧
    (∀ e, s.power.seq = .falling (r - 2) → (r ≠ 6 ∧ r ≠ 7) → s.power.down = true → s.power.enabled.getLast? = some e →
      exec (.railOff r) s = .next { y with power := { y.power with enabled := flagDel s.power.enabled e, seq := .falling (e - 2) } })) ∧
  (∀ (s : State) (dram : Bool) (n : Nat) (v : Int), (if dram then 1600 else 1792) ≤ v → s.power.mode = 0 →
    ∃ u, exec (.thermalTrip dram n v) s = .next u ∧ Stopped { s with power := { s.power with trip := true, thermtrip := true } } u ∧
      u.entry 0x3005 0 = satAdd (dictBits (dkey 0x3005 0)) (s.entry 0x3005 0) 1) ∧
  (∀ (s : State) (r mv : Nat), (s.running = true ∨ s.power.path = .loading) → 1 ≤ r → r ≤ 8 → s.supplyBad r mv = true → s.power.mode = 0 →
    ∃ u, exec (.supplyTrip r mv) s = .next u ∧ Stopped { s with power := { s.power with
      rails := tabSet s.power.rails r (railLevel r mv)
      trip := true
      tripHolds := flagAdd s.power.tripHolds r
      poisonAll := s.power.poisonAll || r == 6 || r == 7 } } u) ∧
  (∀ (s : State) (q : KdpRequest) (x : Session) (d : DictRow) (sub : Nat) (v : List Byte), KdpWrites s q x d 0x6058 sub v → leNat v = 1 → s.power.path = .stopped → s.power.recovering = false →
    (s.power.trip = false →
      exec (.deviceRecover q) s = .next (s.applied { s.took q (some x) with power := { s.power with path := .loading, recovering := true } } q 0x6058 sub)) ∧
    (s.power.trip = true → (1360 < s.manager.edge ∨ s.power.tripHolds ≠ []) →
      exec (.deviceRecover q) s = .next (s.refusedCmd (s.took q (some x)) q 0x6058 sub stBusy [])) ∧
    (s.power.trip = true → s.power.tripHolds = [] → (∀ c ∈ s.manager.combs, c.2.temp ≤ 1360) → s.manager.edge ≤ 1360 → (∀ k ∈ s.therms, k.2.temp ≤ 1360) →
      s.power.mode = 0 →
      exec (.deviceRecover q) s = .next (s.applied { s.took q (some x) with power := { s.power with
        trip := false
        thermtrip := false
        recovering := true
        path := .held
        upAsked := true } } q 0x6058 sub))) ∧
  (∀ (s : State), s.refclk = true → s.power.path = .running →
    (s.host.rate = 0 → exec .refclkLoss s = .next { s with refclk := false }) ∧
    (s.host.rate ≠ 0 → ∃ u, exec .refclkLoss s = .next u ∧ u.refclk = false ∧ u.host.rate = 0 ∧ u.dram = s.dram ∧ u.cells = s.cells)) ∧
  (∀ (s : State), exec .refclkReturn s = .next { s with refclk := true }) ∧
  (∀ (s : State), ∃ u, exec .srefclkLoss s = .next u ∧ u.power.srefPresent = false ∧ (∀ p, p < 8 → (u.port p).link = .absent) ∧ u.dram = s.dram ∧ u.cells = s.cells) ∧
  (∀ (s : State), exec .srefclkReturn s = .next { s with power := { s.power with srefPresent := true } })

/-- A point change takes a comb to the highest of its ceilings. A window above the cap lowers cap settings and never raises one; one below it counts towards a rise. The rail poll keeps the readings of the mapped rails.
A sample of the logic sensors sets a comb's temperature and stage.
Completion: under its conditions on the state and the operands alone, exec answers a next state for each of `railPowerPoll`, `powerWindow`,
`pointChangeComplete`, `logicSensorSample`. -/
def Obligations.PowerCapAndThermalStages : Prop :=
  (∀ (s : State) (k : Nat), s.running = true → k < 16 →
    let p := (s.ceilings k).foldl max 0
    (p = (s.comb k).point → exec (.pointChangeComplete k) s = .next s) ∧
    (p ≠ (s.comb k).point →
      ∃ u, exec (.pointChangeComplete k) s = .next u ∧ TraceOnly (s.setComb k { s.comb k with point := p }) u)) ∧
  (∀ (s : State) (combs rest : Nat), s.rail 1 = .good →
    let cap := s.entry 0x2004 0 * 1000
    let pkg := combs + (rest + s.otherRails)
    ∃ u, exec (.powerWindow combs rest) s = .next u ∧ u.manager.recent = (pkg :: s.manager.recent).take 100 ∧
      u = { s with manager := u.manager, counters := u.counters } ∧
      (cap < pkg → u.manager.calm = 0 ∧ ∀ k, k < 16 → (s.comb k).cap ≤ 7 → (s.comb k).cap ≤ (u.comb k).cap ∧ (u.comb k).cap ≤ 7) ∧
      (pkg ≤ cap → ∀ k, k < 16 → (u.comb k).cap ≤ (s.comb k).cap ∧ (s.comb k).cap ≤ (u.comb k).cap + 1)) ∧
  (∀ (s : State) (mw mv : List Nat), s.keeperUp = true →
    ∃ u, exec (.railPowerPoll mw mv) s = .next u ∧ u = { s with manager := u.manager, dict := u.dict, counters := u.counters } ∧
      u.manager = { s.manager with railMw := u.manager.railMw, railMv := u.manager.railMv } ∧
      ∀ r, 1 ≤ r → r ≤ 8 → tabGet 0 u.manager.railMv r = mv.getD (r - 1) 0 ∧
        tabGet 0 u.manager.railMw r = (if s.entry 0x2009 r ≠ 0xFFFF ∧ s.power.pmbSwapped = false then mw.getD (r - 1) 0 else 0)) ∧
  (∀ (s : State) (combs : List (List Int)) (edge : List Int),
    ∃ u, exec (.logicSensorSample combs edge) s = .next u ∧ Reports { s with manager := u.manager } u ∧
      u.manager.edge = (if edge = [] then s.manager.edge else (hottest edge).1) ∧
      ∀ k, k < 16 →
        (∀ ts, combs[k]? = some ts → ts ≠ [] → u.comb k = { s.comb k with
          temp := (hottest ts).1
          lstage := min 2 (stageAfter logicRise logicFall (s.comb k).lstage (hottest ts).1) }) ∧
        (combs[k]? = none ∨ combs[k]? = some [] → u.comb k = s.comb k))

/-- A tuned lane leaves the port's list; a guardband run moves the comb's offset by at most five, within 0 to 30; an overdue task is marked and reported. TUNE_NOW, GUARD_NOW and PART_SELFTEST queue the work, the last only
on an idle ACTIVE partition; a self-test that ends posts its result. A telemetry copy takes the always-on counters; a pin that fails ten samples in a row is faulty.
Completion: under its conditions on the state and the operands alone, exec answers a next state for each of `laneTuning`, `guardbandRun`, `nurseOverdue`,
`tuneNow`, `guardNow`, `partSelftest`, `selftestDone`, `telemetryCopy`, `pinReadback`. -/
def Obligations.NurseTasksRun : Prop :=
  (∀ (s : State) (p lane : Nat), s.running = true → p < 8 → lane < 4 → s.keeperUp = true → s.taskOn 11 = true → (s.port p).ether = false → (s.port p).link = .up →
    ∃ u, exec (.laneTuning p lane) s = .next u ∧ TaskRan (s.setPort p { s.port p with tuning := (s.port p).tuning &&& ~~~ (1#4 <<< lane) }) u 11 0) ∧
  (∀ (s : State) (k : Nat) (delta : Int), s.running = true → k < 16 → s.keeperUp = true → s.taskOn 12 = true → s.combIdle k = true → (s.comb k).guard ≤ 30 →
    ∃ u, exec (.guardbandRun k delta false) s = .next u ∧ u = { s with manager := u.manager, dict := u.dict, counters := u.counters } ∧
      (u.comb k).guard ≤ 30 ∧ (u.comb k).guard ≤ (s.comb k).guard + 5 ∧ (s.comb k).guard ≤ (u.comb k).guard + 5 ∧ (u.comb k).overdue = false ∧
      (∀ j, j ≠ k → u.comb j = s.comb j)) ∧
  (∀ (s : State) (t k : Nat), s.keeperUp = true → 1 ≤ t → t ≤ 14 →
    (t ≠ 12 → (t = 5 → k < 256) → ∃ u, exec (.nurseOverdue t k) s = .next u ∧ Reports (s.markOverdue t (if t = 5 then k else 0)) u) ∧
    (t = 12 → ∃ u, exec (.nurseOverdue t k) s = .next u ∧ (u.comb k).overdue = true ∧ u.manager.overdue = (s.markOverdue 12 k).manager.overdue)) ∧
  (∀ (s : State) (r : KdpRequest) (x : Session) (d : DictRow) (sub : Nat) (v : List Byte), KdpWrites s r x d 0x9011 sub v → s.running = true →
    (s.port (sub - 1)).ether = false →
    exec (.tuneNow r) s = .next (s.applied ((s.took r (some x)).setPort (sub - 1) { s.port (sub - 1) with tuning := 15#4 }) r 0x9011 sub)) ∧
  (∀ (s : State) (r : KdpRequest) (x : Session) (d : DictRow) (sub : Nat) (v : List Byte), KdpWrites s r x d 0x9012 sub v → s.running = true →
    exec (.guardNow r) s = .next (s.applied ((s.took r (some x)).setComb (sub - 1) { s.comb (sub - 1) with guardNow := true }) r 0x9012 sub)) ∧
  (∀ (s : State) (r : KdpRequest) (x : Session) (d : DictRow) (sub : Nat) (v : List Byte), KdpWrites s r x d 0x9020 sub v → s.running = true →
    ((s.part (sub - 1)).state = .active → (s.part (sub - 1)).selfTest = false → s.partIdle (sub - 1) = true → s.partMigrates (sub - 1) = false →
      exec (.partSelftest r) s = .next (s.applied ((s.took r (some x)).setPart (sub - 1) { s.part (sub - 1) with selfTest := true }) r 0x9020 sub)) ∧
    (s.partIdle (sub - 1) = false → exec (.partSelftest r) s = .next (s.refusedCmd (s.took r (some x)) r 0x9020 sub stBusy []))) ∧
  (∀ (s : State) (p n : Nat), s.running = true → p < 16 → (s.part p).selfTest = true → n < 2 ^ 30 →
    exec (.selftestDone p n) s =
      .next (((s.setPart p { s.part p with selfTest := false }).setEntry 0x9021 (p + 1) (2 ^ 31 + (if n = 0 then 0 else 2 ^ 30) + n)).cmdEnd 0x9020 (p + 1) stOk)) ∧
  (∀ (s : State), s.keeperUp = true →
    ∃ u, exec .telemetryCopy s = .next u ∧
      TaskRan { s with tracer := { s.tracer with copyTime := s.time, copy := (List.range 64).map (fun i => (8 * i, s.counterAt (8 * i))) } } u 14 0) ∧
  (∀ (s : State) (n kind : Nat), s.keeperUp = true → n < 48 → s.manager.pinFaults = [] → tabSorted s.manager.pinBad = true →
    (tabGet 0 s.manager.pinBad n = 9 → ∃ u, exec (.pinReadback [(n, kind)]) s = .next u ∧ n ∈ u.manager.pinFaults ∧ Reports { s with manager := u.manager } u) ∧
    (tabGet 0 s.manager.pinBad n < 9 →
      ∃ u, exec (.pinReadback [(n, kind)]) s = .next u ∧ u.manager.pinFaults = [] ∧ u = { s with manager := u.manager } ∧
        tabGet 0 u.manager.pinBad n = tabGet 0 s.manager.pinBad n + 1))

/-- A keeper that starts is up from that time, knows whether its pair is reversed and its PMBus devices swapped, and leaves DRAM, cells and launches; DAD_COMPLETE makes its address
usable or notes a duplicate, DAD_REPROBE tries again. A lost beacon and a rejoin move the field port to its fallback mode and back. A watchdog
or a command restarts the keeper: sessions, assemblies and the event log are lost, the data path goes on. Alias keys once made stay cached.
Completion: under its conditions on the state and the operands alone, exec answers a next state for each of `keeperStart`, `dadComplete`, `dadReprobe`,
`keeperWatchdog`, `keeperRestart`, `plcaBeaconLoss`, `plcaRejoin`, `aliasKeysReady`. -/
def Obligations.KeeperStartsAndRestarts : Prop :=
  (∀ (s : State) (plca rev swap : Bool), s.keeperUp = false → s.boot.recovery = false → (tabFind s.boot.running 1).isSome = true → s.rail 1 = .good →
    ∃ u, exec (.keeperStart plca rev swap) s = .next u ∧ u.keeperUp = true ∧ u.keeper.started = s.time ∧ u.keeper.reversedPair = rev ∧
      u.keeper.duplicate = false ∧ u.keeper.restoreAsked = false ∧ u.power.pmbSwapped = swap ∧ u.dram = s.dram ∧ u.cells = s.cells ∧ u.launches = s.launches) ∧
  (∀ (s : State), s.fieldUsable = false → s.keeper.duplicate = false → s.keeperUp = true →
    (∃ u, exec (.dadComplete true) s = .next u ∧ Reports { s with keeper := { s.keeper with duplicate := true } } u) ∧
    (∃ u, exec (.dadComplete false) s = .next u ∧ u.fieldUsable = true ∧ Reports { s with fieldUsable := true, keeper := { s.keeper with startEvent := none } } u)) ∧
  (∀ (s : State), exec .dadReprobe s = .next { s with keeper := { s.keeper with duplicate := false } }) ∧
  (∀ (s : State), s.keeper.field = 1 → exec .plcaBeaconLoss s = .next { s with keeper := { s.keeper with field := 2 } }) ∧
  (∀ (s : State), s.keeper.field = 2 → exec .plcaRejoin s = .next { s with keeper := { s.keeper with field := 1 } }) ∧
  (∀ (s : State) (a b : ImageVerdict), s.keeperUp = true →
    ∃ u, exec (.keeperWatchdog a b) s = .next u ∧ u.keeperUp = false ∧ u.fieldUsable = false ∧ u.keeper.sessions = [] ∧ u.keeper.assemblies = [] ∧ u.log.entries = [] ∧
      u.log.fatal = s.log.fatal ∧ u.keeper.cause = 2 ∧ u.boot.aliasReady = false ∧ u.dram = s.dram ∧ u.cells = s.cells ∧ u.launches = s.launches ∧ u.power = s.power) ∧
  (∀ (s : State) (r : KdpRequest) (x : Session) (d : DictRow) (sub : Nat) (v : List Byte), KdpWrites s r x d 0x100B sub v →
    ∃ z, exec (.keeperRestart r) s = .next (s.applied z r 0x100B sub) ∧ z.keeperUp = false ∧ z.keeper.sessions = [] ∧ z.log.entries = [] ∧ z.keeper.cause = 1 ∧
      z.dram = s.dram ∧ z.cells = s.cells ∧ z.launches = s.launches ∧ z.power = s.power) ∧
  (∀ (s : State), s.keeperUp = true → s.boot.aliasReady = false →
    exec .aliasKeysReady s = .next { s with boot := { s.boot with aliasReady := true, measured := s.boot.measured ++ [s.boot.measurement] } })

/-- An accepted DISCOVER, DESCRIBE or READ is answered and changes nothing but its session's SEQNO; a READ of an entry that does not exist answers NO_ENTRY. A WRITE of an RW entry stores its value, one of an RWP entry
commits it to flash, refused with FLASH_LIMIT after 64 in an hour. EMCY_ACK stops the repeats to its sender.
Completion: under its conditions on the state and the operands alone, exec answers a next state for each of `discover`, `kdpRead`, `kdpWrite`, `describe`,
`emcyAck`, `emcyRepeat`. -/
def Obligations.RequestsAreAnswered : Prop :=
  (∀ (s : State) (r : KdpRequest) (x : Option Session), KdpAccepts s r 0x01 x → kBody r.bytes = [] →
    exec (.discover r) s = .next (s.replied (s.took r x) r kOk s.discoverBody)) ∧
  (∀ (s : State) (r : KdpRequest) (x : Option Session) (index sub off n : Nat), KdpAccepts s r 0x02 x → index < 65536 → sub < 256 → off < 2 ^ 32 → n ≤ 1388 →
    kBody r.bytes = bytesLE 2 index ++ bytesLE 1 sub ++ bytesLE 1 0 ++ bytesLE 4 off ++ bytesLE 2 n ++ bytesLE 2 0 →
    (dictRow index sub = none → exec (.kdpRead r) s = .next (s.replied (s.took r x) r kNoEntry [])) ∧
    (∀ d, dictRow index sub = some d → (d.type.bits ≠ 0 → off = 0) →
      let v := (s.took r x).readEntry d sub off n
      exec (.kdpRead r) s = .next (s.replied (s.took r x) r kOk
        (bytesLE 1 d.type.code ++ d.access.code ++ bytesLE 2 0 ++ bytesLE 4 v.1 ++ bytesLE 4 (tabGet 0 s.keeper.changes (dkey index sub)) ++ v.2)))) ∧
  (∀ (s : State) (r : KdpRequest) (x : Option Session), KdpAccepts s r 0x04 x →
    exec (.describe r) s = .next (s.replied (s.took r x) r (describeReply (kBody r.bytes)).1 (describeReply (kBody r.bytes)).2)) ∧
  (∀ (s : State) (r : KdpRequest) (x : Session) (d : DictRow) (index sub : Nat) (v : List Byte), KdpWrites s r x d index sub v → index ∉ ownWrites →
    index ≠ 0x8020 → index ≠ 0x9004 →
    (d.access = .rw → exec (.kdpWrite r) s = .next (s.replied (((s.took r (some x)).storeEntry d sub v).noteChange (dkey index sub)) r kOk [])) ∧
    (d.access = .rwp → (s.hourCommits (dkey index sub)).length < 64 →
      let z := (s.took r (some x)).storeEntry d sub v
      exec (.kdpWrite r) s = .next (s.flashed (if index = 0x5002 then z.pairAsked (sub - 1) else z) r index sub)) ∧
    (d.access = .rwp → 64 ≤ (s.hourCommits (dkey index sub)).length →
      exec (.kdpWrite r) s = .next (s.replied (s.took r (some x)) r kFlashLimit []))) ∧
  (∀ (s : State) (r : KdpRequest) (x : Option Session) (seq : Nat), KdpAccepts s r 0x09 x → kBody r.bytes = bytesLE 4 seq → seq < 2 ^ 32 →
    ∃ z, exec (.emcyAck r) s = .next (s.replied z r kOk []) ∧ z = { s.took r x with log := z.log } ∧
      ∀ u, u ∈ z.log.unacked ↔ u ∈ s.log.unacked ∧ ¬(u.entry.seq = seq ∧ leAt (tabGet [] s.blobs (dkey 0x1017 (u.subscriber + 1))) 0 16 = r.addr)) ∧
  (∀ (s : State) (i seq : Nat) (u : Unacked), s.log.unacked.find? (fun u => u.subscriber == i && u.entry.seq == seq) = some u → s.fieldUsable = true →
    ∃ z, exec (.emcyRepeat i seq) s = .next z ∧ z = { s with
        fieldOut := s.fieldOut ++ [s.emcyTo i u.entry]
        log := z.log } ∧
      z.log.unacked = s.log.unacked.filter (fun v => v != u) ++ (if u.repeats + 1 < 3 then [{ u with repeats := u.repeats + 1 }] else []))

/-- SESSION_OPEN of a slot that holds a key makes a session with a nonce; of an empty slot it fails. The last segment of a SESSION_AUTH whose signatures verify opens the session with its key, else the session is discarded and
counted. SESSION_CLOSE, the timeouts and the expiry end one; a lockout ends; a gap drops an assembly. A doorbell with a higher number serves the request in the mailbox, another is counted.
Completion: under its conditions on the state and the operands alone, exec answers a next state for each of `sessionOpen`, `sessionAuth`, `lockoutEnd`,
`sessionClose`, `sessionAuthTimeout`, `sessionExpiry`, `segmentGapTimeout`, `mbDoorbell`. -/
def Obligations.SessionsOpenAndEnd : Prop :=
  (∀ (s : State) (r : KdpRequest) (slot : Nat), KdpAccepts s r 0x05 none → kBody r.bytes = bytesLE 1 slot → slot ≤ 7 → 0 ∉ s.keeper.locked →
    (s.slotEmpty slot = true → exec (.sessionOpen r) s = .next (s.replied (s.authFailed (.field r.addr r.port)) r kAuthFailed [])) ∧
    (s.slotEmpty slot = false → s.keeper.sessions.length < 4 →
      let n := s.keeper.nextSession
      ∃ nonce : List Byte, nonce.length = 48 ∧ exec (.sessionOpen r) s = .next (s.replied { s with
        free := s.free + 48
        keeper := { s.keeper with
          sessions := tabSet s.keeper.sessions n (Session.mk slot (.field r.addr r.port) nonce false [] 0)
          nextSession := n + 1 } } r kOk (bytesLE 4 n ++ nonce)))) ∧
  (∀ (s : State) (r : KdpRequest) (x : Session) (a : Assembly), KdpAccepts s r 0x06 (some x) → 0 ∉ s.keeper.locked →
    s.keeper.assemblies.find? (fun a => a.path == .field r.addr r.port) = some a → a.op = 0x06 → a.session = kSess r.bytes → a.head = [] →
    a.segs = kSegs r.bytes → a.next = kSeg r.bytes → kSeg r.bytes + 1 = kSegs r.bytes → bitAt (kFlags r.bytes) 2 = false →
    (a.data ++ kBody r.bytes).length = 16992 →
    let z := s.dropAssembly (.field r.addr r.port)
    let whole := a.data ++ kBody r.bytes
    let failed := s.replied ((z.endSession (kSess r.bytes)).authFailed (.field r.addr r.port)) r kAuthFailed []
    exec (.sessionAuth r) s = .next (match Config.sessionUnwrap (whole.take 384) with
      | none => failed
      | some key => if key.length = 48 ∧ z.authVerifies (.field r.addr r.port) (kSess r.bytes) x whole = true then
          s.replied { z with keeper := { z.keeper with sessions := tabSet z.keeper.sessions (kSess r.bytes) { x with opened := true, key := key } } } r kOk []
        else failed)) ∧
  (∀ (s : State) (r : KdpRequest) (x : Session), KdpAccepts s r 0x07 (some x) → kBody r.bytes = [] →
    exec (.sessionClose r) s = .next (s.replied ((s.took r (some x)).endSession (kSess r.bytes)) r kOk [])) ∧
  (∀ (s : State) (n : Nat) (x : Session), tabFind s.keeper.sessions n = some x →
    let z := { s with keeper := { s.keeper with
      sessions := tabErase s.keeper.sessions n
      assemblies := s.keeper.assemblies.filter (fun a => a.session != n) } }
    (x.opened = false → exec (.sessionAuthTimeout n) s = .next z ∧ exec (.sessionExpiry n) s = .next s) ∧
    (x.opened = true → exec (.sessionExpiry n) s = .next z ∧ exec (.sessionAuthTimeout n) s = .next s)) ∧
  (∀ (s : State) (p : Nat), exec (.lockoutEnd p) s = .next { s with keeper := { s.keeper with locked := flagDel s.keeper.locked p } }) ∧
  (∀ (s : State) (p : KdpPath), exec (.segmentGapTimeout p) s =
    .next { s with keeper := { s.keeper with assemblies := s.keeper.assemblies.filter (fun a => a.path != p) } }) ∧
  (∀ (s : State) (v : DWord) (aux : KdpAux), s.running = true ∨ s.power.path = .stopped → s.keeperUp = true →
    (s.keeper.mailbox.last.ult v = false →
      ∃ u, exec (.mbDoorbell v aux) s = .next u ∧ CountOnly s u ∧ u.entry 0x101C 0 = satAdd (dictBits (dkey 0x101C 0)) (s.entry 0x101C 0) 1) ∧
    (s.keeper.mailbox.last.ult v = true → ∀ bytes z,
      ({ s with keeper := { s.keeper with mailbox := { s.keeper.mailbox with last := v } } }).kdpServe .mailbox (s.keeper.mailbox.request.read 0 1536) aux = (some bytes, z) →
      exec (.mbDoorbell v aux) s = .next (keepQueue s { z with keeper := { z.keeper with
        mailbox := { z.keeper.mailbox with reply := z.keeper.mailbox.reply.write 0 (bytes.take 1536), done := v } } })) ∧
    (s.keeper.mailbox.last.ult v = true → ∀ z,
      ({ s with keeper := { s.keeper with mailbox := { s.keeper.mailbox with last := v } } }).kdpServe .mailbox (s.keeper.mailbox.request.read 0 1536) aux = (none, z) →
      exec (.mbDoorbell v aux) s = .next (keepQueue s z)))

/-- UPDATE_BEGIN erases the staging area, UPDATE_DATA writes it, UPDATE_VERIFY accepts an image that passes every check and names the check one fails; UPDATE_ACTIVATE writes a trial record, UPDATE_COMMIT makes the running trial active and raises
the fuses, UPDATE_ABORT drops what is staged. A key slot write ends its sessions, an owner release empties every slot. A nonce starts a report, which the two signatures complete.
Completion: under its conditions on the state and the operands alone, exec answers a next state for each of `updateBegin`, `updateData`, `updateVerify`,
`updateActivate`, `updateCommit`, `updateAbort`, `keySlotWrite`, `ownerRelease`, `attestNonce`, `attestReportSigned`. -/
def Obligations.ImagesAreUpdatedAndAttested : Prop :=
  (∀ (s : State) (r : KdpRequest) (x : Session) (d : DictRow) (sub : Nat) (v : List Byte), KdpWrites s r x d 0x7010 sub v →
    let t := leNat v
    let k := 4 * s.boot.stageBank t + t
    (s.boot.pendingUpdate = true → exec (.updateBegin r) s = .next (s.refusedCmd (s.took r (some x)) r 0x7010 sub stBusy [])) ∧
    (s.boot.pendingUpdate = false → exec (.updateBegin r) s = .next (s.applied { s.took r (some x) with
      free := s.free + 1
      boot := { s.boot with areas := tabSet s.boot.areas k (Memory.undefined s.free), update := Update.mk 1 t [] } } r 0x7010 sub))) ∧
  (∀ (s : State) (r : KdpRequest) (x : Session) (d : DictRow) (sub : Nat) (v : List Byte), KdpWrites s r x d 0x7011 sub v → s.boot.update.state = 1 →
    let u := s.boot.update
    let off := leAt v 0 8
    let n := v.length - 8
    off % 256 = 0 → off + n ≤ areaSize u.type → (∀ p ∈ u.spans, p.1 + p.2 ≤ off ∨ off + n ≤ p.1) →
    exec (.updateData r) s = .next (s.replied (({ s.took r (some x) with boot := { s.boot with
      areas := tabSet s.boot.areas (4 * s.boot.stageBank u.type + u.type) ((s.boot.area (s.boot.stageBank u.type) u.type).write off (v.drop 8))
      update := { u with spans := u.spans ++ [(off, n)] } } }).noteChange (dkey 0x7011 sub)) r kOk [])) ∧
  (∀ (s : State) (r : KdpRequest) (x : Session) (d : DictRow) (sub : Nat) (v : List Byte), KdpWrites s r x d 0x7012 sub v → s.boot.update.state = 1 →
    let u := s.boot.update
    let c := s.imageCode u.type (s.boot.area (s.boot.stageBank u.type) u.type) r.aux.image
    if c = 0 then exec (.updateVerify r) s = .next (s.applied { s.took r (some x) with boot := { s.boot with update := { u with state := 2 } } } r 0x7012 sub)
    else ∃ z, exec (.updateVerify r) s = .next (s.refusedCmd z r 0x7012 sub stIllegalOp (bytesLE 1 c)) ∧ Reports (s.took r (some x)) z) ∧
  (∀ (s : State) (r : KdpRequest) (x : Session) (d : DictRow) (sub : Nat) (v : List Byte), KdpWrites s r x d 0x7013 sub v → s.boot.update.state = 2 →
    s.boot.update.type ≠ 1 →
    let u := s.boot.update
    let b := s.boot.writeRecord s.boot.activeBytes u.type (s.boot.stageBank u.type) 3
    exec (.updateActivate r) s =
      .next (s.applied { s.took r (some x) with boot := { b with update := { u with state := 3, spans := [] } } } r 0x7013 sub)) ∧
  (∀ (s : State) (r : KdpRequest) (x : Session) (d : DictRow) (sub : Nat) (v : List Byte) (y : RunningImage), KdpWrites s r x d 0x7014 sub v →
    let t := recTrialType s.boot.inForce
    let svn := min 63 (leAt y.header 8 4)
    tabFind s.boot.running t = some y → y.trial = true →
    ∃ z, exec (.updateCommit r) s = .next (s.applied z r 0x7014 sub) ∧ tabFind z.boot.running t = some { y with trial := false } ∧
      z.boot.records = (s.boot.writeRecord (s.boot.activeBytes.set (t - 1) (BitVec.ofNat 8 (recTrialBank s.boot.inForce))) 0 0 0).records ∧
      tabGet 0 z.boot.svn t = max (tabGet 0 s.boot.svn t) svn ∧ z.boot.revoked = s.boot.revoked ||| BitVec.ofNat 4 (leAt y.header 0x1D 1 % 16) ∧
      z.boot.update.state = 0 ∧ Reports { s.took r (some x) with boot := z.boot } z) ∧
  (∀ (s : State) (r : KdpRequest) (x : Session) (d : DictRow) (sub : Nat) (v : List Byte), KdpWrites s r x d 0x7015 sub v →
    (s.boot.trialRuns = true → exec (.updateAbort r) s = .next (s.refusedCmd (s.took r (some x)) r 0x7015 sub stBusy [])) ∧
    (s.boot.trialRuns = false → recTrialType s.boot.inForce = 0 → exec (.updateAbort r) s =
      .next (s.applied { s.took r (some x) with boot := { s.boot with update := { s.boot.update with state := 0, spans := [] } } } r 0x7015 sub))) ∧
  (∀ (s : State) (r : KdpRequest) (x : Session) (d : DictRow) (sub : Nat) (v : List Byte), KdpWrites s r x d 0x7020 sub v → 1 ≤ sub →
    (s.hourCommits (dkey 0x7020 sub)).length < 64 → tabSorted s.keeper.sessions = true →
    ∃ z, exec (.keySlotWrite r) s = .next (s.flashed z r 0x7020 sub) ∧ z.keySlot (sub - 1) = v ∧ (∀ e ∈ z.keeper.sessions, e.2.slot ≠ sub - 1) ∧
      (∀ k, k ≠ sub - 1 → z.keySlot k = s.keySlot k) ∧ z.boot = s.boot ∧ z.dram = s.dram) ∧
  (∀ (s : State) (r : KdpRequest) (x : Session) (d : DictRow) (sub : Nat) (v : List Byte), KdpWrites s r x d 0x7021 sub v →
    ∃ z, exec (.ownerRelease r) s = .next (s.applied z r 0x7021 sub) ∧ (∀ k, k < 8 → z.slotEmpty k = true) ∧ z.boot = s.boot ∧ z.dram = s.dram) ∧
  (∀ (s : State) (r : KdpRequest) (x : Session) (d : DictRow) (sub : Nat) (v : List Byte), KdpWrites s r x d 0x7030 sub v →
    (s.boot.aliasReady = true → (s.attestOf sub).signing = none → exec (.attestNonce r) s = .next (s.applied { s.took r (some x) with
      boot := { s.boot with attest := tabSet s.boot.attest sub { s.attestOf sub with signing := some v } } } r 0x7030 sub)) ∧
    (s.boot.aliasReady = false ∨ (s.attestOf sub).signing.isSome = true →
      exec (.attestNonce r) s = .next (s.refusedCmd (s.took r (some x)) r 0x7030 sub stBusy []))) ∧
  (∀ (s : State) (sub : Nat) (rsa slh nonce : List Byte), (s.attestOf sub).signing = some nonce → rsa.length = 384 → slh.length = 16224 → s.keeperUp = true →
    exec (.attestReportSigned sub rsa slh) s = .next (State.cmdEnd { s with boot := { s.boot with
      attest := tabSet s.boot.attest sub (Attest.mk none (s.reportBody nonce ++ rsa ++ slh)) } } 0x7030 sub stOk))

/-- TRIGGER_NOW and the pin freeze every island where their source is enabled; a trigger while FROZEN is only counted. TRACE_ARM and TRACE_OFF set the trace state, refused while the post share is written; a full block of a comb's staging goes to the
array. CTR_FULL_EN is kept in flash, refused while FROZEN; CTR_CLEAR zeroes the full set, CTR_RELEASE ends the freeze. A register write sets an admin base, clears a VALID bit, or is ignored and counted at a reserved address.
Completion: under its conditions on the state and the operands alone, exec answers a next state for each of `triggerNow`, `dbgTrigNFall`, `traceDrainBlock`,
`traceArm`, `traceOff`, `ctrFullEn`, `ctrClear`, `ctrRelease`, `registerWrite`. -/
def Obligations.TriggersTraceAndCounters : Prop :=
  (∀ (s : State) (r : KdpRequest) (x : Session) (d : DictRow) (sub : Nat) (v : List Byte), KdpWrites s r x d 0x8010 sub v → bitAt (s.entry 0x8011 0) 0 = true →
    (s.tracer.frozen = true → ∃ z, exec (.triggerNow r) s = .next (s.applied z r 0x8010 sub) ∧ CountOnly (s.took r (some x)) z ∧
      z.entry 0x8015 0 = satAdd (dictBits (dkey 0x8015 0)) (s.entry 0x8015 0) 1) ∧
    (s.tracer.frozen = false → s.tracer.mode ≠ .stopped → ∃ z, exec (.triggerNow r) s = .next (s.applied z r 0x8010 sub) ∧ TraceOnly (s.took r (some x)) z ∧
      z.tracer.frozen = true ∧ z.tracer.source = 0 ∧ z.tracer.id = leNat v % 2 ^ 32)) ∧
  (∀ (s : State), exec (.dbgTrigNFall false) s = .next s ∧
    (bitAt (s.entry 0x8011 0) 3 = true → s.tracer.frozen = false → s.tracer.mode ≠ .stopped →
      ∃ u, exec (.dbgTrigNFall true) s = .next u ∧ TraceOnly s u ∧ u.tracer.frozen = true ∧ u.tracer.source = 3)) ∧
  (∀ (s : State) (k : Nat), s.running = true → k < 16 → s.tracer.mode = .armed →
    let q := tabGet [] s.tracer.staged k
    64 ≤ q.length → (∀ b ∈ q.take 64, leAt b 8 1 ≠ 0x0A) →
    ∃ u, exec (.traceDrainBlock k) s = .next u ∧ u.tracer.staged = tabSet s.tracer.staged k (q.drop 64) ∧ u.tracer.written = s.tracer.written + 64 ∧
      u.tracer.next = (s.tracer.next + 64) % 524160 ∧ u.tracer.mode = .armed ∧ u.cells = s.cells) ∧
  (∀ (s : State) (r : KdpRequest) (x : Session) (d : DictRow) (sub : Nat) (v : List Byte), KdpWrites s r x d 0x8020 sub v →
    (leNat v = 1 → s.tracer.mode ≠ .post → ∃ z, exec (.traceArm r) s = .next (s.applied z r 0x8020 sub) ∧ z.tracer.mode = .armed ∧ z.tracer.written = 0 ∧
      z.tracer.staged = [] ∧ z.tracer.prePct = s.entry 0x8022 0 ∧ z.tracer.left = 524160 * (100 - s.entry 0x8022 0) / 100 ∧ z.cells = s.cells) ∧
    (leNat v = 1 → s.tracer.mode = .post → exec (.traceArm r) s = .next (s.refusedCmd (s.took r (some x)) r 0x8020 sub stBusy [])) ∧
    (leNat v = 2 → ∃ z, exec (.traceOff r) s = .next (s.applied z r 0x8020 sub) ∧ z.tracer.mode = .off ∧ z.tracer.staged = [] ∧ z.cells = s.cells)) ∧
  (∀ (s : State) (r : KdpRequest) (x : Session) (d : DictRow) (sub : Nat) (v : List Byte), KdpWrites s r x d 0x8002 sub v →
    (s.tracer.frozen = true → exec (.ctrFullEn r) s = .next (s.refusedCmd (s.took r (some x)) r 0x8002 sub stBusy [])) ∧
    (s.tracer.frozen = false → (s.hourCommits (dkey 0x8002 sub)).length < 64 →
      exec (.ctrFullEn r) s = .next (s.flashed ((s.took r (some x)).setEntry 0x8002 sub (leNat v)).recount r 0x8002 sub))) ∧
  (∀ (s : State) (r : KdpRequest) (x : Session) (d : DictRow) (sub : Nat) (v : List Byte), KdpWrites s r x d 0x8003 sub v →
    exec (.ctrClear r) s = .next (s.applied { s.took r (some x) with counters := s.counters.filter (fun c => decide (c.1 < 0x10000)), tracer := { s.tracer with full := s.tracer.full.clear s.free } } r 0x8003 sub)) ∧
  (∀ (s : State) (r : KdpRequest) (x : Session) (d : DictRow) (sub : Nat) (v : List Byte), KdpWrites s r x d 0x8004 sub v →
    exec (.ctrRelease r) s = .next (s.applied (State.recount { s.took r (some x) with tracer := { s.tracer with frozen := false, always := s.tracer.always.start s.free } }) r 0x8004 sub)) ∧
  (∀ (s : State) (v : DWord),
    exec (.registerWrite (ctlBase + 0x400018) v) s = .next { s with admin := { s.admin with cqBase := v } } ∧
    exec (.registerWrite (ctlBase + 0x400048) v) s = .next { s with rsvWrites := s.rsvWrites + 1 } ∧
    (∀ c, c < 128 → v.getLsbD 63 = true → exec (.registerWrite (ctlBase + 0x1000000 + c / 8 * 0x100000 + 0x80000 + c % 8 * 0x1000 + 8) v) s =
      .next (s.setCell c { s.cell c with fault := (s.cell c).fault &&& ~~~(1#64 <<< 63) })))
end

