-- ==== Sys2Proof/Laws/State.lean ====
section
/-!
SUPPORT. What each plain update of the state leaves as it was: one lemma per field and update.
-/
namespace Sys2Proof.Machine

@[simp] theorem State.setCell_pending (s : State) (c : Nat) (x : Cell) : (s.setCell c x).pending = s.pending := rfl
@[simp] theorem State.setCell_free (s : State) (c : Nat) (x : Cell) : (s.setCell c x).free = s.free := rfl
@[simp] theorem State.setCell_code (s : State) (c : Nat) (x : Cell) : (s.setCell c x).code = s.code := rfl
@[simp] theorem State.setCell_time (s : State) (c : Nat) (x : Cell) : (s.setCell c x).time = s.time := rfl
@[simp] theorem State.setCell_dram (s : State) (c : Nat) (x : Cell) : (s.setCell c x).dram = s.dram := rfl
@[simp] theorem State.setCell_partitions (s : State) (c : Nat) (x : Cell) : (s.setCell c x).partitions = s.partitions := rfl
@[simp] theorem State.setCell_contexts (s : State) (c : Nat) (x : Cell) : (s.setCell c x).contexts = s.contexts := rfl
@[simp] theorem State.setCell_quarters (s : State) (c : Nat) (x : Cell) : (s.setCell c x).quarters = s.quarters := rfl
@[simp] theorem State.setCell_migration (s : State) (c : Nat) (x : Cell) : (s.setCell c x).migration = s.migration := rfl
@[simp] theorem State.setCell_images (s : State) (c : Nat) (x : Cell) : (s.setCell c x).images = s.images := rfl
@[simp] theorem State.setCell_nextImage (s : State) (c : Nat) (x : Cell) : (s.setCell c x).nextImage = s.nextImage := rfl
@[simp] theorem State.setCell_launches (s : State) (c : Nat) (x : Cell) : (s.setCell c x).launches = s.launches := rfl
@[simp] theorem State.setCell_nextLaunch (s : State) (c : Nat) (x : Cell) : (s.setCell c x).nextLaunch = s.nextLaunch := rfl
@[simp] theorem State.setCell_nextOrder (s : State) (c : Nat) (x : Cell) : (s.setCell c x).nextOrder = s.nextOrder := rfl
@[simp] theorem State.setCell_queues (s : State) (c : Nat) (x : Cell) : (s.setCell c x).queues = s.queues := rfl
@[simp] theorem State.setCell_admin (s : State) (c : Nat) (x : Cell) : (s.setCell c x).admin = s.admin := rfl
@[simp] theorem State.setCell_hostOut (s : State) (c : Nat) (x : Cell) : (s.setCell c x).hostOut = s.hostOut := rfl
@[simp] theorem State.setCell_host (s : State) (c : Nat) (x : Cell) : (s.setCell c x).host = s.host := rfl
@[simp] theorem State.setCell_regions (s : State) (c : Nat) (x : Cell) : (s.setCell c x).regions = s.regions := rfl
@[simp] theorem State.setCell_streamErr (s : State) (c : Nat) (x : Cell) : (s.setCell c x).streamErr = s.streamErr := rfl
@[simp] theorem State.setCell_tlbs (s : State) (c : Nat) (x : Cell) : (s.setCell c x).tlbs = s.tlbs := rfl
@[simp] theorem State.setCell_walks (s : State) (c : Nat) (x : Cell) : (s.setCell c x).walks = s.walks := rfl
@[simp] theorem State.setCell_walkCaches (s : State) (c : Nat) (x : Cell) : (s.setCell c x).walkCaches = s.walkCaches := rfl
@[simp] theorem State.setCell_collectors (s : State) (c : Nat) (x : Cell) : (s.setCell c x).collectors = s.collectors := rfl
@[simp] theorem State.setCell_drains (s : State) (c : Nat) (x : Cell) : (s.setCell c x).drains = s.drains := rfl
@[simp] theorem State.setCell_nextDrain (s : State) (c : Nat) (x : Cell) : (s.setCell c x).nextDrain = s.nextDrain := rfl
@[simp] theorem State.setCell_groups (s : State) (c : Nat) (x : Cell) : (s.setCell c x).groups = s.groups := rfl
@[simp] theorem State.setCell_nextHandle (s : State) (c : Nat) (x : Cell) : (s.setCell c x).nextHandle = s.nextHandle := rfl
@[simp] theorem State.setCell_tables (s : State) (c : Nat) (x : Cell) : (s.setCell c x).tables = s.tables := rfl
@[simp] theorem State.setCell_foragers (s : State) (c : Nat) (x : Cell) : (s.setCell c x).foragers = s.foragers := rfl
@[simp] theorem State.setCell_works (s : State) (c : Nat) (x : Cell) : (s.setCell c x).works = s.works := rfl
@[simp] theorem State.setCell_nextWork (s : State) (c : Nat) (x : Cell) : (s.setCell c x).nextWork = s.nextWork := rfl
@[simp] theorem State.setCell_staged (s : State) (c : Nat) (x : Cell) : (s.setCell c x).staged = s.staged := rfl
@[simp] theorem State.setCell_patches (s : State) (c : Nat) (x : Cell) : (s.setCell c x).patches = s.patches := rfl
@[simp] theorem State.setCell_committed (s : State) (c : Nat) (x : Cell) : (s.setCell c x).committed = s.committed := rfl
@[simp] theorem State.setCell_returns (s : State) (c : Nat) (x : Cell) : (s.setCell c x).returns = s.returns := rfl
@[simp] theorem State.setCell_nextReturn (s : State) (c : Nat) (x : Cell) : (s.setCell c x).nextReturn = s.nextReturn := rfl
@[simp] theorem State.setCell_fanStages (s : State) (c : Nat) (x : Cell) : (s.setCell c x).fanStages = s.fanStages := rfl
@[simp] theorem State.setCell_earlyReqs (s : State) (c : Nat) (x : Cell) : (s.setCell c x).earlyReqs = s.earlyReqs := rfl
@[simp] theorem State.setCell_spanWait (s : State) (c : Nat) (x : Cell) : (s.setCell c x).spanWait = s.spanWait := rfl
@[simp] theorem State.setCell_spanPort (s : State) (c : Nat) (x : Cell) : (s.setCell c x).spanPort = s.spanPort := rfl
@[simp] theorem State.setCell_fanned (s : State) (c : Nat) (x : Cell) : (s.setCell c x).fanned = s.fanned := rfl
@[simp] theorem State.setCell_windows (s : State) (c : Nat) (x : Cell) : (s.setCell c x).windows = s.windows := rfl
@[simp] theorem State.setCell_keyFails (s : State) (c : Nat) (x : Cell) : (s.setCell c x).keyFails = s.keyFails := rfl
@[simp] theorem State.setCell_imports (s : State) (c : Nat) (x : Cell) : (s.setCell c x).imports = s.imports := rfl
@[simp] theorem State.setCell_probes (s : State) (c : Nat) (x : Cell) : (s.setCell c x).probes = s.probes := rfl
@[simp] theorem State.setCell_nextTag (s : State) (c : Nat) (x : Cell) : (s.setCell c x).nextTag = s.nextTag := rfl
@[simp] theorem State.setCell_winReqs (s : State) (c : Nat) (x : Cell) : (s.setCell c x).winReqs = s.winReqs := rfl
@[simp] theorem State.setCell_fabricOut (s : State) (c : Nat) (x : Cell) : (s.setCell c x).fabricOut = s.fabricOut := rfl
@[simp] theorem State.setCell_wagglesOut (s : State) (c : Nat) (x : Cell) : (s.setCell c x).wagglesOut = s.wagglesOut := rfl
@[simp] theorem State.setCell_waggleSeq (s : State) (c : Nat) (x : Cell) : (s.setCell c x).waggleSeq = s.waggleSeq := rfl
@[simp] theorem State.setCell_waggleAt (s : State) (c : Nat) (x : Cell) : (s.setCell c x).waggleAt = s.waggleAt := rfl
@[simp] theorem State.setCell_ports (s : State) (c : Nat) (x : Cell) : (s.setCell c x).ports = s.ports := rfl
@[simp] theorem State.setCell_wire (s : State) (c : Nat) (x : Cell) : (s.setCell c x).wire = s.wire := rfl
@[simp] theorem State.setCell_delivered (s : State) (c : Nat) (x : Cell) : (s.setCell c x).delivered = s.delivered := rfl
@[simp] theorem State.setCell_filter (s : State) (c : Nat) (x : Cell) : (s.setCell c x).filter = s.filter := rfl
@[simp] theorem State.setCell_qps (s : State) (c : Nat) (x : Cell) : (s.setCell c x).qps = s.qps := rfl
@[simp] theorem State.setCell_ethOut (s : State) (c : Nat) (x : Cell) : (s.setCell c x).ethOut = s.ethOut := rfl
@[simp] theorem State.setCell_keyGens (s : State) (c : Nat) (x : Cell) : (s.setCell c x).keyGens = s.keyGens := rfl
@[simp] theorem State.setCell_tasters (s : State) (c : Nat) (x : Cell) : (s.setCell c x).tasters = s.tasters := rfl
@[simp] theorem State.setCell_nextTaster (s : State) (c : Nat) (x : Cell) : (s.setCell c x).nextTaster = s.nextTaster := rfl
@[simp] theorem State.setCell_health (s : State) (c : Nat) (x : Cell) : (s.setCell c x).health = s.health := rfl
@[simp] theorem State.setCell_replicas (s : State) (c : Nat) (x : Cell) : (s.setCell c x).replicas = s.replicas := rfl
@[simp] theorem State.setCell_power (s : State) (c : Nat) (x : Cell) : (s.setCell c x).power = s.power := rfl
@[simp] theorem State.setCell_manager (s : State) (c : Nat) (x : Cell) : (s.setCell c x).manager = s.manager := rfl
@[simp] theorem State.setCell_therms (s : State) (c : Nat) (x : Cell) : (s.setCell c x).therms = s.therms := rfl
@[simp] theorem State.setCell_channels (s : State) (c : Nat) (x : Cell) : (s.setCell c x).channels = s.channels := rfl
@[simp] theorem State.setCell_rowActs (s : State) (c : Nat) (x : Cell) : (s.setCell c x).rowActs = s.rowActs := rfl
@[simp] theorem State.setCell_damage (s : State) (c : Nat) (x : Cell) : (s.setCell c x).damage = s.damage := rfl
@[simp] theorem State.setCell_fixups (s : State) (c : Nat) (x : Cell) : (s.setCell c x).fixups = s.fixups := rfl
@[simp] theorem State.setCell_struck (s : State) (c : Nat) (x : Cell) : (s.setCell c x).struck = s.struck := rfl
@[simp] theorem State.setCell_memLog (s : State) (c : Nat) (x : Cell) : (s.setCell c x).memLog = s.memLog := rfl
@[simp] theorem State.setCell_tracer (s : State) (c : Nat) (x : Cell) : (s.setCell c x).tracer = s.tracer := rfl
@[simp] theorem State.setCell_keeper (s : State) (c : Nat) (x : Cell) : (s.setCell c x).keeper = s.keeper := rfl
@[simp] theorem State.setCell_boot (s : State) (c : Nat) (x : Cell) : (s.setCell c x).boot = s.boot := rfl
@[simp] theorem State.setCell_log (s : State) (c : Nat) (x : Cell) : (s.setCell c x).log = s.log := rfl
@[simp] theorem State.setCell_fieldOut (s : State) (c : Nat) (x : Cell) : (s.setCell c x).fieldOut = s.fieldOut := rfl
@[simp] theorem State.setCell_keeperUp (s : State) (c : Nat) (x : Cell) : (s.setCell c x).keeperUp = s.keeperUp := rfl
@[simp] theorem State.setCell_fieldUsable (s : State) (c : Nat) (x : Cell) : (s.setCell c x).fieldUsable = s.fieldUsable := rfl
@[simp] theorem State.setCell_refclk (s : State) (c : Nat) (x : Cell) : (s.setCell c x).refclk = s.refclk := rfl
@[simp] theorem State.setCell_blobs (s : State) (c : Nat) (x : Cell) : (s.setCell c x).blobs = s.blobs := rfl
@[simp] theorem State.setCell_quarantined (s : State) (c : Nat) (x : Cell) : (s.setCell c x).quarantined = s.quarantined := rfl
@[simp] theorem State.setCell_dict (s : State) (c : Nat) (x : Cell) : (s.setCell c x).dict = s.dict := rfl
@[simp] theorem State.setCell_counters (s : State) (c : Nat) (x : Cell) : (s.setCell c x).counters = s.counters := rfl
@[simp] theorem State.setCell_rsvWrites (s : State) (c : Nat) (x : Cell) : (s.setCell c x).rsvWrites = s.rsvWrites := rfl

@[simp] theorem State.modCell_pending (s : State) (c : Nat) (f : Cell → Cell) : (s.modCell c f).pending = s.pending := rfl
@[simp] theorem State.modCell_free (s : State) (c : Nat) (f : Cell → Cell) : (s.modCell c f).free = s.free := rfl
@[simp] theorem State.modCell_code (s : State) (c : Nat) (f : Cell → Cell) : (s.modCell c f).code = s.code := rfl
@[simp] theorem State.modCell_time (s : State) (c : Nat) (f : Cell → Cell) : (s.modCell c f).time = s.time := rfl
@[simp] theorem State.modCell_dram (s : State) (c : Nat) (f : Cell → Cell) : (s.modCell c f).dram = s.dram := rfl
@[simp] theorem State.modCell_partitions (s : State) (c : Nat) (f : Cell → Cell) : (s.modCell c f).partitions = s.partitions := rfl
@[simp] theorem State.modCell_contexts (s : State) (c : Nat) (f : Cell → Cell) : (s.modCell c f).contexts = s.contexts := rfl
@[simp] theorem State.modCell_quarters (s : State) (c : Nat) (f : Cell → Cell) : (s.modCell c f).quarters = s.quarters := rfl
@[simp] theorem State.modCell_migration (s : State) (c : Nat) (f : Cell → Cell) : (s.modCell c f).migration = s.migration := rfl
@[simp] theorem State.modCell_images (s : State) (c : Nat) (f : Cell → Cell) : (s.modCell c f).images = s.images := rfl
@[simp] theorem State.modCell_nextImage (s : State) (c : Nat) (f : Cell → Cell) : (s.modCell c f).nextImage = s.nextImage := rfl
@[simp] theorem State.modCell_launches (s : State) (c : Nat) (f : Cell → Cell) : (s.modCell c f).launches = s.launches := rfl
@[simp] theorem State.modCell_nextLaunch (s : State) (c : Nat) (f : Cell → Cell) : (s.modCell c f).nextLaunch = s.nextLaunch := rfl
@[simp] theorem State.modCell_nextOrder (s : State) (c : Nat) (f : Cell → Cell) : (s.modCell c f).nextOrder = s.nextOrder := rfl
@[simp] theorem State.modCell_queues (s : State) (c : Nat) (f : Cell → Cell) : (s.modCell c f).queues = s.queues := rfl
@[simp] theorem State.modCell_admin (s : State) (c : Nat) (f : Cell → Cell) : (s.modCell c f).admin = s.admin := rfl
@[simp] theorem State.modCell_hostOut (s : State) (c : Nat) (f : Cell → Cell) : (s.modCell c f).hostOut = s.hostOut := rfl
@[simp] theorem State.modCell_host (s : State) (c : Nat) (f : Cell → Cell) : (s.modCell c f).host = s.host := rfl
@[simp] theorem State.modCell_regions (s : State) (c : Nat) (f : Cell → Cell) : (s.modCell c f).regions = s.regions := rfl
@[simp] theorem State.modCell_streamErr (s : State) (c : Nat) (f : Cell → Cell) : (s.modCell c f).streamErr = s.streamErr := rfl
@[simp] theorem State.modCell_tlbs (s : State) (c : Nat) (f : Cell → Cell) : (s.modCell c f).tlbs = s.tlbs := rfl
@[simp] theorem State.modCell_walks (s : State) (c : Nat) (f : Cell → Cell) : (s.modCell c f).walks = s.walks := rfl
@[simp] theorem State.modCell_walkCaches (s : State) (c : Nat) (f : Cell → Cell) : (s.modCell c f).walkCaches = s.walkCaches := rfl
@[simp] theorem State.modCell_collectors (s : State) (c : Nat) (f : Cell → Cell) : (s.modCell c f).collectors = s.collectors := rfl
@[simp] theorem State.modCell_drains (s : State) (c : Nat) (f : Cell → Cell) : (s.modCell c f).drains = s.drains := rfl
@[simp] theorem State.modCell_nextDrain (s : State) (c : Nat) (f : Cell → Cell) : (s.modCell c f).nextDrain = s.nextDrain := rfl
@[simp] theorem State.modCell_groups (s : State) (c : Nat) (f : Cell → Cell) : (s.modCell c f).groups = s.groups := rfl
@[simp] theorem State.modCell_nextHandle (s : State) (c : Nat) (f : Cell → Cell) : (s.modCell c f).nextHandle = s.nextHandle := rfl
@[simp] theorem State.modCell_tables (s : State) (c : Nat) (f : Cell → Cell) : (s.modCell c f).tables = s.tables := rfl
@[simp] theorem State.modCell_foragers (s : State) (c : Nat) (f : Cell → Cell) : (s.modCell c f).foragers = s.foragers := rfl
@[simp] theorem State.modCell_works (s : State) (c : Nat) (f : Cell → Cell) : (s.modCell c f).works = s.works := rfl
@[simp] theorem State.modCell_nextWork (s : State) (c : Nat) (f : Cell → Cell) : (s.modCell c f).nextWork = s.nextWork := rfl
@[simp] theorem State.modCell_staged (s : State) (c : Nat) (f : Cell → Cell) : (s.modCell c f).staged = s.staged := rfl
@[simp] theorem State.modCell_patches (s : State) (c : Nat) (f : Cell → Cell) : (s.modCell c f).patches = s.patches := rfl
@[simp] theorem State.modCell_committed (s : State) (c : Nat) (f : Cell → Cell) : (s.modCell c f).committed = s.committed := rfl
@[simp] theorem State.modCell_returns (s : State) (c : Nat) (f : Cell → Cell) : (s.modCell c f).returns = s.returns := rfl
@[simp] theorem State.modCell_nextReturn (s : State) (c : Nat) (f : Cell → Cell) : (s.modCell c f).nextReturn = s.nextReturn := rfl
@[simp] theorem State.modCell_fanStages (s : State) (c : Nat) (f : Cell → Cell) : (s.modCell c f).fanStages = s.fanStages := rfl
@[simp] theorem State.modCell_earlyReqs (s : State) (c : Nat) (f : Cell → Cell) : (s.modCell c f).earlyReqs = s.earlyReqs := rfl
@[simp] theorem State.modCell_spanWait (s : State) (c : Nat) (f : Cell → Cell) : (s.modCell c f).spanWait = s.spanWait := rfl
@[simp] theorem State.modCell_spanPort (s : State) (c : Nat) (f : Cell → Cell) : (s.modCell c f).spanPort = s.spanPort := rfl
@[simp] theorem State.modCell_fanned (s : State) (c : Nat) (f : Cell → Cell) : (s.modCell c f).fanned = s.fanned := rfl
@[simp] theorem State.modCell_windows (s : State) (c : Nat) (f : Cell → Cell) : (s.modCell c f).windows = s.windows := rfl
@[simp] theorem State.modCell_keyFails (s : State) (c : Nat) (f : Cell → Cell) : (s.modCell c f).keyFails = s.keyFails := rfl
@[simp] theorem State.modCell_imports (s : State) (c : Nat) (f : Cell → Cell) : (s.modCell c f).imports = s.imports := rfl
@[simp] theorem State.modCell_probes (s : State) (c : Nat) (f : Cell → Cell) : (s.modCell c f).probes = s.probes := rfl
@[simp] theorem State.modCell_nextTag (s : State) (c : Nat) (f : Cell → Cell) : (s.modCell c f).nextTag = s.nextTag := rfl
@[simp] theorem State.modCell_winReqs (s : State) (c : Nat) (f : Cell → Cell) : (s.modCell c f).winReqs = s.winReqs := rfl
@[simp] theorem State.modCell_fabricOut (s : State) (c : Nat) (f : Cell → Cell) : (s.modCell c f).fabricOut = s.fabricOut := rfl
@[simp] theorem State.modCell_wagglesOut (s : State) (c : Nat) (f : Cell → Cell) : (s.modCell c f).wagglesOut = s.wagglesOut := rfl
@[simp] theorem State.modCell_waggleSeq (s : State) (c : Nat) (f : Cell → Cell) : (s.modCell c f).waggleSeq = s.waggleSeq := rfl
@[simp] theorem State.modCell_waggleAt (s : State) (c : Nat) (f : Cell → Cell) : (s.modCell c f).waggleAt = s.waggleAt := rfl
@[simp] theorem State.modCell_ports (s : State) (c : Nat) (f : Cell → Cell) : (s.modCell c f).ports = s.ports := rfl
@[simp] theorem State.modCell_wire (s : State) (c : Nat) (f : Cell → Cell) : (s.modCell c f).wire = s.wire := rfl
@[simp] theorem State.modCell_delivered (s : State) (c : Nat) (f : Cell → Cell) : (s.modCell c f).delivered = s.delivered := rfl
@[simp] theorem State.modCell_filter (s : State) (c : Nat) (f : Cell → Cell) : (s.modCell c f).filter = s.filter := rfl
@[simp] theorem State.modCell_qps (s : State) (c : Nat) (f : Cell → Cell) : (s.modCell c f).qps = s.qps := rfl
@[simp] theorem State.modCell_ethOut (s : State) (c : Nat) (f : Cell → Cell) : (s.modCell c f).ethOut = s.ethOut := rfl
@[simp] theorem State.modCell_keyGens (s : State) (c : Nat) (f : Cell → Cell) : (s.modCell c f).keyGens = s.keyGens := rfl
@[simp] theorem State.modCell_tasters (s : State) (c : Nat) (f : Cell → Cell) : (s.modCell c f).tasters = s.tasters := rfl
@[simp] theorem State.modCell_nextTaster (s : State) (c : Nat) (f : Cell → Cell) : (s.modCell c f).nextTaster = s.nextTaster := rfl
@[simp] theorem State.modCell_health (s : State) (c : Nat) (f : Cell → Cell) : (s.modCell c f).health = s.health := rfl
@[simp] theorem State.modCell_replicas (s : State) (c : Nat) (f : Cell → Cell) : (s.modCell c f).replicas = s.replicas := rfl
@[simp] theorem State.modCell_power (s : State) (c : Nat) (f : Cell → Cell) : (s.modCell c f).power = s.power := rfl
@[simp] theorem State.modCell_manager (s : State) (c : Nat) (f : Cell → Cell) : (s.modCell c f).manager = s.manager := rfl
@[simp] theorem State.modCell_therms (s : State) (c : Nat) (f : Cell → Cell) : (s.modCell c f).therms = s.therms := rfl
@[simp] theorem State.modCell_channels (s : State) (c : Nat) (f : Cell → Cell) : (s.modCell c f).channels = s.channels := rfl
@[simp] theorem State.modCell_rowActs (s : State) (c : Nat) (f : Cell → Cell) : (s.modCell c f).rowActs = s.rowActs := rfl
@[simp] theorem State.modCell_damage (s : State) (c : Nat) (f : Cell → Cell) : (s.modCell c f).damage = s.damage := rfl
@[simp] theorem State.modCell_fixups (s : State) (c : Nat) (f : Cell → Cell) : (s.modCell c f).fixups = s.fixups := rfl
@[simp] theorem State.modCell_struck (s : State) (c : Nat) (f : Cell → Cell) : (s.modCell c f).struck = s.struck := rfl
@[simp] theorem State.modCell_memLog (s : State) (c : Nat) (f : Cell → Cell) : (s.modCell c f).memLog = s.memLog := rfl
@[simp] theorem State.modCell_tracer (s : State) (c : Nat) (f : Cell → Cell) : (s.modCell c f).tracer = s.tracer := rfl
@[simp] theorem State.modCell_keeper (s : State) (c : Nat) (f : Cell → Cell) : (s.modCell c f).keeper = s.keeper := rfl
@[simp] theorem State.modCell_boot (s : State) (c : Nat) (f : Cell → Cell) : (s.modCell c f).boot = s.boot := rfl
@[simp] theorem State.modCell_log (s : State) (c : Nat) (f : Cell → Cell) : (s.modCell c f).log = s.log := rfl
@[simp] theorem State.modCell_fieldOut (s : State) (c : Nat) (f : Cell → Cell) : (s.modCell c f).fieldOut = s.fieldOut := rfl
@[simp] theorem State.modCell_keeperUp (s : State) (c : Nat) (f : Cell → Cell) : (s.modCell c f).keeperUp = s.keeperUp := rfl
@[simp] theorem State.modCell_fieldUsable (s : State) (c : Nat) (f : Cell → Cell) : (s.modCell c f).fieldUsable = s.fieldUsable := rfl
@[simp] theorem State.modCell_refclk (s : State) (c : Nat) (f : Cell → Cell) : (s.modCell c f).refclk = s.refclk := rfl
@[simp] theorem State.modCell_blobs (s : State) (c : Nat) (f : Cell → Cell) : (s.modCell c f).blobs = s.blobs := rfl
@[simp] theorem State.modCell_quarantined (s : State) (c : Nat) (f : Cell → Cell) : (s.modCell c f).quarantined = s.quarantined := rfl
@[simp] theorem State.modCell_dict (s : State) (c : Nat) (f : Cell → Cell) : (s.modCell c f).dict = s.dict := rfl
@[simp] theorem State.modCell_counters (s : State) (c : Nat) (f : Cell → Cell) : (s.modCell c f).counters = s.counters := rfl
@[simp] theorem State.modCell_rsvWrites (s : State) (c : Nat) (f : Cell → Cell) : (s.modCell c f).rsvWrites = s.rsvWrites := rfl

@[simp] theorem State.modThread_pending (s : State) (c t : Nat) (f : Thread → Thread) : (s.modThread c t f).pending = s.pending := rfl
@[simp] theorem State.modThread_free (s : State) (c t : Nat) (f : Thread → Thread) : (s.modThread c t f).free = s.free := rfl
@[simp] theorem State.modThread_code (s : State) (c t : Nat) (f : Thread → Thread) : (s.modThread c t f).code = s.code := rfl
@[simp] theorem State.modThread_time (s : State) (c t : Nat) (f : Thread → Thread) : (s.modThread c t f).time = s.time := rfl
@[simp] theorem State.modThread_dram (s : State) (c t : Nat) (f : Thread → Thread) : (s.modThread c t f).dram = s.dram := rfl
@[simp] theorem State.modThread_partitions (s : State) (c t : Nat) (f : Thread → Thread) : (s.modThread c t f).partitions = s.partitions := rfl
@[simp] theorem State.modThread_contexts (s : State) (c t : Nat) (f : Thread → Thread) : (s.modThread c t f).contexts = s.contexts := rfl
@[simp] theorem State.modThread_quarters (s : State) (c t : Nat) (f : Thread → Thread) : (s.modThread c t f).quarters = s.quarters := rfl
@[simp] theorem State.modThread_migration (s : State) (c t : Nat) (f : Thread → Thread) : (s.modThread c t f).migration = s.migration := rfl
@[simp] theorem State.modThread_images (s : State) (c t : Nat) (f : Thread → Thread) : (s.modThread c t f).images = s.images := rfl
@[simp] theorem State.modThread_nextImage (s : State) (c t : Nat) (f : Thread → Thread) : (s.modThread c t f).nextImage = s.nextImage := rfl
@[simp] theorem State.modThread_launches (s : State) (c t : Nat) (f : Thread → Thread) : (s.modThread c t f).launches = s.launches := rfl
@[simp] theorem State.modThread_nextLaunch (s : State) (c t : Nat) (f : Thread → Thread) : (s.modThread c t f).nextLaunch = s.nextLaunch := rfl
@[simp] theorem State.modThread_nextOrder (s : State) (c t : Nat) (f : Thread → Thread) : (s.modThread c t f).nextOrder = s.nextOrder := rfl
@[simp] theorem State.modThread_queues (s : State) (c t : Nat) (f : Thread → Thread) : (s.modThread c t f).queues = s.queues := rfl
@[simp] theorem State.modThread_admin (s : State) (c t : Nat) (f : Thread → Thread) : (s.modThread c t f).admin = s.admin := rfl
@[simp] theorem State.modThread_hostOut (s : State) (c t : Nat) (f : Thread → Thread) : (s.modThread c t f).hostOut = s.hostOut := rfl
@[simp] theorem State.modThread_host (s : State) (c t : Nat) (f : Thread → Thread) : (s.modThread c t f).host = s.host := rfl
@[simp] theorem State.modThread_regions (s : State) (c t : Nat) (f : Thread → Thread) : (s.modThread c t f).regions = s.regions := rfl
@[simp] theorem State.modThread_streamErr (s : State) (c t : Nat) (f : Thread → Thread) : (s.modThread c t f).streamErr = s.streamErr := rfl
@[simp] theorem State.modThread_tlbs (s : State) (c t : Nat) (f : Thread → Thread) : (s.modThread c t f).tlbs = s.tlbs := rfl
@[simp] theorem State.modThread_walks (s : State) (c t : Nat) (f : Thread → Thread) : (s.modThread c t f).walks = s.walks := rfl
@[simp] theorem State.modThread_walkCaches (s : State) (c t : Nat) (f : Thread → Thread) : (s.modThread c t f).walkCaches = s.walkCaches := rfl
@[simp] theorem State.modThread_collectors (s : State) (c t : Nat) (f : Thread → Thread) : (s.modThread c t f).collectors = s.collectors := rfl
@[simp] theorem State.modThread_drains (s : State) (c t : Nat) (f : Thread → Thread) : (s.modThread c t f).drains = s.drains := rfl
@[simp] theorem State.modThread_nextDrain (s : State) (c t : Nat) (f : Thread → Thread) : (s.modThread c t f).nextDrain = s.nextDrain := rfl
@[simp] theorem State.modThread_groups (s : State) (c t : Nat) (f : Thread → Thread) : (s.modThread c t f).groups = s.groups := rfl
@[simp] theorem State.modThread_nextHandle (s : State) (c t : Nat) (f : Thread → Thread) : (s.modThread c t f).nextHandle = s.nextHandle := rfl
@[simp] theorem State.modThread_tables (s : State) (c t : Nat) (f : Thread → Thread) : (s.modThread c t f).tables = s.tables := rfl
@[simp] theorem State.modThread_foragers (s : State) (c t : Nat) (f : Thread → Thread) : (s.modThread c t f).foragers = s.foragers := rfl
@[simp] theorem State.modThread_works (s : State) (c t : Nat) (f : Thread → Thread) : (s.modThread c t f).works = s.works := rfl
@[simp] theorem State.modThread_nextWork (s : State) (c t : Nat) (f : Thread → Thread) : (s.modThread c t f).nextWork = s.nextWork := rfl
@[simp] theorem State.modThread_staged (s : State) (c t : Nat) (f : Thread → Thread) : (s.modThread c t f).staged = s.staged := rfl
@[simp] theorem State.modThread_patches (s : State) (c t : Nat) (f : Thread → Thread) : (s.modThread c t f).patches = s.patches := rfl
@[simp] theorem State.modThread_committed (s : State) (c t : Nat) (f : Thread → Thread) : (s.modThread c t f).committed = s.committed := rfl
@[simp] theorem State.modThread_returns (s : State) (c t : Nat) (f : Thread → Thread) : (s.modThread c t f).returns = s.returns := rfl
@[simp] theorem State.modThread_nextReturn (s : State) (c t : Nat) (f : Thread → Thread) : (s.modThread c t f).nextReturn = s.nextReturn := rfl
@[simp] theorem State.modThread_fanStages (s : State) (c t : Nat) (f : Thread → Thread) : (s.modThread c t f).fanStages = s.fanStages := rfl
@[simp] theorem State.modThread_earlyReqs (s : State) (c t : Nat) (f : Thread → Thread) : (s.modThread c t f).earlyReqs = s.earlyReqs := rfl
@[simp] theorem State.modThread_spanWait (s : State) (c t : Nat) (f : Thread → Thread) : (s.modThread c t f).spanWait = s.spanWait := rfl
@[simp] theorem State.modThread_spanPort (s : State) (c t : Nat) (f : Thread → Thread) : (s.modThread c t f).spanPort = s.spanPort := rfl
@[simp] theorem State.modThread_fanned (s : State) (c t : Nat) (f : Thread → Thread) : (s.modThread c t f).fanned = s.fanned := rfl
@[simp] theorem State.modThread_windows (s : State) (c t : Nat) (f : Thread → Thread) : (s.modThread c t f).windows = s.windows := rfl
@[simp] theorem State.modThread_keyFails (s : State) (c t : Nat) (f : Thread → Thread) : (s.modThread c t f).keyFails = s.keyFails := rfl
@[simp] theorem State.modThread_imports (s : State) (c t : Nat) (f : Thread → Thread) : (s.modThread c t f).imports = s.imports := rfl
@[simp] theorem State.modThread_probes (s : State) (c t : Nat) (f : Thread → Thread) : (s.modThread c t f).probes = s.probes := rfl
@[simp] theorem State.modThread_nextTag (s : State) (c t : Nat) (f : Thread → Thread) : (s.modThread c t f).nextTag = s.nextTag := rfl
@[simp] theorem State.modThread_winReqs (s : State) (c t : Nat) (f : Thread → Thread) : (s.modThread c t f).winReqs = s.winReqs := rfl
@[simp] theorem State.modThread_fabricOut (s : State) (c t : Nat) (f : Thread → Thread) : (s.modThread c t f).fabricOut = s.fabricOut := rfl
@[simp] theorem State.modThread_wagglesOut (s : State) (c t : Nat) (f : Thread → Thread) : (s.modThread c t f).wagglesOut = s.wagglesOut := rfl
@[simp] theorem State.modThread_waggleSeq (s : State) (c t : Nat) (f : Thread → Thread) : (s.modThread c t f).waggleSeq = s.waggleSeq := rfl
@[simp] theorem State.modThread_waggleAt (s : State) (c t : Nat) (f : Thread → Thread) : (s.modThread c t f).waggleAt = s.waggleAt := rfl
@[simp] theorem State.modThread_ports (s : State) (c t : Nat) (f : Thread → Thread) : (s.modThread c t f).ports = s.ports := rfl
@[simp] theorem State.modThread_wire (s : State) (c t : Nat) (f : Thread → Thread) : (s.modThread c t f).wire = s.wire := rfl
@[simp] theorem State.modThread_delivered (s : State) (c t : Nat) (f : Thread → Thread) : (s.modThread c t f).delivered = s.delivered := rfl
@[simp] theorem State.modThread_filter (s : State) (c t : Nat) (f : Thread → Thread) : (s.modThread c t f).filter = s.filter := rfl
@[simp] theorem State.modThread_qps (s : State) (c t : Nat) (f : Thread → Thread) : (s.modThread c t f).qps = s.qps := rfl
@[simp] theorem State.modThread_ethOut (s : State) (c t : Nat) (f : Thread → Thread) : (s.modThread c t f).ethOut = s.ethOut := rfl
@[simp] theorem State.modThread_keyGens (s : State) (c t : Nat) (f : Thread → Thread) : (s.modThread c t f).keyGens = s.keyGens := rfl
@[simp] theorem State.modThread_tasters (s : State) (c t : Nat) (f : Thread → Thread) : (s.modThread c t f).tasters = s.tasters := rfl
@[simp] theorem State.modThread_nextTaster (s : State) (c t : Nat) (f : Thread → Thread) : (s.modThread c t f).nextTaster = s.nextTaster := rfl
@[simp] theorem State.modThread_health (s : State) (c t : Nat) (f : Thread → Thread) : (s.modThread c t f).health = s.health := rfl
@[simp] theorem State.modThread_replicas (s : State) (c t : Nat) (f : Thread → Thread) : (s.modThread c t f).replicas = s.replicas := rfl
@[simp] theorem State.modThread_power (s : State) (c t : Nat) (f : Thread → Thread) : (s.modThread c t f).power = s.power := rfl
@[simp] theorem State.modThread_manager (s : State) (c t : Nat) (f : Thread → Thread) : (s.modThread c t f).manager = s.manager := rfl
@[simp] theorem State.modThread_therms (s : State) (c t : Nat) (f : Thread → Thread) : (s.modThread c t f).therms = s.therms := rfl
@[simp] theorem State.modThread_channels (s : State) (c t : Nat) (f : Thread → Thread) : (s.modThread c t f).channels = s.channels := rfl
@[simp] theorem State.modThread_rowActs (s : State) (c t : Nat) (f : Thread → Thread) : (s.modThread c t f).rowActs = s.rowActs := rfl
@[simp] theorem State.modThread_damage (s : State) (c t : Nat) (f : Thread → Thread) : (s.modThread c t f).damage = s.damage := rfl
@[simp] theorem State.modThread_fixups (s : State) (c t : Nat) (f : Thread → Thread) : (s.modThread c t f).fixups = s.fixups := rfl
@[simp] theorem State.modThread_struck (s : State) (c t : Nat) (f : Thread → Thread) : (s.modThread c t f).struck = s.struck := rfl
@[simp] theorem State.modThread_memLog (s : State) (c t : Nat) (f : Thread → Thread) : (s.modThread c t f).memLog = s.memLog := rfl
@[simp] theorem State.modThread_tracer (s : State) (c t : Nat) (f : Thread → Thread) : (s.modThread c t f).tracer = s.tracer := rfl
@[simp] theorem State.modThread_keeper (s : State) (c t : Nat) (f : Thread → Thread) : (s.modThread c t f).keeper = s.keeper := rfl
@[simp] theorem State.modThread_boot (s : State) (c t : Nat) (f : Thread → Thread) : (s.modThread c t f).boot = s.boot := rfl
@[simp] theorem State.modThread_log (s : State) (c t : Nat) (f : Thread → Thread) : (s.modThread c t f).log = s.log := rfl
@[simp] theorem State.modThread_fieldOut (s : State) (c t : Nat) (f : Thread → Thread) : (s.modThread c t f).fieldOut = s.fieldOut := rfl
@[simp] theorem State.modThread_keeperUp (s : State) (c t : Nat) (f : Thread → Thread) : (s.modThread c t f).keeperUp = s.keeperUp := rfl
@[simp] theorem State.modThread_fieldUsable (s : State) (c t : Nat) (f : Thread → Thread) : (s.modThread c t f).fieldUsable = s.fieldUsable := rfl
@[simp] theorem State.modThread_refclk (s : State) (c t : Nat) (f : Thread → Thread) : (s.modThread c t f).refclk = s.refclk := rfl
@[simp] theorem State.modThread_blobs (s : State) (c t : Nat) (f : Thread → Thread) : (s.modThread c t f).blobs = s.blobs := rfl
@[simp] theorem State.modThread_quarantined (s : State) (c t : Nat) (f : Thread → Thread) : (s.modThread c t f).quarantined = s.quarantined := rfl
@[simp] theorem State.modThread_dict (s : State) (c t : Nat) (f : Thread → Thread) : (s.modThread c t f).dict = s.dict := rfl
@[simp] theorem State.modThread_counters (s : State) (c t : Nat) (f : Thread → Thread) : (s.modThread c t f).counters = s.counters := rfl
@[simp] theorem State.modThread_rsvWrites (s : State) (c t : Nat) (f : Thread → Thread) : (s.modThread c t f).rsvWrites = s.rsvWrites := rfl

@[simp] theorem State.setQueue_pending (s : State) (q : Nat) (x : Queue) : (s.setQueue q x).pending = s.pending := rfl
@[simp] theorem State.setQueue_free (s : State) (q : Nat) (x : Queue) : (s.setQueue q x).free = s.free := rfl
@[simp] theorem State.setQueue_code (s : State) (q : Nat) (x : Queue) : (s.setQueue q x).code = s.code := rfl
@[simp] theorem State.setQueue_time (s : State) (q : Nat) (x : Queue) : (s.setQueue q x).time = s.time := rfl
@[simp] theorem State.setQueue_dram (s : State) (q : Nat) (x : Queue) : (s.setQueue q x).dram = s.dram := rfl
@[simp] theorem State.setQueue_cells (s : State) (q : Nat) (x : Queue) : (s.setQueue q x).cells = s.cells := rfl
@[simp] theorem State.setQueue_partitions (s : State) (q : Nat) (x : Queue) : (s.setQueue q x).partitions = s.partitions := rfl
@[simp] theorem State.setQueue_contexts (s : State) (q : Nat) (x : Queue) : (s.setQueue q x).contexts = s.contexts := rfl
@[simp] theorem State.setQueue_quarters (s : State) (q : Nat) (x : Queue) : (s.setQueue q x).quarters = s.quarters := rfl
@[simp] theorem State.setQueue_migration (s : State) (q : Nat) (x : Queue) : (s.setQueue q x).migration = s.migration := rfl
@[simp] theorem State.setQueue_images (s : State) (q : Nat) (x : Queue) : (s.setQueue q x).images = s.images := rfl
@[simp] theorem State.setQueue_nextImage (s : State) (q : Nat) (x : Queue) : (s.setQueue q x).nextImage = s.nextImage := rfl
@[simp] theorem State.setQueue_launches (s : State) (q : Nat) (x : Queue) : (s.setQueue q x).launches = s.launches := rfl
@[simp] theorem State.setQueue_nextLaunch (s : State) (q : Nat) (x : Queue) : (s.setQueue q x).nextLaunch = s.nextLaunch := rfl
@[simp] theorem State.setQueue_nextOrder (s : State) (q : Nat) (x : Queue) : (s.setQueue q x).nextOrder = s.nextOrder := rfl
@[simp] theorem State.setQueue_admin (s : State) (q : Nat) (x : Queue) : (s.setQueue q x).admin = s.admin := rfl
@[simp] theorem State.setQueue_hostOut (s : State) (q : Nat) (x : Queue) : (s.setQueue q x).hostOut = s.hostOut := rfl
@[simp] theorem State.setQueue_host (s : State) (q : Nat) (x : Queue) : (s.setQueue q x).host = s.host := rfl
@[simp] theorem State.setQueue_regions (s : State) (q : Nat) (x : Queue) : (s.setQueue q x).regions = s.regions := rfl
@[simp] theorem State.setQueue_streamErr (s : State) (q : Nat) (x : Queue) : (s.setQueue q x).streamErr = s.streamErr := rfl
@[simp] theorem State.setQueue_tlbs (s : State) (q : Nat) (x : Queue) : (s.setQueue q x).tlbs = s.tlbs := rfl
@[simp] theorem State.setQueue_walks (s : State) (q : Nat) (x : Queue) : (s.setQueue q x).walks = s.walks := rfl
@[simp] theorem State.setQueue_walkCaches (s : State) (q : Nat) (x : Queue) : (s.setQueue q x).walkCaches = s.walkCaches := rfl
@[simp] theorem State.setQueue_collectors (s : State) (q : Nat) (x : Queue) : (s.setQueue q x).collectors = s.collectors := rfl
@[simp] theorem State.setQueue_drains (s : State) (q : Nat) (x : Queue) : (s.setQueue q x).drains = s.drains := rfl
@[simp] theorem State.setQueue_nextDrain (s : State) (q : Nat) (x : Queue) : (s.setQueue q x).nextDrain = s.nextDrain := rfl
@[simp] theorem State.setQueue_groups (s : State) (q : Nat) (x : Queue) : (s.setQueue q x).groups = s.groups := rfl
@[simp] theorem State.setQueue_nextHandle (s : State) (q : Nat) (x : Queue) : (s.setQueue q x).nextHandle = s.nextHandle := rfl
@[simp] theorem State.setQueue_tables (s : State) (q : Nat) (x : Queue) : (s.setQueue q x).tables = s.tables := rfl
@[simp] theorem State.setQueue_foragers (s : State) (q : Nat) (x : Queue) : (s.setQueue q x).foragers = s.foragers := rfl
@[simp] theorem State.setQueue_works (s : State) (q : Nat) (x : Queue) : (s.setQueue q x).works = s.works := rfl
@[simp] theorem State.setQueue_nextWork (s : State) (q : Nat) (x : Queue) : (s.setQueue q x).nextWork = s.nextWork := rfl
@[simp] theorem State.setQueue_staged (s : State) (q : Nat) (x : Queue) : (s.setQueue q x).staged = s.staged := rfl
@[simp] theorem State.setQueue_patches (s : State) (q : Nat) (x : Queue) : (s.setQueue q x).patches = s.patches := rfl
@[simp] theorem State.setQueue_committed (s : State) (q : Nat) (x : Queue) : (s.setQueue q x).committed = s.committed := rfl
@[simp] theorem State.setQueue_returns (s : State) (q : Nat) (x : Queue) : (s.setQueue q x).returns = s.returns := rfl
@[simp] theorem State.setQueue_nextReturn (s : State) (q : Nat) (x : Queue) : (s.setQueue q x).nextReturn = s.nextReturn := rfl
@[simp] theorem State.setQueue_fanStages (s : State) (q : Nat) (x : Queue) : (s.setQueue q x).fanStages = s.fanStages := rfl
@[simp] theorem State.setQueue_earlyReqs (s : State) (q : Nat) (x : Queue) : (s.setQueue q x).earlyReqs = s.earlyReqs := rfl
@[simp] theorem State.setQueue_spanWait (s : State) (q : Nat) (x : Queue) : (s.setQueue q x).spanWait = s.spanWait := rfl
@[simp] theorem State.setQueue_spanPort (s : State) (q : Nat) (x : Queue) : (s.setQueue q x).spanPort = s.spanPort := rfl
@[simp] theorem State.setQueue_fanned (s : State) (q : Nat) (x : Queue) : (s.setQueue q x).fanned = s.fanned := rfl
@[simp] theorem State.setQueue_windows (s : State) (q : Nat) (x : Queue) : (s.setQueue q x).windows = s.windows := rfl
@[simp] theorem State.setQueue_keyFails (s : State) (q : Nat) (x : Queue) : (s.setQueue q x).keyFails = s.keyFails := rfl
@[simp] theorem State.setQueue_imports (s : State) (q : Nat) (x : Queue) : (s.setQueue q x).imports = s.imports := rfl
@[simp] theorem State.setQueue_probes (s : State) (q : Nat) (x : Queue) : (s.setQueue q x).probes = s.probes := rfl
@[simp] theorem State.setQueue_nextTag (s : State) (q : Nat) (x : Queue) : (s.setQueue q x).nextTag = s.nextTag := rfl
@[simp] theorem State.setQueue_winReqs (s : State) (q : Nat) (x : Queue) : (s.setQueue q x).winReqs = s.winReqs := rfl
@[simp] theorem State.setQueue_fabricOut (s : State) (q : Nat) (x : Queue) : (s.setQueue q x).fabricOut = s.fabricOut := rfl
@[simp] theorem State.setQueue_wagglesOut (s : State) (q : Nat) (x : Queue) : (s.setQueue q x).wagglesOut = s.wagglesOut := rfl
@[simp] theorem State.setQueue_waggleSeq (s : State) (q : Nat) (x : Queue) : (s.setQueue q x).waggleSeq = s.waggleSeq := rfl
@[simp] theorem State.setQueue_waggleAt (s : State) (q : Nat) (x : Queue) : (s.setQueue q x).waggleAt = s.waggleAt := rfl
@[simp] theorem State.setQueue_ports (s : State) (q : Nat) (x : Queue) : (s.setQueue q x).ports = s.ports := rfl
@[simp] theorem State.setQueue_wire (s : State) (q : Nat) (x : Queue) : (s.setQueue q x).wire = s.wire := rfl
@[simp] theorem State.setQueue_delivered (s : State) (q : Nat) (x : Queue) : (s.setQueue q x).delivered = s.delivered := rfl
@[simp] theorem State.setQueue_filter (s : State) (q : Nat) (x : Queue) : (s.setQueue q x).filter = s.filter := rfl
@[simp] theorem State.setQueue_qps (s : State) (q : Nat) (x : Queue) : (s.setQueue q x).qps = s.qps := rfl
@[simp] theorem State.setQueue_ethOut (s : State) (q : Nat) (x : Queue) : (s.setQueue q x).ethOut = s.ethOut := rfl
@[simp] theorem State.setQueue_keyGens (s : State) (q : Nat) (x : Queue) : (s.setQueue q x).keyGens = s.keyGens := rfl
@[simp] theorem State.setQueue_tasters (s : State) (q : Nat) (x : Queue) : (s.setQueue q x).tasters = s.tasters := rfl
@[simp] theorem State.setQueue_nextTaster (s : State) (q : Nat) (x : Queue) : (s.setQueue q x).nextTaster = s.nextTaster := rfl
@[simp] theorem State.setQueue_health (s : State) (q : Nat) (x : Queue) : (s.setQueue q x).health = s.health := rfl
@[simp] theorem State.setQueue_replicas (s : State) (q : Nat) (x : Queue) : (s.setQueue q x).replicas = s.replicas := rfl
@[simp] theorem State.setQueue_power (s : State) (q : Nat) (x : Queue) : (s.setQueue q x).power = s.power := rfl
@[simp] theorem State.setQueue_manager (s : State) (q : Nat) (x : Queue) : (s.setQueue q x).manager = s.manager := rfl
@[simp] theorem State.setQueue_therms (s : State) (q : Nat) (x : Queue) : (s.setQueue q x).therms = s.therms := rfl
@[simp] theorem State.setQueue_channels (s : State) (q : Nat) (x : Queue) : (s.setQueue q x).channels = s.channels := rfl
@[simp] theorem State.setQueue_rowActs (s : State) (q : Nat) (x : Queue) : (s.setQueue q x).rowActs = s.rowActs := rfl
@[simp] theorem State.setQueue_damage (s : State) (q : Nat) (x : Queue) : (s.setQueue q x).damage = s.damage := rfl
@[simp] theorem State.setQueue_fixups (s : State) (q : Nat) (x : Queue) : (s.setQueue q x).fixups = s.fixups := rfl
@[simp] theorem State.setQueue_struck (s : State) (q : Nat) (x : Queue) : (s.setQueue q x).struck = s.struck := rfl
@[simp] theorem State.setQueue_memLog (s : State) (q : Nat) (x : Queue) : (s.setQueue q x).memLog = s.memLog := rfl
@[simp] theorem State.setQueue_tracer (s : State) (q : Nat) (x : Queue) : (s.setQueue q x).tracer = s.tracer := rfl
@[simp] theorem State.setQueue_keeper (s : State) (q : Nat) (x : Queue) : (s.setQueue q x).keeper = s.keeper := rfl
@[simp] theorem State.setQueue_boot (s : State) (q : Nat) (x : Queue) : (s.setQueue q x).boot = s.boot := rfl
@[simp] theorem State.setQueue_log (s : State) (q : Nat) (x : Queue) : (s.setQueue q x).log = s.log := rfl
@[simp] theorem State.setQueue_fieldOut (s : State) (q : Nat) (x : Queue) : (s.setQueue q x).fieldOut = s.fieldOut := rfl
@[simp] theorem State.setQueue_keeperUp (s : State) (q : Nat) (x : Queue) : (s.setQueue q x).keeperUp = s.keeperUp := rfl
@[simp] theorem State.setQueue_fieldUsable (s : State) (q : Nat) (x : Queue) : (s.setQueue q x).fieldUsable = s.fieldUsable := rfl
@[simp] theorem State.setQueue_refclk (s : State) (q : Nat) (x : Queue) : (s.setQueue q x).refclk = s.refclk := rfl
@[simp] theorem State.setQueue_blobs (s : State) (q : Nat) (x : Queue) : (s.setQueue q x).blobs = s.blobs := rfl
@[simp] theorem State.setQueue_quarantined (s : State) (q : Nat) (x : Queue) : (s.setQueue q x).quarantined = s.quarantined := rfl
@[simp] theorem State.setQueue_dict (s : State) (q : Nat) (x : Queue) : (s.setQueue q x).dict = s.dict := rfl
@[simp] theorem State.setQueue_counters (s : State) (q : Nat) (x : Queue) : (s.setQueue q x).counters = s.counters := rfl
@[simp] theorem State.setQueue_rsvWrites (s : State) (q : Nat) (x : Queue) : (s.setQueue q x).rsvWrites = s.rsvWrites := rfl

@[simp] theorem State.setPart_pending (s : State) (p : Nat) (x : Partition) : (s.setPart p x).pending = s.pending := rfl
@[simp] theorem State.setPart_free (s : State) (p : Nat) (x : Partition) : (s.setPart p x).free = s.free := rfl
@[simp] theorem State.setPart_code (s : State) (p : Nat) (x : Partition) : (s.setPart p x).code = s.code := rfl
@[simp] theorem State.setPart_time (s : State) (p : Nat) (x : Partition) : (s.setPart p x).time = s.time := rfl
@[simp] theorem State.setPart_dram (s : State) (p : Nat) (x : Partition) : (s.setPart p x).dram = s.dram := rfl
@[simp] theorem State.setPart_cells (s : State) (p : Nat) (x : Partition) : (s.setPart p x).cells = s.cells := rfl
@[simp] theorem State.setPart_contexts (s : State) (p : Nat) (x : Partition) : (s.setPart p x).contexts = s.contexts := rfl
@[simp] theorem State.setPart_quarters (s : State) (p : Nat) (x : Partition) : (s.setPart p x).quarters = s.quarters := rfl
@[simp] theorem State.setPart_migration (s : State) (p : Nat) (x : Partition) : (s.setPart p x).migration = s.migration := rfl
@[simp] theorem State.setPart_images (s : State) (p : Nat) (x : Partition) : (s.setPart p x).images = s.images := rfl
@[simp] theorem State.setPart_nextImage (s : State) (p : Nat) (x : Partition) : (s.setPart p x).nextImage = s.nextImage := rfl
@[simp] theorem State.setPart_launches (s : State) (p : Nat) (x : Partition) : (s.setPart p x).launches = s.launches := rfl
@[simp] theorem State.setPart_nextLaunch (s : State) (p : Nat) (x : Partition) : (s.setPart p x).nextLaunch = s.nextLaunch := rfl
@[simp] theorem State.setPart_nextOrder (s : State) (p : Nat) (x : Partition) : (s.setPart p x).nextOrder = s.nextOrder := rfl
@[simp] theorem State.setPart_queues (s : State) (p : Nat) (x : Partition) : (s.setPart p x).queues = s.queues := rfl
@[simp] theorem State.setPart_admin (s : State) (p : Nat) (x : Partition) : (s.setPart p x).admin = s.admin := rfl
@[simp] theorem State.setPart_hostOut (s : State) (p : Nat) (x : Partition) : (s.setPart p x).hostOut = s.hostOut := rfl
@[simp] theorem State.setPart_host (s : State) (p : Nat) (x : Partition) : (s.setPart p x).host = s.host := rfl
@[simp] theorem State.setPart_regions (s : State) (p : Nat) (x : Partition) : (s.setPart p x).regions = s.regions := rfl
@[simp] theorem State.setPart_streamErr (s : State) (p : Nat) (x : Partition) : (s.setPart p x).streamErr = s.streamErr := rfl
@[simp] theorem State.setPart_tlbs (s : State) (p : Nat) (x : Partition) : (s.setPart p x).tlbs = s.tlbs := rfl
@[simp] theorem State.setPart_walks (s : State) (p : Nat) (x : Partition) : (s.setPart p x).walks = s.walks := rfl
@[simp] theorem State.setPart_walkCaches (s : State) (p : Nat) (x : Partition) : (s.setPart p x).walkCaches = s.walkCaches := rfl
@[simp] theorem State.setPart_collectors (s : State) (p : Nat) (x : Partition) : (s.setPart p x).collectors = s.collectors := rfl
@[simp] theorem State.setPart_drains (s : State) (p : Nat) (x : Partition) : (s.setPart p x).drains = s.drains := rfl
@[simp] theorem State.setPart_nextDrain (s : State) (p : Nat) (x : Partition) : (s.setPart p x).nextDrain = s.nextDrain := rfl
@[simp] theorem State.setPart_groups (s : State) (p : Nat) (x : Partition) : (s.setPart p x).groups = s.groups := rfl
@[simp] theorem State.setPart_nextHandle (s : State) (p : Nat) (x : Partition) : (s.setPart p x).nextHandle = s.nextHandle := rfl
@[simp] theorem State.setPart_tables (s : State) (p : Nat) (x : Partition) : (s.setPart p x).tables = s.tables := rfl
@[simp] theorem State.setPart_foragers (s : State) (p : Nat) (x : Partition) : (s.setPart p x).foragers = s.foragers := rfl
@[simp] theorem State.setPart_works (s : State) (p : Nat) (x : Partition) : (s.setPart p x).works = s.works := rfl
@[simp] theorem State.setPart_nextWork (s : State) (p : Nat) (x : Partition) : (s.setPart p x).nextWork = s.nextWork := rfl
@[simp] theorem State.setPart_staged (s : State) (p : Nat) (x : Partition) : (s.setPart p x).staged = s.staged := rfl
@[simp] theorem State.setPart_patches (s : State) (p : Nat) (x : Partition) : (s.setPart p x).patches = s.patches := rfl
@[simp] theorem State.setPart_committed (s : State) (p : Nat) (x : Partition) : (s.setPart p x).committed = s.committed := rfl
@[simp] theorem State.setPart_returns (s : State) (p : Nat) (x : Partition) : (s.setPart p x).returns = s.returns := rfl
@[simp] theorem State.setPart_nextReturn (s : State) (p : Nat) (x : Partition) : (s.setPart p x).nextReturn = s.nextReturn := rfl
@[simp] theorem State.setPart_fanStages (s : State) (p : Nat) (x : Partition) : (s.setPart p x).fanStages = s.fanStages := rfl
@[simp] theorem State.setPart_earlyReqs (s : State) (p : Nat) (x : Partition) : (s.setPart p x).earlyReqs = s.earlyReqs := rfl
@[simp] theorem State.setPart_spanWait (s : State) (p : Nat) (x : Partition) : (s.setPart p x).spanWait = s.spanWait := rfl
@[simp] theorem State.setPart_spanPort (s : State) (p : Nat) (x : Partition) : (s.setPart p x).spanPort = s.spanPort := rfl
@[simp] theorem State.setPart_fanned (s : State) (p : Nat) (x : Partition) : (s.setPart p x).fanned = s.fanned := rfl
@[simp] theorem State.setPart_windows (s : State) (p : Nat) (x : Partition) : (s.setPart p x).windows = s.windows := rfl
@[simp] theorem State.setPart_keyFails (s : State) (p : Nat) (x : Partition) : (s.setPart p x).keyFails = s.keyFails := rfl
@[simp] theorem State.setPart_imports (s : State) (p : Nat) (x : Partition) : (s.setPart p x).imports = s.imports := rfl
@[simp] theorem State.setPart_probes (s : State) (p : Nat) (x : Partition) : (s.setPart p x).probes = s.probes := rfl
@[simp] theorem State.setPart_nextTag (s : State) (p : Nat) (x : Partition) : (s.setPart p x).nextTag = s.nextTag := rfl
@[simp] theorem State.setPart_winReqs (s : State) (p : Nat) (x : Partition) : (s.setPart p x).winReqs = s.winReqs := rfl
@[simp] theorem State.setPart_fabricOut (s : State) (p : Nat) (x : Partition) : (s.setPart p x).fabricOut = s.fabricOut := rfl
@[simp] theorem State.setPart_wagglesOut (s : State) (p : Nat) (x : Partition) : (s.setPart p x).wagglesOut = s.wagglesOut := rfl
@[simp] theorem State.setPart_waggleSeq (s : State) (p : Nat) (x : Partition) : (s.setPart p x).waggleSeq = s.waggleSeq := rfl
@[simp] theorem State.setPart_waggleAt (s : State) (p : Nat) (x : Partition) : (s.setPart p x).waggleAt = s.waggleAt := rfl
@[simp] theorem State.setPart_ports (s : State) (p : Nat) (x : Partition) : (s.setPart p x).ports = s.ports := rfl
@[simp] theorem State.setPart_wire (s : State) (p : Nat) (x : Partition) : (s.setPart p x).wire = s.wire := rfl
@[simp] theorem State.setPart_delivered (s : State) (p : Nat) (x : Partition) : (s.setPart p x).delivered = s.delivered := rfl
@[simp] theorem State.setPart_filter (s : State) (p : Nat) (x : Partition) : (s.setPart p x).filter = s.filter := rfl
@[simp] theorem State.setPart_qps (s : State) (p : Nat) (x : Partition) : (s.setPart p x).qps = s.qps := rfl
@[simp] theorem State.setPart_ethOut (s : State) (p : Nat) (x : Partition) : (s.setPart p x).ethOut = s.ethOut := rfl
@[simp] theorem State.setPart_keyGens (s : State) (p : Nat) (x : Partition) : (s.setPart p x).keyGens = s.keyGens := rfl
@[simp] theorem State.setPart_tasters (s : State) (p : Nat) (x : Partition) : (s.setPart p x).tasters = s.tasters := rfl
@[simp] theorem State.setPart_nextTaster (s : State) (p : Nat) (x : Partition) : (s.setPart p x).nextTaster = s.nextTaster := rfl
@[simp] theorem State.setPart_health (s : State) (p : Nat) (x : Partition) : (s.setPart p x).health = s.health := rfl
@[simp] theorem State.setPart_replicas (s : State) (p : Nat) (x : Partition) : (s.setPart p x).replicas = s.replicas := rfl
@[simp] theorem State.setPart_power (s : State) (p : Nat) (x : Partition) : (s.setPart p x).power = s.power := rfl
@[simp] theorem State.setPart_manager (s : State) (p : Nat) (x : Partition) : (s.setPart p x).manager = s.manager := rfl
@[simp] theorem State.setPart_therms (s : State) (p : Nat) (x : Partition) : (s.setPart p x).therms = s.therms := rfl
@[simp] theorem State.setPart_channels (s : State) (p : Nat) (x : Partition) : (s.setPart p x).channels = s.channels := rfl
@[simp] theorem State.setPart_rowActs (s : State) (p : Nat) (x : Partition) : (s.setPart p x).rowActs = s.rowActs := rfl
@[simp] theorem State.setPart_damage (s : State) (p : Nat) (x : Partition) : (s.setPart p x).damage = s.damage := rfl
@[simp] theorem State.setPart_fixups (s : State) (p : Nat) (x : Partition) : (s.setPart p x).fixups = s.fixups := rfl
@[simp] theorem State.setPart_struck (s : State) (p : Nat) (x : Partition) : (s.setPart p x).struck = s.struck := rfl
@[simp] theorem State.setPart_memLog (s : State) (p : Nat) (x : Partition) : (s.setPart p x).memLog = s.memLog := rfl
@[simp] theorem State.setPart_tracer (s : State) (p : Nat) (x : Partition) : (s.setPart p x).tracer = s.tracer := rfl
@[simp] theorem State.setPart_keeper (s : State) (p : Nat) (x : Partition) : (s.setPart p x).keeper = s.keeper := rfl
@[simp] theorem State.setPart_boot (s : State) (p : Nat) (x : Partition) : (s.setPart p x).boot = s.boot := rfl
@[simp] theorem State.setPart_log (s : State) (p : Nat) (x : Partition) : (s.setPart p x).log = s.log := rfl
@[simp] theorem State.setPart_fieldOut (s : State) (p : Nat) (x : Partition) : (s.setPart p x).fieldOut = s.fieldOut := rfl
@[simp] theorem State.setPart_keeperUp (s : State) (p : Nat) (x : Partition) : (s.setPart p x).keeperUp = s.keeperUp := rfl
@[simp] theorem State.setPart_fieldUsable (s : State) (p : Nat) (x : Partition) : (s.setPart p x).fieldUsable = s.fieldUsable := rfl
@[simp] theorem State.setPart_refclk (s : State) (p : Nat) (x : Partition) : (s.setPart p x).refclk = s.refclk := rfl
@[simp] theorem State.setPart_blobs (s : State) (p : Nat) (x : Partition) : (s.setPart p x).blobs = s.blobs := rfl
@[simp] theorem State.setPart_quarantined (s : State) (p : Nat) (x : Partition) : (s.setPart p x).quarantined = s.quarantined := rfl
@[simp] theorem State.setPart_dict (s : State) (p : Nat) (x : Partition) : (s.setPart p x).dict = s.dict := rfl
@[simp] theorem State.setPart_counters (s : State) (p : Nat) (x : Partition) : (s.setPart p x).counters = s.counters := rfl
@[simp] theorem State.setPart_rsvWrites (s : State) (p : Nat) (x : Partition) : (s.setPart p x).rsvWrites = s.rsvWrites := rfl

@[simp] theorem State.setCtx_pending (s : State) (c : Nat) (x : Context) : (s.setCtx c x).pending = s.pending := rfl
@[simp] theorem State.setCtx_free (s : State) (c : Nat) (x : Context) : (s.setCtx c x).free = s.free := rfl
@[simp] theorem State.setCtx_code (s : State) (c : Nat) (x : Context) : (s.setCtx c x).code = s.code := rfl
@[simp] theorem State.setCtx_time (s : State) (c : Nat) (x : Context) : (s.setCtx c x).time = s.time := rfl
@[simp] theorem State.setCtx_dram (s : State) (c : Nat) (x : Context) : (s.setCtx c x).dram = s.dram := rfl
@[simp] theorem State.setCtx_cells (s : State) (c : Nat) (x : Context) : (s.setCtx c x).cells = s.cells := rfl
@[simp] theorem State.setCtx_partitions (s : State) (c : Nat) (x : Context) : (s.setCtx c x).partitions = s.partitions := rfl
@[simp] theorem State.setCtx_quarters (s : State) (c : Nat) (x : Context) : (s.setCtx c x).quarters = s.quarters := rfl
@[simp] theorem State.setCtx_migration (s : State) (c : Nat) (x : Context) : (s.setCtx c x).migration = s.migration := rfl
@[simp] theorem State.setCtx_images (s : State) (c : Nat) (x : Context) : (s.setCtx c x).images = s.images := rfl
@[simp] theorem State.setCtx_nextImage (s : State) (c : Nat) (x : Context) : (s.setCtx c x).nextImage = s.nextImage := rfl
@[simp] theorem State.setCtx_launches (s : State) (c : Nat) (x : Context) : (s.setCtx c x).launches = s.launches := rfl
@[simp] theorem State.setCtx_nextLaunch (s : State) (c : Nat) (x : Context) : (s.setCtx c x).nextLaunch = s.nextLaunch := rfl
@[simp] theorem State.setCtx_nextOrder (s : State) (c : Nat) (x : Context) : (s.setCtx c x).nextOrder = s.nextOrder := rfl
@[simp] theorem State.setCtx_queues (s : State) (c : Nat) (x : Context) : (s.setCtx c x).queues = s.queues := rfl
@[simp] theorem State.setCtx_admin (s : State) (c : Nat) (x : Context) : (s.setCtx c x).admin = s.admin := rfl
@[simp] theorem State.setCtx_hostOut (s : State) (c : Nat) (x : Context) : (s.setCtx c x).hostOut = s.hostOut := rfl
@[simp] theorem State.setCtx_host (s : State) (c : Nat) (x : Context) : (s.setCtx c x).host = s.host := rfl
@[simp] theorem State.setCtx_regions (s : State) (c : Nat) (x : Context) : (s.setCtx c x).regions = s.regions := rfl
@[simp] theorem State.setCtx_streamErr (s : State) (c : Nat) (x : Context) : (s.setCtx c x).streamErr = s.streamErr := rfl
@[simp] theorem State.setCtx_tlbs (s : State) (c : Nat) (x : Context) : (s.setCtx c x).tlbs = s.tlbs := rfl
@[simp] theorem State.setCtx_walks (s : State) (c : Nat) (x : Context) : (s.setCtx c x).walks = s.walks := rfl
@[simp] theorem State.setCtx_walkCaches (s : State) (c : Nat) (x : Context) : (s.setCtx c x).walkCaches = s.walkCaches := rfl
@[simp] theorem State.setCtx_collectors (s : State) (c : Nat) (x : Context) : (s.setCtx c x).collectors = s.collectors := rfl
@[simp] theorem State.setCtx_drains (s : State) (c : Nat) (x : Context) : (s.setCtx c x).drains = s.drains := rfl
@[simp] theorem State.setCtx_nextDrain (s : State) (c : Nat) (x : Context) : (s.setCtx c x).nextDrain = s.nextDrain := rfl
@[simp] theorem State.setCtx_groups (s : State) (c : Nat) (x : Context) : (s.setCtx c x).groups = s.groups := rfl
@[simp] theorem State.setCtx_nextHandle (s : State) (c : Nat) (x : Context) : (s.setCtx c x).nextHandle = s.nextHandle := rfl
@[simp] theorem State.setCtx_tables (s : State) (c : Nat) (x : Context) : (s.setCtx c x).tables = s.tables := rfl
@[simp] theorem State.setCtx_foragers (s : State) (c : Nat) (x : Context) : (s.setCtx c x).foragers = s.foragers := rfl
@[simp] theorem State.setCtx_works (s : State) (c : Nat) (x : Context) : (s.setCtx c x).works = s.works := rfl
@[simp] theorem State.setCtx_nextWork (s : State) (c : Nat) (x : Context) : (s.setCtx c x).nextWork = s.nextWork := rfl
@[simp] theorem State.setCtx_staged (s : State) (c : Nat) (x : Context) : (s.setCtx c x).staged = s.staged := rfl
@[simp] theorem State.setCtx_patches (s : State) (c : Nat) (x : Context) : (s.setCtx c x).patches = s.patches := rfl
@[simp] theorem State.setCtx_committed (s : State) (c : Nat) (x : Context) : (s.setCtx c x).committed = s.committed := rfl
@[simp] theorem State.setCtx_returns (s : State) (c : Nat) (x : Context) : (s.setCtx c x).returns = s.returns := rfl
@[simp] theorem State.setCtx_nextReturn (s : State) (c : Nat) (x : Context) : (s.setCtx c x).nextReturn = s.nextReturn := rfl
@[simp] theorem State.setCtx_fanStages (s : State) (c : Nat) (x : Context) : (s.setCtx c x).fanStages = s.fanStages := rfl
@[simp] theorem State.setCtx_earlyReqs (s : State) (c : Nat) (x : Context) : (s.setCtx c x).earlyReqs = s.earlyReqs := rfl
@[simp] theorem State.setCtx_spanWait (s : State) (c : Nat) (x : Context) : (s.setCtx c x).spanWait = s.spanWait := rfl
@[simp] theorem State.setCtx_spanPort (s : State) (c : Nat) (x : Context) : (s.setCtx c x).spanPort = s.spanPort := rfl
@[simp] theorem State.setCtx_fanned (s : State) (c : Nat) (x : Context) : (s.setCtx c x).fanned = s.fanned := rfl
@[simp] theorem State.setCtx_windows (s : State) (c : Nat) (x : Context) : (s.setCtx c x).windows = s.windows := rfl
@[simp] theorem State.setCtx_keyFails (s : State) (c : Nat) (x : Context) : (s.setCtx c x).keyFails = s.keyFails := rfl
@[simp] theorem State.setCtx_imports (s : State) (c : Nat) (x : Context) : (s.setCtx c x).imports = s.imports := rfl
@[simp] theorem State.setCtx_probes (s : State) (c : Nat) (x : Context) : (s.setCtx c x).probes = s.probes := rfl
@[simp] theorem State.setCtx_nextTag (s : State) (c : Nat) (x : Context) : (s.setCtx c x).nextTag = s.nextTag := rfl
@[simp] theorem State.setCtx_winReqs (s : State) (c : Nat) (x : Context) : (s.setCtx c x).winReqs = s.winReqs := rfl
@[simp] theorem State.setCtx_fabricOut (s : State) (c : Nat) (x : Context) : (s.setCtx c x).fabricOut = s.fabricOut := rfl
@[simp] theorem State.setCtx_wagglesOut (s : State) (c : Nat) (x : Context) : (s.setCtx c x).wagglesOut = s.wagglesOut := rfl
@[simp] theorem State.setCtx_waggleSeq (s : State) (c : Nat) (x : Context) : (s.setCtx c x).waggleSeq = s.waggleSeq := rfl
@[simp] theorem State.setCtx_waggleAt (s : State) (c : Nat) (x : Context) : (s.setCtx c x).waggleAt = s.waggleAt := rfl
@[simp] theorem State.setCtx_ports (s : State) (c : Nat) (x : Context) : (s.setCtx c x).ports = s.ports := rfl
@[simp] theorem State.setCtx_wire (s : State) (c : Nat) (x : Context) : (s.setCtx c x).wire = s.wire := rfl
@[simp] theorem State.setCtx_delivered (s : State) (c : Nat) (x : Context) : (s.setCtx c x).delivered = s.delivered := rfl
@[simp] theorem State.setCtx_filter (s : State) (c : Nat) (x : Context) : (s.setCtx c x).filter = s.filter := rfl
@[simp] theorem State.setCtx_qps (s : State) (c : Nat) (x : Context) : (s.setCtx c x).qps = s.qps := rfl
@[simp] theorem State.setCtx_ethOut (s : State) (c : Nat) (x : Context) : (s.setCtx c x).ethOut = s.ethOut := rfl
@[simp] theorem State.setCtx_keyGens (s : State) (c : Nat) (x : Context) : (s.setCtx c x).keyGens = s.keyGens := rfl
@[simp] theorem State.setCtx_tasters (s : State) (c : Nat) (x : Context) : (s.setCtx c x).tasters = s.tasters := rfl
@[simp] theorem State.setCtx_nextTaster (s : State) (c : Nat) (x : Context) : (s.setCtx c x).nextTaster = s.nextTaster := rfl
@[simp] theorem State.setCtx_health (s : State) (c : Nat) (x : Context) : (s.setCtx c x).health = s.health := rfl
@[simp] theorem State.setCtx_replicas (s : State) (c : Nat) (x : Context) : (s.setCtx c x).replicas = s.replicas := rfl
@[simp] theorem State.setCtx_power (s : State) (c : Nat) (x : Context) : (s.setCtx c x).power = s.power := rfl
@[simp] theorem State.setCtx_manager (s : State) (c : Nat) (x : Context) : (s.setCtx c x).manager = s.manager := rfl
@[simp] theorem State.setCtx_therms (s : State) (c : Nat) (x : Context) : (s.setCtx c x).therms = s.therms := rfl
@[simp] theorem State.setCtx_channels (s : State) (c : Nat) (x : Context) : (s.setCtx c x).channels = s.channels := rfl
@[simp] theorem State.setCtx_rowActs (s : State) (c : Nat) (x : Context) : (s.setCtx c x).rowActs = s.rowActs := rfl
@[simp] theorem State.setCtx_damage (s : State) (c : Nat) (x : Context) : (s.setCtx c x).damage = s.damage := rfl
@[simp] theorem State.setCtx_fixups (s : State) (c : Nat) (x : Context) : (s.setCtx c x).fixups = s.fixups := rfl
@[simp] theorem State.setCtx_struck (s : State) (c : Nat) (x : Context) : (s.setCtx c x).struck = s.struck := rfl
@[simp] theorem State.setCtx_memLog (s : State) (c : Nat) (x : Context) : (s.setCtx c x).memLog = s.memLog := rfl
@[simp] theorem State.setCtx_tracer (s : State) (c : Nat) (x : Context) : (s.setCtx c x).tracer = s.tracer := rfl
@[simp] theorem State.setCtx_keeper (s : State) (c : Nat) (x : Context) : (s.setCtx c x).keeper = s.keeper := rfl
@[simp] theorem State.setCtx_boot (s : State) (c : Nat) (x : Context) : (s.setCtx c x).boot = s.boot := rfl
@[simp] theorem State.setCtx_log (s : State) (c : Nat) (x : Context) : (s.setCtx c x).log = s.log := rfl
@[simp] theorem State.setCtx_fieldOut (s : State) (c : Nat) (x : Context) : (s.setCtx c x).fieldOut = s.fieldOut := rfl
@[simp] theorem State.setCtx_keeperUp (s : State) (c : Nat) (x : Context) : (s.setCtx c x).keeperUp = s.keeperUp := rfl
@[simp] theorem State.setCtx_fieldUsable (s : State) (c : Nat) (x : Context) : (s.setCtx c x).fieldUsable = s.fieldUsable := rfl
@[simp] theorem State.setCtx_refclk (s : State) (c : Nat) (x : Context) : (s.setCtx c x).refclk = s.refclk := rfl
@[simp] theorem State.setCtx_blobs (s : State) (c : Nat) (x : Context) : (s.setCtx c x).blobs = s.blobs := rfl
@[simp] theorem State.setCtx_quarantined (s : State) (c : Nat) (x : Context) : (s.setCtx c x).quarantined = s.quarantined := rfl
@[simp] theorem State.setCtx_dict (s : State) (c : Nat) (x : Context) : (s.setCtx c x).dict = s.dict := rfl
@[simp] theorem State.setCtx_counters (s : State) (c : Nat) (x : Context) : (s.setCtx c x).counters = s.counters := rfl
@[simp] theorem State.setCtx_rsvWrites (s : State) (c : Nat) (x : Context) : (s.setCtx c x).rsvWrites = s.rsvWrites := rfl

@[simp] theorem State.setLaunch_pending (s : State) (l : Nat) (x : Launch) : (s.setLaunch l x).pending = s.pending := rfl
@[simp] theorem State.setLaunch_free (s : State) (l : Nat) (x : Launch) : (s.setLaunch l x).free = s.free := rfl
@[simp] theorem State.setLaunch_code (s : State) (l : Nat) (x : Launch) : (s.setLaunch l x).code = s.code := rfl
@[simp] theorem State.setLaunch_time (s : State) (l : Nat) (x : Launch) : (s.setLaunch l x).time = s.time := rfl
@[simp] theorem State.setLaunch_dram (s : State) (l : Nat) (x : Launch) : (s.setLaunch l x).dram = s.dram := rfl
@[simp] theorem State.setLaunch_cells (s : State) (l : Nat) (x : Launch) : (s.setLaunch l x).cells = s.cells := rfl
@[simp] theorem State.setLaunch_partitions (s : State) (l : Nat) (x : Launch) : (s.setLaunch l x).partitions = s.partitions := rfl
@[simp] theorem State.setLaunch_contexts (s : State) (l : Nat) (x : Launch) : (s.setLaunch l x).contexts = s.contexts := rfl
@[simp] theorem State.setLaunch_quarters (s : State) (l : Nat) (x : Launch) : (s.setLaunch l x).quarters = s.quarters := rfl
@[simp] theorem State.setLaunch_migration (s : State) (l : Nat) (x : Launch) : (s.setLaunch l x).migration = s.migration := rfl
@[simp] theorem State.setLaunch_images (s : State) (l : Nat) (x : Launch) : (s.setLaunch l x).images = s.images := rfl
@[simp] theorem State.setLaunch_nextImage (s : State) (l : Nat) (x : Launch) : (s.setLaunch l x).nextImage = s.nextImage := rfl
@[simp] theorem State.setLaunch_nextLaunch (s : State) (l : Nat) (x : Launch) : (s.setLaunch l x).nextLaunch = s.nextLaunch := rfl
@[simp] theorem State.setLaunch_nextOrder (s : State) (l : Nat) (x : Launch) : (s.setLaunch l x).nextOrder = s.nextOrder := rfl
@[simp] theorem State.setLaunch_queues (s : State) (l : Nat) (x : Launch) : (s.setLaunch l x).queues = s.queues := rfl
@[simp] theorem State.setLaunch_admin (s : State) (l : Nat) (x : Launch) : (s.setLaunch l x).admin = s.admin := rfl
@[simp] theorem State.setLaunch_hostOut (s : State) (l : Nat) (x : Launch) : (s.setLaunch l x).hostOut = s.hostOut := rfl
@[simp] theorem State.setLaunch_host (s : State) (l : Nat) (x : Launch) : (s.setLaunch l x).host = s.host := rfl
@[simp] theorem State.setLaunch_regions (s : State) (l : Nat) (x : Launch) : (s.setLaunch l x).regions = s.regions := rfl
@[simp] theorem State.setLaunch_streamErr (s : State) (l : Nat) (x : Launch) : (s.setLaunch l x).streamErr = s.streamErr := rfl
@[simp] theorem State.setLaunch_tlbs (s : State) (l : Nat) (x : Launch) : (s.setLaunch l x).tlbs = s.tlbs := rfl
@[simp] theorem State.setLaunch_walks (s : State) (l : Nat) (x : Launch) : (s.setLaunch l x).walks = s.walks := rfl
@[simp] theorem State.setLaunch_walkCaches (s : State) (l : Nat) (x : Launch) : (s.setLaunch l x).walkCaches = s.walkCaches := rfl
@[simp] theorem State.setLaunch_collectors (s : State) (l : Nat) (x : Launch) : (s.setLaunch l x).collectors = s.collectors := rfl
@[simp] theorem State.setLaunch_drains (s : State) (l : Nat) (x : Launch) : (s.setLaunch l x).drains = s.drains := rfl
@[simp] theorem State.setLaunch_nextDrain (s : State) (l : Nat) (x : Launch) : (s.setLaunch l x).nextDrain = s.nextDrain := rfl
@[simp] theorem State.setLaunch_groups (s : State) (l : Nat) (x : Launch) : (s.setLaunch l x).groups = s.groups := rfl
@[simp] theorem State.setLaunch_nextHandle (s : State) (l : Nat) (x : Launch) : (s.setLaunch l x).nextHandle = s.nextHandle := rfl
@[simp] theorem State.setLaunch_tables (s : State) (l : Nat) (x : Launch) : (s.setLaunch l x).tables = s.tables := rfl
@[simp] theorem State.setLaunch_foragers (s : State) (l : Nat) (x : Launch) : (s.setLaunch l x).foragers = s.foragers := rfl
@[simp] theorem State.setLaunch_works (s : State) (l : Nat) (x : Launch) : (s.setLaunch l x).works = s.works := rfl
@[simp] theorem State.setLaunch_nextWork (s : State) (l : Nat) (x : Launch) : (s.setLaunch l x).nextWork = s.nextWork := rfl
@[simp] theorem State.setLaunch_staged (s : State) (l : Nat) (x : Launch) : (s.setLaunch l x).staged = s.staged := rfl
@[simp] theorem State.setLaunch_patches (s : State) (l : Nat) (x : Launch) : (s.setLaunch l x).patches = s.patches := rfl
@[simp] theorem State.setLaunch_committed (s : State) (l : Nat) (x : Launch) : (s.setLaunch l x).committed = s.committed := rfl
@[simp] theorem State.setLaunch_returns (s : State) (l : Nat) (x : Launch) : (s.setLaunch l x).returns = s.returns := rfl
@[simp] theorem State.setLaunch_nextReturn (s : State) (l : Nat) (x : Launch) : (s.setLaunch l x).nextReturn = s.nextReturn := rfl
@[simp] theorem State.setLaunch_fanStages (s : State) (l : Nat) (x : Launch) : (s.setLaunch l x).fanStages = s.fanStages := rfl
@[simp] theorem State.setLaunch_earlyReqs (s : State) (l : Nat) (x : Launch) : (s.setLaunch l x).earlyReqs = s.earlyReqs := rfl
@[simp] theorem State.setLaunch_spanWait (s : State) (l : Nat) (x : Launch) : (s.setLaunch l x).spanWait = s.spanWait := rfl
@[simp] theorem State.setLaunch_spanPort (s : State) (l : Nat) (x : Launch) : (s.setLaunch l x).spanPort = s.spanPort := rfl
@[simp] theorem State.setLaunch_fanned (s : State) (l : Nat) (x : Launch) : (s.setLaunch l x).fanned = s.fanned := rfl
@[simp] theorem State.setLaunch_windows (s : State) (l : Nat) (x : Launch) : (s.setLaunch l x).windows = s.windows := rfl
@[simp] theorem State.setLaunch_keyFails (s : State) (l : Nat) (x : Launch) : (s.setLaunch l x).keyFails = s.keyFails := rfl
@[simp] theorem State.setLaunch_imports (s : State) (l : Nat) (x : Launch) : (s.setLaunch l x).imports = s.imports := rfl
@[simp] theorem State.setLaunch_probes (s : State) (l : Nat) (x : Launch) : (s.setLaunch l x).probes = s.probes := rfl
@[simp] theorem State.setLaunch_nextTag (s : State) (l : Nat) (x : Launch) : (s.setLaunch l x).nextTag = s.nextTag := rfl
@[simp] theorem State.setLaunch_winReqs (s : State) (l : Nat) (x : Launch) : (s.setLaunch l x).winReqs = s.winReqs := rfl
@[simp] theorem State.setLaunch_fabricOut (s : State) (l : Nat) (x : Launch) : (s.setLaunch l x).fabricOut = s.fabricOut := rfl
@[simp] theorem State.setLaunch_wagglesOut (s : State) (l : Nat) (x : Launch) : (s.setLaunch l x).wagglesOut = s.wagglesOut := rfl
@[simp] theorem State.setLaunch_waggleSeq (s : State) (l : Nat) (x : Launch) : (s.setLaunch l x).waggleSeq = s.waggleSeq := rfl
@[simp] theorem State.setLaunch_waggleAt (s : State) (l : Nat) (x : Launch) : (s.setLaunch l x).waggleAt = s.waggleAt := rfl
@[simp] theorem State.setLaunch_ports (s : State) (l : Nat) (x : Launch) : (s.setLaunch l x).ports = s.ports := rfl
@[simp] theorem State.setLaunch_wire (s : State) (l : Nat) (x : Launch) : (s.setLaunch l x).wire = s.wire := rfl
@[simp] theorem State.setLaunch_delivered (s : State) (l : Nat) (x : Launch) : (s.setLaunch l x).delivered = s.delivered := rfl
@[simp] theorem State.setLaunch_filter (s : State) (l : Nat) (x : Launch) : (s.setLaunch l x).filter = s.filter := rfl
@[simp] theorem State.setLaunch_qps (s : State) (l : Nat) (x : Launch) : (s.setLaunch l x).qps = s.qps := rfl
@[simp] theorem State.setLaunch_ethOut (s : State) (l : Nat) (x : Launch) : (s.setLaunch l x).ethOut = s.ethOut := rfl
@[simp] theorem State.setLaunch_keyGens (s : State) (l : Nat) (x : Launch) : (s.setLaunch l x).keyGens = s.keyGens := rfl
@[simp] theorem State.setLaunch_tasters (s : State) (l : Nat) (x : Launch) : (s.setLaunch l x).tasters = s.tasters := rfl
@[simp] theorem State.setLaunch_nextTaster (s : State) (l : Nat) (x : Launch) : (s.setLaunch l x).nextTaster = s.nextTaster := rfl
@[simp] theorem State.setLaunch_health (s : State) (l : Nat) (x : Launch) : (s.setLaunch l x).health = s.health := rfl
@[simp] theorem State.setLaunch_replicas (s : State) (l : Nat) (x : Launch) : (s.setLaunch l x).replicas = s.replicas := rfl
@[simp] theorem State.setLaunch_power (s : State) (l : Nat) (x : Launch) : (s.setLaunch l x).power = s.power := rfl
@[simp] theorem State.setLaunch_manager (s : State) (l : Nat) (x : Launch) : (s.setLaunch l x).manager = s.manager := rfl
@[simp] theorem State.setLaunch_therms (s : State) (l : Nat) (x : Launch) : (s.setLaunch l x).therms = s.therms := rfl
@[simp] theorem State.setLaunch_channels (s : State) (l : Nat) (x : Launch) : (s.setLaunch l x).channels = s.channels := rfl
@[simp] theorem State.setLaunch_rowActs (s : State) (l : Nat) (x : Launch) : (s.setLaunch l x).rowActs = s.rowActs := rfl
@[simp] theorem State.setLaunch_damage (s : State) (l : Nat) (x : Launch) : (s.setLaunch l x).damage = s.damage := rfl
@[simp] theorem State.setLaunch_fixups (s : State) (l : Nat) (x : Launch) : (s.setLaunch l x).fixups = s.fixups := rfl
@[simp] theorem State.setLaunch_struck (s : State) (l : Nat) (x : Launch) : (s.setLaunch l x).struck = s.struck := rfl
@[simp] theorem State.setLaunch_memLog (s : State) (l : Nat) (x : Launch) : (s.setLaunch l x).memLog = s.memLog := rfl
@[simp] theorem State.setLaunch_tracer (s : State) (l : Nat) (x : Launch) : (s.setLaunch l x).tracer = s.tracer := rfl
@[simp] theorem State.setLaunch_keeper (s : State) (l : Nat) (x : Launch) : (s.setLaunch l x).keeper = s.keeper := rfl
@[simp] theorem State.setLaunch_boot (s : State) (l : Nat) (x : Launch) : (s.setLaunch l x).boot = s.boot := rfl
@[simp] theorem State.setLaunch_log (s : State) (l : Nat) (x : Launch) : (s.setLaunch l x).log = s.log := rfl
@[simp] theorem State.setLaunch_fieldOut (s : State) (l : Nat) (x : Launch) : (s.setLaunch l x).fieldOut = s.fieldOut := rfl
@[simp] theorem State.setLaunch_keeperUp (s : State) (l : Nat) (x : Launch) : (s.setLaunch l x).keeperUp = s.keeperUp := rfl
@[simp] theorem State.setLaunch_fieldUsable (s : State) (l : Nat) (x : Launch) : (s.setLaunch l x).fieldUsable = s.fieldUsable := rfl
@[simp] theorem State.setLaunch_refclk (s : State) (l : Nat) (x : Launch) : (s.setLaunch l x).refclk = s.refclk := rfl
@[simp] theorem State.setLaunch_blobs (s : State) (l : Nat) (x : Launch) : (s.setLaunch l x).blobs = s.blobs := rfl
@[simp] theorem State.setLaunch_quarantined (s : State) (l : Nat) (x : Launch) : (s.setLaunch l x).quarantined = s.quarantined := rfl
@[simp] theorem State.setLaunch_dict (s : State) (l : Nat) (x : Launch) : (s.setLaunch l x).dict = s.dict := rfl
@[simp] theorem State.setLaunch_counters (s : State) (l : Nat) (x : Launch) : (s.setLaunch l x).counters = s.counters := rfl
@[simp] theorem State.setLaunch_rsvWrites (s : State) (l : Nat) (x : Launch) : (s.setLaunch l x).rsvWrites = s.rsvWrites := rfl

@[simp] theorem State.setCollector_pending (s : State) (k : Nat) (x : Collector) : (s.setCollector k x).pending = s.pending := rfl
@[simp] theorem State.setCollector_free (s : State) (k : Nat) (x : Collector) : (s.setCollector k x).free = s.free := rfl
@[simp] theorem State.setCollector_code (s : State) (k : Nat) (x : Collector) : (s.setCollector k x).code = s.code := rfl
@[simp] theorem State.setCollector_time (s : State) (k : Nat) (x : Collector) : (s.setCollector k x).time = s.time := rfl
@[simp] theorem State.setCollector_dram (s : State) (k : Nat) (x : Collector) : (s.setCollector k x).dram = s.dram := rfl
@[simp] theorem State.setCollector_cells (s : State) (k : Nat) (x : Collector) : (s.setCollector k x).cells = s.cells := rfl
@[simp] theorem State.setCollector_partitions (s : State) (k : Nat) (x : Collector) : (s.setCollector k x).partitions = s.partitions := rfl
@[simp] theorem State.setCollector_contexts (s : State) (k : Nat) (x : Collector) : (s.setCollector k x).contexts = s.contexts := rfl
@[simp] theorem State.setCollector_quarters (s : State) (k : Nat) (x : Collector) : (s.setCollector k x).quarters = s.quarters := rfl
@[simp] theorem State.setCollector_migration (s : State) (k : Nat) (x : Collector) : (s.setCollector k x).migration = s.migration := rfl
@[simp] theorem State.setCollector_images (s : State) (k : Nat) (x : Collector) : (s.setCollector k x).images = s.images := rfl
@[simp] theorem State.setCollector_nextImage (s : State) (k : Nat) (x : Collector) : (s.setCollector k x).nextImage = s.nextImage := rfl
@[simp] theorem State.setCollector_launches (s : State) (k : Nat) (x : Collector) : (s.setCollector k x).launches = s.launches := rfl
@[simp] theorem State.setCollector_nextLaunch (s : State) (k : Nat) (x : Collector) : (s.setCollector k x).nextLaunch = s.nextLaunch := rfl
@[simp] theorem State.setCollector_nextOrder (s : State) (k : Nat) (x : Collector) : (s.setCollector k x).nextOrder = s.nextOrder := rfl
@[simp] theorem State.setCollector_queues (s : State) (k : Nat) (x : Collector) : (s.setCollector k x).queues = s.queues := rfl
@[simp] theorem State.setCollector_admin (s : State) (k : Nat) (x : Collector) : (s.setCollector k x).admin = s.admin := rfl
@[simp] theorem State.setCollector_hostOut (s : State) (k : Nat) (x : Collector) : (s.setCollector k x).hostOut = s.hostOut := rfl
@[simp] theorem State.setCollector_host (s : State) (k : Nat) (x : Collector) : (s.setCollector k x).host = s.host := rfl
@[simp] theorem State.setCollector_regions (s : State) (k : Nat) (x : Collector) : (s.setCollector k x).regions = s.regions := rfl
@[simp] theorem State.setCollector_streamErr (s : State) (k : Nat) (x : Collector) : (s.setCollector k x).streamErr = s.streamErr := rfl
@[simp] theorem State.setCollector_tlbs (s : State) (k : Nat) (x : Collector) : (s.setCollector k x).tlbs = s.tlbs := rfl
@[simp] theorem State.setCollector_walks (s : State) (k : Nat) (x : Collector) : (s.setCollector k x).walks = s.walks := rfl
@[simp] theorem State.setCollector_walkCaches (s : State) (k : Nat) (x : Collector) : (s.setCollector k x).walkCaches = s.walkCaches := rfl
@[simp] theorem State.setCollector_drains (s : State) (k : Nat) (x : Collector) : (s.setCollector k x).drains = s.drains := rfl
@[simp] theorem State.setCollector_nextDrain (s : State) (k : Nat) (x : Collector) : (s.setCollector k x).nextDrain = s.nextDrain := rfl
@[simp] theorem State.setCollector_groups (s : State) (k : Nat) (x : Collector) : (s.setCollector k x).groups = s.groups := rfl
@[simp] theorem State.setCollector_nextHandle (s : State) (k : Nat) (x : Collector) : (s.setCollector k x).nextHandle = s.nextHandle := rfl
@[simp] theorem State.setCollector_tables (s : State) (k : Nat) (x : Collector) : (s.setCollector k x).tables = s.tables := rfl
@[simp] theorem State.setCollector_foragers (s : State) (k : Nat) (x : Collector) : (s.setCollector k x).foragers = s.foragers := rfl
@[simp] theorem State.setCollector_works (s : State) (k : Nat) (x : Collector) : (s.setCollector k x).works = s.works := rfl
@[simp] theorem State.setCollector_nextWork (s : State) (k : Nat) (x : Collector) : (s.setCollector k x).nextWork = s.nextWork := rfl
@[simp] theorem State.setCollector_staged (s : State) (k : Nat) (x : Collector) : (s.setCollector k x).staged = s.staged := rfl
@[simp] theorem State.setCollector_patches (s : State) (k : Nat) (x : Collector) : (s.setCollector k x).patches = s.patches := rfl
@[simp] theorem State.setCollector_committed (s : State) (k : Nat) (x : Collector) : (s.setCollector k x).committed = s.committed := rfl
@[simp] theorem State.setCollector_returns (s : State) (k : Nat) (x : Collector) : (s.setCollector k x).returns = s.returns := rfl
@[simp] theorem State.setCollector_nextReturn (s : State) (k : Nat) (x : Collector) : (s.setCollector k x).nextReturn = s.nextReturn := rfl
@[simp] theorem State.setCollector_fanStages (s : State) (k : Nat) (x : Collector) : (s.setCollector k x).fanStages = s.fanStages := rfl
@[simp] theorem State.setCollector_earlyReqs (s : State) (k : Nat) (x : Collector) : (s.setCollector k x).earlyReqs = s.earlyReqs := rfl
@[simp] theorem State.setCollector_spanWait (s : State) (k : Nat) (x : Collector) : (s.setCollector k x).spanWait = s.spanWait := rfl
@[simp] theorem State.setCollector_spanPort (s : State) (k : Nat) (x : Collector) : (s.setCollector k x).spanPort = s.spanPort := rfl
@[simp] theorem State.setCollector_fanned (s : State) (k : Nat) (x : Collector) : (s.setCollector k x).fanned = s.fanned := rfl
@[simp] theorem State.setCollector_windows (s : State) (k : Nat) (x : Collector) : (s.setCollector k x).windows = s.windows := rfl
@[simp] theorem State.setCollector_keyFails (s : State) (k : Nat) (x : Collector) : (s.setCollector k x).keyFails = s.keyFails := rfl
@[simp] theorem State.setCollector_imports (s : State) (k : Nat) (x : Collector) : (s.setCollector k x).imports = s.imports := rfl
@[simp] theorem State.setCollector_probes (s : State) (k : Nat) (x : Collector) : (s.setCollector k x).probes = s.probes := rfl
@[simp] theorem State.setCollector_nextTag (s : State) (k : Nat) (x : Collector) : (s.setCollector k x).nextTag = s.nextTag := rfl
@[simp] theorem State.setCollector_winReqs (s : State) (k : Nat) (x : Collector) : (s.setCollector k x).winReqs = s.winReqs := rfl
@[simp] theorem State.setCollector_fabricOut (s : State) (k : Nat) (x : Collector) : (s.setCollector k x).fabricOut = s.fabricOut := rfl
@[simp] theorem State.setCollector_wagglesOut (s : State) (k : Nat) (x : Collector) : (s.setCollector k x).wagglesOut = s.wagglesOut := rfl
@[simp] theorem State.setCollector_waggleSeq (s : State) (k : Nat) (x : Collector) : (s.setCollector k x).waggleSeq = s.waggleSeq := rfl
@[simp] theorem State.setCollector_waggleAt (s : State) (k : Nat) (x : Collector) : (s.setCollector k x).waggleAt = s.waggleAt := rfl
@[simp] theorem State.setCollector_ports (s : State) (k : Nat) (x : Collector) : (s.setCollector k x).ports = s.ports := rfl
@[simp] theorem State.setCollector_wire (s : State) (k : Nat) (x : Collector) : (s.setCollector k x).wire = s.wire := rfl
@[simp] theorem State.setCollector_delivered (s : State) (k : Nat) (x : Collector) : (s.setCollector k x).delivered = s.delivered := rfl
@[simp] theorem State.setCollector_filter (s : State) (k : Nat) (x : Collector) : (s.setCollector k x).filter = s.filter := rfl
@[simp] theorem State.setCollector_qps (s : State) (k : Nat) (x : Collector) : (s.setCollector k x).qps = s.qps := rfl
@[simp] theorem State.setCollector_ethOut (s : State) (k : Nat) (x : Collector) : (s.setCollector k x).ethOut = s.ethOut := rfl
@[simp] theorem State.setCollector_keyGens (s : State) (k : Nat) (x : Collector) : (s.setCollector k x).keyGens = s.keyGens := rfl
@[simp] theorem State.setCollector_tasters (s : State) (k : Nat) (x : Collector) : (s.setCollector k x).tasters = s.tasters := rfl
@[simp] theorem State.setCollector_nextTaster (s : State) (k : Nat) (x : Collector) : (s.setCollector k x).nextTaster = s.nextTaster := rfl
@[simp] theorem State.setCollector_health (s : State) (k : Nat) (x : Collector) : (s.setCollector k x).health = s.health := rfl
@[simp] theorem State.setCollector_replicas (s : State) (k : Nat) (x : Collector) : (s.setCollector k x).replicas = s.replicas := rfl
@[simp] theorem State.setCollector_power (s : State) (k : Nat) (x : Collector) : (s.setCollector k x).power = s.power := rfl
@[simp] theorem State.setCollector_manager (s : State) (k : Nat) (x : Collector) : (s.setCollector k x).manager = s.manager := rfl
@[simp] theorem State.setCollector_therms (s : State) (k : Nat) (x : Collector) : (s.setCollector k x).therms = s.therms := rfl
@[simp] theorem State.setCollector_channels (s : State) (k : Nat) (x : Collector) : (s.setCollector k x).channels = s.channels := rfl
@[simp] theorem State.setCollector_rowActs (s : State) (k : Nat) (x : Collector) : (s.setCollector k x).rowActs = s.rowActs := rfl
@[simp] theorem State.setCollector_damage (s : State) (k : Nat) (x : Collector) : (s.setCollector k x).damage = s.damage := rfl
@[simp] theorem State.setCollector_fixups (s : State) (k : Nat) (x : Collector) : (s.setCollector k x).fixups = s.fixups := rfl
@[simp] theorem State.setCollector_struck (s : State) (k : Nat) (x : Collector) : (s.setCollector k x).struck = s.struck := rfl
@[simp] theorem State.setCollector_memLog (s : State) (k : Nat) (x : Collector) : (s.setCollector k x).memLog = s.memLog := rfl
@[simp] theorem State.setCollector_tracer (s : State) (k : Nat) (x : Collector) : (s.setCollector k x).tracer = s.tracer := rfl
@[simp] theorem State.setCollector_keeper (s : State) (k : Nat) (x : Collector) : (s.setCollector k x).keeper = s.keeper := rfl
@[simp] theorem State.setCollector_boot (s : State) (k : Nat) (x : Collector) : (s.setCollector k x).boot = s.boot := rfl
@[simp] theorem State.setCollector_log (s : State) (k : Nat) (x : Collector) : (s.setCollector k x).log = s.log := rfl
@[simp] theorem State.setCollector_fieldOut (s : State) (k : Nat) (x : Collector) : (s.setCollector k x).fieldOut = s.fieldOut := rfl
@[simp] theorem State.setCollector_keeperUp (s : State) (k : Nat) (x : Collector) : (s.setCollector k x).keeperUp = s.keeperUp := rfl
@[simp] theorem State.setCollector_fieldUsable (s : State) (k : Nat) (x : Collector) : (s.setCollector k x).fieldUsable = s.fieldUsable := rfl
@[simp] theorem State.setCollector_refclk (s : State) (k : Nat) (x : Collector) : (s.setCollector k x).refclk = s.refclk := rfl
@[simp] theorem State.setCollector_blobs (s : State) (k : Nat) (x : Collector) : (s.setCollector k x).blobs = s.blobs := rfl
@[simp] theorem State.setCollector_quarantined (s : State) (k : Nat) (x : Collector) : (s.setCollector k x).quarantined = s.quarantined := rfl
@[simp] theorem State.setCollector_dict (s : State) (k : Nat) (x : Collector) : (s.setCollector k x).dict = s.dict := rfl
@[simp] theorem State.setCollector_counters (s : State) (k : Nat) (x : Collector) : (s.setCollector k x).counters = s.counters := rfl
@[simp] theorem State.setCollector_rsvWrites (s : State) (k : Nat) (x : Collector) : (s.setCollector k x).rsvWrites = s.rsvWrites := rfl

@[simp] theorem State.setEntry_pending (s : State) (i j v : Nat) : (s.setEntry i j v).pending = s.pending := rfl
@[simp] theorem State.setEntry_free (s : State) (i j v : Nat) : (s.setEntry i j v).free = s.free := rfl
@[simp] theorem State.setEntry_code (s : State) (i j v : Nat) : (s.setEntry i j v).code = s.code := rfl
@[simp] theorem State.setEntry_time (s : State) (i j v : Nat) : (s.setEntry i j v).time = s.time := rfl
@[simp] theorem State.setEntry_dram (s : State) (i j v : Nat) : (s.setEntry i j v).dram = s.dram := rfl
@[simp] theorem State.setEntry_cells (s : State) (i j v : Nat) : (s.setEntry i j v).cells = s.cells := rfl
@[simp] theorem State.setEntry_partitions (s : State) (i j v : Nat) : (s.setEntry i j v).partitions = s.partitions := rfl
@[simp] theorem State.setEntry_contexts (s : State) (i j v : Nat) : (s.setEntry i j v).contexts = s.contexts := rfl
@[simp] theorem State.setEntry_quarters (s : State) (i j v : Nat) : (s.setEntry i j v).quarters = s.quarters := rfl
@[simp] theorem State.setEntry_migration (s : State) (i j v : Nat) : (s.setEntry i j v).migration = s.migration := rfl
@[simp] theorem State.setEntry_images (s : State) (i j v : Nat) : (s.setEntry i j v).images = s.images := rfl
@[simp] theorem State.setEntry_nextImage (s : State) (i j v : Nat) : (s.setEntry i j v).nextImage = s.nextImage := rfl
@[simp] theorem State.setEntry_launches (s : State) (i j v : Nat) : (s.setEntry i j v).launches = s.launches := rfl
@[simp] theorem State.setEntry_nextLaunch (s : State) (i j v : Nat) : (s.setEntry i j v).nextLaunch = s.nextLaunch := rfl
@[simp] theorem State.setEntry_nextOrder (s : State) (i j v : Nat) : (s.setEntry i j v).nextOrder = s.nextOrder := rfl
@[simp] theorem State.setEntry_queues (s : State) (i j v : Nat) : (s.setEntry i j v).queues = s.queues := rfl
@[simp] theorem State.setEntry_admin (s : State) (i j v : Nat) : (s.setEntry i j v).admin = s.admin := rfl
@[simp] theorem State.setEntry_hostOut (s : State) (i j v : Nat) : (s.setEntry i j v).hostOut = s.hostOut := rfl
@[simp] theorem State.setEntry_host (s : State) (i j v : Nat) : (s.setEntry i j v).host = s.host := rfl
@[simp] theorem State.setEntry_regions (s : State) (i j v : Nat) : (s.setEntry i j v).regions = s.regions := rfl
@[simp] theorem State.setEntry_streamErr (s : State) (i j v : Nat) : (s.setEntry i j v).streamErr = s.streamErr := rfl
@[simp] theorem State.setEntry_tlbs (s : State) (i j v : Nat) : (s.setEntry i j v).tlbs = s.tlbs := rfl
@[simp] theorem State.setEntry_walks (s : State) (i j v : Nat) : (s.setEntry i j v).walks = s.walks := rfl
@[simp] theorem State.setEntry_walkCaches (s : State) (i j v : Nat) : (s.setEntry i j v).walkCaches = s.walkCaches := rfl
@[simp] theorem State.setEntry_collectors (s : State) (i j v : Nat) : (s.setEntry i j v).collectors = s.collectors := rfl
@[simp] theorem State.setEntry_drains (s : State) (i j v : Nat) : (s.setEntry i j v).drains = s.drains := rfl
@[simp] theorem State.setEntry_nextDrain (s : State) (i j v : Nat) : (s.setEntry i j v).nextDrain = s.nextDrain := rfl
@[simp] theorem State.setEntry_groups (s : State) (i j v : Nat) : (s.setEntry i j v).groups = s.groups := rfl
@[simp] theorem State.setEntry_nextHandle (s : State) (i j v : Nat) : (s.setEntry i j v).nextHandle = s.nextHandle := rfl
@[simp] theorem State.setEntry_tables (s : State) (i j v : Nat) : (s.setEntry i j v).tables = s.tables := rfl
@[simp] theorem State.setEntry_foragers (s : State) (i j v : Nat) : (s.setEntry i j v).foragers = s.foragers := rfl
@[simp] theorem State.setEntry_works (s : State) (i j v : Nat) : (s.setEntry i j v).works = s.works := rfl
@[simp] theorem State.setEntry_nextWork (s : State) (i j v : Nat) : (s.setEntry i j v).nextWork = s.nextWork := rfl
@[simp] theorem State.setEntry_staged (s : State) (i j v : Nat) : (s.setEntry i j v).staged = s.staged := rfl
@[simp] theorem State.setEntry_patches (s : State) (i j v : Nat) : (s.setEntry i j v).patches = s.patches := rfl
@[simp] theorem State.setEntry_committed (s : State) (i j v : Nat) : (s.setEntry i j v).committed = s.committed := rfl
@[simp] theorem State.setEntry_returns (s : State) (i j v : Nat) : (s.setEntry i j v).returns = s.returns := rfl
@[simp] theorem State.setEntry_nextReturn (s : State) (i j v : Nat) : (s.setEntry i j v).nextReturn = s.nextReturn := rfl
@[simp] theorem State.setEntry_fanStages (s : State) (i j v : Nat) : (s.setEntry i j v).fanStages = s.fanStages := rfl
@[simp] theorem State.setEntry_earlyReqs (s : State) (i j v : Nat) : (s.setEntry i j v).earlyReqs = s.earlyReqs := rfl
@[simp] theorem State.setEntry_spanWait (s : State) (i j v : Nat) : (s.setEntry i j v).spanWait = s.spanWait := rfl
@[simp] theorem State.setEntry_spanPort (s : State) (i j v : Nat) : (s.setEntry i j v).spanPort = s.spanPort := rfl
@[simp] theorem State.setEntry_fanned (s : State) (i j v : Nat) : (s.setEntry i j v).fanned = s.fanned := rfl
@[simp] theorem State.setEntry_windows (s : State) (i j v : Nat) : (s.setEntry i j v).windows = s.windows := rfl
@[simp] theorem State.setEntry_keyFails (s : State) (i j v : Nat) : (s.setEntry i j v).keyFails = s.keyFails := rfl
@[simp] theorem State.setEntry_imports (s : State) (i j v : Nat) : (s.setEntry i j v).imports = s.imports := rfl
@[simp] theorem State.setEntry_probes (s : State) (i j v : Nat) : (s.setEntry i j v).probes = s.probes := rfl
@[simp] theorem State.setEntry_nextTag (s : State) (i j v : Nat) : (s.setEntry i j v).nextTag = s.nextTag := rfl
@[simp] theorem State.setEntry_winReqs (s : State) (i j v : Nat) : (s.setEntry i j v).winReqs = s.winReqs := rfl
@[simp] theorem State.setEntry_fabricOut (s : State) (i j v : Nat) : (s.setEntry i j v).fabricOut = s.fabricOut := rfl
@[simp] theorem State.setEntry_wagglesOut (s : State) (i j v : Nat) : (s.setEntry i j v).wagglesOut = s.wagglesOut := rfl
@[simp] theorem State.setEntry_waggleSeq (s : State) (i j v : Nat) : (s.setEntry i j v).waggleSeq = s.waggleSeq := rfl
@[simp] theorem State.setEntry_waggleAt (s : State) (i j v : Nat) : (s.setEntry i j v).waggleAt = s.waggleAt := rfl
@[simp] theorem State.setEntry_ports (s : State) (i j v : Nat) : (s.setEntry i j v).ports = s.ports := rfl
@[simp] theorem State.setEntry_wire (s : State) (i j v : Nat) : (s.setEntry i j v).wire = s.wire := rfl
@[simp] theorem State.setEntry_delivered (s : State) (i j v : Nat) : (s.setEntry i j v).delivered = s.delivered := rfl
@[simp] theorem State.setEntry_filter (s : State) (i j v : Nat) : (s.setEntry i j v).filter = s.filter := rfl
@[simp] theorem State.setEntry_qps (s : State) (i j v : Nat) : (s.setEntry i j v).qps = s.qps := rfl
@[simp] theorem State.setEntry_ethOut (s : State) (i j v : Nat) : (s.setEntry i j v).ethOut = s.ethOut := rfl
@[simp] theorem State.setEntry_keyGens (s : State) (i j v : Nat) : (s.setEntry i j v).keyGens = s.keyGens := rfl
@[simp] theorem State.setEntry_tasters (s : State) (i j v : Nat) : (s.setEntry i j v).tasters = s.tasters := rfl
@[simp] theorem State.setEntry_nextTaster (s : State) (i j v : Nat) : (s.setEntry i j v).nextTaster = s.nextTaster := rfl
@[simp] theorem State.setEntry_health (s : State) (i j v : Nat) : (s.setEntry i j v).health = s.health := rfl
@[simp] theorem State.setEntry_replicas (s : State) (i j v : Nat) : (s.setEntry i j v).replicas = s.replicas := rfl
@[simp] theorem State.setEntry_power (s : State) (i j v : Nat) : (s.setEntry i j v).power = s.power := rfl
@[simp] theorem State.setEntry_manager (s : State) (i j v : Nat) : (s.setEntry i j v).manager = s.manager := rfl
@[simp] theorem State.setEntry_therms (s : State) (i j v : Nat) : (s.setEntry i j v).therms = s.therms := rfl
@[simp] theorem State.setEntry_channels (s : State) (i j v : Nat) : (s.setEntry i j v).channels = s.channels := rfl
@[simp] theorem State.setEntry_rowActs (s : State) (i j v : Nat) : (s.setEntry i j v).rowActs = s.rowActs := rfl
@[simp] theorem State.setEntry_damage (s : State) (i j v : Nat) : (s.setEntry i j v).damage = s.damage := rfl
@[simp] theorem State.setEntry_fixups (s : State) (i j v : Nat) : (s.setEntry i j v).fixups = s.fixups := rfl
@[simp] theorem State.setEntry_struck (s : State) (i j v : Nat) : (s.setEntry i j v).struck = s.struck := rfl
@[simp] theorem State.setEntry_memLog (s : State) (i j v : Nat) : (s.setEntry i j v).memLog = s.memLog := rfl
@[simp] theorem State.setEntry_tracer (s : State) (i j v : Nat) : (s.setEntry i j v).tracer = s.tracer := rfl
@[simp] theorem State.setEntry_keeper (s : State) (i j v : Nat) : (s.setEntry i j v).keeper = s.keeper := rfl
@[simp] theorem State.setEntry_boot (s : State) (i j v : Nat) : (s.setEntry i j v).boot = s.boot := rfl
@[simp] theorem State.setEntry_log (s : State) (i j v : Nat) : (s.setEntry i j v).log = s.log := rfl
@[simp] theorem State.setEntry_fieldOut (s : State) (i j v : Nat) : (s.setEntry i j v).fieldOut = s.fieldOut := rfl
@[simp] theorem State.setEntry_keeperUp (s : State) (i j v : Nat) : (s.setEntry i j v).keeperUp = s.keeperUp := rfl
@[simp] theorem State.setEntry_fieldUsable (s : State) (i j v : Nat) : (s.setEntry i j v).fieldUsable = s.fieldUsable := rfl
@[simp] theorem State.setEntry_refclk (s : State) (i j v : Nat) : (s.setEntry i j v).refclk = s.refclk := rfl
@[simp] theorem State.setEntry_blobs (s : State) (i j v : Nat) : (s.setEntry i j v).blobs = s.blobs := rfl
@[simp] theorem State.setEntry_quarantined (s : State) (i j v : Nat) : (s.setEntry i j v).quarantined = s.quarantined := rfl
@[simp] theorem State.setEntry_counters (s : State) (i j v : Nat) : (s.setEntry i j v).counters = s.counters := rfl
@[simp] theorem State.setEntry_rsvWrites (s : State) (i j v : Nat) : (s.setEntry i j v).rsvWrites = s.rsvWrites := rfl

@[simp] theorem State.count_pending (s : State) (off n : Nat) : (s.count off n).pending = s.pending := by unfold State.count; split <;> rfl
@[simp] theorem State.count_free (s : State) (off n : Nat) : (s.count off n).free = s.free := by unfold State.count; split <;> rfl
@[simp] theorem State.count_code (s : State) (off n : Nat) : (s.count off n).code = s.code := by unfold State.count; split <;> rfl
@[simp] theorem State.count_time (s : State) (off n : Nat) : (s.count off n).time = s.time := by unfold State.count; split <;> rfl
@[simp] theorem State.count_dram (s : State) (off n : Nat) : (s.count off n).dram = s.dram := by unfold State.count; split <;> rfl
@[simp] theorem State.count_cells (s : State) (off n : Nat) : (s.count off n).cells = s.cells := by unfold State.count; split <;> rfl
@[simp] theorem State.count_partitions (s : State) (off n : Nat) : (s.count off n).partitions = s.partitions := by unfold State.count; split <;> rfl
@[simp] theorem State.count_contexts (s : State) (off n : Nat) : (s.count off n).contexts = s.contexts := by unfold State.count; split <;> rfl
@[simp] theorem State.count_quarters (s : State) (off n : Nat) : (s.count off n).quarters = s.quarters := by unfold State.count; split <;> rfl
@[simp] theorem State.count_migration (s : State) (off n : Nat) : (s.count off n).migration = s.migration := by unfold State.count; split <;> rfl
@[simp] theorem State.count_images (s : State) (off n : Nat) : (s.count off n).images = s.images := by unfold State.count; split <;> rfl
@[simp] theorem State.count_nextImage (s : State) (off n : Nat) : (s.count off n).nextImage = s.nextImage := by unfold State.count; split <;> rfl
@[simp] theorem State.count_launches (s : State) (off n : Nat) : (s.count off n).launches = s.launches := by unfold State.count; split <;> rfl
@[simp] theorem State.count_nextLaunch (s : State) (off n : Nat) : (s.count off n).nextLaunch = s.nextLaunch := by unfold State.count; split <;> rfl
@[simp] theorem State.count_nextOrder (s : State) (off n : Nat) : (s.count off n).nextOrder = s.nextOrder := by unfold State.count; split <;> rfl
@[simp] theorem State.count_queues (s : State) (off n : Nat) : (s.count off n).queues = s.queues := by unfold State.count; split <;> rfl
@[simp] theorem State.count_admin (s : State) (off n : Nat) : (s.count off n).admin = s.admin := by unfold State.count; split <;> rfl
@[simp] theorem State.count_hostOut (s : State) (off n : Nat) : (s.count off n).hostOut = s.hostOut := by unfold State.count; split <;> rfl
@[simp] theorem State.count_host (s : State) (off n : Nat) : (s.count off n).host = s.host := by unfold State.count; split <;> rfl
@[simp] theorem State.count_regions (s : State) (off n : Nat) : (s.count off n).regions = s.regions := by unfold State.count; split <;> rfl
@[simp] theorem State.count_streamErr (s : State) (off n : Nat) : (s.count off n).streamErr = s.streamErr := by unfold State.count; split <;> rfl
@[simp] theorem State.count_tlbs (s : State) (off n : Nat) : (s.count off n).tlbs = s.tlbs := by unfold State.count; split <;> rfl
@[simp] theorem State.count_walks (s : State) (off n : Nat) : (s.count off n).walks = s.walks := by unfold State.count; split <;> rfl
@[simp] theorem State.count_walkCaches (s : State) (off n : Nat) : (s.count off n).walkCaches = s.walkCaches := by unfold State.count; split <;> rfl
@[simp] theorem State.count_collectors (s : State) (off n : Nat) : (s.count off n).collectors = s.collectors := by unfold State.count; split <;> rfl
@[simp] theorem State.count_drains (s : State) (off n : Nat) : (s.count off n).drains = s.drains := by unfold State.count; split <;> rfl
@[simp] theorem State.count_nextDrain (s : State) (off n : Nat) : (s.count off n).nextDrain = s.nextDrain := by unfold State.count; split <;> rfl
@[simp] theorem State.count_groups (s : State) (off n : Nat) : (s.count off n).groups = s.groups := by unfold State.count; split <;> rfl
@[simp] theorem State.count_nextHandle (s : State) (off n : Nat) : (s.count off n).nextHandle = s.nextHandle := by unfold State.count; split <;> rfl
@[simp] theorem State.count_tables (s : State) (off n : Nat) : (s.count off n).tables = s.tables := by unfold State.count; split <;> rfl
@[simp] theorem State.count_foragers (s : State) (off n : Nat) : (s.count off n).foragers = s.foragers := by unfold State.count; split <;> rfl
@[simp] theorem State.count_works (s : State) (off n : Nat) : (s.count off n).works = s.works := by unfold State.count; split <;> rfl
@[simp] theorem State.count_nextWork (s : State) (off n : Nat) : (s.count off n).nextWork = s.nextWork := by unfold State.count; split <;> rfl
@[simp] theorem State.count_staged (s : State) (off n : Nat) : (s.count off n).staged = s.staged := by unfold State.count; split <;> rfl
@[simp] theorem State.count_patches (s : State) (off n : Nat) : (s.count off n).patches = s.patches := by unfold State.count; split <;> rfl
@[simp] theorem State.count_committed (s : State) (off n : Nat) : (s.count off n).committed = s.committed := by unfold State.count; split <;> rfl
@[simp] theorem State.count_returns (s : State) (off n : Nat) : (s.count off n).returns = s.returns := by unfold State.count; split <;> rfl
@[simp] theorem State.count_nextReturn (s : State) (off n : Nat) : (s.count off n).nextReturn = s.nextReturn := by unfold State.count; split <;> rfl
@[simp] theorem State.count_fanStages (s : State) (off n : Nat) : (s.count off n).fanStages = s.fanStages := by unfold State.count; split <;> rfl
@[simp] theorem State.count_earlyReqs (s : State) (off n : Nat) : (s.count off n).earlyReqs = s.earlyReqs := by unfold State.count; split <;> rfl
@[simp] theorem State.count_spanWait (s : State) (off n : Nat) : (s.count off n).spanWait = s.spanWait := by unfold State.count; split <;> rfl
@[simp] theorem State.count_spanPort (s : State) (off n : Nat) : (s.count off n).spanPort = s.spanPort := by unfold State.count; split <;> rfl
@[simp] theorem State.count_fanned (s : State) (off n : Nat) : (s.count off n).fanned = s.fanned := by unfold State.count; split <;> rfl
@[simp] theorem State.count_windows (s : State) (off n : Nat) : (s.count off n).windows = s.windows := by unfold State.count; split <;> rfl
@[simp] theorem State.count_keyFails (s : State) (off n : Nat) : (s.count off n).keyFails = s.keyFails := by unfold State.count; split <;> rfl
@[simp] theorem State.count_imports (s : State) (off n : Nat) : (s.count off n).imports = s.imports := by unfold State.count; split <;> rfl
@[simp] theorem State.count_probes (s : State) (off n : Nat) : (s.count off n).probes = s.probes := by unfold State.count; split <;> rfl
@[simp] theorem State.count_nextTag (s : State) (off n : Nat) : (s.count off n).nextTag = s.nextTag := by unfold State.count; split <;> rfl
@[simp] theorem State.count_winReqs (s : State) (off n : Nat) : (s.count off n).winReqs = s.winReqs := by unfold State.count; split <;> rfl
@[simp] theorem State.count_fabricOut (s : State) (off n : Nat) : (s.count off n).fabricOut = s.fabricOut := by unfold State.count; split <;> rfl
@[simp] theorem State.count_wagglesOut (s : State) (off n : Nat) : (s.count off n).wagglesOut = s.wagglesOut := by unfold State.count; split <;> rfl
@[simp] theorem State.count_waggleSeq (s : State) (off n : Nat) : (s.count off n).waggleSeq = s.waggleSeq := by unfold State.count; split <;> rfl
@[simp] theorem State.count_waggleAt (s : State) (off n : Nat) : (s.count off n).waggleAt = s.waggleAt := by unfold State.count; split <;> rfl
@[simp] theorem State.count_ports (s : State) (off n : Nat) : (s.count off n).ports = s.ports := by unfold State.count; split <;> rfl
@[simp] theorem State.count_wire (s : State) (off n : Nat) : (s.count off n).wire = s.wire := by unfold State.count; split <;> rfl
@[simp] theorem State.count_delivered (s : State) (off n : Nat) : (s.count off n).delivered = s.delivered := by unfold State.count; split <;> rfl
@[simp] theorem State.count_filter (s : State) (off n : Nat) : (s.count off n).filter = s.filter := by unfold State.count; split <;> rfl
@[simp] theorem State.count_qps (s : State) (off n : Nat) : (s.count off n).qps = s.qps := by unfold State.count; split <;> rfl
@[simp] theorem State.count_ethOut (s : State) (off n : Nat) : (s.count off n).ethOut = s.ethOut := by unfold State.count; split <;> rfl
@[simp] theorem State.count_keyGens (s : State) (off n : Nat) : (s.count off n).keyGens = s.keyGens := by unfold State.count; split <;> rfl
@[simp] theorem State.count_tasters (s : State) (off n : Nat) : (s.count off n).tasters = s.tasters := by unfold State.count; split <;> rfl
@[simp] theorem State.count_nextTaster (s : State) (off n : Nat) : (s.count off n).nextTaster = s.nextTaster := by unfold State.count; split <;> rfl
@[simp] theorem State.count_health (s : State) (off n : Nat) : (s.count off n).health = s.health := by unfold State.count; split <;> rfl
@[simp] theorem State.count_replicas (s : State) (off n : Nat) : (s.count off n).replicas = s.replicas := by unfold State.count; split <;> rfl
@[simp] theorem State.count_power (s : State) (off n : Nat) : (s.count off n).power = s.power := by unfold State.count; split <;> rfl
@[simp] theorem State.count_manager (s : State) (off n : Nat) : (s.count off n).manager = s.manager := by unfold State.count; split <;> rfl
@[simp] theorem State.count_therms (s : State) (off n : Nat) : (s.count off n).therms = s.therms := by unfold State.count; split <;> rfl
@[simp] theorem State.count_channels (s : State) (off n : Nat) : (s.count off n).channels = s.channels := by unfold State.count; split <;> rfl
@[simp] theorem State.count_rowActs (s : State) (off n : Nat) : (s.count off n).rowActs = s.rowActs := by unfold State.count; split <;> rfl
@[simp] theorem State.count_damage (s : State) (off n : Nat) : (s.count off n).damage = s.damage := by unfold State.count; split <;> rfl
@[simp] theorem State.count_fixups (s : State) (off n : Nat) : (s.count off n).fixups = s.fixups := by unfold State.count; split <;> rfl
@[simp] theorem State.count_struck (s : State) (off n : Nat) : (s.count off n).struck = s.struck := by unfold State.count; split <;> rfl
@[simp] theorem State.count_memLog (s : State) (off n : Nat) : (s.count off n).memLog = s.memLog := by unfold State.count; split <;> rfl
@[simp] theorem State.count_tracer (s : State) (off n : Nat) : (s.count off n).tracer = s.tracer := by unfold State.count; split <;> rfl
@[simp] theorem State.count_keeper (s : State) (off n : Nat) : (s.count off n).keeper = s.keeper := by unfold State.count; split <;> rfl
@[simp] theorem State.count_boot (s : State) (off n : Nat) : (s.count off n).boot = s.boot := by unfold State.count; split <;> rfl
@[simp] theorem State.count_log (s : State) (off n : Nat) : (s.count off n).log = s.log := by unfold State.count; split <;> rfl
@[simp] theorem State.count_fieldOut (s : State) (off n : Nat) : (s.count off n).fieldOut = s.fieldOut := by unfold State.count; split <;> rfl
@[simp] theorem State.count_keeperUp (s : State) (off n : Nat) : (s.count off n).keeperUp = s.keeperUp := by unfold State.count; split <;> rfl
@[simp] theorem State.count_fieldUsable (s : State) (off n : Nat) : (s.count off n).fieldUsable = s.fieldUsable := by unfold State.count; split <;> rfl
@[simp] theorem State.count_refclk (s : State) (off n : Nat) : (s.count off n).refclk = s.refclk := by unfold State.count; split <;> rfl
@[simp] theorem State.count_blobs (s : State) (off n : Nat) : (s.count off n).blobs = s.blobs := by unfold State.count; split <;> rfl
@[simp] theorem State.count_quarantined (s : State) (off n : Nat) : (s.count off n).quarantined = s.quarantined := by unfold State.count; split <;> rfl
@[simp] theorem State.count_dict (s : State) (off n : Nat) : (s.count off n).dict = s.dict := by unfold State.count; split <;> rfl
@[simp] theorem State.count_rsvWrites (s : State) (off n : Nat) : (s.count off n).rsvWrites = s.rsvWrites := by unfold State.count; split <;> rfl

@[simp] theorem State.countFull_pending (s : State) (off n : Nat) : (s.countFull off n).pending = s.pending := by unfold State.countFull; split <;> simp
@[simp] theorem State.countFull_free (s : State) (off n : Nat) : (s.countFull off n).free = s.free := by unfold State.countFull; split <;> simp
@[simp] theorem State.countFull_code (s : State) (off n : Nat) : (s.countFull off n).code = s.code := by unfold State.countFull; split <;> simp
@[simp] theorem State.countFull_time (s : State) (off n : Nat) : (s.countFull off n).time = s.time := by unfold State.countFull; split <;> simp
@[simp] theorem State.countFull_dram (s : State) (off n : Nat) : (s.countFull off n).dram = s.dram := by unfold State.countFull; split <;> simp
@[simp] theorem State.countFull_cells (s : State) (off n : Nat) : (s.countFull off n).cells = s.cells := by unfold State.countFull; split <;> simp
@[simp] theorem State.countFull_partitions (s : State) (off n : Nat) : (s.countFull off n).partitions = s.partitions := by unfold State.countFull; split <;> simp
@[simp] theorem State.countFull_contexts (s : State) (off n : Nat) : (s.countFull off n).contexts = s.contexts := by unfold State.countFull; split <;> simp
@[simp] theorem State.countFull_quarters (s : State) (off n : Nat) : (s.countFull off n).quarters = s.quarters := by unfold State.countFull; split <;> simp
@[simp] theorem State.countFull_migration (s : State) (off n : Nat) : (s.countFull off n).migration = s.migration := by unfold State.countFull; split <;> simp
@[simp] theorem State.countFull_images (s : State) (off n : Nat) : (s.countFull off n).images = s.images := by unfold State.countFull; split <;> simp
@[simp] theorem State.countFull_nextImage (s : State) (off n : Nat) : (s.countFull off n).nextImage = s.nextImage := by unfold State.countFull; split <;> simp
@[simp] theorem State.countFull_launches (s : State) (off n : Nat) : (s.countFull off n).launches = s.launches := by unfold State.countFull; split <;> simp
@[simp] theorem State.countFull_nextLaunch (s : State) (off n : Nat) : (s.countFull off n).nextLaunch = s.nextLaunch := by unfold State.countFull; split <;> simp
@[simp] theorem State.countFull_nextOrder (s : State) (off n : Nat) : (s.countFull off n).nextOrder = s.nextOrder := by unfold State.countFull; split <;> simp
@[simp] theorem State.countFull_queues (s : State) (off n : Nat) : (s.countFull off n).queues = s.queues := by unfold State.countFull; split <;> simp
@[simp] theorem State.countFull_admin (s : State) (off n : Nat) : (s.countFull off n).admin = s.admin := by unfold State.countFull; split <;> simp
@[simp] theorem State.countFull_hostOut (s : State) (off n : Nat) : (s.countFull off n).hostOut = s.hostOut := by unfold State.countFull; split <;> simp
@[simp] theorem State.countFull_host (s : State) (off n : Nat) : (s.countFull off n).host = s.host := by unfold State.countFull; split <;> simp
@[simp] theorem State.countFull_regions (s : State) (off n : Nat) : (s.countFull off n).regions = s.regions := by unfold State.countFull; split <;> simp
@[simp] theorem State.countFull_streamErr (s : State) (off n : Nat) : (s.countFull off n).streamErr = s.streamErr := by unfold State.countFull; split <;> simp
@[simp] theorem State.countFull_tlbs (s : State) (off n : Nat) : (s.countFull off n).tlbs = s.tlbs := by unfold State.countFull; split <;> simp
@[simp] theorem State.countFull_walks (s : State) (off n : Nat) : (s.countFull off n).walks = s.walks := by unfold State.countFull; split <;> simp
@[simp] theorem State.countFull_walkCaches (s : State) (off n : Nat) : (s.countFull off n).walkCaches = s.walkCaches := by unfold State.countFull; split <;> simp
@[simp] theorem State.countFull_collectors (s : State) (off n : Nat) : (s.countFull off n).collectors = s.collectors := by unfold State.countFull; split <;> simp
@[simp] theorem State.countFull_drains (s : State) (off n : Nat) : (s.countFull off n).drains = s.drains := by unfold State.countFull; split <;> simp
@[simp] theorem State.countFull_nextDrain (s : State) (off n : Nat) : (s.countFull off n).nextDrain = s.nextDrain := by unfold State.countFull; split <;> simp
@[simp] theorem State.countFull_groups (s : State) (off n : Nat) : (s.countFull off n).groups = s.groups := by unfold State.countFull; split <;> simp
@[simp] theorem State.countFull_nextHandle (s : State) (off n : Nat) : (s.countFull off n).nextHandle = s.nextHandle := by unfold State.countFull; split <;> simp
@[simp] theorem State.countFull_tables (s : State) (off n : Nat) : (s.countFull off n).tables = s.tables := by unfold State.countFull; split <;> simp
@[simp] theorem State.countFull_foragers (s : State) (off n : Nat) : (s.countFull off n).foragers = s.foragers := by unfold State.countFull; split <;> simp
@[simp] theorem State.countFull_works (s : State) (off n : Nat) : (s.countFull off n).works = s.works := by unfold State.countFull; split <;> simp
@[simp] theorem State.countFull_nextWork (s : State) (off n : Nat) : (s.countFull off n).nextWork = s.nextWork := by unfold State.countFull; split <;> simp
@[simp] theorem State.countFull_staged (s : State) (off n : Nat) : (s.countFull off n).staged = s.staged := by unfold State.countFull; split <;> simp
@[simp] theorem State.countFull_patches (s : State) (off n : Nat) : (s.countFull off n).patches = s.patches := by unfold State.countFull; split <;> simp
@[simp] theorem State.countFull_committed (s : State) (off n : Nat) : (s.countFull off n).committed = s.committed := by unfold State.countFull; split <;> simp
@[simp] theorem State.countFull_returns (s : State) (off n : Nat) : (s.countFull off n).returns = s.returns := by unfold State.countFull; split <;> simp
@[simp] theorem State.countFull_nextReturn (s : State) (off n : Nat) : (s.countFull off n).nextReturn = s.nextReturn := by unfold State.countFull; split <;> simp
@[simp] theorem State.countFull_fanStages (s : State) (off n : Nat) : (s.countFull off n).fanStages = s.fanStages := by unfold State.countFull; split <;> simp
@[simp] theorem State.countFull_earlyReqs (s : State) (off n : Nat) : (s.countFull off n).earlyReqs = s.earlyReqs := by unfold State.countFull; split <;> simp
@[simp] theorem State.countFull_spanWait (s : State) (off n : Nat) : (s.countFull off n).spanWait = s.spanWait := by unfold State.countFull; split <;> simp
@[simp] theorem State.countFull_spanPort (s : State) (off n : Nat) : (s.countFull off n).spanPort = s.spanPort := by unfold State.countFull; split <;> simp
@[simp] theorem State.countFull_fanned (s : State) (off n : Nat) : (s.countFull off n).fanned = s.fanned := by unfold State.countFull; split <;> simp
@[simp] theorem State.countFull_windows (s : State) (off n : Nat) : (s.countFull off n).windows = s.windows := by unfold State.countFull; split <;> simp
@[simp] theorem State.countFull_keyFails (s : State) (off n : Nat) : (s.countFull off n).keyFails = s.keyFails := by unfold State.countFull; split <;> simp
@[simp] theorem State.countFull_imports (s : State) (off n : Nat) : (s.countFull off n).imports = s.imports := by unfold State.countFull; split <;> simp
@[simp] theorem State.countFull_probes (s : State) (off n : Nat) : (s.countFull off n).probes = s.probes := by unfold State.countFull; split <;> simp
@[simp] theorem State.countFull_nextTag (s : State) (off n : Nat) : (s.countFull off n).nextTag = s.nextTag := by unfold State.countFull; split <;> simp
@[simp] theorem State.countFull_winReqs (s : State) (off n : Nat) : (s.countFull off n).winReqs = s.winReqs := by unfold State.countFull; split <;> simp
@[simp] theorem State.countFull_fabricOut (s : State) (off n : Nat) : (s.countFull off n).fabricOut = s.fabricOut := by unfold State.countFull; split <;> simp
@[simp] theorem State.countFull_wagglesOut (s : State) (off n : Nat) : (s.countFull off n).wagglesOut = s.wagglesOut := by unfold State.countFull; split <;> simp
@[simp] theorem State.countFull_waggleSeq (s : State) (off n : Nat) : (s.countFull off n).waggleSeq = s.waggleSeq := by unfold State.countFull; split <;> simp
@[simp] theorem State.countFull_waggleAt (s : State) (off n : Nat) : (s.countFull off n).waggleAt = s.waggleAt := by unfold State.countFull; split <;> simp
@[simp] theorem State.countFull_ports (s : State) (off n : Nat) : (s.countFull off n).ports = s.ports := by unfold State.countFull; split <;> simp
@[simp] theorem State.countFull_wire (s : State) (off n : Nat) : (s.countFull off n).wire = s.wire := by unfold State.countFull; split <;> simp
@[simp] theorem State.countFull_delivered (s : State) (off n : Nat) : (s.countFull off n).delivered = s.delivered := by unfold State.countFull; split <;> simp
@[simp] theorem State.countFull_filter (s : State) (off n : Nat) : (s.countFull off n).filter = s.filter := by unfold State.countFull; split <;> simp
@[simp] theorem State.countFull_qps (s : State) (off n : Nat) : (s.countFull off n).qps = s.qps := by unfold State.countFull; split <;> simp
@[simp] theorem State.countFull_ethOut (s : State) (off n : Nat) : (s.countFull off n).ethOut = s.ethOut := by unfold State.countFull; split <;> simp
@[simp] theorem State.countFull_keyGens (s : State) (off n : Nat) : (s.countFull off n).keyGens = s.keyGens := by unfold State.countFull; split <;> simp
@[simp] theorem State.countFull_tasters (s : State) (off n : Nat) : (s.countFull off n).tasters = s.tasters := by unfold State.countFull; split <;> simp
@[simp] theorem State.countFull_nextTaster (s : State) (off n : Nat) : (s.countFull off n).nextTaster = s.nextTaster := by unfold State.countFull; split <;> simp
@[simp] theorem State.countFull_health (s : State) (off n : Nat) : (s.countFull off n).health = s.health := by unfold State.countFull; split <;> simp
@[simp] theorem State.countFull_replicas (s : State) (off n : Nat) : (s.countFull off n).replicas = s.replicas := by unfold State.countFull; split <;> simp
@[simp] theorem State.countFull_power (s : State) (off n : Nat) : (s.countFull off n).power = s.power := by unfold State.countFull; split <;> simp
@[simp] theorem State.countFull_manager (s : State) (off n : Nat) : (s.countFull off n).manager = s.manager := by unfold State.countFull; split <;> simp
@[simp] theorem State.countFull_therms (s : State) (off n : Nat) : (s.countFull off n).therms = s.therms := by unfold State.countFull; split <;> simp
@[simp] theorem State.countFull_channels (s : State) (off n : Nat) : (s.countFull off n).channels = s.channels := by unfold State.countFull; split <;> simp
@[simp] theorem State.countFull_rowActs (s : State) (off n : Nat) : (s.countFull off n).rowActs = s.rowActs := by unfold State.countFull; split <;> simp
@[simp] theorem State.countFull_damage (s : State) (off n : Nat) : (s.countFull off n).damage = s.damage := by unfold State.countFull; split <;> simp
@[simp] theorem State.countFull_fixups (s : State) (off n : Nat) : (s.countFull off n).fixups = s.fixups := by unfold State.countFull; split <;> simp
@[simp] theorem State.countFull_struck (s : State) (off n : Nat) : (s.countFull off n).struck = s.struck := by unfold State.countFull; split <;> simp
@[simp] theorem State.countFull_memLog (s : State) (off n : Nat) : (s.countFull off n).memLog = s.memLog := by unfold State.countFull; split <;> simp
@[simp] theorem State.countFull_tracer (s : State) (off n : Nat) : (s.countFull off n).tracer = s.tracer := by unfold State.countFull; split <;> simp
@[simp] theorem State.countFull_keeper (s : State) (off n : Nat) : (s.countFull off n).keeper = s.keeper := by unfold State.countFull; split <;> simp
@[simp] theorem State.countFull_boot (s : State) (off n : Nat) : (s.countFull off n).boot = s.boot := by unfold State.countFull; split <;> simp
@[simp] theorem State.countFull_log (s : State) (off n : Nat) : (s.countFull off n).log = s.log := by unfold State.countFull; split <;> simp
@[simp] theorem State.countFull_fieldOut (s : State) (off n : Nat) : (s.countFull off n).fieldOut = s.fieldOut := by unfold State.countFull; split <;> simp
@[simp] theorem State.countFull_keeperUp (s : State) (off n : Nat) : (s.countFull off n).keeperUp = s.keeperUp := by unfold State.countFull; split <;> simp
@[simp] theorem State.countFull_fieldUsable (s : State) (off n : Nat) : (s.countFull off n).fieldUsable = s.fieldUsable := by unfold State.countFull; split <;> simp
@[simp] theorem State.countFull_refclk (s : State) (off n : Nat) : (s.countFull off n).refclk = s.refclk := by unfold State.countFull; split <;> simp
@[simp] theorem State.countFull_blobs (s : State) (off n : Nat) : (s.countFull off n).blobs = s.blobs := by unfold State.countFull; split <;> simp
@[simp] theorem State.countFull_quarantined (s : State) (off n : Nat) : (s.countFull off n).quarantined = s.quarantined := by unfold State.countFull; split <;> simp
@[simp] theorem State.countFull_dict (s : State) (off n : Nat) : (s.countFull off n).dict = s.dict := by unfold State.countFull; split <;> simp
@[simp] theorem State.countFull_rsvWrites (s : State) (off n : Nat) : (s.countFull off n).rsvWrites = s.rsvWrites := by unfold State.countFull; split <;> simp

@[simp] theorem State.bump_pending (s : State) (i j n : Nat) : (s.bump i j n).pending = s.pending := by unfold State.bump; cases alwaysOf i <;> cases fullOf i j <;> simp
@[simp] theorem State.bump_free (s : State) (i j n : Nat) : (s.bump i j n).free = s.free := by unfold State.bump; cases alwaysOf i <;> cases fullOf i j <;> simp
@[simp] theorem State.bump_code (s : State) (i j n : Nat) : (s.bump i j n).code = s.code := by unfold State.bump; cases alwaysOf i <;> cases fullOf i j <;> simp
@[simp] theorem State.bump_time (s : State) (i j n : Nat) : (s.bump i j n).time = s.time := by unfold State.bump; cases alwaysOf i <;> cases fullOf i j <;> simp
@[simp] theorem State.bump_dram (s : State) (i j n : Nat) : (s.bump i j n).dram = s.dram := by unfold State.bump; cases alwaysOf i <;> cases fullOf i j <;> simp
@[simp] theorem State.bump_cells (s : State) (i j n : Nat) : (s.bump i j n).cells = s.cells := by unfold State.bump; cases alwaysOf i <;> cases fullOf i j <;> simp
@[simp] theorem State.bump_partitions (s : State) (i j n : Nat) : (s.bump i j n).partitions = s.partitions := by unfold State.bump; cases alwaysOf i <;> cases fullOf i j <;> simp
@[simp] theorem State.bump_contexts (s : State) (i j n : Nat) : (s.bump i j n).contexts = s.contexts := by unfold State.bump; cases alwaysOf i <;> cases fullOf i j <;> simp
@[simp] theorem State.bump_quarters (s : State) (i j n : Nat) : (s.bump i j n).quarters = s.quarters := by unfold State.bump; cases alwaysOf i <;> cases fullOf i j <;> simp
@[simp] theorem State.bump_migration (s : State) (i j n : Nat) : (s.bump i j n).migration = s.migration := by unfold State.bump; cases alwaysOf i <;> cases fullOf i j <;> simp
@[simp] theorem State.bump_images (s : State) (i j n : Nat) : (s.bump i j n).images = s.images := by unfold State.bump; cases alwaysOf i <;> cases fullOf i j <;> simp
@[simp] theorem State.bump_nextImage (s : State) (i j n : Nat) : (s.bump i j n).nextImage = s.nextImage := by unfold State.bump; cases alwaysOf i <;> cases fullOf i j <;> simp
@[simp] theorem State.bump_launches (s : State) (i j n : Nat) : (s.bump i j n).launches = s.launches := by unfold State.bump; cases alwaysOf i <;> cases fullOf i j <;> simp
@[simp] theorem State.bump_nextLaunch (s : State) (i j n : Nat) : (s.bump i j n).nextLaunch = s.nextLaunch := by unfold State.bump; cases alwaysOf i <;> cases fullOf i j <;> simp
@[simp] theorem State.bump_nextOrder (s : State) (i j n : Nat) : (s.bump i j n).nextOrder = s.nextOrder := by unfold State.bump; cases alwaysOf i <;> cases fullOf i j <;> simp
@[simp] theorem State.bump_queues (s : State) (i j n : Nat) : (s.bump i j n).queues = s.queues := by unfold State.bump; cases alwaysOf i <;> cases fullOf i j <;> simp
@[simp] theorem State.bump_admin (s : State) (i j n : Nat) : (s.bump i j n).admin = s.admin := by unfold State.bump; cases alwaysOf i <;> cases fullOf i j <;> simp
@[simp] theorem State.bump_hostOut (s : State) (i j n : Nat) : (s.bump i j n).hostOut = s.hostOut := by unfold State.bump; cases alwaysOf i <;> cases fullOf i j <;> simp
@[simp] theorem State.bump_host (s : State) (i j n : Nat) : (s.bump i j n).host = s.host := by unfold State.bump; cases alwaysOf i <;> cases fullOf i j <;> simp
@[simp] theorem State.bump_regions (s : State) (i j n : Nat) : (s.bump i j n).regions = s.regions := by unfold State.bump; cases alwaysOf i <;> cases fullOf i j <;> simp
@[simp] theorem State.bump_streamErr (s : State) (i j n : Nat) : (s.bump i j n).streamErr = s.streamErr := by unfold State.bump; cases alwaysOf i <;> cases fullOf i j <;> simp
@[simp] theorem State.bump_tlbs (s : State) (i j n : Nat) : (s.bump i j n).tlbs = s.tlbs := by unfold State.bump; cases alwaysOf i <;> cases fullOf i j <;> simp
@[simp] theorem State.bump_walks (s : State) (i j n : Nat) : (s.bump i j n).walks = s.walks := by unfold State.bump; cases alwaysOf i <;> cases fullOf i j <;> simp
@[simp] theorem State.bump_walkCaches (s : State) (i j n : Nat) : (s.bump i j n).walkCaches = s.walkCaches := by unfold State.bump; cases alwaysOf i <;> cases fullOf i j <;> simp
@[simp] theorem State.bump_collectors (s : State) (i j n : Nat) : (s.bump i j n).collectors = s.collectors := by unfold State.bump; cases alwaysOf i <;> cases fullOf i j <;> simp
@[simp] theorem State.bump_drains (s : State) (i j n : Nat) : (s.bump i j n).drains = s.drains := by unfold State.bump; cases alwaysOf i <;> cases fullOf i j <;> simp
@[simp] theorem State.bump_nextDrain (s : State) (i j n : Nat) : (s.bump i j n).nextDrain = s.nextDrain := by unfold State.bump; cases alwaysOf i <;> cases fullOf i j <;> simp
@[simp] theorem State.bump_groups (s : State) (i j n : Nat) : (s.bump i j n).groups = s.groups := by unfold State.bump; cases alwaysOf i <;> cases fullOf i j <;> simp
@[simp] theorem State.bump_nextHandle (s : State) (i j n : Nat) : (s.bump i j n).nextHandle = s.nextHandle := by unfold State.bump; cases alwaysOf i <;> cases fullOf i j <;> simp
@[simp] theorem State.bump_tables (s : State) (i j n : Nat) : (s.bump i j n).tables = s.tables := by unfold State.bump; cases alwaysOf i <;> cases fullOf i j <;> simp
@[simp] theorem State.bump_foragers (s : State) (i j n : Nat) : (s.bump i j n).foragers = s.foragers := by unfold State.bump; cases alwaysOf i <;> cases fullOf i j <;> simp
@[simp] theorem State.bump_works (s : State) (i j n : Nat) : (s.bump i j n).works = s.works := by unfold State.bump; cases alwaysOf i <;> cases fullOf i j <;> simp
@[simp] theorem State.bump_nextWork (s : State) (i j n : Nat) : (s.bump i j n).nextWork = s.nextWork := by unfold State.bump; cases alwaysOf i <;> cases fullOf i j <;> simp
@[simp] theorem State.bump_staged (s : State) (i j n : Nat) : (s.bump i j n).staged = s.staged := by unfold State.bump; cases alwaysOf i <;> cases fullOf i j <;> simp
@[simp] theorem State.bump_patches (s : State) (i j n : Nat) : (s.bump i j n).patches = s.patches := by unfold State.bump; cases alwaysOf i <;> cases fullOf i j <;> simp
@[simp] theorem State.bump_committed (s : State) (i j n : Nat) : (s.bump i j n).committed = s.committed := by unfold State.bump; cases alwaysOf i <;> cases fullOf i j <;> simp
@[simp] theorem State.bump_returns (s : State) (i j n : Nat) : (s.bump i j n).returns = s.returns := by unfold State.bump; cases alwaysOf i <;> cases fullOf i j <;> simp
@[simp] theorem State.bump_nextReturn (s : State) (i j n : Nat) : (s.bump i j n).nextReturn = s.nextReturn := by unfold State.bump; cases alwaysOf i <;> cases fullOf i j <;> simp
@[simp] theorem State.bump_fanStages (s : State) (i j n : Nat) : (s.bump i j n).fanStages = s.fanStages := by unfold State.bump; cases alwaysOf i <;> cases fullOf i j <;> simp
@[simp] theorem State.bump_earlyReqs (s : State) (i j n : Nat) : (s.bump i j n).earlyReqs = s.earlyReqs := by unfold State.bump; cases alwaysOf i <;> cases fullOf i j <;> simp
@[simp] theorem State.bump_spanWait (s : State) (i j n : Nat) : (s.bump i j n).spanWait = s.spanWait := by unfold State.bump; cases alwaysOf i <;> cases fullOf i j <;> simp
@[simp] theorem State.bump_spanPort (s : State) (i j n : Nat) : (s.bump i j n).spanPort = s.spanPort := by unfold State.bump; cases alwaysOf i <;> cases fullOf i j <;> simp
@[simp] theorem State.bump_fanned (s : State) (i j n : Nat) : (s.bump i j n).fanned = s.fanned := by unfold State.bump; cases alwaysOf i <;> cases fullOf i j <;> simp
@[simp] theorem State.bump_windows (s : State) (i j n : Nat) : (s.bump i j n).windows = s.windows := by unfold State.bump; cases alwaysOf i <;> cases fullOf i j <;> simp
@[simp] theorem State.bump_keyFails (s : State) (i j n : Nat) : (s.bump i j n).keyFails = s.keyFails := by unfold State.bump; cases alwaysOf i <;> cases fullOf i j <;> simp
@[simp] theorem State.bump_imports (s : State) (i j n : Nat) : (s.bump i j n).imports = s.imports := by unfold State.bump; cases alwaysOf i <;> cases fullOf i j <;> simp
@[simp] theorem State.bump_probes (s : State) (i j n : Nat) : (s.bump i j n).probes = s.probes := by unfold State.bump; cases alwaysOf i <;> cases fullOf i j <;> simp
@[simp] theorem State.bump_nextTag (s : State) (i j n : Nat) : (s.bump i j n).nextTag = s.nextTag := by unfold State.bump; cases alwaysOf i <;> cases fullOf i j <;> simp
@[simp] theorem State.bump_winReqs (s : State) (i j n : Nat) : (s.bump i j n).winReqs = s.winReqs := by unfold State.bump; cases alwaysOf i <;> cases fullOf i j <;> simp
@[simp] theorem State.bump_fabricOut (s : State) (i j n : Nat) : (s.bump i j n).fabricOut = s.fabricOut := by unfold State.bump; cases alwaysOf i <;> cases fullOf i j <;> simp
@[simp] theorem State.bump_wagglesOut (s : State) (i j n : Nat) : (s.bump i j n).wagglesOut = s.wagglesOut := by unfold State.bump; cases alwaysOf i <;> cases fullOf i j <;> simp
@[simp] theorem State.bump_waggleSeq (s : State) (i j n : Nat) : (s.bump i j n).waggleSeq = s.waggleSeq := by unfold State.bump; cases alwaysOf i <;> cases fullOf i j <;> simp
@[simp] theorem State.bump_waggleAt (s : State) (i j n : Nat) : (s.bump i j n).waggleAt = s.waggleAt := by unfold State.bump; cases alwaysOf i <;> cases fullOf i j <;> simp
@[simp] theorem State.bump_ports (s : State) (i j n : Nat) : (s.bump i j n).ports = s.ports := by unfold State.bump; cases alwaysOf i <;> cases fullOf i j <;> simp
@[simp] theorem State.bump_wire (s : State) (i j n : Nat) : (s.bump i j n).wire = s.wire := by unfold State.bump; cases alwaysOf i <;> cases fullOf i j <;> simp
@[simp] theorem State.bump_delivered (s : State) (i j n : Nat) : (s.bump i j n).delivered = s.delivered := by unfold State.bump; cases alwaysOf i <;> cases fullOf i j <;> simp
@[simp] theorem State.bump_filter (s : State) (i j n : Nat) : (s.bump i j n).filter = s.filter := by unfold State.bump; cases alwaysOf i <;> cases fullOf i j <;> simp
@[simp] theorem State.bump_qps (s : State) (i j n : Nat) : (s.bump i j n).qps = s.qps := by unfold State.bump; cases alwaysOf i <;> cases fullOf i j <;> simp
@[simp] theorem State.bump_ethOut (s : State) (i j n : Nat) : (s.bump i j n).ethOut = s.ethOut := by unfold State.bump; cases alwaysOf i <;> cases fullOf i j <;> simp
@[simp] theorem State.bump_keyGens (s : State) (i j n : Nat) : (s.bump i j n).keyGens = s.keyGens := by unfold State.bump; cases alwaysOf i <;> cases fullOf i j <;> simp
@[simp] theorem State.bump_tasters (s : State) (i j n : Nat) : (s.bump i j n).tasters = s.tasters := by unfold State.bump; cases alwaysOf i <;> cases fullOf i j <;> simp
@[simp] theorem State.bump_nextTaster (s : State) (i j n : Nat) : (s.bump i j n).nextTaster = s.nextTaster := by unfold State.bump; cases alwaysOf i <;> cases fullOf i j <;> simp
@[simp] theorem State.bump_health (s : State) (i j n : Nat) : (s.bump i j n).health = s.health := by unfold State.bump; cases alwaysOf i <;> cases fullOf i j <;> simp
@[simp] theorem State.bump_replicas (s : State) (i j n : Nat) : (s.bump i j n).replicas = s.replicas := by unfold State.bump; cases alwaysOf i <;> cases fullOf i j <;> simp
@[simp] theorem State.bump_power (s : State) (i j n : Nat) : (s.bump i j n).power = s.power := by unfold State.bump; cases alwaysOf i <;> cases fullOf i j <;> simp
@[simp] theorem State.bump_manager (s : State) (i j n : Nat) : (s.bump i j n).manager = s.manager := by unfold State.bump; cases alwaysOf i <;> cases fullOf i j <;> simp
@[simp] theorem State.bump_therms (s : State) (i j n : Nat) : (s.bump i j n).therms = s.therms := by unfold State.bump; cases alwaysOf i <;> cases fullOf i j <;> simp
@[simp] theorem State.bump_channels (s : State) (i j n : Nat) : (s.bump i j n).channels = s.channels := by unfold State.bump; cases alwaysOf i <;> cases fullOf i j <;> simp
@[simp] theorem State.bump_rowActs (s : State) (i j n : Nat) : (s.bump i j n).rowActs = s.rowActs := by unfold State.bump; cases alwaysOf i <;> cases fullOf i j <;> simp
@[simp] theorem State.bump_damage (s : State) (i j n : Nat) : (s.bump i j n).damage = s.damage := by unfold State.bump; cases alwaysOf i <;> cases fullOf i j <;> simp
@[simp] theorem State.bump_fixups (s : State) (i j n : Nat) : (s.bump i j n).fixups = s.fixups := by unfold State.bump; cases alwaysOf i <;> cases fullOf i j <;> simp
@[simp] theorem State.bump_struck (s : State) (i j n : Nat) : (s.bump i j n).struck = s.struck := by unfold State.bump; cases alwaysOf i <;> cases fullOf i j <;> simp
@[simp] theorem State.bump_memLog (s : State) (i j n : Nat) : (s.bump i j n).memLog = s.memLog := by unfold State.bump; cases alwaysOf i <;> cases fullOf i j <;> simp
@[simp] theorem State.bump_tracer (s : State) (i j n : Nat) : (s.bump i j n).tracer = s.tracer := by unfold State.bump; cases alwaysOf i <;> cases fullOf i j <;> simp
@[simp] theorem State.bump_keeper (s : State) (i j n : Nat) : (s.bump i j n).keeper = s.keeper := by unfold State.bump; cases alwaysOf i <;> cases fullOf i j <;> simp
@[simp] theorem State.bump_boot (s : State) (i j n : Nat) : (s.bump i j n).boot = s.boot := by unfold State.bump; cases alwaysOf i <;> cases fullOf i j <;> simp
@[simp] theorem State.bump_log (s : State) (i j n : Nat) : (s.bump i j n).log = s.log := by unfold State.bump; cases alwaysOf i <;> cases fullOf i j <;> simp
@[simp] theorem State.bump_fieldOut (s : State) (i j n : Nat) : (s.bump i j n).fieldOut = s.fieldOut := by unfold State.bump; cases alwaysOf i <;> cases fullOf i j <;> simp
@[simp] theorem State.bump_keeperUp (s : State) (i j n : Nat) : (s.bump i j n).keeperUp = s.keeperUp := by unfold State.bump; cases alwaysOf i <;> cases fullOf i j <;> simp
@[simp] theorem State.bump_fieldUsable (s : State) (i j n : Nat) : (s.bump i j n).fieldUsable = s.fieldUsable := by unfold State.bump; cases alwaysOf i <;> cases fullOf i j <;> simp
@[simp] theorem State.bump_refclk (s : State) (i j n : Nat) : (s.bump i j n).refclk = s.refclk := by unfold State.bump; cases alwaysOf i <;> cases fullOf i j <;> simp
@[simp] theorem State.bump_blobs (s : State) (i j n : Nat) : (s.bump i j n).blobs = s.blobs := by unfold State.bump; cases alwaysOf i <;> cases fullOf i j <;> simp
@[simp] theorem State.bump_quarantined (s : State) (i j n : Nat) : (s.bump i j n).quarantined = s.quarantined := by unfold State.bump; cases alwaysOf i <;> cases fullOf i j <;> simp
@[simp] theorem State.bump_rsvWrites (s : State) (i j n : Nat) : (s.bump i j n).rsvWrites = s.rsvWrites := by unfold State.bump; cases alwaysOf i <;> cases fullOf i j <;> simp

@[simp] theorem keepQueue_free (s t : State) : (keepQueue s t).free = t.free := rfl
@[simp] theorem keepQueue_dram (s t : State) : (keepQueue s t).dram = t.dram := rfl
@[simp] theorem keepQueue_cells (s t : State) : (keepQueue s t).cells = t.cells := rfl
@[simp] theorem keepQueue_partitions (s t : State) : (keepQueue s t).partitions = t.partitions := rfl
@[simp] theorem keepQueue_contexts (s t : State) : (keepQueue s t).contexts = t.contexts := rfl
@[simp] theorem keepQueue_quarters (s t : State) : (keepQueue s t).quarters = t.quarters := rfl
@[simp] theorem keepQueue_migration (s t : State) : (keepQueue s t).migration = t.migration := rfl
@[simp] theorem keepQueue_images (s t : State) : (keepQueue s t).images = t.images := rfl
@[simp] theorem keepQueue_nextImage (s t : State) : (keepQueue s t).nextImage = t.nextImage := rfl
@[simp] theorem keepQueue_launches (s t : State) : (keepQueue s t).launches = t.launches := rfl
@[simp] theorem keepQueue_nextLaunch (s t : State) : (keepQueue s t).nextLaunch = t.nextLaunch := rfl
@[simp] theorem keepQueue_nextOrder (s t : State) : (keepQueue s t).nextOrder = t.nextOrder := rfl
@[simp] theorem keepQueue_queues (s t : State) : (keepQueue s t).queues = t.queues := rfl
@[simp] theorem keepQueue_admin (s t : State) : (keepQueue s t).admin = t.admin := rfl
@[simp] theorem keepQueue_hostOut (s t : State) : (keepQueue s t).hostOut = t.hostOut := rfl
@[simp] theorem keepQueue_host (s t : State) : (keepQueue s t).host = t.host := rfl
@[simp] theorem keepQueue_regions (s t : State) : (keepQueue s t).regions = t.regions := rfl
@[simp] theorem keepQueue_streamErr (s t : State) : (keepQueue s t).streamErr = t.streamErr := rfl
@[simp] theorem keepQueue_tlbs (s t : State) : (keepQueue s t).tlbs = t.tlbs := rfl
@[simp] theorem keepQueue_walks (s t : State) : (keepQueue s t).walks = t.walks := rfl
@[simp] theorem keepQueue_walkCaches (s t : State) : (keepQueue s t).walkCaches = t.walkCaches := rfl
@[simp] theorem keepQueue_collectors (s t : State) : (keepQueue s t).collectors = t.collectors := rfl
@[simp] theorem keepQueue_drains (s t : State) : (keepQueue s t).drains = t.drains := rfl
@[simp] theorem keepQueue_nextDrain (s t : State) : (keepQueue s t).nextDrain = t.nextDrain := rfl
@[simp] theorem keepQueue_groups (s t : State) : (keepQueue s t).groups = t.groups := rfl
@[simp] theorem keepQueue_nextHandle (s t : State) : (keepQueue s t).nextHandle = t.nextHandle := rfl
@[simp] theorem keepQueue_tables (s t : State) : (keepQueue s t).tables = t.tables := rfl
@[simp] theorem keepQueue_foragers (s t : State) : (keepQueue s t).foragers = t.foragers := rfl
@[simp] theorem keepQueue_works (s t : State) : (keepQueue s t).works = t.works := rfl
@[simp] theorem keepQueue_nextWork (s t : State) : (keepQueue s t).nextWork = t.nextWork := rfl
@[simp] theorem keepQueue_staged (s t : State) : (keepQueue s t).staged = t.staged := rfl
@[simp] theorem keepQueue_patches (s t : State) : (keepQueue s t).patches = t.patches := rfl
@[simp] theorem keepQueue_committed (s t : State) : (keepQueue s t).committed = t.committed := rfl
@[simp] theorem keepQueue_returns (s t : State) : (keepQueue s t).returns = t.returns := rfl
@[simp] theorem keepQueue_nextReturn (s t : State) : (keepQueue s t).nextReturn = t.nextReturn := rfl
@[simp] theorem keepQueue_fanStages (s t : State) : (keepQueue s t).fanStages = t.fanStages := rfl
@[simp] theorem keepQueue_earlyReqs (s t : State) : (keepQueue s t).earlyReqs = t.earlyReqs := rfl
@[simp] theorem keepQueue_spanWait (s t : State) : (keepQueue s t).spanWait = t.spanWait := rfl
@[simp] theorem keepQueue_spanPort (s t : State) : (keepQueue s t).spanPort = t.spanPort := rfl
@[simp] theorem keepQueue_fanned (s t : State) : (keepQueue s t).fanned = t.fanned := rfl
@[simp] theorem keepQueue_windows (s t : State) : (keepQueue s t).windows = t.windows := rfl
@[simp] theorem keepQueue_keyFails (s t : State) : (keepQueue s t).keyFails = t.keyFails := rfl
@[simp] theorem keepQueue_imports (s t : State) : (keepQueue s t).imports = t.imports := rfl
@[simp] theorem keepQueue_probes (s t : State) : (keepQueue s t).probes = t.probes := rfl
@[simp] theorem keepQueue_nextTag (s t : State) : (keepQueue s t).nextTag = t.nextTag := rfl
@[simp] theorem keepQueue_winReqs (s t : State) : (keepQueue s t).winReqs = t.winReqs := rfl
@[simp] theorem keepQueue_fabricOut (s t : State) : (keepQueue s t).fabricOut = t.fabricOut := rfl
@[simp] theorem keepQueue_wagglesOut (s t : State) : (keepQueue s t).wagglesOut = t.wagglesOut := rfl
@[simp] theorem keepQueue_waggleSeq (s t : State) : (keepQueue s t).waggleSeq = t.waggleSeq := rfl
@[simp] theorem keepQueue_waggleAt (s t : State) : (keepQueue s t).waggleAt = t.waggleAt := rfl
@[simp] theorem keepQueue_ports (s t : State) : (keepQueue s t).ports = t.ports := rfl
@[simp] theorem keepQueue_wire (s t : State) : (keepQueue s t).wire = t.wire := rfl
@[simp] theorem keepQueue_delivered (s t : State) : (keepQueue s t).delivered = t.delivered := rfl
@[simp] theorem keepQueue_filter (s t : State) : (keepQueue s t).filter = t.filter := rfl
@[simp] theorem keepQueue_qps (s t : State) : (keepQueue s t).qps = t.qps := rfl
@[simp] theorem keepQueue_ethOut (s t : State) : (keepQueue s t).ethOut = t.ethOut := rfl
@[simp] theorem keepQueue_keyGens (s t : State) : (keepQueue s t).keyGens = t.keyGens := rfl
@[simp] theorem keepQueue_tasters (s t : State) : (keepQueue s t).tasters = t.tasters := rfl
@[simp] theorem keepQueue_nextTaster (s t : State) : (keepQueue s t).nextTaster = t.nextTaster := rfl
@[simp] theorem keepQueue_health (s t : State) : (keepQueue s t).health = t.health := rfl
@[simp] theorem keepQueue_replicas (s t : State) : (keepQueue s t).replicas = t.replicas := rfl
@[simp] theorem keepQueue_power (s t : State) : (keepQueue s t).power = t.power := rfl
@[simp] theorem keepQueue_manager (s t : State) : (keepQueue s t).manager = t.manager := rfl
@[simp] theorem keepQueue_therms (s t : State) : (keepQueue s t).therms = t.therms := rfl
@[simp] theorem keepQueue_channels (s t : State) : (keepQueue s t).channels = t.channels := rfl
@[simp] theorem keepQueue_rowActs (s t : State) : (keepQueue s t).rowActs = t.rowActs := rfl
@[simp] theorem keepQueue_damage (s t : State) : (keepQueue s t).damage = t.damage := rfl
@[simp] theorem keepQueue_fixups (s t : State) : (keepQueue s t).fixups = t.fixups := rfl
@[simp] theorem keepQueue_struck (s t : State) : (keepQueue s t).struck = t.struck := rfl
@[simp] theorem keepQueue_memLog (s t : State) : (keepQueue s t).memLog = t.memLog := rfl
@[simp] theorem keepQueue_tracer (s t : State) : (keepQueue s t).tracer = t.tracer := rfl
@[simp] theorem keepQueue_keeper (s t : State) : (keepQueue s t).keeper = t.keeper := rfl
@[simp] theorem keepQueue_boot (s t : State) : (keepQueue s t).boot = t.boot := rfl
@[simp] theorem keepQueue_log (s t : State) : (keepQueue s t).log = t.log := rfl
@[simp] theorem keepQueue_fieldOut (s t : State) : (keepQueue s t).fieldOut = t.fieldOut := rfl
@[simp] theorem keepQueue_keeperUp (s t : State) : (keepQueue s t).keeperUp = t.keeperUp := rfl
@[simp] theorem keepQueue_fieldUsable (s t : State) : (keepQueue s t).fieldUsable = t.fieldUsable := rfl
@[simp] theorem keepQueue_refclk (s t : State) : (keepQueue s t).refclk = t.refclk := rfl
@[simp] theorem keepQueue_blobs (s t : State) : (keepQueue s t).blobs = t.blobs := rfl
@[simp] theorem keepQueue_quarantined (s t : State) : (keepQueue s t).quarantined = t.quarantined := rfl
@[simp] theorem keepQueue_dict (s t : State) : (keepQueue s t).dict = t.dict := rfl
@[simp] theorem keepQueue_counters (s t : State) : (keepQueue s t).counters = t.counters := rfl
@[simp] theorem keepQueue_rsvWrites (s t : State) : (keepQueue s t).rsvWrites = t.rsvWrites := rfl
@[simp] theorem keepQueue_pending (s t : State) : (keepQueue s t).pending = s.pending := rfl
@[simp] theorem keepQueue_time (s t : State) : (keepQueue s t).time = s.time := rfl
@[simp] theorem keepQueue_code (s t : State) : (keepQueue s t).code = s.code := rfl
@[simp] theorem State.tick_time (s : State) : s.tick.time = s.time + 1#64 := by simp only [State.tick]
@[simp] theorem State.tick_pending (s : State) : s.tick.pending = s.pending := by simp only [State.tick, keepQueue_pending]
@[simp] theorem State.tick_code (s : State) : s.tick.code = s.code := by simp only [State.tick, keepQueue_code]

end Sys2Proof.Machine
end

