-- ==== Sys2Proof/Laws/Gates.lean ====
section
/-!
SUPPORT. What the gates of the meanings answer: a next state for every unit the device has, the queue of waiting commands untouched.
-/
namespace Sys2Proof.Machine

@[simp] theorem keepQueue_self (s : State) : keepQueue s s = s := rfl
theorem keepQueue_of (s t : State) (h : t.pending = s.pending) (k : t.time = s.time) (l : t.code = s.code) : keepQueue s t = t := by
  cases t; cases s; cases h; cases k; cases l; rfl

theorem live_running (s : State) (f : State → State) (h : s.running = true) : live s f = f s := by simp [live, h]
theorem live_down (s : State) (f : State → State) (h : s.running = false) : live s f = s := by simp [live, h]

theorem always_next (s : State) (f : State → State) : always s f = .next (keepQueue s (f s)) := rfl

theorem onPath_running (s : State) (f : State → State) (h : s.running = true) : onPath s f = .next (keepQueue s (f s)) := by
  simp [onPath, always, live_running _ _ h]
theorem onPath_down (s : State) (f : State → State) (h : s.running = false) : onPath s f = .next s := by
  simp [onPath, always, live_down _ _ h]

theorem onUnit_running (n b : Nat) (s : State) (f : State → State) (h : s.running = true) (k : n < b) :
    onUnit n b s f = .next (keepQueue s (f s)) := by simp [onUnit, k, onPath_running s f h]
theorem onUnit_out (n b : Nat) (s : State) (f : State → State) (k : ¬ n < b) : onUnit n b s f = .fault .noSuchUnit := by simp [onUnit, k]

theorem onCell_running (c : Nat) (s : State) (f : State → State) (h : s.running = true) (k : c < 128) :
    onCell c s f = .next (keepQueue s (f s)) := onUnit_running c 128 s f h k
theorem onThread_running (c t : Nat) (s : State) (f : State → State) (h : s.running = true) (k : c < 128) (l : t < 16) :
    onThread c t s f = .next (keepQueue s (f s)) := by simp [onThread, k, l, onPath_running s f h]
theorem onQueue_running (q : Nat) (s : State) (f : State → State) (h : s.running = true) (k : q < 1024) :
    onQueue q s f = .next (keepQueue s (f s)) := onUnit_running q 1024 s f h k
theorem onPartition_running (p : Nat) (s : State) (f : State → State) (h : s.running = true) (k : p < 16) :
    onPartition p s f = .next (keepQueue s (f s)) := onUnit_running p 16 s f h k
theorem onComb_running (c : Nat) (s : State) (f : State → State) (h : s.running = true) (k : c < 16) :
    onComb c s f = .next (keepQueue s (f s)) := onUnit_running c 16 s f h k
theorem onStack_running (k : Nat) (s : State) (f : State → State) (h : s.running = true) (l : k < 4) :
    onStack k s f = .next (keepQueue s (f s)) := onUnit_running k 4 s f h l
theorem onPort_running (p : Nat) (s : State) (f : State → State) (h : s.running = true) (k : p < 8) :
    onPort p s f = .next (keepQueue s (f s)) := onUnit_running p 8 s f h k
theorem onLane_running (p l : Nat) (s : State) (f : State → State) (h : s.running = true) (k : p < 8) (j : l < 4) :
    onLane p l s f = .next (keepQueue s (f s)) := by simp [onLane, k, j, onPath_running s f h]
theorem onRail_in (r : Nat) (s : State) (f : State → State) (h : 1 ≤ r) (k : r ≤ 8) : onRail r s f = .next (keepQueue s (f s)) := by
  simp [onRail, h, k, always_next]
theorem anyUnit_in (n b : Nat) (s : State) (f : State → State) (k : n < b) : anyUnit n b s f = .next (keepQueue s (f s)) := by
  simp [anyUnit, k, always_next]
/-- The host port serves while the data path runs or is stopped (R417). -/
theorem onHost_open (s : State) (f : State → State) (h : s.running = true ∨ s.power.path = .stopped) :
    onHost s f = .next (keepQueue s (f s)) := by
  rcases h with h | h
  · simp [onHost, always_next, h]
  · simp [onHost, always_next, h]
theorem onHostUnit_open (n b : Nat) (s : State) (f : State → State) (h : s.running = true ∨ s.power.path = .stopped) (k : n < b) :
    onHostUnit n b s f = .next (keepQueue s (f s)) := by simp [onHostUnit, k, onHost_open s f h]

/-! ## Every gate answers a next state for a unit that exists, and leaves the queue as it was -/

theorem always_keeps (s : State) (f : State → State) : ∃ t, always s f = .next t ∧ t.pending = s.pending := ⟨_, rfl, rfl⟩
theorem onPath_keeps (s : State) (f : State → State) : ∃ t, onPath s f = .next t ∧ t.pending = s.pending := ⟨_, rfl, rfl⟩
theorem onHost_keeps (s : State) (f : State → State) : ∃ t, onHost s f = .next t ∧ t.pending = s.pending := ⟨_, rfl, rfl⟩
theorem onUnit_keeps (n b : Nat) (s : State) (f : State → State) (k : n < b) : ∃ t, onUnit n b s f = .next t ∧ t.pending = s.pending := by
  simpa [onUnit, k] using onPath_keeps s f
theorem onCell_keeps (c : Nat) (s : State) (f : State → State) (k : c < 128) : ∃ t, onCell c s f = .next t ∧ t.pending = s.pending :=
  onUnit_keeps c 128 s f k
theorem onThread_keeps (c t : Nat) (s : State) (f : State → State) (k : c < 128 ∧ t < 16) :
    ∃ u, onThread c t s f = .next u ∧ u.pending = s.pending := by simpa [onThread, k] using onPath_keeps s f
theorem onQueue_keeps (q : Nat) (s : State) (f : State → State) (k : q < 1024) : ∃ t, onQueue q s f = .next t ∧ t.pending = s.pending :=
  onUnit_keeps q 1024 s f k
theorem onPartition_keeps (p : Nat) (s : State) (f : State → State) (k : p < 16) : ∃ t, onPartition p s f = .next t ∧ t.pending = s.pending :=
  onUnit_keeps p 16 s f k
theorem onComb_keeps (c : Nat) (s : State) (f : State → State) (k : c < 16) : ∃ t, onComb c s f = .next t ∧ t.pending = s.pending :=
  onUnit_keeps c 16 s f k
theorem onStack_keeps (j : Nat) (s : State) (f : State → State) (k : j < 4) : ∃ t, onStack j s f = .next t ∧ t.pending = s.pending :=
  onUnit_keeps j 4 s f k
theorem onPort_keeps (p : Nat) (s : State) (f : State → State) (k : p < 8) : ∃ t, onPort p s f = .next t ∧ t.pending = s.pending :=
  onUnit_keeps p 8 s f k
theorem onLane_keeps (p l : Nat) (s : State) (f : State → State) (k : p < 8 ∧ l < 4) :
    ∃ t, onLane p l s f = .next t ∧ t.pending = s.pending := by simpa [onLane, k] using onPath_keeps s f
theorem onRail_keeps (r : Nat) (s : State) (f : State → State) (k : 1 ≤ r ∧ r ≤ 8) : ∃ t, onRail r s f = .next t ∧ t.pending = s.pending := by
  simpa [onRail, k] using always_keeps s f
theorem anyUnit_keeps (n b : Nat) (s : State) (f : State → State) (k : n < b) : ∃ t, anyUnit n b s f = .next t ∧ t.pending = s.pending := by
  simpa [anyUnit, k] using always_keeps s f
theorem onHostUnit_keeps (n b : Nat) (s : State) (f : State → State) (k : n < b) :
    ∃ t, onHostUnit n b s f = .next t ∧ t.pending = s.pending := by simpa [onHostUnit, k] using onHost_keeps s f

end Sys2Proof.Machine
end

