-- ==== Sys2Proof/Laws/Table.lean ====
section
/-!
SUPPORT. Laws of sparse tables: an entry set is the entry read, every other entry stands, and the keys stay strictly rising.
-/
namespace Sys2Proof.Machine

@[simp] theorem tabFind_tabSet_same {α : Type} (t : Table α) (k : Nat) (a : α) : tabFind (tabSet t k a) k = some a := by
  induction t with
  | nil => simp [tabSet, tabFind]
  | cons p r ih =>
    obtain ⟨i, b⟩ := p
    by_cases h : i = k
    · subst h; simp [tabSet, tabFind]
    · by_cases g : k < i
      · simp [tabSet, tabFind, h, g]
      · simp [tabSet, tabFind, h, g, ih]

theorem tabFind_tabSet_other {α : Type} (t : Table α) (k j : Nat) (a : α) (n : j ≠ k) : tabFind (tabSet t k a) j = tabFind t j := by
  induction t with
  | nil => simp [tabSet, tabFind, Ne.symm n]
  | cons p r ih =>
    obtain ⟨i, b⟩ := p
    by_cases h : i = k
    · subst h; simp [tabSet, tabFind, Ne.symm n]
    · by_cases g : k < i
      · simp only [tabSet, beq_iff_eq, h, g, if_true, if_false, tabFind, Ne.symm n]
        by_cases j < k
        · have : j < i := by omega
          have : i ≠ j := by omega
          simp_all
        · simp_all <;> (intro l; omega)
      · simp [tabSet, tabFind, h, g, ih]

@[simp] theorem tabGet_tabSet_same {α : Type} (d : α) (t : Table α) (k : Nat) (a : α) : tabGet d (tabSet t k a) k = a := by
  simp [tabGet]

theorem tabGet_tabSet_other {α : Type} (d : α) (t : Table α) (k j : Nat) (a : α) (n : j ≠ k) :
    tabGet d (tabSet t k a) j = tabGet d t j := by
  simp [tabGet, tabFind_tabSet_other t k j a n]

/-- The canonical form as a relation of all pairs of keys. -/
theorem tabSorted_iff {α : Type} (t : Table α) : tabSorted t = true ↔ t.Pairwise (fun p q => p.1 < q.1) := by
  induction t with
  | nil => simp [tabSorted]
  | cons p r ih =>
    obtain ⟨i, a⟩ := p
    cases r with
    | nil => simp [tabSorted]
    | cons q r =>
      obtain ⟨j, b⟩ := q
      simp only [tabSorted, Bool.and_eq_true, decide_eq_true_eq, ih, List.pairwise_cons, List.mem_cons]
      constructor
      · rintro ⟨h, g, k⟩
        refine ⟨?_, g, k⟩
        rintro x (rfl | hx)
        · exact h
        · exact Nat.lt_trans h (g x hx)
      · rintro ⟨h, g, k⟩
        exact ⟨h (j, b) (Or.inl rfl), g, k⟩

/-- The keys of a table with an entry set: the old ones and the new one. -/
theorem mem_tabSet {α : Type} {t : Table α} {k : Nat} {a : α} {x : Nat × α} (h : x ∈ tabSet t k a) : x = (k, a) ∨ x ∈ t := by
  induction t with
  | nil => simpa [tabSet] using h
  | cons p r ih =>
    obtain ⟨i, b⟩ := p
    simp only [tabSet] at h
    split at h
    · simp only [List.mem_cons] at h ⊢; rcases h with h | h <;> simp [h]
    · split at h
      · simpa using h
      · simp only [List.mem_cons] at h ⊢
        rcases h with h | h
        · simp [h]
        · rcases ih h with g | g <;> simp [g]

theorem tabSorted_tabSet {α : Type} (t : Table α) (k : Nat) (a : α) (h : tabSorted t = true) : tabSorted (tabSet t k a) = true := by
  rw [tabSorted_iff] at h ⊢
  induction t with
  | nil => simp [tabSet]
  | cons p r ih =>
    obtain ⟨i, b⟩ := p
    rw [List.pairwise_cons] at h
    simp only [tabSet]
    split
    · rename_i e
      have e : i = k := by simpa using e
      subst e
      exact List.pairwise_cons.2 ⟨h.1, h.2⟩
    · split
      · rename_i g
        refine List.pairwise_cons.2 ⟨?_, List.pairwise_cons.2 ⟨h.1, h.2⟩⟩
        intro x hx
        rcases List.mem_cons.1 hx with rfl | hx
        · exact g
        · exact Nat.lt_trans g (h.1 x hx)
      · rename_i e g
        have e : i ≠ k := by simpa using e
        refine List.pairwise_cons.2 ⟨?_, ih h.2⟩
        intro x hx
        rcases mem_tabSet hx with rfl | hx
        · exact Nat.lt_of_le_of_ne (Nat.le_of_not_lt g) e
        · exact h.1 x hx

theorem mem_tabErase {α : Type} {t : Table α} {k : Nat} {x : Nat × α} (h : x ∈ tabErase t k) : x ∈ t := by
  induction t with
  | nil => simp [tabErase] at h
  | cons p r ih =>
    obtain ⟨i, b⟩ := p
    simp only [tabErase] at h
    split at h
    · exact List.mem_cons_of_mem _ h
    · split at h
      · exact h
      · rcases List.mem_cons.1 h with rfl | h
        · exact List.mem_cons_self
        · exact List.mem_cons_of_mem _ (ih h)

theorem tabSorted_tabErase {α : Type} (t : Table α) (k : Nat) (h : tabSorted t = true) : tabSorted (tabErase t k) = true := by
  rw [tabSorted_iff] at h ⊢
  induction t with
  | nil => simp [tabErase]
  | cons p r ih =>
    obtain ⟨i, b⟩ := p
    have g := List.pairwise_cons.1 h
    simp only [tabErase]
    split
    · exact g.2
    · split
      · exact h
      · exact List.pairwise_cons.2 ⟨fun x hx => g.1 x (mem_tabErase hx), ih g.2⟩

/-- A key below every key of the table has no entry. -/
theorem tabFind_none {α : Type} (t : Table α) (k : Nat) (h : ∀ x ∈ t, k < x.1) : tabFind t k = none := by
  cases t with
  | nil => rfl
  | cons p r =>
    have : k < p.1 := h p List.mem_cons_self
    have n : p.1 ≠ k := by omega
    simp [tabFind, n, this]

theorem tabFind_tabErase_same {α : Type} (t : Table α) (k : Nat) (h : tabSorted t = true) : tabFind (tabErase t k) k = none := by
  rw [tabSorted_iff] at h
  induction t with
  | nil => rfl
  | cons p r ih =>
    obtain ⟨i, b⟩ := p
    have g := List.pairwise_cons.1 h
    simp only [tabErase]
    split
    · rename_i e
      have e : i = k := by simpa using e
      subst e
      exact tabFind_none r i g.1
    · rename_i e
      have e : i ≠ k := by simpa using e
      split
      · rename_i l; simp [tabFind, e, l]
      · rename_i l; simp [tabFind, e, l, ih g.2]

theorem tabFind_tabErase_other {α : Type} (t : Table α) (k j : Nat) (n : j ≠ k) (h : tabSorted t = true) :
    tabFind (tabErase t k) j = tabFind t j := by
  rw [tabSorted_iff] at h
  induction t with
  | nil => rfl
  | cons p r ih =>
    obtain ⟨i, b⟩ := p
    have g := List.pairwise_cons.1 h
    simp only [tabErase]
    split
    · rename_i e
      have e : i = k := by simpa using e
      subst e
      by_cases l : j < i
      · rw [tabFind_none r j (fun x hx => Nat.lt_trans l (g.1 x hx))]
        simp [tabFind, Ne.symm n, l]
      · simp [tabFind, Ne.symm n, l]
    · split
      · rfl
      · simp [tabFind, ih g.2]

theorem tabSorted_filter {α : Type} (t : Table α) (p : Nat × α → Bool) (h : tabSorted t = true) : tabSorted (t.filter p) = true := by
  rw [tabSorted_iff] at h ⊢
  exact h.sublist List.filter_sublist

end Sys2Proof.Machine
end

