-- ==== Sys2Proof/Laws/Memory.lean ====
section
/-!
SUPPORT. Laws of byte memories: a read after a write, what a write leaves, and the canonical form that every operation keeps.
-/
namespace Sys2Proof.Machine

/-! ## The canonical form as relations -/

theorem cellsRising_eq (l : List Host.Cell) : cellsRising l = tabSorted l := by
  induction l with
  | nil => rfl
  | cons c r ih =>
    cases r with
    | nil => rfl
    | cons d r => simp only [cellsRising, tabSorted, ih]

theorem flagsRising_iff (l : List Nat) : flagsRising l = true ↔ l.Pairwise (· < ·) := by
  induction l with
  | nil => simp [flagsRising]
  | cons u r ih =>
    cases r with
    | nil => simp [flagsRising]
    | cons v r =>
      simp only [flagsRising, Bool.and_eq_true, decide_eq_true_eq, ih, List.pairwise_cons, List.mem_cons]
      constructor
      · rintro ⟨h, g, k⟩
        refine ⟨?_, g, k⟩
        rintro x (rfl | hx)
        · exact h
        · exact Nat.lt_trans h (g x hx)
      · rintro ⟨h, g, k⟩
        exact ⟨h v (Or.inl rfl), g, k⟩

/-- Canonical: keys strictly rising, flagged units strictly rising, and no zero listed where unlisted addresses read as zero. -/
theorem Memory.wf_iff (m : Memory) : m.wf = true ↔
    tabSorted m.bytes = true ∧ m.poison.Pairwise (· < ·) ∧ m.suspect.Pairwise (· < ·)
      ∧ (m.base = none → ∀ c ∈ m.bytes, c.2 ≠ 0#8) := by
  unfold Memory.wf
  rw [cellsRising_eq]
  simp only [Bool.and_eq_true, Bool.or_eq_true, flagsRising_iff, List.all_eq_true, bne_iff_ne, ne_eq]
  cases m.base <;> simp [and_assoc]

theorem Memory.wf_zero : Memory.zero.wf = true := rfl
theorem Memory.wf_undefined (k : Nat) : (Memory.undefined k).wf = true := rfl

/-! ## Flags -/

theorem mem_flagAdd {l : List Nat} {u x : Nat} : x ∈ flagAdd l u ↔ x = u ∨ x ∈ l := by
  induction l with
  | nil => simp [flagAdd]
  | cons v r ih =>
    simp only [flagAdd]
    split
    · rename_i e
      have e : v = u := by simpa using e
      subst e; simp
    · split
      · simp
      · simp only [List.mem_cons, ih]
        constructor
        · rintro (h | h | h) <;> simp [h]
        · rintro (h | h | h) <;> simp [h]

theorem flagAdd_rising (l : List Nat) (u : Nat) (h : l.Pairwise (· < ·)) : (flagAdd l u).Pairwise (· < ·) := by
  induction l with
  | nil => simp [flagAdd]
  | cons v r ih =>
    have g := List.pairwise_cons.1 h
    simp only [flagAdd]
    split
    · exact h
    · rename_i e
      have e : v ≠ u := by simpa using e
      split
      · rename_i l
        refine List.pairwise_cons.2 ⟨?_, h⟩
        intro x hx
        rcases List.mem_cons.1 hx with rfl | hx
        · exact l
        · exact Nat.lt_trans l (g.1 x hx)
      · rename_i l
        refine List.pairwise_cons.2 ⟨?_, ih g.2⟩
        intro x hx
        rcases mem_flagAdd.1 hx with rfl | hx
        · omega
        · exact g.1 x hx

theorem flagDel_rising (l : List Nat) (u : Nat) (h : l.Pairwise (· < ·)) : (flagDel l u).Pairwise (· < ·) :=
  h.sublist List.filter_sublist

theorem foldl_flagAdd_rising (us l : List Nat) (h : l.Pairwise (· < ·)) : (us.foldl flagAdd l).Pairwise (· < ·) := by
  induction us generalizing l with
  | nil => exact h
  | cons u us ih => exact ih _ (flagAdd_rising l u h)

/-! ## Every operation keeps the canonical form -/

theorem Memory.wf_set (m : Memory) (a : Nat) (b : Byte) (h : m.wf = true) : (m.set a b).wf = true := by
  rw [Memory.wf_iff] at h ⊢
  obtain ⟨h1, h2, h3, h4⟩ := h
  unfold Memory.set
  split
  · exact ⟨tabSorted_tabErase _ _ h1, h2, h3, fun e c hc => h4 e c (mem_tabErase hc)⟩
  · rename_i z
    refine ⟨tabSorted_tabSet _ _ _ h1, h2, h3, ?_⟩
    intro e c hc
    rcases mem_tabSet hc with rfl | hc
    · intro zb; apply z; simp_all
    · exact h4 e c hc

theorem Memory.wf_write (m : Memory) (a : Nat) (bs : List Byte) (h : m.wf = true) : (m.write a bs).wf = true := by
  induction bs generalizing m a with
  | nil => exact h
  | cons b bs ih => exact ih _ _ (Memory.wf_set m a b h)

theorem Memory.wf_setPoison (m : Memory) (u : Nat) (p : Bool) (h : m.wf = true) : (m.setPoison u p).wf = true := by
  rw [Memory.wf_iff] at h ⊢
  obtain ⟨h1, h2, h3, h4⟩ := h
  refine ⟨h1, ?_, h3, h4⟩
  unfold Memory.setPoison
  dsimp only
  split
  · exact flagAdd_rising _ _ h2
  · exact flagDel_rising _ _ h2

theorem Memory.wf_setSuspect (m : Memory) (u : Nat) (p : Bool) (h : m.wf = true) : (m.setSuspect u p).wf = true := by
  rw [Memory.wf_iff] at h ⊢
  obtain ⟨h1, h2, h3, h4⟩ := h
  refine ⟨h1, h2, ?_, h4⟩
  unfold Memory.setSuspect
  dsimp only
  split
  · exact flagAdd_rising _ _ h3
  · exact flagDel_rising _ _ h3

/-- A fold of an operation that keeps the form keeps it. -/
theorem Memory.wf_foldl {α : Type} (f : Memory → α → Memory) (hf : ∀ m x, m.wf = true → (f m x).wf = true) (l : List α) (m : Memory)
    (h : m.wf = true) : (l.foldl f m).wf = true := by
  induction l generalizing m with
  | nil => exact h
  | cons x l ih => exact ih _ (hf m x h)

theorem Memory.wf_store (m : Memory) (unit a : Nat) (bs : List Byte) (p q : Bool) (h : m.wf = true) :
    (m.store unit a bs p q).wf = true := by
  unfold Memory.store
  dsimp only
  split
  · exact h
  · exact Memory.wf_foldl _ (fun m u g => Memory.wf_setSuspect _ _ _ (Memory.wf_setPoison m u _ g)) _ _ (Memory.wf_write m a bs h)

theorem Memory.wf_clear (m : Memory) (unit a n : Nat) (h : m.wf = true) : (m.clear unit a n).wf = true := by
  rw [Memory.wf_iff] at h
  obtain ⟨h1, h2, h3, h4⟩ := h
  have kept : ∀ (p : List Nat) (_ : p.Pairwise (· < ·)) (f : Host.Cell → Bool) (g : Nat → Bool),
      ({ m with bytes := m.bytes.filter f, poison := p, suspect := m.suspect.filter g } : Memory).wf = true := by
    intro p hp f g
    rw [Memory.wf_iff]
    exact ⟨tabSorted_filter _ _ h1, hp, h3.sublist List.filter_sublist, fun e c hc => h4 e c (List.mem_filter.1 hc).1⟩
  have hp : ∀ (us : List Nat) (g : Nat → Bool), (if m.inv then us.foldl flagAdd m.poison else m.poison.filter g).Pairwise (· < ·) := by
    intro us g
    split
    · exact foldl_flagAdd_rising us _ h2
    · exact h2.sublist List.filter_sublist
  unfold Memory.clear
  dsimp only
  split
  · exact kept _ (hp _ _) _ _
  · exact Memory.wf_write _ _ _ (kept _ (hp _ _) _ _)

theorem Memory.wf_copySpan (m : Memory) (unit src dst n : Nat) (h : m.wf = true) : (m.copySpan unit src dst n).wf = true := by
  unfold Memory.copySpan
  dsimp only
  apply Memory.wf_foldl _ (fun m u g => Memory.wf_setSuspect m u true g)
  have filled : ∀ k : Memory, k.wf = true → ∀ (bs : List Byte) (l : List Host.Cell),
      (if m.base.isSome then k.write dst bs else l.foldl (fun (acc : Memory) c => acc.set c.1 c.2) k).wf = true := by
    intro k hk bs l
    split
    · exact Memory.wf_write _ _ _ hk
    · exact Memory.wf_foldl _ (fun m c g => Memory.wf_set m c.1 c.2 g) _ _ hk
  split
  · exact Memory.wf_foldl _ (fun m i g => Memory.wf_setPoison m _ _ g) _ _ (filled _ (Memory.wf_clear m unit dst n h) _ _)
  · exact Memory.wf_foldl _ (fun m u g => Memory.wf_setPoison m u true g) _ _ (filled _ (Memory.wf_clear m unit dst n h) _ _)

/-! ## Reading -/

@[simp] theorem Memory.set_base (m : Memory) (a : Nat) (b : Byte) : (m.set a b).base = m.base := by unfold Memory.set; split <;> rfl

theorem Memory.get_set_same (m : Memory) (a : Nat) (b : Byte) (h : m.wf = true) : (m.set a b).get a = b := by
  rw [Memory.wf_iff] at h
  unfold Memory.set
  split
  · rename_i z
    simp only [Bool.and_eq_true, Option.isNone_iff_eq_none, beq_iff_eq] at z
    simp [Memory.get, tabFind_tabErase_same _ _ h.1, Memory.unlisted, z.1, z.2]
  · simp [Memory.get]

theorem Memory.get_set_other (m : Memory) (a x : Nat) (b : Byte) (n : x ≠ a) (h : m.wf = true) : (m.set a b).get x = m.get x := by
  rw [Memory.wf_iff] at h
  unfold Memory.set
  split
  · simp [Memory.get, tabFind_tabErase_other _ _ _ n h.1, Memory.unlisted]
  · simp [Memory.get, tabFind_tabSet_other _ _ _ _ n, Memory.unlisted]

theorem Memory.get_write_out (m : Memory) (a x : Nat) (bs : List Byte) (n : x < a ∨ a + bs.length ≤ x) (h : m.wf = true) :
    (m.write a bs).get x = m.get x := by
  induction bs generalizing m a with
  | nil => rfl
  | cons b bs ih =>
    simp only [List.length_cons] at n
    rw [Memory.write, ih _ _ (by omega) (Memory.wf_set m a b h), Memory.get_set_other m a x b (by omega) h]

theorem Memory.get_write_in (m : Memory) (a i : Nat) (bs : List Byte) (b : Byte) (e : bs[i]? = some b) (h : m.wf = true) :
    (m.write a bs).get (a + i) = b := by
  induction bs generalizing m a i with
  | nil => simp at e
  | cons c bs ih =>
    cases i with
    | zero =>
      simp only [List.getElem?_cons_zero, Option.some.injEq] at e
      subst e
      rw [Memory.write, Memory.get_write_out _ _ _ _ (by omega) (Memory.wf_set m a c h)]
      exact Memory.get_set_same m a c h
    | succ i =>
      rw [Memory.write]
      have : a + (i + 1) = a + 1 + i := by omega
      rw [this]
      exact ih _ _ _ (by simpa using e) (Memory.wf_set m a c h)

theorem Memory.read_write_same (m : Memory) (a : Nat) (bs : List Byte) (h : m.wf = true) : (m.write a bs).read a bs.length = bs := by
  apply List.ext_getElem?
  intro i
  unfold Memory.read
  by_cases l : i < bs.length
  · rw [List.getElem?_map, List.getElem?_range l, Option.map_some, List.getElem?_eq_getElem l,
      Memory.get_write_in m a i bs bs[i] (List.getElem?_eq_getElem l) h]
  · rw [List.getElem?_eq_none (by simpa using l), List.getElem?_eq_none (by simpa using l)]

/-- Flags are no bytes. -/
@[simp] theorem Memory.get_setPoison (m : Memory) (u x : Nat) (p : Bool) : (m.setPoison u p).get x = m.get x := rfl
@[simp] theorem Memory.get_setSuspect (m : Memory) (u x : Nat) (p : Bool) : (m.setSuspect u p).get x = m.get x := rfl

/-- A store changes the bytes it stores, and no other. -/
theorem Memory.get_store (m : Memory) (unit a x : Nat) (bs : List Byte) (p q : Bool) :
    (m.store unit a bs p q).get x = (m.write a bs).get x := by
  have key : ∀ (l : List Nat) (k : Memory) (f : Memory → Nat → Memory) (_ : ∀ k u, (f k u).get x = k.get x), (l.foldl f k).get x = k.get x := by
    intro l
    induction l with
    | nil => intro k f _; rfl
    | cons u l ih => intro k f hf; rw [List.foldl_cons, ih _ f hf, hf]
  unfold Memory.store
  dsimp only
  split
  · rename_i z
    have : bs = [] := List.eq_nil_of_length_eq_zero z
    subst this; rfl
  · exact key _ _ _ (fun k u => by simp)

end Sys2Proof.Machine
end

