-- ==== Sys2Proof/Laws/Ops.lean ====
section
/-!
SUPPORT. What the shared operations can change: one equation per operation, and the fields it leaves as they were.
-/
namespace Sys2Proof.Machine

theorem TraceOnly.refl (s : State) : TraceOnly s s := rfl
theorem TraceOnly.trans {s u v : State} (h : TraceOnly s u) (k : TraceOnly u v) : TraceOnly s v := by
  unfold TraceOnly at *; rw [k]; rw [h]
theorem EventOnly.refl (s : State) : EventOnly s s := rfl
theorem EventOnly.trans {s u v : State} (h : EventOnly s u) (k : EventOnly u v) : EventOnly s v := by
  unfold EventOnly at *; rw [k]; rw [h]
theorem HostOnly.refl (s : State) : HostOnly s s := rfl
theorem HostOnly.trans {s u v : State} (h : HostOnly s u) (k : HostOnly u v) : HostOnly s v := by
  unfold HostOnly at *; rw [k]; rw [h]

theorem State.count_eq (s : State) (o n : Nat) : s.count o n = { s with counters := (s.count o n).counters } := by
  unfold State.count; split <;> rfl
theorem State.countFull_eq (s : State) (o n : Nat) : s.countFull o n = { s with counters := (s.countFull o n).counters } := by
  unfold State.countFull; split
  · exact State.count_eq s o n
  · rfl
theorem State.bump_eq (s : State) (i j n : Nat) :
    s.bump i j n = { s with dict := (s.bump i j n).dict, counters := (s.bump i j n).counters } := by
  have h : ∀ u : State, u = { s with dict := u.dict, counters := u.counters } → ∀ x y, u.count x y = { s with dict := (u.count x y).dict, counters := (u.count x y).counters } := by
    intro u hu x y; rw [State.count_eq u x y]; rw [hu]
  have g : ∀ u : State, u = { s with dict := u.dict, counters := u.counters } → ∀ x y, u.countFull x y = { s with dict := (u.countFull x y).dict, counters := (u.countFull x y).counters } := by
    intro u hu x y; rw [State.countFull_eq u x y]; rw [hu]
  unfold State.bump
  dsimp only
  split
  · split
    · exact g _ (h _ rfl _ _) _ _
    · exact g _ rfl _ _
  · split
    · exact h _ rfl _ _
    · rfl

theorem TraceOnly.count {s u : State} (h : TraceOnly s u) (o n : Nat) : TraceOnly s (u.count o n) :=
  h.trans (by unfold TraceOnly; rw [State.count_eq])
theorem TraceOnly.countFull {s u : State} (h : TraceOnly s u) (o n : Nat) : TraceOnly s (u.countFull o n) :=
  h.trans (by unfold TraceOnly; rw [State.countFull_eq])
theorem TraceOnly.bump {s u : State} (h : TraceOnly s u) (i j n : Nat) : TraceOnly s (u.bump i j n) :=
  h.trans (by unfold TraceOnly; rw [State.bump_eq])
theorem TraceOnly.tracer {s u : State} (h : TraceOnly s u) (d : Debug) : TraceOnly s { u with tracer := d } := h.trans rfl
theorem TraceOnly.waggle {s u : State} (h : TraceOnly s u) (k : Nat) (b : List Byte) : TraceOnly s (u.waggle k b) := h.trans rfl
theorem TraceOnly.freeze {s u : State} (h : TraceOnly s u) (a b : Nat) : TraceOnly s (u.freeze a b) := h.trans rfl
theorem TraceOnly.stageInto {s u : State} (h : TraceOnly s u) (k : Nat) (r : List Byte) : TraceOnly s (u.stageInto k r) := by
  unfold State.stageInto; dsimp only; split
  · apply TraceOnly.countFull; apply TraceOnly.bump; exact h.tracer _
  · apply TraceOnly.countFull; exact h.tracer _
theorem TraceOnly.foldl {α : Type} {s u : State} (h : TraceOnly s u) (f : State → α → State) (l : List α)
    (hf : ∀ v x, TraceOnly s v → TraceOnly s (f v x)) : TraceOnly s (l.foldl f u) := by
  induction l generalizing u with
  | nil => exact h
  | cons x l ih => exact ih (hf u x h)
theorem TraceOnly.ite {s u v : State} (c : Prop) [Decidable c] (h : TraceOnly s u) (k : TraceOnly s v) : TraceOnly s (if c then u else v) := by
  split <;> assumption
theorem TraceOnly.fireTrigger {s u : State} (h : TraceOnly s u) (a b i : Nat) : TraceOnly s (u.fireTrigger a b i) := by
  unfold State.fireTrigger
  split
  · exact h
  · split
    · exact h.bump _ _ _
    · have k : TraceOnly s (u.count (8 * 55) 1) := h.count _ _
      dsimp only
      apply TraceOnly.ite
      · apply TraceOnly.foldl
        · apply TraceOnly.freeze; apply TraceOnly.ite
          · apply TraceOnly.waggle; apply TraceOnly.ite
            · exact k.tracer _
            · exact k
          · apply TraceOnly.ite
            · exact k.tracer _
            · exact k
        · intro v x hv; exact hv.stageInto _ _
      · apply TraceOnly.freeze; apply TraceOnly.ite
        · apply TraceOnly.waggle; apply TraceOnly.ite
          · exact k.tracer _
          · exact k
        · apply TraceOnly.ite
          · exact k.tracer _
          · exact k
theorem TraceOnly.trace {s u : State} (h : TraceOnly s u) (a k x p : Nat) (d : List Byte) : TraceOnly s (u.trace a k x p d) := by
  unfold State.trace
  split
  · exact h
  · dsimp only
    have g : ∀ c : Bool, TraceOnly s (if c then u.stageInto (stagingComb a) (u.traceBytes k a x p d) else u) := by
      intro c; cases c
      · exact h
      · exact h.stageInto _ _
    split
    · apply TraceOnly.fireTrigger; exact (g _).trans rfl
    · exact g _
theorem TraceOnly.traceCell {s u : State} (h : TraceOnly s u) (c k : Nat) (d : List Byte) : TraceOnly s (u.traceCell c k d) := by
  unfold State.traceCell; split
  · exact h.trace _ _ _ _ _
  · split <;> exact h.trace _ _ _ _ _
theorem TraceOnly.traceLaunch {s u : State} (h : TraceOnly s u) (k : Nat) (l : Launch) (d : List Byte) : TraceOnly s (u.traceLaunch k l d) :=
  h.trace _ _ _ _ _

theorem EventOnly.bump {s u : State} (h : EventOnly s u) (i j n : Nat) : EventOnly s (u.bump i j n) :=
  h.trans (by unfold EventOnly; rw [State.bump_eq])
theorem EventOnly.log {s u : State} (h : EventOnly s u) (l : EventLog) : EventOnly s { u with log := l } := h.trans rfl
theorem EventOnly.sendEmcy {s u : State} (h : EventOnly s u) (e : EventEntry) : EventOnly s (u.sendEmcy e) := by
  unfold State.sendEmcy; dsimp only; split
  · exact h
  · split
    · apply EventOnly.bump; exact h.log _
    · exact h.trans rfl
theorem EventOnly.logEntry {s u : State} (h : EventOnly s u) (e : EventEntry) : EventOnly s (u.logEntry e) := by
  unfold State.logEntry; dsimp only; split
  · apply EventOnly.bump; exact h.log _
  · exact h.log _
theorem EventOnly.noteLost {s u : State} (h : EventOnly s u) (b : Bool) : EventOnly s (u.noteLost b) := by
  unfold State.noteLost; split
  · exact h.logEntry _
  · exact h
theorem EventOnly.event {s u : State} (h : EventOnly s u) (c v : Nat) (e : Bool) (d : List Byte) : EventOnly s (u.event c v e d) := by
  unfold State.event; split
  · exact h
  · dsimp only; split
    · exact ((h.logEntry _).noteLost _).sendEmcy _
    · exact (h.logEntry _).noteLost _

theorem HostOnly.countFull {s u : State} (h : HostOnly s u) (o n : Nat) : HostOnly s (u.countFull o n) :=
  h.trans (by unfold HostOnly; rw [State.countFull_eq])
theorem HostOnly.bump {s u : State} (h : HostOnly s u) (i j n : Nat) : HostOnly s (u.bump i j n) :=
  h.trans (by unfold HostOnly; rw [State.bump_eq])
theorem HostOnly.admin {s u : State} (h : HostOnly s u) (a : Admin) : HostOnly s { u with admin := a } := h.trans rfl
theorem HostOnly.host {s u : State} (h : HostOnly s u) (a : HostPort) : HostOnly s { u with host := a } := h.trans rfl
theorem HostOnly.sendHost {s u : State} (h : HostOnly s u) (ms : List HostMsg) : HostOnly s (u.sendHost ms) := by
  unfold State.sendHost
  apply HostOnly.countFull; apply HostOnly.countFull; exact h.trans rfl
theorem HostOnly.post {s u : State} (h : HostOnly s u) (m : HostMsg) : HostOnly s (u.post m) := by
  unfold State.post; split
  · exact h.bump _ _ _
  · split
    · exact h.sendHost _
    · split <;> exact h.host _
theorem HostOnly.adminIrq {s u : State} (h : HostOnly s u) : HostOnly s u.adminIrq := by
  unfold State.adminIrq; split
  · exact h
  · split
    · exact h.admin _
    · apply HostOnly.post; exact h.admin _
theorem HostOnly.writeNotice {s u : State} (h : HostOnly s u) (c : Nat) (r : List Byte) : HostOnly s (u.writeNotice c r) := by
  unfold State.writeNotice
  apply HostOnly.adminIrq; apply HostOnly.admin; exact h.post _
theorem HostOnly.notice {s u : State} (h : HostOnly s u) (c : Nat) (r : List Byte) : HostOnly s (u.notice c r) := by
  unfold State.notice; split
  · exact h.writeNotice _ _
  · split
    · exact h.admin _
    · apply HostOnly.bump; exact h.admin _
theorem HostOnly.adminRecord {s u : State} (h : HostOnly s u) (n : Nat) (i : DWord) (a b d : Nat) (r : List Byte) :
    HostOnly s (u.adminRecord n i a b d r) := by
  unfold State.adminRecord
  dsimp only
  have k : HostOnly s (u.bump 0xA107 0 1) := h.bump _ _ _
  split
  · exact k
  · have g : ∀ (b : Bool) (m : HostMsg), HostOnly s (if b then (u.bump 0xA107 0 1).post m else u.bump 0xA107 0 1) := by
      intro b m; cases b
      · exact k
      · exact k.post _
    apply HostOnly.adminIrq; apply HostOnly.admin; apply HostOnly.post; exact g _ _
theorem traceOnly_trace (s : State) (a k x p : Nat) (d : List Byte) : TraceOnly s (s.trace a k x p d) := (TraceOnly.refl s).trace _ _ _ _ _
theorem traceOnly_traceCell (s : State) (c k : Nat) (d : List Byte) : TraceOnly s (s.traceCell c k d) := (TraceOnly.refl s).traceCell _ _ _
theorem traceOnly_traceLaunch (s : State) (k : Nat) (l : Launch) (d : List Byte) : TraceOnly s (s.traceLaunch k l d) := (TraceOnly.refl s).traceLaunch _ _ _
theorem eventOnly_event (s : State) (c v : Nat) (e : Bool) (d : List Byte) : EventOnly s (s.event c v e d) := (EventOnly.refl s).event _ _ _ _
theorem hostOnly_post (s : State) (m : HostMsg) : HostOnly s (s.post m) := (HostOnly.refl s).post _
theorem hostOnly_notice (s : State) (c : Nat) (r : List Byte) : HostOnly s (s.notice c r) := (HostOnly.refl s).notice _ _
theorem hostOnly_adminRecord (s : State) (n : Nat) (i : DWord) (a b d : Nat) (r : List Byte) : HostOnly s (s.adminRecord n i a b d r) :=
  (HostOnly.refl s).adminRecord _ _ _ _ _ _
theorem State.tlbTouch_eq (s : State) (k c v : Nat) : s.tlbTouch k c v = { s with tlbs := (s.tlbTouch k c v).tlbs } := by
  unfold State.tlbTouch; dsimp only; split <;> rfl

theorem TraceOnly.pending {s u : State} (h : TraceOnly s u) : u.pending = s.pending := Eq.trans (congrArg State.pending (show u = _ from h)) rfl
theorem TraceOnly.code {s u : State} (h : TraceOnly s u) : u.code = s.code := Eq.trans (congrArg State.code (show u = _ from h)) rfl
theorem TraceOnly.time {s u : State} (h : TraceOnly s u) : u.time = s.time := Eq.trans (congrArg State.time (show u = _ from h)) rfl
theorem TraceOnly.dram {s u : State} (h : TraceOnly s u) : u.dram = s.dram := Eq.trans (congrArg State.dram (show u = _ from h)) rfl
theorem TraceOnly.cells {s u : State} (h : TraceOnly s u) : u.cells = s.cells := Eq.trans (congrArg State.cells (show u = _ from h)) rfl
theorem TraceOnly.partitions {s u : State} (h : TraceOnly s u) : u.partitions = s.partitions := Eq.trans (congrArg State.partitions (show u = _ from h)) rfl
theorem TraceOnly.contexts {s u : State} (h : TraceOnly s u) : u.contexts = s.contexts := Eq.trans (congrArg State.contexts (show u = _ from h)) rfl
theorem TraceOnly.quarters {s u : State} (h : TraceOnly s u) : u.quarters = s.quarters := Eq.trans (congrArg State.quarters (show u = _ from h)) rfl
theorem TraceOnly.migration {s u : State} (h : TraceOnly s u) : u.migration = s.migration := Eq.trans (congrArg State.migration (show u = _ from h)) rfl
theorem TraceOnly.images {s u : State} (h : TraceOnly s u) : u.images = s.images := Eq.trans (congrArg State.images (show u = _ from h)) rfl
theorem TraceOnly.nextImage {s u : State} (h : TraceOnly s u) : u.nextImage = s.nextImage := Eq.trans (congrArg State.nextImage (show u = _ from h)) rfl
theorem TraceOnly.launches {s u : State} (h : TraceOnly s u) : u.launches = s.launches := Eq.trans (congrArg State.launches (show u = _ from h)) rfl
theorem TraceOnly.nextLaunch {s u : State} (h : TraceOnly s u) : u.nextLaunch = s.nextLaunch := Eq.trans (congrArg State.nextLaunch (show u = _ from h)) rfl
theorem TraceOnly.nextOrder {s u : State} (h : TraceOnly s u) : u.nextOrder = s.nextOrder := Eq.trans (congrArg State.nextOrder (show u = _ from h)) rfl
theorem TraceOnly.queues {s u : State} (h : TraceOnly s u) : u.queues = s.queues := Eq.trans (congrArg State.queues (show u = _ from h)) rfl
theorem TraceOnly.admin {s u : State} (h : TraceOnly s u) : u.admin = s.admin := Eq.trans (congrArg State.admin (show u = _ from h)) rfl
theorem TraceOnly.hostOut {s u : State} (h : TraceOnly s u) : u.hostOut = s.hostOut := Eq.trans (congrArg State.hostOut (show u = _ from h)) rfl
theorem TraceOnly.host {s u : State} (h : TraceOnly s u) : u.host = s.host := Eq.trans (congrArg State.host (show u = _ from h)) rfl
theorem TraceOnly.regions {s u : State} (h : TraceOnly s u) : u.regions = s.regions := Eq.trans (congrArg State.regions (show u = _ from h)) rfl
theorem TraceOnly.streamErr {s u : State} (h : TraceOnly s u) : u.streamErr = s.streamErr := Eq.trans (congrArg State.streamErr (show u = _ from h)) rfl
theorem TraceOnly.tlbs {s u : State} (h : TraceOnly s u) : u.tlbs = s.tlbs := Eq.trans (congrArg State.tlbs (show u = _ from h)) rfl
theorem TraceOnly.walks {s u : State} (h : TraceOnly s u) : u.walks = s.walks := Eq.trans (congrArg State.walks (show u = _ from h)) rfl
theorem TraceOnly.walkCaches {s u : State} (h : TraceOnly s u) : u.walkCaches = s.walkCaches := Eq.trans (congrArg State.walkCaches (show u = _ from h)) rfl
theorem TraceOnly.collectors {s u : State} (h : TraceOnly s u) : u.collectors = s.collectors := Eq.trans (congrArg State.collectors (show u = _ from h)) rfl
theorem TraceOnly.drains {s u : State} (h : TraceOnly s u) : u.drains = s.drains := Eq.trans (congrArg State.drains (show u = _ from h)) rfl
theorem TraceOnly.nextDrain {s u : State} (h : TraceOnly s u) : u.nextDrain = s.nextDrain := Eq.trans (congrArg State.nextDrain (show u = _ from h)) rfl
theorem TraceOnly.groups {s u : State} (h : TraceOnly s u) : u.groups = s.groups := Eq.trans (congrArg State.groups (show u = _ from h)) rfl
theorem TraceOnly.nextHandle {s u : State} (h : TraceOnly s u) : u.nextHandle = s.nextHandle := Eq.trans (congrArg State.nextHandle (show u = _ from h)) rfl
theorem TraceOnly.tables {s u : State} (h : TraceOnly s u) : u.tables = s.tables := Eq.trans (congrArg State.tables (show u = _ from h)) rfl
theorem TraceOnly.foragers {s u : State} (h : TraceOnly s u) : u.foragers = s.foragers := Eq.trans (congrArg State.foragers (show u = _ from h)) rfl
theorem TraceOnly.works {s u : State} (h : TraceOnly s u) : u.works = s.works := Eq.trans (congrArg State.works (show u = _ from h)) rfl
theorem TraceOnly.nextWork {s u : State} (h : TraceOnly s u) : u.nextWork = s.nextWork := Eq.trans (congrArg State.nextWork (show u = _ from h)) rfl
theorem TraceOnly.staged {s u : State} (h : TraceOnly s u) : u.staged = s.staged := Eq.trans (congrArg State.staged (show u = _ from h)) rfl
theorem TraceOnly.patches {s u : State} (h : TraceOnly s u) : u.patches = s.patches := Eq.trans (congrArg State.patches (show u = _ from h)) rfl
theorem TraceOnly.committed {s u : State} (h : TraceOnly s u) : u.committed = s.committed := Eq.trans (congrArg State.committed (show u = _ from h)) rfl
theorem TraceOnly.returns {s u : State} (h : TraceOnly s u) : u.returns = s.returns := Eq.trans (congrArg State.returns (show u = _ from h)) rfl
theorem TraceOnly.nextReturn {s u : State} (h : TraceOnly s u) : u.nextReturn = s.nextReturn := Eq.trans (congrArg State.nextReturn (show u = _ from h)) rfl
theorem TraceOnly.fanStages {s u : State} (h : TraceOnly s u) : u.fanStages = s.fanStages := Eq.trans (congrArg State.fanStages (show u = _ from h)) rfl
theorem TraceOnly.earlyReqs {s u : State} (h : TraceOnly s u) : u.earlyReqs = s.earlyReqs := Eq.trans (congrArg State.earlyReqs (show u = _ from h)) rfl
theorem TraceOnly.spanWait {s u : State} (h : TraceOnly s u) : u.spanWait = s.spanWait := Eq.trans (congrArg State.spanWait (show u = _ from h)) rfl
theorem TraceOnly.spanPort {s u : State} (h : TraceOnly s u) : u.spanPort = s.spanPort := Eq.trans (congrArg State.spanPort (show u = _ from h)) rfl
theorem TraceOnly.fanned {s u : State} (h : TraceOnly s u) : u.fanned = s.fanned := Eq.trans (congrArg State.fanned (show u = _ from h)) rfl
theorem TraceOnly.windows {s u : State} (h : TraceOnly s u) : u.windows = s.windows := Eq.trans (congrArg State.windows (show u = _ from h)) rfl
theorem TraceOnly.keyFails {s u : State} (h : TraceOnly s u) : u.keyFails = s.keyFails := Eq.trans (congrArg State.keyFails (show u = _ from h)) rfl
theorem TraceOnly.imports {s u : State} (h : TraceOnly s u) : u.imports = s.imports := Eq.trans (congrArg State.imports (show u = _ from h)) rfl
theorem TraceOnly.probes {s u : State} (h : TraceOnly s u) : u.probes = s.probes := Eq.trans (congrArg State.probes (show u = _ from h)) rfl
theorem TraceOnly.nextTag {s u : State} (h : TraceOnly s u) : u.nextTag = s.nextTag := Eq.trans (congrArg State.nextTag (show u = _ from h)) rfl
theorem TraceOnly.winReqs {s u : State} (h : TraceOnly s u) : u.winReqs = s.winReqs := Eq.trans (congrArg State.winReqs (show u = _ from h)) rfl
theorem TraceOnly.fabricOut {s u : State} (h : TraceOnly s u) : u.fabricOut = s.fabricOut := Eq.trans (congrArg State.fabricOut (show u = _ from h)) rfl
theorem TraceOnly.waggleAt {s u : State} (h : TraceOnly s u) : u.waggleAt = s.waggleAt := Eq.trans (congrArg State.waggleAt (show u = _ from h)) rfl
theorem TraceOnly.ports {s u : State} (h : TraceOnly s u) : u.ports = s.ports := Eq.trans (congrArg State.ports (show u = _ from h)) rfl
theorem TraceOnly.wire {s u : State} (h : TraceOnly s u) : u.wire = s.wire := Eq.trans (congrArg State.wire (show u = _ from h)) rfl
theorem TraceOnly.delivered {s u : State} (h : TraceOnly s u) : u.delivered = s.delivered := Eq.trans (congrArg State.delivered (show u = _ from h)) rfl
theorem TraceOnly.filter {s u : State} (h : TraceOnly s u) : u.filter = s.filter := Eq.trans (congrArg State.filter (show u = _ from h)) rfl
theorem TraceOnly.qps {s u : State} (h : TraceOnly s u) : u.qps = s.qps := Eq.trans (congrArg State.qps (show u = _ from h)) rfl
theorem TraceOnly.ethOut {s u : State} (h : TraceOnly s u) : u.ethOut = s.ethOut := Eq.trans (congrArg State.ethOut (show u = _ from h)) rfl
theorem TraceOnly.keyGens {s u : State} (h : TraceOnly s u) : u.keyGens = s.keyGens := Eq.trans (congrArg State.keyGens (show u = _ from h)) rfl
theorem TraceOnly.tasters {s u : State} (h : TraceOnly s u) : u.tasters = s.tasters := Eq.trans (congrArg State.tasters (show u = _ from h)) rfl
theorem TraceOnly.nextTaster {s u : State} (h : TraceOnly s u) : u.nextTaster = s.nextTaster := Eq.trans (congrArg State.nextTaster (show u = _ from h)) rfl
theorem TraceOnly.health {s u : State} (h : TraceOnly s u) : u.health = s.health := Eq.trans (congrArg State.health (show u = _ from h)) rfl
theorem TraceOnly.replicas {s u : State} (h : TraceOnly s u) : u.replicas = s.replicas := Eq.trans (congrArg State.replicas (show u = _ from h)) rfl
theorem TraceOnly.power {s u : State} (h : TraceOnly s u) : u.power = s.power := Eq.trans (congrArg State.power (show u = _ from h)) rfl
theorem TraceOnly.manager {s u : State} (h : TraceOnly s u) : u.manager = s.manager := Eq.trans (congrArg State.manager (show u = _ from h)) rfl
theorem TraceOnly.therms {s u : State} (h : TraceOnly s u) : u.therms = s.therms := Eq.trans (congrArg State.therms (show u = _ from h)) rfl
theorem TraceOnly.channels {s u : State} (h : TraceOnly s u) : u.channels = s.channels := Eq.trans (congrArg State.channels (show u = _ from h)) rfl
theorem TraceOnly.rowActs {s u : State} (h : TraceOnly s u) : u.rowActs = s.rowActs := Eq.trans (congrArg State.rowActs (show u = _ from h)) rfl
theorem TraceOnly.damage {s u : State} (h : TraceOnly s u) : u.damage = s.damage := Eq.trans (congrArg State.damage (show u = _ from h)) rfl
theorem TraceOnly.fixups {s u : State} (h : TraceOnly s u) : u.fixups = s.fixups := Eq.trans (congrArg State.fixups (show u = _ from h)) rfl
theorem TraceOnly.struck {s u : State} (h : TraceOnly s u) : u.struck = s.struck := Eq.trans (congrArg State.struck (show u = _ from h)) rfl
theorem TraceOnly.memLog {s u : State} (h : TraceOnly s u) : u.memLog = s.memLog := Eq.trans (congrArg State.memLog (show u = _ from h)) rfl
theorem TraceOnly.keeper {s u : State} (h : TraceOnly s u) : u.keeper = s.keeper := Eq.trans (congrArg State.keeper (show u = _ from h)) rfl
theorem TraceOnly.boot {s u : State} (h : TraceOnly s u) : u.boot = s.boot := Eq.trans (congrArg State.boot (show u = _ from h)) rfl
theorem TraceOnly.log {s u : State} (h : TraceOnly s u) : u.log = s.log := Eq.trans (congrArg State.log (show u = _ from h)) rfl
theorem TraceOnly.fieldOut {s u : State} (h : TraceOnly s u) : u.fieldOut = s.fieldOut := Eq.trans (congrArg State.fieldOut (show u = _ from h)) rfl
theorem TraceOnly.keeperUp {s u : State} (h : TraceOnly s u) : u.keeperUp = s.keeperUp := Eq.trans (congrArg State.keeperUp (show u = _ from h)) rfl
theorem TraceOnly.fieldUsable {s u : State} (h : TraceOnly s u) : u.fieldUsable = s.fieldUsable := Eq.trans (congrArg State.fieldUsable (show u = _ from h)) rfl
theorem TraceOnly.refclk {s u : State} (h : TraceOnly s u) : u.refclk = s.refclk := Eq.trans (congrArg State.refclk (show u = _ from h)) rfl
theorem TraceOnly.blobs {s u : State} (h : TraceOnly s u) : u.blobs = s.blobs := Eq.trans (congrArg State.blobs (show u = _ from h)) rfl
theorem TraceOnly.quarantined {s u : State} (h : TraceOnly s u) : u.quarantined = s.quarantined := Eq.trans (congrArg State.quarantined (show u = _ from h)) rfl
theorem TraceOnly.rsvWrites {s u : State} (h : TraceOnly s u) : u.rsvWrites = s.rsvWrites := Eq.trans (congrArg State.rsvWrites (show u = _ from h)) rfl

theorem EventOnly.pending {s u : State} (h : EventOnly s u) : u.pending = s.pending := Eq.trans (congrArg State.pending (show u = _ from h)) rfl
theorem EventOnly.free {s u : State} (h : EventOnly s u) : u.free = s.free := Eq.trans (congrArg State.free (show u = _ from h)) rfl
theorem EventOnly.code {s u : State} (h : EventOnly s u) : u.code = s.code := Eq.trans (congrArg State.code (show u = _ from h)) rfl
theorem EventOnly.time {s u : State} (h : EventOnly s u) : u.time = s.time := Eq.trans (congrArg State.time (show u = _ from h)) rfl
theorem EventOnly.dram {s u : State} (h : EventOnly s u) : u.dram = s.dram := Eq.trans (congrArg State.dram (show u = _ from h)) rfl
theorem EventOnly.cells {s u : State} (h : EventOnly s u) : u.cells = s.cells := Eq.trans (congrArg State.cells (show u = _ from h)) rfl
theorem EventOnly.partitions {s u : State} (h : EventOnly s u) : u.partitions = s.partitions := Eq.trans (congrArg State.partitions (show u = _ from h)) rfl
theorem EventOnly.contexts {s u : State} (h : EventOnly s u) : u.contexts = s.contexts := Eq.trans (congrArg State.contexts (show u = _ from h)) rfl
theorem EventOnly.quarters {s u : State} (h : EventOnly s u) : u.quarters = s.quarters := Eq.trans (congrArg State.quarters (show u = _ from h)) rfl
theorem EventOnly.migration {s u : State} (h : EventOnly s u) : u.migration = s.migration := Eq.trans (congrArg State.migration (show u = _ from h)) rfl
theorem EventOnly.images {s u : State} (h : EventOnly s u) : u.images = s.images := Eq.trans (congrArg State.images (show u = _ from h)) rfl
theorem EventOnly.nextImage {s u : State} (h : EventOnly s u) : u.nextImage = s.nextImage := Eq.trans (congrArg State.nextImage (show u = _ from h)) rfl
theorem EventOnly.launches {s u : State} (h : EventOnly s u) : u.launches = s.launches := Eq.trans (congrArg State.launches (show u = _ from h)) rfl
theorem EventOnly.nextLaunch {s u : State} (h : EventOnly s u) : u.nextLaunch = s.nextLaunch := Eq.trans (congrArg State.nextLaunch (show u = _ from h)) rfl
theorem EventOnly.nextOrder {s u : State} (h : EventOnly s u) : u.nextOrder = s.nextOrder := Eq.trans (congrArg State.nextOrder (show u = _ from h)) rfl
theorem EventOnly.queues {s u : State} (h : EventOnly s u) : u.queues = s.queues := Eq.trans (congrArg State.queues (show u = _ from h)) rfl
theorem EventOnly.admin {s u : State} (h : EventOnly s u) : u.admin = s.admin := Eq.trans (congrArg State.admin (show u = _ from h)) rfl
theorem EventOnly.hostOut {s u : State} (h : EventOnly s u) : u.hostOut = s.hostOut := Eq.trans (congrArg State.hostOut (show u = _ from h)) rfl
theorem EventOnly.host {s u : State} (h : EventOnly s u) : u.host = s.host := Eq.trans (congrArg State.host (show u = _ from h)) rfl
theorem EventOnly.regions {s u : State} (h : EventOnly s u) : u.regions = s.regions := Eq.trans (congrArg State.regions (show u = _ from h)) rfl
theorem EventOnly.streamErr {s u : State} (h : EventOnly s u) : u.streamErr = s.streamErr := Eq.trans (congrArg State.streamErr (show u = _ from h)) rfl
theorem EventOnly.tlbs {s u : State} (h : EventOnly s u) : u.tlbs = s.tlbs := Eq.trans (congrArg State.tlbs (show u = _ from h)) rfl
theorem EventOnly.walks {s u : State} (h : EventOnly s u) : u.walks = s.walks := Eq.trans (congrArg State.walks (show u = _ from h)) rfl
theorem EventOnly.walkCaches {s u : State} (h : EventOnly s u) : u.walkCaches = s.walkCaches := Eq.trans (congrArg State.walkCaches (show u = _ from h)) rfl
theorem EventOnly.collectors {s u : State} (h : EventOnly s u) : u.collectors = s.collectors := Eq.trans (congrArg State.collectors (show u = _ from h)) rfl
theorem EventOnly.drains {s u : State} (h : EventOnly s u) : u.drains = s.drains := Eq.trans (congrArg State.drains (show u = _ from h)) rfl
theorem EventOnly.nextDrain {s u : State} (h : EventOnly s u) : u.nextDrain = s.nextDrain := Eq.trans (congrArg State.nextDrain (show u = _ from h)) rfl
theorem EventOnly.groups {s u : State} (h : EventOnly s u) : u.groups = s.groups := Eq.trans (congrArg State.groups (show u = _ from h)) rfl
theorem EventOnly.nextHandle {s u : State} (h : EventOnly s u) : u.nextHandle = s.nextHandle := Eq.trans (congrArg State.nextHandle (show u = _ from h)) rfl
theorem EventOnly.tables {s u : State} (h : EventOnly s u) : u.tables = s.tables := Eq.trans (congrArg State.tables (show u = _ from h)) rfl
theorem EventOnly.foragers {s u : State} (h : EventOnly s u) : u.foragers = s.foragers := Eq.trans (congrArg State.foragers (show u = _ from h)) rfl
theorem EventOnly.works {s u : State} (h : EventOnly s u) : u.works = s.works := Eq.trans (congrArg State.works (show u = _ from h)) rfl
theorem EventOnly.nextWork {s u : State} (h : EventOnly s u) : u.nextWork = s.nextWork := Eq.trans (congrArg State.nextWork (show u = _ from h)) rfl
theorem EventOnly.staged {s u : State} (h : EventOnly s u) : u.staged = s.staged := Eq.trans (congrArg State.staged (show u = _ from h)) rfl
theorem EventOnly.patches {s u : State} (h : EventOnly s u) : u.patches = s.patches := Eq.trans (congrArg State.patches (show u = _ from h)) rfl
theorem EventOnly.committed {s u : State} (h : EventOnly s u) : u.committed = s.committed := Eq.trans (congrArg State.committed (show u = _ from h)) rfl
theorem EventOnly.returns {s u : State} (h : EventOnly s u) : u.returns = s.returns := Eq.trans (congrArg State.returns (show u = _ from h)) rfl
theorem EventOnly.nextReturn {s u : State} (h : EventOnly s u) : u.nextReturn = s.nextReturn := Eq.trans (congrArg State.nextReturn (show u = _ from h)) rfl
theorem EventOnly.fanStages {s u : State} (h : EventOnly s u) : u.fanStages = s.fanStages := Eq.trans (congrArg State.fanStages (show u = _ from h)) rfl
theorem EventOnly.earlyReqs {s u : State} (h : EventOnly s u) : u.earlyReqs = s.earlyReqs := Eq.trans (congrArg State.earlyReqs (show u = _ from h)) rfl
theorem EventOnly.spanWait {s u : State} (h : EventOnly s u) : u.spanWait = s.spanWait := Eq.trans (congrArg State.spanWait (show u = _ from h)) rfl
theorem EventOnly.spanPort {s u : State} (h : EventOnly s u) : u.spanPort = s.spanPort := Eq.trans (congrArg State.spanPort (show u = _ from h)) rfl
theorem EventOnly.fanned {s u : State} (h : EventOnly s u) : u.fanned = s.fanned := Eq.trans (congrArg State.fanned (show u = _ from h)) rfl
theorem EventOnly.windows {s u : State} (h : EventOnly s u) : u.windows = s.windows := Eq.trans (congrArg State.windows (show u = _ from h)) rfl
theorem EventOnly.keyFails {s u : State} (h : EventOnly s u) : u.keyFails = s.keyFails := Eq.trans (congrArg State.keyFails (show u = _ from h)) rfl
theorem EventOnly.imports {s u : State} (h : EventOnly s u) : u.imports = s.imports := Eq.trans (congrArg State.imports (show u = _ from h)) rfl
theorem EventOnly.probes {s u : State} (h : EventOnly s u) : u.probes = s.probes := Eq.trans (congrArg State.probes (show u = _ from h)) rfl
theorem EventOnly.nextTag {s u : State} (h : EventOnly s u) : u.nextTag = s.nextTag := Eq.trans (congrArg State.nextTag (show u = _ from h)) rfl
theorem EventOnly.winReqs {s u : State} (h : EventOnly s u) : u.winReqs = s.winReqs := Eq.trans (congrArg State.winReqs (show u = _ from h)) rfl
theorem EventOnly.fabricOut {s u : State} (h : EventOnly s u) : u.fabricOut = s.fabricOut := Eq.trans (congrArg State.fabricOut (show u = _ from h)) rfl
theorem EventOnly.wagglesOut {s u : State} (h : EventOnly s u) : u.wagglesOut = s.wagglesOut := Eq.trans (congrArg State.wagglesOut (show u = _ from h)) rfl
theorem EventOnly.waggleSeq {s u : State} (h : EventOnly s u) : u.waggleSeq = s.waggleSeq := Eq.trans (congrArg State.waggleSeq (show u = _ from h)) rfl
theorem EventOnly.waggleAt {s u : State} (h : EventOnly s u) : u.waggleAt = s.waggleAt := Eq.trans (congrArg State.waggleAt (show u = _ from h)) rfl
theorem EventOnly.ports {s u : State} (h : EventOnly s u) : u.ports = s.ports := Eq.trans (congrArg State.ports (show u = _ from h)) rfl
theorem EventOnly.wire {s u : State} (h : EventOnly s u) : u.wire = s.wire := Eq.trans (congrArg State.wire (show u = _ from h)) rfl
theorem EventOnly.delivered {s u : State} (h : EventOnly s u) : u.delivered = s.delivered := Eq.trans (congrArg State.delivered (show u = _ from h)) rfl
theorem EventOnly.filter {s u : State} (h : EventOnly s u) : u.filter = s.filter := Eq.trans (congrArg State.filter (show u = _ from h)) rfl
theorem EventOnly.qps {s u : State} (h : EventOnly s u) : u.qps = s.qps := Eq.trans (congrArg State.qps (show u = _ from h)) rfl
theorem EventOnly.ethOut {s u : State} (h : EventOnly s u) : u.ethOut = s.ethOut := Eq.trans (congrArg State.ethOut (show u = _ from h)) rfl
theorem EventOnly.keyGens {s u : State} (h : EventOnly s u) : u.keyGens = s.keyGens := Eq.trans (congrArg State.keyGens (show u = _ from h)) rfl
theorem EventOnly.tasters {s u : State} (h : EventOnly s u) : u.tasters = s.tasters := Eq.trans (congrArg State.tasters (show u = _ from h)) rfl
theorem EventOnly.nextTaster {s u : State} (h : EventOnly s u) : u.nextTaster = s.nextTaster := Eq.trans (congrArg State.nextTaster (show u = _ from h)) rfl
theorem EventOnly.health {s u : State} (h : EventOnly s u) : u.health = s.health := Eq.trans (congrArg State.health (show u = _ from h)) rfl
theorem EventOnly.replicas {s u : State} (h : EventOnly s u) : u.replicas = s.replicas := Eq.trans (congrArg State.replicas (show u = _ from h)) rfl
theorem EventOnly.power {s u : State} (h : EventOnly s u) : u.power = s.power := Eq.trans (congrArg State.power (show u = _ from h)) rfl
theorem EventOnly.manager {s u : State} (h : EventOnly s u) : u.manager = s.manager := Eq.trans (congrArg State.manager (show u = _ from h)) rfl
theorem EventOnly.therms {s u : State} (h : EventOnly s u) : u.therms = s.therms := Eq.trans (congrArg State.therms (show u = _ from h)) rfl
theorem EventOnly.channels {s u : State} (h : EventOnly s u) : u.channels = s.channels := Eq.trans (congrArg State.channels (show u = _ from h)) rfl
theorem EventOnly.rowActs {s u : State} (h : EventOnly s u) : u.rowActs = s.rowActs := Eq.trans (congrArg State.rowActs (show u = _ from h)) rfl
theorem EventOnly.damage {s u : State} (h : EventOnly s u) : u.damage = s.damage := Eq.trans (congrArg State.damage (show u = _ from h)) rfl
theorem EventOnly.fixups {s u : State} (h : EventOnly s u) : u.fixups = s.fixups := Eq.trans (congrArg State.fixups (show u = _ from h)) rfl
theorem EventOnly.struck {s u : State} (h : EventOnly s u) : u.struck = s.struck := Eq.trans (congrArg State.struck (show u = _ from h)) rfl
theorem EventOnly.memLog {s u : State} (h : EventOnly s u) : u.memLog = s.memLog := Eq.trans (congrArg State.memLog (show u = _ from h)) rfl
theorem EventOnly.tracer {s u : State} (h : EventOnly s u) : u.tracer = s.tracer := Eq.trans (congrArg State.tracer (show u = _ from h)) rfl
theorem EventOnly.keeper {s u : State} (h : EventOnly s u) : u.keeper = s.keeper := Eq.trans (congrArg State.keeper (show u = _ from h)) rfl
theorem EventOnly.boot {s u : State} (h : EventOnly s u) : u.boot = s.boot := Eq.trans (congrArg State.boot (show u = _ from h)) rfl
theorem EventOnly.keeperUp {s u : State} (h : EventOnly s u) : u.keeperUp = s.keeperUp := Eq.trans (congrArg State.keeperUp (show u = _ from h)) rfl
theorem EventOnly.fieldUsable {s u : State} (h : EventOnly s u) : u.fieldUsable = s.fieldUsable := Eq.trans (congrArg State.fieldUsable (show u = _ from h)) rfl
theorem EventOnly.refclk {s u : State} (h : EventOnly s u) : u.refclk = s.refclk := Eq.trans (congrArg State.refclk (show u = _ from h)) rfl
theorem EventOnly.blobs {s u : State} (h : EventOnly s u) : u.blobs = s.blobs := Eq.trans (congrArg State.blobs (show u = _ from h)) rfl
theorem EventOnly.quarantined {s u : State} (h : EventOnly s u) : u.quarantined = s.quarantined := Eq.trans (congrArg State.quarantined (show u = _ from h)) rfl
theorem EventOnly.rsvWrites {s u : State} (h : EventOnly s u) : u.rsvWrites = s.rsvWrites := Eq.trans (congrArg State.rsvWrites (show u = _ from h)) rfl

theorem HostOnly.pending {s u : State} (h : HostOnly s u) : u.pending = s.pending := Eq.trans (congrArg State.pending (show u = _ from h)) rfl
theorem HostOnly.free {s u : State} (h : HostOnly s u) : u.free = s.free := Eq.trans (congrArg State.free (show u = _ from h)) rfl
theorem HostOnly.code {s u : State} (h : HostOnly s u) : u.code = s.code := Eq.trans (congrArg State.code (show u = _ from h)) rfl
theorem HostOnly.time {s u : State} (h : HostOnly s u) : u.time = s.time := Eq.trans (congrArg State.time (show u = _ from h)) rfl
theorem HostOnly.dram {s u : State} (h : HostOnly s u) : u.dram = s.dram := Eq.trans (congrArg State.dram (show u = _ from h)) rfl
theorem HostOnly.cells {s u : State} (h : HostOnly s u) : u.cells = s.cells := Eq.trans (congrArg State.cells (show u = _ from h)) rfl
theorem HostOnly.partitions {s u : State} (h : HostOnly s u) : u.partitions = s.partitions := Eq.trans (congrArg State.partitions (show u = _ from h)) rfl
theorem HostOnly.contexts {s u : State} (h : HostOnly s u) : u.contexts = s.contexts := Eq.trans (congrArg State.contexts (show u = _ from h)) rfl
theorem HostOnly.quarters {s u : State} (h : HostOnly s u) : u.quarters = s.quarters := Eq.trans (congrArg State.quarters (show u = _ from h)) rfl
theorem HostOnly.migration {s u : State} (h : HostOnly s u) : u.migration = s.migration := Eq.trans (congrArg State.migration (show u = _ from h)) rfl
theorem HostOnly.images {s u : State} (h : HostOnly s u) : u.images = s.images := Eq.trans (congrArg State.images (show u = _ from h)) rfl
theorem HostOnly.nextImage {s u : State} (h : HostOnly s u) : u.nextImage = s.nextImage := Eq.trans (congrArg State.nextImage (show u = _ from h)) rfl
theorem HostOnly.launches {s u : State} (h : HostOnly s u) : u.launches = s.launches := Eq.trans (congrArg State.launches (show u = _ from h)) rfl
theorem HostOnly.nextLaunch {s u : State} (h : HostOnly s u) : u.nextLaunch = s.nextLaunch := Eq.trans (congrArg State.nextLaunch (show u = _ from h)) rfl
theorem HostOnly.nextOrder {s u : State} (h : HostOnly s u) : u.nextOrder = s.nextOrder := Eq.trans (congrArg State.nextOrder (show u = _ from h)) rfl
theorem HostOnly.queues {s u : State} (h : HostOnly s u) : u.queues = s.queues := Eq.trans (congrArg State.queues (show u = _ from h)) rfl
theorem HostOnly.regions {s u : State} (h : HostOnly s u) : u.regions = s.regions := Eq.trans (congrArg State.regions (show u = _ from h)) rfl
theorem HostOnly.streamErr {s u : State} (h : HostOnly s u) : u.streamErr = s.streamErr := Eq.trans (congrArg State.streamErr (show u = _ from h)) rfl
theorem HostOnly.tlbs {s u : State} (h : HostOnly s u) : u.tlbs = s.tlbs := Eq.trans (congrArg State.tlbs (show u = _ from h)) rfl
theorem HostOnly.walks {s u : State} (h : HostOnly s u) : u.walks = s.walks := Eq.trans (congrArg State.walks (show u = _ from h)) rfl
theorem HostOnly.walkCaches {s u : State} (h : HostOnly s u) : u.walkCaches = s.walkCaches := Eq.trans (congrArg State.walkCaches (show u = _ from h)) rfl
theorem HostOnly.collectors {s u : State} (h : HostOnly s u) : u.collectors = s.collectors := Eq.trans (congrArg State.collectors (show u = _ from h)) rfl
theorem HostOnly.drains {s u : State} (h : HostOnly s u) : u.drains = s.drains := Eq.trans (congrArg State.drains (show u = _ from h)) rfl
theorem HostOnly.nextDrain {s u : State} (h : HostOnly s u) : u.nextDrain = s.nextDrain := Eq.trans (congrArg State.nextDrain (show u = _ from h)) rfl
theorem HostOnly.groups {s u : State} (h : HostOnly s u) : u.groups = s.groups := Eq.trans (congrArg State.groups (show u = _ from h)) rfl
theorem HostOnly.nextHandle {s u : State} (h : HostOnly s u) : u.nextHandle = s.nextHandle := Eq.trans (congrArg State.nextHandle (show u = _ from h)) rfl
theorem HostOnly.tables {s u : State} (h : HostOnly s u) : u.tables = s.tables := Eq.trans (congrArg State.tables (show u = _ from h)) rfl
theorem HostOnly.foragers {s u : State} (h : HostOnly s u) : u.foragers = s.foragers := Eq.trans (congrArg State.foragers (show u = _ from h)) rfl
theorem HostOnly.works {s u : State} (h : HostOnly s u) : u.works = s.works := Eq.trans (congrArg State.works (show u = _ from h)) rfl
theorem HostOnly.nextWork {s u : State} (h : HostOnly s u) : u.nextWork = s.nextWork := Eq.trans (congrArg State.nextWork (show u = _ from h)) rfl
theorem HostOnly.staged {s u : State} (h : HostOnly s u) : u.staged = s.staged := Eq.trans (congrArg State.staged (show u = _ from h)) rfl
theorem HostOnly.patches {s u : State} (h : HostOnly s u) : u.patches = s.patches := Eq.trans (congrArg State.patches (show u = _ from h)) rfl
theorem HostOnly.committed {s u : State} (h : HostOnly s u) : u.committed = s.committed := Eq.trans (congrArg State.committed (show u = _ from h)) rfl
theorem HostOnly.returns {s u : State} (h : HostOnly s u) : u.returns = s.returns := Eq.trans (congrArg State.returns (show u = _ from h)) rfl
theorem HostOnly.nextReturn {s u : State} (h : HostOnly s u) : u.nextReturn = s.nextReturn := Eq.trans (congrArg State.nextReturn (show u = _ from h)) rfl
theorem HostOnly.fanStages {s u : State} (h : HostOnly s u) : u.fanStages = s.fanStages := Eq.trans (congrArg State.fanStages (show u = _ from h)) rfl
theorem HostOnly.earlyReqs {s u : State} (h : HostOnly s u) : u.earlyReqs = s.earlyReqs := Eq.trans (congrArg State.earlyReqs (show u = _ from h)) rfl
theorem HostOnly.spanWait {s u : State} (h : HostOnly s u) : u.spanWait = s.spanWait := Eq.trans (congrArg State.spanWait (show u = _ from h)) rfl
theorem HostOnly.spanPort {s u : State} (h : HostOnly s u) : u.spanPort = s.spanPort := Eq.trans (congrArg State.spanPort (show u = _ from h)) rfl
theorem HostOnly.fanned {s u : State} (h : HostOnly s u) : u.fanned = s.fanned := Eq.trans (congrArg State.fanned (show u = _ from h)) rfl
theorem HostOnly.windows {s u : State} (h : HostOnly s u) : u.windows = s.windows := Eq.trans (congrArg State.windows (show u = _ from h)) rfl
theorem HostOnly.keyFails {s u : State} (h : HostOnly s u) : u.keyFails = s.keyFails := Eq.trans (congrArg State.keyFails (show u = _ from h)) rfl
theorem HostOnly.imports {s u : State} (h : HostOnly s u) : u.imports = s.imports := Eq.trans (congrArg State.imports (show u = _ from h)) rfl
theorem HostOnly.probes {s u : State} (h : HostOnly s u) : u.probes = s.probes := Eq.trans (congrArg State.probes (show u = _ from h)) rfl
theorem HostOnly.nextTag {s u : State} (h : HostOnly s u) : u.nextTag = s.nextTag := Eq.trans (congrArg State.nextTag (show u = _ from h)) rfl
theorem HostOnly.winReqs {s u : State} (h : HostOnly s u) : u.winReqs = s.winReqs := Eq.trans (congrArg State.winReqs (show u = _ from h)) rfl
theorem HostOnly.fabricOut {s u : State} (h : HostOnly s u) : u.fabricOut = s.fabricOut := Eq.trans (congrArg State.fabricOut (show u = _ from h)) rfl
theorem HostOnly.wagglesOut {s u : State} (h : HostOnly s u) : u.wagglesOut = s.wagglesOut := Eq.trans (congrArg State.wagglesOut (show u = _ from h)) rfl
theorem HostOnly.waggleSeq {s u : State} (h : HostOnly s u) : u.waggleSeq = s.waggleSeq := Eq.trans (congrArg State.waggleSeq (show u = _ from h)) rfl
theorem HostOnly.waggleAt {s u : State} (h : HostOnly s u) : u.waggleAt = s.waggleAt := Eq.trans (congrArg State.waggleAt (show u = _ from h)) rfl
theorem HostOnly.ports {s u : State} (h : HostOnly s u) : u.ports = s.ports := Eq.trans (congrArg State.ports (show u = _ from h)) rfl
theorem HostOnly.wire {s u : State} (h : HostOnly s u) : u.wire = s.wire := Eq.trans (congrArg State.wire (show u = _ from h)) rfl
theorem HostOnly.delivered {s u : State} (h : HostOnly s u) : u.delivered = s.delivered := Eq.trans (congrArg State.delivered (show u = _ from h)) rfl
theorem HostOnly.filter {s u : State} (h : HostOnly s u) : u.filter = s.filter := Eq.trans (congrArg State.filter (show u = _ from h)) rfl
theorem HostOnly.qps {s u : State} (h : HostOnly s u) : u.qps = s.qps := Eq.trans (congrArg State.qps (show u = _ from h)) rfl
theorem HostOnly.ethOut {s u : State} (h : HostOnly s u) : u.ethOut = s.ethOut := Eq.trans (congrArg State.ethOut (show u = _ from h)) rfl
theorem HostOnly.keyGens {s u : State} (h : HostOnly s u) : u.keyGens = s.keyGens := Eq.trans (congrArg State.keyGens (show u = _ from h)) rfl
theorem HostOnly.tasters {s u : State} (h : HostOnly s u) : u.tasters = s.tasters := Eq.trans (congrArg State.tasters (show u = _ from h)) rfl
theorem HostOnly.nextTaster {s u : State} (h : HostOnly s u) : u.nextTaster = s.nextTaster := Eq.trans (congrArg State.nextTaster (show u = _ from h)) rfl
theorem HostOnly.health {s u : State} (h : HostOnly s u) : u.health = s.health := Eq.trans (congrArg State.health (show u = _ from h)) rfl
theorem HostOnly.replicas {s u : State} (h : HostOnly s u) : u.replicas = s.replicas := Eq.trans (congrArg State.replicas (show u = _ from h)) rfl
theorem HostOnly.power {s u : State} (h : HostOnly s u) : u.power = s.power := Eq.trans (congrArg State.power (show u = _ from h)) rfl
theorem HostOnly.manager {s u : State} (h : HostOnly s u) : u.manager = s.manager := Eq.trans (congrArg State.manager (show u = _ from h)) rfl
theorem HostOnly.therms {s u : State} (h : HostOnly s u) : u.therms = s.therms := Eq.trans (congrArg State.therms (show u = _ from h)) rfl
theorem HostOnly.channels {s u : State} (h : HostOnly s u) : u.channels = s.channels := Eq.trans (congrArg State.channels (show u = _ from h)) rfl
theorem HostOnly.rowActs {s u : State} (h : HostOnly s u) : u.rowActs = s.rowActs := Eq.trans (congrArg State.rowActs (show u = _ from h)) rfl
theorem HostOnly.damage {s u : State} (h : HostOnly s u) : u.damage = s.damage := Eq.trans (congrArg State.damage (show u = _ from h)) rfl
theorem HostOnly.fixups {s u : State} (h : HostOnly s u) : u.fixups = s.fixups := Eq.trans (congrArg State.fixups (show u = _ from h)) rfl
theorem HostOnly.struck {s u : State} (h : HostOnly s u) : u.struck = s.struck := Eq.trans (congrArg State.struck (show u = _ from h)) rfl
theorem HostOnly.memLog {s u : State} (h : HostOnly s u) : u.memLog = s.memLog := Eq.trans (congrArg State.memLog (show u = _ from h)) rfl
theorem HostOnly.tracer {s u : State} (h : HostOnly s u) : u.tracer = s.tracer := Eq.trans (congrArg State.tracer (show u = _ from h)) rfl
theorem HostOnly.keeper {s u : State} (h : HostOnly s u) : u.keeper = s.keeper := Eq.trans (congrArg State.keeper (show u = _ from h)) rfl
theorem HostOnly.boot {s u : State} (h : HostOnly s u) : u.boot = s.boot := Eq.trans (congrArg State.boot (show u = _ from h)) rfl
theorem HostOnly.log {s u : State} (h : HostOnly s u) : u.log = s.log := Eq.trans (congrArg State.log (show u = _ from h)) rfl
theorem HostOnly.fieldOut {s u : State} (h : HostOnly s u) : u.fieldOut = s.fieldOut := Eq.trans (congrArg State.fieldOut (show u = _ from h)) rfl
theorem HostOnly.keeperUp {s u : State} (h : HostOnly s u) : u.keeperUp = s.keeperUp := Eq.trans (congrArg State.keeperUp (show u = _ from h)) rfl
theorem HostOnly.fieldUsable {s u : State} (h : HostOnly s u) : u.fieldUsable = s.fieldUsable := Eq.trans (congrArg State.fieldUsable (show u = _ from h)) rfl
theorem HostOnly.refclk {s u : State} (h : HostOnly s u) : u.refclk = s.refclk := Eq.trans (congrArg State.refclk (show u = _ from h)) rfl
theorem HostOnly.blobs {s u : State} (h : HostOnly s u) : u.blobs = s.blobs := Eq.trans (congrArg State.blobs (show u = _ from h)) rfl
theorem HostOnly.quarantined {s u : State} (h : HostOnly s u) : u.quarantined = s.quarantined := Eq.trans (congrArg State.quarantined (show u = _ from h)) rfl
theorem HostOnly.rsvWrites {s u : State} (h : HostOnly s u) : u.rsvWrites = s.rsvWrites := Eq.trans (congrArg State.rsvWrites (show u = _ from h)) rfl

@[simp] theorem State.trace_pending (s : State) (a k x p : Nat) (d : List Byte) : (s.trace a k x p d).pending = s.pending := (traceOnly_trace s a k x p d).pending
@[simp] theorem State.trace_code (s : State) (a k x p : Nat) (d : List Byte) : (s.trace a k x p d).code = s.code := (traceOnly_trace s a k x p d).code
@[simp] theorem State.trace_time (s : State) (a k x p : Nat) (d : List Byte) : (s.trace a k x p d).time = s.time := (traceOnly_trace s a k x p d).time
@[simp] theorem State.trace_dram (s : State) (a k x p : Nat) (d : List Byte) : (s.trace a k x p d).dram = s.dram := (traceOnly_trace s a k x p d).dram
@[simp] theorem State.trace_cells (s : State) (a k x p : Nat) (d : List Byte) : (s.trace a k x p d).cells = s.cells := (traceOnly_trace s a k x p d).cells
@[simp] theorem State.trace_partitions (s : State) (a k x p : Nat) (d : List Byte) : (s.trace a k x p d).partitions = s.partitions := (traceOnly_trace s a k x p d).partitions
@[simp] theorem State.trace_contexts (s : State) (a k x p : Nat) (d : List Byte) : (s.trace a k x p d).contexts = s.contexts := (traceOnly_trace s a k x p d).contexts
@[simp] theorem State.trace_quarters (s : State) (a k x p : Nat) (d : List Byte) : (s.trace a k x p d).quarters = s.quarters := (traceOnly_trace s a k x p d).quarters
@[simp] theorem State.trace_migration (s : State) (a k x p : Nat) (d : List Byte) : (s.trace a k x p d).migration = s.migration := (traceOnly_trace s a k x p d).migration
@[simp] theorem State.trace_images (s : State) (a k x p : Nat) (d : List Byte) : (s.trace a k x p d).images = s.images := (traceOnly_trace s a k x p d).images
@[simp] theorem State.trace_nextImage (s : State) (a k x p : Nat) (d : List Byte) : (s.trace a k x p d).nextImage = s.nextImage := (traceOnly_trace s a k x p d).nextImage
@[simp] theorem State.trace_launches (s : State) (a k x p : Nat) (d : List Byte) : (s.trace a k x p d).launches = s.launches := (traceOnly_trace s a k x p d).launches
@[simp] theorem State.trace_nextLaunch (s : State) (a k x p : Nat) (d : List Byte) : (s.trace a k x p d).nextLaunch = s.nextLaunch := (traceOnly_trace s a k x p d).nextLaunch
@[simp] theorem State.trace_nextOrder (s : State) (a k x p : Nat) (d : List Byte) : (s.trace a k x p d).nextOrder = s.nextOrder := (traceOnly_trace s a k x p d).nextOrder
@[simp] theorem State.trace_queues (s : State) (a k x p : Nat) (d : List Byte) : (s.trace a k x p d).queues = s.queues := (traceOnly_trace s a k x p d).queues
@[simp] theorem State.trace_admin (s : State) (a k x p : Nat) (d : List Byte) : (s.trace a k x p d).admin = s.admin := (traceOnly_trace s a k x p d).admin
@[simp] theorem State.trace_hostOut (s : State) (a k x p : Nat) (d : List Byte) : (s.trace a k x p d).hostOut = s.hostOut := (traceOnly_trace s a k x p d).hostOut
@[simp] theorem State.trace_host (s : State) (a k x p : Nat) (d : List Byte) : (s.trace a k x p d).host = s.host := (traceOnly_trace s a k x p d).host
@[simp] theorem State.trace_regions (s : State) (a k x p : Nat) (d : List Byte) : (s.trace a k x p d).regions = s.regions := (traceOnly_trace s a k x p d).regions
@[simp] theorem State.trace_streamErr (s : State) (a k x p : Nat) (d : List Byte) : (s.trace a k x p d).streamErr = s.streamErr := (traceOnly_trace s a k x p d).streamErr
@[simp] theorem State.trace_tlbs (s : State) (a k x p : Nat) (d : List Byte) : (s.trace a k x p d).tlbs = s.tlbs := (traceOnly_trace s a k x p d).tlbs
@[simp] theorem State.trace_walks (s : State) (a k x p : Nat) (d : List Byte) : (s.trace a k x p d).walks = s.walks := (traceOnly_trace s a k x p d).walks
@[simp] theorem State.trace_walkCaches (s : State) (a k x p : Nat) (d : List Byte) : (s.trace a k x p d).walkCaches = s.walkCaches := (traceOnly_trace s a k x p d).walkCaches
@[simp] theorem State.trace_collectors (s : State) (a k x p : Nat) (d : List Byte) : (s.trace a k x p d).collectors = s.collectors := (traceOnly_trace s a k x p d).collectors
@[simp] theorem State.trace_drains (s : State) (a k x p : Nat) (d : List Byte) : (s.trace a k x p d).drains = s.drains := (traceOnly_trace s a k x p d).drains
@[simp] theorem State.trace_nextDrain (s : State) (a k x p : Nat) (d : List Byte) : (s.trace a k x p d).nextDrain = s.nextDrain := (traceOnly_trace s a k x p d).nextDrain
@[simp] theorem State.trace_groups (s : State) (a k x p : Nat) (d : List Byte) : (s.trace a k x p d).groups = s.groups := (traceOnly_trace s a k x p d).groups
@[simp] theorem State.trace_nextHandle (s : State) (a k x p : Nat) (d : List Byte) : (s.trace a k x p d).nextHandle = s.nextHandle := (traceOnly_trace s a k x p d).nextHandle
@[simp] theorem State.trace_tables (s : State) (a k x p : Nat) (d : List Byte) : (s.trace a k x p d).tables = s.tables := (traceOnly_trace s a k x p d).tables
@[simp] theorem State.trace_foragers (s : State) (a k x p : Nat) (d : List Byte) : (s.trace a k x p d).foragers = s.foragers := (traceOnly_trace s a k x p d).foragers
@[simp] theorem State.trace_works (s : State) (a k x p : Nat) (d : List Byte) : (s.trace a k x p d).works = s.works := (traceOnly_trace s a k x p d).works
@[simp] theorem State.trace_nextWork (s : State) (a k x p : Nat) (d : List Byte) : (s.trace a k x p d).nextWork = s.nextWork := (traceOnly_trace s a k x p d).nextWork
@[simp] theorem State.trace_staged (s : State) (a k x p : Nat) (d : List Byte) : (s.trace a k x p d).staged = s.staged := (traceOnly_trace s a k x p d).staged
@[simp] theorem State.trace_patches (s : State) (a k x p : Nat) (d : List Byte) : (s.trace a k x p d).patches = s.patches := (traceOnly_trace s a k x p d).patches
@[simp] theorem State.trace_committed (s : State) (a k x p : Nat) (d : List Byte) : (s.trace a k x p d).committed = s.committed := (traceOnly_trace s a k x p d).committed
@[simp] theorem State.trace_returns (s : State) (a k x p : Nat) (d : List Byte) : (s.trace a k x p d).returns = s.returns := (traceOnly_trace s a k x p d).returns
@[simp] theorem State.trace_nextReturn (s : State) (a k x p : Nat) (d : List Byte) : (s.trace a k x p d).nextReturn = s.nextReturn := (traceOnly_trace s a k x p d).nextReturn
@[simp] theorem State.trace_fanStages (s : State) (a k x p : Nat) (d : List Byte) : (s.trace a k x p d).fanStages = s.fanStages := (traceOnly_trace s a k x p d).fanStages
@[simp] theorem State.trace_earlyReqs (s : State) (a k x p : Nat) (d : List Byte) : (s.trace a k x p d).earlyReqs = s.earlyReqs := (traceOnly_trace s a k x p d).earlyReqs
@[simp] theorem State.trace_spanWait (s : State) (a k x p : Nat) (d : List Byte) : (s.trace a k x p d).spanWait = s.spanWait := (traceOnly_trace s a k x p d).spanWait
@[simp] theorem State.trace_spanPort (s : State) (a k x p : Nat) (d : List Byte) : (s.trace a k x p d).spanPort = s.spanPort := (traceOnly_trace s a k x p d).spanPort
@[simp] theorem State.trace_fanned (s : State) (a k x p : Nat) (d : List Byte) : (s.trace a k x p d).fanned = s.fanned := (traceOnly_trace s a k x p d).fanned
@[simp] theorem State.trace_windows (s : State) (a k x p : Nat) (d : List Byte) : (s.trace a k x p d).windows = s.windows := (traceOnly_trace s a k x p d).windows
@[simp] theorem State.trace_keyFails (s : State) (a k x p : Nat) (d : List Byte) : (s.trace a k x p d).keyFails = s.keyFails := (traceOnly_trace s a k x p d).keyFails
@[simp] theorem State.trace_imports (s : State) (a k x p : Nat) (d : List Byte) : (s.trace a k x p d).imports = s.imports := (traceOnly_trace s a k x p d).imports
@[simp] theorem State.trace_probes (s : State) (a k x p : Nat) (d : List Byte) : (s.trace a k x p d).probes = s.probes := (traceOnly_trace s a k x p d).probes
@[simp] theorem State.trace_nextTag (s : State) (a k x p : Nat) (d : List Byte) : (s.trace a k x p d).nextTag = s.nextTag := (traceOnly_trace s a k x p d).nextTag
@[simp] theorem State.trace_winReqs (s : State) (a k x p : Nat) (d : List Byte) : (s.trace a k x p d).winReqs = s.winReqs := (traceOnly_trace s a k x p d).winReqs
@[simp] theorem State.trace_fabricOut (s : State) (a k x p : Nat) (d : List Byte) : (s.trace a k x p d).fabricOut = s.fabricOut := (traceOnly_trace s a k x p d).fabricOut
@[simp] theorem State.trace_waggleAt (s : State) (a k x p : Nat) (d : List Byte) : (s.trace a k x p d).waggleAt = s.waggleAt := (traceOnly_trace s a k x p d).waggleAt
@[simp] theorem State.trace_ports (s : State) (a k x p : Nat) (d : List Byte) : (s.trace a k x p d).ports = s.ports := (traceOnly_trace s a k x p d).ports
@[simp] theorem State.trace_wire (s : State) (a k x p : Nat) (d : List Byte) : (s.trace a k x p d).wire = s.wire := (traceOnly_trace s a k x p d).wire
@[simp] theorem State.trace_delivered (s : State) (a k x p : Nat) (d : List Byte) : (s.trace a k x p d).delivered = s.delivered := (traceOnly_trace s a k x p d).delivered
@[simp] theorem State.trace_filter (s : State) (a k x p : Nat) (d : List Byte) : (s.trace a k x p d).filter = s.filter := (traceOnly_trace s a k x p d).filter
@[simp] theorem State.trace_qps (s : State) (a k x p : Nat) (d : List Byte) : (s.trace a k x p d).qps = s.qps := (traceOnly_trace s a k x p d).qps
@[simp] theorem State.trace_ethOut (s : State) (a k x p : Nat) (d : List Byte) : (s.trace a k x p d).ethOut = s.ethOut := (traceOnly_trace s a k x p d).ethOut
@[simp] theorem State.trace_keyGens (s : State) (a k x p : Nat) (d : List Byte) : (s.trace a k x p d).keyGens = s.keyGens := (traceOnly_trace s a k x p d).keyGens
@[simp] theorem State.trace_tasters (s : State) (a k x p : Nat) (d : List Byte) : (s.trace a k x p d).tasters = s.tasters := (traceOnly_trace s a k x p d).tasters
@[simp] theorem State.trace_nextTaster (s : State) (a k x p : Nat) (d : List Byte) : (s.trace a k x p d).nextTaster = s.nextTaster := (traceOnly_trace s a k x p d).nextTaster
@[simp] theorem State.trace_health (s : State) (a k x p : Nat) (d : List Byte) : (s.trace a k x p d).health = s.health := (traceOnly_trace s a k x p d).health
@[simp] theorem State.trace_replicas (s : State) (a k x p : Nat) (d : List Byte) : (s.trace a k x p d).replicas = s.replicas := (traceOnly_trace s a k x p d).replicas
@[simp] theorem State.trace_power (s : State) (a k x p : Nat) (d : List Byte) : (s.trace a k x p d).power = s.power := (traceOnly_trace s a k x p d).power
@[simp] theorem State.trace_manager (s : State) (a k x p : Nat) (d : List Byte) : (s.trace a k x p d).manager = s.manager := (traceOnly_trace s a k x p d).manager
@[simp] theorem State.trace_therms (s : State) (a k x p : Nat) (d : List Byte) : (s.trace a k x p d).therms = s.therms := (traceOnly_trace s a k x p d).therms
@[simp] theorem State.trace_channels (s : State) (a k x p : Nat) (d : List Byte) : (s.trace a k x p d).channels = s.channels := (traceOnly_trace s a k x p d).channels
@[simp] theorem State.trace_rowActs (s : State) (a k x p : Nat) (d : List Byte) : (s.trace a k x p d).rowActs = s.rowActs := (traceOnly_trace s a k x p d).rowActs
@[simp] theorem State.trace_damage (s : State) (a k x p : Nat) (d : List Byte) : (s.trace a k x p d).damage = s.damage := (traceOnly_trace s a k x p d).damage
@[simp] theorem State.trace_fixups (s : State) (a k x p : Nat) (d : List Byte) : (s.trace a k x p d).fixups = s.fixups := (traceOnly_trace s a k x p d).fixups
@[simp] theorem State.trace_struck (s : State) (a k x p : Nat) (d : List Byte) : (s.trace a k x p d).struck = s.struck := (traceOnly_trace s a k x p d).struck
@[simp] theorem State.trace_memLog (s : State) (a k x p : Nat) (d : List Byte) : (s.trace a k x p d).memLog = s.memLog := (traceOnly_trace s a k x p d).memLog
@[simp] theorem State.trace_keeper (s : State) (a k x p : Nat) (d : List Byte) : (s.trace a k x p d).keeper = s.keeper := (traceOnly_trace s a k x p d).keeper
@[simp] theorem State.trace_boot (s : State) (a k x p : Nat) (d : List Byte) : (s.trace a k x p d).boot = s.boot := (traceOnly_trace s a k x p d).boot
@[simp] theorem State.trace_log (s : State) (a k x p : Nat) (d : List Byte) : (s.trace a k x p d).log = s.log := (traceOnly_trace s a k x p d).log
@[simp] theorem State.trace_fieldOut (s : State) (a k x p : Nat) (d : List Byte) : (s.trace a k x p d).fieldOut = s.fieldOut := (traceOnly_trace s a k x p d).fieldOut
@[simp] theorem State.trace_keeperUp (s : State) (a k x p : Nat) (d : List Byte) : (s.trace a k x p d).keeperUp = s.keeperUp := (traceOnly_trace s a k x p d).keeperUp
@[simp] theorem State.trace_fieldUsable (s : State) (a k x p : Nat) (d : List Byte) : (s.trace a k x p d).fieldUsable = s.fieldUsable := (traceOnly_trace s a k x p d).fieldUsable
@[simp] theorem State.trace_refclk (s : State) (a k x p : Nat) (d : List Byte) : (s.trace a k x p d).refclk = s.refclk := (traceOnly_trace s a k x p d).refclk
@[simp] theorem State.trace_blobs (s : State) (a k x p : Nat) (d : List Byte) : (s.trace a k x p d).blobs = s.blobs := (traceOnly_trace s a k x p d).blobs
@[simp] theorem State.trace_quarantined (s : State) (a k x p : Nat) (d : List Byte) : (s.trace a k x p d).quarantined = s.quarantined := (traceOnly_trace s a k x p d).quarantined
@[simp] theorem State.trace_rsvWrites (s : State) (a k x p : Nat) (d : List Byte) : (s.trace a k x p d).rsvWrites = s.rsvWrites := (traceOnly_trace s a k x p d).rsvWrites

@[simp] theorem State.traceCell_pending (s : State) (c k : Nat) (d : List Byte) : (s.traceCell c k d).pending = s.pending := (traceOnly_traceCell s c k d).pending
@[simp] theorem State.traceCell_code (s : State) (c k : Nat) (d : List Byte) : (s.traceCell c k d).code = s.code := (traceOnly_traceCell s c k d).code
@[simp] theorem State.traceCell_time (s : State) (c k : Nat) (d : List Byte) : (s.traceCell c k d).time = s.time := (traceOnly_traceCell s c k d).time
@[simp] theorem State.traceCell_dram (s : State) (c k : Nat) (d : List Byte) : (s.traceCell c k d).dram = s.dram := (traceOnly_traceCell s c k d).dram
@[simp] theorem State.traceCell_cells (s : State) (c k : Nat) (d : List Byte) : (s.traceCell c k d).cells = s.cells := (traceOnly_traceCell s c k d).cells
@[simp] theorem State.traceCell_partitions (s : State) (c k : Nat) (d : List Byte) : (s.traceCell c k d).partitions = s.partitions := (traceOnly_traceCell s c k d).partitions
@[simp] theorem State.traceCell_contexts (s : State) (c k : Nat) (d : List Byte) : (s.traceCell c k d).contexts = s.contexts := (traceOnly_traceCell s c k d).contexts
@[simp] theorem State.traceCell_quarters (s : State) (c k : Nat) (d : List Byte) : (s.traceCell c k d).quarters = s.quarters := (traceOnly_traceCell s c k d).quarters
@[simp] theorem State.traceCell_migration (s : State) (c k : Nat) (d : List Byte) : (s.traceCell c k d).migration = s.migration := (traceOnly_traceCell s c k d).migration
@[simp] theorem State.traceCell_images (s : State) (c k : Nat) (d : List Byte) : (s.traceCell c k d).images = s.images := (traceOnly_traceCell s c k d).images
@[simp] theorem State.traceCell_nextImage (s : State) (c k : Nat) (d : List Byte) : (s.traceCell c k d).nextImage = s.nextImage := (traceOnly_traceCell s c k d).nextImage
@[simp] theorem State.traceCell_launches (s : State) (c k : Nat) (d : List Byte) : (s.traceCell c k d).launches = s.launches := (traceOnly_traceCell s c k d).launches
@[simp] theorem State.traceCell_nextLaunch (s : State) (c k : Nat) (d : List Byte) : (s.traceCell c k d).nextLaunch = s.nextLaunch := (traceOnly_traceCell s c k d).nextLaunch
@[simp] theorem State.traceCell_nextOrder (s : State) (c k : Nat) (d : List Byte) : (s.traceCell c k d).nextOrder = s.nextOrder := (traceOnly_traceCell s c k d).nextOrder
@[simp] theorem State.traceCell_queues (s : State) (c k : Nat) (d : List Byte) : (s.traceCell c k d).queues = s.queues := (traceOnly_traceCell s c k d).queues
@[simp] theorem State.traceCell_admin (s : State) (c k : Nat) (d : List Byte) : (s.traceCell c k d).admin = s.admin := (traceOnly_traceCell s c k d).admin
@[simp] theorem State.traceCell_hostOut (s : State) (c k : Nat) (d : List Byte) : (s.traceCell c k d).hostOut = s.hostOut := (traceOnly_traceCell s c k d).hostOut
@[simp] theorem State.traceCell_host (s : State) (c k : Nat) (d : List Byte) : (s.traceCell c k d).host = s.host := (traceOnly_traceCell s c k d).host
@[simp] theorem State.traceCell_regions (s : State) (c k : Nat) (d : List Byte) : (s.traceCell c k d).regions = s.regions := (traceOnly_traceCell s c k d).regions
@[simp] theorem State.traceCell_streamErr (s : State) (c k : Nat) (d : List Byte) : (s.traceCell c k d).streamErr = s.streamErr := (traceOnly_traceCell s c k d).streamErr
@[simp] theorem State.traceCell_tlbs (s : State) (c k : Nat) (d : List Byte) : (s.traceCell c k d).tlbs = s.tlbs := (traceOnly_traceCell s c k d).tlbs
@[simp] theorem State.traceCell_walks (s : State) (c k : Nat) (d : List Byte) : (s.traceCell c k d).walks = s.walks := (traceOnly_traceCell s c k d).walks
@[simp] theorem State.traceCell_walkCaches (s : State) (c k : Nat) (d : List Byte) : (s.traceCell c k d).walkCaches = s.walkCaches := (traceOnly_traceCell s c k d).walkCaches
@[simp] theorem State.traceCell_collectors (s : State) (c k : Nat) (d : List Byte) : (s.traceCell c k d).collectors = s.collectors := (traceOnly_traceCell s c k d).collectors
@[simp] theorem State.traceCell_drains (s : State) (c k : Nat) (d : List Byte) : (s.traceCell c k d).drains = s.drains := (traceOnly_traceCell s c k d).drains
@[simp] theorem State.traceCell_nextDrain (s : State) (c k : Nat) (d : List Byte) : (s.traceCell c k d).nextDrain = s.nextDrain := (traceOnly_traceCell s c k d).nextDrain
@[simp] theorem State.traceCell_groups (s : State) (c k : Nat) (d : List Byte) : (s.traceCell c k d).groups = s.groups := (traceOnly_traceCell s c k d).groups
@[simp] theorem State.traceCell_nextHandle (s : State) (c k : Nat) (d : List Byte) : (s.traceCell c k d).nextHandle = s.nextHandle := (traceOnly_traceCell s c k d).nextHandle
@[simp] theorem State.traceCell_tables (s : State) (c k : Nat) (d : List Byte) : (s.traceCell c k d).tables = s.tables := (traceOnly_traceCell s c k d).tables
@[simp] theorem State.traceCell_foragers (s : State) (c k : Nat) (d : List Byte) : (s.traceCell c k d).foragers = s.foragers := (traceOnly_traceCell s c k d).foragers
@[simp] theorem State.traceCell_works (s : State) (c k : Nat) (d : List Byte) : (s.traceCell c k d).works = s.works := (traceOnly_traceCell s c k d).works
@[simp] theorem State.traceCell_nextWork (s : State) (c k : Nat) (d : List Byte) : (s.traceCell c k d).nextWork = s.nextWork := (traceOnly_traceCell s c k d).nextWork
@[simp] theorem State.traceCell_staged (s : State) (c k : Nat) (d : List Byte) : (s.traceCell c k d).staged = s.staged := (traceOnly_traceCell s c k d).staged
@[simp] theorem State.traceCell_patches (s : State) (c k : Nat) (d : List Byte) : (s.traceCell c k d).patches = s.patches := (traceOnly_traceCell s c k d).patches
@[simp] theorem State.traceCell_committed (s : State) (c k : Nat) (d : List Byte) : (s.traceCell c k d).committed = s.committed := (traceOnly_traceCell s c k d).committed
@[simp] theorem State.traceCell_returns (s : State) (c k : Nat) (d : List Byte) : (s.traceCell c k d).returns = s.returns := (traceOnly_traceCell s c k d).returns
@[simp] theorem State.traceCell_nextReturn (s : State) (c k : Nat) (d : List Byte) : (s.traceCell c k d).nextReturn = s.nextReturn := (traceOnly_traceCell s c k d).nextReturn
@[simp] theorem State.traceCell_fanStages (s : State) (c k : Nat) (d : List Byte) : (s.traceCell c k d).fanStages = s.fanStages := (traceOnly_traceCell s c k d).fanStages
@[simp] theorem State.traceCell_earlyReqs (s : State) (c k : Nat) (d : List Byte) : (s.traceCell c k d).earlyReqs = s.earlyReqs := (traceOnly_traceCell s c k d).earlyReqs
@[simp] theorem State.traceCell_spanWait (s : State) (c k : Nat) (d : List Byte) : (s.traceCell c k d).spanWait = s.spanWait := (traceOnly_traceCell s c k d).spanWait
@[simp] theorem State.traceCell_spanPort (s : State) (c k : Nat) (d : List Byte) : (s.traceCell c k d).spanPort = s.spanPort := (traceOnly_traceCell s c k d).spanPort
@[simp] theorem State.traceCell_fanned (s : State) (c k : Nat) (d : List Byte) : (s.traceCell c k d).fanned = s.fanned := (traceOnly_traceCell s c k d).fanned
@[simp] theorem State.traceCell_windows (s : State) (c k : Nat) (d : List Byte) : (s.traceCell c k d).windows = s.windows := (traceOnly_traceCell s c k d).windows
@[simp] theorem State.traceCell_keyFails (s : State) (c k : Nat) (d : List Byte) : (s.traceCell c k d).keyFails = s.keyFails := (traceOnly_traceCell s c k d).keyFails
@[simp] theorem State.traceCell_imports (s : State) (c k : Nat) (d : List Byte) : (s.traceCell c k d).imports = s.imports := (traceOnly_traceCell s c k d).imports
@[simp] theorem State.traceCell_probes (s : State) (c k : Nat) (d : List Byte) : (s.traceCell c k d).probes = s.probes := (traceOnly_traceCell s c k d).probes
@[simp] theorem State.traceCell_nextTag (s : State) (c k : Nat) (d : List Byte) : (s.traceCell c k d).nextTag = s.nextTag := (traceOnly_traceCell s c k d).nextTag
@[simp] theorem State.traceCell_winReqs (s : State) (c k : Nat) (d : List Byte) : (s.traceCell c k d).winReqs = s.winReqs := (traceOnly_traceCell s c k d).winReqs
@[simp] theorem State.traceCell_fabricOut (s : State) (c k : Nat) (d : List Byte) : (s.traceCell c k d).fabricOut = s.fabricOut := (traceOnly_traceCell s c k d).fabricOut
@[simp] theorem State.traceCell_waggleAt (s : State) (c k : Nat) (d : List Byte) : (s.traceCell c k d).waggleAt = s.waggleAt := (traceOnly_traceCell s c k d).waggleAt
@[simp] theorem State.traceCell_ports (s : State) (c k : Nat) (d : List Byte) : (s.traceCell c k d).ports = s.ports := (traceOnly_traceCell s c k d).ports
@[simp] theorem State.traceCell_wire (s : State) (c k : Nat) (d : List Byte) : (s.traceCell c k d).wire = s.wire := (traceOnly_traceCell s c k d).wire
@[simp] theorem State.traceCell_delivered (s : State) (c k : Nat) (d : List Byte) : (s.traceCell c k d).delivered = s.delivered := (traceOnly_traceCell s c k d).delivered
@[simp] theorem State.traceCell_filter (s : State) (c k : Nat) (d : List Byte) : (s.traceCell c k d).filter = s.filter := (traceOnly_traceCell s c k d).filter
@[simp] theorem State.traceCell_qps (s : State) (c k : Nat) (d : List Byte) : (s.traceCell c k d).qps = s.qps := (traceOnly_traceCell s c k d).qps
@[simp] theorem State.traceCell_ethOut (s : State) (c k : Nat) (d : List Byte) : (s.traceCell c k d).ethOut = s.ethOut := (traceOnly_traceCell s c k d).ethOut
@[simp] theorem State.traceCell_keyGens (s : State) (c k : Nat) (d : List Byte) : (s.traceCell c k d).keyGens = s.keyGens := (traceOnly_traceCell s c k d).keyGens
@[simp] theorem State.traceCell_tasters (s : State) (c k : Nat) (d : List Byte) : (s.traceCell c k d).tasters = s.tasters := (traceOnly_traceCell s c k d).tasters
@[simp] theorem State.traceCell_nextTaster (s : State) (c k : Nat) (d : List Byte) : (s.traceCell c k d).nextTaster = s.nextTaster := (traceOnly_traceCell s c k d).nextTaster
@[simp] theorem State.traceCell_health (s : State) (c k : Nat) (d : List Byte) : (s.traceCell c k d).health = s.health := (traceOnly_traceCell s c k d).health
@[simp] theorem State.traceCell_replicas (s : State) (c k : Nat) (d : List Byte) : (s.traceCell c k d).replicas = s.replicas := (traceOnly_traceCell s c k d).replicas
@[simp] theorem State.traceCell_power (s : State) (c k : Nat) (d : List Byte) : (s.traceCell c k d).power = s.power := (traceOnly_traceCell s c k d).power
@[simp] theorem State.traceCell_manager (s : State) (c k : Nat) (d : List Byte) : (s.traceCell c k d).manager = s.manager := (traceOnly_traceCell s c k d).manager
@[simp] theorem State.traceCell_therms (s : State) (c k : Nat) (d : List Byte) : (s.traceCell c k d).therms = s.therms := (traceOnly_traceCell s c k d).therms
@[simp] theorem State.traceCell_channels (s : State) (c k : Nat) (d : List Byte) : (s.traceCell c k d).channels = s.channels := (traceOnly_traceCell s c k d).channels
@[simp] theorem State.traceCell_rowActs (s : State) (c k : Nat) (d : List Byte) : (s.traceCell c k d).rowActs = s.rowActs := (traceOnly_traceCell s c k d).rowActs
@[simp] theorem State.traceCell_damage (s : State) (c k : Nat) (d : List Byte) : (s.traceCell c k d).damage = s.damage := (traceOnly_traceCell s c k d).damage
@[simp] theorem State.traceCell_fixups (s : State) (c k : Nat) (d : List Byte) : (s.traceCell c k d).fixups = s.fixups := (traceOnly_traceCell s c k d).fixups
@[simp] theorem State.traceCell_struck (s : State) (c k : Nat) (d : List Byte) : (s.traceCell c k d).struck = s.struck := (traceOnly_traceCell s c k d).struck
@[simp] theorem State.traceCell_memLog (s : State) (c k : Nat) (d : List Byte) : (s.traceCell c k d).memLog = s.memLog := (traceOnly_traceCell s c k d).memLog
@[simp] theorem State.traceCell_keeper (s : State) (c k : Nat) (d : List Byte) : (s.traceCell c k d).keeper = s.keeper := (traceOnly_traceCell s c k d).keeper
@[simp] theorem State.traceCell_boot (s : State) (c k : Nat) (d : List Byte) : (s.traceCell c k d).boot = s.boot := (traceOnly_traceCell s c k d).boot
@[simp] theorem State.traceCell_log (s : State) (c k : Nat) (d : List Byte) : (s.traceCell c k d).log = s.log := (traceOnly_traceCell s c k d).log
@[simp] theorem State.traceCell_fieldOut (s : State) (c k : Nat) (d : List Byte) : (s.traceCell c k d).fieldOut = s.fieldOut := (traceOnly_traceCell s c k d).fieldOut
@[simp] theorem State.traceCell_keeperUp (s : State) (c k : Nat) (d : List Byte) : (s.traceCell c k d).keeperUp = s.keeperUp := (traceOnly_traceCell s c k d).keeperUp
@[simp] theorem State.traceCell_fieldUsable (s : State) (c k : Nat) (d : List Byte) : (s.traceCell c k d).fieldUsable = s.fieldUsable := (traceOnly_traceCell s c k d).fieldUsable
@[simp] theorem State.traceCell_refclk (s : State) (c k : Nat) (d : List Byte) : (s.traceCell c k d).refclk = s.refclk := (traceOnly_traceCell s c k d).refclk
@[simp] theorem State.traceCell_blobs (s : State) (c k : Nat) (d : List Byte) : (s.traceCell c k d).blobs = s.blobs := (traceOnly_traceCell s c k d).blobs
@[simp] theorem State.traceCell_quarantined (s : State) (c k : Nat) (d : List Byte) : (s.traceCell c k d).quarantined = s.quarantined := (traceOnly_traceCell s c k d).quarantined
@[simp] theorem State.traceCell_rsvWrites (s : State) (c k : Nat) (d : List Byte) : (s.traceCell c k d).rsvWrites = s.rsvWrites := (traceOnly_traceCell s c k d).rsvWrites

@[simp] theorem State.traceLaunch_pending (s : State) (k : Nat) (l : Launch) (d : List Byte) : (s.traceLaunch k l d).pending = s.pending := (traceOnly_traceLaunch s k l d).pending
@[simp] theorem State.traceLaunch_code (s : State) (k : Nat) (l : Launch) (d : List Byte) : (s.traceLaunch k l d).code = s.code := (traceOnly_traceLaunch s k l d).code
@[simp] theorem State.traceLaunch_time (s : State) (k : Nat) (l : Launch) (d : List Byte) : (s.traceLaunch k l d).time = s.time := (traceOnly_traceLaunch s k l d).time
@[simp] theorem State.traceLaunch_dram (s : State) (k : Nat) (l : Launch) (d : List Byte) : (s.traceLaunch k l d).dram = s.dram := (traceOnly_traceLaunch s k l d).dram
@[simp] theorem State.traceLaunch_cells (s : State) (k : Nat) (l : Launch) (d : List Byte) : (s.traceLaunch k l d).cells = s.cells := (traceOnly_traceLaunch s k l d).cells
@[simp] theorem State.traceLaunch_partitions (s : State) (k : Nat) (l : Launch) (d : List Byte) : (s.traceLaunch k l d).partitions = s.partitions := (traceOnly_traceLaunch s k l d).partitions
@[simp] theorem State.traceLaunch_contexts (s : State) (k : Nat) (l : Launch) (d : List Byte) : (s.traceLaunch k l d).contexts = s.contexts := (traceOnly_traceLaunch s k l d).contexts
@[simp] theorem State.traceLaunch_quarters (s : State) (k : Nat) (l : Launch) (d : List Byte) : (s.traceLaunch k l d).quarters = s.quarters := (traceOnly_traceLaunch s k l d).quarters
@[simp] theorem State.traceLaunch_migration (s : State) (k : Nat) (l : Launch) (d : List Byte) : (s.traceLaunch k l d).migration = s.migration := (traceOnly_traceLaunch s k l d).migration
@[simp] theorem State.traceLaunch_images (s : State) (k : Nat) (l : Launch) (d : List Byte) : (s.traceLaunch k l d).images = s.images := (traceOnly_traceLaunch s k l d).images
@[simp] theorem State.traceLaunch_nextImage (s : State) (k : Nat) (l : Launch) (d : List Byte) : (s.traceLaunch k l d).nextImage = s.nextImage := (traceOnly_traceLaunch s k l d).nextImage
@[simp] theorem State.traceLaunch_launches (s : State) (k : Nat) (l : Launch) (d : List Byte) : (s.traceLaunch k l d).launches = s.launches := (traceOnly_traceLaunch s k l d).launches
@[simp] theorem State.traceLaunch_nextLaunch (s : State) (k : Nat) (l : Launch) (d : List Byte) : (s.traceLaunch k l d).nextLaunch = s.nextLaunch := (traceOnly_traceLaunch s k l d).nextLaunch
@[simp] theorem State.traceLaunch_nextOrder (s : State) (k : Nat) (l : Launch) (d : List Byte) : (s.traceLaunch k l d).nextOrder = s.nextOrder := (traceOnly_traceLaunch s k l d).nextOrder
@[simp] theorem State.traceLaunch_queues (s : State) (k : Nat) (l : Launch) (d : List Byte) : (s.traceLaunch k l d).queues = s.queues := (traceOnly_traceLaunch s k l d).queues
@[simp] theorem State.traceLaunch_admin (s : State) (k : Nat) (l : Launch) (d : List Byte) : (s.traceLaunch k l d).admin = s.admin := (traceOnly_traceLaunch s k l d).admin
@[simp] theorem State.traceLaunch_hostOut (s : State) (k : Nat) (l : Launch) (d : List Byte) : (s.traceLaunch k l d).hostOut = s.hostOut := (traceOnly_traceLaunch s k l d).hostOut
@[simp] theorem State.traceLaunch_host (s : State) (k : Nat) (l : Launch) (d : List Byte) : (s.traceLaunch k l d).host = s.host := (traceOnly_traceLaunch s k l d).host
@[simp] theorem State.traceLaunch_regions (s : State) (k : Nat) (l : Launch) (d : List Byte) : (s.traceLaunch k l d).regions = s.regions := (traceOnly_traceLaunch s k l d).regions
@[simp] theorem State.traceLaunch_streamErr (s : State) (k : Nat) (l : Launch) (d : List Byte) : (s.traceLaunch k l d).streamErr = s.streamErr := (traceOnly_traceLaunch s k l d).streamErr
@[simp] theorem State.traceLaunch_tlbs (s : State) (k : Nat) (l : Launch) (d : List Byte) : (s.traceLaunch k l d).tlbs = s.tlbs := (traceOnly_traceLaunch s k l d).tlbs
@[simp] theorem State.traceLaunch_walks (s : State) (k : Nat) (l : Launch) (d : List Byte) : (s.traceLaunch k l d).walks = s.walks := (traceOnly_traceLaunch s k l d).walks
@[simp] theorem State.traceLaunch_walkCaches (s : State) (k : Nat) (l : Launch) (d : List Byte) : (s.traceLaunch k l d).walkCaches = s.walkCaches := (traceOnly_traceLaunch s k l d).walkCaches
@[simp] theorem State.traceLaunch_collectors (s : State) (k : Nat) (l : Launch) (d : List Byte) : (s.traceLaunch k l d).collectors = s.collectors := (traceOnly_traceLaunch s k l d).collectors
@[simp] theorem State.traceLaunch_drains (s : State) (k : Nat) (l : Launch) (d : List Byte) : (s.traceLaunch k l d).drains = s.drains := (traceOnly_traceLaunch s k l d).drains
@[simp] theorem State.traceLaunch_nextDrain (s : State) (k : Nat) (l : Launch) (d : List Byte) : (s.traceLaunch k l d).nextDrain = s.nextDrain := (traceOnly_traceLaunch s k l d).nextDrain
@[simp] theorem State.traceLaunch_groups (s : State) (k : Nat) (l : Launch) (d : List Byte) : (s.traceLaunch k l d).groups = s.groups := (traceOnly_traceLaunch s k l d).groups
@[simp] theorem State.traceLaunch_nextHandle (s : State) (k : Nat) (l : Launch) (d : List Byte) : (s.traceLaunch k l d).nextHandle = s.nextHandle := (traceOnly_traceLaunch s k l d).nextHandle
@[simp] theorem State.traceLaunch_tables (s : State) (k : Nat) (l : Launch) (d : List Byte) : (s.traceLaunch k l d).tables = s.tables := (traceOnly_traceLaunch s k l d).tables
@[simp] theorem State.traceLaunch_foragers (s : State) (k : Nat) (l : Launch) (d : List Byte) : (s.traceLaunch k l d).foragers = s.foragers := (traceOnly_traceLaunch s k l d).foragers
@[simp] theorem State.traceLaunch_works (s : State) (k : Nat) (l : Launch) (d : List Byte) : (s.traceLaunch k l d).works = s.works := (traceOnly_traceLaunch s k l d).works
@[simp] theorem State.traceLaunch_nextWork (s : State) (k : Nat) (l : Launch) (d : List Byte) : (s.traceLaunch k l d).nextWork = s.nextWork := (traceOnly_traceLaunch s k l d).nextWork
@[simp] theorem State.traceLaunch_staged (s : State) (k : Nat) (l : Launch) (d : List Byte) : (s.traceLaunch k l d).staged = s.staged := (traceOnly_traceLaunch s k l d).staged
@[simp] theorem State.traceLaunch_patches (s : State) (k : Nat) (l : Launch) (d : List Byte) : (s.traceLaunch k l d).patches = s.patches := (traceOnly_traceLaunch s k l d).patches
@[simp] theorem State.traceLaunch_committed (s : State) (k : Nat) (l : Launch) (d : List Byte) : (s.traceLaunch k l d).committed = s.committed := (traceOnly_traceLaunch s k l d).committed
@[simp] theorem State.traceLaunch_returns (s : State) (k : Nat) (l : Launch) (d : List Byte) : (s.traceLaunch k l d).returns = s.returns := (traceOnly_traceLaunch s k l d).returns
@[simp] theorem State.traceLaunch_nextReturn (s : State) (k : Nat) (l : Launch) (d : List Byte) : (s.traceLaunch k l d).nextReturn = s.nextReturn := (traceOnly_traceLaunch s k l d).nextReturn
@[simp] theorem State.traceLaunch_fanStages (s : State) (k : Nat) (l : Launch) (d : List Byte) : (s.traceLaunch k l d).fanStages = s.fanStages := (traceOnly_traceLaunch s k l d).fanStages
@[simp] theorem State.traceLaunch_earlyReqs (s : State) (k : Nat) (l : Launch) (d : List Byte) : (s.traceLaunch k l d).earlyReqs = s.earlyReqs := (traceOnly_traceLaunch s k l d).earlyReqs
@[simp] theorem State.traceLaunch_spanWait (s : State) (k : Nat) (l : Launch) (d : List Byte) : (s.traceLaunch k l d).spanWait = s.spanWait := (traceOnly_traceLaunch s k l d).spanWait
@[simp] theorem State.traceLaunch_spanPort (s : State) (k : Nat) (l : Launch) (d : List Byte) : (s.traceLaunch k l d).spanPort = s.spanPort := (traceOnly_traceLaunch s k l d).spanPort
@[simp] theorem State.traceLaunch_fanned (s : State) (k : Nat) (l : Launch) (d : List Byte) : (s.traceLaunch k l d).fanned = s.fanned := (traceOnly_traceLaunch s k l d).fanned
@[simp] theorem State.traceLaunch_windows (s : State) (k : Nat) (l : Launch) (d : List Byte) : (s.traceLaunch k l d).windows = s.windows := (traceOnly_traceLaunch s k l d).windows
@[simp] theorem State.traceLaunch_keyFails (s : State) (k : Nat) (l : Launch) (d : List Byte) : (s.traceLaunch k l d).keyFails = s.keyFails := (traceOnly_traceLaunch s k l d).keyFails
@[simp] theorem State.traceLaunch_imports (s : State) (k : Nat) (l : Launch) (d : List Byte) : (s.traceLaunch k l d).imports = s.imports := (traceOnly_traceLaunch s k l d).imports
@[simp] theorem State.traceLaunch_probes (s : State) (k : Nat) (l : Launch) (d : List Byte) : (s.traceLaunch k l d).probes = s.probes := (traceOnly_traceLaunch s k l d).probes
@[simp] theorem State.traceLaunch_nextTag (s : State) (k : Nat) (l : Launch) (d : List Byte) : (s.traceLaunch k l d).nextTag = s.nextTag := (traceOnly_traceLaunch s k l d).nextTag
@[simp] theorem State.traceLaunch_winReqs (s : State) (k : Nat) (l : Launch) (d : List Byte) : (s.traceLaunch k l d).winReqs = s.winReqs := (traceOnly_traceLaunch s k l d).winReqs
@[simp] theorem State.traceLaunch_fabricOut (s : State) (k : Nat) (l : Launch) (d : List Byte) : (s.traceLaunch k l d).fabricOut = s.fabricOut := (traceOnly_traceLaunch s k l d).fabricOut
@[simp] theorem State.traceLaunch_waggleAt (s : State) (k : Nat) (l : Launch) (d : List Byte) : (s.traceLaunch k l d).waggleAt = s.waggleAt := (traceOnly_traceLaunch s k l d).waggleAt
@[simp] theorem State.traceLaunch_ports (s : State) (k : Nat) (l : Launch) (d : List Byte) : (s.traceLaunch k l d).ports = s.ports := (traceOnly_traceLaunch s k l d).ports
@[simp] theorem State.traceLaunch_wire (s : State) (k : Nat) (l : Launch) (d : List Byte) : (s.traceLaunch k l d).wire = s.wire := (traceOnly_traceLaunch s k l d).wire
@[simp] theorem State.traceLaunch_delivered (s : State) (k : Nat) (l : Launch) (d : List Byte) : (s.traceLaunch k l d).delivered = s.delivered := (traceOnly_traceLaunch s k l d).delivered
@[simp] theorem State.traceLaunch_filter (s : State) (k : Nat) (l : Launch) (d : List Byte) : (s.traceLaunch k l d).filter = s.filter := (traceOnly_traceLaunch s k l d).filter
@[simp] theorem State.traceLaunch_qps (s : State) (k : Nat) (l : Launch) (d : List Byte) : (s.traceLaunch k l d).qps = s.qps := (traceOnly_traceLaunch s k l d).qps
@[simp] theorem State.traceLaunch_ethOut (s : State) (k : Nat) (l : Launch) (d : List Byte) : (s.traceLaunch k l d).ethOut = s.ethOut := (traceOnly_traceLaunch s k l d).ethOut
@[simp] theorem State.traceLaunch_keyGens (s : State) (k : Nat) (l : Launch) (d : List Byte) : (s.traceLaunch k l d).keyGens = s.keyGens := (traceOnly_traceLaunch s k l d).keyGens
@[simp] theorem State.traceLaunch_tasters (s : State) (k : Nat) (l : Launch) (d : List Byte) : (s.traceLaunch k l d).tasters = s.tasters := (traceOnly_traceLaunch s k l d).tasters
@[simp] theorem State.traceLaunch_nextTaster (s : State) (k : Nat) (l : Launch) (d : List Byte) : (s.traceLaunch k l d).nextTaster = s.nextTaster := (traceOnly_traceLaunch s k l d).nextTaster
@[simp] theorem State.traceLaunch_health (s : State) (k : Nat) (l : Launch) (d : List Byte) : (s.traceLaunch k l d).health = s.health := (traceOnly_traceLaunch s k l d).health
@[simp] theorem State.traceLaunch_replicas (s : State) (k : Nat) (l : Launch) (d : List Byte) : (s.traceLaunch k l d).replicas = s.replicas := (traceOnly_traceLaunch s k l d).replicas
@[simp] theorem State.traceLaunch_power (s : State) (k : Nat) (l : Launch) (d : List Byte) : (s.traceLaunch k l d).power = s.power := (traceOnly_traceLaunch s k l d).power
@[simp] theorem State.traceLaunch_manager (s : State) (k : Nat) (l : Launch) (d : List Byte) : (s.traceLaunch k l d).manager = s.manager := (traceOnly_traceLaunch s k l d).manager
@[simp] theorem State.traceLaunch_therms (s : State) (k : Nat) (l : Launch) (d : List Byte) : (s.traceLaunch k l d).therms = s.therms := (traceOnly_traceLaunch s k l d).therms
@[simp] theorem State.traceLaunch_channels (s : State) (k : Nat) (l : Launch) (d : List Byte) : (s.traceLaunch k l d).channels = s.channels := (traceOnly_traceLaunch s k l d).channels
@[simp] theorem State.traceLaunch_rowActs (s : State) (k : Nat) (l : Launch) (d : List Byte) : (s.traceLaunch k l d).rowActs = s.rowActs := (traceOnly_traceLaunch s k l d).rowActs
@[simp] theorem State.traceLaunch_damage (s : State) (k : Nat) (l : Launch) (d : List Byte) : (s.traceLaunch k l d).damage = s.damage := (traceOnly_traceLaunch s k l d).damage
@[simp] theorem State.traceLaunch_fixups (s : State) (k : Nat) (l : Launch) (d : List Byte) : (s.traceLaunch k l d).fixups = s.fixups := (traceOnly_traceLaunch s k l d).fixups
@[simp] theorem State.traceLaunch_struck (s : State) (k : Nat) (l : Launch) (d : List Byte) : (s.traceLaunch k l d).struck = s.struck := (traceOnly_traceLaunch s k l d).struck
@[simp] theorem State.traceLaunch_memLog (s : State) (k : Nat) (l : Launch) (d : List Byte) : (s.traceLaunch k l d).memLog = s.memLog := (traceOnly_traceLaunch s k l d).memLog
@[simp] theorem State.traceLaunch_keeper (s : State) (k : Nat) (l : Launch) (d : List Byte) : (s.traceLaunch k l d).keeper = s.keeper := (traceOnly_traceLaunch s k l d).keeper
@[simp] theorem State.traceLaunch_boot (s : State) (k : Nat) (l : Launch) (d : List Byte) : (s.traceLaunch k l d).boot = s.boot := (traceOnly_traceLaunch s k l d).boot
@[simp] theorem State.traceLaunch_log (s : State) (k : Nat) (l : Launch) (d : List Byte) : (s.traceLaunch k l d).log = s.log := (traceOnly_traceLaunch s k l d).log
@[simp] theorem State.traceLaunch_fieldOut (s : State) (k : Nat) (l : Launch) (d : List Byte) : (s.traceLaunch k l d).fieldOut = s.fieldOut := (traceOnly_traceLaunch s k l d).fieldOut
@[simp] theorem State.traceLaunch_keeperUp (s : State) (k : Nat) (l : Launch) (d : List Byte) : (s.traceLaunch k l d).keeperUp = s.keeperUp := (traceOnly_traceLaunch s k l d).keeperUp
@[simp] theorem State.traceLaunch_fieldUsable (s : State) (k : Nat) (l : Launch) (d : List Byte) : (s.traceLaunch k l d).fieldUsable = s.fieldUsable := (traceOnly_traceLaunch s k l d).fieldUsable
@[simp] theorem State.traceLaunch_refclk (s : State) (k : Nat) (l : Launch) (d : List Byte) : (s.traceLaunch k l d).refclk = s.refclk := (traceOnly_traceLaunch s k l d).refclk
@[simp] theorem State.traceLaunch_blobs (s : State) (k : Nat) (l : Launch) (d : List Byte) : (s.traceLaunch k l d).blobs = s.blobs := (traceOnly_traceLaunch s k l d).blobs
@[simp] theorem State.traceLaunch_quarantined (s : State) (k : Nat) (l : Launch) (d : List Byte) : (s.traceLaunch k l d).quarantined = s.quarantined := (traceOnly_traceLaunch s k l d).quarantined
@[simp] theorem State.traceLaunch_rsvWrites (s : State) (k : Nat) (l : Launch) (d : List Byte) : (s.traceLaunch k l d).rsvWrites = s.rsvWrites := (traceOnly_traceLaunch s k l d).rsvWrites

@[simp] theorem State.event_pending (s : State) (c v : Nat) (e : Bool) (d : List Byte) : (s.event c v e d).pending = s.pending := (eventOnly_event s c v e d).pending
@[simp] theorem State.event_free (s : State) (c v : Nat) (e : Bool) (d : List Byte) : (s.event c v e d).free = s.free := (eventOnly_event s c v e d).free
@[simp] theorem State.event_code (s : State) (c v : Nat) (e : Bool) (d : List Byte) : (s.event c v e d).code = s.code := (eventOnly_event s c v e d).code
@[simp] theorem State.event_time (s : State) (c v : Nat) (e : Bool) (d : List Byte) : (s.event c v e d).time = s.time := (eventOnly_event s c v e d).time
@[simp] theorem State.event_dram (s : State) (c v : Nat) (e : Bool) (d : List Byte) : (s.event c v e d).dram = s.dram := (eventOnly_event s c v e d).dram
@[simp] theorem State.event_cells (s : State) (c v : Nat) (e : Bool) (d : List Byte) : (s.event c v e d).cells = s.cells := (eventOnly_event s c v e d).cells
@[simp] theorem State.event_partitions (s : State) (c v : Nat) (e : Bool) (d : List Byte) : (s.event c v e d).partitions = s.partitions := (eventOnly_event s c v e d).partitions
@[simp] theorem State.event_contexts (s : State) (c v : Nat) (e : Bool) (d : List Byte) : (s.event c v e d).contexts = s.contexts := (eventOnly_event s c v e d).contexts
@[simp] theorem State.event_quarters (s : State) (c v : Nat) (e : Bool) (d : List Byte) : (s.event c v e d).quarters = s.quarters := (eventOnly_event s c v e d).quarters
@[simp] theorem State.event_migration (s : State) (c v : Nat) (e : Bool) (d : List Byte) : (s.event c v e d).migration = s.migration := (eventOnly_event s c v e d).migration
@[simp] theorem State.event_images (s : State) (c v : Nat) (e : Bool) (d : List Byte) : (s.event c v e d).images = s.images := (eventOnly_event s c v e d).images
@[simp] theorem State.event_nextImage (s : State) (c v : Nat) (e : Bool) (d : List Byte) : (s.event c v e d).nextImage = s.nextImage := (eventOnly_event s c v e d).nextImage
@[simp] theorem State.event_launches (s : State) (c v : Nat) (e : Bool) (d : List Byte) : (s.event c v e d).launches = s.launches := (eventOnly_event s c v e d).launches
@[simp] theorem State.event_nextLaunch (s : State) (c v : Nat) (e : Bool) (d : List Byte) : (s.event c v e d).nextLaunch = s.nextLaunch := (eventOnly_event s c v e d).nextLaunch
@[simp] theorem State.event_nextOrder (s : State) (c v : Nat) (e : Bool) (d : List Byte) : (s.event c v e d).nextOrder = s.nextOrder := (eventOnly_event s c v e d).nextOrder
@[simp] theorem State.event_queues (s : State) (c v : Nat) (e : Bool) (d : List Byte) : (s.event c v e d).queues = s.queues := (eventOnly_event s c v e d).queues
@[simp] theorem State.event_admin (s : State) (c v : Nat) (e : Bool) (d : List Byte) : (s.event c v e d).admin = s.admin := (eventOnly_event s c v e d).admin
@[simp] theorem State.event_hostOut (s : State) (c v : Nat) (e : Bool) (d : List Byte) : (s.event c v e d).hostOut = s.hostOut := (eventOnly_event s c v e d).hostOut
@[simp] theorem State.event_host (s : State) (c v : Nat) (e : Bool) (d : List Byte) : (s.event c v e d).host = s.host := (eventOnly_event s c v e d).host
@[simp] theorem State.event_regions (s : State) (c v : Nat) (e : Bool) (d : List Byte) : (s.event c v e d).regions = s.regions := (eventOnly_event s c v e d).regions
@[simp] theorem State.event_streamErr (s : State) (c v : Nat) (e : Bool) (d : List Byte) : (s.event c v e d).streamErr = s.streamErr := (eventOnly_event s c v e d).streamErr
@[simp] theorem State.event_tlbs (s : State) (c v : Nat) (e : Bool) (d : List Byte) : (s.event c v e d).tlbs = s.tlbs := (eventOnly_event s c v e d).tlbs
@[simp] theorem State.event_walks (s : State) (c v : Nat) (e : Bool) (d : List Byte) : (s.event c v e d).walks = s.walks := (eventOnly_event s c v e d).walks
@[simp] theorem State.event_walkCaches (s : State) (c v : Nat) (e : Bool) (d : List Byte) : (s.event c v e d).walkCaches = s.walkCaches := (eventOnly_event s c v e d).walkCaches
@[simp] theorem State.event_collectors (s : State) (c v : Nat) (e : Bool) (d : List Byte) : (s.event c v e d).collectors = s.collectors := (eventOnly_event s c v e d).collectors
@[simp] theorem State.event_drains (s : State) (c v : Nat) (e : Bool) (d : List Byte) : (s.event c v e d).drains = s.drains := (eventOnly_event s c v e d).drains
@[simp] theorem State.event_nextDrain (s : State) (c v : Nat) (e : Bool) (d : List Byte) : (s.event c v e d).nextDrain = s.nextDrain := (eventOnly_event s c v e d).nextDrain
@[simp] theorem State.event_groups (s : State) (c v : Nat) (e : Bool) (d : List Byte) : (s.event c v e d).groups = s.groups := (eventOnly_event s c v e d).groups
@[simp] theorem State.event_nextHandle (s : State) (c v : Nat) (e : Bool) (d : List Byte) : (s.event c v e d).nextHandle = s.nextHandle := (eventOnly_event s c v e d).nextHandle
@[simp] theorem State.event_tables (s : State) (c v : Nat) (e : Bool) (d : List Byte) : (s.event c v e d).tables = s.tables := (eventOnly_event s c v e d).tables
@[simp] theorem State.event_foragers (s : State) (c v : Nat) (e : Bool) (d : List Byte) : (s.event c v e d).foragers = s.foragers := (eventOnly_event s c v e d).foragers
@[simp] theorem State.event_works (s : State) (c v : Nat) (e : Bool) (d : List Byte) : (s.event c v e d).works = s.works := (eventOnly_event s c v e d).works
@[simp] theorem State.event_nextWork (s : State) (c v : Nat) (e : Bool) (d : List Byte) : (s.event c v e d).nextWork = s.nextWork := (eventOnly_event s c v e d).nextWork
@[simp] theorem State.event_staged (s : State) (c v : Nat) (e : Bool) (d : List Byte) : (s.event c v e d).staged = s.staged := (eventOnly_event s c v e d).staged
@[simp] theorem State.event_patches (s : State) (c v : Nat) (e : Bool) (d : List Byte) : (s.event c v e d).patches = s.patches := (eventOnly_event s c v e d).patches
@[simp] theorem State.event_committed (s : State) (c v : Nat) (e : Bool) (d : List Byte) : (s.event c v e d).committed = s.committed := (eventOnly_event s c v e d).committed
@[simp] theorem State.event_returns (s : State) (c v : Nat) (e : Bool) (d : List Byte) : (s.event c v e d).returns = s.returns := (eventOnly_event s c v e d).returns
@[simp] theorem State.event_nextReturn (s : State) (c v : Nat) (e : Bool) (d : List Byte) : (s.event c v e d).nextReturn = s.nextReturn := (eventOnly_event s c v e d).nextReturn
@[simp] theorem State.event_fanStages (s : State) (c v : Nat) (e : Bool) (d : List Byte) : (s.event c v e d).fanStages = s.fanStages := (eventOnly_event s c v e d).fanStages
@[simp] theorem State.event_earlyReqs (s : State) (c v : Nat) (e : Bool) (d : List Byte) : (s.event c v e d).earlyReqs = s.earlyReqs := (eventOnly_event s c v e d).earlyReqs
@[simp] theorem State.event_spanWait (s : State) (c v : Nat) (e : Bool) (d : List Byte) : (s.event c v e d).spanWait = s.spanWait := (eventOnly_event s c v e d).spanWait
@[simp] theorem State.event_spanPort (s : State) (c v : Nat) (e : Bool) (d : List Byte) : (s.event c v e d).spanPort = s.spanPort := (eventOnly_event s c v e d).spanPort
@[simp] theorem State.event_fanned (s : State) (c v : Nat) (e : Bool) (d : List Byte) : (s.event c v e d).fanned = s.fanned := (eventOnly_event s c v e d).fanned
@[simp] theorem State.event_windows (s : State) (c v : Nat) (e : Bool) (d : List Byte) : (s.event c v e d).windows = s.windows := (eventOnly_event s c v e d).windows
@[simp] theorem State.event_keyFails (s : State) (c v : Nat) (e : Bool) (d : List Byte) : (s.event c v e d).keyFails = s.keyFails := (eventOnly_event s c v e d).keyFails
@[simp] theorem State.event_imports (s : State) (c v : Nat) (e : Bool) (d : List Byte) : (s.event c v e d).imports = s.imports := (eventOnly_event s c v e d).imports
@[simp] theorem State.event_probes (s : State) (c v : Nat) (e : Bool) (d : List Byte) : (s.event c v e d).probes = s.probes := (eventOnly_event s c v e d).probes
@[simp] theorem State.event_nextTag (s : State) (c v : Nat) (e : Bool) (d : List Byte) : (s.event c v e d).nextTag = s.nextTag := (eventOnly_event s c v e d).nextTag
@[simp] theorem State.event_winReqs (s : State) (c v : Nat) (e : Bool) (d : List Byte) : (s.event c v e d).winReqs = s.winReqs := (eventOnly_event s c v e d).winReqs
@[simp] theorem State.event_fabricOut (s : State) (c v : Nat) (e : Bool) (d : List Byte) : (s.event c v e d).fabricOut = s.fabricOut := (eventOnly_event s c v e d).fabricOut
@[simp] theorem State.event_wagglesOut (s : State) (c v : Nat) (e : Bool) (d : List Byte) : (s.event c v e d).wagglesOut = s.wagglesOut := (eventOnly_event s c v e d).wagglesOut
@[simp] theorem State.event_waggleSeq (s : State) (c v : Nat) (e : Bool) (d : List Byte) : (s.event c v e d).waggleSeq = s.waggleSeq := (eventOnly_event s c v e d).waggleSeq
@[simp] theorem State.event_waggleAt (s : State) (c v : Nat) (e : Bool) (d : List Byte) : (s.event c v e d).waggleAt = s.waggleAt := (eventOnly_event s c v e d).waggleAt
@[simp] theorem State.event_ports (s : State) (c v : Nat) (e : Bool) (d : List Byte) : (s.event c v e d).ports = s.ports := (eventOnly_event s c v e d).ports
@[simp] theorem State.event_wire (s : State) (c v : Nat) (e : Bool) (d : List Byte) : (s.event c v e d).wire = s.wire := (eventOnly_event s c v e d).wire
@[simp] theorem State.event_delivered (s : State) (c v : Nat) (e : Bool) (d : List Byte) : (s.event c v e d).delivered = s.delivered := (eventOnly_event s c v e d).delivered
@[simp] theorem State.event_filter (s : State) (c v : Nat) (e : Bool) (d : List Byte) : (s.event c v e d).filter = s.filter := (eventOnly_event s c v e d).filter
@[simp] theorem State.event_qps (s : State) (c v : Nat) (e : Bool) (d : List Byte) : (s.event c v e d).qps = s.qps := (eventOnly_event s c v e d).qps
@[simp] theorem State.event_ethOut (s : State) (c v : Nat) (e : Bool) (d : List Byte) : (s.event c v e d).ethOut = s.ethOut := (eventOnly_event s c v e d).ethOut
@[simp] theorem State.event_keyGens (s : State) (c v : Nat) (e : Bool) (d : List Byte) : (s.event c v e d).keyGens = s.keyGens := (eventOnly_event s c v e d).keyGens
@[simp] theorem State.event_tasters (s : State) (c v : Nat) (e : Bool) (d : List Byte) : (s.event c v e d).tasters = s.tasters := (eventOnly_event s c v e d).tasters
@[simp] theorem State.event_nextTaster (s : State) (c v : Nat) (e : Bool) (d : List Byte) : (s.event c v e d).nextTaster = s.nextTaster := (eventOnly_event s c v e d).nextTaster
@[simp] theorem State.event_health (s : State) (c v : Nat) (e : Bool) (d : List Byte) : (s.event c v e d).health = s.health := (eventOnly_event s c v e d).health
@[simp] theorem State.event_replicas (s : State) (c v : Nat) (e : Bool) (d : List Byte) : (s.event c v e d).replicas = s.replicas := (eventOnly_event s c v e d).replicas
@[simp] theorem State.event_power (s : State) (c v : Nat) (e : Bool) (d : List Byte) : (s.event c v e d).power = s.power := (eventOnly_event s c v e d).power
@[simp] theorem State.event_manager (s : State) (c v : Nat) (e : Bool) (d : List Byte) : (s.event c v e d).manager = s.manager := (eventOnly_event s c v e d).manager
@[simp] theorem State.event_therms (s : State) (c v : Nat) (e : Bool) (d : List Byte) : (s.event c v e d).therms = s.therms := (eventOnly_event s c v e d).therms
@[simp] theorem State.event_channels (s : State) (c v : Nat) (e : Bool) (d : List Byte) : (s.event c v e d).channels = s.channels := (eventOnly_event s c v e d).channels
@[simp] theorem State.event_rowActs (s : State) (c v : Nat) (e : Bool) (d : List Byte) : (s.event c v e d).rowActs = s.rowActs := (eventOnly_event s c v e d).rowActs
@[simp] theorem State.event_damage (s : State) (c v : Nat) (e : Bool) (d : List Byte) : (s.event c v e d).damage = s.damage := (eventOnly_event s c v e d).damage
@[simp] theorem State.event_fixups (s : State) (c v : Nat) (e : Bool) (d : List Byte) : (s.event c v e d).fixups = s.fixups := (eventOnly_event s c v e d).fixups
@[simp] theorem State.event_struck (s : State) (c v : Nat) (e : Bool) (d : List Byte) : (s.event c v e d).struck = s.struck := (eventOnly_event s c v e d).struck
@[simp] theorem State.event_memLog (s : State) (c v : Nat) (e : Bool) (d : List Byte) : (s.event c v e d).memLog = s.memLog := (eventOnly_event s c v e d).memLog
@[simp] theorem State.event_tracer (s : State) (c v : Nat) (e : Bool) (d : List Byte) : (s.event c v e d).tracer = s.tracer := (eventOnly_event s c v e d).tracer
@[simp] theorem State.event_keeper (s : State) (c v : Nat) (e : Bool) (d : List Byte) : (s.event c v e d).keeper = s.keeper := (eventOnly_event s c v e d).keeper
@[simp] theorem State.event_boot (s : State) (c v : Nat) (e : Bool) (d : List Byte) : (s.event c v e d).boot = s.boot := (eventOnly_event s c v e d).boot
@[simp] theorem State.event_keeperUp (s : State) (c v : Nat) (e : Bool) (d : List Byte) : (s.event c v e d).keeperUp = s.keeperUp := (eventOnly_event s c v e d).keeperUp
@[simp] theorem State.event_fieldUsable (s : State) (c v : Nat) (e : Bool) (d : List Byte) : (s.event c v e d).fieldUsable = s.fieldUsable := (eventOnly_event s c v e d).fieldUsable
@[simp] theorem State.event_refclk (s : State) (c v : Nat) (e : Bool) (d : List Byte) : (s.event c v e d).refclk = s.refclk := (eventOnly_event s c v e d).refclk
@[simp] theorem State.event_blobs (s : State) (c v : Nat) (e : Bool) (d : List Byte) : (s.event c v e d).blobs = s.blobs := (eventOnly_event s c v e d).blobs
@[simp] theorem State.event_quarantined (s : State) (c v : Nat) (e : Bool) (d : List Byte) : (s.event c v e d).quarantined = s.quarantined := (eventOnly_event s c v e d).quarantined
@[simp] theorem State.event_rsvWrites (s : State) (c v : Nat) (e : Bool) (d : List Byte) : (s.event c v e d).rsvWrites = s.rsvWrites := (eventOnly_event s c v e d).rsvWrites

@[simp] theorem State.post_pending (s : State) (m : HostMsg) : (s.post m).pending = s.pending := (hostOnly_post s m).pending
@[simp] theorem State.post_free (s : State) (m : HostMsg) : (s.post m).free = s.free := (hostOnly_post s m).free
@[simp] theorem State.post_code (s : State) (m : HostMsg) : (s.post m).code = s.code := (hostOnly_post s m).code
@[simp] theorem State.post_time (s : State) (m : HostMsg) : (s.post m).time = s.time := (hostOnly_post s m).time
@[simp] theorem State.post_dram (s : State) (m : HostMsg) : (s.post m).dram = s.dram := (hostOnly_post s m).dram
@[simp] theorem State.post_cells (s : State) (m : HostMsg) : (s.post m).cells = s.cells := (hostOnly_post s m).cells
@[simp] theorem State.post_partitions (s : State) (m : HostMsg) : (s.post m).partitions = s.partitions := (hostOnly_post s m).partitions
@[simp] theorem State.post_contexts (s : State) (m : HostMsg) : (s.post m).contexts = s.contexts := (hostOnly_post s m).contexts
@[simp] theorem State.post_quarters (s : State) (m : HostMsg) : (s.post m).quarters = s.quarters := (hostOnly_post s m).quarters
@[simp] theorem State.post_migration (s : State) (m : HostMsg) : (s.post m).migration = s.migration := (hostOnly_post s m).migration
@[simp] theorem State.post_images (s : State) (m : HostMsg) : (s.post m).images = s.images := (hostOnly_post s m).images
@[simp] theorem State.post_nextImage (s : State) (m : HostMsg) : (s.post m).nextImage = s.nextImage := (hostOnly_post s m).nextImage
@[simp] theorem State.post_launches (s : State) (m : HostMsg) : (s.post m).launches = s.launches := (hostOnly_post s m).launches
@[simp] theorem State.post_nextLaunch (s : State) (m : HostMsg) : (s.post m).nextLaunch = s.nextLaunch := (hostOnly_post s m).nextLaunch
@[simp] theorem State.post_nextOrder (s : State) (m : HostMsg) : (s.post m).nextOrder = s.nextOrder := (hostOnly_post s m).nextOrder
@[simp] theorem State.post_queues (s : State) (m : HostMsg) : (s.post m).queues = s.queues := (hostOnly_post s m).queues
@[simp] theorem State.post_regions (s : State) (m : HostMsg) : (s.post m).regions = s.regions := (hostOnly_post s m).regions
@[simp] theorem State.post_streamErr (s : State) (m : HostMsg) : (s.post m).streamErr = s.streamErr := (hostOnly_post s m).streamErr
@[simp] theorem State.post_tlbs (s : State) (m : HostMsg) : (s.post m).tlbs = s.tlbs := (hostOnly_post s m).tlbs
@[simp] theorem State.post_walks (s : State) (m : HostMsg) : (s.post m).walks = s.walks := (hostOnly_post s m).walks
@[simp] theorem State.post_walkCaches (s : State) (m : HostMsg) : (s.post m).walkCaches = s.walkCaches := (hostOnly_post s m).walkCaches
@[simp] theorem State.post_collectors (s : State) (m : HostMsg) : (s.post m).collectors = s.collectors := (hostOnly_post s m).collectors
@[simp] theorem State.post_drains (s : State) (m : HostMsg) : (s.post m).drains = s.drains := (hostOnly_post s m).drains
@[simp] theorem State.post_nextDrain (s : State) (m : HostMsg) : (s.post m).nextDrain = s.nextDrain := (hostOnly_post s m).nextDrain
@[simp] theorem State.post_groups (s : State) (m : HostMsg) : (s.post m).groups = s.groups := (hostOnly_post s m).groups
@[simp] theorem State.post_nextHandle (s : State) (m : HostMsg) : (s.post m).nextHandle = s.nextHandle := (hostOnly_post s m).nextHandle
@[simp] theorem State.post_tables (s : State) (m : HostMsg) : (s.post m).tables = s.tables := (hostOnly_post s m).tables
@[simp] theorem State.post_foragers (s : State) (m : HostMsg) : (s.post m).foragers = s.foragers := (hostOnly_post s m).foragers
@[simp] theorem State.post_works (s : State) (m : HostMsg) : (s.post m).works = s.works := (hostOnly_post s m).works
@[simp] theorem State.post_nextWork (s : State) (m : HostMsg) : (s.post m).nextWork = s.nextWork := (hostOnly_post s m).nextWork
@[simp] theorem State.post_staged (s : State) (m : HostMsg) : (s.post m).staged = s.staged := (hostOnly_post s m).staged
@[simp] theorem State.post_patches (s : State) (m : HostMsg) : (s.post m).patches = s.patches := (hostOnly_post s m).patches
@[simp] theorem State.post_committed (s : State) (m : HostMsg) : (s.post m).committed = s.committed := (hostOnly_post s m).committed
@[simp] theorem State.post_returns (s : State) (m : HostMsg) : (s.post m).returns = s.returns := (hostOnly_post s m).returns
@[simp] theorem State.post_nextReturn (s : State) (m : HostMsg) : (s.post m).nextReturn = s.nextReturn := (hostOnly_post s m).nextReturn
@[simp] theorem State.post_fanStages (s : State) (m : HostMsg) : (s.post m).fanStages = s.fanStages := (hostOnly_post s m).fanStages
@[simp] theorem State.post_earlyReqs (s : State) (m : HostMsg) : (s.post m).earlyReqs = s.earlyReqs := (hostOnly_post s m).earlyReqs
@[simp] theorem State.post_spanWait (s : State) (m : HostMsg) : (s.post m).spanWait = s.spanWait := (hostOnly_post s m).spanWait
@[simp] theorem State.post_spanPort (s : State) (m : HostMsg) : (s.post m).spanPort = s.spanPort := (hostOnly_post s m).spanPort
@[simp] theorem State.post_fanned (s : State) (m : HostMsg) : (s.post m).fanned = s.fanned := (hostOnly_post s m).fanned
@[simp] theorem State.post_windows (s : State) (m : HostMsg) : (s.post m).windows = s.windows := (hostOnly_post s m).windows
@[simp] theorem State.post_keyFails (s : State) (m : HostMsg) : (s.post m).keyFails = s.keyFails := (hostOnly_post s m).keyFails
@[simp] theorem State.post_imports (s : State) (m : HostMsg) : (s.post m).imports = s.imports := (hostOnly_post s m).imports
@[simp] theorem State.post_probes (s : State) (m : HostMsg) : (s.post m).probes = s.probes := (hostOnly_post s m).probes
@[simp] theorem State.post_nextTag (s : State) (m : HostMsg) : (s.post m).nextTag = s.nextTag := (hostOnly_post s m).nextTag
@[simp] theorem State.post_winReqs (s : State) (m : HostMsg) : (s.post m).winReqs = s.winReqs := (hostOnly_post s m).winReqs
@[simp] theorem State.post_fabricOut (s : State) (m : HostMsg) : (s.post m).fabricOut = s.fabricOut := (hostOnly_post s m).fabricOut
@[simp] theorem State.post_wagglesOut (s : State) (m : HostMsg) : (s.post m).wagglesOut = s.wagglesOut := (hostOnly_post s m).wagglesOut
@[simp] theorem State.post_waggleSeq (s : State) (m : HostMsg) : (s.post m).waggleSeq = s.waggleSeq := (hostOnly_post s m).waggleSeq
@[simp] theorem State.post_waggleAt (s : State) (m : HostMsg) : (s.post m).waggleAt = s.waggleAt := (hostOnly_post s m).waggleAt
@[simp] theorem State.post_ports (s : State) (m : HostMsg) : (s.post m).ports = s.ports := (hostOnly_post s m).ports
@[simp] theorem State.post_wire (s : State) (m : HostMsg) : (s.post m).wire = s.wire := (hostOnly_post s m).wire
@[simp] theorem State.post_delivered (s : State) (m : HostMsg) : (s.post m).delivered = s.delivered := (hostOnly_post s m).delivered
@[simp] theorem State.post_filter (s : State) (m : HostMsg) : (s.post m).filter = s.filter := (hostOnly_post s m).filter
@[simp] theorem State.post_qps (s : State) (m : HostMsg) : (s.post m).qps = s.qps := (hostOnly_post s m).qps
@[simp] theorem State.post_ethOut (s : State) (m : HostMsg) : (s.post m).ethOut = s.ethOut := (hostOnly_post s m).ethOut
@[simp] theorem State.post_keyGens (s : State) (m : HostMsg) : (s.post m).keyGens = s.keyGens := (hostOnly_post s m).keyGens
@[simp] theorem State.post_tasters (s : State) (m : HostMsg) : (s.post m).tasters = s.tasters := (hostOnly_post s m).tasters
@[simp] theorem State.post_nextTaster (s : State) (m : HostMsg) : (s.post m).nextTaster = s.nextTaster := (hostOnly_post s m).nextTaster
@[simp] theorem State.post_health (s : State) (m : HostMsg) : (s.post m).health = s.health := (hostOnly_post s m).health
@[simp] theorem State.post_replicas (s : State) (m : HostMsg) : (s.post m).replicas = s.replicas := (hostOnly_post s m).replicas
@[simp] theorem State.post_power (s : State) (m : HostMsg) : (s.post m).power = s.power := (hostOnly_post s m).power
@[simp] theorem State.post_manager (s : State) (m : HostMsg) : (s.post m).manager = s.manager := (hostOnly_post s m).manager
@[simp] theorem State.post_therms (s : State) (m : HostMsg) : (s.post m).therms = s.therms := (hostOnly_post s m).therms
@[simp] theorem State.post_channels (s : State) (m : HostMsg) : (s.post m).channels = s.channels := (hostOnly_post s m).channels
@[simp] theorem State.post_rowActs (s : State) (m : HostMsg) : (s.post m).rowActs = s.rowActs := (hostOnly_post s m).rowActs
@[simp] theorem State.post_damage (s : State) (m : HostMsg) : (s.post m).damage = s.damage := (hostOnly_post s m).damage
@[simp] theorem State.post_fixups (s : State) (m : HostMsg) : (s.post m).fixups = s.fixups := (hostOnly_post s m).fixups
@[simp] theorem State.post_struck (s : State) (m : HostMsg) : (s.post m).struck = s.struck := (hostOnly_post s m).struck
@[simp] theorem State.post_memLog (s : State) (m : HostMsg) : (s.post m).memLog = s.memLog := (hostOnly_post s m).memLog
@[simp] theorem State.post_tracer (s : State) (m : HostMsg) : (s.post m).tracer = s.tracer := (hostOnly_post s m).tracer
@[simp] theorem State.post_keeper (s : State) (m : HostMsg) : (s.post m).keeper = s.keeper := (hostOnly_post s m).keeper
@[simp] theorem State.post_boot (s : State) (m : HostMsg) : (s.post m).boot = s.boot := (hostOnly_post s m).boot
@[simp] theorem State.post_log (s : State) (m : HostMsg) : (s.post m).log = s.log := (hostOnly_post s m).log
@[simp] theorem State.post_fieldOut (s : State) (m : HostMsg) : (s.post m).fieldOut = s.fieldOut := (hostOnly_post s m).fieldOut
@[simp] theorem State.post_keeperUp (s : State) (m : HostMsg) : (s.post m).keeperUp = s.keeperUp := (hostOnly_post s m).keeperUp
@[simp] theorem State.post_fieldUsable (s : State) (m : HostMsg) : (s.post m).fieldUsable = s.fieldUsable := (hostOnly_post s m).fieldUsable
@[simp] theorem State.post_refclk (s : State) (m : HostMsg) : (s.post m).refclk = s.refclk := (hostOnly_post s m).refclk
@[simp] theorem State.post_blobs (s : State) (m : HostMsg) : (s.post m).blobs = s.blobs := (hostOnly_post s m).blobs
@[simp] theorem State.post_quarantined (s : State) (m : HostMsg) : (s.post m).quarantined = s.quarantined := (hostOnly_post s m).quarantined
@[simp] theorem State.post_rsvWrites (s : State) (m : HostMsg) : (s.post m).rsvWrites = s.rsvWrites := (hostOnly_post s m).rsvWrites

@[simp] theorem State.notice_pending (s : State) (c : Nat) (r : List Byte) : (s.notice c r).pending = s.pending := (hostOnly_notice s c r).pending
@[simp] theorem State.notice_free (s : State) (c : Nat) (r : List Byte) : (s.notice c r).free = s.free := (hostOnly_notice s c r).free
@[simp] theorem State.notice_code (s : State) (c : Nat) (r : List Byte) : (s.notice c r).code = s.code := (hostOnly_notice s c r).code
@[simp] theorem State.notice_time (s : State) (c : Nat) (r : List Byte) : (s.notice c r).time = s.time := (hostOnly_notice s c r).time
@[simp] theorem State.notice_dram (s : State) (c : Nat) (r : List Byte) : (s.notice c r).dram = s.dram := (hostOnly_notice s c r).dram
@[simp] theorem State.notice_cells (s : State) (c : Nat) (r : List Byte) : (s.notice c r).cells = s.cells := (hostOnly_notice s c r).cells
@[simp] theorem State.notice_partitions (s : State) (c : Nat) (r : List Byte) : (s.notice c r).partitions = s.partitions := (hostOnly_notice s c r).partitions
@[simp] theorem State.notice_contexts (s : State) (c : Nat) (r : List Byte) : (s.notice c r).contexts = s.contexts := (hostOnly_notice s c r).contexts
@[simp] theorem State.notice_quarters (s : State) (c : Nat) (r : List Byte) : (s.notice c r).quarters = s.quarters := (hostOnly_notice s c r).quarters
@[simp] theorem State.notice_migration (s : State) (c : Nat) (r : List Byte) : (s.notice c r).migration = s.migration := (hostOnly_notice s c r).migration
@[simp] theorem State.notice_images (s : State) (c : Nat) (r : List Byte) : (s.notice c r).images = s.images := (hostOnly_notice s c r).images
@[simp] theorem State.notice_nextImage (s : State) (c : Nat) (r : List Byte) : (s.notice c r).nextImage = s.nextImage := (hostOnly_notice s c r).nextImage
@[simp] theorem State.notice_launches (s : State) (c : Nat) (r : List Byte) : (s.notice c r).launches = s.launches := (hostOnly_notice s c r).launches
@[simp] theorem State.notice_nextLaunch (s : State) (c : Nat) (r : List Byte) : (s.notice c r).nextLaunch = s.nextLaunch := (hostOnly_notice s c r).nextLaunch
@[simp] theorem State.notice_nextOrder (s : State) (c : Nat) (r : List Byte) : (s.notice c r).nextOrder = s.nextOrder := (hostOnly_notice s c r).nextOrder
@[simp] theorem State.notice_queues (s : State) (c : Nat) (r : List Byte) : (s.notice c r).queues = s.queues := (hostOnly_notice s c r).queues
@[simp] theorem State.notice_regions (s : State) (c : Nat) (r : List Byte) : (s.notice c r).regions = s.regions := (hostOnly_notice s c r).regions
@[simp] theorem State.notice_streamErr (s : State) (c : Nat) (r : List Byte) : (s.notice c r).streamErr = s.streamErr := (hostOnly_notice s c r).streamErr
@[simp] theorem State.notice_tlbs (s : State) (c : Nat) (r : List Byte) : (s.notice c r).tlbs = s.tlbs := (hostOnly_notice s c r).tlbs
@[simp] theorem State.notice_walks (s : State) (c : Nat) (r : List Byte) : (s.notice c r).walks = s.walks := (hostOnly_notice s c r).walks
@[simp] theorem State.notice_walkCaches (s : State) (c : Nat) (r : List Byte) : (s.notice c r).walkCaches = s.walkCaches := (hostOnly_notice s c r).walkCaches
@[simp] theorem State.notice_collectors (s : State) (c : Nat) (r : List Byte) : (s.notice c r).collectors = s.collectors := (hostOnly_notice s c r).collectors
@[simp] theorem State.notice_drains (s : State) (c : Nat) (r : List Byte) : (s.notice c r).drains = s.drains := (hostOnly_notice s c r).drains
@[simp] theorem State.notice_nextDrain (s : State) (c : Nat) (r : List Byte) : (s.notice c r).nextDrain = s.nextDrain := (hostOnly_notice s c r).nextDrain
@[simp] theorem State.notice_groups (s : State) (c : Nat) (r : List Byte) : (s.notice c r).groups = s.groups := (hostOnly_notice s c r).groups
@[simp] theorem State.notice_nextHandle (s : State) (c : Nat) (r : List Byte) : (s.notice c r).nextHandle = s.nextHandle := (hostOnly_notice s c r).nextHandle
@[simp] theorem State.notice_tables (s : State) (c : Nat) (r : List Byte) : (s.notice c r).tables = s.tables := (hostOnly_notice s c r).tables
@[simp] theorem State.notice_foragers (s : State) (c : Nat) (r : List Byte) : (s.notice c r).foragers = s.foragers := (hostOnly_notice s c r).foragers
@[simp] theorem State.notice_works (s : State) (c : Nat) (r : List Byte) : (s.notice c r).works = s.works := (hostOnly_notice s c r).works
@[simp] theorem State.notice_nextWork (s : State) (c : Nat) (r : List Byte) : (s.notice c r).nextWork = s.nextWork := (hostOnly_notice s c r).nextWork
@[simp] theorem State.notice_staged (s : State) (c : Nat) (r : List Byte) : (s.notice c r).staged = s.staged := (hostOnly_notice s c r).staged
@[simp] theorem State.notice_patches (s : State) (c : Nat) (r : List Byte) : (s.notice c r).patches = s.patches := (hostOnly_notice s c r).patches
@[simp] theorem State.notice_committed (s : State) (c : Nat) (r : List Byte) : (s.notice c r).committed = s.committed := (hostOnly_notice s c r).committed
@[simp] theorem State.notice_returns (s : State) (c : Nat) (r : List Byte) : (s.notice c r).returns = s.returns := (hostOnly_notice s c r).returns
@[simp] theorem State.notice_nextReturn (s : State) (c : Nat) (r : List Byte) : (s.notice c r).nextReturn = s.nextReturn := (hostOnly_notice s c r).nextReturn
@[simp] theorem State.notice_fanStages (s : State) (c : Nat) (r : List Byte) : (s.notice c r).fanStages = s.fanStages := (hostOnly_notice s c r).fanStages
@[simp] theorem State.notice_earlyReqs (s : State) (c : Nat) (r : List Byte) : (s.notice c r).earlyReqs = s.earlyReqs := (hostOnly_notice s c r).earlyReqs
@[simp] theorem State.notice_spanWait (s : State) (c : Nat) (r : List Byte) : (s.notice c r).spanWait = s.spanWait := (hostOnly_notice s c r).spanWait
@[simp] theorem State.notice_spanPort (s : State) (c : Nat) (r : List Byte) : (s.notice c r).spanPort = s.spanPort := (hostOnly_notice s c r).spanPort
@[simp] theorem State.notice_fanned (s : State) (c : Nat) (r : List Byte) : (s.notice c r).fanned = s.fanned := (hostOnly_notice s c r).fanned
@[simp] theorem State.notice_windows (s : State) (c : Nat) (r : List Byte) : (s.notice c r).windows = s.windows := (hostOnly_notice s c r).windows
@[simp] theorem State.notice_keyFails (s : State) (c : Nat) (r : List Byte) : (s.notice c r).keyFails = s.keyFails := (hostOnly_notice s c r).keyFails
@[simp] theorem State.notice_imports (s : State) (c : Nat) (r : List Byte) : (s.notice c r).imports = s.imports := (hostOnly_notice s c r).imports
@[simp] theorem State.notice_probes (s : State) (c : Nat) (r : List Byte) : (s.notice c r).probes = s.probes := (hostOnly_notice s c r).probes
@[simp] theorem State.notice_nextTag (s : State) (c : Nat) (r : List Byte) : (s.notice c r).nextTag = s.nextTag := (hostOnly_notice s c r).nextTag
@[simp] theorem State.notice_winReqs (s : State) (c : Nat) (r : List Byte) : (s.notice c r).winReqs = s.winReqs := (hostOnly_notice s c r).winReqs
@[simp] theorem State.notice_fabricOut (s : State) (c : Nat) (r : List Byte) : (s.notice c r).fabricOut = s.fabricOut := (hostOnly_notice s c r).fabricOut
@[simp] theorem State.notice_wagglesOut (s : State) (c : Nat) (r : List Byte) : (s.notice c r).wagglesOut = s.wagglesOut := (hostOnly_notice s c r).wagglesOut
@[simp] theorem State.notice_waggleSeq (s : State) (c : Nat) (r : List Byte) : (s.notice c r).waggleSeq = s.waggleSeq := (hostOnly_notice s c r).waggleSeq
@[simp] theorem State.notice_waggleAt (s : State) (c : Nat) (r : List Byte) : (s.notice c r).waggleAt = s.waggleAt := (hostOnly_notice s c r).waggleAt
@[simp] theorem State.notice_ports (s : State) (c : Nat) (r : List Byte) : (s.notice c r).ports = s.ports := (hostOnly_notice s c r).ports
@[simp] theorem State.notice_wire (s : State) (c : Nat) (r : List Byte) : (s.notice c r).wire = s.wire := (hostOnly_notice s c r).wire
@[simp] theorem State.notice_delivered (s : State) (c : Nat) (r : List Byte) : (s.notice c r).delivered = s.delivered := (hostOnly_notice s c r).delivered
@[simp] theorem State.notice_filter (s : State) (c : Nat) (r : List Byte) : (s.notice c r).filter = s.filter := (hostOnly_notice s c r).filter
@[simp] theorem State.notice_qps (s : State) (c : Nat) (r : List Byte) : (s.notice c r).qps = s.qps := (hostOnly_notice s c r).qps
@[simp] theorem State.notice_ethOut (s : State) (c : Nat) (r : List Byte) : (s.notice c r).ethOut = s.ethOut := (hostOnly_notice s c r).ethOut
@[simp] theorem State.notice_keyGens (s : State) (c : Nat) (r : List Byte) : (s.notice c r).keyGens = s.keyGens := (hostOnly_notice s c r).keyGens
@[simp] theorem State.notice_tasters (s : State) (c : Nat) (r : List Byte) : (s.notice c r).tasters = s.tasters := (hostOnly_notice s c r).tasters
@[simp] theorem State.notice_nextTaster (s : State) (c : Nat) (r : List Byte) : (s.notice c r).nextTaster = s.nextTaster := (hostOnly_notice s c r).nextTaster
@[simp] theorem State.notice_health (s : State) (c : Nat) (r : List Byte) : (s.notice c r).health = s.health := (hostOnly_notice s c r).health
@[simp] theorem State.notice_replicas (s : State) (c : Nat) (r : List Byte) : (s.notice c r).replicas = s.replicas := (hostOnly_notice s c r).replicas
@[simp] theorem State.notice_power (s : State) (c : Nat) (r : List Byte) : (s.notice c r).power = s.power := (hostOnly_notice s c r).power
@[simp] theorem State.notice_manager (s : State) (c : Nat) (r : List Byte) : (s.notice c r).manager = s.manager := (hostOnly_notice s c r).manager
@[simp] theorem State.notice_therms (s : State) (c : Nat) (r : List Byte) : (s.notice c r).therms = s.therms := (hostOnly_notice s c r).therms
@[simp] theorem State.notice_channels (s : State) (c : Nat) (r : List Byte) : (s.notice c r).channels = s.channels := (hostOnly_notice s c r).channels
@[simp] theorem State.notice_rowActs (s : State) (c : Nat) (r : List Byte) : (s.notice c r).rowActs = s.rowActs := (hostOnly_notice s c r).rowActs
@[simp] theorem State.notice_damage (s : State) (c : Nat) (r : List Byte) : (s.notice c r).damage = s.damage := (hostOnly_notice s c r).damage
@[simp] theorem State.notice_fixups (s : State) (c : Nat) (r : List Byte) : (s.notice c r).fixups = s.fixups := (hostOnly_notice s c r).fixups
@[simp] theorem State.notice_struck (s : State) (c : Nat) (r : List Byte) : (s.notice c r).struck = s.struck := (hostOnly_notice s c r).struck
@[simp] theorem State.notice_memLog (s : State) (c : Nat) (r : List Byte) : (s.notice c r).memLog = s.memLog := (hostOnly_notice s c r).memLog
@[simp] theorem State.notice_tracer (s : State) (c : Nat) (r : List Byte) : (s.notice c r).tracer = s.tracer := (hostOnly_notice s c r).tracer
@[simp] theorem State.notice_keeper (s : State) (c : Nat) (r : List Byte) : (s.notice c r).keeper = s.keeper := (hostOnly_notice s c r).keeper
@[simp] theorem State.notice_boot (s : State) (c : Nat) (r : List Byte) : (s.notice c r).boot = s.boot := (hostOnly_notice s c r).boot
@[simp] theorem State.notice_log (s : State) (c : Nat) (r : List Byte) : (s.notice c r).log = s.log := (hostOnly_notice s c r).log
@[simp] theorem State.notice_fieldOut (s : State) (c : Nat) (r : List Byte) : (s.notice c r).fieldOut = s.fieldOut := (hostOnly_notice s c r).fieldOut
@[simp] theorem State.notice_keeperUp (s : State) (c : Nat) (r : List Byte) : (s.notice c r).keeperUp = s.keeperUp := (hostOnly_notice s c r).keeperUp
@[simp] theorem State.notice_fieldUsable (s : State) (c : Nat) (r : List Byte) : (s.notice c r).fieldUsable = s.fieldUsable := (hostOnly_notice s c r).fieldUsable
@[simp] theorem State.notice_refclk (s : State) (c : Nat) (r : List Byte) : (s.notice c r).refclk = s.refclk := (hostOnly_notice s c r).refclk
@[simp] theorem State.notice_blobs (s : State) (c : Nat) (r : List Byte) : (s.notice c r).blobs = s.blobs := (hostOnly_notice s c r).blobs
@[simp] theorem State.notice_quarantined (s : State) (c : Nat) (r : List Byte) : (s.notice c r).quarantined = s.quarantined := (hostOnly_notice s c r).quarantined
@[simp] theorem State.notice_rsvWrites (s : State) (c : Nat) (r : List Byte) : (s.notice c r).rsvWrites = s.rsvWrites := (hostOnly_notice s c r).rsvWrites

@[simp] theorem State.adminRecord_pending (s : State) (n : Nat) (i : DWord) (a b d : Nat) (r : List Byte) : (s.adminRecord n i a b d r).pending = s.pending := (hostOnly_adminRecord s n i a b d r).pending
@[simp] theorem State.adminRecord_free (s : State) (n : Nat) (i : DWord) (a b d : Nat) (r : List Byte) : (s.adminRecord n i a b d r).free = s.free := (hostOnly_adminRecord s n i a b d r).free
@[simp] theorem State.adminRecord_code (s : State) (n : Nat) (i : DWord) (a b d : Nat) (r : List Byte) : (s.adminRecord n i a b d r).code = s.code := (hostOnly_adminRecord s n i a b d r).code
@[simp] theorem State.adminRecord_time (s : State) (n : Nat) (i : DWord) (a b d : Nat) (r : List Byte) : (s.adminRecord n i a b d r).time = s.time := (hostOnly_adminRecord s n i a b d r).time
@[simp] theorem State.adminRecord_dram (s : State) (n : Nat) (i : DWord) (a b d : Nat) (r : List Byte) : (s.adminRecord n i a b d r).dram = s.dram := (hostOnly_adminRecord s n i a b d r).dram
@[simp] theorem State.adminRecord_cells (s : State) (n : Nat) (i : DWord) (a b d : Nat) (r : List Byte) : (s.adminRecord n i a b d r).cells = s.cells := (hostOnly_adminRecord s n i a b d r).cells
@[simp] theorem State.adminRecord_partitions (s : State) (n : Nat) (i : DWord) (a b d : Nat) (r : List Byte) : (s.adminRecord n i a b d r).partitions = s.partitions := (hostOnly_adminRecord s n i a b d r).partitions
@[simp] theorem State.adminRecord_contexts (s : State) (n : Nat) (i : DWord) (a b d : Nat) (r : List Byte) : (s.adminRecord n i a b d r).contexts = s.contexts := (hostOnly_adminRecord s n i a b d r).contexts
@[simp] theorem State.adminRecord_quarters (s : State) (n : Nat) (i : DWord) (a b d : Nat) (r : List Byte) : (s.adminRecord n i a b d r).quarters = s.quarters := (hostOnly_adminRecord s n i a b d r).quarters
@[simp] theorem State.adminRecord_migration (s : State) (n : Nat) (i : DWord) (a b d : Nat) (r : List Byte) : (s.adminRecord n i a b d r).migration = s.migration := (hostOnly_adminRecord s n i a b d r).migration
@[simp] theorem State.adminRecord_images (s : State) (n : Nat) (i : DWord) (a b d : Nat) (r : List Byte) : (s.adminRecord n i a b d r).images = s.images := (hostOnly_adminRecord s n i a b d r).images
@[simp] theorem State.adminRecord_nextImage (s : State) (n : Nat) (i : DWord) (a b d : Nat) (r : List Byte) : (s.adminRecord n i a b d r).nextImage = s.nextImage := (hostOnly_adminRecord s n i a b d r).nextImage
@[simp] theorem State.adminRecord_launches (s : State) (n : Nat) (i : DWord) (a b d : Nat) (r : List Byte) : (s.adminRecord n i a b d r).launches = s.launches := (hostOnly_adminRecord s n i a b d r).launches
@[simp] theorem State.adminRecord_nextLaunch (s : State) (n : Nat) (i : DWord) (a b d : Nat) (r : List Byte) : (s.adminRecord n i a b d r).nextLaunch = s.nextLaunch := (hostOnly_adminRecord s n i a b d r).nextLaunch
@[simp] theorem State.adminRecord_nextOrder (s : State) (n : Nat) (i : DWord) (a b d : Nat) (r : List Byte) : (s.adminRecord n i a b d r).nextOrder = s.nextOrder := (hostOnly_adminRecord s n i a b d r).nextOrder
@[simp] theorem State.adminRecord_queues (s : State) (n : Nat) (i : DWord) (a b d : Nat) (r : List Byte) : (s.adminRecord n i a b d r).queues = s.queues := (hostOnly_adminRecord s n i a b d r).queues
@[simp] theorem State.adminRecord_regions (s : State) (n : Nat) (i : DWord) (a b d : Nat) (r : List Byte) : (s.adminRecord n i a b d r).regions = s.regions := (hostOnly_adminRecord s n i a b d r).regions
@[simp] theorem State.adminRecord_streamErr (s : State) (n : Nat) (i : DWord) (a b d : Nat) (r : List Byte) : (s.adminRecord n i a b d r).streamErr = s.streamErr := (hostOnly_adminRecord s n i a b d r).streamErr
@[simp] theorem State.adminRecord_tlbs (s : State) (n : Nat) (i : DWord) (a b d : Nat) (r : List Byte) : (s.adminRecord n i a b d r).tlbs = s.tlbs := (hostOnly_adminRecord s n i a b d r).tlbs
@[simp] theorem State.adminRecord_walks (s : State) (n : Nat) (i : DWord) (a b d : Nat) (r : List Byte) : (s.adminRecord n i a b d r).walks = s.walks := (hostOnly_adminRecord s n i a b d r).walks
@[simp] theorem State.adminRecord_walkCaches (s : State) (n : Nat) (i : DWord) (a b d : Nat) (r : List Byte) : (s.adminRecord n i a b d r).walkCaches = s.walkCaches := (hostOnly_adminRecord s n i a b d r).walkCaches
@[simp] theorem State.adminRecord_collectors (s : State) (n : Nat) (i : DWord) (a b d : Nat) (r : List Byte) : (s.adminRecord n i a b d r).collectors = s.collectors := (hostOnly_adminRecord s n i a b d r).collectors
@[simp] theorem State.adminRecord_drains (s : State) (n : Nat) (i : DWord) (a b d : Nat) (r : List Byte) : (s.adminRecord n i a b d r).drains = s.drains := (hostOnly_adminRecord s n i a b d r).drains
@[simp] theorem State.adminRecord_nextDrain (s : State) (n : Nat) (i : DWord) (a b d : Nat) (r : List Byte) : (s.adminRecord n i a b d r).nextDrain = s.nextDrain := (hostOnly_adminRecord s n i a b d r).nextDrain
@[simp] theorem State.adminRecord_groups (s : State) (n : Nat) (i : DWord) (a b d : Nat) (r : List Byte) : (s.adminRecord n i a b d r).groups = s.groups := (hostOnly_adminRecord s n i a b d r).groups
@[simp] theorem State.adminRecord_nextHandle (s : State) (n : Nat) (i : DWord) (a b d : Nat) (r : List Byte) : (s.adminRecord n i a b d r).nextHandle = s.nextHandle := (hostOnly_adminRecord s n i a b d r).nextHandle
@[simp] theorem State.adminRecord_tables (s : State) (n : Nat) (i : DWord) (a b d : Nat) (r : List Byte) : (s.adminRecord n i a b d r).tables = s.tables := (hostOnly_adminRecord s n i a b d r).tables
@[simp] theorem State.adminRecord_foragers (s : State) (n : Nat) (i : DWord) (a b d : Nat) (r : List Byte) : (s.adminRecord n i a b d r).foragers = s.foragers := (hostOnly_adminRecord s n i a b d r).foragers
@[simp] theorem State.adminRecord_works (s : State) (n : Nat) (i : DWord) (a b d : Nat) (r : List Byte) : (s.adminRecord n i a b d r).works = s.works := (hostOnly_adminRecord s n i a b d r).works
@[simp] theorem State.adminRecord_nextWork (s : State) (n : Nat) (i : DWord) (a b d : Nat) (r : List Byte) : (s.adminRecord n i a b d r).nextWork = s.nextWork := (hostOnly_adminRecord s n i a b d r).nextWork
@[simp] theorem State.adminRecord_staged (s : State) (n : Nat) (i : DWord) (a b d : Nat) (r : List Byte) : (s.adminRecord n i a b d r).staged = s.staged := (hostOnly_adminRecord s n i a b d r).staged
@[simp] theorem State.adminRecord_patches (s : State) (n : Nat) (i : DWord) (a b d : Nat) (r : List Byte) : (s.adminRecord n i a b d r).patches = s.patches := (hostOnly_adminRecord s n i a b d r).patches
@[simp] theorem State.adminRecord_committed (s : State) (n : Nat) (i : DWord) (a b d : Nat) (r : List Byte) : (s.adminRecord n i a b d r).committed = s.committed := (hostOnly_adminRecord s n i a b d r).committed
@[simp] theorem State.adminRecord_returns (s : State) (n : Nat) (i : DWord) (a b d : Nat) (r : List Byte) : (s.adminRecord n i a b d r).returns = s.returns := (hostOnly_adminRecord s n i a b d r).returns
@[simp] theorem State.adminRecord_nextReturn (s : State) (n : Nat) (i : DWord) (a b d : Nat) (r : List Byte) : (s.adminRecord n i a b d r).nextReturn = s.nextReturn := (hostOnly_adminRecord s n i a b d r).nextReturn
@[simp] theorem State.adminRecord_fanStages (s : State) (n : Nat) (i : DWord) (a b d : Nat) (r : List Byte) : (s.adminRecord n i a b d r).fanStages = s.fanStages := (hostOnly_adminRecord s n i a b d r).fanStages
@[simp] theorem State.adminRecord_earlyReqs (s : State) (n : Nat) (i : DWord) (a b d : Nat) (r : List Byte) : (s.adminRecord n i a b d r).earlyReqs = s.earlyReqs := (hostOnly_adminRecord s n i a b d r).earlyReqs
@[simp] theorem State.adminRecord_spanWait (s : State) (n : Nat) (i : DWord) (a b d : Nat) (r : List Byte) : (s.adminRecord n i a b d r).spanWait = s.spanWait := (hostOnly_adminRecord s n i a b d r).spanWait
@[simp] theorem State.adminRecord_spanPort (s : State) (n : Nat) (i : DWord) (a b d : Nat) (r : List Byte) : (s.adminRecord n i a b d r).spanPort = s.spanPort := (hostOnly_adminRecord s n i a b d r).spanPort
@[simp] theorem State.adminRecord_fanned (s : State) (n : Nat) (i : DWord) (a b d : Nat) (r : List Byte) : (s.adminRecord n i a b d r).fanned = s.fanned := (hostOnly_adminRecord s n i a b d r).fanned
@[simp] theorem State.adminRecord_windows (s : State) (n : Nat) (i : DWord) (a b d : Nat) (r : List Byte) : (s.adminRecord n i a b d r).windows = s.windows := (hostOnly_adminRecord s n i a b d r).windows
@[simp] theorem State.adminRecord_keyFails (s : State) (n : Nat) (i : DWord) (a b d : Nat) (r : List Byte) : (s.adminRecord n i a b d r).keyFails = s.keyFails := (hostOnly_adminRecord s n i a b d r).keyFails
@[simp] theorem State.adminRecord_imports (s : State) (n : Nat) (i : DWord) (a b d : Nat) (r : List Byte) : (s.adminRecord n i a b d r).imports = s.imports := (hostOnly_adminRecord s n i a b d r).imports
@[simp] theorem State.adminRecord_probes (s : State) (n : Nat) (i : DWord) (a b d : Nat) (r : List Byte) : (s.adminRecord n i a b d r).probes = s.probes := (hostOnly_adminRecord s n i a b d r).probes
@[simp] theorem State.adminRecord_nextTag (s : State) (n : Nat) (i : DWord) (a b d : Nat) (r : List Byte) : (s.adminRecord n i a b d r).nextTag = s.nextTag := (hostOnly_adminRecord s n i a b d r).nextTag
@[simp] theorem State.adminRecord_winReqs (s : State) (n : Nat) (i : DWord) (a b d : Nat) (r : List Byte) : (s.adminRecord n i a b d r).winReqs = s.winReqs := (hostOnly_adminRecord s n i a b d r).winReqs
@[simp] theorem State.adminRecord_fabricOut (s : State) (n : Nat) (i : DWord) (a b d : Nat) (r : List Byte) : (s.adminRecord n i a b d r).fabricOut = s.fabricOut := (hostOnly_adminRecord s n i a b d r).fabricOut
@[simp] theorem State.adminRecord_wagglesOut (s : State) (n : Nat) (i : DWord) (a b d : Nat) (r : List Byte) : (s.adminRecord n i a b d r).wagglesOut = s.wagglesOut := (hostOnly_adminRecord s n i a b d r).wagglesOut
@[simp] theorem State.adminRecord_waggleSeq (s : State) (n : Nat) (i : DWord) (a b d : Nat) (r : List Byte) : (s.adminRecord n i a b d r).waggleSeq = s.waggleSeq := (hostOnly_adminRecord s n i a b d r).waggleSeq
@[simp] theorem State.adminRecord_waggleAt (s : State) (n : Nat) (i : DWord) (a b d : Nat) (r : List Byte) : (s.adminRecord n i a b d r).waggleAt = s.waggleAt := (hostOnly_adminRecord s n i a b d r).waggleAt
@[simp] theorem State.adminRecord_ports (s : State) (n : Nat) (i : DWord) (a b d : Nat) (r : List Byte) : (s.adminRecord n i a b d r).ports = s.ports := (hostOnly_adminRecord s n i a b d r).ports
@[simp] theorem State.adminRecord_wire (s : State) (n : Nat) (i : DWord) (a b d : Nat) (r : List Byte) : (s.adminRecord n i a b d r).wire = s.wire := (hostOnly_adminRecord s n i a b d r).wire
@[simp] theorem State.adminRecord_delivered (s : State) (n : Nat) (i : DWord) (a b d : Nat) (r : List Byte) : (s.adminRecord n i a b d r).delivered = s.delivered := (hostOnly_adminRecord s n i a b d r).delivered
@[simp] theorem State.adminRecord_filter (s : State) (n : Nat) (i : DWord) (a b d : Nat) (r : List Byte) : (s.adminRecord n i a b d r).filter = s.filter := (hostOnly_adminRecord s n i a b d r).filter
@[simp] theorem State.adminRecord_qps (s : State) (n : Nat) (i : DWord) (a b d : Nat) (r : List Byte) : (s.adminRecord n i a b d r).qps = s.qps := (hostOnly_adminRecord s n i a b d r).qps
@[simp] theorem State.adminRecord_ethOut (s : State) (n : Nat) (i : DWord) (a b d : Nat) (r : List Byte) : (s.adminRecord n i a b d r).ethOut = s.ethOut := (hostOnly_adminRecord s n i a b d r).ethOut
@[simp] theorem State.adminRecord_keyGens (s : State) (n : Nat) (i : DWord) (a b d : Nat) (r : List Byte) : (s.adminRecord n i a b d r).keyGens = s.keyGens := (hostOnly_adminRecord s n i a b d r).keyGens
@[simp] theorem State.adminRecord_tasters (s : State) (n : Nat) (i : DWord) (a b d : Nat) (r : List Byte) : (s.adminRecord n i a b d r).tasters = s.tasters := (hostOnly_adminRecord s n i a b d r).tasters
@[simp] theorem State.adminRecord_nextTaster (s : State) (n : Nat) (i : DWord) (a b d : Nat) (r : List Byte) : (s.adminRecord n i a b d r).nextTaster = s.nextTaster := (hostOnly_adminRecord s n i a b d r).nextTaster
@[simp] theorem State.adminRecord_health (s : State) (n : Nat) (i : DWord) (a b d : Nat) (r : List Byte) : (s.adminRecord n i a b d r).health = s.health := (hostOnly_adminRecord s n i a b d r).health
@[simp] theorem State.adminRecord_replicas (s : State) (n : Nat) (i : DWord) (a b d : Nat) (r : List Byte) : (s.adminRecord n i a b d r).replicas = s.replicas := (hostOnly_adminRecord s n i a b d r).replicas
@[simp] theorem State.adminRecord_power (s : State) (n : Nat) (i : DWord) (a b d : Nat) (r : List Byte) : (s.adminRecord n i a b d r).power = s.power := (hostOnly_adminRecord s n i a b d r).power
@[simp] theorem State.adminRecord_manager (s : State) (n : Nat) (i : DWord) (a b d : Nat) (r : List Byte) : (s.adminRecord n i a b d r).manager = s.manager := (hostOnly_adminRecord s n i a b d r).manager
@[simp] theorem State.adminRecord_therms (s : State) (n : Nat) (i : DWord) (a b d : Nat) (r : List Byte) : (s.adminRecord n i a b d r).therms = s.therms := (hostOnly_adminRecord s n i a b d r).therms
@[simp] theorem State.adminRecord_channels (s : State) (n : Nat) (i : DWord) (a b d : Nat) (r : List Byte) : (s.adminRecord n i a b d r).channels = s.channels := (hostOnly_adminRecord s n i a b d r).channels
@[simp] theorem State.adminRecord_rowActs (s : State) (n : Nat) (i : DWord) (a b d : Nat) (r : List Byte) : (s.adminRecord n i a b d r).rowActs = s.rowActs := (hostOnly_adminRecord s n i a b d r).rowActs
@[simp] theorem State.adminRecord_damage (s : State) (n : Nat) (i : DWord) (a b d : Nat) (r : List Byte) : (s.adminRecord n i a b d r).damage = s.damage := (hostOnly_adminRecord s n i a b d r).damage
@[simp] theorem State.adminRecord_fixups (s : State) (n : Nat) (i : DWord) (a b d : Nat) (r : List Byte) : (s.adminRecord n i a b d r).fixups = s.fixups := (hostOnly_adminRecord s n i a b d r).fixups
@[simp] theorem State.adminRecord_struck (s : State) (n : Nat) (i : DWord) (a b d : Nat) (r : List Byte) : (s.adminRecord n i a b d r).struck = s.struck := (hostOnly_adminRecord s n i a b d r).struck
@[simp] theorem State.adminRecord_memLog (s : State) (n : Nat) (i : DWord) (a b d : Nat) (r : List Byte) : (s.adminRecord n i a b d r).memLog = s.memLog := (hostOnly_adminRecord s n i a b d r).memLog
@[simp] theorem State.adminRecord_tracer (s : State) (n : Nat) (i : DWord) (a b d : Nat) (r : List Byte) : (s.adminRecord n i a b d r).tracer = s.tracer := (hostOnly_adminRecord s n i a b d r).tracer
@[simp] theorem State.adminRecord_keeper (s : State) (n : Nat) (i : DWord) (a b d : Nat) (r : List Byte) : (s.adminRecord n i a b d r).keeper = s.keeper := (hostOnly_adminRecord s n i a b d r).keeper
@[simp] theorem State.adminRecord_boot (s : State) (n : Nat) (i : DWord) (a b d : Nat) (r : List Byte) : (s.adminRecord n i a b d r).boot = s.boot := (hostOnly_adminRecord s n i a b d r).boot
@[simp] theorem State.adminRecord_log (s : State) (n : Nat) (i : DWord) (a b d : Nat) (r : List Byte) : (s.adminRecord n i a b d r).log = s.log := (hostOnly_adminRecord s n i a b d r).log
@[simp] theorem State.adminRecord_fieldOut (s : State) (n : Nat) (i : DWord) (a b d : Nat) (r : List Byte) : (s.adminRecord n i a b d r).fieldOut = s.fieldOut := (hostOnly_adminRecord s n i a b d r).fieldOut
@[simp] theorem State.adminRecord_keeperUp (s : State) (n : Nat) (i : DWord) (a b d : Nat) (r : List Byte) : (s.adminRecord n i a b d r).keeperUp = s.keeperUp := (hostOnly_adminRecord s n i a b d r).keeperUp
@[simp] theorem State.adminRecord_fieldUsable (s : State) (n : Nat) (i : DWord) (a b d : Nat) (r : List Byte) : (s.adminRecord n i a b d r).fieldUsable = s.fieldUsable := (hostOnly_adminRecord s n i a b d r).fieldUsable
@[simp] theorem State.adminRecord_refclk (s : State) (n : Nat) (i : DWord) (a b d : Nat) (r : List Byte) : (s.adminRecord n i a b d r).refclk = s.refclk := (hostOnly_adminRecord s n i a b d r).refclk
@[simp] theorem State.adminRecord_blobs (s : State) (n : Nat) (i : DWord) (a b d : Nat) (r : List Byte) : (s.adminRecord n i a b d r).blobs = s.blobs := (hostOnly_adminRecord s n i a b d r).blobs
@[simp] theorem State.adminRecord_quarantined (s : State) (n : Nat) (i : DWord) (a b d : Nat) (r : List Byte) : (s.adminRecord n i a b d r).quarantined = s.quarantined := (hostOnly_adminRecord s n i a b d r).quarantined
@[simp] theorem State.adminRecord_rsvWrites (s : State) (n : Nat) (i : DWord) (a b d : Nat) (r : List Byte) : (s.adminRecord n i a b d r).rsvWrites = s.rsvWrites := (hostOnly_adminRecord s n i a b d r).rsvWrites

end Sys2Proof.Machine
end

