-- ==== Sys2Proof/Laws/Cells.lean ====
section
/-!
SUPPORT. Laws of cells, threads and registers: what is set is read, and everything else stands.
-/
namespace Sys2Proof.Machine

@[simp] theorem State.cell_setCell_same (s : State) (c : Nat) (x : Cell) : (s.setCell c x).cell c = x := by
  simp [State.cell, State.setCell]
theorem State.cell_setCell_other (s : State) (c d : Nat) (x : Cell) (h : d ≠ c) : (s.setCell c x).cell d = s.cell d := by
  simp [State.cell, State.setCell, tabGet_tabSet_other _ _ _ _ _ h]
@[simp] theorem State.cell_modCell_same (s : State) (c : Nat) (f : Cell → Cell) : (s.modCell c f).cell c = f (s.cell c) := by
  simp [State.modCell]
theorem State.cell_modCell_other (s : State) (c d : Nat) (f : Cell → Cell) (h : d ≠ c) : (s.modCell c f).cell d = s.cell d :=
  State.cell_setCell_other s c d _ h
@[simp] theorem State.cell_count (s : State) (o n c : Nat) : (s.count o n).cell c = s.cell c := by simp [State.cell]
@[simp] theorem State.cell_countFull (s : State) (o n c : Nat) : (s.countFull o n).cell c = s.cell c := by simp [State.cell]
@[simp] theorem State.cell_bump (s : State) (i j n c : Nat) : (s.bump i j n).cell c = s.cell c := by simp [State.cell]
@[simp] theorem State.cell_traceCell (s : State) (d k c : Nat) (b : List Byte) : (s.traceCell d k b).cell c = s.cell c := by simp [State.cell]
@[simp] theorem State.cell_event (s : State) (a v c : Nat) (e : Bool) (b : List Byte) : (s.event a v e b).cell c = s.cell c := by simp [State.cell]
@[simp] theorem State.cell_notice (s : State) (a c : Nat) (b : List Byte) : (s.notice a b).cell c = s.cell c := by simp [State.cell]
@[simp] theorem State.cell_tlbTouch (s : State) (k x v c : Nat) : (s.tlbTouch k x v).cell c = s.cell c := by
  unfold State.cell; rw [State.tlbTouch_eq]
@[simp] theorem State.cell_keepQueue (s t : State) (c : Nat) : (keepQueue s t).cell c = t.cell c := rfl
@[simp] theorem State.thread_keepQueue (s t : State) (c k : Nat) : (keepQueue s t).thread c k = t.thread c k := rfl

@[simp] theorem Cell.thread_setThread_same (x : Cell) (t : Nat) (h : Thread) : (x.setThread t h).thread t = h := by
  simp [Cell.thread, Cell.setThread]
theorem Cell.thread_setThread_other (x : Cell) (t k : Nat) (h : Thread) (n : k ≠ t) : (x.setThread t h).thread k = x.thread k := by
  simp [Cell.thread, Cell.setThread, tabGet_tabSet_other _ _ _ _ _ n]
@[simp] theorem State.thread_modThread_same (s : State) (c t : Nat) (f : Thread → Thread) :
    (s.modThread c t f).thread c t = f (s.thread c t) := by
  simp [State.thread, State.modThread, State.setThread]
theorem State.thread_modThread_other (s : State) (c t k : Nat) (f : Thread → Thread) (n : k ≠ t) :
    (s.modThread c t f).thread c k = s.thread c k := by
  simp [State.thread, State.modThread, State.setThread, Cell.thread_setThread_other _ _ _ _ n]
theorem State.cell_modThread (s : State) (c t : Nat) (f : Thread → Thread) :
    (s.modThread c t f).cell c = (s.cell c).setThread t (f (s.thread c t)) := by simp [State.modThread, State.setThread]
theorem State.cell_modThread_other (s : State) (c d t : Nat) (f : Thread → Thread) (n : d ≠ c) :
    (s.modThread c t f).cell d = s.cell d := State.cell_modCell_other _ _ _ _ n

/-- Register s0 reads 0 and p0 reads 1, whatever was written (R51). -/
@[simp] theorem Thread.reg_zero (h : Thread) : h.reg 0 = 0#64 := rfl
@[simp] theorem Thread.pred_zero (h : Thread) : h.pred 0 = true := rfl
@[simp] theorem Thread.setReg_zero (h : Thread) (v : DWord) : h.setReg 0 v = h := rfl
theorem Thread.reg_setReg_same (h : Thread) (r : Nat) (v : DWord) (n : r ≠ 0) : (h.setReg r v).reg r = v := by
  simp [Thread.reg, Thread.setReg, n]
theorem Thread.reg_setReg_other (h : Thread) (r k : Nat) (v : DWord) (n : k ≠ r) : (h.setReg r v).reg k = h.reg k := by
  unfold Thread.setReg Thread.reg
  split
  · rfl
  · split
    · rfl
    · exact tabGet_tabSet_other _ _ _ _ _ n

/-! ## Frames -/

theorem OnlyCell.refl (s : State) (c : Nat) : OnlyCell s s c := ⟨rfl, fun _ _ => rfl⟩
theorem OnlyCell.trans {s u v : State} {c : Nat} (h : OnlyCell s u c) (k : OnlyCell u v c) : OnlyCell s v c := by
  refine ⟨?_, fun d n => (k.2 d n).trans (h.2 d n)⟩
  rw [k.1]; rw [h.1]
theorem onlyCell_setCell (s : State) (c : Nat) (x : Cell) : OnlyCell s (s.setCell c x) c :=
  ⟨rfl, fun d n => State.cell_setCell_other s c d x n⟩
theorem onlyCell_modCell (s : State) (c : Nat) (f : Cell → Cell) : OnlyCell s (s.modCell c f) c := onlyCell_setCell _ _ _
theorem onlyCell_count (s : State) (c o n : Nat) : OnlyCell s (s.count o n) c := by
  refine ⟨?_, fun _ _ => by simp⟩
  unfold State.count; split <;> rfl
theorem onlyCell_countFull (s : State) (c o n : Nat) : OnlyCell s (s.countFull o n) c := by
  unfold State.countFull; split
  · exact onlyCell_count _ _ _ _
  · exact OnlyCell.refl _ _
theorem onlyCell_keepQueue {s u : State} {c : Nat} (h : OnlyCell s u c) : OnlyCell s (keepQueue s u) c := by
  refine ⟨?_, h.2⟩
  rw [h.1]; rfl

theorem OnlyThread.refl (s : State) (c t : Nat) : OnlyThread s s c t := ⟨OnlyCell.refl s c, rfl, fun _ _ => rfl⟩
theorem OnlyThread.trans {s u v : State} {c t : Nat} (h : OnlyThread s u c t) (k : OnlyThread u v c t) : OnlyThread s v c t := by
  refine ⟨h.1.trans k.1, ?_, fun j n => (k.2.2 j n).trans (h.2.2 j n)⟩
  rw [k.2.1]; rw [h.2.1]
theorem onlyThread_modThread (s : State) (c t : Nat) (f : Thread → Thread) : OnlyThread s (s.modThread c t f) c t := by
  refine ⟨onlyCell_setCell _ _ _, ?_, fun k n => State.thread_modThread_other s c t k f n⟩
  rw [State.cell_modThread]; rfl
theorem onlyThread_countFull (s : State) (c t o n : Nat) : OnlyThread s (s.countFull o n) c t := by
  refine ⟨onlyCell_countFull s c o n, ?_, fun _ _ => ?_⟩ <;> simp [State.thread]
theorem onlyThread_keepQueue {s u : State} {c t : Nat} (h : OnlyThread s u c t) : OnlyThread s (keepQueue s u) c t :=
  ⟨onlyCell_keepQueue h.1, h.2.1, h.2.2⟩
theorem onlyThread_issued (s : State) (c t : Nat) : OnlyThread s (s.issued c t) c t := by
  have h : OnlyThread s (s.modCell c (fun x => { x with recent := (t :: x.recent).take 3 })) c t := by
    refine ⟨onlyCell_modCell _ _ _, by simp, fun k n => by simp [State.thread, Cell.thread]⟩
  exact (h.trans (onlyThread_countFull _ _ _ _ _)).trans (onlyThread_countFull _ _ _ _ _)

/-! ## Issue -/

@[simp] theorem State.thread_issued (s : State) (c t k : Nat) : (s.issued c t).thread c k = s.thread c k := by
  simp [State.issued, State.thread, Cell.thread]
theorem State.cell_issued (s : State) (c t : Nat) : (s.issued c t).cell c = { s.cell c with recent := (t :: (s.cell c).recent).take 3 } := by
  simp [State.issued]

/-- An instruction that issues and whose body has an effect has that effect, its thread's pc past it. -/
theorem issue_done {s : State} {c t : Nat} {w : Word} {cls size : Nat} {l : Launch} (h : Issues s c t w cls size l) (hc : cls < 0xB)
    {legal : Bool} (hl : legal = true) {body : Thread → Launch → Body} {f : State → State} (hb : body (s.thread c t) l = .done f) :
    s.issue c t w cls size legal body = f ((s.issued c t).setPc c t ((s.thread c t).pc + BitVec.ofNat 32 size)) := by
  obtain ⟨id, hi⟩ := h.launch
  have k : ¬ (0xB ≤ cls) := by omega
  simp [State.issue, hi, h.ready, h.turn, h.unchecked, k, h.cls, hl, h.guard, hb, State.fallThrough, h.inCode]

/-- The same for an instruction that gives its own pc. -/
theorem issue_moved {s : State} {c t : Nat} {w : Word} {cls size : Nat} {l : Launch} (h : Issues s c t w cls size l) (hc : cls < 0xB)
    {legal : Bool} (hl : legal = true) {body : Thread → Launch → Body} {f : State → State} (hb : body (s.thread c t) l = .moved f) :
    s.issue c t w cls size legal body = f (s.issued c t) := by
  obtain ⟨id, hi⟩ := h.launch
  have k : ¬ (0xB ≤ cls) := by omega
  simp [State.issue, hi, h.ready, h.turn, h.unchecked, k, h.cls, hl, h.guard, hb]

/-- The meaning of an instruction that issues. -/
theorem issues_next {s : State} {c t : Nat} {w : Word} {cls size : Nat} {l : Launch} (h : Issues s c t w cls size l) (f : State → State) :
    onThread c t s f = .next (keepQueue s (f s)) := onThread_running c t s f h.path h.cell h.thread
@[simp] theorem State.thread_setPc (s : State) (c t : Nat) (pc : Word) :
    (s.setPc c t pc).thread c t = { s.thread c t with pc := pc } := by simp [State.setPc]
/-- What an instruction does before its own effect touches its thread alone. -/
theorem onlyThread_start (s : State) (c t : Nat) (pc : Word) : OnlyThread s ((s.issued c t).setPc c t pc) c t :=
  (onlyThread_issued s c t).trans (onlyThread_modThread _ _ _ _)

theorem bytesLE_length (n x : Nat) : (bytesLE n x).length = n := by
  induction n generalizing x with
  | zero => rfl
  | succ n ih => simp [bytesLE, ih]

/-- A vector instruction that issues and whose body leaves cell `y` leaves it with the pc past the word. -/
theorem vecIssue_done {s : State} {c : Nat} {w : Word} {cls : Nat} (h : VecIssues s c w cls) (hc : cls < 0xA) {legal : Bool}
    (hl : legal = true) (body : Cell → VBody) (y : Cell) (hb : body (s.cell c) = .done y) :
    s.vecIssue c w cls legal body
      = (s.setCell c { y with vec := { y.vec with pc := y.vec.pc + 4#32 } }).countFull (0x10000 + 0x200 * c + 8 * 15) 1 := by
  have k : ¬ (0xA ≤ cls) := by omega
  have e := h.busy
  have n : (s.cell c).vec.cmd.isNone = false := by cases hh : (s.cell c).vec.cmd <;> simp_all
  simp [State.vecIssue, h.works.active, n, h.open_, h.cls, k, hl, hb]

/-- While a thread of the cell runs, nothing ends there (R60). -/
theorem checkCellEnd_runs (s : State) (c : Nat) (h : ThreadRuns s c) : s.checkCellEnd c = s := by
  obtain ⟨j, hh, hm, hs⟩ := h
  have ne : (s.cell c).threads.all (fun p => p.2.status == .idle) = false := by
    apply Bool.eq_false_iff.2
    intro all
    have := (List.all_eq_true.1 all) _ hm
    simp [hs] at this
  unfold State.checkCellEnd
  dsimp only
  rw [ne]
  split
  · rfl
  · split
    · rfl
    · simp

end Sys2Proof.Machine
end

