-- ==== Sys2Proof/Laws/Kdp.lean ====
section
/-!
SUPPORT. What the keeper does with a request that it accepts: the row of each operation, and a WRITE of one message.
-/
namespace Sys2Proof.Machine

/-- An accepted request is served, and its reply leaves on the field network. -/
theorem kdpField_accepts {s : State} {r : KdpRequest} {op : Nat} {x : Option Session} (h : KdpAccepts s r op x) :
    let v := (s.took r x).serveOp (.field r.addr r.port) x r.bytes r.aux
    keepQueue s (s.kdpField r) = s.replied v.next r v.status v.body := by
  obtain ⟨l, m, n, a, b, c, d, e, f, g, i, j⟩ := h
  simp only [State.kdpField, a, b, l, m, n, Bool.not_true, Bool.true_or, Bool.or_self, Bool.false_eq_true, if_false, State.kdpServe, d, f, c, g,
    bne_self_eq_false, State.took]
  have k : (kSeqno r.bytes == 0xFFFFFFFF) = false := by simpa using j
  simp only [k, Bool.and_false, Bool.false_eq_true, if_false]
  rfl

theorem took_serveOp_alone {s : State} {r : KdpRequest} {op : Nat} {x : Option Session} (h : KdpAccepts s r op x) (n : op ≠ 0x06) :
    (s.took r x).assembling (.field r.addr r.port) = false := by
  have a := h.alone n
  simp only [State.took, State.noteSeqno]
  split
  · split <;> exact a
  · exact a

theorem body_word (index sub code len : Nat) (v : List Byte) (hi : index < 65536) (hs : sub < 256) (hc : code < 256) (hl : len < 2 ^ 32) :
    let b := bytesLE 2 index ++ bytesLE 1 sub ++ bytesLE 1 code ++ bytesLE 4 len ++ bytesLE 4 0 ++ v
    leAt b 0 2 = index ∧ leAt b 2 1 = sub ∧ leAt b 3 1 = code ∧ leAt b 4 4 = len ∧ leAt b 8 4 = 0 ∧ b.drop 12 = v ∧ 12 ≤ b.length := by
  refine ⟨?_, ?_, ?_, ?_, ?_, ?_, ?_⟩ <;>
    simp [leAt, leNat, bytesLE] <;> omega

/-- A WRITE of one message reaches its entry. -/
theorem serveOp_write {s : State} {r : KdpRequest} {x : Session} {d : DictRow} {index sub : Nat} {v : List Byte} (h : KdpWrites s r x d index sub v) :
    (s.took r (some x)).serveOp (.field r.addr r.port) (some x) r.bytes r.aux =
      ((s.took r (some x)).dropAssembly (.field r.addr r.port)).writeEntry (.field r.addr r.port) (some x.slot) index sub d.type.code v r.aux := by
  have al := took_serveOp_alone h.accepts (by decide)
  have hc : d.type.code < 256 := by cases d.type <;> decide
  obtain ⟨e1, e2, e3, e4, e5, e6, e7⟩ := body_word index sub d.type.code v.length v h.small.1 h.small.2.1 hc h.small.2.2
  have hn : (s.took r (some x)).keeper.assemblies.find? (fun (a : Assembly) => a.path == .field r.addr r.port) = none := by
    simpa [State.assembling] using al
  have hs : (s.took r (some x)).takeSegment (.field r.addr r.port) r.bytes ((kBody r.bytes).take 12) ((kBody r.bytes).drop 12) =
      .whole ((kBody r.bytes).take 12) v ((s.took r (some x)).dropAssembly (.field r.addr r.port)) := by
    simp only [State.takeSegment, h.first, h.single, h.whole, hn, h.head, e6]
    rfl
  have ht : ∀ o n, o + n ≤ 12 → leAt ((kBody r.bytes).take 12) o n = leAt (kBody r.bytes) o n := by
    intro o n k
    simp only [leAt, List.drop_take, List.take_take]
    congr 2
    omega
  simp only [State.serveOp, al, h.opened, h.accepts.operation, State.serveWrite, hs, Bool.false_and, Bool.false_eq_true, if_false, if_true]
  rw [ht 0 2 (by decide), ht 2 1 (by decide), ht 3 1 (by decide), ht 4 4 (by decide), h.head, e1, e2, e3, e4, e5]
  have : ¬ (bytesLE 2 index ++ bytesLE 1 sub ++ bytesLE 1 d.type.code ++ bytesLE 4 v.length ++ bytesLE 4 0 ++ v).length < 12 := by omega
  simp only [this, decide_false, Bool.false_or, bne_self_eq_false, Bool.false_eq_true, if_false]

/-- Dropping the assembly of a source that has none changes nothing. -/
theorem dropAssembly_none (s : State) (p : KdpPath) (h : s.assembling p = false) : s.dropAssembly p = s := by
  have : s.keeper.assemblies.filter (fun (a : Assembly) => a.path != p) = s.keeper.assemblies := by
    rw [List.filter_eq_self]; intro a m
    simp only [State.assembling, List.any_eq_false] at h
    simpa [bne] using h a m
  simp [State.dropAssembly, this]

/-- A WRITE of one message to a CMD entry whose action is accepted. -/
theorem kdpField_applied {s z : State} {r : KdpRequest} {x : Session} {d : DictRow} {index sub : Nat} {v : List Byte} (h : KdpWrites s r x d index sub v)
    (c : d.access = .cmd) (i : d.index = index) (n : index ≠ 0x9004) (w : (s.took r (some x)).cmdWrite index sub v r.aux = (stOk, z)) :
    keepQueue s (s.kdpField r) = s.applied z r index sub := by
  have f := kdpField_accepts h.accepts
  simp only [serveOp_write h, dropAssembly_none _ _ (took_serveOp_alone h.accepts (by decide))] at f
  have a : (s.took r (some x)).writeAuth (.field r.addr r.port) (some x.slot) index sub = true := by
    have := h.auth
    simpa [State.writeAuth] using this
  rw [f]
  have n' : (index == 0x9004) = false := by simpa using n
  have q : (s.took r (some x)).keeper.acting.contains (dkey index sub) = false := by
    rw [← h.quiet]; simp only [State.took, State.noteSeqno]; split <;> first | rfl | (split <;> rfl)
  have q' : dkey index sub ∉ (s.took r (some x)).keeper.acting := by simpa using q
  simp [State.writeEntry, h.row, c, h.fits, h.range, a, State.runCmd, i, q', w, n', State.applied, stOk, stBusy, show (DAccess.cmd == DAccess.ro) = false from rfl]

/-! ## The tag of a message -/

theorem shaRound_length (v : List Nat) (kw : Nat) (h : v.length = 8) : (shaRound v kw).length = 8 := by
  unfold shaRound; split
  · rfl
  · exact h
theorem shaBlock_length (h : List Nat) (b : List Byte) (k : h.length = 8) : (shaBlock h b).length = 8 := by
  have f : ∀ (l : List Nat) (v : List Nat), v.length = 8 → (l.foldl shaRound v).length = 8 := by
    intro l; induction l with
    | nil => intro v e; exact e
    | cons a l ih => intro v e; exact ih _ (shaRound_length v a e)
  simp [shaBlock, f _ h k, k]
theorem shaBlocks_length (n : Nat) (h : List Nat) (bs : List Byte) (k : h.length = 8) : (shaBlocks n h bs).length = 8 := by
  induction n generalizing h bs with
  | zero => exact k
  | succ n ih => exact ih _ _ (shaBlock_length h _ k)
theorem shaInit_length : shaInit.length = 8 := by rw [shaInit, List.length_map]; decide +kernel

theorem sha384_length (bs : List Byte) : (sha384 bs).length = 48 := by
  have f : ∀ l : List Nat, (l.flatMap (bytesBE 8)).length = 8 * l.length := by
    intro l; induction l with
    | nil => rfl
    | cons a l ih => simp only [List.flatMap_cons, List.length_append, bytesBE, List.length_reverse, bytesLE_length, List.length_cons] at *; omega
  simp only [sha384, f, List.length_take, shaBlocks_length _ shaInit _ shaInit_length]
  rfl
theorem hmac384_length (key msg : List Byte) : (hmac384 key msg).length = 48 := sha384_length _

theorem leAt_append (m t : List Byte) (k n : Nat) (h : k + n ≤ m.length) : leAt (m ++ t) k n = leAt m k n := by
  simp only [leAt]
  rw [List.drop_append_of_le_length (by omega), List.take_append_of_le_length (by simp; omega)]

end Sys2Proof.Machine
end

