-- ==== Sys2Proof/Tests/Slice0.lean ====
section
/-!
SUPPORT. Small tests: ill-formed commands that the check refuses, witnesses of the statements' hypotheses, and single steps whose
results the spec gives.
-/
namespace Sys2Proof.Tests
open Sys2Proof Sys2Proof.Machine
set_option Elab.async false

/-! ## A small device for the witnesses -/

/-- A launch that runs on cell 0, its code 64 bytes at offset 0. -/
def testLaunch : Launch :=
  { queue := 0, index := 1, partition := 0, context := 1, image := 1, imageBase := 0x10000
    variant := { footprint := 1, entry := 0, codeOff := 0, codeLen := 64, longest := 10, extent := 64, sites := [], residents := [] }
    launchId := 7#64, genKey := 0#128, groups := [], consts := [], inlineData := [], priority := 0, irq := false, phase := .running, cells := [0]
    status := none, detail := 0, replayed := 0, clipped := 0, lastClip := none, sticky := 0#7, preempted := false, deliveredPoison := false
    deliveredSuspect := false, lostWrites := false, startTime := 0#64, elapsed := 0, order := 1, loadsLeft := [], votes := []
    tripped := false, reports := [], target := none, save := none, restored := false, hop := [], hopPoison := [], verdicts := 0
    walked := [] }

/-- Thread 0 ready at offset 0; s1 holds 1. -/
def testThread : Thread := { Thread.idle with status := .running, regs := [(1, 1#64)] }
def testCell (h : Thread) : Cell := { Cell.reset with launch := some 1, threads := [(0, h)] }
def testWith (h : Thread) : State := { State.reset with launches := [(1, testLaunch)], cells := [(0, testCell h)] }
/-- The device with the ready thread. -/
def testState : State := testWith testThread
/-- The device with its thread blocked on `w`. -/
def testWaits (w : ThreadWait) : State := testWith { testThread with status := .blocked, waits := w }

theorem testIssues (w : Word) (cls size : Nat) (h : wClass w = cls) (g : testThread.guard w = true) (k : size ≤ 60) :
    Issues testState 0 0 w cls size testLaunch :=
  ⟨rfl, by decide, by decide, ⟨1, rfl⟩, rfl, by decide, by decide, h, g, by
    simp [show (testState.thread 0 0).pc.toNat = 0 from rfl, Launch.inCode, testLaunch]; omega⟩

/-- A word of form R without a guard: class, rd, rs1, rs2, operation (R545). -/
def testWord (cls rd rs1 rs2 op : Nat) : Word := BitVec.ofNat 32 (cls * 2 ^ 28 + rd * 2 ^ 19 + rs1 * 2 ^ 14 + rs2 * 2 ^ 9 + op)
/-- The device with the ready thread and these register values. -/
def testRegs (rs : List (Nat × DWord)) : State := testWith { testThread with regs := rs }
/-- `s` with cell 0 changed. -/
def testCell0 (s : State) (f : Cell → Cell) : State := s.setCell 0 (f (s.cell 0))
/-- A calendar that grants every role some slot. -/
def testCalendar : List Word := [0x0007CB8F#32, 0x000BDBA7#32, 0x000FE7C7#32, 0x0017DBD7#32]
/-- A memory that is zero but for these bytes, at rising places. -/
def testMemory (l : List (Nat × List Byte)) : Memory :=
  { Memory.zero with bytes := l.flatMap (fun x => (x.2.zipIdx.map (fun p => (x.1 + p.2, p.1))).filter (fun p => p.2 != 0#8)) }

/-! ## A keeper for the witnesses -/

def testAux : KdpAux := { image := ⟨true⟩, bankA := ⟨true⟩, bankB := ⟨true⟩ }
/-- The session of slot 0 at source 10, port 20. -/
def testSession : Session := { slot := 0, path := .field 10 20, nonce := [], opened := true, key := [1#8], seqno := 0 }
/-- A device whose keeper has a usable address and session 5. -/
def testKeeper : State := { State.reset with fieldUsable := true, keeper := { Keeper.reset with sessions := [(5, testSession)] } }
/-- A request of operation `op` in session 5, and its tagged datagram. -/
def testMsg (op : Nat) (body : List Byte) : List Byte :=
  bytesLE 2 0x4B44 ++ bytesLE 1 1 ++ bytesLE 1 op ++ bytesLE 4 0 ++ bytesLE 4 5 ++ bytesLE 4 1 ++ bytesLE 2 body.length ++ bytesLE 1 0 ++ bytesLE 1 2
    ++ bytesLE 2 0 ++ bytesLE 2 1 ++ body
def testReq (m : List Byte) : KdpRequest := { frame := .udp, addr := 10, port := 20, dst := leNat allNodes, dstPort := 49820, bytes := m ++ (hmac384 [1#8] m).take 24, aux := testAux }
def testValue (index sub code : Nat) (v : List Byte) : List Byte :=
  bytesLE 2 index ++ bytesLE 1 sub ++ bytesLE 1 code ++ bytesLE 4 v.length ++ bytesLE 4 0 ++ v
/-- The row of an entry that has one. -/
def testRow (index sub : Nat) : DictRow := (dictRow index sub).getD ⟨0, 0, 0, .bool, .ro, 0, 0, 0, false, ""⟩
/-- A WRITE of `v` to an entry. -/
def testWrite (index sub : Nat) (v : List Byte) : KdpRequest := testReq (testMsg 3 (testValue index sub (testRow index sub).type.code v))

theorem testMsg_fields (op : Nat) (body t : List Byte) (o : op < 256) (b : body.length ≤ 1400) :
    (testMsg op body).length = 24 + body.length ∧ leAt (testMsg op body ++ t) 0 2 = 0x4B44 ∧ leAt (testMsg op body ++ t) 2 1 = 1
    ∧ leAt (testMsg op body ++ t) 3 1 = op ∧ leAt (testMsg op body ++ t) 8 4 = 5 ∧ leAt (testMsg op body ++ t) 12 4 = 1
    ∧ leAt (testMsg op body ++ t) 16 2 = body.length ∧ leAt (testMsg op body ++ t) 18 1 = 0 ∧ leAt (testMsg op body ++ t) 19 1 = 2
    ∧ leAt (testMsg op body ++ t) 20 2 = 0 ∧ leAt (testMsg op body ++ t) 22 2 = 1 ∧ (testMsg op body ++ t).drop 24 = body ++ t := by
  refine ⟨?_, ?_, ?_, ?_, ?_, ?_, ?_, ?_, ?_, ?_, ?_, ?_⟩ <;> simp [testMsg, leAt, leNat, bytesLE] <;> omega

/-- The keeper of `s` runs with the field address usable and session 5 open. -/
structure TestKeeper (s : State) : Prop where
  usable : s.fieldUsable = true
  up : s.keeperUp = true
  noRecovery : s.boot.recovery = false
  session : tabFind s.keeper.sessions 5 = some testSession
  idle : s.keeper.assemblies = []
  port : s.kdpPort = 49820
  calm : s.keeper.acting = []

theorem testAccepts (s : State) (op : Nat) (body : List Byte) (h : TestKeeper s) (o : op ∈ [2, 3, 4, 7]) (b : body.length ≤ 1400) :
    KdpAccepts s (testReq (testMsg op body)) op (some testSession) := by
  obtain ⟨l, f1, f2, f3, f4, f5, f6, f7, f8, f9, f10, f11⟩ := testMsg_fields op body ((hmac384 [1#8] (testMsg op body)).take 24)
    (by simp at o; omega) b
  have tl : ((hmac384 [1#8] (testMsg op body)).take 24).length = 24 := by simp [hmac384_length]
  have len : (testReq (testMsg op body)).bytes.length = 48 + body.length := by simp only [testReq, List.length_append, tl, l]; omega
  have tag : kTag (testReq (testMsg op body)).bytes = (hmac384 [1#8] (testMsg op body)).take 24 := by
    simp only [kTag, kLen, testReq, f6]
    rw [List.drop_append, List.drop_eq_nil_of_le (by omega)]
    simp [l, List.take_of_length_le (Nat.le_of_eq tl)]
  have whole : (testReq (testMsg op body)).bytes.take (24 + kLen (testReq (testMsg op body)).bytes) = testMsg op body := by
    simp only [kLen, testReq, f6]
    rw [← l, List.take_left]
  refine ⟨rfl, by simp [testReq], h.port.symm, h.usable, h.up, h.noRecovery, ?_, f3, ?_, ?_, ?_, ?_⟩
  · have : ¬ (testReq (testMsg op body)).bytes.length < 24 := by omega
    simp [kDropped, this]
    exact ⟨f1, f2⟩
  · have e : kLen (testReq (testMsg op body)).bytes = body.length := f6
    have g : kFlags (testReq (testMsg op body)).bytes = 2 := f8
    have q : kOp (testReq (testMsg op body)).bytes = op := f3
    have r : kSegs (testReq (testMsg op body)).bytes = 1 := f10
    have w : kSeg (testReq (testMsg op body)).bytes = 0 := f9
    have v : leAt (testReq (testMsg op body)).bytes 0x12 1 = 0 := f7
    have y : kSess (testReq (testMsg op body)).bytes = 5 := f4
    simp only [kWellFormed, e, g, q, r, w, v, y, len]
    simp only [List.mem_cons, List.not_mem_nil, or_false] at o
    have b1 : Nat.testBit 2 1 = true := rfl
    have b2 : Nat.testBit 2 2 = false := rfl
    rcases o with rfl | rfl | rfl | rfl <;> simp [b, bitAt, b1, b2, kSegmented] <;> omega
  · have q : kOp (testReq (testMsg op body)).bytes = op := f3
    have y : kSess (testReq (testMsg op body)).bytes = 5 := f4
    have g : kFlags (testReq (testMsg op body)).bytes = 2 := f8
    have z : kSeqno (testReq (testMsg op body)).bytes = 1 := f5
    have n : (op == 6) = false := by simp at o ⊢; omega
    simp only [State.sessionCheck, q, y, g, z, h.session, whole, tag, n]
    simp [testSession, bitAt, testReq, show Nat.testBit 2 1 = true from rfl]
  · intro _; simp [State.assembling, h.idle]
  · rw [show kSeqno (testReq (testMsg op body)).bytes = 1 from f5]; decide

/-- A WRITE that fits its row is accepted in session 5. -/
theorem testWrites (s : State) (index sub : Nat) (v : List Byte) (h : TestKeeper s) (i : index < 65536 ∧ sub < 256)
    (r : dictRow index sub = some (testRow index sub)) (a : (testRow index sub).access ≠ .ro) (b : v.length ≤ 1388)
    (f : typeFits (testRow index sub) (testRow index sub).type.code v = true) (g : rangeFits (testRow index sub) v = true) :
    KdpWrites s (testWrite index sub v) testSession (testRow index sub) index sub v := by
  have len : (testValue index sub (testRow index sub).type.code v).length ≤ 1400 := by simp [testValue, bytesLE_length]; omega
  obtain ⟨l, f1, f2, f3, f4, f5, f6, f7, f8, f9, f10, f11⟩ := testMsg_fields 3 (testValue index sub (testRow index sub).type.code v)
    ((hmac384 [1#8] (testMsg 3 (testValue index sub (testRow index sub).type.code v))).take 24) (by decide) len
  refine ⟨testAccepts s 3 _ h (by decide) len, rfl, f9, f10, ?_, ?_, ⟨i.1, i.2, by omega⟩, r, a, f, g, ?_, by rw [h.calm]; rfl⟩
  · rw [show kFlags (testWrite index sub v).bytes = 2 from f8]; decide
  · have e : kLen (testWrite index sub v).bytes = (testValue index sub (testRow index sub).type.code v).length := f6
    rw [kBody, e]
    rw [show (testWrite index sub v).bytes.drop 24 = _ from f11, List.take_left]
    rfl
  · simp [State.writeAuth, testSession]

/-! ## The conditions of the statements, from decidable ones -/

theorem testIssue {s : State} {c t cls size : Nat} {w : Word} {l : Launch} (h : s.running = true ∧ c < 128 ∧ t < 16 ∧
    (s.activeLaunch c).map (fun x => x.2) = some l ∧ (s.thread c t).status = .running ∧ (s.cell c).mayIssue t = true ∧ s.checkRuns l = false ∧ wClass w = cls ∧ (s.thread c t).guard w = true ∧
    l.inCode ((s.thread c t).pc.toNat + size) = true) : Issues s c t w cls size l := by
  obtain ⟨a, b, d, e, f, m1, m2, g, i, j⟩ := h
  obtain ⟨⟨id, m⟩, n, rfl⟩ := Option.map_eq_some_iff.mp e
  exact ⟨a, b, d, ⟨id, n⟩, f, m1, m2, g, i, j⟩

theorem testThreadReady {s : State} {c t : Nat} {l : Launch} (h : s.running = true ∧ c < 128 ∧ t < 16 ∧
    (s.activeLaunch c).map (fun x => x.2) = some l ∧ (s.thread c t).status = .running ∧ (s.cell c).mayIssue t = true ∧ s.checkRuns l = false) :
    ThreadReady s c t l := by
  obtain ⟨a, b, d, e, f, m1, m2⟩ := h
  obtain ⟨⟨id, m⟩, n, rfl⟩ := Option.map_eq_some_iff.mp e
  exact ⟨a, b, d, ⟨id, n⟩, f, m1, m2⟩

theorem testVecIssues {s : State} {c cls : Nat} {w : Word} (h : s.running = true ∧ c < 128 ∧ s.cellActive c = true ∧
    (s.cell c).vec.cmd.isSome = true ∧ (s.cell c).vec.ended = false ∧ field w.toNat 31 28 = cls) : VecIssues s c w cls :=
  ⟨⟨h.1, h.2.1, h.2.2.1⟩, h.2.2.2.1, h.2.2.2.2.1, h.2.2.2.2.2⟩

theorem testThreadRuns {s : State} {c : Nat} (h : (s.cell c).threads.any (fun x => x.2.status == .running) = true) : ThreadRuns s c := by
  obtain ⟨x, m, e⟩ := List.any_eq_true.mp h
  exact ⟨x.1, x.2, m, by simpa using e⟩

theorem testHeadRuns {s : State} {l : List Nat} (h : (l.take 1).all (fun c => (s.cell c).threads.any (fun x => x.2.status == .running)) = true) :
    ∀ c, l.head? = some c → ThreadRuns s c := by
  intro c e
  cases l with
  | nil => cases e
  | cons a r => cases e; exact testThreadRuns (by simpa using h)

theorem testAllRun {s : State} {l : List Nat} (h : l.all (fun c => (s.cell c).threads.any (fun x => x.2.status == .running)) = true) :
    ∀ c ∈ l, ThreadRuns s c := fun c m => testThreadRuns (List.all_eq_true.mp h c m)

theorem testVoteReady {s : State} {r : Bool} {c t off p : Nat} (site cal : Nat) (h : (s.cell c).layer = .voting t ∧ (s.cell c).mark = .none ∧
    ((s.cell c).thread t).waits = .layerW site cal off p ∧ (r = false → off = cal) ∧
    off + 64 ≤ scratchBytes ∧ (s.cell c).spPoison off 64 = false ∧ calValid (calOfBytes ((s.cell c).scratch.read off 64)) = true) : VoteReady s r c t off p :=
  ⟨h.1, h.2.1, ⟨site, cal, off, h.2.2.1, by cases r <;> simp_all⟩, h.2.2.2.2⟩

theorem testExceptOk {ε α : Type} {x : Except ε α} {a : α} (h : x.toOption = some a) : x = .ok a := by
  cases x with
  | ok b => cases h; rfl
  | error e => cases h

theorem testAllThreads {l : List (SemWaiter × Nat)} (h : l.all (fun p => match p.1 with | .thread _ => true | _ => false) = true) :
    ∀ p ∈ l, ∃ k, p.1 = .thread k := by
  intro p m
  have := List.all_eq_true.mp h p m
  split at this
  · exact ⟨_, by assumption⟩
  · cases this

theorem testThreadIs {t : Table Thread} {k : Nat} (h : t.any (fun x => x.1 == k && x.2.status == .running && x.2.waits == .nothing) = true) :
    ∃ h, (k, h) ∈ t ∧ h.status = .running ∧ h.waits = .nothing := by
  obtain ⟨x, m, e⟩ := List.any_eq_true.mp h
  simp only [Bool.and_eq_true, beq_iff_eq] at e
  exact ⟨x.2, by rw [← e.1.1]; exact m, e.1.2, e.2⟩

theorem testNoStores {s : State} {c : Nat} (h : (s.cell c).threads.all (fun x => x.2.spStores.isEmpty) = true) (k : Nat) :
    (s.thread c k).spStores = [] := by
  unfold State.thread Cell.thread tabGet
  generalize (s.cell c).threads = t at h ⊢
  induction t with
  | nil => rfl
  | cons p r ih =>
    simp only [List.all_cons, Bool.and_eq_true, List.isEmpty_iff] at h
    simp only [tabFind]
    split
    · simpa using h.1
    · split
      · rfl
      · exact ih h.2

theorem testReads {x : VRead} (h : (match x with | .ok _ _ _ => true | _ => false) = true) : ∃ b po su, x = .ok b po su := by
  split at h
  · exact ⟨_, _, _, rfl⟩
  · cases h

theorem testReadsOk {l : List VRead} {ok : List Byte → Bool} (h : l.all (fun x => match x with | .ok b _ _ => ok b | _ => false) = true) :
    ∀ r ∈ l, ∃ b po su, r = .ok b po su ∧ ok b = true := by
  intro x m
  have := List.all_eq_true.mp h x m
  split at this
  · exact ⟨_, _, _, rfl, this⟩
  · cases this

theorem testNoRegion {l : List AdminWork} (h : l = []) : ∀ w ∈ l, ∀ r, w.waits ≠ .region r := by
  subst h
  intro w m
  cases m

theorem testNoRead {o : RoceOp} (h : (match o with | .read _ _ _ => false | _ => true) = true) : ∀ va rkey n, o ≠ .read va rkey n := by
  rintro va rkey n rfl
  cases h

theorem testNotRising {q : SeqState} (h : (match q with | .rising _ => false | _ => true) = true) : ∀ j, q ≠ .rising j := by
  rintro j rfl
  cases h

def testAlloc (x : Option (State × Nat)) : State := match x with
  | some (s, _) => s
  | none => State.reset

theorem testAllocSome {x : Option (State × Nat)} {n : Nat} (h : x.map (fun y => y.2) = some n) : x = some (testAlloc x, n) := by
  obtain ⟨⟨s, m⟩, e, rfl⟩ := Option.map_eq_some_iff.mp h
  subst e
  rfl

theorem testPairFst {α β : Type} {x : α × β} {a : α} (h : x.1 = a) : x = (a, x.2) := by cases h; rfl

theorem testPairSnd {α β : Type} {x : α × β} {b : β} (h : x.2 = b) : x = (x.1, b) := by cases h; rfl

theorem testRegionOk {o : Option (List Byte × Bool)} (h : o.map (fun x => x.2) = some false) : o = some ((o.getD ([], false)).1, false) := by
  obtain ⟨⟨b, p⟩, e, rfl⟩ := Option.map_eq_some_iff.mp h
  subst e
  rfl

theorem testServes {β γ : Type} {x : Option (List β) × γ} (h : x.1.isSome = true) : x = (some (x.1.getD []), x.2) := by
  obtain ⟨o, z⟩ := x
  cases o with
  | none => cases h
  | some b => rfl

theorem testSumLength {a b : List Byte} {m n : Nat} (h : a.length = m) (k : b.length = n) : (a ++ b).length = m + n := by rw [List.length_append, h, k]

theorem testDrops {β γ : Type} {x : Option (List β) × γ} (h : x.1.isSome = false) : x = (none, x.2) := by
  obtain ⟨o, z⟩ := x
  cases o with
  | none => rfl
  | some b => cases h

theorem testPages {s : State} {lid ctx va n p0 : Nat} {l : Launch} {f : Nat → Nat} {a : Access}
    (h : (spanPages va n).all (fun p => l.walked.contains (combOf (f (max va p)), p)) = true) : PagesWalked s lid l f ctx a va n p0 :=
  fun p m => Or.inl (List.contains_iff_mem.mp (List.all_eq_true.mp h p m))

theorem testStill {q : SeqState} (h : (match q with | .rising _ => false | .waiting _ => false | _ => true) = true) : ∀ k, q ≠ .rising k ∧ q ≠ .waiting k := by
  intro k
  constructor <;> rintro rfl <;> cases h

/-- A request to all nodes is accepted where the rest of `KdpAccepts` holds. -/
theorem testAny {s : State} {r : KdpRequest} {op : Nat} {x : Option Session} (a : r.dst = leNat allNodes)
    (c : r.frame = .udp ∧ r.dstPort = s.kdpPort ∧ s.fieldUsable = true ∧ s.keeperUp = true ∧ s.boot.recovery = false ∧ kDropped r.bytes = false ∧
      kOp r.bytes = op ∧ kWellFormed (.field r.addr r.port) r.bytes = true ∧ s.sessionCheck (.field r.addr r.port) r.bytes = (kOk, x) ∧
      (op ≠ 0x06 → s.assembling (.field r.addr r.port) = false) ∧ kSeqno r.bytes ≠ 0xFFFFFFFF) : KdpAccepts s r op x := by
  obtain ⟨d, e, f, g, h, i, j, k, l, m, n⟩ := c
  exact ⟨d, by simp [a], e, f, g, h, i, j, k, l, m, n⟩

/-! ## A queue's head, from what is written there -/

theorem testFind_none {α : Type} (t : Table α) (k : Nat) (h : ∀ x ∈ t, x.1 ≠ k) : tabFind t k = none := by
  induction t with
  | nil => rfl
  | cons a r ih =>
    have := h a (by simp)
    simp only [tabFind, beq_iff_eq]
    rw [if_neg this]
    split
    · rfl
    · exact ih (fun x m => h x (by simp [m]))

/-- What a zero memory with bytes below `a` only reads from `a` on once `bs` is written there. -/
theorem testRead_written (m : Memory) (a n : Nat) (bs : List Byte) (b : m.base = none) (w : m.wf = true)
    (low : m.bytes.all (fun c => decide (c.1 < a)) = true) (l : bs.length ≤ n) :
    (m.write a bs).read a n = bs ++ List.replicate (n - bs.length) 0#8 := by
  apply List.ext_getElem?
  intro i
  unfold Memory.read
  by_cases k : i < n
  · rw [List.getElem?_map, List.getElem?_range k, Option.map_some]
    by_cases j : i < bs.length
    · rw [List.getElem?_append_left j, List.getElem?_eq_getElem j, Memory.get_write_in m a i bs bs[i] (List.getElem?_eq_getElem j) w]
    · rw [List.getElem?_append_right (by omega), List.getElem?_replicate, if_pos (by omega), Memory.get_write_out _ _ _ _ (by omega) w]
      have : tabFind m.bytes (a + i) = none := testFind_none _ _ (fun x hx => by
        have := List.all_eq_true.mp low x hx
        simp only [decide_eq_true_eq] at this
        omega)
      simp [Memory.get, Memory.unlisted, this, b]
  · rw [List.getElem?_eq_none (by simpa using k), List.getElem?_eq_none (by simp; omega)]

theorem testWrite_flags (m : Memory) (a : Nat) (bs : List Byte) : (m.write a bs).poison = m.poison ∧ (m.write a bs).inv = m.inv := by
  induction bs generalizing m a with
  | nil => exact ⟨rfl, rfl⟩
  | cons b bs ih =>
    have e := ih (m.set a b) (a + 1)
    rw [Memory.write]
    refine ⟨e.1.trans ?_, e.2.trans ?_⟩ <;> (unfold Memory.set; split <;> rfl)

def testAdmBytes (op : Nat) (p : List Byte) : List Byte :=
  bytesLE 1 op ++ bytesLE 1 0 ++ bytesLE 2 p.length ++ bytesLE 4 0 ++ bytesLE 8 7 ++ bytesLE 16 0 ++ p
theorem testAdmBytes_length (op : Nat) (p : List Byte) : (testAdmBytes op p).length = 32 + p.length := by
  simp [testAdmBytes, bytesLE_length]; omega
/-- The admin queue of `s` runs with one command at its head. -/
def testAdm (s : State) (op : Nat) (p : List Byte) : State :=
  { s with
    admin := { s.admin with running := true, tail := 1#64 }
    dram := s.dram.write 0x6000000000 (testAdmBytes op p) }

theorem testAdmHead {s : State} {op n : Nat} {p : List Byte} (c : op < 256 ∧ adminOpcodes.contains op = true ∧ p.length = n ∧ n ≤ 992 ∧
    s.dram.base = none ∧ s.dram.wf = true ∧ s.dram.bytes.all (fun c => decide (c.1 < 0x6000000000)) = true ∧ s.admin.taken = 0#64 ∧
    s.damage = [] ∧ s.struck = [] ∧ s.dram.poisoned 64 0x6000000000 1024 = false ∧ (testAdm s op p).admReady = true ∧ s.admin.work = []) : AdminHead (testAdm s op p) op n p := by
  obtain ⟨o, k, len, le, base, wf, low, taken, damage, struck, poison, ready, idle⟩ := c
  have slot : (testAdm s op p).admSlot = testAdmBytes op p ++ List.replicate (1024 - (testAdmBytes op p).length) 0#8 := by
    have : (testAdm s op p).admin.taken = 0#64 := taken
    simp only [State.admSlot, this, State.dramView]
    rw [show (testAdm s op p).damage = [] from damage, show (testAdm s op p).struck = [] from struck, show admSlotAddr (0#64).toNat = 0x6000000000 from rfl]
    simp only [List.isEmpty_nil, Bool.and_self, Bool.true_or, if_true]
    have size : (testAdmBytes op p).length ≤ 1024 := by rw [testAdmBytes_length, len]; exact Nat.add_le_add_left le 32
    simp only [testAdm]
    exact testRead_written _ _ _ _ base wf low size
  have dirty : (testAdm s op p).admPoison = false := by
    have : (testAdm s op p).admin.taken = 0#64 := taken
    have f := testWrite_flags s.dram 0x6000000000 (testAdmBytes op p)
    simp only [State.admPoison, this, State.dramView]
    rw [show (testAdm s op p).damage = [] from damage, show (testAdm s op p).struck = [] from struck, show admSlotAddr (0#64).toNat = 0x6000000000 from rfl]
    simp only [List.isEmpty_nil, Bool.and_self, Bool.true_or, if_true]
    have e : (testAdm s op p).dram.poisoned 64 0x6000000000 1024 = s.dram.poisoned 64 0x6000000000 1024 := by
      simp only [testAdm, Memory.poisoned, f.1, f.2]
    exact e.trans poison
  have hop : ahOpcode (testAdm s op p).admSlot = op := by
    rw [slot]; simp [ahOpcode, testAdmBytes, leAt, leNat, bytesLE]; omega
  have hlen : ahLen (testAdm s op p).admSlot = n := by
    rw [slot]; simp [ahLen, testAdmBytes, leAt, leNat, bytesLE, len]; omega
  have hpay : ahPayload (testAdm s op p).admSlot = p := by
    rw [ahPayload, hlen, slot]
    have : (testAdmBytes op p ++ List.replicate (1024 - (testAdmBytes op p).length) 0#8).drop 32
        = p ++ List.replicate (1024 - (testAdmBytes op p).length) 0#8 := by
      rw [testAdmBytes, List.append_assoc (_ ++ bytesLE 16 0)]
      exact List.drop_left' (by simp [bytesLE_length])
    rw [this, ← len, List.take_left]
  refine ⟨ready, ?_, hop, ?_, hlen, hpay⟩
  · have tag : ahTag (testAdm s op p).admSlot = 0 := by rw [slot]; simp [ahTag, testAdmBytes, leAt, leNat, bytesLE]
    have rsv : ahRsvOk (testAdm s op p).admSlot = true := by
      rw [slot]; simp [ahRsvOk, testAdmBytes, leAt, leNat, bytesLE]
    have : (testAdm s op p).admin.taken = 0#64 := taken
    simp only [State.admRefusal, dirty, tag, this, hop, k, rsv, hlen]
    simp; omega
  · have : (testAdm s op p).admin.work = [] := idle
    simp only [State.admHeld, this, List.any_nil, Bool.and_false]

def testSlotBytes (b : List Byte) : List Byte := b ++ List.replicate (512 - b.length) 0#8

/-- Queue 5 of `s` is `x`, with the command `b` at the start of its ring. -/
def testQueueWith (x : Queue) (s : State) (b : List Byte) : State :=
  { s with queues := [(5, x)], host := { s.host with fn := .active, bme := true }, dram := s.dram.write 0x6000100000 b }

theorem testQueueHead {s : State} {x : Queue} {b : List Byte} {k : Nat} (c : s.dram.base = none ∧ s.dram.wf = true ∧
    s.dram.bytes.all (fun c => decide (c.1 < 0x6000100000)) = true ∧ b.length ≤ 512 ∧ s.damage = [] ∧ s.struck = [] ∧
    (s.dram.poisoned 64 0x6000100000 64 || s.dram.poisoned 64 (0x6000100000 + 0x40) (8 * min 32 (chConstWords (testSlotBytes b)))
      || s.dram.poisoned 64 (0x6000100000 + 0x140) (8 * min 24 (chInlineWords (testSlotBytes b)))) = false ∧
    x.slotAddr x.taken.toNat = 0x6000100000 ∧ s.running = true ∧ (testQueueWith x s b).isNext 5 = true ∧ chKind (testSlotBytes b) = k ∧ k ≤ 4 ∧
    (testQueueWith x s b).headerCheck 5 (testSlotBytes b) = none) : QueueHead (testQueueWith x s b) 5 k (testSlotBytes b) := by
  obtain ⟨base, wf, low, size, damage, struck, poison, addr, path, next, kind, known, sound⟩ := c
  have f := testWrite_flags s.dram 0x6000100000 b
  have q : (testQueueWith x s b).queue 5 = x := rfl
  have d : (testQueueWith x s b).damage = [] := damage
  have e : (testQueueWith x s b).struck = [] := struck
  have slot : (testQueueWith x s b).slotOf 5 = testSlotBytes b := by
    simp only [State.slotOf, State.dramView, q, addr, d, e, List.isEmpty_nil, Bool.and_self, Bool.true_or, if_true]
    simp only [testQueueWith]
    exact testRead_written _ _ _ _ base wf low size
  have view : ∀ a n, ((testQueueWith x s b).dramView a n).2 = s.dram.poisoned 64 a n := by
    intro a n
    simp only [State.dramView, d, e, List.isEmpty_nil, Bool.and_self, Bool.true_or, if_true]
    simp only [testQueueWith, Memory.poisoned, f.1, f.2]
  refine ⟨path, by decide, next, ?_, slot, kind, known, sound⟩
  simp only [State.slotPoison, slot, view, q, addr]
  exact poison

def testV05_1 : List Instr := [.powerUp (testWrite 0x1003 0 [])]
def testS05_2 : State := { State.reset with pending := [.vauxLoss, .powerUp (testWrite 0x1003 0 [])] }
def testS05_3 : State := State.reset

theorem witness_StepRunsTheFrontCommand :
  (∃ (c : Instr) (rest : List Instr) (s : State), s.pending = c :: rest) ∧
  (∃ (s : State), s.pending = []) := by
  refine ⟨⟨.vauxLoss, testV05_1, testS05_2, ?_⟩, ⟨testS05_3, ?_⟩⟩ <;> decide +kernel

def testS05_4 : State := { State.reset with pending := [.nop 0] }

theorem witness_EveryStepKeepsTheQueueWellFormed :
  (∃ (s : State), s.queueWellFormed) := by
  refine ⟨testS05_4, (by unfold State.queueWellFormed; decide +kernel)⟩ <;> decide +kernel


theorem witness_WaitingCommandsRunToTheEnd :
  (∃ (s : State) (n : Nat), s.queueWellFormed ∧ n ≤ s.pending.length) := by
  refine ⟨testS05_4, 1, (by unfold State.queueWellFormed; decide +kernel), ?_⟩ <;> decide +kernel

def testV05_5 : DictRow := testRow 0x6055 0

theorem witness_ResetLeavesTheDictionaryAtItsDefaults :
  (∃ (index sub : Nat) (r : DictRow), dictRow index sub = some r ∧ r.type.bits ≠ 0 ∧ index ≠ 0x1013) := by
  refine ⟨0x6055, 0, testV05_5, ?_, ?_, ?_⟩ <;> decide +kernel


theorem witness_UnitsTheDeviceLacksFault :
  (∃ (s : State) (c t : Nat) (w : Word) (op : Option IntOp), (128 ≤ c ∨ 16 ≤ t)) ∧
  (∃ (s : State) (c t : Nat) (w : Word) (op : Option IntOp), (128 ≤ c ∨ 16 ≤ t)) ∧
  (∃ (s : State) (c : Nat), 128 ≤ c) ∧
  (∃ (s : State) (q : Nat), 1024 ≤ q) ∧
  (∃ (s : State) (p : Nat), 16 ≤ p) ∧
  (∃ (s : State) (k : Nat), 16 ≤ k) ∧
  (∃ (s : State) (k : Nat), 4 ≤ k) ∧
  (∃ (s : State) (f : Nat), 4 ≤ f) ∧
  (∃ (s : State) (p : Nat), 8 ≤ p) ∧
  (∃ (s : State) (u : Nat), 256 ≤ u) ∧
  (∃ (s : State) (k : Nat) (v : DWord), 64 ≤ k) ∧
  (∃ (s : State) (r : Nat), (r = 0 ∨ 8 < r)) ∧
  (∃ (s : State) (r : Nat), (r = 0 ∨ 8 < r)) := by
  refine ⟨⟨testS05_3, 128, 0, 0#32, none, ?_⟩, ⟨testS05_3, 127, 16, 0#32, none, ?_⟩, ⟨testS05_3, 128, ?_⟩, ⟨testS05_3, 1024, ?_⟩, ⟨testS05_3, 16, ?_⟩,
      ⟨testS05_3, 16, ?_⟩, ⟨testS05_3, 4, ?_⟩, ⟨testS05_3, 4, ?_⟩, ⟨testS05_3, 8, ?_⟩, ⟨testS05_3, 256, ?_⟩, ⟨testS05_3, 64, 0#64, ?_⟩,
      ⟨testS05_3, 9, ?_⟩, ⟨testS05_3, 0, ?_⟩⟩ <;> decide +kernel


theorem witness_LittleEndianFields :
  (∃ (n i : Nat), i < n) ∧
  (∃ (hi lo : Nat), lo ≤ hi) := by
  refine ⟨⟨4, 3, ?_⟩, ⟨11, 4, ?_⟩⟩ <;> decide +kernel

def testS05_6 : State := testRegs [(1, 0x2FFFFF#64)]
def testV05_7 : Word := testWord 4 2 1 0 0
def testS05_8 : State := testRegs [(1, 0x300000#64)]
def testS05_9 : State := testCell0 (testRegs [(1, 0x2FFFF8#64)]) (fun x => { x with calendar := testCalendar })
def testV05_10 : Word := testWord 4 1 1 0 0
def testC05_11 : Cell := testCell { testThread with spStores := [(0x2FFFF8, [1#8, 2#8]), (0x10, [3#8])] }
def testV05_12 : List (Nat × List Byte) := [(0x10, [3#8])]
def testS05_13 : State := testWaits (.spLoad 31 0x2FFFF8 8 false)
def testS05_14 : State := testWith { testThread with status := .blocked, waits := .fence, spStores := [(0x10, [3#8])] }
def testS05_15 : State := testRegs [(1, 0x3#64)]
def testV05_16 : Word := testWord 5 2 1 0 0

theorem witness_AccessesAreAlignedAndInRange :
  (∃ (s : State) (c t : Nat) (w : Word) (l : Launch) (o : MemOp), Issues s c t w 4 4 l ∧ o.log2 ≤ 3 ∧
    (let a := memAddr ((s.thread c t).reg (wRs1 w)) w o.log2
    (let a := memAddr ((s.thread c t).reg (wRs1 w)) w o.log2
    a % 2 ^ o.log2 ≠ 0 ∧ o.sext = false) ∧ (let a := memAddr ((s.thread c t).reg (wRs1 w)) w o.log2
    a % 2 ^ o.log2 ≠ 0))) ∧
  (∃ (s : State) (c t : Nat) (w : Word) (l : Launch) (o : MemOp), Issues s c t w 4 4 l ∧ o.log2 ≤ 3 ∧
    (let a := memAddr ((s.thread c t).reg (wRs1 w)) w o.log2
    (let a := memAddr ((s.thread c t).reg (wRs1 w)) w o.log2
    a % 2 ^ o.log2 = 0 ∧ 0x300000 ≤ a ∧ o.sext = false) ∧ (let a := memAddr ((s.thread c t).reg (wRs1 w)) w o.log2
    a % 2 ^ o.log2 = 0 ∧ 0x300000 ≤ a))) ∧
  (∃ (s : State) (c t : Nat) (w : Word) (l : Launch) (o : MemOp), Issues s c t w 4 4 l ∧ o.log2 ≤ 3 ∧
    (let a := memAddr ((s.thread c t).reg (wRs1 w)) w o.log2
    (let a := memAddr ((s.thread c t).reg (wRs1 w)) w o.log2
    a % 2 ^ o.log2 = 0 ∧ a < 0x300000 ∧ calReaches (s.cell c).calendar .scalarRd a (2 ^ o.log2) = true) ∧
    (let a := memAddr ((s.thread c t).reg (wRs1 w)) w o.log2
    a % 2 ^ o.log2 = 0 ∧ a < 0x300000 ∧ calReaches (s.cell c).calendar .scalarWr a (2 ^ o.log2) = true ∧ o.sext = false))) ∧
  (∃ (x : Cell) (t off : Nat) (bs : List Byte) (rest : List (Nat × List Byte)), (x.thread t).spStores = (off, bs) :: rest ∧ x.scratch.wf = true ∧
    (∃ (i : Nat), i < bs.length) ∧ (∃ (i : Nat), i < bs.length) ∧ (∃ (a : _), (a < off ∨ off + bs.length ≤ a)) ∧ (∃ (a : _),
    (a < off ∨ off + bs.length ≤ a))) ∧
  (∃ (s : State) (c t rd off n : Nat) (sx : Bool), OnThread s c t ∧ (s.thread c t).waits = .spLoad rd off n sx ∧
    ((s.cell c).landSp t).spPoison off n = false) ∧
  (∃ (s : State) (c t : Nat), OnThread s c t ∧ (s.thread c t).waits = .fence ∧ (s.thread c t).stores = []) ∧
  (∃ (s : State) (c t : Nat) (w : Word) (l : Launch) (o : MemOp), Issues s c t w 5 4 l ∧ o.log2 ≤ 3 ∧
    memAddr ((s.thread c t).reg (wRs1 w)) w o.log2 % 2 ^ o.log2 ≠ 0 ∧ o.sext = false) := by
  refine ⟨⟨testS05_6, 0, 0, testV05_7, testLaunch, ⟨3, false⟩, testIssue (by decide +kernel), ?_, ⟨?_, ?_⟩, ?_⟩,
      ⟨testS05_8, 0, 0, testV05_7, testLaunch, ⟨3, false⟩, testIssue (by decide +kernel), ?_, ⟨?_, ?_, ?_⟩, ⟨?_, ?_⟩⟩,
      ⟨testS05_9, 0, 0, testV05_10, testLaunch, ⟨3, false⟩, testIssue (by decide +kernel), ?_, ⟨?_, ?_, ?_⟩, ⟨?_, ?_, ?_, ?_⟩⟩,
      ⟨testC05_11, 0, 0x2FFFF8, [1#8, 2#8], testV05_12, ?_, ?_, ⟨⟨0, ?_⟩, ⟨1, ?_⟩, ⟨0x2FFFF7, ?_⟩, ⟨0x2FFFFA, ?_⟩⟩⟩,
      ⟨testS05_13, 0, 0, 31, 0x2FFFF8, 8, false, (by constructor <;> decide +kernel), ?_, ?_⟩, ⟨testS05_14, 0, 0, (by constructor <;> decide +kernel),
      ?_, ?_⟩, ⟨testS05_15, 0, 0, testV05_16, testLaunch, ⟨1, false⟩, testIssue (by decide +kernel), ?_, ?_, ?_⟩⟩ <;> decide +kernel

def testS05_17 : State := testCell0 (testRegs [(1, 63#64), (2, 5#64)]) (fun x => { x with threads := x.threads ++ [(1, { Thread.idle with status := .blocked, waits := .semaphore 63 3 })], waiters := [(63, [(.thread 1, 3), (.thread 2, 4), (.thread 3, 1)])] })
def testV05_18 : Word := testWord 6 0 1 2 0
def testS05_19 : State := testRegs [(1, 63#64), (2, 65535#64)]
def testV05_20 : Word := testWord 6 0 1 2 1
def testS05_21 : State := testCell0 (testRegs [(1, 0#64), (2, 1#64)]) (fun x => { x with calendar := testCalendar })
def testV05_22 : Word := BitVec.ofNat 32 (8 * 2 ^ 28 + 1 * 2 ^ 20 + 1 * 2 ^ 15 + 2 * 2 ^ 10 + 4)

theorem witness_SemaphoresGrantInArrivalOrder :
  (∃ (s : State) (c t i n : Nat) (w : Word) (l : Launch), Issues s c t w 6 4 l ∧ wRd w = 0 ∧ ((s.thread c t).reg (wRs1 w)).toNat = i ∧ i ≤ 63 ∧
    ((s.thread c t).reg (wRs2 w)).toNat = n ∧ 1 ≤ n ∧ ((s.cell c).sem i).toNat + n ≤ 65535 ∧ (∀ p ∈ (s.cell c).semWaiters i, ∃ k, p.1 = .thread k)) ∧
  (∃ (s : State) (c t i n : Nat) (w : Word) (l : Launch), Issues s c t w 6 4 l ∧ wRd w = 0 ∧ ((s.thread c t).reg (wRs1 w)).toNat = i ∧ i ≤ 63 ∧
    ((s.thread c t).reg (wRs2 w)).toNat = n ∧ 1 ≤ n ∧ n ≤ 65535 ∧ (((s.cell c).sem i).toNat < n ∨ (s.cell c).semWaiters i ≠ [])) ∧
  (∃ (s : State) (c t : Nat) (w w1 : Word) (l : Launch), Issues s c t w 8 8 l ∧ eEngine w = 1 ∧ eLegal w w1 = true ∧ eWaitEn w = true ∧
    (let x := s.cell c
    let k := engineCmd x (s.thread c t) t w w1
    let i := eSemWait w1
    1 ≤ k.opB.toNat ∧ k.opB.toNat ≤ 16777216 ∧ calHasRole x.calendar .vecRd = true ∧ x.equeue 1 = [] ∧ (x.sem i = 0#16 ∨ x.semWaiters i ≠ []) ∧
    (∀ p ∈ x.semWaiters i, p.1 ≠ .engine 1))) := by
  refine ⟨⟨testS05_17, 0, 0, 63, 5, testV05_18, testLaunch, testIssue (by decide +kernel), ?_, ?_, ?_, ?_, ?_,
      ?_, testAllThreads (by decide +kernel)⟩, ⟨testS05_19, 0, 0, 63, 65535, testV05_20, testLaunch, testIssue (by decide +kernel), ?_, ?_, ?_, ?_,
      ?_, ?_, ?_⟩, ⟨testS05_21, 0, 0, testV05_22, 0#32, testLaunch, testIssue (by decide +kernel), ?_, ?_, ?_, ?_, ?_, ?_, ?_, ?_, ?_⟩⟩ <;> decide +kernel

def testV05_23 : DictRow := testRow 0x100B 0
def testS05_24 : State := { testKeeper with quarantined := 2#128, health := [(1, { Health.clean with strikes := [0#64] })] }
def testV05_25 : DictRow := testRow 0x6057 0

theorem witness_QuarantineHoldsAcrossRestarts :
  (∃ (s : State) (a b : ImageVerdict), s.keeperUp = true) ∧
  (∃ (s : State) (r : KdpRequest) (x : Session) (d : DictRow) (sub : Nat) (v : List Byte), KdpWrites s r x d 0x100B sub v) ∧
  (∃ (s : State) (r : KdpRequest) (x : Session) (d : DictRow) (sub : Nat) (v : List Byte), KdpWrites s r x d 0x6057 sub v ∧
    (s.hourCommits (dkey 0x6057 sub)).length < 64) := by
  refine ⟨⟨testKeeper, ⟨true⟩, ⟨true⟩, ?_⟩,
      ⟨testKeeper, testWrite 0x100B 0 [0xA5#8], testSession, testV05_23, 0, [0xA5#8], testWrites _ _ _ _ (by constructor <;> decide +kernel) (by decide) (by decide +kernel) (by decide +kernel) (by decide +kernel) (by decide +kernel) (by decide +kernel)⟩,
      ⟨testS05_24, testWrite 0x6057 0 (bytesLE 16 4),
      testSession, testV05_25, 0, bytesLE 16 4, testWrites _ _ _ _ (by constructor <;> decide +kernel) (by decide) (by decide +kernel) (by decide +kernel) (by decide +kernel) (by decide +kernel) (by decide +kernel),
      ?_⟩⟩ <;> decide +kernel

def testV05_26 : Word := testWord 15 0 0 0 0
def testV05_27 : Word := testWord 0 0 0 0 0
def testV05_28 : Word := testWord 6 0 0 0 0
def testV05_29 : Word := testWord 0 0 0 0 0 ||| 0x01000000#32
def testV05_30 : Word := testWord 3 0 0 0 0 ||| 0x01000000#32
def testV05_31 : Word := testWord 4 0 0 0 0 ||| 0x01000000#32
def testV05_32 : Word := testWord 5 0 0 0 0 ||| 0x01000000#32
def testS05_33 : State := testWith { testThread with pc := 60#32 }

theorem witness_IllegalWordsFaultAndFalseGuardsSkip :
  (∃ (s : State) (c t : Nat) (w : Word) (l : Launch) (op : Option IntOp), ThreadReady s c t l ∧ 0xB ≤ wClass w) ∧
  (∃ (s : State) (c t : Nat) (w : Word) (l : Launch), ThreadReady s c t l ∧ wClass w = 0) ∧
  (∃ (s : State) (c t : Nat) (w : Word) (l : Launch), ThreadReady s c t l ∧ wClass w = 6) ∧
  (∃ (s : State) (c t : Nat) (w : Word) (l : Launch), ThreadReady s c t l ∧ (s.thread c t).guard w = false ∧
    l.inCode ((s.thread c t).pc.toNat + 4) = true ∧ wClass w = 0) ∧
  (∃ (s : State) (c t : Nat) (w : Word) (l : Launch), ThreadReady s c t l ∧ (s.thread c t).guard w = false ∧
    l.inCode ((s.thread c t).pc.toNat + 4) = true ∧ wClass w = 3) ∧
  (∃ (s : State) (c t : Nat) (w : Word) (l : Launch), ThreadReady s c t l ∧ (s.thread c t).guard w = false ∧
    l.inCode ((s.thread c t).pc.toNat + 4) = true ∧ (∃ (o : MemOp), wClass w = 4 ∧ o.log2 ≤ 3 ∧ o.sext = false)) ∧
  (∃ (s : State) (c t : Nat) (w : Word) (l : Launch), ThreadReady s c t l ∧ (s.thread c t).guard w = false ∧
    l.inCode ((s.thread c t).pc.toNat + 4) = true ∧ (∃ (o : MemOp), wClass w = 5 ∧ o.log2 ≤ 3 ∧ o.sext = false)) ∧
  (∃ (s : State) (c t : Nat) (w : Word) (l : Launch) (o : IntOp), ThreadReady s c t l ∧ wClass w = 0 ∧
    l.inCode ((s.thread c t).pc.toNat + 4) = false ∧ (s.thread c t).guard w = false) := by
  refine ⟨⟨testState, 0, 0, testV05_26, testLaunch, some .add, testThreadReady (by decide +kernel), ?_⟩,
      ⟨testState, 0, 0, testV05_27, testLaunch, testThreadReady (by decide +kernel), ?_⟩,
      ⟨testState, 0, 0, testV05_28, testLaunch, testThreadReady (by decide +kernel), ?_⟩,
      ⟨testState, 0, 0, testV05_29, testLaunch, testThreadReady (by decide +kernel), ?_, ?_, ?_⟩,
      ⟨testState, 0, 0, testV05_30, testLaunch, testThreadReady (by decide +kernel), ?_, ?_, ?_⟩,
      ⟨testState, 0, 0, testV05_31, testLaunch, testThreadReady (by decide +kernel), ?_, ?_, ⟨⟨3, false⟩, ?_, ?_, ?_⟩⟩,
      ⟨testState, 0, 0, testV05_32, testLaunch, testThreadReady (by decide +kernel), ?_, ?_, ⟨⟨0, false⟩, ?_, ?_, ?_⟩⟩,
      ⟨testS05_33, 0, 0, testV05_29, testLaunch, .add, testThreadReady (by decide +kernel), ?_, ?_, ?_⟩⟩ <;> decide +kernel

def testV05_34 : List Byte := List.replicate 64 5#8

theorem witness_DramKeepsWhatWasWritten :
  (∃ (s : State) (g : Nat) (bs : List Byte) (po : Bool), s.running = true ∧ s.isDram (64 * g) = true ∧ bs.length = 64 ∧ s.dram.wf = true ∧
    s.damage = [] ∧ s.fixups = [] ∧ s.suspectSpan (64 * g) 64 = false) ∧
  (∃ (s : State) (g : Nat) (bs : List Byte) (po : Bool), s.running = true ∧ s.isDram (64 * g) = true ∧ bs.length = 64 ∧ s.dram.wf = true ∧
    s.damage = [] ∧ s.fixups = [] ∧ s.suspectSpan (64 * g) 64 = false) := by
  refine ⟨⟨testS05_3, 1, testV05_34, true, ?_, ?_, ?_, ?_, ?_, ?_, ?_⟩, ⟨testS05_3, 1, testV05_34, false, ?_, ?_, ?_, ?_, ?_, ?_, ?_⟩⟩ <;> decide +kernel

theorem witness_AStoppedDataPathDoesNothing :
    ∃ (s : State) (c t q p : Nat), s.running = false ∧ c < 128 ∧ t < 16 ∧ q < 1024 ∧ p < 8 :=
  ⟨{ State.reset with power := { State.reset.power with path := .held } }, 127, 15, 1023, 7, rfl, by decide, by decide, by decide, by decide⟩

def testTlb (s : State) (k : Nat) : State := { s with tlbs := [(k, [0, 1].map (fun p => { context := 1, page := p, large := false, entry := mkPte (0x20000 + 0x10000 * p) 7 }))] }

def testV10_1 : Word := testWord 0 1 1 1 0
def testV10_2 : Word := testWord 0 31 1 1 0
def testV10_3 : Word := testWord 0 0 1 1 0
def testS10_4 : State := testWaits (.divide 31 5#64)
def testS10_5 : State := testWaits (.divide 0 5#64)
def testV10_6 : Word := testWord 2 7 1 0 0
def testV10_7 : Word := testWord 2 0 1 0 0
def testV10_8 : Word := testWord 2 7 7 7 0

theorem witness_ScalarResultsReachTheirRegister :
  (∃ (s : State) (c t : Nat) (w : Word) (l : Launch) (o : IntOp), Issues s c t w 0 4 l) ∧
  (∃ (s : State) (c t : Nat) (w : Word) (l : Launch) (o : IntOp), Issues s c t w 0 4 l) ∧
  (∃ (s : State) (c t : Nat) (w : Word) (l : Launch) (o : IntOp), Issues s c t w 0 4 l) ∧
  (∃ (s : State) (c t : Nat) (w : Word) (l : Launch) (o : IntOp), Issues s c t w 1 4 l) ∧
  (∃ (s : State) (c t rd : Nat) (v : DWord), OnThread s c t ∧ (s.thread c t).waits = .divide rd v) ∧
  (∃ (s : State) (c t rd : Nat) (v : DWord), OnThread s c t ∧ (s.thread c t).waits = .divide rd v) ∧
  (∃ (s : State) (c t : Nat) (w : Word) (l : Launch) (k : Cmp), Issues s c t w 2 4 l ∧ wRd w < 8) ∧
  (∃ (s : State) (c t : Nat) (w : Word) (l : Launch) (k : Cmp), Issues s c t w 2 4 l ∧ wRd w < 8) ∧
  (∃ (s : State) (c t : Nat) (w : Word) (l : Launch) (tt : BitVec 4), Issues s c t w 2 4 l ∧ wRd w < 8 ∧ wRs1 w < 8 ∧ wRs2 w < 8) := by
  refine ⟨⟨testState, 0, 0, testV10_1, testLaunch, .add, testIssue (by decide +kernel)⟩,
      ⟨testState, 0, 0, testV10_2, testLaunch, .div, testIssue (by decide +kernel)⟩,
      ⟨testState, 0, 0, testV10_3, testLaunch, .add, testIssue (by decide +kernel)⟩,
      ⟨testState, 0, 0, 0x10080005#32, testLaunch, .add, testIssue (by decide +kernel)⟩,
      ⟨testS10_4, 0, 0, 31, 5#64, (by constructor <;> decide +kernel), ?_⟩, ⟨testS10_5, 0, 0, 0, 5#64, (by constructor <;> decide +kernel), ?_⟩,
      ⟨testState, 0, 0, testV10_6, testLaunch, .lt, testIssue (by decide +kernel), ?_⟩,
      ⟨testState, 0, 0, testV10_7, testLaunch, .lt, testIssue (by decide +kernel), ?_⟩,
      ⟨testState, 0, 0, testV10_8, testLaunch, 6#4, testIssue (by decide +kernel), ?_, ?_, ?_⟩⟩ <;> decide +kernel

def testS10_9 : State := testRegs [(1, 60#64)]
def testV10_10 : Word := testWord 0xA 0 1 0 0
def testV10_11 : Word := testWord 0xA 1 1 0 1
def testV10_12 : Word := testWord 9 31 0 0 3
def testV10_13 : Word := testWord 9 31 0 0 6

theorem witness_ControlTransfersMoveThePc :
  (∃ (s : State) (c t : Nat) (w : Word) (l : Launch), Issues s c t w 3 4 l ∧ 0 ≤ branchTarget (s.thread c t).pc w ∧
    l.inCode (branchTarget (s.thread c t).pc w).toNat = true) ∧
  (∃ (s : State) (c t : Nat) (w : Word) (l : Launch), Issues s c t w 0xA 4 l ∧ wRs2 w = 0 ∧ wRd w = 0 ∧ ((s.thread c t).reg (wRs1 w)).toNat % 4 = 0 ∧
    l.inCode ((s.thread c t).reg (wRs1 w)).toNat = true) ∧
  (∃ (s : State) (c t : Nat) (w : Word) (l : Launch), Issues s c t w 0xA 4 l ∧ wRs2 w = 0 ∧ ((s.thread c t).reg (wRs1 w)).toNat % 4 = 0 ∧
    l.inCode ((s.thread c t).reg (wRs1 w)).toNat = true) ∧
  (∃ (s : State) (c t : Nat) (w : Word) (l : Launch) (v : DWord), Issues s c t w 9 4 l ∧ wRs1 w = 0 ∧ wRs2 w = 0 ∧
    s.systemValue c t (wOpR w) l = some v ∧ wOpR w ≠ 6) ∧
  (∃ (s : State) (c t : Nat) (w : Word) (l : Launch), Issues s c t w 9 4 l ∧ wRs1 w = 0 ∧ wRs2 w = 0 ∧ wOpR w = 6 ∧ (∃ (k : Nat), k ≠ t)) := by
  refine ⟨⟨testState, 0, 0, 0x30000003#32, testLaunch, testIssue (by decide +kernel), ?_, ?_⟩,
      ⟨testS10_9, 0, 0, testV10_10, testLaunch, testIssue (by decide +kernel), ?_, ?_, ?_, ?_⟩,
      ⟨testS10_9, 0, 0, testV10_11, testLaunch, testIssue (by decide +kernel), ?_, ?_, ?_⟩,
      ⟨testState, 0, 0, testV10_12, testLaunch, 7#64, testIssue (by decide +kernel), ?_, ?_, ?_, ?_⟩,
      ⟨testState, 0, 0, testV10_13, testLaunch, testIssue (by decide +kernel), ?_, ?_, ?_, ⟨1, ?_⟩⟩⟩ <;> decide +kernel

def testS10_14 : State := testRegs [(1, 0x2FFFF8#64)]
def testV10_15 : Word := testWord 4 2 1 0 0
def testS10_16 : State := testWaits (.spLoad 31 0x2FFFFF 1 true)
def testS10_17 : State := testCell0 (testWaits (.spLoad 31 0x2FFFF8 4 true)) (fun x => x.setThread 0 { x.thread 0 with spStores := [(0x2FFFF8, [1#8, 2#8, 3#8, 0x84#8])] })
def testV10_18 : List Byte := [1#8, 2#8, 3#8, 0x84#8]
def testS10_19 : State := testCell0 (testRegs [(1, 0x2FFFF8#64)]) (fun x => { x with calendar := testCalendar })
def testV10_20 : Word := testWord 4 1 1 0 0
def testS10_21 : State := testCell0 (testRegs [(1, 0x2FFFF8#64)]) (fun x => { (x.setThread 0 { x.thread 0 with spStores := [(0, [1#8]), (1, [1#8]), (2, [1#8]), (3, [1#8])] }) with calendar := testCalendar })

theorem witness_ScratchpadLoadsAndStores :
  (∃ (s : State) (c t : Nat) (w : Word) (l : Launch) (o : MemOp), Issues s c t w 4 4 l ∧ o.log2 ≤ 3 ∧
    (s.cell c).spFault .scalarRd (memAddr ((s.thread c t).reg (wRs1 w)) w o.log2) (2 ^ o.log2) = none) ∧
  (∃ (s : State) (c t rd off n : Nat) (sx : Bool), OnThread s c t ∧ (s.thread c t).waits = .spLoad rd off n sx ∧ (s.thread c t).spStores = [] ∧
    (s.cell c).spPoison off n = false) ∧
  (∃ (s : State) (c t rd off a : Nat) (bs : List Byte) (sx : Bool), OnThread s c t ∧ (s.thread c t).waits = .spLoad rd off bs.length sx ∧
    (s.thread c t).spStores = [(a, bs)] ∧ (s.cell c).scratch.wf = true ∧ ((s.cell c).landSp t).spPoison off bs.length = false) ∧
  (∃ (s : State) (c t : Nat) (w : Word) (l : Launch) (o : MemOp), Issues s c t w 4 4 l ∧ o.log2 ≤ 3 ∧ o.sext = false ∧
    (s.cell c).spFault .scalarWr (memAddr ((s.thread c t).reg (wRs1 w)) w o.log2) (2 ^ o.log2) = none ∧ (let h := s.thread c t
    let h := s.thread c t
    h.spStores.length < 4)) ∧
  (∃ (s : State) (c t : Nat) (w : Word) (l : Launch) (o : MemOp), Issues s c t w 4 4 l ∧ o.log2 ≤ 3 ∧ o.sext = false ∧
    (s.cell c).spFault .scalarWr (memAddr ((s.thread c t).reg (wRs1 w)) w o.log2) (2 ^ o.log2) = none ∧ (let h := s.thread c t
    let h := s.thread c t
    4 ≤ h.spStores.length)) := by
  refine ⟨⟨testS10_14, 0, 0, testV10_15, testLaunch, ⟨3, false⟩, testIssue (by decide +kernel), ?_, ?_⟩,
      ⟨testS10_16, 0, 0, 31, 0x2FFFFF, 1, true, (by constructor <;> decide +kernel), ?_, ?_, ?_⟩,
      ⟨testS10_17, 0, 0, 31, 0x2FFFF8, 0x2FFFF8, testV10_18, true, (by constructor <;> decide +kernel), ?_, ?_, ?_, ?_⟩,
      ⟨testS10_19, 0, 0, testV10_20, testLaunch, ⟨3, false⟩, testIssue (by decide +kernel), ?_, ?_, ?_, ?_⟩,
      ⟨testS10_21, 0, 0, testV10_20, testLaunch, ⟨3, false⟩, testIssue (by decide +kernel), ?_, ?_, ?_, ?_⟩⟩ <;> decide +kernel

def testS10_22 : State := testTlb (testRegs [(1, 0xFFF8#64)]) 0
def testV10_23 : Word := testWord 5 2 1 0 0
def testS10_24 : State := testRegs [(1, 0xFFFFFFFFFFF8#64)]
def testS10_25 : State := testWaits (.vaLoad 31 0xFFF8 8 false (some 0x2FFF8))
def testV10_26 : Word := testWord 5 1 1 0 0
def testV10_27 : Word := testWord 9 0 0 0 7
def testS10_28 : State := testWaits .fence
def testS10_29 : State := testCell0 (testWaits .fence) (fun x => x.setThread 0 { x.thread 0 with stores := [⟨0xFFF8, [1#8, 2#8], some 0x2FFF8, none⟩] })
def testV10_30 : PostedStore := ⟨0xFFF8, [1#8, 2#8], some 0x2FFF8, none⟩
def testS10_31 : State := testTlb (testWaits (.fetch 0x10000)) 0

theorem witness_VirtualLoadsAndStores :
  (∃ (s : State) (c t pa : Nat) (w : Word) (l : Launch) (o : MemOp), Issues s c t w 5 4 l ∧ o.log2 ≤ 3 ∧ (let h := s.thread c t
    let va := memAddr (h.reg (wRs1 w)) w o.log2
    va % 2 ^ o.log2 = 0 ∧ s.xlate (tlbCell c) l.context va .read = .hit pa ∧ isWindow pa = false)) ∧
  (∃ (s : State) (c t : Nat) (w : Word) (l : Launch) (o : MemOp), Issues s c t w 5 4 l ∧ o.log2 ≤ 3 ∧ (let h := s.thread c t
    let va := memAddr (h.reg (wRs1 w)) w o.log2
    va % 2 ^ o.log2 = 0 ∧ s.xlate (tlbCell c) l.context va .read = .walk)) ∧
  (∃ (s : State) (c t rd va n pa : Nat) (sx : Bool), OnThread s c t ∧ (s.thread c t).waits = .vaLoad rd va n sx (some pa) ∧ isWindow pa = false ∧
    s.stackOpen pa = true ∧ (s.thread c t).stores = [] ∧ (s.memRead pa n).2.1 = false) ∧
  (∃ (s : State) (c t pa : Nat) (w : Word) (l : Launch) (o : MemOp), Issues s c t w 5 4 l ∧ o.log2 ≤ 3 ∧ o.sext = false ∧ (let h := s.thread c t
    let va := memAddr (h.reg (wRs1 w)) w o.log2
    va % 2 ^ o.log2 = 0 ∧ h.stores.length < 8 ∧ s.xlate (tlbCell c) l.context va .write = .hit pa ∧ isWindow pa = false)) ∧
  (∃ (s : State) (c t : Nat) (w : Word) (l : Launch), Issues s c t w 9 4 l ∧ wRd w = 0 ∧ wRs1 w = 0 ∧ wRs2 w = 0) ∧
  (∃ (s : State) (c t : Nat), OnThread s c t ∧ (s.thread c t).waits = .fence ∧ (s.thread c t).stores = []) ∧
  (∃ (s : State) (c t pa : Nat) (v : PostedStore), OnThread s c t ∧ (s.thread c t).waits = .fence ∧ (s.thread c t).stores = [v] ∧ v.pa = some pa ∧
    s.stackOpen pa = true ∧ s.dram.wf = true ∧ s.damage = [] ∧ s.fixups = [] ∧ (∀ g ∈ partGranules pa v.bytes.length, s.dram.hasPoison g = false)) ∧
  (∃ (s : State) (c k off id : Nat) (l : Launch), OnCell s c ∧ s.activeLaunch c = some (id, l) ∧ l.inCode (off / 64 * 64) = true ∧
    (s.thread c k).status = .running) ∧
  (∃ (s : State) (c k off pa id : Nat) (l : Launch), OnCell s c ∧ s.activeLaunch c = some (id, l) ∧ l.inCode (off / 64 * 64) = true ∧
    (s.thread c k).status ≠ .running ∧ (s.thread c k).waits = .fetch (l.imageBase + off / 64 * 64) ∧
    s.xlate (tlbCell c) l.context (l.imageBase + off / 64 * 64) .fetch = .hit pa ∧ s.populated pa = true ∧ s.stackOpen pa = true ∧
    (s.memRead pa 64).2.1 = false) := by
  refine ⟨⟨testS10_22, 0, 0, 0x2FFF8, testV10_23, testLaunch, ⟨3, false⟩, testIssue (by decide +kernel), ?_, ?_, ?_, ?_⟩,
      ⟨testS10_24, 0, 0, testV10_23, testLaunch, ⟨3, false⟩, testIssue (by decide +kernel), ?_, ?_, ?_⟩,
      ⟨testS10_25, 0, 0, 31, 0xFFF8, 8, 0x2FFF8, false, (by constructor <;> decide +kernel), ?_, ?_, ?_, ?_, ?_⟩,
      ⟨testS10_22, 0, 0, 0x2FFF8, testV10_26, testLaunch, ⟨3, false⟩, testIssue (by decide +kernel), ?_, ?_, ?_, ?_, ?_, ?_⟩,
      ⟨testState, 0, 0, testV10_27, testLaunch, testIssue (by decide +kernel), ?_, ?_, ?_⟩, ⟨testS10_28, 0, 0, (by constructor <;> decide +kernel),
      ?_, ?_⟩, ⟨testS10_29, 0, 0, 0x2FFF8, testV10_30, (by constructor <;> decide +kernel), ?_, ?_, ?_, ?_, ?_, ?_, ?_, ?_⟩,
      ⟨testState, 0, 0, 60, 1, testLaunch, (by constructor <;> decide +kernel), ?_, ?_, ?_⟩,
      ⟨testS10_31, 0, 0, 63, 0x30000, 1, testLaunch, (by constructor <;> decide +kernel), ?_, ?_, ?_, ?_, ?_, ?_, ?_, ?_⟩⟩ <;> decide +kernel

def testEngine (rs : List (Nat × DWord)) : State := testCell0 (testRegs rs) (fun x => { x with calendar := testCalendar })
/-- Word 0 of a command for engine `e` with operands s1 and s2. -/
def testEng (e : Nat) : Word := BitVec.ofNat 32 (8 * 2 ^ 28 + e * 2 ^ 20 + 1 * 2 ^ 15 + 2 * 2 ^ 10)

def testS11_1 : State := testRegs [(1, 63#64), (2, 65535#64)]
def testV11_2 : Word := testWord 6 0 1 2 0
def testS11_3 : State := testCell0 (testRegs [(1, 63#64), (2, 65535#64)]) (fun x => { x with sems := [(63, 65535#16)] })
def testV11_4 : Word := testWord 6 0 1 2 1
def testV11_5 : Word := testWord 6 7 1 2 2
def testS11_6 : State := testCell0 (testRegs [(1, 63#64)]) (fun x => { x with sems := [(63, 65535#16)] })
def testV11_7 : Word := testWord 6 31 1 0 3

theorem witness_SemaphoreOperations :
  (∃ (s : State) (c t i n : Nat) (w : Word) (l : Launch), Issues s c t w 6 4 l ∧ wRd w = 0 ∧ ((s.thread c t).reg (wRs1 w)).toNat = i ∧ i ≤ 63 ∧
    ((s.thread c t).reg (wRs2 w)).toNat = n ∧ 1 ≤ n ∧ ((s.cell c).sem i).toNat + n ≤ 65535 ∧ (s.cell c).semWaiters i = []) ∧
  (∃ (s : State) (c t i n : Nat) (w : Word) (l : Launch), Issues s c t w 6 4 l ∧ wRd w = 0 ∧ ((s.thread c t).reg (wRs1 w)).toNat = i ∧ i ≤ 63 ∧
    ((s.thread c t).reg (wRs2 w)).toNat = n ∧ 1 ≤ n ∧ n ≤ ((s.cell c).sem i).toNat ∧ (s.cell c).semWaiters i = [] ∧ (s.thread c t).waits = .nothing) ∧
  (∃ (s : State) (c t i n : Nat) (w : Word) (l : Launch), Issues s c t w 6 4 l ∧ wRd w = 0 ∧ ((s.thread c t).reg (wRs1 w)).toNat = i ∧ i ≤ 63 ∧
    ((s.thread c t).reg (wRs2 w)).toNat = n ∧ 1 ≤ n ∧ n ≤ 65535 ∧ (((s.cell c).sem i).toNat < n ∨ (s.cell c).semWaiters i ≠ [])) ∧
  (∃ (s : State) (c t i n : Nat) (w : Word) (l : Launch), Issues s c t w 6 4 l ∧ wRd w < 8 ∧ ((s.thread c t).reg (wRs1 w)).toNat = i ∧ i ≤ 63 ∧
    ((s.thread c t).reg (wRs2 w)).toNat = n ∧ n ≤ 65535) ∧
  (∃ (s : State) (c t i : Nat) (w : Word) (l : Launch), Issues s c t w 6 4 l ∧ wRs2 w = 0 ∧ ((s.thread c t).reg (wRs1 w)).toNat = i ∧ i ≤ 63) := by
  refine ⟨⟨testS11_1, 0, 0, 63, 65535, testV11_2, testLaunch, testIssue (by decide +kernel), ?_, ?_, ?_, ?_, ?_, ?_, ?_⟩,
      ⟨testS11_3, 0, 0, 63, 65535, testV11_4, testLaunch, testIssue (by decide +kernel), ?_, ?_, ?_, ?_, ?_, ?_, ?_, ?_⟩,
      ⟨testS11_1, 0, 0, 63, 65535, testV11_4, testLaunch, testIssue (by decide +kernel), ?_, ?_, ?_, ?_, ?_, ?_, ?_⟩,
      ⟨testS11_3, 0, 0, 63, 65535, testV11_5, testLaunch, testIssue (by decide +kernel), ?_, ?_, ?_, ?_, ?_⟩,
      ⟨testS11_6, 0, 0, 63, testV11_7, testLaunch, testIssue (by decide +kernel), ?_, ?_, ?_⟩⟩ <;> decide +kernel

def testS11_8 : State := testRegs [(1, 15#64), (2, 60#64)]
def testV11_9 : Word := testWord 7 0 1 2 0
def testS11_10 : State := testCell0 testState (fun x => { x with threads := x.threads ++ [(1, { Thread.idle with status := .running })] })
def testV11_11 : Word := testWord 7 0 0 0 1

theorem witness_ThreadsStartAndEnd :
  (∃ (s : State) (c t n off : Nat) (w : Word) (l : Launch), Issues s c t w 7 4 l ∧ wRd w = 0 ∧ ((s.thread c t).reg (wRs1 w)).toNat = n ∧ n ≤ 15 ∧
    ((s.thread c t).reg (wRs2 w)).toNat = off ∧ (s.thread c n).status = .idle ∧ off % 4 = 0 ∧ l.inCode off = true) ∧
  (∃ (s : State) (c t k : Nat) (w : Word) (l : Launch), Issues s c t w 7 4 l ∧ wRd w = 0 ∧ wRs1 w = 0 ∧ wRs2 w = 0 ∧ k ≠ t ∧
    (∃ h, (k, h) ∈ (s.cell c).threads ∧ h.status = .running ∧ h.waits = .nothing)) := by
  refine ⟨⟨testS11_8, 0, 0, 15, 60, testV11_9, testLaunch, testIssue (by decide +kernel), ?_, ?_, ?_, ?_, ?_, ?_, ?_⟩,
      ⟨testS11_10, 0, 0, 1, testV11_11, testLaunch, testIssue (by decide +kernel), ?_, ?_, ?_, ?_, testThreadIs (by decide +kernel)⟩⟩ <;> decide +kernel

def testS11_12 : State := testEngine [(1, 0x2FFF80#64), (2, 65535#64)]
def testS11_13 : State := testEngine [(1, 0#64), (2, 16777216#64)]
def testS11_14 : State := testEngine [(1, 0#64)]
def testV11_15 : Word := BitVec.ofNat 32 (8 * 2 ^ 28 + 2 * 2 ^ 20 + 1 * 2 ^ 15)
def testS11_16 : State := testEngine [(1, 0#64), (2, 65536#64)]
def testS11_17 : State := testEngine [(1, 0#64), (2, 1048576#64)]

theorem witness_EngineCommandsJoinTheirQueue :
  (∃ (s : State) (c t : Nat) (w w1 : Word) (l : Launch), Issues s c t w 8 8 l ∧ eEngine w = 0 ∧ eLegal w w1 = true ∧ eWaitEn w = false ∧
    (let x := s.cell c
    let k := engineCmd x (s.thread c t) t w w1
    aImmLegal k.imm = true ∧ aLoadOnly k.imm = false ∧ (aEw k.imm && (aEwOp k.imm == 3 || aWload k.imm)) = false ∧ k.opA.toNat % 64 = 0 ∧
    k.opA.toNat + 128 ≤ scratchBytes ∧ 1 ≤ k.opB.toNat ∧ k.opB.toNat ≤ 65535 ∧ calHasRole x.calendar .arrayWt = true ∧
    calHasRole x.calendar .arrayAct = true ∧ calHasRole x.calendar .arrayOut = true ∧ (x.equeue 0).length < 8)) ∧
  (∃ (s : State) (c t : Nat) (w w1 : Word) (l : Launch), Issues s c t w 8 8 l ∧ eEngine w = 1 ∧ eLegal w w1 = true ∧ eWaitEn w = false ∧
    (let x := s.cell c
    let k := engineCmd x (s.thread c t) t w w1
    1 ≤ k.opB.toNat ∧ k.opB.toNat ≤ 16777216 ∧ calHasRole x.calendar .vecRd = true ∧ (x.equeue 1).length < 8)) ∧
  (∃ (s : State) (c t : Nat) (w w1 : Word) (l : Launch), Issues s c t w 8 8 l ∧ eEngine w = 2 ∧ eLegal w w1 = true ∧ eWaitEn w = false ∧
    (let x := s.cell c
    eImm w1 = 0#24 ∧ eSb w = 0 ∧ calHasRole x.calendar .egress = true ∧ (x.equeue 2).length < 16)) ∧
  (∃ (s : State) (c t : Nat) (w w1 : Word) (l : Launch), Issues s c t w 8 8 l ∧ eEngine w = 3 ∧ eLegal w w1 = true ∧ eWaitEn w = false ∧
    (let x := s.cell c
    let k := engineCmd x (s.thread c t) t w w1
    1 ≤ field k.opB.toNat 31 0 ∧ field k.opB.toNat 31 0 ≤ 65536 ∧ calHasRole x.calendar .ingress = true ∧ (x.equeue 3).length < 32)) ∧
  (∃ (s : State) (c t : Nat) (w w1 : Word) (l : Launch), Issues s c t w 8 8 l ∧ eEngine w = 4 ∧ eLegal w w1 = true ∧ eWaitEn w = false ∧
    (let x := s.cell c
    let k := engineCmd x (s.thread c t) t w w1
    eImm w1 = 0#24 ∧ 1 ≤ k.opB.toNat ∧ k.opB.toNat ≤ 1048576 ∧ calHasRole x.calendar .auxRd = true ∧ calHasRole x.calendar .auxWr = true ∧
    (x.equeue 4).length < 2)) := by
  refine ⟨⟨testS11_12, 0, 0, testEng 0, 0#32, testLaunch, testIssue (by decide +kernel), ?_, ?_, ?_, ?_, ?_, ?_, ?_, ?_, ?_, ?_, ?_, ?_, ?_, ?_⟩,
      ⟨testS11_13, 0, 0, testEng 1, 0#32, testLaunch, testIssue (by decide +kernel), ?_, ?_, ?_, ?_, ?_, ?_, ?_⟩,
      ⟨testS11_14, 0, 0, testV11_15, 0#32, testLaunch, testIssue (by decide +kernel), ?_, ?_, ?_, ?_, ?_, ?_, ?_⟩,
      ⟨testS11_16, 0, 0, testEng 3, 0#32, testLaunch, testIssue (by decide +kernel), ?_, ?_, ?_, ?_, ?_, ?_, ?_⟩,
      ⟨testS11_17, 0, 0, testEng 4, 0#32, testLaunch, testIssue (by decide +kernel), ?_, ?_, ?_, ?_, ?_, ?_, ?_, ?_, ?_⟩⟩ <;> decide +kernel

def testV11_18 : Word := testWord 9 0 1 0 0
def testV11_19 : Word := testWord 9 7 1 1 1
def testS11_20 : State := testCell0 (testWaits (.layer 0 0x2FFFC0)) (fun x => { x with layer := .draining 0, scratch := x.scratch.write 0x2FFFC0 (bootCalendar.flatMap (fun e => bytesLE 4 e.toNat)) })
def testS11_21 : State := { testCell0 (testWaits (.layerW 0 0 0x1000 7)) (fun x => { x with layer := .voting 0, scratch := x.scratch.write 0x1000 (bootCalendar.flatMap (fun e => bytesLE 4 e.toNat)) }) with launches := [(1, { testLaunch with votes := [0], tripped := true })] }
def testL11_22 : Launch := { testLaunch with votes := [0], tripped := true }
def testS11_23 : State := { testCell0 testState (fun x => { x with queues := [(4, [engineCmd x Thread.idle 0 0#32 0#32])] }) with launches := [(1, { testLaunch with phase := .ended, status := some 0 })] }

theorem witness_LayerBoundaries :
  (∃ (s : State) (c t : Nat) (w : Word) (l : Launch), Issues s c t w 9 4 l ∧ wRd w = 0 ∧ wRs2 w = 0) ∧
  (∃ (s : State) (c t : Nat) (w : Word) (l : Launch), Issues s c t w 9 4 l ∧ wRd w < 8) ∧
  (∃ (s : State) (c t site off : Nat), OnCell s c ∧ (s.cell c).layer = .draining t ∧ s.cellActive c = true ∧ (s.cell c).drained = true ∧
    ((s.cell c).thread t).waits = .layer site off ∧ (s.cell c).quant.trip = false ∧ off + 64 ≤ scratchBytes ∧ (s.cell c).spPoison off 64 = false ∧
    calValid (calOfBytes ((s.cell c).scratch.read off 64)) = true ∧ (s.cell c).mark = .none ∧ (∀ k, (s.thread c k).spStores = [])) ∧
  (∃ (s : State) (l : Nat) (x : Launch), s.running = true ∧ s.launch? l = some x ∧ x.cells ≠ [] ∧ x.cells.Nodup ∧
    (∀ r, r < x.cells.length → r ∈ x.votes) ∧ (∀ c ∈ x.cells, ∃ t off p, VoteReady s x.tripped c t off p)) ∧
  (∃ (s : State) (c e rows : Nat), OnCell s c ∧ e ≤ 4 ∧ s.cellEnded c = true) := by
  refine ⟨⟨testState, 0, 0, testV11_18, testLaunch, testIssue (by decide +kernel), ?_, ?_⟩,
      ⟨testState, 0, 0, testV11_19, testLaunch, testIssue (by decide +kernel), ?_⟩,
      ⟨testS11_20, 0, 0, 0, 0x2FFFC0, (by constructor <;> decide +kernel), ?_, ?_, ?_, ?_, ?_, ?_, ?_, ?_, ?_, testNoStores (by decide +kernel)⟩,
      ⟨testS11_21, 1, testL11_22, ?_, ?_, ?_, ?_,
      ?_, (by intro c m; rw [List.mem_singleton.mp m]; exact ⟨0, 0x1000, 7, testVoteReady 0 0 (by decide +kernel)⟩)⟩,
      ⟨testS11_23, 0, 4, 0, (by constructor <;> decide +kernel), ?_, ?_⟩⟩ <;> decide +kernel

def testCmd (e : Nat) (imm : BitVec 24) (a b : Nat) : EngineCmd :=
  { engine := e, opA := BitVec.ofNat 64 a, opB := BitVec.ofNat 64 b, imm := imm, semDone := 0, doneEn := false, waitEn := false, semWait := 0,
    serial := false, thread := 0, pc := 0#32, seq := 0, granted := true }
/-- Cell 0 works, its scratchpad zero but for `bs` at 0x100 and every role granted. -/
def testEngineCell (bs : List Byte) (f : Cell → Cell) : State :=
  testCell0 testState (fun x => f { x with calendar := testCalendar, scratch := x.scratch.write 0x100 bs })
/-- `n` bytes, zero but for the fields given by offset, size and value. -/
def testBlock (n : Nat) (fs : List (Nat × Nat × Nat)) : List Byte :=
  fs.foldl (fun b f => b.take f.1 ++ bytesLE f.2.1 f.2.2 ++ b.drop (f.1 + f.2.1)) (List.replicate n 0#8)
def testPassBlock : List Byte := testBlock 128 [(0, 4, 0x1000), (4, 4, 0x100), (8, 4, 0x2000), (12, 4, 0x200), (0x10, 4, 0x4000)]
def testArray : State := testEngineCell testPassBlock (fun x => { x with queues := [(0, [testCmd 0 0#24 0x100 1])], array := { x.array with wregs := [(0, ⟨[], some 0, false, false⟩)] } })
def testPassOf (s : State) (k : EngineCmd) : ArrayPass := match (s.cell 0).passGate k (s.cell 0).tbFreeForArray with
  | .go p => p
  | _ => ⟨k, [], [], [], [], [], [], [], false, false, false, false, [], 0, (false, false), []⟩
def testPass : ArrayPass := testPassOf testArray (testCmd 0 0#24 0x100 1)
def testVecBlock : List Byte := testBlock 128 [(0x14, 4, 0xFFFFFFFF), (0x03, 1, 1), (0x20, 4, 0x1000)]
def testVec (f : VecState → VecState) : State := testEngineCell testVecBlock (fun x => { x with vec := f { VecState.idle with cmd := some (testCmd 1 0#24 0x100 100), block := testVecBlock } })
def testSampBlock : List Byte := testBlock 64 [(0, 1, 0), (2, 1, 1), (4, 2, 1), (0x10, 4, 0x1000), (0x18, 4, 0x2000), (0x1C, 4, 0x3000), (8, 4, 0x3F800000), (12, 4, 0x3F800000)]
/-- A segment that goes on from its state area and is the last. -/
def testSampRest : List Byte := testBlock 64 [(0, 1, 0), (2, 1, 2), (4, 2, 1), (0x10, 4, 0x1000), (0x18, 4, 0x2000), (0x1C, 4, 0x3000), (8, 4, 0x3F800000), (12, 4, 0x3F800000)]
def testSampState : List Byte := testBlock 24 [(0, 4, 1), (8, 4, 5), (12, 2, 1), (14, 2, 0x5A4D), (16, 4, 3), (20, 4, 0x3F800000)]

def testV12_1 : EngineCmd := testCmd 0 0#24 0x100 1
def testS12_2 : State := testEngineCell testPassBlock (fun x => { x with array := { x.array with passes := [testPass] } })
def testS12_3 : State := testEngineCell (testBlock 128 [(0x10, 4, 0x1000)]) (fun x => { x with queues := [(0, [testCmd 0 0x80000#24 0x100 1])] })
def testV12_4 : EngineCmd := testCmd 0 0x80000#24 0x100 1
def testV12_5 : List Byte := testBlock 64 [(0x10, 4, 0x1000)]
def testS12_6 : State := testEngineCell [] (fun x => { x with array := { x.array with loader := [⟨1, 0x1000, 0, none, none⟩] } })
def testV12_7 : LoadReq := ⟨1, 0x1000, 0, none, none⟩
def testS12_8 : State := testEngineCell [] (fun x => { x with array := { x.array with loader := [⟨1, 0x1000, 0, some (testCmd 0 0x80000#24 0x100 1), none⟩] } })
def testV12_9 : LoadReq := ⟨1, 0x1000, 0, some (testCmd 0 0x80000#24 0x100 1), none⟩
def testS12_10 : State := testCell0 testState (fun x => { x with array := { x.array with actCols := 96 } })

theorem witness_MatrixArrayPasses :
  (∃ (s : State) (c : Nat) (sampled : Bool) (k : EngineCmd) (p : ArrayPass), CellWorks s c ∧ (s.cell c).head 0 = some k ∧ aLoadOnly k.imm = false ∧
    (s.cell c).mayStart k = true ∧ (s.cell c).passGate k (s.cell c).tbFreeForArray = .go p) ∧
  (∃ (s : State) (c : Nat) (p : ArrayPass), CellWorks s c ∧ ThreadRuns s c ∧ (s.cell c).array.passes.find? (fun q => !q.written) = some p ∧
    p.cmd.doneEn = false) ∧
  (∃ (s : State) (c : Nat) (k : EngineCmd) (b : List Byte), CellWorks s c ∧ (s.cell c).head 0 = some k ∧ aLoadOnly k.imm = true ∧
    (s.cell c).mayStart k = true ∧ (s.cell c).ctl .arrayWt k.opA.toNat 64 = .ok b ∧ (s.cell c).spPoison k.opA.toNat 64 = false ∧
    operandFmt (pbWtFmt b) = true ∧ pbWtOff b % 256 = 0 ∧ pbWtOff b + tileBytes (pbWtFmt b) ≤ scratchBytes ∧
    calReaches (s.cell c).calendar .arrayWt (pbWtOff b) (tileBytes (pbWtFmt b)) = true) ∧
  (∃ (s : State) (c : Nat) (l : LoadReq) (rest : List LoadReq), CellWorks s c ∧ (s.cell c).array.loader = l :: rest ∧ l.only = none ∧ l.pass = none) ∧
  (∃ (s : State) (c : Nat) (l : LoadReq) (k : EngineCmd) (rest : List LoadReq), CellWorks s c ∧ ThreadRuns s c ∧ (s.cell c).array.loader = l :: rest ∧
    l.only = some k ∧ k.doneEn = false) ∧
  (∃ (s : State) (c cols : Nat), OnCell s c ∧ (s.cell c).arrayRampIdle = true ∧ cols < (s.cell c).array.actCols) := by
  refine ⟨⟨testArray, 0, true, testV12_1, testPass, (by constructor <;> decide +kernel), ?_, ?_, ?_, ?_⟩,
      ⟨testS12_2, 0, testPass, (by constructor <;> decide +kernel), testThreadRuns (by decide +kernel), ?_, ?_⟩,
      ⟨testS12_3, 0, testV12_4, testV12_5, (by constructor <;> decide +kernel), ?_, ?_, ?_, testExceptOk (by decide +kernel), ?_, ?_, ?_, ?_, ?_⟩,
      ⟨testS12_6, 0, testV12_7, [], (by constructor <;> decide +kernel), ?_, ?_, ?_⟩,
      ⟨testS12_8, 0, testV12_9, testV12_4, [], (by constructor <;> decide +kernel), testThreadRuns (by decide +kernel), ?_, ?_, ?_⟩,
      ⟨testS12_10, 0, 95, (by constructor <;> decide +kernel), ?_, ?_⟩⟩ <;> decide +kernel

def testS12_11 : State := testEngineCell testVecBlock (fun x => { x with queues := [(1, [testCmd 1 0#24 0x100 100])] })
def testV12_12 : EngineCmd := testCmd 1 0#24 0x100 100
def testS12_13 : State := testVec id
def testV12_14 : Word := testWord 0 31 1 2 0
def testV12_15 : Word := testWord 1 31 1 2 0
def testV12_16 : Word := testWord 2 6 1 2 0
def testV12_17 : Word := testWord 3 31 0 0 0
def testV12_18 : Word := testWord 4 31 0 1 0
def testV12_19 : Word := testWord 5 31 0 0 0
def testV12_20 : Word := testWord 6 31 1 2 0
def testV12_21 : Word := testWord 7 31 0 0 0
def testV12_22 : Word := testWord 8 0 0 0 0
def testS12_23 : State := testVec (fun v => { v with strip := 1 })
def testS12_24 : State := testVec (fun v => { v with part := [(0, [(0x1000, 5#8, false, false)])] })
def testV12_25 : Word := testWord 9 0 0 0 0
def testS12_26 : State := testVec (fun v => { v with ended := true })

theorem witness_VectorInstructions :
  (∃ (s : State) (c : Nat) (k : EngineCmd), CellWorks s c ∧ (s.cell c).head 1 = some k ∧ (s.cell c).vec.cmd = none ∧ (s.cell c).mayStart k = true ∧
    k.opA.toNat % 128 = 0 ∧ k.opA.toNat + 128 ≤ scratchBytes ∧ calReaches (s.cell c).calendar .vecRd k.opA.toNat 128 = true ∧
    (s.cell c).spPoison k.opA.toNat 128 = false ∧ (let b := (s.cell c).scratch.read k.opA.toNat 128
    vecRsvOk b = true ∧ vecBlockOk b = true ∧ (∀ t, t < 4 → bitAt (vbTbUse b) t = true → (s.cell c).tbFreeForVector t = true))) ∧
  (∃ (s : State) (c : Nat) (w : Word) (o : FloatOp) (f : FloatFmt), VecIssues s c w 0 ∧ (floatUsesB o = true ∨ vwVb w = 0)) ∧
  (∃ (s : State) (c : Nat) (w : Word) (o : VIntOp) (f : IntFmt), VecIssues s c w 1 ∧ (vintUsesB o = true ∨ vwVb w = 0)) ∧
  (∃ (s : State) (c : Nat) (w : Word) (k : VCmp) (f : IntFmt), VecIssues s c w 2 ∧ vwVd w < 7) ∧
  (∃ (s : State) (c : Nat) (w : Word) (k : ElemWidth), VecIssues s c w 3 ∧ vwVa w < 8 ∧ (s.cell c).lineFault (vwVa w) (256 * vwVb w) false = none) ∧
  (∃ (s : State) (c : Nat) (w : Word), VecIssues s c w 4 ∧ vwVa w < 4 ∧ bitAt (vbTbUse (s.cell c).vec.block) (vwVa w) = true) ∧
  (∃ (s : State) (c : Nat) (w : Word) (o : ConvertOp), VecIssues s c w 5 ∧ convertOk o = true ∧ (convertUsesB o = true ∨ vwVb w = 0)) ∧
  (∃ (s : State) (c : Nat) (w : Word) (k : ElemWidth), VecIssues s c w 6) ∧
  (∃ (s : State) (c : Nat) (w : Word), VecIssues s c w 7 ∧ vwVa w = 0 ∧ vwVb w = 0) ∧
  (∃ (s : State) (c : Nat) (w : Word), VecIssues s c w 8 ∧ field w.toNat 27 24 = 0 ∧ (s.cell c).vec.strip + 1 < (s.cell c).vec.strips) ∧
  (∃ (s : State) (c : Nat) (w : Word), VecIssues s c w 8 ∧ field w.toNat 27 24 = 0 ∧ ¬ (s.cell c).vec.strip + 1 < (s.cell c).vec.strips) ∧
  (∃ (s : State) (c : Nat) (w : Word), VecIssues s c w 9 ∧ field w.toNat 27 0 = 0) ∧
  (∃ (s : State) (c : Nat) (k : EngineCmd), CellWorks s c ∧ ThreadRuns s c ∧ (s.cell c).vec.cmd = some k ∧ (s.cell c).vec.ended = true ∧
    vbCountOff (s.cell c).vec.block = 0xFFFFFFFF ∧ k.doneEn = false) := by
  refine ⟨⟨testS12_11, 0, testV12_12, (by constructor <;> decide +kernel), ?_, ?_, ?_, ?_, ?_, ?_, ?_, ?_, ?_, ?_⟩,
      ⟨testS12_13, 0, testV12_14, .fma, .fp32, testVecIssues (by decide +kernel), ?_⟩,
      ⟨testS12_13, 0, testV12_15, .mulAdd, .int8, testVecIssues (by decide +kernel), ?_⟩,
      ⟨testS12_13, 0, testV12_16, .lt, .int8, testVecIssues (by decide +kernel), ?_⟩,
      ⟨testS12_13, 0, testV12_17, .w8, testVecIssues (by decide +kernel), ?_, ?_⟩, ⟨testS12_13, 0, testV12_18, testVecIssues (by decide +kernel), ?_,
      ?_⟩, ⟨testS12_13, 0, testV12_19, ⟨0, 1, 0⟩, testVecIssues (by decide +kernel), ?_, ?_⟩,
      ⟨testS12_13, 0, testV12_20, .w8, testVecIssues (by decide +kernel)⟩, ⟨testS12_13, 0, testV12_21, testVecIssues (by decide +kernel), ?_, ?_⟩,
      ⟨testS12_13, 0, testV12_22, testVecIssues (by decide +kernel), ?_, ?_⟩, ⟨testS12_23, 0, testV12_22, testVecIssues (by decide +kernel), ?_, ?_⟩,
      ⟨testS12_24, 0, testV12_25, testVecIssues (by decide +kernel), ?_⟩, ⟨testS12_26, 0, testV12_12, (by constructor <;> decide +kernel),
      testThreadRuns (by decide +kernel), ?_, ?_, ?_, ?_⟩⟩ <;> decide +kernel


theorem witness_VectorElementsKeepOrChange :
  (∃ (v : VecState) (b r : Nat) (f : Nat → Option VElem), (b = 1 ∨ b = 2 ∨ b = 4) ∧ v.regs.wf = true ∧ (∃ (e : Nat), e < vcount b) ∧
    (∃ (q : Nat) (e : _), q ≠ r ∧ e < vcount b)) ∧
  (∃ (v : VecState) (b r : Nat) (f : Nat → Option VElem), (b = 1 ∨ b = 2 ∨ b = 4) ∧ v.regs.wf = true ∧ (∃ (e : Nat), e < vcount b) ∧
    (∃ (q : Nat) (e : _), q ≠ r ∧ e < vcount b)) := by
  refine ⟨⟨VecState.idle, 4, 31, fun e => if e = 63 then some ⟨7, false, false, 0⟩ else none, ?_, ?_, ⟨⟨0, ?_⟩, ⟨0, 63, ?_, ?_⟩⟩⟩,
      ⟨VecState.idle, 1, 31, fun e => if e = 255 then some ⟨7, false, false, 0⟩ else none, ?_, ?_, ⟨⟨0, ?_⟩, ⟨0, 63, ?_, ?_⟩⟩⟩⟩ <;> decide +kernel

def testS12_27 : State := testEngineCell testSampBlock (fun x => { x with queues := [(4, [testCmd 4 0#24 0x100 5])] })
def testV12_28 : EngineCmd := testCmd 4 0#24 0x100 5
def testS12_29 : State := testCell0 (testEngineCell testSampRest (fun x => { x with queues := [(4, [testCmd 4 0#24 0x100 5])] })) (fun x => { x with scratch := x.scratch.write 0x2000 testSampState })
def testS12_30 : State := testEngineCell testSampBlock (fun x => { x with samp := { SampState.idle with cmd := some (testCmd 4 0#24 0x100 5), block := testSampBlock, list := [(3, 0x3F800000)] } })
def testS12_31 : State := testEngineCell testSampRest (fun x => { x with samp := { SampState.idle with cmd := some (testCmd 4 0#24 0x100 5), block := testSampRest, list := [(3, 0x3F800000)] } })

theorem witness_SamplerAndBagCommands :
  (∃ (s : State) (c : Nat) (k : EngineCmd), CellWorks s c ∧ (s.cell c).head 4 = some k ∧ (s.cell c).samp.cmd = none ∧ (s.cell c).mayStart k = true ∧
    k.opA.toNat % 64 = 0 ∧ inScratch k.opA.toNat 64 = true ∧ calReaches (s.cell c).calendar .auxRd k.opA.toNat 64 = true ∧
    (s.cell c).spPoison k.opA.toNat 64 = false ∧ (let x := s.cell c
    let b := x.scratch.read k.opA.toNat 64
    let st := x.scratch.read (sbStateOff b) (sbStateBytes b)
    sampBlockOk b k.opB.toNat = true ∧ x.sampAreas b k.opB.toNat = none ∧ (sbFirst b = false → x.spPoison (sbStateOff b) 16 = false ∧
    leAt st 14 2 = 0x5A4D ∧ leAt st 12 2 = sbTopK b))) ∧
  (∃ (s : State) (c : Nat) (k : EngineCmd), CellWorks s c ∧ (s.cell c).head 4 = some k ∧ (s.cell c).samp.cmd = none ∧ (s.cell c).mayStart k = true ∧
    k.opA.toNat % 64 = 0 ∧ inScratch k.opA.toNat 64 = true ∧ calReaches (s.cell c).calendar .auxRd k.opA.toNat 64 = true ∧
    (s.cell c).spPoison k.opA.toNat 64 = false ∧ (let x := s.cell c
    let b := x.scratch.read k.opA.toNat 64
    let st := x.scratch.read (sbStateOff b) (sbStateBytes b)
    sampBlockOk b k.opB.toNat = true ∧ x.sampAreas b k.opB.toNat = none ∧ (sbFirst b = false → x.spPoison (sbStateOff b) 16 = false ∧
    leAt st 14 2 = 0x5A4D ∧ leAt st 12 2 = sbTopK b))) ∧
  (∃ (s : State) (c : Nat) (k : EngineCmd), CellWorks s c ∧ ThreadRuns s c ∧ (s.cell c).samp.cmd = some k ∧ k.doneEn = false ∧ (let x := s.cell c
    let z := x.samp
    let b := z.block
    let word := fun d => if sbFree b then (genFree (s.genKeyOn c) domFreeSampler c 0 (genCount 1 x.genSteps s.free d)).toNat else (genKeyed (s.genKeyOn c) domSampler (sbElem b) (sbTensor b) ((sbDraw b + d) % 65536)).toNat
    let bs := if sbLast b then z.result word (Config.freeNat (s.free + 64)) else z.area
    let off := if sbLast b then sbOutOff b else sbStateOff b
    inScratch off bs.length = true ∧ calReaches x.calendar .auxWr off bs.length = true)) ∧
  (∃ (s : State) (c : Nat) (k : EngineCmd), CellWorks s c ∧ ThreadRuns s c ∧ (s.cell c).samp.cmd = some k ∧ k.doneEn = false ∧ (let x := s.cell c
    let z := x.samp
    let b := z.block
    let word := fun d => if sbFree b then (genFree (s.genKeyOn c) domFreeSampler c 0 (genCount 1 x.genSteps s.free d)).toNat else (genKeyed (s.genKeyOn c) domSampler (sbElem b) (sbTensor b) ((sbDraw b + d) % 65536)).toNat
    let bs := if sbLast b then z.result word (Config.freeNat (s.free + 64)) else z.area
    let off := if sbLast b then sbOutOff b else sbStateOff b
    inScratch off bs.length = true ∧ calReaches x.calendar .auxWr off bs.length = true)) := by
  refine ⟨⟨testS12_27, 0, testV12_28, (by constructor <;> decide +kernel), ?_, ?_, ?_, ?_, ?_, ?_, ?_, ?_, ?_, ?_⟩,
      ⟨testS12_29, 0, testV12_28, (by constructor <;> decide +kernel), ?_, ?_, ?_, ?_, ?_, ?_, ?_, ?_, ?_, ?_⟩,
      ⟨testS12_30, 0, testV12_28, (by constructor <;> decide +kernel), testThreadRuns (by decide +kernel), ?_, ?_, ?_, ?_⟩,
      ⟨testS12_31, 0, testV12_28, (by constructor <;> decide +kernel), testThreadRuns (by decide +kernel), ?_, ?_, ?_, ?_⟩⟩ <;> decide +kernel

def testGroup : Group := { partition := 0, id := 5, slot := 0, kind := 0, size := 1, rank := 0, stretch := 0, members := [9], epoch := 7#64, low := 0#64, asked := 7#64, goal := 7#64, advance := none, ready := [], lows := [], prepared := none, reported := 0#64, missing := [], silent := [] }
def testSlot : VerSlot := { VerSlot.none with state := .live, tver := 1, epochFrom := 1, rowBase := 0x10000, context := 1 }
def testTable : TableDesc := { record := testBlock 16 [(2, 2, 16), (8, 8, 100)], tverLast := 1, slots := [testSlot, VerSlot.none, VerSlot.none, VerSlot.none], pins := [] }
def testBagCmd : EngineCmd := { testCmd 3 16#24 0 4 with doneEn := false }
def testBagBlock : List Byte := testBlock 320 [(0, 2, 0x4247), (2, 2, 1), (4, 4, 4), (64, 1, 1), (68, 2, 3), (70, 2, 1), (72, 4, 4), (76, 4, 1), (80, 4, 0x100), (92, 4, 0x1000), (96, 4, 64), (0x100, 4, 99), (0x104, 4, 1)]
def testCtx : Context := { Context.unused with used := true, leaves := [(0, mkPte 0x20000 7), (1, mkPte 0x30000 7)] }
/-- A launch on cell 0 whose context maps its first two pages, a table group of one member with table 3. -/
def testPool : State := { testCell0 testState (fun x => { x with calendar := testCalendar }) with
    launches := [(1, { testLaunch with groups := [(16, 7#64)] })], contexts := [(1, testCtx)], groups := [(16, testGroup)], partitions := [(0, { Partition.none with foragerWt := 1 })]
    tables := [(16 * 4096 + 3, testTable)], dram := testMemory [(0x20000, testBagBlock)]
    tlbs := [(192, [{ context := 1, page := 1, large := false, entry := mkPte 0x30000 7 }])] }
def testWork : BagWork := bagWork 0 0 1 testLaunch testBagCmd 7
def testFetch (st : FetchState) : Fetch := { forager := 0, window := 0, table := 3, slot := 0, row := 99, va := 0x10000 + 99 * 64, mult := 2, slice := 0, place := none, miss := false, state := st }
def testLine : RcLine := { addr := 0x31000 / 64 + 0x8C0 / 64, ref := 0, partition := 0, sectors := 1, counter := 254, pin := false, row := ⟨List.replicate 64 0#8, [], []⟩ }
/-- The pool with one work in progress. -/
def testPooling (w : BagWork) : State := { testPool with works := [(3, w)], nextWork := 4 }
def testFetching (st : FetchState) : BagWork := { testWork with fetches := [testFetch st] }
def testRowData : RowData := ⟨List.replicate 64 0#8, [], []⟩
def testLookup : Lookup := ⟨.fetch 0, 0x3F800000, false, false⟩
def testOpenBag : OpenBag := { bag := 3, forager := 0, slice := 0, width := 16, seg := 0, row0 := 3, rows := 1, lookups := [testLookup], poison := false, suspect := false }
def testBagReady : BagWork := { testFetching (.done testRowData) with bags := [testOpenBag] }
def testOk {ε α : Type} (d : α) : Except ε α → α
  | .ok x => x
  | .error _ => d
def testForagerTlb : Table (List TlbEntry) := [(192, [{ context := 1, page := 0, large := false, entry := mkPte 0x20000 7 }, { context := 1, page := 1, large := false, entry := mkPte 0x30000 7 }])]
def testIntake : State := { testPooling testWork with tlbs := testForagerTlb }
def testSegs : List Seg := testOk [] (testIntake.readBlock 192 testWork)
def testBag : RawBag := testOk ⟨0, 0, 0, 0, [], false, false, false⟩ (testIntake.readBag 192 testWork testSegs 0)
def testStage : FanStage := { home := 12, launch := 1, block := 0, handle := 16, epoch := 7#64, versions := [], bytes := [], poison := [], held := false, requests := [], served := false }
def testGather : RetEntry := { launch := 1, launchId := 7#64, handle := 16, cell := 0, ended := false, acks := [], kind := .bag none 0 0#32 [(0x1000, 64)] [(0, 0, 32), (0, 1, 32)] [(1, 0)] [] }
def testHome : State := { testPool with groups := [(16, { testGroup with size := 2, members := [9, 10] })], returns := [(4, testGather)] }
def testHeld : Staged := { handle := 16, entry := { table := 3, row := 99, key := { pver := 4, src := 0, seq := 1, idx := 0 }, mode := 0, epoch := 7, data := [], poison := [], suspect := false }, committed := true, slot := 0, va := 0x10000 + 99 * 64, stack := 0, resolved := false, lost := false }

def testS13_1 : State := testCell0 testPool (fun x => { x with queues := [(3, [testBagCmd])] })
def testL13_2 : Launch := { testLaunch with groups := [(16, 7#64)] }
def testV13_3 : Seg := testSegs.headD (segOf [] 0)
def testV13_4 : Table Nat := (testIntake.drrTake 0 0 1).getD []
def testS13_5 : State := { testPooling (testFetching .issued) with foragers := [(0, { Forager.idle with lines := [(rcSet ((0x30000 + 99 * 64) / 64) * 32, { testLine with addr := (0x30000 + 99 * 64) / 64 })] })] }
def testV13_6 : Nat := 0x30000 + 99 * 64
def testV13_7 : Nat := rcSet ((0x30000 + 99 * 64) / 64) * 32
def testV13_8 : BagWork := testFetching .issued
def testV13_9 : Fetch := testFetch .issued
def testV13_10 : RcLine := { testLine with addr := (0x30000 + 99 * 64) / 64 }
def testS13_11 : State := testPooling (testFetching .waiting)
def testV13_12 : BagWork := testFetching .waiting
def testV13_13 : Fetch := testFetch .waiting
def testS13_14 : State := { testPooling (testFetching .waiting) with staged := [testHeld] }
def testS13_15 : State := testPooling (testFetching (.missed (0x30000 + 99 * 64)))
def testV13_16 : BagWork := testFetching (.missed (0x30000 + 99 * 64))
def testV13_17 : Fetch := testFetch (.missed (0x30000 + 99 * 64))
def testS13_18 : State := testPooling (testFetching (.served testRowData))
def testV13_19 : BagWork := testFetching (.served testRowData)
def testV13_20 : Fetch := testFetch (.served testRowData)
def testS13_21 : State := { testPooling testBagReady with tlbs := testForagerTlb }
def testS13_22 : State := testPooling { testWork with written := 4 }
def testV13_23 : BagWork := { testWork with written := 4 }
def testS13_24 : State := { testPooling { testBagReady with left := [1, 2] } with launches := [] }
def testV13_25 : BagWork := { testBagReady with left := [1, 2] }
def testS13_26 : State := { testPool with foragers := [(3, { Forager.idle with lines := [(0, testLine)], sketch := [(5, 1), (6, 255)] })] }

theorem witness_EmbeddingLookupsReadAndPool :
  (∃ (s : State) (c l h : Nat) (x : Launch) (k : EngineCmd) (g : Group) (e : DWord), OnCell s c ∧ s.activeLaunch c = some (l, x) ∧
    (s.cell c).head 3 = some k ∧ (s.cell c).mayStart k = true ∧ s.group? k.imm.toNat = some g ∧
    x.groups.find? (fun p => p.1 == k.imm.toNat) = some (h, e) ∧ g.partition = x.partition ∧ g.split = 1) ∧
  (∃ (s : State) (f id i j n sl : Nat) (w : BagWork) (segs : List Seg) (g : Seg) (ds : Table Nat) (b : RawBag) (rows : Nat × Nat), s.running = true ∧
    f < 4 ∧ s.work? id = some w ∧ s.workRuns w = true ∧ s.stalled (.bag f id 0) = false ∧ w.nextBag f = some i ∧
    s.readBlock (tlbForager f) w = .ok segs ∧ segOfBag segs (w.first + i) = some (j, g) ∧
    s.bagLookupCount (tlbForager f) w g (w.first + i - g.start) = .ok n ∧
    s.sliceFor f (s.tableWidth w.handle (g.table (w.first + i - g.start))) = some sl ∧ s.drrTake f w.partition n = some ds ∧
    s.readBag (tlbForager f) w segs (w.first + i) = .ok b ∧
    s.outputRows (tlbForager f) w (segs.getD b.seg (segOf [] 0)) (w.first + i) b.lookups.length = .ok rows) ∧
  (∃ (s : State) (id n pa key : Nat) (w : BagWork) (x : Fetch) (d : TableDesc) (sl : VerSlot) (line : RcLine), FetchAt s id n w x d sl ∧
    (x.state = .issued ∨ (x.state = .waiting ∧ s.workRuns w = true ∧ s.slotFree w x = true)) ∧ s.bagStalled id n w x = false ∧
    s.patchHolds w.handle x.table x.slot x.row w.epoch = false ∧ s.xlate (tlbForager x.forager) sl.context x.va .read = .hit pa ∧
    s.populated pa = true ∧ (s.forager (stackOf pa)).serve (pa / 64) w.epoch = some (key, line)) ∧
  (∃ (s : State) (id n pa : Nat) (w : BagWork) (x : Fetch) (d : TableDesc) (sl : VerSlot), FetchAt s id n w x d sl ∧
    (x.state = .issued ∨ (x.state = .waiting ∧ s.workRuns w = true ∧ s.slotFree w x = true)) ∧ s.bagStalled id n w x = false ∧
    s.patchHolds w.handle x.table x.slot x.row w.epoch = false ∧ s.xlate (tlbForager x.forager) sl.context x.va .read = .hit pa ∧
    s.populated pa = true ∧ (s.forager (stackOf pa)).serve (pa / 64) w.epoch = none) ∧
  (∃ (s : State) (id n : Nat) (w : BagWork) (x : Fetch) (d : TableDesc) (sl : VerSlot), FetchAt s id n w x d sl ∧ x.state = .waiting ∧
    s.workRuns w = true ∧ s.slotFree w x = true ∧ s.bagStalled id n w x = false ∧ s.patchHolds w.handle x.table x.slot x.row w.epoch = true) ∧
  (∃ (s : State) (id n pa : Nat) (w : BagWork) (x : Fetch) (d : TableDesc) (sl : VerSlot), FetchAt s id n w x d sl ∧ x.state = .missed pa ∧
    s.stackOpen pa = true) ∧
  (∃ (s : State) (id n : Nat) (w : BagWork) (x : Fetch) (d : TableDesc) (sl : VerSlot) (row : RowData), FetchAt s id n w x d sl ∧
    x.state = .served row ∧ s.workRuns w = true) ∧
  (∃ (s : State) (id bag c : Nat) (w : BagWork) (b : OpenBag) (segs : List Seg) (d : TableDesc), s.running = true ∧ s.work? id = some w ∧
    w.bags.find? (fun b => b.bag == bag) = some b ∧ s.workRuns w = true ∧ w.bagReady b = true ∧ s.readBlock (tlbForager b.forager) w = .ok segs ∧
    (let g := segs.getD b.seg (segOf [] 0)
    s.table? w.handle (g.table (bag - g.start)) = some d ∧ w.cell = some c ∧ (let outs := w.outputs g d.record b s.free
    (s.cell c).ingress = [] ∧ (∀ o ∈ outs, calReaches (s.cell c).calendar .ingress (g.outOff + o.1 * g.outStride) o.2.1.length = true)))) ∧
  (∃ (s : State) (id c : Nat) (w : BagWork), s.running = true ∧ s.work? id = some w ∧ s.workRuns w = true ∧ w.count ≤ w.written ∧ w.cell = some c ∧
    s.landed c (.forager id) = true ∧ w.cmd.doneEn = false ∧ ThreadRuns s c) ∧
  (∃ (s : State) (f id : Nat) (w : BagWork), s.running = true ∧ f < 4 ∧ s.works = [(id, w)] ∧ s.workRuns w = false ∧ f ∉ w.left ∧ w.left.length < 3) ∧
  (∃ (s : State) (f : Nat), s.running = true ∧ f < 4) := by
  refine ⟨⟨testS13_1, 0, 1, 16, testL13_2, testBagCmd, testGroup, 7#64, (by constructor <;> decide +kernel), ?_, ?_, ?_, ?_, ?_, ?_, ?_⟩,
      ⟨testIntake, 0, 3, 0, 0, 1, 0, testWork, testSegs, testV13_3, testV13_4, testBag, (0, 1), ?_, ?_, ?_, ?_, ?_,
      ?_, testExceptOk (by decide +kernel), ?_, testExceptOk (by decide +kernel), ?_, ?_, testExceptOk (by decide +kernel),
      testExceptOk (by decide +kernel)⟩, ⟨testS13_5, 3, 0, testV13_6, testV13_7, testV13_8, testV13_9,
      testTable, testSlot, testV13_10, (by constructor <;> decide +kernel), ?_, ?_, ?_, ?_, ?_, ?_⟩,
      ⟨testS13_11, 3, 0, testV13_6, testV13_12, testV13_13, testTable, testSlot, (by constructor <;> decide +kernel), ?_, ?_, ?_, ?_, ?_, ?_⟩,
      ⟨testS13_14, 3, 0, testV13_12, testV13_13, testTable, testSlot, (by constructor <;> decide +kernel), ?_, ?_, ?_, ?_, ?_⟩,
      ⟨testS13_15, 3, 0, testV13_6, testV13_16, testV13_17, testTable, testSlot, (by constructor <;> decide +kernel), ?_, ?_⟩,
      ⟨testS13_18, 3, 0, testV13_19, testV13_20, testTable, testSlot, testRowData, (by constructor <;> decide +kernel), ?_, ?_⟩,
      ⟨testS13_21, 3, 3, 0, testBagReady, testOpenBag, testSegs, testTable, ?_, ?_, ?_, ?_, ?_, testExceptOk (by decide +kernel), ?_, ?_, ?_, ?_⟩,
      ⟨testS13_22, 3, 0, testV13_23, ?_, ?_, ?_, ?_, ?_, ?_, ?_, testThreadRuns (by decide +kernel)⟩, ⟨testS13_24, 0, 3, testV13_25, ?_, ?_, ?_, ?_,
      ?_, ?_⟩, ⟨testS13_26, 3, ?_, ?_⟩⟩ <;> decide +kernel

def testS13_27 : State := { testPool with fanStages := [{ testStage with bytes := List.replicate 4096 0#8 }] }
def testS13_28 : State := { testPool with fanStages := [testStage] }
def testV13_29 : Group := { testGroup with low := 0#64 }
def testS13_30 : State := { testPool with fanStages := [{ testStage with held := true }] }
def testV13_31 : FanStage := { testStage with held := true }
def testV13_32 : List Byte := List.replicate 32 3#8
def testV13_33 : List (Nat × Nat) := [(0x1000, 64)]
def testV13_34 : List (Nat × Nat × Nat) := [(0, 0, 32), (0, 1, 32)]
def testV13_35 : Group := { testGroup with size := 2, members := [9, 10] }
def testS13_36 : State := { testPooling { testWork with home := some (12, 4), homeLaunch := 1 } with fanStages := [testStage] }
def testS13_37 : State := { testHome with returns := [(4, { testGather with ended := true, acks := [0, 1] })] }
def testS13_38 : State := { testHome with returns := [(4, { testGather with ended := true })] }
def testV13_39 : RetEntry := { testGather with ended := true }

theorem witness_GroupLookupsCrossDevices :
  (∃ (s : State) (home launch block gid h : Nat) (e : DWord) (vs : List (Nat × Nat)) (bs : List Byte) (po : List Nat), s.running = true ∧
    s.handleOf gid = some h ∧ (∀ f ∈ s.fanStages, f.held = false) ∧ s.stagingUsed + bs.length ≤ stagingBytes) ∧
  (∃ (s : State) (home launch block gid h : Nat) (e : DWord) (vs : List (Nat × Nat)) (bs : List Byte) (po : List Nat), s.running = true ∧
    s.handleOf gid = some h ∧ stagingBytes < s.stagingUsed + bs.length ∧ (∀ r ∈ s.earlyReqs, r.1 ≠ (home, launch, block))) ∧
  (∃ (s : State) (k : Nat × Nat × Nat), (∀ r ∈ s.earlyReqs, r.1 ≠ k)) ∧
  (∃ (s : State) (home launch block first n rank tag : Nat), s.running = true ∧
    s.fanStages.find? (fun f => f.home == home && f.launch == launch && f.block == block) = none) ∧
  (∃ (s : State) (home launch block first n rank tag : Nat) (f : FanStage) (g : Group), s.running = true ∧
    s.fanStages.find? (fun f => f.home == home && f.launch == launch && f.block == block) = some f ∧ f.held = false ∧ s.group? f.handle = some g) ∧
  (∃ (s : State) (home launch block first n rank tag : Nat) (f : FanStage), s.running = true ∧
    s.fanStages.find? (fun f => f.home == home && f.launch == launch && f.block == block) = some f ∧ f.held = true) ∧
  (∃ (s : State) (tag rank seg row t : Nat) (bs : List Byte) (po : Bool) (e : RetEntry) (sem : Option Nat) (pc : Word) (segs : List (Nat × Nat)) (rows : List (Nat × Nat × Nat)) (peers : Table Nat) (landed : Table (List (Nat × Nat))) (g : Group),
    s.running = true ∧ tabFind s.returns tag = some e ∧ e.kind = .bag sem t pc segs rows peers landed ∧ e.ended = false ∧
    tabFind peers rank = some 0 ∧ s.group? e.handle = some g ∧ (seg, row) ∉ tabGet [] landed rank ∧ (tabGet [] landed rank).length + 1 < rows.length ∧
    (∀ p ∈ peers, p.2 ≠ 3 ∧ (p.2 = 0 → (tabGet [] landed p.1).length < rows.length)) ∧ (let off := peerOffset segs g.rank rank seg row bs.length
    (s.cell e.cell).ingress = [] ∧ calReaches (s.cell e.cell).calendar .ingress off bs.length = true)) ∧
  (∃ (s : State) (tag rank seg row : Nat) (bs : List Byte) (po : Bool), s.running = true ∧ tabFind s.returns tag = none) ∧
  (∃ (s : State) (tag rank t : Nat) (e : RetEntry) (pc : Word) (segs : List (Nat × Nat)) (rows : List (Nat × Nat × Nat)) (peers : Table Nat) (landed : Table (List (Nat × Nat))) (g : Group),
    s.running = true ∧ tabFind s.returns tag = some e ∧ e.kind = .bag none t pc segs rows peers landed ∧ e.ended = false ∧
    tabFind peers rank = some 0 ∧ s.group? e.handle = some g ∧ (∀ p ∈ peers, p.2 ≠ 3 ∧ (p.2 = 0 → (tabGet [] landed p.1).length < rows.length)) ∧
    (s.cell e.cell).ingress = [] ∧ (∀ r ∈ rows, calReaches (s.cell e.cell).calendar .ingress (peerOffset segs g.rank rank r.1 r.2.1 r.2.2) r.2.2 = true)) ∧
  (∃ (s : State) (home launch : Nat), s.running = true ∧ (∀ f ∈ s.fanStages, f.held = false)) ∧
  (∃ (s : State) (src launch : Nat), s.running = true) ∧
  (∃ (s : State) (tag : Nat) (e : RetEntry), s.running = true ∧ tabFind s.returns tag = some e ∧ e.ended = true) := by
  refine ⟨⟨testPool, 12, 1, 0, 5, 16, 7#64, [], testBagBlock, [], ?_, ?_, ?_, ?_⟩,
      ⟨testS13_27, 12, 1, 1, 5, 16, 7#64, [], List.replicate (stagingBytes + 1) 0#8, [], ?_, ?_, (by simp only [List.length_replicate]; omega), ?_⟩,
      ⟨testPool, (12, 1, 0), ?_⟩, ⟨testPool, 12, 1, 0, 0, 4, 1, 9, ?_, ?_⟩, ⟨testS13_28, 12, 1, 0, 0, 4, 1, 9, testStage, testV13_29, ?_, ?_, ?_, ?_⟩,
      ⟨testS13_30, 12, 1, 0, 0, 4, 1, 9, testV13_31, ?_, ?_, ?_⟩,
      ⟨testHome, 4, 1, 0, 1, 0, testV13_32, false, testGather, none, 0#32, testV13_33, testV13_34, [(1, 0)], [], testV13_35, ?_, ?_, ?_, ?_, ?_, ?_,
      ?_, ?_, ?_, ?_, ?_⟩, ⟨testHome, 5, 1, 0, 1, [], false, ?_, ?_⟩,
      ⟨testHome, 4, 1, 0, testGather, 0#32, testV13_33, testV13_34, [(1, 0)], [], testV13_35, ?_, ?_, ?_, ?_, ?_, ?_, ?_, ?_, ?_⟩,
      ⟨testS13_36, 12, 1, ?_, ?_⟩, ⟨testS13_37, 10, 1, ?_⟩, ⟨testS13_38, 4, testV13_39, ?_, ?_, ?_⟩⟩ <;> decide +kernel

/-- Queue 5 of context 1 with one command of kind `k` and constants `c` at its head. -/
def testHead (k : Nat) (c : List Byte) : List Byte := bytesLE 1 k ++ bytesLE 1 0 ++ bytesLE 1 ((c.length + 7) / 8) ++ bytesLE 1 0 ++ bytesLE 4 0 ++ bytesLE 8 7 ++ bytesLE 48 0 ++ c
def testQueueOf : Queue := { Queue.free with status := .active, context := 1, log2Slots := 6, ringOff := 0x100000, cqBase := 0x1000, tail := 1#64 }
def testQueue (s : State) (b : List Byte) : State := testQueueWith testQueueOf s b
def testPart : Partition := { Partition.none with state := .active, combMask := 1#16, rcShare := 32#8, contexts := 4#16, queues := 8#16 }
def testHT : List Byte := bytesLE 4 16 ++ bytesLE 2 3 ++ bytesLE 2 0
def testFree : TableDesc := { testTable with slots := List.replicate 4 VerSlot.none, tverLast := 0 }
def testPinPayload : List Byte := bytesLE 4 16 ++ bytesLE 2 3 ++ bytesLE 2 1 ++ bytesLE 2 1 ++ bytesLE 6 0 ++ bytesLE 8 0x10000
def testPublish : List Byte := bytesLE 4 16 ++ bytesLE 2 3 ++ bytesLE 2 0 ++ bytesLE 8 9 ++ bytesLE 8 8 ++ bytesLE 8 0x10000 ++ bytesLE 8 0
def testPool2 : State := { testPool with groups := [(16, { testGroup with size := 2, members := [0xFFFFFF, 10] })] }
def testKey : PatchKey := { pver := 4, src := 0xFFFFFF * 1024 + 5, seq := 1, idx := 0 }
def testEntry : PatchEntry := { key := testKey, epoch := 8, table := 3, row := 99, mode := 0, data := List.replicate 64 6#8, poison := [], suspect := false }
def testStaged (c : Bool) : Staged := { handle := 16, entry := testEntry, committed := c, slot := 0, va := 0x10000 + 99 * 64, stack := 0, resolved := c, lost := false }
def testPatchBlock : List Byte := testBlock 192 [(0, 2, 0x5054), (4, 4, 1), (8, 8, 8), (0x10, 4, 16), (64, 8, 99), (72, 8, 4), (80, 2, 3), (88, 4, 128)]
/-- A PATCH at the head of queue 5, its block at the start of the context. -/
def testPatch : State := testQueue { testPool with dram := testMemory [(0x20000, testPatchBlock)] } (testHead 3 (bytesLE 8 0 ++ bytesLE 4 1))
def testPatchOwn : List PatchEntry :=
  let w := CmdWork.mk 0 7#64 3 false 0 0#64 1 0 1 false 0#64
  let z := ((testPatch.modQueue 5 (fun x => { x with patches := 1 })).countTaken 5).modQueue 5 (fun x => { x with work := x.work ++ [w] })
  match z.patchRead 5 w with
  | .ok (_, _, l) => (l.map (·.2)).headD []
  | .error _ => []
def testPatchWork : PatchWork := { queue := 5, index := 0, launchId := 7#64, irq := false, handle := 16, answers := [] }

def testS14_1 : State := testAdm testPool 0x28 (bytesLE 4 16 ++ bytesLE 2 4095 ++ bytesLE 2 0 ++ testTable.record)
def testV14_2 : List Byte := bytesLE 4 16 ++ bytesLE 2 4095 ++ bytesLE 2 0 ++ testTable.record
def testS14_3 : State := testAdm testPool 0x2A testHT
def testS14_4 : State := testAdm { testPool with tables := [(tableKey 16 3, testFree)], launches := [] } 0x29 testHT
def testS14_5 : State := testAdm { testPool with partitions := [(0, testPart)] } 0x2B testPinPayload
def testS14_6 : State := testAdm { testPool with tables := [(tableKey 16 3, { testTable with pins := [5, 0] })] } 0x2C testPinPayload
def testV14_7 : TableDesc := { testTable with pins := [5, 0] }
def testS14_8 : State := testQueue testPool (testHead 2 testPublish)
def testV14_9 : List Byte := testSlotBytes (testHead 2 testPublish)
def testS14_10 : State := testAdm testPool2 0x2D (testHT ++ bytesLE 8 1)
def testV14_11 : List Byte := testHT ++ bytesLE 8 1
def testV14_12 : Group := { testGroup with size := 2, members := [0xFFFFFF, 10] }
def testS14_13 : State := { testPool with tables := [(tableKey 16 3, testTable.setSlot 0 { testSlot with state := .staged })], staged := [testStaged true, testStaged false] }
def testV14_14 : TableDesc := testTable.setSlot 0 { testSlot with state := .staged }
def testS14_15 : State := { testPool with groups := [(16, { testGroup with low := 9#64 })], tables := [(tableKey 16 3, testTable.setSlot 0 { testSlot with state := .superseded, supAt := 9 })], launches := [] }
def testV14_16 : Group := { testGroup with low := 9#64 }
def testV14_17 : TableDesc := testTable.setSlot 0 { testSlot with state := .superseded, supAt := 9 }

theorem witness_TablesRegisterPublishAndRelease :
  (∃ (s : State) (p : List Byte), AdminHead s 0x28 24 p ∧ (s.group? (leAt p 0 4)).isSome = true ∧ leAt p 4 2 ≤ 4095 ∧
    s.table? (leAt p 0 4) (leAt p 4 2) = none ∧ leAt p 6 2 = 0 ∧ recordOk ((p.drop 8).take 16) = true ∧ s.tables.length < 65536) ∧
  (∃ (s : State) (p : List Byte) (h t : Nat) (g : Group) (d : TableDesc), AdminHead s 0x2A 8 p ∧ s.namedTable p = some (h, t, g, d) ∧ leAt p 6 2 = 0) ∧
  (∃ (s : State) (p : List Byte) (h t : Nat) (g : Group) (d : TableDesc), AdminHead s 0x29 8 p ∧ s.namedTable p = some (h, t, g, d) ∧ leAt p 6 2 = 0 ∧
    d.used = [] ∧ s.groupNamed h = false) ∧
  (∃ (s : State) (p : List Byte) (h t : Nat) (g : Group) (d : TableDesc) (rows : List Nat), AdminHead s 0x2B 24 p ∧ s.pinListOpen p = true ∧
    s.pinList p = .ok (h, t, g, d, rows) ∧ (let new := rows.filter (fun r => !d.pins.contains r)
    s.pinsFit g.partition (rowStride d.record) (s.rowLines d d.used new) = true ∧ s.pinsOpen d d.used new = true)) ∧
  (∃ (s : State) (p : List Byte) (h t : Nat) (g : Group) (d : TableDesc) (rows : List Nat), AdminHead s 0x2C 24 p ∧ s.pinListOpen p = true ∧
    s.pinList p = .ok (h, t, g, d, rows)) ∧
  (∃ (s : State) (q i : Nat) (b : List Byte) (g : Group) (d : TableDesc), QueueHead s q 2 b ∧ (let k := chConsts b
    s.publishCheck (s.queuePart q) k = none ∧ s.publishOpen (s.queue q).context k = true ∧ s.group? (leAt k 0 4) = some g ∧
    s.table? (leAt k 0 4) (leAt k 4 2) = some d ∧ (List.range 4).find? (fun j => (d.slot j).state == SlotSt.free) = some i)) ∧
  (∃ (s : State) (p : List Byte) (h t : Nat) (g : Group) (d : TableDesc), AdminHead s 0x2D 16 p ∧ s.namedTable p = some (h, t, g, d) ∧ leAt p 6 2 = 0) ∧
  (∃ (s : State) (gid h t tver i : Nat) (d : TableDesc), s.running = true ∧ s.handleOf gid = some h ∧ s.table? h t = some d ∧
    (List.range 4).find? (fun j => (d.slot j).state == SlotSt.staged && (d.slot j).tver == tver) = some i) ∧
  (∃ (s : State) (h t i : Nat) (g : Group) (d : TableDesc), s.running = true ∧ s.group? h = some g ∧ s.table? h t = some d ∧
    s.slotFreeable h t g d i = true) := by
  refine ⟨⟨testS14_1, testV14_2, testAdmHead (by decide +kernel), ?_, ?_, ?_, ?_, ?_, ?_⟩,
      ⟨testS14_3, testHT, 16, 3, testGroup, testTable, testAdmHead (by decide +kernel), ?_, ?_⟩,
      ⟨testS14_4, testHT, 16, 3, testGroup, testFree, testAdmHead (by decide +kernel), ?_, ?_, ?_, ?_⟩,
      ⟨testS14_5, testPinPayload, 16, 3, testGroup, testTable, [0], testAdmHead (by decide +kernel), ?_, testExceptOk (by decide +kernel), ?_, ?_⟩,
      ⟨testS14_6, testPinPayload, 16, 3, testGroup, testV14_7, [0], testAdmHead (by decide +kernel), ?_, testExceptOk (by decide +kernel)⟩,
      ⟨testS14_8, 5, 1, testV14_9, testGroup, testTable, testQueueHead (by decide +kernel), ?_, ?_, ?_, ?_, ?_⟩,
      ⟨testS14_10, testV14_11, 16, 3, testV14_12, testTable, testAdmHead (by decide +kernel), ?_, ?_⟩, ⟨testS14_13, 5, 16, 3, 1, 0, testV14_14, ?_,
      ?_, ?_, ?_⟩, ⟨testS14_15, 16, 3, 0, testV14_16, testV14_17, ?_, ?_, ?_, ?_⟩⟩ <;> decide +kernel

def testV14_18 : List Byte := testSlotBytes (testHead 3 (bytesLE 8 0 ++ bytesLE 4 1))
def testV14_19 : List (Nat × List Byte) := [(3, testTable.record)]
def testV14_20 : List PatchEntry := [{ testEntry with row := 100 }]
def testS14_21 : State := { testQueue testPool2 [] with patches := [(0xFFFFFF * 1024 + 5, 1, testPatchWork)], staged := [testStaged false] }
def testV14_22 : Nat := 0xFFFFFF * 1024 + 5
def testS14_23 : State := { testQueue { testPool with groups := [(16, { testGroup with size := 3, members := [0xFFFFFF, 10, 11] })] } [] with patches := [(0xFFFFFF * 1024 + 5, 1, testPatchWork)], staged := [testStaged false] }
def testV14_24 : Group := { testGroup with size := 3, members := [0xFFFFFF, 10, 11] }
def testS14_25 : State := { testPool with staged := [testStaged false] }
def testS14_26 : State := { testPool with staged := [testStaged false, { testStaged false with entry := { testEntry with key := { testKey with seq := 2 } } }] }
def testS14_27 : State := { testPool with groups := [(16, { testGroup with size := 2, members := [12, 10], rank := 1, prepared := some 9#64 })], staged := [testStaged false] }
def testV14_28 : Group := { testGroup with size := 2, members := [12, 10], rank := 1, prepared := some 9#64 }
def testS14_29 : State := { testPool with staged := [{ testStaged false with entry := { testEntry with key := { testKey with src := 12 * 1024 + 5 } } }] }
def testS14_30 : State := { testPool with committed := [(12 * 1024 + 5, 1, 16)] }
def testS14_31 : State := { testPool with contexts := [(1, { testCtx with blocks := [(0, 0)] })], groups := [(16, { testGroup with low := 8#64 })], staged := [testStaged true], foragers := [(0, { Forager.idle with lines := [(7, { testLine with addr := (0x10000 + 99 * 64) / 64, ref := 1, row := ⟨List.replicate 64 6#8, [], []⟩ })], epochs := [(1, 8)] })] }
def testV14_32 : Nat := 0x10000 + 99 * 64
def testV14_33 : Group := { testGroup with low := 8#64 }
def testV14_34 : Staged := testStaged true
def testV14_35 : RcLine := { testLine with addr := (0x10000 + 99 * 64) / 64, ref := 1, row := ⟨List.replicate 64 6#8, [], []⟩ }

theorem witness_RowPatchesStageCommitAndWriteBack :
  (∃ (s : State) (q : Nat) (b : List Byte) (h : Nat) (g : Group) (own : List PatchEntry), QueueHead s q 3 b ∧ (let k := chConsts b
    let n := (s.queue q).taken.toNat % 2 ^ 32
    let seq := ((s.queue q).patches + 1) % 2 ^ 32
    let w := CmdWork.mk n (chLaunchId b) 3 (chIrq b) 0 0#64 seq (leAt k 0 8) (leAt k 8 4) false s.time
    let z := ((s.modQueue q (fun x => { x with patches := seq })).countTaken q).modQueue q (fun x => { x with work := x.work ++ [w] })
    leAt k 0 8 % 64 = 0 ∧ 1 ≤ leAt k 8 4 ∧ leAt k 8 4 ≤ 4096 ∧ allZero (k.drop 12) = true ∧ (∀ j ∈ (s.queue q).work, j.index ≠ n) ∧
    z.patchRead q w = .ok (h, g, [(g.rank, own)]))) ∧
  (∃ (s : State) (gid h src seq : Nat) (recs : List (Nat × List Byte)) (es : List PatchEntry) (g : Group), s.running = true ∧
    s.handleOf gid = some h ∧ s.group? h = some g ∧ s.entriesCheck h g recs es = none) ∧
  (∃ (s : State) (gid h src seq st code t i row : Nat) (recs : List (Nat × List Byte)) (es : List PatchEntry) (g : Group), s.running = true ∧
    s.handleOf gid = some h ∧ s.group? h = some g ∧ s.entriesCheck h g recs es = some (.refuse st code t i row)) ∧
  (∃ (s : State) (src seq rank st code a b : Nat) (w : PatchWork) (g : Group), s.running = true ∧
    s.patches.find? (fun p => p.1 == src && p.2.1 == seq) = some (a, b, w) ∧ s.group? w.handle = some g ∧ rank < g.size ∧ rank ≠ g.rank ∧
    (∀ x ∈ s.groups, x.2.prepared = none) ∧ (let w1 := { w with answers := tabSet w.answers rank (st, code) }
    let w1 := { w with answers := tabSet w.answers rank (st, code) }
    ¬ w1.answers.length + 1 < g.size ∧ (∀ x ∈ w1.answers, x.2.1 = 0))) ∧
  (∃ (s : State) (src seq rank st code a b : Nat) (w : PatchWork) (g : Group), s.running = true ∧
    s.patches.find? (fun p => p.1 == src && p.2.1 == seq) = some (a, b, w) ∧ s.group? w.handle = some g ∧ rank < g.size ∧ rank ≠ g.rank ∧
    (∀ x ∈ s.groups, x.2.prepared = none) ∧ (let w1 := { w with answers := tabSet w.answers rank (st, code) }
    let w1 := { w with answers := tabSet w.answers rank (st, code) }
    w1.answers.length + 1 < g.size)) ∧
  (∃ (s : State) (src seq : Nat), s.running = true) ∧
  (∃ (s : State) (src seq : Nat), s.running = true ∧ (∀ x ∈ s.groups, x.2.prepared = none)) ∧
  (∃ (s : State) (src seq h : Nat) (t : DWord) (g : Group), s.running = true ∧ s.groups = [(h, g)] ∧ g.prepared = some t ∧ g.rank ≠ 0 ∧ g.size ≠ 1 ∧
    (let z := { s with staged := s.staged.filter (fun x => !x.tentative src seq) }
    z.tentativeBelow h t.toNat = false)) ∧
  (∃ (s : State) (src seq : Nat), s.running = true ∧ (∃ x ∈ s.staged, x.tentative src seq = true) ∧ src / 1024 ≠ s.ownAddr) ∧
  (∃ (s : State) (src seq asker : Nat), s.running = true ∧ (∀ p ∈ s.patches, ¬ (p.1 = src ∧ p.2.1 = seq))) ∧
  (∃ (s : State) (h t row e pa key : Nat) (g : Group) (d : TableDesc) (x : Staged) (l : RcLine), s.running = true ∧ s.group? h = some g ∧
    s.table? h t = some d ∧ s.staged.find? (fun y => y.committed && y.resolved && y.handle == h && y.entry.table == t && y.entry.row == row && y.entry.epoch == e) = some x ∧ e ≤ s.lowMark h g ∧ s.migrating (d.slot x.slot).context x.va = false ∧ s.blockPa (d.slot x.slot).context x.va = some pa ∧ (∀ y ∈ (s.forager (stackOf pa)).lines,
    y.2.addr = pa / 64 → y.2.ref ≠ 0 → e ≤ tabGet 0 (s.forager (stackOf pa)).epochs y.2.ref) ∧
    (s.forager (stackOf pa)).forward (pa / 64) e = some (key, l) ∧ s.damage = [] ∧ s.fixups = [] ∧ s.struck = [] ∧
    partGranules pa l.row.bytes.length = []) := by
  refine ⟨⟨testPatch, 5, testV14_18, 16, testGroup, testPatchOwn, testQueueHead (by decide +kernel), ?_, ?_, ?_, ?_,
      ?_, testExceptOk (by decide +kernel)⟩, ⟨testPool2, 5, 16, 10 * 1024 + 1, 1, testV14_19, [testEntry], testV14_12, ?_, ?_, ?_, ?_⟩,
      ⟨testPool2, 5, 16, 10 * 1024 + 1, 1, stIndexRange, 2, 3, 0, 100, testV14_19, testV14_20, testV14_12, ?_, ?_, ?_, ?_⟩,
      ⟨testS14_21, testV14_22, 1, 1, 0, 0, testV14_22, 1, testPatchWork, testV14_12, ?_, ?_, ?_, ?_, ?_, ?_, ?_, ?_⟩,
      ⟨testS14_23, testV14_22, 1, 2, 0, 0, testV14_22, 1, testPatchWork, testV14_24, ?_, ?_, ?_, ?_, ?_, ?_, ?_⟩, ⟨testS14_25, testV14_22, 1, ?_⟩,
      ⟨testS14_26, testV14_22, 1, ?_, ?_⟩, ⟨testS14_27, testV14_22, 1, 16, 9#64, testV14_28, ?_, ?_, ?_, ?_, ?_, ?_⟩, ⟨testS14_29, 12 * 1024 + 5, 1,
      ?_, ⟨?_, ?_⟩⟩, ⟨testS14_30, 12 * 1024 + 5, 1, 12, ?_, ?_⟩,
      ⟨testS14_31, 16, 3, 99, 8, testV14_32, 7, testV14_33, testTable, testV14_34, testV14_35, ?_, ?_, ?_, ?_, ?_, ?_, ?_, ?_, ?_, ?_, ?_, ?_,
      ?_⟩⟩ <;> decide +kernel

def testPair : Group := { testGroup with size := 2, members := [0, 10] }
def testMember : Group := { testGroup with size := 2, members := [12, 0], rank := 1 }
def testGroups (g : Group) : State := { testPool with groups := [(16, g)], partitions := [(0, testPart)] }
def testGroupPayload : List Byte := bytesLE 1 0 ++ bytesLE 7 0 ++ testBlock 792 [(0, 4, 6), (4, 1, 0), (6, 2, 1), (8, 2, 0), (0x10, 8, 3)]
def testAdvance : List Byte := bytesLE 4 16 ++ bytesLE 4 0 ++ bytesLE 8 9

def testS15_1 : State := testAdm (testGroups testGroup) 0x20 testGroupPayload
def testS15_2 : State := testAdm { testGroups testGroup with tables := [], launches := [] } 0x21 (bytesLE 4 16 ++ bytesLE 4 0)
def testV15_3 : List Byte := bytesLE 4 16 ++ bytesLE 4 0
def testS15_4 : State := testQueue (testGroups testGroup) (testHead 4 testAdvance)
def testV15_5 : List Byte := testSlotBytes (testHead 4 testAdvance)
def testS15_6 : State := testQueue (testGroups testMember) (testHead 4 testAdvance)
def testS15_7 : State := testGroups testPair
def testS15_8 : State := testGroups testMember
def testS15_9 : State := testGroups { testPair with advance := some 9#64, ready := [(0, 77)] }
def testV15_10 : Group := { testPair with advance := some 9#64, ready := [(0, 77)] }
def testS15_11 : State := testGroups { testPair with size := 4, members := [0, 10, 11, 12], advance := some 9#64, ready := [(0, 77)] }
def testV15_12 : Group := { testPair with size := 4, members := [0, 10, 11, 12], advance := some 9#64, ready := [(0, 77)] }
def testS15_13 : State := testGroups { testPair with advance := some 9#64, ready := [(0, 77), (1, 78)] }
def testV15_14 : Group := { testPair with advance := some 9#64, ready := [(0, 77), (1, 78)] }
def testS15_15 : State := testGroups { testPair with lows := [(1, 5)] }
def testV15_16 : Group := { testPair with lows := [(1, 5)] }
def testV15_17 : Group := { testPair with silent := [1] }

theorem witness_GroupsAndTheirEpochs :
  (∃ (s : State) (p : List Byte), AdminHead s 0x20 800 p ∧ leAt p 1 7 = 0 ∧ leAt p 0 1 ≤ 15 ∧ (s.part (leAt p 0 1)).state = .active ∧
    s.groupOk (p.drop 8) = true ∧ s.groups.length < 256) ∧
  (∃ (s : State) (p : List Byte), AdminHead s 0x21 8 p ∧ leAt p 4 4 = 0 ∧ (s.group? (leAt p 0 4)).isSome = true ∧ s.groupTables (leAt p 0 4) = [] ∧
    s.spanBound (leAt p 0 4) = false ∧ s.groupNamed (leAt p 0 4) = false) ∧
  (∃ (s : State) (q : Nat) (b : List Byte) (g : Group), QueueHead s q 4 b ∧ (let k := chConsts b
    let h := leAt k 0 4
    let t := BitVec.ofNat 64 (leAt k 8 8)
    s.group? h = some g ∧ g.partition = s.queuePart q ∧ leAt k 4 4 = 0 ∧ allZero (k.drop 16) = true ∧ g.epoch.toNat < t.toNat ∧ g.rank = 0 ∧
    g.size = 1 ∧ g.advance = none ∧ g.prepared = none ∧ g.goal.toNat ≤ t.toNat ∧ s.tentativeBelow h t.toNat = false)) ∧
  (∃ (s : State) (q : Nat) (b : List Byte) (g : Group), QueueHead s q 4 b ∧ (let k := chConsts b
    let h := leAt k 0 4
    let t := BitVec.ofNat 64 (leAt k 8 8)
    s.group? h = some g ∧ g.partition = s.queuePart q ∧ leAt k 4 4 = 0 ∧ allZero (k.drop 16) = true ∧ g.epoch.toNat < t.toNat ∧ g.rank ≠ 0)) ∧
  (∃ (s : State) (gid h : Nat) (t : DWord) (g : Group), s.running = true ∧ s.handleOf gid = some h ∧ s.group? h = some g ∧ g.rank = 0 ∧ g.size ≠ 1 ∧
    g.advance = none ∧ g.goal.toNat ≤ t.toNat ∧ g.epoch.toNat < t.toNat ∧ s.tentativeBelow h t.toNat = false) ∧
  (∃ (s : State) (gid h : Nat) (t : DWord) (g : Group), s.running = true ∧ s.handleOf gid = some h ∧ s.group? h = some g ∧ g.rank ≠ 0 ∧ g.size ≠ 1 ∧
    s.tentativeBelow h t.toNat = false) ∧
  (∃ (s : State) (gid h rank d : Nat) (t : DWord) (g : Group), s.running = true ∧ s.handleOf gid = some h ∧ s.group? h = some g ∧ g.rank = 0 ∧
    g.advance = some t ∧ rank ≠ 0 ∧ rank < g.size ∧ (let r := tabSet g.ready rank d
    let r := tabSet g.ready rank d
    ¬ r.length < g.size ∧ (∀ x ∈ r, x.2 = tabGet 0 r 0) ∧ g.epoch.toNat < t.toNat ∧ g.goal.toNat ≤ t.toNat)) ∧
  (∃ (s : State) (gid h rank d : Nat) (t : DWord) (g : Group), s.running = true ∧ s.handleOf gid = some h ∧ s.group? h = some g ∧ g.rank = 0 ∧
    g.advance = some t ∧ rank ≠ 0 ∧ rank < g.size ∧ (let r := tabSet g.ready rank d
    let r := tabSet g.ready rank d
    r.length < g.size)) ∧
  (∃ (s : State) (h : Nat) (t : DWord) (g : Group), s.running = true ∧ s.group? h = some g ∧ g.advance = some t ∧ ¬ g.ready.length < g.size ∧
    (∃ x ∈ g.ready, x.2 ≠ tabGet 0 g.ready 0) ∧ g.size ≠ 1 ∧ s.tentativeBelow h t.toNat = false) ∧
  (∃ (s : State) (h : Nat) (g : Group), s.running = true ∧ s.group? h = some g ∧ g.size ≠ 1 ∧ g.rank ≠ 0) ∧
  (∃ (s : State) (gid h rank : Nat) (l : DWord) (g : Group), s.running = true ∧ s.handleOf gid = some h ∧ s.group? h = some g ∧ g.rank = 0 ∧
    rank < g.size) ∧
  (∃ (s : State) (h : Nat) (g : Group), s.running = true ∧ s.group? h = some g ∧ g.rank = 0 ∧ g.size ≠ 1 ∧ g.size ≤ (tabSet g.lows 0 0).length) ∧
  (∃ (s : State) (h r : Nat) (rest : List Nat) (g : Group), s.running = true ∧ s.keeperUp = true ∧ s.group? h = some g ∧ g.size ≠ 1 ∧
    (∀ x ∈ r :: rest, x < g.size ∧ x ≠ g.rank) ∧ s.logFull = false) ∧
  (∃ (s : State) (h : Nat) (g : Group), g.silent ≠ []) ∧
  (∃ (s : State) (gid h rank : Nat) (t : DWord) (l : List (Nat × Nat × Nat)) (g : Group), s.running = true ∧ s.keeperUp = true ∧
    s.handleOf gid = some h ∧ s.group? h = some g ∧ (let own := s.versionList h t.toNat
    let bad := ((own ++ l).map (·.1)).eraseDups.filter (fun x => own.filter (fun v => v.1 == x) != l.filter (fun v => v.1 == x))
    s.log.entries.length + bad.length ≤ 1024)) := by
  refine ⟨⟨testS15_1, testGroupPayload, testAdmHead (by decide +kernel), ?_, ?_, ?_, ?_, ?_⟩, ⟨testS15_2, testV15_3, testAdmHead (by decide +kernel),
      ?_, ?_, ?_, ?_, ?_⟩, ⟨testS15_4, 5, testV15_5, testGroup, testQueueHead (by decide +kernel), ?_, ?_, ?_, ?_, ?_, ?_, ?_, ?_, ?_, ?_, ?_⟩,
      ⟨testS15_6, 5, testV15_5, testMember, testQueueHead (by decide +kernel), ?_, ?_, ?_, ?_, ?_, ?_⟩, ⟨testS15_7, 5, 16, 9#64, testPair, ?_, ?_,
      ?_, ?_, ?_, ?_, ?_, ?_, ?_⟩, ⟨testS15_8, 5, 16, 9#64, testMember, ?_, ?_, ?_, ?_, ?_, ?_⟩, ⟨testS15_9, 5, 16, 1, 77, 9#64, testV15_10, ?_, ?_,
      ?_, ?_, ?_, ?_, ?_, ?_, ?_, ?_, ?_⟩, ⟨testS15_11, 5, 16, 3, 77, 9#64, testV15_12, ?_, ?_, ?_, ?_, ?_, ?_, ?_, ?_⟩,
      ⟨testS15_13, 16, 9#64, testV15_14, ?_, ?_, ?_, ?_, ⟨?_, ?_, ?_⟩⟩, ⟨testS15_8, 16, testMember, ?_, ?_, ?_, ?_⟩,
      ⟨testS15_7, 5, 16, 1, 6#64, testPair, ?_, ?_, ?_, ?_, ?_⟩, ⟨testS15_15, 16, testV15_16, ?_, ?_, ?_, ?_, ?_⟩, ⟨testS15_7, 16, 1, [], testPair,
      ?_, ?_, ?_, ?_, ?_, ?_⟩, ⟨testS15_7, 16, testV15_17, ?_⟩, ⟨testS15_8, 5, 16, 0, 9#64, [(3, 1, 2)], testMember, ?_, ?_, ?_, ?_, ?_⟩⟩ <;> decide +kernel

def testImage : Image := { partition := 0, context := 1, va := 0x10000, length := 64, noPreempt := false, pinned := false, variants := [testLaunch.variant], fetchA := 0, fetchB := 0, lastFetchA := 0, lastFetchB := 0 }
def testSpanGroup : Group := { testGroup with kind := 1, size := 2, members := [0, 10], stretch := 64 }
def testSpanQueue : Queue := { testQueueOf with span := true, binding := some (16, 0, 1), tail := 0#64 }
def testSpan (x : Queue) : State := { testGroups testSpanGroup with queues := [(5, x)], images := [(1, testImage)], cells := [], launches := [(1, { testLaunch with cells := [] })] }
def testSpanRecord : List Byte := testBlock 64 [(0, 2, 0x5350), (2, 2, 0), (4, 4, 5)]
def testBind : List Byte := bytesLE 4 16 ++ bytesLE 2 5 ++ bytesLE 1 0 ++ bytesLE 1 0 ++ bytesLE 8 1 ++ bytesLE 8 0
def testSend : RetEntry := { testGather with kind := .span 0x1000 63 }
def testReturnRecord : List Byte := testBlock 64 [(0, 2, 0x5350), (2, 2, 0xFFFF), (4, 4, 5), (0x10, 4, 4), (0x30, 8, 7)]
def testWindow : Window := { Window.none with opened := true, perm := 3, context := 1, key := 77, lastKeys := [77], vbase := 0, size := 0x20000 }
def testWindows (x : Window) : State := { testPool with partitions := [(0, testPart)], windows := [(windowKey 0 255, x)] }
def testOpen : List Byte := bytesLE 1 255 ++ bytesLE 1 3 ++ bytesLE 2 1 ++ bytesLE 4 77 ++ bytesLE 8 0 ++ bytesLE 8 0x20000 ++ bytesLE 8 0
def testImportOf : Import := { context := 1, partition := 0, owner := 12, ownerPart := 15, window := 255, key := 77, perm := 3, size := 0x20000, releasing := false }
def testProbe : Probe := { context := 1, perm := 3, window := 255, owner := 12, ownerPart := 15, key := 77 }
def testImportPayload : List Byte := bytesLE 2 1 ++ bytesLE 1 3 ++ bytesLE 1 255 ++ bytesLE 3 12 ++ bytesLE 1 15 ++ bytesLE 4 77 ++ bytesLE 4 0
def testWinReq : WindowReq := { user := .load 0 0, launch := 1, slot := 0, va := 0x10000, write := false, length := 8, elem := 0, byteOff := 0, dstPa := 0 }
def testAdmWork (w : AdminWaitFor) : AdminWork := { index := 0, cmdId := 7#64, waits := w, start := 0, blocks := true }
def testWaiting (s : State) (w : AdminWaitFor) : State := { s with admin := { s.admin with running := true, taken := 1#64, tail := 1#64, work := [testAdmWork w] } }

def testS16_1 : State := testAdm (testSpan testSpanQueue) 0x22 testBind
def testS16_2 : State := testSpan testSpanQueue
def testV16_3 : Variant := testLaunch.variant
def testS16_4 : State := testSpan { testSpanQueue with outstanding := 64 }
def testS16_5 : State := { testSpan testSpanQueue with cells := testPool.cells, launches := testPool.launches, returns := [(4, testSend)] }
def testS16_6 : State := testAdm { testWindows Window.none with contexts := [(1, testCtx)] } 0x30 testOpen
def testS16_7 : State := testWindows testWindow
def testS16_8 : State := testWindows { testWindow with key := 78 }
def testV16_9 : List Byte := List.replicate 8 9#8
def testV16_10 : Nat := mkPte 0x30000 7
def testS16_11 : State := testAdm (testWindows testWindow) 0x31 (bytesLE 1 0 ++ bytesLE 1 255 ++ bytesLE 6 0)
def testV16_12 : List Byte := bytesLE 1 0 ++ bytesLE 1 255 ++ bytesLE 6 0
def testS16_13 : State := testWaiting (testWindows { testWindow with closing := true }) (.window 0 255)
def testS16_14 : State := testAdm (testWindows Window.none) 0x32 testImportPayload
def testS16_15 : State := testWaiting { testWindows Window.none with probes := [(4, testProbe)] } (.probe 4)
def testS16_16 : State := { testWaits (.vaLoad 31 0x10000 8 false (some 0x400000000000)) with winReqs := [(4, testWinReq)] }
def testS16_17 : State := testAdm { testWindows Window.none with imports := [(4095, testImportOf)] } 0x33 (bytesLE 2 4095 ++ bytesLE 6 0)
def testV16_18 : List Byte := bytesLE 2 4095 ++ bytesLE 6 0

theorem witness_SpansAndWindowsServe :
  (∃ (s : State) (p : List Byte) (g : Group), AdminHead s 0x22 24 p ∧ (let q := leAt p 4 2
    let im := leAt p 8 8
    s.group? (leAt p 0 4) = some g ∧ g.kind = 1 ∧ q ≤ 1023 ∧ (s.queue q).status ≠ .free ∧ (s.queue q).span = true ∧ s.queuePart q = g.partition ∧
    leAt p 7 1 = 0 ∧ allZero (p.drop 0x10) = true ∧ (im ≠ 0 → leAt p 6 1 ≤ 6 ∧ ∃ i, tabFind s.images im = some i ∧ i.partition = g.partition ∧
    (i.variant (2 ^ leAt p 6 1)).isSome = true) ∧ s.hopInFlight q = false)) ∧
  (∃ (s : State) (h q fp id : Nat) (r : List Byte) (po : List Nat) (g : Group) (im : Image) (v : Variant), s.running = true ∧
    s.handleOf (leAt r 4 4) = some h ∧ s.group? h = some g ∧ leAt r 0 2 = 0x5350 ∧ leAt r 2 2 = g.rank ∧ g.kind = 1 ∧ s.spanQueue h = some q ∧
    s.stagingUsed + r.length ≤ stagingBytes ∧ s.spanWait = [] ∧ s.spanPort = [] ∧ (∀ f ∈ s.fanStages, f.held = false) ∧
    (let z := { s with spanWait := [(q, r, po)] }
    let z := { s with spanWait := [(q, r, po)] }
    z.hopLeaves q = true ∧ (s.queue q).binding = some (h, fp, id) ∧ tabFind s.images id = some im ∧ im.variant (2 ^ fp) = some v ∧
    s.everFits q (2 ^ fp) = true)) ∧
  (∃ (s : State) (h q fp id : Nat) (r : List Byte) (po : List Nat) (g : Group) (im : Image) (v : Variant), s.running = true ∧
    s.handleOf (leAt r 4 4) = some h ∧ s.group? h = some g ∧ leAt r 0 2 = 0x5350 ∧ leAt r 2 2 = g.rank ∧ g.kind = 1 ∧ s.spanQueue h = some q ∧
    s.stagingUsed + r.length ≤ stagingBytes ∧ s.spanWait = [] ∧ s.spanPort = [] ∧ (∀ f ∈ s.fanStages, f.held = false) ∧
    (let z := { s with spanWait := [(q, r, po)] }
    let z := { s with spanWait := [(q, r, po)] }
    z.hopLeaves q = false)) ∧
  (∃ (s : State) (r : List Byte) (po : List Nat) (e : RetEntry) (off sem : Nat), s.running = true ∧ tabFind s.returns (leAt r 0x10 4) = some e ∧
    e.kind = .span off sem ∧ e.ended = false ∧ s.answers e r = true ∧ (s.cell e.cell).ingress = [] ∧
    (let gran := (List.range ((r.length + 63) / 64)).map (fun i => ((r.drop (64 * i)).take 64, po.contains i, off + 64 * i))
    (∀ p ∈ gran, calReaches (s.cell e.cell).calendar .ingress p.2.2 p.1.length = true) ∧ ((s.cell e.cell).sem sem).toNat < 65535 ∧
    (s.cell e.cell).semWaiters sem = [])) ∧
  (∃ (s : State) (tag off sem : Nat) (e : RetEntry), s.running = true ∧ tabFind s.returns tag = some e ∧ e.kind = .span off sem ∧ e.ended = false ∧
    (s.cell e.cell).ingress = [] ∧ calReaches (s.cell e.cell).calendar .ingress off 64 = true ∧ ((s.cell e.cell).sem sem).toNat < 65535 ∧
    (s.cell e.cell).semWaiters sem = []) ∧
  (∃ (s : State) (p : List Byte), AdminHead s 0x30 32 p ∧ (let c := leAt p 2 2
    let va := leAt p 8 8
    let size := leAt p 0x10 8
    let x := s.win (s.ctx c).partition (leAt p 0 1)
    (s.ctx c).used = true ∧ leAt p 1 1 ≠ 0 ∧ leAt p 1 1 ≤ 3 ∧ leAt p 4 4 ≠ 0 ∧ leAt p 4 4 ∉ x.lastKeys ∧ va % 65536 = 0 ∧ size % 65536 = 0 ∧
    65536 ≤ size ∧ size ≤ 2 ^ 34 ∧ va + size ≤ 2 ^ 48 ∧ leAt p 0x1E 2 = 0 ∧ s.dramOnly c va size = true ∧ x.opened = false)) ∧
  (∃ (s : State) (src tag part win key perm : Nat), s.running = true) ∧
  (∃ (s : State) (src tag part win key off n k : Nat) (wr : Bool) (bs : List Byte) (po : Bool), s.running = true ∧
    (s.win part win).check src key (if wr then 2 else 1) = k ∧ k ≠ 0) ∧
  (∃ (s : State) (src tag part win key off n : Nat) (bs : List Byte) (po : Bool), s.running = true ∧ (let x := s.win part win
    x.check src key 2 = 0 ∧ off + bs.length ≤ x.size ∧ s.allPresent x.context (x.vbase + off) bs.length = true)) ∧
  (∃ (s : State) (src tag part win key off n a e : Nat) (big : Bool) (bs : List Byte) (po : Bool), s.running = true ∧ (let x := s.win part win
    x.check src key 1 = 0 ∧ off + n ≤ x.size ∧ s.allPresent x.context (x.vbase + off) n = true ∧
    (spanPages (x.vbase + off) n).map (fun p => pagePart (x.vbase + off) n p) = [(a, n)] ∧ (s.ctx x.context).leaf a = some (e, big))) ∧
  (∃ (s : State) (p : List Byte), AdminHead s 0x31 8 p ∧ leAt p 2 6 = 0 ∧ leAt p 0 1 ≤ 15 ∧ (s.win (leAt p 0 1) (leAt p 1 1)).opened = true) ∧
  (∃ (s : State) (p win : Nat), s.running = true ∧ p < 16 ∧ (s.win p win).opened = true ∧ (s.win p win).closing = true) ∧
  (∃ (s : State) (p : List Byte), AdminHead s 0x32 16 p ∧ (s.ctx (leAt p 0 2)).used = true ∧ leAt p 2 1 ≠ 0 ∧ leAt p 2 1 ≤ 3 ∧ leAt p 7 1 ≤ 15 ∧
    leAt p 0xC 4 = 0 ∧ (tabFree s.imports 0 4096).isSome = true) ∧
  (∃ (s : State) (tag size i : Nat) (pr : Probe), s.running = true ∧ tabFind s.probes tag = some pr ∧ tabFree s.imports 0 4096 = some i) ∧
  (∃ (s : State) (tag c t rd va n y : Nat) (sx : Bool) (bs : List Byte) (r : WindowReq) (l : Launch), s.running = true ∧
    tabFind s.winReqs tag = some r ∧ r.user = .load c t ∧ s.launch? r.launch = some l ∧ (l.phase = .running ∨ l.phase = .marked) ∧
    (s.thread c t).waits = .vaLoad rd va n sx (some y)) ∧
  (∃ (s : State) (tag : Nat), s.running = true ∧ (tabFind s.probes tag).isSome = true) ∧
  (∃ (s : State) (p : List Byte) (im : Import), AdminHead s 0x33 8 p ∧ tabFind s.imports (leAt p 0 2) = some im ∧ leAt p 2 6 = 0 ∧
    im.releasing = false ∧ s.slotMapped (leAt p 0 2) = false) := by
  refine ⟨⟨testS16_1, testBind, testSpanGroup, testAdmHead (by decide +kernel), ?_, ?_, ?_, ?_, ?_, ?_, ?_, ?_, ?_, ?_⟩,
      ⟨testS16_2, 16, 5, 0, 1, testSpanRecord, [], testSpanGroup, testImage, testV16_3, ?_, ?_, ?_, ?_, ?_, ?_, ?_, ?_, ?_, ?_, ?_, ?_, ?_, ?_, ?_,
      ?_⟩, ⟨testS16_4, 16, 5, 0, 1, testSpanRecord, [], testSpanGroup, testImage, testV16_3, ?_, ?_, ?_, ?_, ?_, ?_, ?_, ?_, ?_, ?_, ?_, ?_⟩,
      ⟨testS16_5, testReturnRecord, [0], testSend, 0x1000, 63, ?_, ?_, ?_, ?_, ?_, ?_, ?_, ?_, ?_⟩, ⟨testS16_5, 4, 0x1000, 63, testSend, ?_, ?_, ?_,
      ?_, ?_, ?_, ?_, ?_⟩, ⟨testS16_6, testOpen, testAdmHead (by decide +kernel), ?_, ?_, ?_, ?_, ?_, ?_, ?_, ?_, ?_, ?_, ?_, ?_, ?_⟩,
      ⟨testS16_7, 12, 4, 0, 255, 77, 3, ?_⟩, ⟨testS16_8, 12, 4, 0, 255, 77, 0, 8, 2, true, [1#8], false, ?_, ?_, ?_⟩,
      ⟨testS16_7, 12, 4, 0, 255, 77, 0x1FFF8, 8, testV16_9, false, ?_, ?_, ?_, ?_⟩,
      ⟨testS16_7, 12, 4, 0, 255, 77, 0x1FFF8, 8, 0x1FFF8, testV16_10, false, [], false, ?_, ?_, ?_, ?_, ?_, ?_⟩,
      ⟨testS16_11, testV16_12, testAdmHead (by decide +kernel), ?_, ?_, ?_⟩, ⟨testS16_13, 0, 255, ?_, ?_, ?_, ?_⟩,
      ⟨testS16_14, testImportPayload, testAdmHead (by decide +kernel), ?_, ?_, ?_, ?_, ?_, ?_⟩, ⟨testS16_15, 4, 0x20000, 0, testProbe, ?_, ?_, ?_⟩,
      ⟨testS16_16, 4, 0, 0, 31, 0x10000, 8, 0x400000000000, false, bytesLE 8 77, testWinReq, testLaunch, ?_, ?_, ?_, ?_, ?_, ?_⟩, ⟨testS16_15, 4, ?_,
      ?_⟩, ⟨testS16_17, testV16_18, testImportOf, testAdmHead (by decide +kernel), ?_, ?_, ?_, ?_⟩⟩ <;> decide +kernel

def testDevice : State := { testPool with partitions := [(0, testPart)], images := [(1, testImage)], queues := [(5, testQueueOf)], host := { State.reset.host with fn := .active, bme := true }, contexts := [(1, { testCtx with saveBase := 0, saveSize := 0x20000 })], groups := [], tables := [], launches := [(1, testLaunch)] }
def testPartRecord : List Byte := testBlock 64 [(0, 1, 15), (2, 2, 2), (4, 2, 1), (6, 1, 1), (7, 1, 1), (8, 2, 1), (10, 2, 1)]
def testCtxRecord : List Byte := bytesLE 2 255 ++ bytesLE 1 0 ++ bytesLE 5 0 ++ bytesLE 8 0 ++ bytesLE 8 0x20000
def testLaunchHead : List Byte := bytesLE 1 1 ++ bytesLE 1 0 ++ bytesLE 2 0 ++ bytesLE 4 0 ++ bytesLE 8 9 ++ bytesLE 8 1
def testTaken : Launch := { testLaunch with phase := .taken, cells := [], queue := 5, image := 1 }
def testResident : Launch := { testLaunch with variant := { testLaunch.variant with residents := [{ spOff := 0, spLen := 64, dataOff := 0 }] }, loadsLeft := [0] }
def testPreempt : State := testQueueWith { testQueueOf with waits := true, priority := 3, pinSet := some 1#128 } testDevice testLaunchHead
def testSaved : Launch := { testLaunch with phase := .saved, queue := 5, cells := [], save := some (0, 256), preempted := true, walked := [(0, 0)] }
def testSaveHeader : List Byte := testBlock 256 [(0, 2, 0x5356), (2, 2, 1), (8, 8, 1), (0x28, 2, 1), (0x30, 4, 0x1200)]

def testS17_1 : State := testAdm testDevice 0x01 testPartRecord
def testS17_2 : State := testAdm { testDevice with contexts := [], launches := [], queues := [] } 0x02 (bytesLE 1 0 ++ bytesLE 7 0)
def testV17_3 : List Byte := bytesLE 1 0 ++ bytesLE 7 0
def testS17_4 : State := testAdm testDevice 0x03 (bytesLE 1 0 ++ bytesLE 7 0)
def testS17_5 : State := testWaiting { testDevice with partitions := [(0, { testPart with state := .resetting })], launches := [], queues := [] } (.partition 0)
def testS17_6 : State := testAdm testDevice 0x08 testCtxRecord
def testS17_7 : State := testAdm testDevice 0x09 (bytesLE 2 1 ++ bytesLE 6 0)
def testV17_8 : List Byte := bytesLE 2 1 ++ bytesLE 6 0
def testS17_9 : State := testWaiting { testDevice with contexts := [(1, { testCtx with dying := true })], launches := [], queues := [] } (.context 1)
def testS17_10 : State := testWaiting { testDevice with contexts := [(1, { testCtx with dying := true })] } (.context 1)
def testS17_11 : State := testWaiting { testDevice with drains := [⟨3, 1, 0x10000, 0x10000, [], none, false⟩], launches := [], cells := [] } (.drain 3)
def testV17_12 : Drain := ⟨3, 1, 0x10000, 0x10000, [], none, false⟩

theorem witness_PartitionsAndContexts :
  (∃ (s : State) (r : List Byte), AdminHead s 0x01 64 r ∧ partRecordOk r = true ∧ (s.part (leAt r 0 1)).state = .free ∧ s.partFits r = true) ∧
  (∃ (s : State) (r : List Byte), AdminHead s 0x02 8 r ∧ leAt r 0 1 ≤ 15 ∧ leAt r 1 7 = 0 ∧ (s.part (leAt r 0 1)).state = .active ∧
    (∀ c ∈ s.contexts, ¬ (c.2.used = true ∧ c.2.partition = leAt r 0 1))) ∧
  (∃ (s : State) (r : List Byte), AdminHead s 0x03 8 r ∧ leAt r 0 1 ≤ 15 ∧ leAt r 1 7 = 0 ∧ (s.part (leAt r 0 1)).state = .active) ∧
  (∃ (s : State) (p : Nat), s.running = true ∧ p < 16 ∧ (s.part p).state = .resetting ∧ s.launchesQuiet (fun l => l.partition == p) = true ∧
    (∀ q ∈ s.queues, q.2.status ≠ .free → s.queuePart q.1 = p → s.queueDead q.1 = true)) ∧
  (∃ (s : State) (b : List Byte), AdminHead s 0x08 24 b ∧ leAt b 0 2 ≤ 255 ∧ leAt b 2 1 ≤ 15 ∧ (s.part (leAt b 2 1)).state = .active ∧
    leAt b 3 5 = 0 ∧ leAt b 8 8 % 65536 = 0 ∧ leAt b 0x10 8 % 65536 = 0 ∧ leAt b 8 8 + leAt b 0x10 8 ≤ 2 ^ 48 ∧ (s.ctx (leAt b 0 2)).used = false ∧
    (s.contexts.filter (fun x => x.2.used && x.2.partition == leAt b 2 1)).length < (s.part (leAt b 2 1)).contexts.toNat) ∧
  (∃ (s : State) (b : List Byte), AdminHead s 0x09 8 b ∧ (s.ctx (leAt b 0 2)).used = true ∧ (s.ctx (leAt b 0 2)).dying = false ∧ leAt b 2 6 = 0) ∧
  (∃ (s : State) (c : Nat), s.running = true ∧ (s.ctx c).dying = true ∧ (s.part (s.ctx c).partition).state = .active ∧ s.teardownSafe c = true ∧
    (∀ q ∈ s.queues, q.2.status ≠ .free → q.2.context = c → s.queueDead q.1 = true) ∧
    s.drained { id := 0, context := c, va := 0, length := 0, big := [], slot := none, move := false } = true ∧ tabSorted s.contexts = true) ∧
  (∃ (s : State) (c : Nat), s.running = true ∧ (s.ctx c).dying = true ∧ s.teardownSafe c = false ∧ (s.part (s.ctx c).partition).state = .active) ∧
  (∃ (s : State) (id : Nat) (d : Drain), s.running = true ∧ s.drains.find? (fun d => d.id == id) = some d ∧ s.drained d = true ∧
    (∀ w ∈ s.admin.work, w.waits ≠ .unmap id d.context)) := by
  refine ⟨⟨testS17_1, testPartRecord, testAdmHead (by decide +kernel), ?_, ?_, ?_⟩, ⟨testS17_2, testV17_3, testAdmHead (by decide +kernel), ?_, ?_,
      ?_, ?_⟩, ⟨testS17_4, testV17_3, testAdmHead (by decide +kernel), ?_, ?_, ?_⟩, ⟨testS17_5, 0, ?_, ?_, ?_, ?_, ?_⟩,
      ⟨testS17_6, testCtxRecord, testAdmHead (by decide +kernel), ?_, ?_, ?_, ?_, ?_, ?_, ?_, ?_, ?_⟩,
      ⟨testS17_7, testV17_8, testAdmHead (by decide +kernel), ?_, ?_, ?_⟩, ⟨testS17_9, 1, ?_, ?_, ?_, ?_, ?_, ?_, ?_⟩, ⟨testS17_10, 1, ?_, ?_, ?_,
      ?_⟩, ⟨testS17_11, 3, testV17_12, ?_, ?_, ?_, ?_⟩⟩ <;> decide +kernel

def testS17_13 : State := testQueue testDevice (testHead 0 [])
def testV17_14 : List Byte := testSlotBytes (testHead 0 [])
def testS17_15 : State := testQueue testDevice testLaunchHead
def testV17_16 : List Byte := testSlotBytes testLaunchHead
def testV17_17 : Variant := testLaunch.variant
def testS17_18 : State := { testDevice with launches := [(1, testTaken)], cells := [] }
def testS17_19 : State := testTlb { testDevice with launches := [(1, testResident)] } (tlbOf (.resident 0))
def testV17_20 : List (Nat × Launch) := [(1, { testLaunch with save := some (0, saveBytes testLaunch.variant) })]
def testS17_21 : State := { testDevice with launches := [(1, { testLaunch with phase := .marked })], cells := [(0, { testDevice.cell 0 with layerCount := 16383#14 })] }
def testL17_22 : Launch := { testLaunch with phase := .marked }
def testS17_23 : State := { testDevice with launches := [(1, { testLaunch with phase := .marked, save := some (0, 256), walked := [(0, 0)] })], cells := [(0, { testDevice.cell 0 with layer := .halted, threads := [] })] }
def testL17_24 : Launch := { testLaunch with phase := .marked, save := some (0, 256), walked := [(0, 0)] }
def testS17_25 : State := { testDevice with launches := [(1, { testLaunch with phase := .saving, save := some (0, 256) })] }
def testL17_26 : Launch := { testLaunch with phase := .saving, save := some (0, 256) }
def testS17_27 : State := { testDevice with launches := [(1, testSaved)], cells := [], dram := testMemory [(0x20000, testSaveHeader)] }
def testS17_28 : State := testAdm { testDevice with dram := testMemory [(0x20000, testSaveHeader)] } 0x39 (bytesLE 2 5 ++ bytesLE 6 0 ++ bytesLE 8 0)
def testV17_29 : List Byte := bytesLE 2 5 ++ bytesLE 6 0 ++ bytesLE 8 0
def testS17_30 : State := testAdm { testDevice with launches := [(1, testSaved)], cells := [] } 0x3A (bytesLE 2 5 ++ bytesLE 6 0 ++ bytesLE 8 7)
def testV17_31 : List Byte := bytesLE 2 5 ++ bytesLE 6 0 ++ bytesLE 8 7

theorem witness_LaunchesAreTakenPlacedAndPreempted :
  (∃ (s : State) (q : Nat) (b : List Byte), QueueHead s q 0 b) ∧
  (∃ (s : State) (q : Nat) (b : List Byte) (im : Image) (v : Variant), QueueHead s q 1 b ∧ tabFind s.images (chImageId b) = some im ∧
    im.variant (2 ^ chFpLog2 b) = some v) ∧
  (∃ (s : State) (lid : Nat) (l : Launch) (cells : List Nat), s.running = true ∧ s.launch? lid = some l ∧ l.phase = .taken ∧
    s.everFits l.queue l.variant.footprint = true ∧ s.outranked l.partition l.priority = false ∧
    s.choosePlacement l.queue l.image l.variant.footprint (s.freeCells l.queue) = some cells ∧ cells.Nodup) ∧
  (∃ (s : State) (c lid : Nat) (l : Launch), OnCell s c ∧ s.activeLaunch c = some (lid, l) ∧ (s.cell c).rank ∈ l.loadsLeft ∧
    (let r := l.variant.resident (s.cell c).rank
    (∃ b po su, s.tread (tlbOf (.resident c)) (match tabFind s.images l.image with | some im => im.context | none => l.context) .read (l.imageBase + r.dataOff) r.spLen = .ok b po su))) ∧
  (∃ (s : State) (q im f : Nat) (vs : List (Nat × Launch)), s.running = true ∧ q < 1024 ∧ s.waitingFor q = some (im, f) ∧
    ((s.queue q).preempting && s.preempts (s.queuePart q)) = false ∧
    (s.victimPrefix q im f (s.freeCells q) [] ((s.candidates q).filter (fun l => (s.freeRun l.2.context (saveBytes l.2.variant) []).isSome))).1 = some vs) ∧
  (∃ (s : State) (lid : Nat) (l : Launch), s.running = true ∧ s.launch? lid = some l ∧ l.phase = .marked ∧ l.target = none ∧ l.cells.Nodup) ∧
  (∃ (s : State) (lid a n p0 : Nat) (l : Launch), s.running = true ∧ s.launch? lid = some l ∧ l.phase = .marked ∧
    (∀ c ∈ l.cells, (s.cell c).layer = .halted ∧ (s.cell c).quiet = true) ∧ (∀ r ∈ s.returns, r.2.launch ≠ lid) ∧ l.save = some (a, n) ∧
    PagesWalked s lid l (saveCell l.cells a (0x1200 + l.variant.extent)) l.context .write a (saveBytes l.variant) p0) ∧
  (∃ (s : State) (lid a n : Nat) (l : Launch), s.running = true ∧ s.launch? lid = some l ∧ l.phase = .saving ∧ l.save = some (a, n)) ∧
  (∃ (s : State) (lid a n p0 : Nat) (l : Launch) (cells : List Nat) (h : List Byte) (po su : Bool), s.running = true ∧ s.launch? lid = some l ∧
    l.phase = .saved ∧ l.save = some (a, n) ∧ s.everFits l.queue l.variant.footprint = true ∧ s.mayResume l = true ∧
    s.choosePlacement l.queue l.image l.variant.footprint (s.freeCells l.queue) = some cells ∧
    PagesWalked s lid l (fun _ => cells.headD 0) l.context .read a 256 p0 ∧ s.vread l.context .read a 256 = .ok h po su ∧
    PagesWalked s lid l (saveCell cells a (leAt h 0x30 4)) l.context .read a (256 + l.variant.footprint * leAt h 0x30 4) p0) ∧
  (∃ (s : State) (p h : List Byte) (su : Bool) (im : Image) (v : Variant), AdminHead s 0x39 16 p ∧ (let q := leAt p 0 2
    let a := leAt p 8 8
    let f := leAt h 0x28 2
    let recs := (List.range f).map (fun i => s.vread (s.queue q).context .read (a + 256 + i * leAt h 0x30 4) 0x1200)
    q ≤ 1023 ∧ (s.queue q).status = .active ∧ leAt p 2 6 = 0 ∧ a % 256 = 0 ∧ s.saveOpen (s.queue q).context a = true ∧
    s.vread (s.queue q).context .read a 256 = .ok h false su ∧ leAt h 0 2 = 0x5356 ∧ leAt h 2 2 = 1 ∧ saveRsvOk h = true ∧
    tabFind s.images (leAt h 8 8) = some im ∧ im.partition = s.queuePart q ∧ im.variant f = some v ∧ leAt h 0x2C 4 ≤ scratchBytes ∧
    s.everFits q f = true ∧ (∀ i, i < leAt h 0x42 1 → ∃ g, s.handleOf (leAt h (0x48 + 16 * i) 4) = some g ∧ s.handleIn (s.queuePart q) g = true) ∧
    (∀ r ∈ recs, ∃ b po s2, r = .ok b po s2 ∧ recordRsvOk b = true))) ∧
  (∃ (s : State) (p : List Byte) (lid : Nat) (l : Launch), AdminHead s 0x3A 16 p ∧
    s.launches.find? (fun l => l.2.queue == leAt p 0 2 && l.2.launchId.toNat == leAt p 8 8 && l.2.phase == .saved) = some (lid, l) ∧ leAt p 2 6 = 0) := by
  refine ⟨⟨testS17_13, 5, testV17_14, testQueueHead (by decide +kernel)⟩,
      ⟨testS17_15, 5, testV17_16, testImage, testV17_17, testQueueHead (by decide +kernel), ?_, ?_⟩, ⟨testS17_18, 1, testTaken, [0], ?_, ?_, ?_, ?_,
      ?_, ?_, ?_⟩, ⟨testS17_19, 0, 1, testResident, (by constructor <;> decide +kernel), ?_, ?_, testReads (by decide +kernel)⟩,
      ⟨testPreempt, 5, 1, 1, testV17_20, ?_, ?_, ?_, ?_, ?_⟩, ⟨testS17_21, 1, testL17_22, ?_, ?_, ?_, ?_, ?_⟩, ⟨testS17_23, 1, 0, 256, 0, testL17_24,
      ?_, ?_, ?_, ?_, ?_, ?_, testPages (by decide +kernel)⟩, ⟨testS17_25, 1, 0, 256, testL17_26, ?_, ?_, ?_, ?_⟩,
      ⟨testS17_27, 1, 0, 256, 0, testSaved, [0], testSaveHeader, false, false, ?_, ?_, ?_, ?_, ?_, ?_, ?_, testPages (by decide +kernel),
      ?_, testPages (by decide +kernel)⟩, ⟨testS17_28, testV17_29, testSaveHeader, false, testImage, testV17_17, testAdmHead (by decide +kernel), ?_,
      ?_, ?_, ?_, ?_, ?_, ?_, ?_, ?_, ?_, ?_, ?_, ?_, ?_, ?_, testReadsOk (by decide +kernel)⟩,
      ⟨testS17_30, testV17_31, 1, testSaved, testAdmHead (by decide +kernel), ?_, ?_⟩⟩ <;> decide +kernel

def testPin (typ pin clr obj key val : Nat) : List Byte := bytesLE 1 typ ++ bytesLE 1 pin ++ bytesLE 1 clr ++ bytesLE 1 0 ++ bytesLE 2 obj ++ bytesLE 2 0 ++ bytesLE 8 key ++ bytesLE 16 val
def testQuarter : Quarter := { partition := 0, context := 1, block := 0, heat := 400, fetched := 7 }
def testQuarters : State := { testDevice with quarters := [(4, testQuarter)], contexts := [(1, { testCtx with blocks := [(0, 4)] })], partitions := [(0, { testPart with frameList := [1, 129] })] }
def testMove (ph : MigPhase) : Migration := { src := 4, dst := 516, context := 1, block := 0, phase := ph }
def testRinging (f : Queue → Queue) : State := { testDevice with queues := [(5, f testQueueOf)], host := { testDevice.host with rate := 1 } }
def testQueueRecord : List Byte := testBlock 64 [(0, 2, 1023), (2, 2, 1), (4, 1, 7), (5, 1, 6), (6, 2, 0xFFFF), (8, 4, 0x200000), (12, 4, 1), (16, 8, 0x2000), (24, 2, 1)]
def testCmdWork : CmdWork := CmdWork.mk 3 7#64 4 false 16 9#64 0 0 0 true 0#64
def testAdminState (f : Admin → Admin) : State := { testDevice with admin := f { testDevice.admin with running := true }, host := { testDevice.host with rate := 1 } }
def testVariantBytes : List Byte := testBlock 128 [(0, 2, 1), (0x10, 8, 64), (0x18, 4, 10)]
def testImageBytes : List Byte := testBlock 24 [(0, 4, 0x5052474D), (4, 2, 1), (6, 1, 1), (8, 4, 0x820), (12, 1, 0x21), (16, 8, 384)] ++ sha384 testVariantBytes
  ++ testBlock 184 [(56, 1, 1), (64, 8, 0x100)] ++ testVariantBytes

def testS18_1 : State := testAdm testDevice 0x38 (testPin 2 4 0 0 1 0)
def testV18_2 : List Byte := testPin 2 4 0 0 1 0
def testS18_3 : State := testAdm testQuarters 0x38 (testPin 0 1 0 1 0 0)
def testV18_4 : List Byte := testPin 0 1 0 1 0 0
def testS18_5 : State := testAdm testQuarters 0x38 (testPin 0 0 1 1 0 0)
def testV18_6 : List Byte := testPin 0 0 1 1 0 0
def testS18_7 : State := testAdm testQuarters 0x38 (testPin 0 0 0 1 0 1)
def testV18_8 : List Byte := testPin 0 0 0 1 0 1
def testS18_9 : State := testAdm testDevice 0x38 (testPin 1 2 1 5 0 0)
def testV18_10 : List Byte := testPin 1 2 1 5 0 0
def testS18_11 : State := testAdm testDevice 0x38 (testPin 1 3 1 5 0 0)
def testV18_12 : List Byte := testPin 1 3 1 5 0 0
def testS18_13 : State := testAdm testDevice 0x38 (testPin 1 2 0 5 0 1)
def testV18_14 : List Byte := testPin 1 2 0 5 0 1
def testS18_15 : State := testAdm testDevice 0x38 (testPin 1 3 0 5 0 0xF)
def testV18_16 : List Byte := testPin 1 3 0 5 0 0xF
def testS18_17 : State := { testQuarters with migration := some (testMove .copying) }
def testV18_18 : Migration := testMove .copying
def testS18_19 : State := { testQuarters with migration := some (testMove .draining), cells := [], launches := [] }
def testV18_20 : Migration := testMove .draining

theorem witness_PinsAndMigration :
  (∃ (s : State) (p : List Byte) (im : Image), AdminHead s 0x38 32 p ∧ leAt p 0 1 = 2 ∧ leAt p 1 1 = 4 ∧ leAt p 2 1 ≤ 1 ∧ leAt p 3 1 = 0 ∧
    leAt p 4 2 = 0 ∧ leAt p 6 2 = 0 ∧ allZero ((p.drop 0x10).take 16) = true ∧ tabFind s.images (leAt p 8 8) = some im) ∧
  (∃ (s : State) (p : List Byte) (k : Nat), AdminHead s 0x38 32 p ∧ leAt p 0 1 = 0 ∧ leAt p 2 1 ≤ 1 ∧ leAt p 3 1 = 0 ∧ leAt p 6 2 = 0 ∧
    (s.ctx (leAt p 4 2)).used = true ∧ leAt p 8 8 % 2 ^ 28 = 0 ∧ tabFind (s.ctx (leAt p 4 2)).blocks (leAt p 8 8 / 2 ^ 28) = some k ∧ leAt p 1 1 = 1 ∧
    allZero ((p.drop 0x10).take 16) = true) ∧
  (∃ (s : State) (p : List Byte) (k : Nat), AdminHead s 0x38 32 p ∧ leAt p 0 1 = 0 ∧ leAt p 2 1 ≤ 1 ∧ leAt p 3 1 = 0 ∧ leAt p 6 2 = 0 ∧
    (s.ctx (leAt p 4 2)).used = true ∧ leAt p 8 8 % 2 ^ 28 = 0 ∧ tabFind (s.ctx (leAt p 4 2)).blocks (leAt p 8 8 / 2 ^ 28) = some k ∧ leAt p 1 1 = 0 ∧
    leAt p 2 1 = 1 ∧ allZero ((p.drop 0x11).take 15) = true) ∧
  (∃ (s : State) (p : List Byte) (k : Nat), AdminHead s 0x38 32 p ∧ leAt p 0 1 = 0 ∧ leAt p 2 1 ≤ 1 ∧ leAt p 3 1 = 0 ∧ leAt p 6 2 = 0 ∧
    (s.ctx (leAt p 4 2)).used = true ∧ leAt p 8 8 % 2 ^ 28 = 0 ∧ tabFind (s.ctx (leAt p 4 2)).blocks (leAt p 8 8 / 2 ^ 28) = some k ∧
    (let x := s.ctx (leAt p 4 2)
    let x := s.ctx (leAt p 4 2)
    leAt p 1 1 = 0 ∧ leAt p 2 1 = 0 ∧ allZero ((p.drop 0x11).take 15) = true ∧ leAt p 0x10 1 ≤ 3 ∧
    (quarterStack k = leAt p 0x10 1 ∨ (s.freeIn x.partition (leAt p 0x10 1)).isSome = true))) ∧
  (∃ (s : State) (p : List Byte), AdminHead s 0x38 32 p ∧ leAt p 0 1 = 1 ∧ leAt p 2 1 ≤ 1 ∧ leAt p 3 1 = 0 ∧ leAt p 6 2 = 0 ∧ leAt p 4 2 ≤ 1023 ∧
    leAt p 8 8 = 0 ∧ (let q := leAt p 4 2
    (s.queue q).status ≠ .free ∧ leAt p 2 1 = 1 ∧ leAt p 1 1 = 2 ∧ allZero ((p.drop 0x12).take 14) = true)) ∧
  (∃ (s : State) (p : List Byte), AdminHead s 0x38 32 p ∧ leAt p 0 1 = 1 ∧ leAt p 2 1 ≤ 1 ∧ leAt p 3 1 = 0 ∧ leAt p 6 2 = 0 ∧ leAt p 4 2 ≤ 1023 ∧
    leAt p 8 8 = 0 ∧ (let q := leAt p 4 2
    (s.queue q).status ≠ .free ∧ leAt p 2 1 = 1 ∧ leAt p 1 1 = 3)) ∧
  (∃ (s : State) (p : List Byte), AdminHead s 0x38 32 p ∧ leAt p 0 1 = 1 ∧ leAt p 2 1 ≤ 1 ∧ leAt p 3 1 = 0 ∧ leAt p 6 2 = 0 ∧ leAt p 4 2 ≤ 1023 ∧
    leAt p 8 8 = 0 ∧ (let q := leAt p 4 2
    let combs := (s.part (s.queuePart q)).combMask
    let mask := BitVec.ofNat 16 (leAt p 0x10 2)
    (s.queue q).status ≠ .free ∧ leAt p 2 1 = 0 ∧ leAt p 1 1 = 2 ∧ allZero ((p.drop 0x12).take 14) = true ∧ mask ≠ 0#16 ∧ mask &&& ~~~ combs = 0#16)) ∧
  (∃ (s : State) (p : List Byte), AdminHead s 0x38 32 p ∧ leAt p 0 1 = 1 ∧ leAt p 2 1 ≤ 1 ∧ leAt p 3 1 = 0 ∧ leAt p 6 2 = 0 ∧ leAt p 4 2 ≤ 1023 ∧
    leAt p 8 8 = 0 ∧ (let q := leAt p 4 2
    let combs := (s.part (s.queuePart q)).combMask
    let set := BitVec.ofNat 128 (leAt p 0x10 16)
    let cells := (List.range 128).filter (fun c => set.getLsbD c)
    (s.queue q).status ≠ .free ∧ leAt p 2 1 = 0 ∧ leAt p 1 1 = 3 ∧ (∀ c ∈ cells, combs.getLsbD (combOf c) = true ∧ s.outOfUse c = false) ∧
    shapeSet cells = true)) ∧
  (∃ (s : State), s.running = true) ∧
  (∃ (s : State) (m : Migration) (q : Quarter), s.running = true ∧ s.migration = some m ∧ (m.phase = .copied ∨ (m.phase = .copying ∧
    (s.stackTherm (quarterStack m.src)).stage = 0 ∧ (s.stackTherm (quarterStack m.dst)).stage = 0)) ∧ s.forwardIn m.src = false ∧
    tabFind s.quarters m.src = some q ∧ s.damage = [] ∧ s.fixups = [] ∧ s.outsideHolds m.src q = false ∧
    (s.setCtx m.context ((s.ctx m.context).remap m.block m.src m.dst)).ptStoreBytes ≤ 671088640 ∧
    ((s.copyQuarter m.src m.dst).moveLines m.src m.dst).isSome = true) ∧
  (∃ (s : State) (m : Migration), s.running = true ∧ s.migration = some m ∧ m.phase = .draining ∧
    (∀ d ∈ s.drains, d.move = true → s.drained d = true) ∧ (∀ q ∈ s.quarters, ((s.ctx q.2.context).pin q.2.block).stack = none)) := by
  refine ⟨⟨testS18_1, testV18_2, testImage, testAdmHead (by decide +kernel), ?_, ?_, ?_, ?_, ?_, ?_, ?_, ?_⟩,
      ⟨testS18_3, testV18_4, 4, testAdmHead (by decide +kernel), ?_, ?_, ?_, ?_, ?_, ?_, ?_, ?_, ?_⟩,
      ⟨testS18_5, testV18_6, 4, testAdmHead (by decide +kernel), ?_, ?_, ?_, ?_, ?_, ?_, ?_, ?_, ?_, ?_⟩,
      ⟨testS18_7, testV18_8, 4, testAdmHead (by decide +kernel), ?_, ?_, ?_, ?_, ?_, ?_, ?_, ?_, ?_, ?_, ?_, ?_⟩,
      ⟨testS18_9, testV18_10, testAdmHead (by decide +kernel), ?_, ?_, ?_, ?_, ?_, ?_, ?_, ?_, ?_, ?_⟩,
      ⟨testS18_11, testV18_12, testAdmHead (by decide +kernel), ?_, ?_, ?_, ?_, ?_, ?_, ?_, ?_, ?_⟩,
      ⟨testS18_13, testV18_14, testAdmHead (by decide +kernel), ?_, ?_, ?_, ?_, ?_, ?_, ?_, ?_, ?_, ?_, ?_, ?_⟩,
      ⟨testS18_15, testV18_16, testAdmHead (by decide +kernel), ?_, ?_, ?_, ?_, ?_, ?_, ?_, ?_, ?_, ?_, ?_⟩, ⟨testQuarters, ?_⟩,
      ⟨testS18_17, testV18_18, testQuarter, ?_, ?_, ?_, ?_, ?_, ?_, ?_, ?_, ?_, ?_⟩, ⟨testS18_19, testV18_20, ?_, ?_, ?_, ?_, ?_⟩⟩ <;> decide +kernel

def testS18_21 : State := testRinging (fun x => { x with taken := 1#64 })
def testS18_22 : State := testRinging id
def testS18_23 : State := testRinging (fun x => { x with posted := 3#64 })
def testS18_24 : State := testRinging (fun x => { x with ready := [.cmd 7#64 3 0 0 false 5000], outstanding := 1, posted := 64#64 })
def testS18_25 : State := { testRinging (fun x => { x with ready := [.launch 1], outstanding := 1 }) with launches := [(1, { testLaunch with phase := .ended, status := some 0 })], cells := [] }
def testL18_26 : Launch := { testLaunch with phase := .ended, status := some 0 }
def testS18_27 : State := testRinging (fun x => { x with irqCount := 2, msix := 2047 })
def testS18_28 : State := { testRinging id with launches := [(1, { testLaunch with queue := 5 })] }
def testL18_29 : Launch := { testLaunch with queue := 5 }
def testS18_30 : State := testRinging (fun x => { x with work := [testCmdWork] })
def testS18_31 : State := testAdm testDevice 0x10 testQueueRecord
def testS18_32 : State := testAdm testDevice 0x11 (bytesLE 2 5 ++ bytesLE 6 0)
def testV18_33 : List Byte := bytesLE 2 5 ++ bytesLE 6 0
def testS18_34 : State := testWaiting { testRinging (fun x => { x with status := .dying, cause := stQueueDestroyed }) with launches := [], cells := [] } (.queue 5)
def testS18_35 : State := testAdm (testRinging (fun x => { x with status := .orphaned, taken := 9#64 })) 0x12 (bytesLE 2 5 ++ bytesLE 6 0 ++ bytesLE 8 0x4000)
def testV18_36 : List Byte := bytesLE 2 5 ++ bytesLE 6 0 ++ bytesLE 8 0x4000

theorem witness_QueuesDoorbellsAndRecords :
  (∃ (s : State) (q : Nat) (v : DWord), s.running = true ∧ q < 1024 ∧ s.hostLanded none = true ∧ (∀ r ∈ s.spanWait, r.1 ≠ q) ∧ s.spanPort = [] ∧
    (∀ f ∈ s.fanStages, f.held = false) ∧ (s.queue q).tailOk true v = true) ∧
  (∃ (s : State) (q : Nat) (w : Bool) (v : DWord), s.running = true ∧ q < 1024 ∧ s.hostLanded none = true ∧ (∀ r ∈ s.spanWait, r.1 ≠ q) ∧
    s.spanPort = [] ∧ (∀ f ∈ s.fanStages, f.held = false) ∧ (s.queue q).tailOk w v = false) ∧
  (∃ (s : State) (q : Nat) (w : Bool) (v : DWord), s.running = true ∧ q < 1024 ∧ s.hostLanded none = true ∧ (∀ r ∈ s.spanWait, r.1 ≠ q) ∧
    s.spanPort = [] ∧ (∀ f ∈ s.fanStages, f.held = false) ∧ (s.queue q).tailOk w v = false) ∧
  (∃ (s : State) (q : Nat) (v : DWord), s.running = true ∧ q < 1024 ∧ s.hostLanded none = true ∧ (∀ r ∈ s.spanWait, r.1 ≠ q) ∧ s.spanPort = [] ∧
    (∀ f ∈ s.fanStages, f.held = false) ∧ (s.queue q).cqHeadOk true v = true) ∧
  (∃ (s : State) (q n st d ns : Nat) (id : DWord) (irq : Bool) (rest : List Ready), s.running = true ∧ q < 1024 ∧ s.postRoom 32 = true ∧
    (s.queue q).ready = .cmd id n st d irq ns :: rest ∧ (s.queue q).ringLost = false) ∧
  (∃ (s : State) (q l : Nat) (y : Launch) (rest : List Ready), s.running = true ∧ q < 1024 ∧ s.postRoom 32 = true ∧
    (s.queue q).ready = .launch l :: rest ∧ s.launch? l = some y ∧ s.launchQuiet l y = true ∧ (s.queue q).ringLost = false) ∧
  (∃ (s : State) (q : Nat), s.running = true ∧ q < 1024 ∧ (s.queue q).irqCount ≠ 0 ∧ (s.queue q).msix ≠ 0xFFFF ∧ s.host.discarding = false ∧
    s.holdsPosts = false) ∧
  (∃ (s : State) (q l : Nat) (x : Launch), s.running = true ∧ q < 1024 ∧ s.launch? l = some x ∧ x.queue = q ∧
    (x.phase = .running ∨ x.phase = .marked ∨ x.phase = .saving)) ∧
  (∃ (s : State) (q n : Nat) (k : CmdWork), s.running = true ∧ q < 1024 ∧ (s.queue q).work.find? (fun k => k.index == n && k.kind != 3) = some k ∧
    (∀ j ∈ (s.queue q).work, j.index = n → j.kind ≠ 3) ∧ (s.queue q).status ≠ .dying) ∧
  (∃ (s : State) (b : List Byte), AdminHead s 0x10 64 b ∧ (let q := leAt b 0 2
    let c := leAt b 2 2
    let p := (s.ctx c).partition
    let live := s.queues.filter (fun k => k.2.status != QueueStatus.free)
    queueFieldsOk b = true ∧ (s.ctx c).used = true ∧ (s.ctx c).dying = false ∧ (s.part p).state = .active ∧
    s.ringOverlaps (leAt b 8 4) (2 ^ leAt b 5 1 * 512) = false ∧ (s.queue q).status = .free ∧
    (live.filter (fun k => s.queuePart k.1 == p)).length < (s.part p).queues.toNat ∧ (live.filter (fun k => k.2.context == c)).length < 16)) ∧
  (∃ (s : State) (b : List Byte), AdminHead s 0x11 8 b ∧ leAt b 0 2 ≤ 1023 ∧ leAt b 2 6 = 0 ∧ (s.queue (leAt b 0 2)).status ≠ .free) ∧
  (∃ (s : State) (q : Nat), s.running = true ∧ q < 1024 ∧ s.queueDead q = true ∧ (s.ctx (s.queue q).context).dying = false ∧
    (s.part (s.queuePart q)).state ≠ .resetting) ∧
  (∃ (s : State) (b : List Byte), AdminHead s 0x12 16 b ∧ leAt b 0 2 ≤ 1023 ∧ leAt b 2 6 = 0 ∧ leAt b 8 8 % 4096 = 0 ∧
    (s.queue (leAt b 0 2)).status = .orphaned ∧ (s.queue (leAt b 0 2)).parked = []) := by
  refine ⟨⟨testS18_21, 5, 65#64, ?_, ?_, ?_, ?_, ?_, ?_, ?_⟩, ⟨testS18_22, 5, true, 1#64, ?_, ?_, ?_, ?_, ?_, ?_, ?_⟩, ⟨testS18_22, 5, false, 2#64,
      ?_, ?_, ?_, ?_, ?_, ?_, ?_⟩, ⟨testS18_23, 5, 3#64, ?_, ?_, ?_, ?_, ?_, ?_, ?_⟩, ⟨testS18_24, 5, 3, 0, 0, 5000, 7#64, false, [], ?_, ?_, ?_, ?_,
      ?_⟩, ⟨testS18_25, 5, 1, testL18_26, [], ?_, ?_, ?_, ?_, ?_, ?_, ?_⟩, ⟨testS18_27, 5, ?_, ?_, ?_, ?_, ?_, ?_⟩, ⟨testS18_28, 5, 1, testL18_29,
      ?_, ?_, ?_, ?_, ?_⟩, ⟨testS18_30, 5, 3, testCmdWork, ?_, ?_, ?_, ?_, ?_⟩, ⟨testS18_31, testQueueRecord, testAdmHead (by decide +kernel), ?_,
      ?_, ?_, ?_, ?_, ?_, ?_, ?_⟩, ⟨testS18_32, testV18_33, testAdmHead (by decide +kernel), ?_, ?_, ?_⟩, ⟨testS18_34, 5, ?_, ?_, ?_, ?_, ?_⟩,
      ⟨testS18_35, testV18_36, testAdmHead (by decide +kernel), ?_, ?_, ?_, ?_, ?_⟩⟩ <;> decide +kernel

def testS18_37 : State := { testAdm testDevice 0x50 (bytesLE 8 ctlBase) with admin := { testDevice.admin with running := true } }
def testS18_38 : State := testAdminState (fun a => { a with posted := 3#64 })
def testS18_39 : State := testAdminState (fun a => { a with notes := 3#64 })
def testS18_40 : State := testAdminState id
def testS18_41 : State := testAdminState (fun a => { a with holdoff := true, irqPending := true, irqEn := true })
def testS18_42 : State := testAdminState (fun a => { a with holdoff := true })
def testS18_43 : State := testAdm { testDevice with dram := testMemory [(0x30000, testImageBytes)] } 0x18 (bytesLE 2 1 ++ bytesLE 6 0 ++ bytesLE 8 0x10000 ++ bytesLE 8 384)
def testV18_44 : List Byte := bytesLE 2 1 ++ bytesLE 6 0 ++ bytesLE 8 0x10000 ++ bytesLE 8 384
def testV18_45 : List Variant := [{ testLaunch.variant with extent := 0 }]
def testS18_46 : State := testAdm { testDevice with launches := [], cells := [] } 0x19 (bytesLE 8 1)
def testS18_47 : State := testAdm testDevice 0x50 (bytesLE 8 (ctlBase + 2 ^ 32 - 8))
def testV18_48 : List Byte := bytesLE 8 (ctlBase + 2 ^ 32 - 8)
def testS18_49 : State := testAdm testDevice 0x51 (bytesLE 8 ctlBase)
def testV18_50 : List Byte := bytesLE 8 ctlBase
def testS18_51 : State := testAdminState (fun a => { a with posted := 255#64, start := 1 })

theorem witness_AdminQueueImagesAndRegisters :
  (∃ (s : State) (v : DWord), s.running = true ∧ s.hostLanded none = true ∧ s.admin.running = true ∧ s.admin.tail.ult v = true ∧
    (let z := { s with admin := { s.admin with tail := v } }
    (z.admReady = false ∨ z.admRefusal z.admSlot = none))) ∧
  (∃ (s : State) (v : DWord), s.running = true ∧ s.admin.running = true ∧ s.admin.cqHead.ult v = true ∧ s.admin.posted.ult v = false) ∧
  (∃ (s : State) (v : DWord), s.running = true ∧ s.admin.noteHead.ult v = true ∧ s.admin.notes.ult v = false ∧ s.admin.held = [] ∧
    s.admin.dropped = 0) ∧
  (∃ (s : State), s.running = true ∧ s.admin.held = [] ∧ s.admin.dropped = 0) ∧
  (∃ (s : State), s.running = true ∧ s.admin.holdoff = true ∧ s.admin.irqPending = true ∧ s.admin.irqEn = true ∧ s.host.discarding = false ∧
    s.holdsPosts = false) ∧
  (∃ (s : State), s.running = true ∧ s.admin.holdoff = true ∧ (s.admin.irqPending = false ∨ s.admin.irqEn = false)) ∧
  (∃ (s : State) (b img : List Byte) (su : Bool) (vs : List Variant), AdminHead s 0x18 24 b ∧ (let c := leAt b 0 2
    let va := leAt b 8 8
    let len := leAt b 0x10 8
    (s.ctx c).used = true ∧ (s.ctx c).dying = false ∧ (s.part (s.ctx c).partition).state = .active ∧ leAt b 2 6 = 0 ∧ va % 65536 = 0 ∧
    va + len ≤ 2 ^ 48 ∧ s.pageFault c .read va len = none ∧ s.pageFault c .fetch va len = none ∧ s.spanOpen c va len = true ∧
    s.vread c .read va len = .ok img false su ∧ readImage img len = some vs ∧ s.images.length < 1024)) ∧
  (∃ (s : State) (b : List Byte), AdminHead s 0x19 8 b ∧ (tabFind s.images (leAt b 0 8)).isSome = true ∧
    s.launchesQuiet (fun l => l.image == leAt b 0 8) = true) ∧
  (∃ (s : State) (b : List Byte), AdminHead s 0x50 8 b ∧ ctlBase ≤ leAt b 0 8 ∧ leAt b 0 8 < ctlBase + 2 ^ 32) ∧
  (∃ (s : State) (b : List Byte), AdminHead s 0x51 8 b ∧ ctlBase ≤ leAt b 0 8 ∧ leAt b 0 8 < ctlBase + 2 ^ 32) ∧
  (∃ (s : State) (a n : Nat) (id : DWord) (st d : Nat) (r : List Byte), s.host.discarding = false ∧ s.holdsPosts = false ∧ s.admin.irqEn = false ∧
    r.length ≤ 16 ∧ n = s.admin.start) := by
  refine ⟨⟨testS18_37, 1#64, ?_, ?_, ?_, ?_, ?_⟩, ⟨testS18_38, 3#64, ?_, ?_, ?_, ?_⟩, ⟨testS18_39, 3#64, ?_, ?_, ?_, ?_, ?_⟩, ⟨testS18_40, ?_, ?_,
      ?_⟩, ⟨testS18_41, ?_, ?_, ?_, ?_, ?_, ?_⟩, ⟨testS18_42, ?_, ?_, ?_⟩,
      ⟨testS18_43, testV18_44, testImageBytes, false, testV18_45, testAdmHead (by decide +kernel), ?_, ?_, ?_, ?_, ?_, ?_, ?_, ?_, ?_, ?_, ?_, ?_⟩,
      ⟨testS18_46, bytesLE 8 1, testAdmHead (by decide +kernel), ?_, ?_⟩, ⟨testS18_47, testV18_48, testAdmHead (by decide +kernel), ?_, ?_⟩,
      ⟨testS18_49, testV18_50, testAdmHead (by decide +kernel), ?_, ?_⟩, ⟨testS18_51, 7, 1, 9#64, 0, 0, bytesLE 16 5, ?_, ?_, ?_, ?_, ?_⟩⟩ <;> decide +kernel

/-- A stream of one 64-byte element from the scratchpad to a virtual address, on slot `k`. -/
def testDesc (k fillSem srcSem : Nat) : List Byte := testBlock 64 [(0, 8, 0x1000), (8, 8, 0x10000), (0x10, 8, 2 ^ 40), (0x18, 8, 2 ^ 40), (0x20, 8, 2 ^ 40), (0x28, 8, 2 ^ 40), (0x30, 8, 2 ^ 40),
  (0x38, 1, 1), (0x39, 1, 63), (0x3A, 1, k), (0x3B, 1, fillSem), (0x3E, 1, srcSem)]
def testStreamSlot (d : List Byte) : StreamSlot := { StreamSlot.idle with state := .active, desc := d, launch := 1 }
def testStream (v : StreamSlot) (f : Cell → Cell) : State :=
  { testCell0 testDevice (fun x => f { x with calendar := testCalendar, streams := [(15, v)], scratch := x.scratch.write 0x100 (testDesc 15 0 0) }) with
    tlbs := [(tlbStream 0 (15 % 4), [{ context := 1, page := 1, large := false, entry := mkPte 0x30000 7 }]), (128, [{ context := 1, page := 1, large := false, entry := mkPte 0x30000 7 }]), (129, [{ context := 1, page := 1, large := false, entry := mkPte 0x30000 7 }]), (130, [{ context := 1, page := 1, large := false, entry := mkPte 0x30000 7 }]), (131, [{ context := 1, page := 1, large := false, entry := mkPte 0x30000 7 }])] }
def testWalk (va : Nat) (st : Bool) : Walk := { collector := 0, context := 1, va := va, access := .read, who := .load 0 0, launch := 1, stale := st }
def testWalking (w : Walk) : State := { testDevice with cells := [(0, testCell { testThread with status := .blocked, waits := .vaLoad 31 w.va 8 false none })], walks := [w] }
def testMapPayload (size perm va len : Nat) : List Byte := bytesLE 2 1 ++ bytesLE 1 size ++ bytesLE 1 perm ++ bytesLE 4 0 ++ bytesLE 8 va ++ bytesLE 8 len ++ bytesLE 8 0
def testUnmapped : State := { testQuarters with quarters := [], contexts := [(1, { testCtx with leaves := [] })] }
def testSlotValue (kind cell base : Nat) : Nat := 2 ^ 63 + kind * 2 ^ 56 + base + cell * 2 ^ 19
def testHost (k : Nat) (v : Nat) : State := { testQuarters with host := { testDevice.host with rate := 1, mse := true, slots := [(k, BitVec.ofNat 64 v)] } }
/-- The same with cell 0 under a calendar that grants no host write or read a slot. -/
def testNoSlot : State := testCell0 (testHost 63 (testSlotValue 1 0 0)) (fun x => { x with calendar := [] })
def testRegionRecord (r kind : Nat) (base size : Nat) : List Byte := bytesLE 2 r ++ bytesLE 1 kind ++ bytesLE 1 0 ++ bytesLE 2 1 ++ bytesLE 2 0 ++ bytesLE 8 base ++ bytesLE 8 size ++ bytesLE 8 0
def testRegion (kind : Nat) : Region := Region.mk kind 0 1 0x10000 0x10000 false false 5
def testLink (f : HostPort → HostPort) : State := { testDevice with host := f { testDevice.host with rate := 1, mse := true } }

def testS19_1 : State := testStream StreamSlot.idle (fun x => { x with queues := [(2, [testCmd 2 0#24 0x100 0])] })
def testV19_2 : EngineCmd := testCmd 2 0#24 0x100 0
def testV19_3 : List Byte := testDesc 15 0 0
def testS19_4 : State := testStream (testStreamSlot (testDesc 15 0 0)) (fun x => { x with queues := [(2, [testCmd 2 0#24 0x100 0])] })
def testS19_5 : State := testStream (testStreamSlot (testDesc 15 0 0)) id
def testS19_6 : State := ((testStream (testStreamSlot (testDesc 15 0 0)) id).moveElems 0 15 1 testLaunch 1 0 0).1
def testS19_7 : State := testStream { testStreamSlot (testDesc 15 0 0) with moved := true } id
def testS19_8 : State := testStream { testStreamSlot (testDesc 15 0 0x7F) with moved := true } id
def testS19_9 : State := testStream { testStreamSlot (testDesc 15 0 0) with moved := true, srcDone := true } id
def testS19_10 : State := testStream { testStreamSlot (testDesc 15 0x7F 0) with moved := true, srcDone := true } id
def testS19_11 : State := testStream { testStreamSlot (testDesc 15 0 0) with chunks := 1 } id
def testS19_12 : State := testStream { testStreamSlot (testDesc 15 0 0) with chunks := 1, rearm := some (testDesc 15 0 0, 0, 0#32) } id
def testS19_13 : State := { testStream (testStreamSlot (testDesc 15 0 0)) id with launches := [(1, { testLaunch with phase := .ended, status := some 0 })] }

theorem witness_StreamsMoveInChunks :
  (∃ (s : State) (c lid : Nat) (l : Launch) (k : EngineCmd) (d : List Byte), OnCell s c ∧ s.activeLaunch c = some (lid, l) ∧
    (s.cell c).head 2 = some k ∧ (s.cell c).mayStart k = true ∧ k.opA.toNat % 64 = 0 ∧ (s.cell c).ctl .egress k.opA.toNat 64 = .ok d ∧
    (s.cell c).spPoison k.opA.toNat 64 = false ∧ k.doneEn = false ∧ ThreadRuns s c ∧ (∀ x ∈ (s.cell c).streams, x.2.checking = 0) ∧
    (s.slot c (sdSlot d)).state = .idle ∧ s.streamOk l d = true ∧ sdDstSpace d ≠ 3) ∧
  (∃ (s : State) (c lid : Nat) (l : Launch) (k : EngineCmd) (d : List Byte), OnCell s c ∧ s.activeLaunch c = some (lid, l) ∧
    (s.cell c).head 2 = some k ∧ (s.cell c).mayStart k = true ∧ k.opA.toNat % 64 = 0 ∧ (s.cell c).ctl .egress k.opA.toNat 64 = .ok d ∧
    (s.cell c).spPoison k.opA.toNat 64 = false ∧ k.doneEn = false ∧ ThreadRuns s c ∧ (∀ x ∈ (s.cell c).streams, x.2.checking = 0) ∧
    (s.slot c (sdSlot d)).state ≠ .idle ∧ (s.slot c (sdSlot d)).rearm = none) ∧
  (∃ (s z : State) (c k lid : Nat) (l : Launch), OnThread s c k ∧ s.activeLaunch c = some (lid, l) ∧ (s.slot c k).state = .active ∧
    (s.slot c k).phase = .moving ∧ (s.slot c k).moved = false ∧ (s.slot c k).checking = 0 ∧ sdDstSpace (s.slot c k).desc ≤ 1 ∧
    (let stop := ((s.slot c k).chunks + 1) * sdChunkElems (s.slot c k).desc
    s.moveElems c k lid l (stop - (s.slot c k).elem) (s.slot c k).elem (s.slot c k).byteOff = (z, true))) ∧
  (∃ (s : State) (c k : Nat), OnThread s c k ∧ (s.activeLaunch c).isSome = true ∧ (s.slot c k).state = .active ∧ (s.slot c k).moved = true ∧
    (s.slot c k).reads = 0 ∧ (s.slot c k).srcDone = false ∧ descSemEn (s.slot c k).desc 0x3E = false) ∧
  (∃ (s : State) (c k : Nat), OnThread s c k ∧ (s.activeLaunch c).isSome = true ∧ (s.slot c k).state = .active ∧ (s.slot c k).moved = true ∧
    (s.slot c k).reads = 0 ∧ (s.slot c k).srcDone = false ∧ descSemEn (s.slot c k).desc 0x3E = true ∧ (let i := descSem (s.slot c k).desc 0x3E
    (s.cell c).semWaiters i = [] ∧ ((s.cell c).sem i).toNat < 65535)) ∧
  (∃ (s : State) (c k lid : Nat) (l : Launch), OnThread s c k ∧ s.activeLaunch c = some (lid, l) ∧ (s.slot c k).state = .active ∧
    (s.slot c k).srcDone = true ∧ (s.slot c k).held = [] ∧ (s.slot c k).outstanding = 0 ∧ (s.slot c k).chunks < sdChunks (s.slot c k).desc ∧
    (sdDstSpace (s.slot c k).desc = 1 → s.landed (l.cells.getD (sdRank (s.slot c k).desc 1) 0) (.stream c k) = true) ∧
    s.recordLeft (s.slot c k) = true ∧ descSemEn (s.slot c k).desc 0x3B = false) ∧
  (∃ (s : State) (c k lid : Nat) (l : Launch), OnThread s c k ∧ s.activeLaunch c = some (lid, l) ∧ (s.slot c k).state = .active ∧
    (s.slot c k).srcDone = true ∧ (s.slot c k).held = [] ∧ (s.slot c k).outstanding = 0 ∧ (s.slot c k).chunks < sdChunks (s.slot c k).desc ∧
    (sdDstSpace (s.slot c k).desc = 1 → s.landed (l.cells.getD (sdRank (s.slot c k).desc 1) 0) (.stream c k) = true) ∧
    s.recordLeft (s.slot c k) = true ∧ descSemEn (s.slot c k).desc 0x3B = true ∧ (s.slot c k).chunks + 1 = sdChunks (s.slot c k).desc ∧
    (let p := peerCell l (s.slot c k).desc
    let i := descSem (s.slot c k).desc 0x3B
    (s.cell p).semWaiters i = [] ∧ ((s.cell p).sem i).toNat < 65535)) ∧
  (∃ (s : State) (c k lid : Nat) (l : Launch), OnThread s c k ∧ s.activeLaunch c = some (lid, l) ∧ (s.slot c k).state = .active ∧
    (s.slot c k).checking = 0 ∧ (s.slot c k).chunks = sdChunks (s.slot c k).desc ∧ (s.slot c k).rearm = none) ∧
  (∃ (s : State) (c k lid : Nat) (l : Launch), OnThread s c k ∧ s.activeLaunch c = some (lid, l) ∧ (s.slot c k).state = .active ∧
    (s.slot c k).checking = 0 ∧ (s.slot c k).chunks = sdChunks (s.slot c k).desc ∧ (∃ (d t pc : _), (s.slot c k).rearm = some (d, t, pc) ∧
    sdSlot d = k ∧ s.streamOk l d = true ∧ sdDstSpace d ≠ 3)) ∧
  (∃ (s : State) (c k : Nat), OnThread s c k ∧ s.cellEnded c = true ∧ (s.slot c k).state ≠ .idle) := by
  refine ⟨⟨testS19_1, 0, 1, testLaunch, testV19_2, testV19_3, (by constructor <;> decide +kernel), ?_, ?_, ?_, ?_, testExceptOk (by decide +kernel),
      ?_, ?_, testThreadRuns (by decide +kernel), ?_, ?_, ?_, ?_⟩,
      ⟨testS19_4, 0, 1, testLaunch, testV19_2, testV19_3, (by constructor <;> decide +kernel), ?_, ?_, ?_, ?_, testExceptOk (by decide +kernel), ?_,
      ?_, testThreadRuns (by decide +kernel), ?_, ?_, ?_⟩, ⟨testS19_5, testS19_6, 0, 15, 1, testLaunch, (by constructor <;> decide +kernel), ?_, ?_,
      ?_, ?_, ?_, ?_, testPairSnd (by decide +kernel)⟩, ⟨testS19_7, 0, 15, (by constructor <;> decide +kernel), ?_, ?_, ?_, ?_, ?_, ?_⟩,
      ⟨testS19_8, 0, 15, (by constructor <;> decide +kernel), ?_, ?_, ?_, ?_, ?_, ?_, ?_, ?_⟩,
      ⟨testS19_9, 0, 15, 1, testLaunch, (by constructor <;> decide +kernel), ?_, ?_, ?_, ?_, ?_, ?_, ?_, ?_, ?_⟩,
      ⟨testS19_10, 0, 15, 1, testLaunch, (by constructor <;> decide +kernel), ?_, ?_, ?_, ?_, ?_, ?_, ?_, ?_, ?_, ?_, ?_, ?_⟩,
      ⟨testS19_11, 0, 15, 1, testLaunch, (by constructor <;> decide +kernel), ?_, ?_, ?_, ?_, ?_⟩,
      ⟨testS19_12, 0, 15, 1, testLaunch, (by constructor <;> decide +kernel), ?_, ?_, ?_, ?_, ⟨testDesc 15 0 0, 0, 0#32, ?_, ?_, ?_, ?_⟩⟩,
      ⟨testS19_13, 0, 15, (by constructor <;> decide +kernel), ?_, ?_⟩⟩ <;> decide +kernel

def testS19_14 : State := testWalking (testWalk 0xFFF8 false)
def testV19_15 : Nat := mkPte 0x20000 7
def testV19_16 : Walk := testWalk 0xFFF8 false
def testS19_17 : State := testWalking (testWalk 0x20000 false)
def testV19_18 : Walk := testWalk 0x20000 false
def testS19_19 : State := testWalking (testWalk 0x20000 true)
def testV19_20 : Walk := testWalk 0x20000 true
def testS19_21 : State := testAdm testUnmapped 0x40 (testMapPayload 0 7 0xFFF0000 0x20000)
def testS19_22 : State := testAlloc ((testAdm testUnmapped 0x40 (testMapPayload 0 7 0xFFF0000 0x20000)).allocBlocks 0 1 [0, 1])
def testV19_23 : List Byte := testMapPayload 0 7 0xFFF0000 0x20000
def testS19_24 : State := testAdm testUnmapped 0x40 (testMapPayload 1 7 0 (2 ^ 29))
def testS19_25 : State := testAlloc ((testAdm testUnmapped 0x40 (testMapPayload 1 7 0 (2 ^ 29))).allocPairs 0 1 [0])
def testV19_26 : List Byte := testMapPayload 1 7 0 (2 ^ 29)
def testS19_27 : State := testAdm testQuarters 0x41 (bytesLE 2 1 ++ bytesLE 2 1 ++ bytesLE 4 0 ++ bytesLE 8 0x10000 ++ bytesLE 8 (mkPte 0x30000 1))
def testV19_28 : List Byte := bytesLE 2 1 ++ bytesLE 2 1 ++ bytesLE 4 0 ++ bytesLE 8 0x10000 ++ bytesLE 8 (mkPte 0x30000 1)
def testS19_29 : State := testAdm testQuarters 0x42 (bytesLE 2 1 ++ bytesLE 6 0 ++ bytesLE 8 0x10000 ++ bytesLE 8 0x10000)
def testV19_30 : List Byte := bytesLE 2 1 ++ bytesLE 6 0 ++ bytesLE 8 0x10000 ++ bytesLE 8 0x10000
def testS19_31 : State := testAdm testQuarters 0x43 (bytesLE 2 1 ++ bytesLE 6 0 ++ bytesLE 8 0x10000 ++ bytesLE 8 0x10000)
def testS19_32 : State := testAdm { testQuarters with collectors := [(0, { records := [(0, ⟨.read, 0, 0, 0, 1, 2, [testWalk 0x20000 false]⟩)], queue := [], fatal := 0#64, fatalVa := 0#64 })] } 0x44 (bytesLE 2 1 ++ bytesLE 6 0 ++ bytesLE 8 0x20000)
def testV19_33 : List Byte := bytesLE 2 1 ++ bytesLE 6 0 ++ bytesLE 8 0x20000

theorem witness_TranslationMapsAndDrains :
  (∃ (s : State) (c t rd va n e : Nat) (sx big : Bool) (w : Walk), s.running = true ∧ s.walks.find? (fun w => w.who == .load c t) = some w ∧
    w.stale = false ∧ s.walks.filter w.samePage = [w] ∧ s.walkRuns w = true ∧ s.walkLives w = true ∧ (s.ctx w.context).leaf w.va = some (e, big) ∧
    ptePermits e w.access = true ∧ isWindow (leafPa e big w.va) = false ∧ s.populated (leafPa e big w.va) = true ∧
    (s.thread c t).waits = .vaLoad rd va n sx none) ∧
  (∃ (s : State) (c t r : Nat) (w : Walk), s.running = true ∧ s.walks.find? (fun w => w.who == .load c t) = some w ∧ w.stale = false ∧
    s.walks.filter w.samePage = [w] ∧ s.walkRuns w = true ∧ s.walkLives w = true ∧ (s.ctx w.context).leaf w.va = none ∧
    (s.collector w.collector).find w.context w.va = none ∧ tabFree (s.collector w.collector).records 0 32 = some r) ∧
  (∃ (s : State) (who : Requester) (w : Walk), s.running = true ∧ s.walks.find? (fun w => w.who == who) = some w ∧ w.stale = true ∧
    s.walks.filter w.samePage = [w] ∧ s.walkRuns w = true ∧ s.walkLives w = true) ∧
  (∃ (s z : State) (b : List Byte) (n : Nat), AdminHead s 0x40 32 b ∧ (let c := leAt b 0 2
    let va := leAt b 8 8
    let len := leAt b 0x10 8
    let perm := leAt b 3 1
    let pages := span (va / 2 ^ 16) ((va + len - 1) / 2 ^ 16)
    (s.ctx c).used = true ∧ leAt b 2 1 = 0 ∧ perm ≤ 7 ∧ (bitAt perm 1 = true → bitAt perm 0 = true) ∧ leAt b 4 4 = 0 ∧ leAt b 0x18 8 = 0 ∧
    va % 2 ^ 16 = 0 ∧ len ≠ 0 ∧ len % 2 ^ 16 = 0 ∧ va + len ≤ 2 ^ 48 ∧ (∀ e ∈ (s.ctx c).large, e.1 ∉ span (va / 2 ^ 29) ((va + len - 1) / 2 ^ 29)) ∧
    (∀ e ∈ (s.ctx c).leaves, e.1 ∉ pages) ∧ s.allocBlocks (s.ctx c).partition c (span (va / 2 ^ 28) ((va + len - 1) / 2 ^ 28)) = some (z, n) ∧
    (let y := { z.ctx c with leaves := pages.foldl (fun t p => tabSet t p (mkPte ((tabGet 0 (z.ctx c).blocks (p / 4096)) * 2 ^ 28 + p % 4096 * 65536) perm)) (z.ctx c).leaves }
    (z.setCtx c y).ptStoreBytes ≤ 671088640))) ∧
  (∃ (s z : State) (b : List Byte) (n : Nat), AdminHead s 0x40 32 b ∧ (let c := leAt b 0 2
    let va := leAt b 8 8
    let len := leAt b 0x10 8
    let perm := leAt b 3 1
    let regions := span (va / 2 ^ 29) ((va + len - 1) / 2 ^ 29)
    (s.ctx c).used = true ∧ leAt b 2 1 = 1 ∧ perm ≤ 7 ∧ (bitAt perm 1 = true → bitAt perm 0 = true) ∧ leAt b 4 4 = 0 ∧ leAt b 0x18 8 = 0 ∧
    va % 2 ^ 29 = 0 ∧ len ≠ 0 ∧ len % 2 ^ 29 = 0 ∧ va + len ≤ 2 ^ 48 ∧ (∀ e ∈ (s.ctx c).large, e.1 ∉ regions) ∧
    (∀ e ∈ (s.ctx c).leaves, e.1 / 8192 ∉ regions) ∧ s.allocPairs (s.ctx c).partition c regions = some (z, n) ∧
    (let y := { z.ctx c with large := regions.foldl (fun t r => tabSet t r (mkPte ((tabGet 0 (z.ctx c).blocks (2 * r)) * 2 ^ 28) perm)) (z.ctx c).large }
    (z.setCtx c y).ptStoreBytes ≤ 671088640))) ∧
  (∃ (s : State) (b : List Byte) (n : Nat), AdminHead s 0x41 (8 + 16 * n) b ∧ b.length = 8 + 16 * n ∧ leAt b 2 2 = n ∧ 1 ≤ n ∧ n ≤ 60 ∧
    leAt b 4 4 = 0 ∧ (s.ctx (leAt b 0 2)).used = true ∧ (let pairs := (List.range n).map (fun i => (leAt b (8 + 16 * i) 8, leAt b (16 + 16 * i) 8))
    (∀ p ∈ pairs, s.ptSyncOk (leAt b 0 2) p.1 p.2 = true) ∧
    (let z := s.setCtx (leAt b 0 2) (pairs.foldl (fun (x : Context) p => x.putLeaf p.1 p.2) (s.ctx (leAt b 0 2)))
    z.ptStoreBytes ≤ 671088640))) ∧
  (∃ (s : State) (b : List Byte), AdminHead s 0x42 24 b ∧ (let c := leAt b 0 2
    let va := leAt b 8 8
    let len := leAt b 0x10 8
    let x := s.ctx c
    x.used = true ∧ leAt b 2 6 = 0 ∧ va % 65536 = 0 ∧ len % 65536 = 0 ∧ len ≠ 0 ∧ va + len ≤ 2 ^ 48 ∧
    (∀ e ∈ x.large, e.1 * 2 ^ 29 < va + len → va < (e.1 + 1) * 2 ^ 29 → va ≤ e.1 * 2 ^ 29 ∧ (e.1 + 1) * 2 ^ 29 ≤ va + len) ∧
    s.coversRows c va len = false ∧ s.coversRegion c va len = false ∧ s.migration = none)) ∧
  (∃ (s : State) (b : List Byte), AdminHead s 0x43 24 b ∧ (s.ctx (leAt b 0 2)).used = true ∧ leAt b 2 6 = 0) ∧
  (∃ (s : State) (b : List Byte), AdminHead s 0x44 16 b ∧ (let c := leAt b 0 2
    let va := leAt b 8 8
    (s.ctx c).used = true ∧ leAt b 2 1 ≤ 1 ∧ leAt b 3 5 = 0 ∧ va % 65536 = 0)) := by
  refine ⟨⟨testS19_14, 0, 0, 31, 0xFFF8, 8, testV19_15, false, false, testV19_16, ?_, ?_, ?_, ?_, ?_, ?_, ?_, ?_, ?_, ?_, ?_⟩,
      ⟨testS19_17, 0, 0, 0, testV19_18, ?_, ?_, ?_, ?_, ?_, ?_, ?_, ?_, ?_⟩, ⟨testS19_19, .load 0 0, testV19_20, ?_, ?_, ?_, ?_, ?_, ?_⟩,
      ⟨testS19_21, testS19_22, testV19_23, 2, testAdmHead (by decide +kernel), ?_, ?_, ?_, ?_, ?_, ?_, ?_, ?_, ?_, ?_, ?_,
      ?_, testAllocSome (by decide +kernel), ?_⟩, ⟨testS19_24, testS19_25, testV19_26, 2, testAdmHead (by decide +kernel), ?_, ?_, ?_, ?_, ?_, ?_,
      ?_, ?_, ?_, ?_, ?_, ?_, testAllocSome (by decide +kernel), ?_⟩, ⟨testS19_27, testV19_28, 1, testAdmHead (by decide +kernel), ?_, ?_, ?_, ?_,
      ?_, ?_, ?_, ?_⟩, ⟨testS19_29, testV19_30, testAdmHead (by decide +kernel), ?_, ?_, ?_, ?_, ?_, ?_, ?_, ?_, ?_, ?_⟩,
      ⟨testS19_31, testV19_30, testAdmHead (by decide +kernel), ?_, ?_⟩, ⟨testS19_32, testV19_33, testAdmHead (by decide +kernel), ?_, ?_, ?_,
      ?_⟩⟩ <;> decide +kernel

def testS19_34 : State := testHost 0 0
def testV19_35 : DWord := BitVec.ofNat 64 (testSlotValue 1 0 0)
def testV19_36 : DWord := BitVec.ofNat 64 (testSlotValue 1 127 0)
def testS19_37 : State := { testHost 0 0 with regions := [(4, Region.mk 1 63 1 0 (2 ^ 26) false false 0)] }
def testS19_38 : State := testHost 63 (testSlotValue 0 0 (2 ^ 30))
def testV19_39 : List Byte := List.replicate 8 9#8
def testS19_40 : State := testHost 63 (testSlotValue 1 0 0)
def testS19_41 : State := testAdm testQuarters 0x48 (testRegionRecord 4095 0 0x1000 0x1000)
def testV19_42 : List Byte := testRegionRecord 4095 0 0x1000 0x1000
def testS19_43 : State := testAdm { testQuarters with contexts := [(1, { testCtx with large := [(0, mkPte (2 ^ 29) 3)], leaves := [] })] } 0x48 (testRegionRecord 4095 1 0 (2 ^ 26))
def testV19_44 : List Byte := testRegionRecord 4095 1 0 (2 ^ 26)
def testS19_45 : State := testAdm testQuarters 0x48 (testRegionRecord 4095 2 0x10000 0x10000)
def testV19_46 : List Byte := testRegionRecord 4095 2 0x10000 0x10000
def testS19_47 : State := testAdm { testQuarters with regions := [(4095, testRegion 0)] } 0x49 (bytesLE 2 4095 ++ bytesLE 6 0)
def testV19_48 : List Byte := bytesLE 2 4095 ++ bytesLE 6 0
def testS19_49 : State := testAdm { testHost 0 0 with regions := [(4095, testRegion 0)], host := { testDevice.host with held := [.write 0x10000 [1#8] false] } } 0x49 (bytesLE 2 4095 ++ bytesLE 6 0)

theorem witness_HostWindowsAndSlots :
  (∃ (s : State) (k : Nat) (v : DWord), s.running = true ∧ k < 64 ∧ s.slotHeld k = false ∧ (slotEn v.toNat = true → s.slotOk v.toNat = true)) ∧
  (∃ (s : State) (k : Nat) (v : DWord), s.running = true ∧ k < 64 ∧ s.slotHeld k = false ∧ slotEn v.toNat = true ∧ s.slotOk v.toNat = false) ∧
  (∃ (s : State) (k : Nat) (v : DWord), s.running = true ∧ k < 64 ∧ s.slotHeld k = true) ∧
  (∃ (s : State) (off : Nat) (bs : List Byte) (aux : KdpAux), s.running = true ∧ s.hostOpen = true ∧ bs ≠ [] ∧ off % 64 + bs.length ≤ 64 ∧
    s.hostLanded (s.hostTarget off).crossing = true ∧ (∃ (pa : _), s.hostTarget off = .dram pa ∧ s.damage = [] ∧ s.fixups = [] ∧ s.struck = [] ∧
    (∀ g ∈ partGranules pa bs.length, s.dram.hasPoison g = false))) ∧
  (∃ (s : State) (off : Nat) (bs : List Byte) (aux : KdpAux), s.running = true ∧ s.hostOpen = true ∧ bs ≠ [] ∧ off % 64 + bs.length ≤ 64 ∧
    s.hostLanded (s.hostTarget off).crossing = true ∧ (∃ (c : Nat) (o : _), s.hostTarget off = .scratch c o ∧ (s.cell c).ingress = [] ∧
    calReaches (s.cell c).calendar .ingress o bs.length = true)) ∧
  (∃ (s : State) (off : Nat) (bs : List Byte) (aux : KdpAux), s.running = true ∧ s.hostOpen = true ∧ bs ≠ [] ∧ off % 64 + bs.length ≤ 64 ∧
    s.hostLanded (s.hostTarget off).crossing = true ∧ s.hostTarget off = .beyond) ∧
  (∃ (s : State) (off : Nat) (bs : List Byte) (aux : KdpAux), s.running = true ∧ s.hostOpen = true ∧ bs ≠ [] ∧ off % 64 + bs.length ≤ 64 ∧
    s.hostLanded (s.hostTarget off).crossing = true ∧ (∃ (c : Nat) (o : _), s.hostTarget off = .scratch c o ∧ (s.cell c).ingress = [] ∧
    calReaches (s.cell c).calendar .ingress o bs.length = false)) ∧
  (∃ (s : State) (off n : Nat), s.running = true ∧ s.hostOpen = true ∧ n ≠ 0 ∧ off % 64 + n ≤ 64 ∧ s.hostLanded none = true ∧ (∃ (pa : _),
    s.hostTarget off = .dram pa)) ∧
  (∃ (s : State) (off n : Nat), s.running = true ∧ s.hostOpen = true ∧ n ≠ 0 ∧ off % 64 + n ≤ 64 ∧ s.hostLanded none = true ∧ (∃ (c : Nat) (o : _),
    s.hostTarget off = .scratch c o ∧ calReaches (s.cell c).calendar .egress o n = true)) ∧
  (∃ (s : State) (off n : Nat), s.running = true ∧ s.hostOpen = true ∧ n ≠ 0 ∧ off % 64 + n ≤ 64 ∧ s.hostLanded none = true ∧
    s.hostTarget off = .beyond) ∧
  (∃ (s : State) (off n : Nat), s.running = true ∧ s.hostOpen = true ∧ n ≠ 0 ∧ off % 64 + n ≤ 64 ∧ s.hostLanded none = true ∧ (∃ (c : Nat) (o : _),
    s.hostTarget off = .scratch c o ∧ calReaches (s.cell c).calendar .egress o n = false)) ∧
  (∃ (s : State) (b : List Byte), AdminHead s 0x48 32 b ∧ s.regionOk b = true ∧ tabFind s.regions (leAt b 0 2) = none ∧ leAt b 2 1 = 0) ∧
  (∃ (s : State) (b : List Byte), AdminHead s 0x48 32 b ∧ s.regionOk b = true ∧ tabFind s.regions (leAt b 0 2) = none ∧ (let first := leAt b 3 1
    let size := leAt b 0x10 8
    let first := leAt b 3 1
    let size := leAt b 0x10 8
    leAt b 2 1 = 1 ∧ (∀ i, i < size / 2 ^ 26 → first + i < 64 ∧ slotEn (tabGet 0#64 s.host.slots (first + i)).toNat = false))) ∧
  (∃ (s : State) (b : List Byte), AdminHead s 0x48 32 b ∧ s.regionOk b = true ∧ tabFind s.regions (leAt b 0 2) = none ∧ leAt b 2 1 = 2 ∧
    (s.regions.filter (fun x => x.2.kind == 2)).length < 1024) ∧
  (∃ (s : State) (b : List Byte) (x : Region), AdminHead s 0x49 8 b ∧ tabFind s.regions (leAt b 0 2) = some x ∧ leAt b 2 6 = 0 ∧ x.ending = false ∧
    (x.kind ≠ 0 ∨ x.stale = true ∨ (s.regionInUse (leAt b 0 2) = false ∧ s.heldTo x = false))) ∧
  (∃ (s : State) (b : List Byte) (x : Region), AdminHead s 0x49 8 b ∧ tabFind s.regions (leAt b 0 2) = some x ∧ leAt b 2 6 = 0 ∧ x.ending = false ∧
    x.kind = 0 ∧ x.stale = false ∧ s.regionInUse (leAt b 0 2) = false ∧ s.heldTo x = true) := by
  refine ⟨⟨testS19_34, 63, testV19_35, ?_, ?_, ?_, ?_⟩, ⟨testS19_34, 63, testV19_36, ?_, ?_, ?_, ?_, ?_⟩, ⟨testS19_37, 63, testV19_35, ?_, ?_, ?_⟩,
      ⟨testS19_38, 0xFFFFFFF8, testV19_39, testAux, ?_, ?_, ?_, ?_, ?_, ⟨2 ^ 30 + 0x3FFFFF8, ?_, ?_, ?_, ?_, ?_⟩⟩,
      ⟨testS19_40, 0xFC2FFFF8, testV19_39, testAux, ?_, ?_, ?_, ?_, ?_, ⟨0, 0x2FFFF8, ?_, ?_, ?_⟩⟩, ⟨testS19_40, 0xFC300000, testV19_39, testAux, ?_,
      ?_, ?_, ?_, ?_, ?_⟩, ⟨testNoSlot, 0xFC2FFFF8, testV19_39, testAux, ?_, ?_, ?_, ?_, ?_, ⟨0, 0x2FFFF8, ?_, ?_, ?_⟩⟩, ⟨testS19_38, 0xFFFFFFF8, 8,
      ?_, ?_, ?_, ?_, ?_, ⟨2 ^ 30 + 0x3FFFFF8, ?_⟩⟩, ⟨testS19_40, 0xFC2FFFF8, 8, ?_, ?_, ?_, ?_, ?_, ⟨0, 0x2FFFF8, ?_, ?_⟩⟩,
      ⟨testS19_40, 0xFC300000, 8, ?_, ?_, ?_, ?_, ?_, ?_⟩, ⟨testNoSlot, 0xFC2FFFF8, 8, ?_, ?_, ?_, ?_, ?_, ⟨0, 0x2FFFF8, ?_, ?_⟩⟩,
      ⟨testS19_41, testV19_42, testAdmHead (by decide +kernel), ?_, ?_, ?_⟩, ⟨testS19_43, testV19_44, testAdmHead (by decide +kernel), ?_, ?_, ?_,
      ?_⟩, ⟨testS19_45, testV19_46, testAdmHead (by decide +kernel), ?_, ?_, ?_, ?_⟩,
      ⟨testS19_47, testV19_48, testRegion 0, testAdmHead (by decide +kernel), ?_, ?_, ?_, ?_⟩,
      ⟨testS19_49, testV19_48, testRegion 0, testAdmHead (by decide +kernel), ?_, ?_, ?_, ?_, ?_, ?_, ?_⟩⟩ <;> decide +kernel

def testS19_50 : State := testLink id
def testS19_51 : State := testLink (fun h => { h with fn := .disabled })
def testS19_52 : State := testLink (fun h => { h with bme := false, held := [.msix 3] })
def testS19_53 : State := { testLink (fun h => { h with fn := .draining }) with launches := [], cells := [] }
def testS19_54 : State := { testLink (fun h => { h with fn := .draining, bme := false }) with launches := [], cells := [] }
def testS19_55 : State := testLink (fun h => { h with fn := .draining })
def testS19_56 : State := testLink (fun h => { h with rate := 0, bme := false })
def testV19_57 : List Nat := [32, 16, 0, 64]
def testS19_58 : State := testLink (fun h => { h with retraining := true, held := [.msix 3] })
def testS19_59 : State := testLink (fun h => { h with held := [.msix 3] })

theorem witness_HostFunctionAndLink :
  (∃ (s : State), s.running = true ∧ s.host.fn = .active) ∧
  (∃ (s : State), s.running = true ∧ s.host.bme = true) ∧
  (∃ (s : State) (m : Bool), s.running = true ∧ s.host.fn = .active) ∧
  (∃ (s : State) (m : Bool), s.running = true ∧ s.host.rate ≠ 0 ∧ s.host.retraining = false ∧ (∀ w ∈ s.admin.work, ∀ r, w.waits ≠ .region r)) ∧
  (∃ (s : State), s.running = true ∧ s.host.fn = .draining ∧ s.launchesQuiet (fun _ => true) = true ∧ s.host.bme = true) ∧
  (∃ (s : State), s.running = true ∧ s.host.fn = .draining ∧ s.launchesQuiet (fun _ => true) = true ∧ s.host.bme = false ∧
    (∀ w ∈ s.admin.work, ∀ r, w.waits ≠ .region r)) ∧
  (∃ (s : State), s.running = true ∧ s.host.fn = .draining) ∧
  (∃ (s : State) (ps : List Nat) (half : BitVec 4), s.running = true ∧ s.refclk = true ∧ s.holdsPosts = true ∧ s.host.bme = false ∧ (∃ m, m < 4 ∧
    ps.getD m 0 ≠ 0) ∧ (∀ w ∈ s.admin.work, ∀ r, w.waits ≠ .region r) ∧ (∀ r ∈ s.regions, r.2.ending = false)) ∧
  (∃ (s : State), s.running = true ∧ s.host.rate ≠ 0 ∧ s.host.retraining = false) ∧
  (∃ (s : State), s.running = true ∧ s.host.retraining = true ∧ s.host.bme = true ∧ s.host.rate ≠ 0 ∧ (∀ w ∈ s.admin.work, ∀ r, w.waits ≠ .region r)) ∧
  (∃ (s : State), s.running = true ∧ s.host.retraining = true) ∧
  (∃ (s : State) (down : Bool), s.running = true) := by
  refine ⟨⟨testS19_50, ?_, ?_⟩, ⟨testS19_51, ?_, ?_⟩, ⟨testS19_50, true, ?_, ?_⟩, ⟨testS19_52, true, ?_, ?_, ?_, testNoRegion (by decide +kernel)⟩,
      ⟨testS19_53, ?_, ?_, ?_, ?_⟩, ⟨testS19_54, ?_, ?_, ?_, ?_, testNoRegion (by decide +kernel)⟩, ⟨testS19_55, ?_, ?_⟩,
      ⟨testS19_56, testV19_57, 15#4, ?_, ?_, ?_, ?_, ⟨?_, testNoRegion (by decide +kernel), ?_⟩⟩, ⟨testS19_50, ?_, ?_, ?_⟩, ⟨testS19_58, ?_, ?_, ?_,
      ?_, testNoRegion (by decide +kernel)⟩, ⟨testS19_58, ?_, ?_⟩, ⟨testS19_59, true, ?_⟩⟩ <;> decide +kernel

/-- The device with port 0. -/
def testLive (x : Port) : State := { testDevice with ports := [(0, x)] }
def testUp : Port := { Port.absent.fresh with link := .up, lanesOk := 15#4, width := 3 }
/-- A flit's 280 bytes: sequence number 0 or 1, the CRC, an all-zero payload, and the Reed–Solomon check symbols computed apart from the model. -/
def testWire (h p : List Nat) : List Byte := (h ++ List.replicate 256 0 ++ p).map (BitVec.ofNat 8)
def testWire0 : List Byte := testWire [137, 149, 14, 216, 0, 0, 0, 0] [228, 3, 204, 212, 151, 99, 93, 34, 233, 208, 126, 3, 123, 79, 137, 71]
def testWire1 : List Byte := testWire [241, 13, 78, 196, 0, 0, 64, 0] [167, 227, 51, 211, 248, 194, 107, 149, 244, 52, 192, 43, 123, 201, 183, 120]
def testBroken : List Byte := (List.range 140).flatMap (fun i => [BitVec.ofNat 8 i, 0#8])
set_option maxRecDepth 20000 in
theorem testBroken_none : flitContent testBroken = none := by decide +kernel
def testFrame : Frame := { kind := 1, vc := 0, phase := 3, dl := false, ttl := 16, srCount := 0, srPorts := 0, dest := 0x102, src := 9, len := 8, spart := 0, dpart := 0, tag := 0, poison := 0, kspec := [], rsv := 0, crc := 0, payload := List.replicate 8 0#8 }
/-- A frame of a kind whose check holds. -/
def testGood (k : Nat) : Frame := { testFrame with kind := k, crc := { testFrame with kind := k }.e2e }
def testSentFlit (k : Nat) : SentFlit := ⟨k, List.replicate 256 0#8⟩
def testOwn (d : Nat) : State := { testLive { testUp with neighbour := 77 } with fabricOut := [⟨d, .winProbe 5 0 255 1 1⟩], dict := [(dkey 0x5010 2, 0x80)] }
def testTo (d : Nat) : FabMsg := ⟨d, .winProbe 5 0 255 1 1⟩
def testSource (d : Nat) (r : Table Nat) : State := { testOwn d with keeper := { testKeeper.keeper with latched := [(dkey 0x5001 0, 5)] }, dict := r }
def testFirst (s : State) (m : FabMsg) : Transit := match s.framesOf m with | t :: _ => t | [] => testFrame.transit
/-- A received flit payload: kind, first byte of the flags, TTL and destination. -/
def testHop (kind fl ttl dest : Nat) : List Byte := testBlock 256 [(0, 1, kind), (1, 1, fl), (2, 1, ttl), (4, 3, dest), (7, 3, 9), (10, 2, 8)]
def testArrived (h : List Byte) : State := { testOwn 3 with ports := [(0, { testUp with neighbour := 77 }), (1, { testUp with rx := [h], rxHeld := [(6, 1)] })], keeper := { testKeeper.keeper with latched := [(dkey 0x5001 0, 5)] }, dict := [(dkey 0x5010 2, 0x80)] }
def testWaggleBytes (kind : Nat) : List Byte := testBlock 48 [(0, 1, kind), (1, 1, 0), (2, 2, 7), (4, 3, 33)]
def testWaggleHead (kind ttl : Nat) : Frame := { testFrame with kind := 0x10, vc := 3, dest := 0xFFFFFF, ttl := ttl, len := 48, payload := testWaggleBytes kind }
def testWaggle (kind ttl : Nat) : Frame := { testWaggleHead kind ttl with crc := (testWaggleHead kind ttl).e2e }
def testWaggling (f : Frame) : State := { testLive testUp with ports := [(0, testUp), (1, { testUp with arrived := [testFrame.transit, f.transit] })] }

def testS20_1 : State := testLive Port.absent
def testS20_2 : State := testLive { Port.absent with link := .training, tries := 2 }
def testS20_3 : State := testLive { Port.absent with link := .training, ether := true }
def testS20_4 : State := testLive { Port.absent with link := .training, tries := 1 }
def testS20_5 : State := testLive { Port.absent with link := .training }
def testS20_6 : State := testLive testUp
def testS20_7 : State := testLive { testUp with retry := [testSentFlit 4] }
def testS20_8 : State := testLive { testUp with link := .retrain }
def testS20_9 : State := testLive { testUp with link := .retrain, retry := [testSentFlit 4] }
def testS20_10 : State := testLive { testUp with link := .failed }
def testS20_11 : State := { testKeeper with ports := [(7, { testUp with retry := [testSentFlit 4] })] }
def testV20_12 : DictRow := testRow 0x5007 8

theorem witness_PortsTrainRetrainAndFail :
  (∃ (s : State) (p : Nat), LivePort s p ∧ (s.port p).link = .absent) ∧
  (∃ (s : State) (p n m : Nat) (ok inv : BitVec 4) (rev : Bool), LivePort s p ∧ (s.port p).link = .training ∧ ok ≠ 0#4 ∧
    ((s.port p).ether = true ∨ n % 2 ^ 24 ≠ s.ownAddr ∨ s.ownAddr = 0) ∧ ((s.port p).ether = true → ok = 15#4)) ∧
  (∃ (s : State) (p n m : Nat) (ok inv : BitVec 4) (rev : Bool), LivePort s p ∧ (s.port p).link = .training ∧ ok ≠ 0#4 ∧
    ((s.port p).ether = true ∨ n % 2 ^ 24 ≠ s.ownAddr ∨ s.ownAddr = 0) ∧ ((s.port p).ether = true → ok = 15#4)) ∧
  (∃ (s : State) (p : Nat), LivePort s p ∧ (s.port p).link = .training ∧ (s.port p).tries < 2) ∧
  (∃ (s : State) (p : Nat) (m : Bool), LivePort s p ∧ (s.port p).link = .training ∧ (s.port p).err.msb = false ∧ (m = true ∨ 2 ≤ (s.port p).tries)) ∧
  (∃ (s : State) (p : Nat) (m : Bool), LivePort s p ∧ (s.port p).link = .training ∧ (s.port p).err.msb = false ∧ (m = true ∨ 2 ≤ (s.port p).tries)) ∧
  (∃ (s : State) (p lane : Nat), LivePort s p ∧ lane < 4 ∧ (s.port p).link = .up ∧ (s.port p).err.msb = false ∧
    (s.port p).lanesOk.getLsbD lane = true ∧ (s.port p).ether = false ∧ (activeLanes (s.port p).lanesOk).1.getLsbD lane = true ∧
    (let ok := (s.port p).lanesOk &&& ~~~ (1#4 <<< lane)
    ok ≠ 0#4)) ∧
  (∃ (s : State) (p : Nat), LivePort s p ∧ ((s.port p).link = .up ∨ (s.port p).link = .retrain)) ∧
  (∃ (s : State) (p : Nat), LivePort s p ∧ ((s.port p).link = .up ∨ (s.port p).link = .retrain)) ∧
  (∃ (s : State) (p : Nat), LivePort s p ∧ ((s.port p).link = .up ∨ (s.port p).link = .retrain)) ∧
  (∃ (s : State) (p : Nat), LivePort s p ∧ (s.port p).link = .retrain) ∧
  (∃ (s : State) (p : Nat), LivePort s p ∧ (s.port p).link = .retrain ∧ (s.port p).err.msb = false) ∧
  (∃ (s : State) (p : Nat), LivePort s p ∧ (s.port p).link = .failed) ∧
  (∃ (s : State) (r : KdpRequest) (x : Session) (d : DictRow) (sub : Nat) (v : List Byte), KdpWrites s r x d 0x5007 sub v ∧ s.running = true ∧
    s.power.srefPresent = true ∧ 1 ≤ sub ∧ sub ≤ 8) := by
  refine ⟨⟨testS20_1, 0, (by constructor <;> decide +kernel), ?_⟩, ⟨testS20_2, 0, 10, 9, 7#4, 1#4, true, (by constructor <;> decide +kernel), ?_, ?_,
      ?_, ?_⟩, ⟨testS20_3, 0, 10, 9, 15#4, 1#4, false, (by constructor <;> decide +kernel), ?_, ?_, ?_, ?_⟩,
      ⟨testS20_4, 0, (by constructor <;> decide +kernel), ?_, ?_⟩, ⟨testS20_2, 0, false, (by constructor <;> decide +kernel), ?_, ?_, ?_⟩,
      ⟨testS20_5, 0, true, (by constructor <;> decide +kernel), ?_, ?_, ?_⟩, ⟨testS20_6, 0, 3, (by constructor <;> decide +kernel), ?_, ?_, ?_, ?_,
      ?_, ?_, ?_⟩, ⟨testS20_6, 0, (by constructor <;> decide +kernel), ?_⟩, ⟨testS20_7, 0, (by constructor <;> decide +kernel), ?_⟩,
      ⟨testS20_8, 0, (by constructor <;> decide +kernel), ?_⟩, ⟨testS20_9, 0, (by constructor <;> decide +kernel), ?_⟩,
      ⟨testS20_9, 0, (by constructor <;> decide +kernel), ?_, ?_⟩, ⟨testS20_10, 0, (by constructor <;> decide +kernel), ?_⟩,
      ⟨testS20_11, testWrite 0x5007 8 [1#8], testSession, testV20_12, 8, [1#8], testWrites _ _ _ _ (by constructor <;> decide +kernel) (by decide) (by decide +kernel) (by decide +kernel) (by decide +kernel) (by decide +kernel) (by decide +kernel),
      ?_, ?_, ?_, ?_⟩⟩ <;> decide +kernel

def testV20_13 : List Byte := (testWire0.take 264)
def testV20_14 : List Byte := (testWire1.take 264)
def testS20_15 : State := testLive { testUp with nakSent := true }
def testS20_16 : State := testLive { testUp with retry := [testSentFlit 4, testSentFlit 5] }

set_option maxRecDepth 20000 in
theorem witness_FlitsAreAcceptedReplayedAndCounted :
  (∃ (s : State) (p fixed lane : Nat) (b content : List Byte), LivePort s p ∧ (s.port p).link = .up ∧ (s.port p).ether = false ∧ b.length = 280 ∧
    flitContent b = some (content, fixed) ∧ (let h := leAt content 0 8
    crc32 ((content.drop 4).take 4 ++ content.drop 8) = BitVec.ofNat 32 (field h 31 0) ∧ field h 43 42 = 0 ∧ field h 63 54 = (s.port p).expect ∧
    (s.port p).expect < 1024 ∧ (s.port p).rxCut = false)) ∧
  (∃ (s : State) (p fixed lane : Nat) (b content : List Byte), LivePort s p ∧ (s.port p).link = .up ∧ (s.port p).ether = false ∧ b.length = 280 ∧
    flitContent b = some (content, fixed) ∧ (let h := leAt content 0 8
    crc32 ((content.drop 4).take 4 ++ content.drop 8) = BitVec.ofNat 32 (field h 31 0) ∧ field h 43 42 = 0 ∧
    0 < (field h 63 54 + 1024 - (s.port p).expect) % 1024 ∧ (field h 63 54 + 1024 - (s.port p).expect) % 1024 < 512 ∧ (s.port p).nakSent = false)) ∧
  (∃ (s : State) (p lane : Nat) (b : List Byte), LivePort s p ∧ (s.port p).link = .up ∧ (s.port p).ether = false ∧ b.length = 280 ∧
    flitContent b = none) ∧
  (∃ (s : State) (p lane : Nat) (b : List Byte), LivePort s p ∧ (s.port p).link = .up ∧ (s.port p).ether = false ∧ b.length = 280 ∧
    flitContent b = none) ∧
  (∃ (s : State) (p a lane : Nat), LivePort s p ∧ (s.port p).link = .up ∧ (s.port p).ether = false ∧ (let x := (s.port p).acked (a % 1024)
    x.retry ≠ [] ∧ x.replays < 16)) := by
  refine ⟨⟨testS20_6, 0, 0, 0, testWire0, testV20_13, (by constructor <;> decide +kernel), ?_, ?_, ?_, ?_, ?_, ?_, ?_, ?_, ?_⟩,
      ⟨testS20_6, 0, 0, 0, testWire1, testV20_14, (by constructor <;> decide +kernel), ?_, ?_, ?_, ?_, ?_, ?_, ?_, ?_, ?_⟩,
      ⟨testS20_6, 0, 5, testBroken, (by constructor <;> decide +kernel), ?_, ?_, ?_, testBroken_none⟩,
      ⟨testS20_15, 0, 5, testBroken, (by constructor <;> decide +kernel), ?_, ?_, ?_, testBroken_none⟩,
      ⟨testS20_16, 0, 4, 0, (by constructor <;> decide +kernel), ?_, ?_, ?_, ?_⟩⟩ <;> decide +kernel

def testS20_17 : State := testSource 5 []
def testV20_18 : Transit := testFirst (testSource 5 []) (testTo 5)
def testS20_19 : State := testSource 6 []
def testV20_20 : Transit := testFirst (testSource 6 []) (testTo 6)
def testS20_21 : State := testSource 6 [(dkey 0x5010 6, 0x80)]
def testV20_22 : Transit := testFirst (testSource 6 [(dkey 0x5010 6, 0x80)]) (testTo 6)
def testS20_23 : State := testArrived (testHop 0x10 0xF0 16 0xFFFFFF)
def testV20_24 : List Byte := (testHop 0x10 0xF0 16 0xFFFFFF)
def testS20_25 : State := testArrived (testHop 1 0x30 16 5)
def testV20_26 : List Byte := (testHop 1 0x30 16 5)
def testS20_27 : State := testArrived (testHop 1 0x30 2 2)
def testV20_28 : List Byte := (testHop 1 0x30 2 2)
def testS20_29 : State := testLive { testUp with arrived := [(testWaggle 1 2).transit, (testGood 1).transit] }
def testV20_30 : Transit := (testGood 1).transit
def testS20_31 : State := testLive { testUp with arrived := [(testWaggle 1 2).transit, (testGood 0x0E).transit] }
def testV20_32 : Transit := (testGood 0x0E).transit
def testS20_33 : State := testLive { testUp with arrived := [(testWaggle 1 2).transit, testFrame.transit] }
def testV20_34 : Transit := testFrame.transit

set_option maxRecDepth 20000 in
theorem witness_FramesFollowTheirRoutes :
  (∃ (s : State) (m : FabMsg) (rest : List FabMsg) (t : Transit), s.running = true ∧ s.power.srefPresent = true ∧ s.fabricOut = m :: rest ∧
    s.framesOf m = [t] ∧ s.ownAddr ≠ 0 ∧ m.dst = s.ownAddr) ∧
  (∃ (s : State) (m : FabMsg) (rest : List FabMsg) (t : Transit), s.running = true ∧ s.power.srefPresent = true ∧ s.fabricOut = m :: rest ∧
    s.framesOf m = [t] ∧ s.ownAddr ≠ 0 ∧ m.dst ≠ s.ownAddr ∧ (let tier := highTier m.dst s.ownAddr
    s.pick (s.routeEntry tier m.dst) t.frame.vc = none)) ∧
  (∃ (s : State) (m : FabMsg) (rest : List FabMsg) (t : Transit), s.running = true ∧ s.power.srefPresent = true ∧ s.fabricOut = m :: rest ∧
    s.framesOf m = [t] ∧ s.ownAddr ≠ 0 ∧ m.dst ≠ s.ownAddr ∧ (let tier := highTier m.dst s.ownAddr
    ∃ (p : Nat), s.pick (s.routeEntry tier m.dst) t.frame.vc = some p)) ∧
  (∃ (s : State) (p : Nat) (h : List Byte) (more : List (List Byte)), LivePort s p ∧ (s.port p).rx = h :: more ∧
    (let t := (s.frontFrame p (frameFlits (leAt h 0xA 2))).1
    let f := t.frame
    let t := (s.frontFrame p (frameFlits (leAt h 0xA 2))).1
    let f := t.frame
    f.kind = 0x10 ∧ f.dest = 0xFFFFFF)) ∧
  (∃ (s : State) (p : Nat) (h : List Byte) (more : List (List Byte)), LivePort s p ∧ (s.port p).rx = h :: more ∧
    (let t := (s.frontFrame p (frameFlits (leAt h 0xA 2))).1
    let f := t.frame
    let t := (s.frontFrame p (frameFlits (leAt h 0xA 2))).1
    let f := t.frame
    f.kind ≠ 0x10 ∧ s.ownAddr ≠ 0 ∧ f.srCount = 0 ∧ f.dest = s.ownAddr)) ∧
  (∃ (s : State) (p : Nat) (h : List Byte) (more : List (List Byte)), LivePort s p ∧ (s.port p).rx = h :: more ∧
    (let t := (s.frontFrame p (frameFlits (leAt h 0xA 2))).1
    let z := (s.frontFrame p (frameFlits (leAt h 0xA 2))).2
    let f := t.frame
    let t := (s.frontFrame p (frameFlits (leAt h 0xA 2))).1
    let z := (s.frontFrame p (frameFlits (leAt h 0xA 2))).2
    let f := t.frame
    f.kind ≠ 0x10 ∧ s.ownAddr ≠ 0 ∧ f.srCount = 0 ∧ f.dest ≠ s.ownAddr ∧ highTier f.dest s.ownAddr ≤ f.phase ∧ 2 ≤ f.ttl ∧ (∃ (q : Nat),
    z.pick (s.routeEntry (highTier f.dest s.ownAddr) f.dest) f.vc = some q))) ∧
  (∃ (s : State) (p : Nat) (t : Transit), LivePort s p ∧
    (s.port p).arrived.find? (fun t => t.frame.kind != 0x10 && t.more == 0 && !s.fanFull t.frame) = some t ∧ (let f := t.whole
    let f := t.whole
    f.passes = true ∧ f.kind ≠ 0x0E)) ∧
  (∃ (s : State) (p : Nat) (t : Transit), LivePort s p ∧
    (s.port p).arrived.find? (fun t => t.frame.kind != 0x10 && t.more == 0 && !s.fanFull t.frame) = some t ∧ (let f := t.whole
    let f := t.whole
    f.passes = true ∧ f.kind = 0x0E)) ∧
  (∃ (s : State) (p : Nat) (t : Transit), LivePort s p ∧
    (s.port p).arrived.find? (fun t => t.frame.kind != 0x10 && t.more == 0 && !s.fanFull t.frame) = some t ∧ (let f := t.whole
    let f := t.whole
    f.passes = false)) := by
  refine ⟨⟨testS20_17, testTo 5, [], testV20_18, ?_, ?_, ?_, rfl, ?_, ?_⟩, ⟨testS20_19, testTo 6, [], testV20_20, ?_, ?_, ?_, rfl, ?_, ?_, ?_⟩,
      ⟨testS20_21, testTo 6, [], testV20_22, ?_, ?_, ?_, rfl, ?_, ?_, 0, ?_⟩, ⟨testS20_23, 1, testV20_24, [], (by constructor <;> decide +kernel),
      ?_, ?_, ?_⟩, ⟨testS20_25, 1, testV20_26, [], (by constructor <;> decide +kernel), ?_, ?_, ?_, ?_, ?_⟩,
      ⟨testS20_27, 1, testV20_28, [], (by constructor <;> decide +kernel), ?_, ?_, ?_, ?_, ?_, ?_, ?_, ⟨0, ?_⟩⟩,
      ⟨testS20_29, 0, testV20_30, (by constructor <;> decide +kernel), ?_, ?_, ?_⟩, ⟨testS20_31, 0, testV20_32, (by constructor <;> decide +kernel),
      ?_, ?_, ?_⟩, ⟨testS20_33, 0, testV20_34, (by constructor <;> decide +kernel), ?_, ?_⟩⟩ <;> decide +kernel

def testS20_35 : State := testWaggling (testWaggle 1 2)
def testV20_36 : Transit := (testWaggle 1 2).transit
def testS20_37 : State := { testWaggling (testWaggle 3 2) with filter := [(33, 7, 0#64)] }
def testV20_38 : Transit := (testWaggle 3 2).transit
def testS20_39 : State := testLive { testUp with link := .retrain, txq := [(testWaggle 1 2).transit] }
def testS20_40 : State := { testDevice with filter := [(33, 7, 0#64)] }

set_option maxRecDepth 20000 in
theorem witness_WagglesSpreadOnce :
  (∃ (s : State) (p : Nat) (t : Transit), LivePort s p ∧ (s.port p).arrived.find? (fun t => t.frame.kind == 0x10 && t.more == 0) = some t ∧
    (let f := t.whole
    let b := f.payload
    f.passes = true ∧ waggleOk b = true ∧ s.filtered (leAt b 4 3) (leAt b 2 2) = false ∧ 2 ≤ f.ttl)) ∧
  (∃ (s : State) (p : Nat) (t : Transit), LivePort s p ∧ (s.port p).arrived.find? (fun t => t.frame.kind == 0x10 && t.more == 0) = some t ∧
    (let f := t.whole
    let b := f.payload
    f.passes = true ∧ waggleOk b = true ∧ s.filtered (leAt b 4 3) (leAt b 2 2) = true)) ∧
  (∃ (s : State) (p : Nat) (t : Transit), LivePort s p ∧ (s.port p).txq.find? (fun t => t.frame.kind == 0x10) = some t ∧
    ((s.port p).link ≠ .up ∨ tabGet 0 (s.port p).credits 24 < frameFlits t.frame.len)) ∧
  (∃ (s : State), s.running = true) := by
  refine ⟨⟨testS20_35, 1, testV20_36, (by constructor <;> decide +kernel), ?_, ?_, ?_, ?_, ?_⟩,
      ⟨testS20_37, 1, testV20_38, (by constructor <;> decide +kernel), ?_, ?_, ?_, ?_⟩,
      ⟨testS20_39, 0, testV20_36, (by constructor <;> decide +kernel), ?_, ?_⟩, ⟨testS20_40, ?_⟩⟩ <;> decide +kernel

def testQp : Qp := { port := 0, flags := 7, partition := 0, pmtu := 0, region := 2, destQpn := 9, psnRx := 5, psnFirst := 5, psnTx := 0, vlan := 0xFFFF, dscp := 0, mac := [], ip := [], ringOff := 0, slots := 64, slotSize := 256, error := false, rate := 800000, rateAt := 0#64, cnpSent := none, gap := false, arrived := 0#64, msg := none }
def testEther (x : Qp) : State := { testLive { testUp with ether := true } with qps := [(4, x)], regions := [(2, Region.mk 2 0 1 0x10000 0x10000 false false (2 * 2 ^ 20 + 5)), (3, Region.mk 2 0 1 0 0x10000 false false (3 * 2 ^ 20 + 5))], dict := [(dkey 0x5102 1, 0x0A000001)], blobs := [(dkey 0x5101 1, List.replicate 16 6#8), (dkey 0x5103 1, List.replicate 6 2#8)] }
def testPkt (psn : Nat) (op : RoceOp) : RocePkt := { intact := true, qpn := 0x100004, psn := psn, ce := false, op := op }
/-- An Ethernet frame to a group address: type, and the bytes behind it by offset. -/
def testEth (type : List Byte) (fs : List (Nat × Nat × Nat)) : List Byte := testBlock 12 [(0, 1, 1)] ++ type ++ testBlock 72 fs
def testArp : List Byte := testEth [8#8, 6#8] [(1, 1, 1), (2, 1, 8), (7, 1, 1), (24, 1, 10), (27, 1, 1)]
def testSolicit : List Byte := testEth [0x86#8, 0xDD#8] ([(6, 1, 58), (40, 1, 135)] ++ (List.range 16).map (fun i => (48 + i, 1, 6)))
def testUdp : List Byte := testEth [8#8, 0#8] [(0, 1, 0x45), (9, 1, 17), (22, 1, 0x12), (23, 1, 0xB7)]
def testQpBlock : List Byte := testBlock 64 [(0, 2, 9), (2, 1, 0), (3, 1, 7), (4, 1, 0), (5, 1, 2), (6, 2, 2), (8, 4, 9), (12, 4, 2 ^ 24 - 1), (0x14, 2, 0xFFFF), (0x18, 6, 77), (0x34, 2, 64), (0x36, 2, 256)]
def testKeeperEther : State := { testEther testQp with fieldUsable := true, keeper := testKeeper.keeper }

def testS21_1 : State := testEther testQp
def testV21_2 : RocePkt := { testPkt 5 .unsupported with qpn := 0x100005 }
def testV21_3 : RocePkt := testPkt 5 (.write true true none 0x100 (3 * 2 ^ 20 + 5) 4 [1#8, 2#8, 3#8, 4#8])
def testS21_4 : State := testEther { testQp with slots := 16, slotSize := 1024 }
def testV21_5 : RocePkt := testPkt 5 (.send true false none (List.replicate 1024 1#8))
def testV21_6 : Qp := { testQp with slots := 16, slotSize := 1024 }
def testV21_7 : RocePkt := testPkt 5 (.read 0x100 (3 * 2 ^ 20 + 5) 8)
def testV21_8 : RocePkt := testPkt 4 .unsupported
def testV21_9 : RocePkt := testPkt 7 .unsupported
def testS21_10 : State := testEther { testQp with gap := true }
def testV21_11 : Qp := { testQp with gap := true }
def testV21_12 : RocePkt := testPkt 5 .unsupported
def testS21_13 : State := { testEther testQp with time := 4294967295#64 }
def testV21_14 : DictRow := testRow 0x5110 0
def testS21_15 : State := { testKeeperEther with qps := [(9, testQp)] }
def testV21_16 : DictRow := testRow 0x5111 0

theorem witness_EthernetAndRoce :
  (∃ (s : State) (p : Nat) (b : List Byte) (ok : Bool), LivePort s p ∧ (s.port p).link = .up ∧ (s.port p).ether = true ∧ ok = true ∧
    s.ethKind p b = .arp) ∧
  (∃ (s : State) (p : Nat) (b : List Byte) (ok : Bool), LivePort s p ∧ (s.port p).link = .up ∧ (s.port p).ether = true ∧ ok = true ∧
    s.ethKind p b = .solicit) ∧
  (∃ (s : State) (p : Nat) (b : List Byte) (ok : Bool), LivePort s p ∧ (s.port p).link = .up ∧ (s.port p).ether = true ∧ ok = true ∧
    s.ethKind p b = .roce) ∧
  (∃ (s : State) (p : Nat) (b : List Byte) (ok : Bool), LivePort s p ∧ (s.port p).link = .up ∧ (s.port p).ether = true ∧
    (ok = false ∨ s.ethKind p b = .other)) ∧
  (∃ (s : State) (p : Nat) (k : RocePkt), LivePort s p ∧ (s.port p).link = .up ∧ (s.port p).ether = true ∧
    (k.intact = false ∨ tabFind s.qps (k.qpn - 0x100000) = none)) ∧
  (∃ (s : State) (p q : Nat) (k : RocePkt) (x : Qp), LivePort s p ∧ (s.port p).link = .up ∧ k.intact = true ∧ k.qpn = 0x100000 + q ∧
    tabFind s.qps q = some x ∧ x.port = p ∧ x.error = false ∧ k.ce = false ∧ x.psnRx < 2 ^ 24 ∧ k.psn = x.psnRx ∧
    (∃ (va rkey : Nat) (bs : List Byte) (g ring : Region), k.op = .write true true none va rkey bs.length bs ∧ bitAt x.flags 0 = true ∧ x.msg = none ∧
    bs.length ≤ x.mtu ∧ s.keyRegion x rkey va bs.length = some g ∧ tabFind s.regions x.region = some ring)) ∧
  (∃ (s : State) (p q : Nat) (k : RocePkt) (x : Qp), LivePort s p ∧ (s.port p).link = .up ∧ k.intact = true ∧ k.qpn = 0x100000 + q ∧
    tabFind s.qps q = some x ∧ x.port = p ∧ x.error = false ∧ k.ce = false ∧ x.psnRx < 2 ^ 24 ∧ k.psn = x.psnRx ∧ (∃ (bs : List Byte) (r : Region),
    k.op = .send true false none bs ∧ tabFind s.regions x.region = some r ∧ bs.length ≤ x.slotSize ∧ x.msg = none ∧ bs.length = x.mtu ∧
    s.ringFull x r = false)) ∧
  (∃ (s : State) (p q : Nat) (k : RocePkt) (x : Qp), LivePort s p ∧ (s.port p).link = .up ∧ k.intact = true ∧ k.qpn = 0x100000 + q ∧
    tabFind s.qps q = some x ∧ x.port = p ∧ x.error = false ∧ k.ce = false ∧ x.psnRx < 2 ^ 24 ∧ k.psn = x.psnRx ∧
    (∃ (b : List Byte) (va rkey n : Nat) (g : Region), k.op = .read va rkey n ∧ bitAt x.flags 1 = true ∧ n ≤ x.mtu ∧ x.mtu ≤ 2 ^ 24 ∧ x.msg = none ∧
    s.keyRegion x rkey va n = some g ∧ (∃ z, ({ s with qps := tabSet s.qps q { x with psnRx := (x.psnRx + 1) % 2 ^ 24, gap := false } }).vread g.context .read va n = .ok b false z))) ∧
  (∃ (s : State) (p q : Nat) (k : RocePkt) (x : Qp), LivePort s p ∧ (s.port p).link = .up ∧ k.intact = true ∧ k.qpn = 0x100000 + q ∧
    tabFind s.qps q = some x ∧ x.port = p ∧ x.error = false ∧ k.ce = false ∧ x.psnRx < 2 ^ 24 ∧ 2 ^ 23 ≤ (k.psn + 2 ^ 24 - x.psnRx) % 2 ^ 24 ∧
    (∀ va rkey n, k.op ≠ .read va rkey n)) ∧
  (∃ (s : State) (p q : Nat) (k : RocePkt) (x : Qp), LivePort s p ∧ (s.port p).link = .up ∧ k.intact = true ∧ k.qpn = 0x100000 + q ∧
    tabFind s.qps q = some x ∧ x.port = p ∧ x.error = false ∧ k.ce = false ∧ x.psnRx < 2 ^ 24 ∧ 0 < (k.psn + 2 ^ 24 - x.psnRx) % 2 ^ 24 ∧
    (k.psn + 2 ^ 24 - x.psnRx) % 2 ^ 24 < 2 ^ 23 ∧ x.gap = false ∧ (s.port p).err.msb = false) ∧
  (∃ (s : State) (p q : Nat) (k : RocePkt) (x : Qp), LivePort s p ∧ (s.port p).link = .up ∧ k.intact = true ∧ k.qpn = 0x100000 + q ∧
    tabFind s.qps q = some x ∧ x.port = p ∧ x.error = false ∧ k.ce = false ∧ x.psnRx < 2 ^ 24 ∧ 0 < (k.psn + 2 ^ 24 - x.psnRx) % 2 ^ 24 ∧
    (k.psn + 2 ^ 24 - x.psnRx) % 2 ^ 24 < 2 ^ 23 ∧ x.gap = true) ∧
  (∃ (s : State) (p q : Nat) (k : RocePkt) (x : Qp), LivePort s p ∧ (s.port p).link = .up ∧ k.intact = true ∧ k.qpn = 0x100000 + q ∧
    tabFind s.qps q = some x ∧ x.port = p ∧ x.error = false ∧ k.ce = false ∧ x.psnRx < 2 ^ 24 ∧ k.psn = x.psnRx ∧ k.op = .unsupported) ∧
  (∃ (s : State) (p q : Nat) (x : Qp), LivePort s p ∧ tabFind s.qps q = some x ∧ x.port = p) ∧
  (∃ (s : State) (q : Nat) (x : Qp), s.running = true ∧ tabFind s.qps q = some x ∧ 1000 * s.entry 0x5116 0 ≤ (s.time - x.rateAt).toNat) ∧
  (∃ (s : State) (r : KdpRequest) (x : Session) (d : DictRow) (sub : Nat) (v : List Byte), KdpWrites s r x d 0x5110 sub v ∧ s.running = true ∧
    s.qpOk v = true ∧ (let q := leAt v 0 2
    let q := leAt v 0 2
    tabFind s.qps q = none)) ∧
  (∃ (s : State) (r : KdpRequest) (x : Session) (d : DictRow) (sub : Nat) (v : List Byte), KdpWrites s r x d 0x5110 sub v ∧ s.running = true ∧
    s.qpOk v = true ∧ (let q := leAt v 0 2
    let q := leAt v 0 2
    (tabFind s.qps q).isSome = true)) ∧
  (∃ (s : State) (r : KdpRequest) (x : Session) (d : DictRow) (sub : Nat) (v : List Byte), KdpWrites s r x d 0x5111 sub v ∧ s.running = true ∧
    (tabFind s.qps (leNat v)).isSome = true) := by
  refine ⟨⟨testS21_1, 0, testArp, true, (by constructor <;> decide +kernel), ?_, ?_, ?_, ?_⟩,
      ⟨testS21_1, 0, testSolicit, true, (by constructor <;> decide +kernel), ?_, ?_, ?_, ?_⟩,
      ⟨testS21_1, 0, testUdp, true, (by constructor <;> decide +kernel), ?_, ?_, ?_, ?_⟩,
      ⟨testS21_1, 0, testUdp, false, (by constructor <;> decide +kernel), ?_, ?_, ?_⟩, ⟨testS21_1, 0, testV21_2, (by constructor <;> decide +kernel),
      ?_, ?_, ?_⟩, ⟨testS21_1, 0, 4, testV21_3, testQp, (by constructor <;> decide +kernel), ?_, ?_, ?_, ?_, ?_, ?_, ?_, ?_, ?_,
      ⟨0x100, 3 * 2 ^ 20 + 5, [1#8, 2#8, 3#8, 4#8], Region.mk 2 0 1 0 0x10000 false false (3 * 2 ^ 20 + 5),
      Region.mk 2 0 1 0x10000 0x10000 false false (2 * 2 ^ 20 + 5), ?_, ?_, ?_, ?_, ?_, ?_⟩⟩,
      ⟨testS21_4, 0, 4, testV21_5, testV21_6, (by constructor <;> decide +kernel), ?_, ?_, ?_, ?_, ?_, ?_, ?_, ?_, ?_,
      ⟨List.replicate 1024 1#8, Region.mk 2 0 1 0x10000 0x10000 false false (2 * 2 ^ 20 + 5), ?_, ?_, ?_, ?_, ?_, ?_⟩⟩,
      ⟨testS21_1, 0, 4, testV21_7, testQp, (by constructor <;> decide +kernel), ?_, ?_, ?_, ?_, ?_, ?_, ?_, ?_, ?_,
      ⟨[0x63#8, 0#8, 0#8, 0#8, 1#8, 0#8, 0#8, 0#8], 0x100, 3 * 2 ^ 20 + 5, 8, Region.mk 2 0 1 0 0x10000 false false (3 * 2 ^ 20 + 5), ?_, ?_, ?_, ?_,
      ?_, ?_, ?_⟩⟩, ⟨testS21_1, 0, 4, testV21_8, testQp, (by constructor <;> decide +kernel), ?_, ?_, ?_, ?_, ?_, ?_, ?_, ?_,
      ?_, testNoRead (by decide +kernel)⟩, ⟨testS21_1, 0, 4, testV21_9, testQp, (by constructor <;> decide +kernel), ?_, ?_, ?_, ?_, ?_, ?_, ?_, ?_,
      ?_, ?_, ?_, ?_⟩, ⟨testS21_10, 0, 4, testV21_9, testV21_11, (by constructor <;> decide +kernel), ?_, ?_, ?_, ?_, ?_, ?_, ?_, ?_, ?_, ?_, ?_⟩,
      ⟨testS21_1, 0, 4, testV21_12, testQp, (by constructor <;> decide +kernel), ?_, ?_, ?_, ?_, ?_, ?_, ?_, ?_, ?_, ?_⟩,
      ⟨testS21_1, 0, 4, testQp, (by constructor <;> decide +kernel), ?_, ?_⟩, ⟨testS21_13, 4, testQp, ?_, ?_, ?_⟩,
      ⟨testKeeperEther, testWrite 0x5110 0 testQpBlock, testSession, testV21_14, 0, testQpBlock, testWrites _ _ _ _ (by constructor <;> decide +kernel) (by decide) (by decide +kernel) (by decide +kernel) (by decide +kernel) (by decide +kernel) (by decide +kernel),
      ?_, ?_, ?_⟩, ⟨testS21_15, testWrite 0x5110 0 testQpBlock, testSession, testV21_14, 0, testQpBlock,
      testWrites _ _ _ _ (by constructor <;> decide +kernel) (by decide) (by decide +kernel) (by decide +kernel) (by decide +kernel) (by decide +kernel) (by decide +kernel),
      ?_, ?_, ?_⟩, ⟨testKeeperEther, testWrite 0x5111 0 [4#8, 0#8], testSession, testV21_16, 0, [4#8, 0#8],
      testWrites _ _ _ _ (by constructor <;> decide +kernel) (by decide) (by decide +kernel) (by decide +kernel) (by decide +kernel) (by decide +kernel) (by decide +kernel),
      ?_, ?_⟩⟩ <;> decide +kernel

def testCheck : TasterCheck := { launch := 1, cell := 5, pass := testPass, key := 0#128, sum := 9#64, first := none, on := none }
/-- The error after which the check ends with sum `v`. -/
def testErr (v : Nat) : DWord := captureSum 0#128 testPass ^^^ BitVec.ofNat 64 v
def testTasting (t : TasterCheck) : State := { testDevice with tasters := [(3, t)], launches := [(1, { testLaunch with verdicts := 1 })] }
def testReplica : Replica := { replicaFrom [] with setId := 6, copies := 2, context := 1, vbase := 0x10000, length := 0x10000, version := 3#64, h := 5#128 }
def testReplicas (r : Replica) : State := { testDevice with replicas := [(0, r)], fieldUsable := true, keeper := testKeeper.keeper }
def testReplicaBlock : List Byte := testBlock 128 [(0, 4, 7), (4, 1, 2), (5, 1, 1), (8, 2, 1), (16, 8, 0x10000), (24, 8, 0x10000), (0x28, 1, 5), (0x40, 2, 4095)]
def testVersion : List Byte := testBlock 16 [(0, 4, 6), (8, 8, 4)]

def testS22_1 : State := testTasting testCheck
def testL22_2 : Launch := { testLaunch with verdicts := 1 }
def testS22_3 : State := testTasting { testCheck with first := some (6, 8#64) }
def testV22_4 : TasterCheck := { testCheck with first := some (6, 8#64) }
def testS22_5 : State := testTasting { testCheck with on := some 4 }
def testV22_6 : TasterCheck := { testCheck with on := some 4 }
def testS22_7 : State := testTasting { testCheck with first := some (6, 8#64), on := some 4 }
def testV22_8 : TasterCheck := { testCheck with first := some (6, 8#64), on := some 4 }
def testS22_9 : State := { testDevice with health := [(4, { Health.clean with pending := true })] }
def testS22_10 : State := { testKeeper with quarantined := 3#128, health := [(0, { Health.clean with strikes := [0#64] })] }
def testV22_11 : DictRow := testRow 0x6057 0

theorem witness_TasterVerdictsAndQuarantine :
  (∃ (s : State) (id c : Nat) (t : TasterCheck), OnCell s c ∧ tabFind s.tasters id = some t ∧ t.on = none ∧ s.mayCheck t c = true) ∧
  (∃ (s : State) (id : Nat) (t : TasterCheck) (l : Launch), s.running = true ∧ tabFind s.tasters id = some t ∧ t.on = none ∧
    s.launch? t.launch = some l ∧ t.first = none ∧ (∀ c, l.cells.head? = some c → ThreadRuns s c)) ∧
  (∃ (s : State) (id : Nat) (t : TasterCheck) (l : Launch), s.running = true ∧ tabFind s.tasters id = some t ∧ t.on = none ∧
    s.launch? t.launch = some l ∧ (∃ (d : Nat) (sum : _), t.first = some (d, sum) ∧ l.phase ≠ .ended)) ∧
  (∃ (s : State) (id c : Nat) (t : TasterCheck) (l : Launch) (err : DWord), s.running = true ∧ tabFind s.tasters id = some t ∧ t.on = some c ∧
    s.launch? t.launch = some l ∧ (let sum := captureSum t.key t.pass ^^^ err
    let sum := captureSum t.key t.pass ^^^ err
    t.first = none ∧ sum = t.sum ∧ (∀ d, l.cells.head? = some d → ThreadRuns s d))) ∧
  (∃ (s : State) (id c : Nat) (t : TasterCheck) (l : Launch) (err : DWord), s.running = true ∧ tabFind s.tasters id = some t ∧ t.on = some c ∧
    s.launch? t.launch = some l ∧ (let sum := captureSum t.key t.pass ^^^ err
    let sum := captureSum t.key t.pass ^^^ err
    t.first = none ∧ sum ≠ t.sum)) ∧
  (∃ (s : State) (id c : Nat) (t : TasterCheck) (l : Launch) (err : DWord), s.running = true ∧ tabFind s.tasters id = some t ∧ t.on = some c ∧
    s.launch? t.launch = some l ∧ (let sum := captureSum t.key t.pass ^^^ err
    let sum := captureSum t.key t.pass ^^^ err
    ∃ (d : Nat) (other : _), t.first = some (d, other) ∧ sum = t.sum ∧ (s.strikesOf d).length + 1 < s.entry 0x6055 0 ∧
    (∀ k, l.cells.head? = some k → ThreadRuns s k))) ∧
  (∃ (s : State) (id c : Nat) (t : TasterCheck) (l : Launch) (err : DWord), s.running = true ∧ tabFind s.tasters id = some t ∧ t.on = some c ∧
    s.launch? t.launch = some l ∧ (let sum := captureSum t.key t.pass ^^^ err
    let sum := captureSum t.key t.pass ^^^ err
    ∃ (d : Nat), t.first = some (d, sum) ∧ sum ≠ t.sum ∧ l.phase ≠ .ended ∧ (s.strikesOf t.cell).length + 1 < s.entry 0x6055 0)) ∧
  (∃ (s : State) (id c : Nat) (t : TasterCheck) (l : Launch) (err : DWord), s.running = true ∧ tabFind s.tasters id = some t ∧ t.on = some c ∧
    s.launch? t.launch = some l ∧ (let sum := captureSum t.key t.pass ^^^ err
    let sum := captureSum t.key t.pass ^^^ err
    ∃ (d : Nat) (other : _), t.first = some (d, other) ∧ sum ≠ t.sum ∧ sum ≠ other ∧ l.phase ≠ .ended)) ∧
  (∃ (s : State) (c : Nat), OnCell s c ∧ (s.healthOf c).pending = true ∧ (s.cell c).launch = none ∧ (∀ l ∈ s.launches, l.2.phase ≠ .saved ∧
    l.2.phase ≠ .taken)) ∧
  (∃ (s : State) (r : KdpRequest) (x : Session) (d : DictRow) (sub : Nat) (v : List Byte), KdpWrites s r x d 0x6057 sub v ∧
    (s.hourCommits (dkey 0x6057 sub)).length < 64) := by
  refine ⟨⟨testS22_1, 3, 4, testCheck, (by constructor <;> decide +kernel), ?_, ?_, ?_⟩, ⟨testS22_1, 3, testCheck, testL22_2, ?_, ?_, ?_, ?_,
      ?_, testHeadRuns (by decide +kernel)⟩, ⟨testS22_3, 3, testV22_4, testL22_2, ?_, ?_, ?_, ?_, ⟨6, 8#64, ?_, ?_⟩⟩,
      ⟨testS22_5, 3, 4, testV22_6, testL22_2, testErr 9, ?_, ?_, ?_, ?_, ?_, ?_, testHeadRuns (by decide +kernel)⟩,
      ⟨testS22_5, 3, 4, testV22_6, testL22_2, testErr 7, ?_, ?_, ?_, ?_, ?_, ?_⟩, ⟨testS22_7, 3, 4, testV22_8, testL22_2, testErr 9, ?_, ?_, ?_,
      ?_, 6, 8#64, ?_, ?_, ?_, testHeadRuns (by decide +kernel)⟩, ⟨testS22_7, 3, 4, testV22_8, testL22_2, testErr 8, ?_, ?_, ?_, ?_, 6, ?_, ?_, ?_,
      ?_⟩, ⟨testS22_7, 3, 4, testV22_8, testL22_2, testErr 7, ?_, ?_, ?_, ?_, 6, 8#64, ?_, ?_, ?_, ?_⟩,
      ⟨testS22_9, 4, (by constructor <;> decide +kernel), ?_, ?_, ?_⟩, ⟨testS22_10, testWrite 0x6057 0 (bytesLE 16 6),
      testSession, testV22_11, 0, bytesLE 16 6, testWrites _ _ _ _ (by constructor <;> decide +kernel) (by decide) (by decide +kernel) (by decide +kernel) (by decide +kernel) (by decide +kernel) (by decide +kernel),
      ?_⟩⟩ <;> decide +kernel

def testS22_12 : State := testReplicas testReplica
def testV22_13 : DictRow := testRow 0x4301 0
def testS22_14 : State := { testReplicas testReplica with replicas := (List.range 16).map (fun i => (i, testReplica)) }
def testS22_15 : State := testReplicas { testReplica with running := some 3#64 }
def testV22_16 : DictRow := testRow 0x4302 0
def testV22_17 : Replica := { testReplica with running := some 3#64 }
def testV22_18 : DictRow := testRow 0x4303 0
def testS22_19 : State := testReplicas { testReplica with suspect := true }
def testV22_20 : DictRow := testRow 0x4304 0
def testV22_21 : Replica := { testReplica with suspect := true }
def testV22_22 : List Byte := (((testReplicas testReplica).regionBytes testReplica).getD ([], false)).1
def testS22_23 : State := testReplicas { testReplica with repairing := some 1, copied := 0x10000 }
def testV22_24 : Replica := { testReplica with repairing := some 1, copied := 0x10000 }

theorem witness_ReplicasDigestAndRepair :
  (∃ (s : State) (r : KdpRequest) (x : Session) (d : DictRow) (sub : Nat) (v : List Byte), KdpWrites s r x d 0x4301 sub v ∧ s.running = true ∧
    (let c := replicaFrom v
    replicaFieldsOk v = true ∧ (s.ctx c.context).used = true ∧ (s.ctx c.context).partition = c.partition ∧
    s.mappedR c.context c.vbase c.length = true ∧ s.replicaOf c.setId = none ∧ (∃ (k : Nat), tabFree s.replicas 0 16 = some k))) ∧
  (∃ (s : State) (r : KdpRequest) (x : Session) (d : DictRow) (sub : Nat) (v : List Byte), KdpWrites s r x d 0x4301 sub v ∧ s.running = true ∧
    (let c := replicaFrom v
    replicaFieldsOk v = true ∧ (s.ctx c.context).used = true ∧ (s.ctx c.context).partition = c.partition ∧
    s.mappedR c.context c.vbase c.length = true ∧ s.replicaOf c.setId = none ∧ tabFree s.replicas 0 16 = none)) ∧
  (∃ (s : State) (r : KdpRequest) (x : Session) (d : DictRow) (sub : Nat) (v : List Byte) (k : Nat) (c : Replica), KdpWrites s r x d 0x4302 sub v ∧
    s.running = true ∧ s.replicaOf (leAt v 0 4) = some (k, c) ∧ v.length = 16 ∧ leAt v 4 4 = 0 ∧ leAt v 8 8 ≠ 0) ∧
  (∃ (s : State) (r : KdpRequest) (x : Session) (d : DictRow) (sub : Nat) (v : List Byte) (k : Nat) (c : Replica), KdpWrites s r x d 0x4303 sub v ∧
    s.running = true ∧ s.replicaOf (leNat v) = some (k, c)) ∧
  (∃ (s : State) (r : KdpRequest) (x : Session) (d : DictRow) (sub : Nat) (v : List Byte) (k : Nat) (c : Replica), KdpWrites s r x d 0x4304 sub v ∧
    s.running = true ∧ s.replicaOf (leNat v) = some (k, c)) ∧
  (∃ (s : State) (k : Nat) (c : Replica), s.running = true ∧ tabFind s.replicas k = some c ∧ s.taskOn 9 = true ∧ c.running = none ∧
    c.repairing = none) ∧
  (∃ (s : State) (k : Nat) (c : Replica) (bs : List Byte) (po : Bool), s.running = true ∧ tabFind s.replicas k = some c ∧ c.running.isSome = true ∧
    s.keeperUp = true ∧ s.regionBytes c = some (bs, po)) ∧
  (∃ (s : State) (k w : Nat) (c : Replica), s.running = true ∧ tabFind s.replicas k = some c ∧ c.repairing = some w ∧ c.copied = c.length ∧
    s.keeperUp = true) := by
  refine ⟨⟨testS22_12, testWrite 0x4301 0 testReplicaBlock, testSession, testV22_13, 0, testReplicaBlock,
      testWrites _ _ _ _ (by constructor <;> decide +kernel) (by decide) (by decide +kernel) (by decide +kernel) (by decide +kernel) (by decide +kernel) (by decide +kernel),
      ?_, ?_, ?_, ?_, ?_, ?_, ⟨1, ?_⟩⟩, ⟨testS22_14, testWrite 0x4301 0 testReplicaBlock, testSession,
      testV22_13, 0, testReplicaBlock, testWrites _ _ _ _ (by constructor <;> decide +kernel) (by decide) (by decide +kernel) (by decide +kernel) (by decide +kernel) (by decide +kernel) (by decide +kernel),
      ?_, ?_, ?_, ?_, ?_, ?_, ?_⟩, ⟨testS22_15, testWrite 0x4302 0 testVersion, testSession, testV22_16,
      0, testVersion, 0, testV22_17, testWrites _ _ _ _ (by constructor <;> decide +kernel) (by decide) (by decide +kernel) (by decide +kernel) (by decide +kernel) (by decide +kernel) (by decide +kernel),
      ?_, ?_, ?_, ?_, ?_⟩, ⟨testS22_12, testWrite 0x4303 0 (bytesLE 4 6),
      testSession, testV22_18, 0, bytesLE 4 6, 0, testReplica, testWrites _ _ _ _ (by constructor <;> decide +kernel) (by decide) (by decide +kernel) (by decide +kernel) (by decide +kernel) (by decide +kernel) (by decide +kernel),
      ?_, ?_⟩, ⟨testS22_19, testWrite 0x4304 0 (bytesLE 4 6),
      testSession, testV22_20, 0, bytesLE 4 6, 0, testV22_21, testWrites _ _ _ _ (by constructor <;> decide +kernel) (by decide) (by decide +kernel) (by decide +kernel) (by decide +kernel) (by decide +kernel) (by decide +kernel),
      ?_, ?_⟩, ⟨testS22_12, 0, testReplica, ?_, ?_, ?_, ?_, ?_⟩, ⟨testS22_15, 0, testV22_17, testV22_22, false, ?_, ?_, ?_,
      ?_, testRegionOk (by decide +kernel)⟩, ⟨testS22_23, 0, 1, testV22_24, ?_, ?_, ?_, ?_, ?_⟩⟩ <;> decide +kernel

def testV22_25 : DigestRecord := { state := 0, setId := 6, copy := 0, version := 3, digest := 9, pass := 1, stamp := 0 }
def testV22_26 : List DigestRecord := [{ state := 4, setId := 6, copy := 1, version := 3, digest := 9, pass := 1, stamp := 0 }, { state := 0, setId := 6, copy := 2, version := 3, digest := 8, pass := 1, stamp := 0 }]

theorem witness_AWinnerHoldsTheNewestMajority :
  (∃ (own : DigestRecord) (peers : List DigestRecord), decideCopy own peers = .winner) := by
  refine ⟨testV22_25, testV22_26, ?_⟩ <;> decide +kernel

def testPoisoned : State := { testDevice with dram := testDevice.dram.setPoison 9 true }
def testKeeperDram : State := { testDevice with fieldUsable := true, keeper := testKeeper.keeper }

def testV23_1 : List (Nat × Nat) := [(1, 5), (2, 6)]
def testS23_2 : State := { testDevice with rowActs := [(rowKey (dramUnit (64 * 9)) (dramRank testDevice.code (64 * 9)) (dramBank (64 * 9)) (dramRow testDevice.code (64 * 9)), 4095)] }
def testV23_3 : List Byte := List.replicate 64 3#8
def testV23_4 : List Byte := List.replicate 4 3#8
def testS23_5 : State := { testDevice with fixups := [(9, .corrective (List.replicate 64 3#8))], damage := [(9, [(1, 5)])] }
def testS23_6 : State := { testDevice with fixups := [(9, .poison (List.replicate 64 3#8))], damage := [(9, [(1, 5)])] }

theorem witness_DramReadsAndWrites :
  (∃ (s : State) (g at_ : Nat) (errs : List (Nat × Nat)) (what : ReadFor), s.running = true ∧ s.isDram (64 * g) = true ∧ s.isDram (64 * at_) = true ∧
    (let here := landErrs g at_ ++ errs
    let seen := here.foldl addErr (s.storedErrs at_)
    let here := landErrs g at_ ++ errs
    let seen := here.foldl addErr (s.storedErrs at_)
    decode16 seen = .clean)) ∧
  (∃ (s : State) (g at_ : Nat) (errs : List (Nat × Nat)) (what : ReadFor), s.running = true ∧ s.isDram (64 * g) = true ∧ s.isDram (64 * at_) = true ∧
    (let here := landErrs g at_ ++ errs
    let seen := here.foldl addErr (s.storedErrs at_)
    let here := landErrs g at_ ++ errs
    let seen := here.foldl addErr (s.storedErrs at_)
    ∃ (pos : Nat), decode16 seen = .corrected pos)) ∧
  (∃ (s : State) (g at_ : Nat) (errs : List (Nat × Nat)) (what : ReadFor), s.running = true ∧ s.isDram (64 * g) = true ∧ s.isDram (64 * at_) = true ∧
    (let here := landErrs g at_ ++ errs
    let seen := here.foldl addErr (s.storedErrs at_)
    let here := landErrs g at_ ++ errs
    let seen := here.foldl addErr (s.storedErrs at_)
    decode16 seen = .bad)) ∧
  (∃ (s : State) (g at_ : Nat) (errs : List (Nat × Nat)) (what : ReadFor), s.running = true ∧ s.isDram (64 * g) = true ∧ s.isDram (64 * at_) = true ∧
    (let here := landErrs g at_ ++ errs
    let seen := here.foldl addErr (s.storedErrs at_)
    let here := landErrs g at_ ++ errs
    let seen := here.foldl addErr (s.storedErrs at_)
    decode16 seen = .address)) ∧
  (∃ (s : State) (g at_ : Nat) (errs : List (Nat × Nat)) (what : ReadFor), s.running = true ∧ s.isDram (64 * g) = true ∧ s.isDram (64 * at_) = true ∧
    (let here := landErrs g at_ ++ errs
    let seen := here.foldl addErr (s.storedErrs at_)
    let here := landErrs g at_ ++ errs
    let seen := here.foldl addErr (s.storedErrs at_)
    decode16 seen = .poison)) ∧
  (∃ (s : State) (g : Nat) (errs : List (Nat × Nat)), s.running = true ∧ s.isDram (64 * g) = true ∧ (∀ e ∈ errs, e.1 < 36) ∧
    (let now := errs.foldl addErr (tabGet [] s.damage g)
    let met := now ++ if s.dram.hasPoison g then poisonPattern else []
    now ≠ [] ∧ (∃ (pos : Nat), decode16 met = .corrected pos))) ∧
  (∃ (s : State) (g : Nat) (errs : List (Nat × Nat)), s.running = true ∧ s.isDram (64 * g) = true ∧ (∀ e ∈ errs, e.1 < 36) ∧
    (let now := errs.foldl addErr (tabGet [] s.damage g)
    let met := now ++ if s.dram.hasPoison g then poisonPattern else []
    now ≠ [] ∧ (∃ (pos : Nat), decode16 met = .corrected pos))) ∧
  (∃ (s : State) (g : Nat), s.running = true ∧ s.isDram (64 * g) = true ∧ decode16 (s.storedErrs g) = .clean ∧ s.activates (64 * g) = true ∧
    (let u := dramUnit (64 * g)
    let place := (dramRank s.code (64 * g), dramBank (64 * g), dramRow s.code (64 * g))
    let k := rowKey u place.1 place.2.1 place.2.2
    let n := min 4095 (tabGet 0 s.rowActs k + 1)
    let u := dramUnit (64 * g)
    let place := (dramRank s.code (64 * g), dramBank (64 * g), dramRow s.code (64 * g))
    let k := rowKey u place.1 place.2.1 place.2.2
    let n := min 4095 (tabGet 0 s.rowActs k + 1)
    n < s.entry 0x4004 0)) ∧
  (∃ (s : State) (g : Nat), s.running = true ∧ s.isDram (64 * g) = true ∧ decode16 (s.storedErrs g) = .clean ∧ s.activates (64 * g) = true ∧
    (let u := dramUnit (64 * g)
    let place := (dramRank s.code (64 * g), dramBank (64 * g), dramRow s.code (64 * g))
    let k := rowKey u place.1 place.2.1 place.2.2
    let n := min 4095 (tabGet 0 s.rowActs k + 1)
    let u := dramUnit (64 * g)
    let place := (dramRank s.code (64 * g), dramBank (64 * g), dramRow s.code (64 * g))
    let k := rowKey u place.1 place.2.1 place.2.2
    let n := min 4095 (tabGet 0 s.rowActs k + 1)
    s.entry 0x4004 0 ≤ n ∧ place ∉ (s.channel u).targeted ∧ (s.channel u).targeted.length < 16)) ∧
  (∃ (s : State) (pa : Nat) (bs : List Byte) (po : Bool) (errs again : List (Nat × Nat)), s.running = true ∧ s.isDram pa = true ∧
    pa % 64 + bs.length ≤ 64 ∧ bs.length = 64) ∧
  (∃ (s : State) (pa : Nat) (bs : List Byte) (po : Bool) (errs again : List (Nat × Nat)), s.running = true ∧ s.isDram pa = true ∧
    pa % 64 + bs.length ≤ 64 ∧ bs ≠ [] ∧ bs.length < 64) ∧
  (∃ (s : State) (g : Nat) (data : List Byte), s.running = true ∧ tabFind s.fixups g = some (.corrective data) ∧
    (s.stackTherm (stackOf (64 * g))).stage = 0 ∧ data.length = 64) ∧
  (∃ (s : State) (g : Nat) (data : List Byte), s.running = true ∧ tabFind s.fixups g = some (.poison data) ∧ data.length = 64) ∧
  (∃ (s : State), s.running = true) := by
  refine ⟨⟨testDevice, 9, 9, [], .data, ?_, ?_, ?_, ?_⟩, ⟨testDevice, 2 ^ 31 - 1, 2 ^ 31 - 1, [(35, 5)], .data, ?_, ?_, ?_, 35, ?_⟩,
      ⟨testDevice, 9, 9, testV23_1, .data, ?_, ?_, ?_, ?_⟩, ⟨testDevice, 9, 73, [], .data, ?_, ?_, ?_, ?_⟩, ⟨testPoisoned, 9, 9, [], .device, ?_, ?_,
      ?_, ?_⟩, ⟨testDevice, 9, [(0, 7)], ?_, ?_, ?_, ?_, ⟨0, ?_⟩⟩, ⟨testDevice, 9, [(35, 7)], ?_, ?_, ?_, ?_, ⟨35, ?_⟩⟩, ⟨testDevice, 9, ?_, ?_, ?_,
      ?_, ?_⟩, ⟨testS23_2, 9, ?_, ?_, ?_, ?_, ?_, ?_, ?_⟩, ⟨testDevice, 0x40, testV23_3, false, [], [], ?_, ?_, ?_, ?_⟩,
      ⟨testDevice, 0x43, testV23_4, true, [], [], ?_, ?_, ?_, ?_, ?_⟩, ⟨testS23_5, 9, testV23_3, ?_, ?_, ?_, ?_⟩, ⟨testS23_6, 9, testV23_3, ?_, ?_,
      ?_⟩, ⟨testDevice, ?_⟩⟩ <;> decide +kernel

def testS23_7 : State := { testDevice with rowActs := [(rowKey 255 0 0 17, 5)] }
def testS23_8 : State := { testDevice with channels := [(255, { Channel.idle with targeted := [(0, 1, 2)] })], rowActs := [(rowKey 255 0 1 3, 5)] }
def testS23_9 : State := { testDevice with channels := [(0, { Channel.idle with targeted := [(0, 1, 65533)] })] }
def testV23_10 : List Int := [1300, 1361, 1200]
def testV23_11 : List Int := [1300, 1360, 1200]
def testS23_12 : State := { testDevice with therms := [(3, { testDevice.stackTherm 3 with temp := 1312, fast := true })] }
def testS23_13 : State := { testKeeperDram with therms := [(3, { testDevice.stackTherm 3 with fast := true }), (0, { testDevice.stackTherm 0 with hotMinute := true })] }
def testS23_14 : State := { testDevice with channels := [(255, { Channel.idle with parts := some 6 })] }
def testS23_15 : State := { testDevice with channels := [(255, { Channel.idle with parts := some 7 })] }
def testV23_16 : DictRow := testRow 0x400B 4
def testV23_17 : DictRow := testRow 0x400B 1

theorem witness_DramRefreshScrubAndTemperature :
  (∃ (s : State) (u rank bank row16 : Nat), s.running = true ∧ u < 256) ∧
  (∃ (s : State) (u rank bank row : Nat) (rest : List (Nat × Nat × Nat)), s.running = true ∧ u < 256 ∧ 2 ≤ row ∧ row + 2 < 65536 ∧
    (s.channel u).targeted = (rank, bank, row) :: rest) ∧
  (∃ (s : State) (u rank bank row : Nat) (rest : List (Nat × Nat × Nat)), s.running = true ∧ u < 256 ∧ 2 ≤ row ∧ row + 2 < 65536 ∧
    (s.channel u).targeted = (rank, bank, row) :: rest) ∧
  (∃ (s : State) (k : Nat) (ts : List Int), k < 4) ∧
  (∃ (s : State) (k : Nat) (ts : List Int), k < 4) ∧
  (∃ (s : State) (k : Nat), s.running = true ∧ k < 4 ∧ (s.stackTherm k).fast = true ∧ (s.stackTherm k).temp ≤ 1312) ∧
  (∃ (s : State), s.keeperUp = true) ∧
  (∃ (s : State) (g : Nat), s.running = true ∧ s.isDram (64 * g) = true ∧ s.taskOn 3 = true ∧ (s.stackTherm (stackOf (64 * g))).stage = 0 ∧
    decode16 (s.storedErrs g) = .clean) ∧
  (∃ (s : State) (u : Nat), s.running = true ∧ u < 256 ∧ (s.stackTherm (u / 64)).stage = 0 ∧ (s.channel u).parts = none) ∧
  (∃ (s : State) (u n : Nat), s.running = true ∧ u < 256 ∧ (s.stackTherm (u / 64)).stage = 0 ∧ (s.channel u).parts = some n ∧ n < 7) ∧
  (∃ (s : State) (u n : Nat), s.running = true ∧ u < 256 ∧ (s.stackTherm (u / 64)).stage = 0 ∧ (s.channel u).parts = some n ∧ 7 ≤ n) ∧
  (∃ (s : State) (u : Nat), s.running = true ∧ u < 256) ∧
  (∃ (s : State) (r : KdpRequest) (x : Session) (d : DictRow) (sub : Nat) (v : List Byte), KdpWrites s r x d 0x400B sub v ∧ s.running = true ∧
    1 ≤ sub ∧ sub ≤ 4) ∧
  (∃ (s : State) (r : KdpRequest) (x : Session) (d : DictRow) (sub : Nat) (v : List Byte), KdpWrites s r x d 0x400B sub v ∧ s.running = true ∧
    1 ≤ sub ∧ sub ≤ 4) := by
  refine ⟨⟨testS23_7, 255, 0, 0, 1, ?_, ?_⟩, ⟨testS23_8, 255, 0, 1, 2, [], ?_, ?_, ?_, ?_, ?_⟩, ⟨testS23_9, 0, 0, 1, 65533, [], ?_, ?_, ?_, ?_, ?_⟩,
      ⟨testDevice, 3, testV23_10, ?_⟩, ⟨testDevice, 0, testV23_11, ?_⟩, ⟨testS23_12, 3, ?_, ?_, ?_, ?_⟩, ⟨testS23_13, ?_⟩, ⟨testDevice, 9, ?_, ?_,
      ?_, ?_, ?_⟩, ⟨testDevice, 255, ?_, ?_, ?_, ?_⟩, ⟨testS23_14, 255, 6, ?_, ?_, ?_, ?_, ?_⟩, ⟨testS23_15, 255, 7, ?_, ?_, ?_, ?_, ?_⟩,
      ⟨testDevice, 255, ?_, ?_⟩, ⟨testKeeperDram, testWrite 0x400B 4 [1#8], testSession, testV23_16, 4,
      [1#8], testWrites _ _ _ _ (by constructor <;> decide +kernel) (by decide) (by decide +kernel) (by decide +kernel) (by decide +kernel) (by decide +kernel) (by decide +kernel),
      ?_, ?_, ?_⟩, ⟨testKeeperDram, testWrite 0x400B 1 [1#8], testSession, testV23_17, 1, [1#8], testWrites _ _ _ _ (by constructor <;> decide +kernel) (by decide) (by decide +kernel) (by decide +kernel) (by decide +kernel) (by decide +kernel) (by decide +kernel),
      ?_, ?_, ?_⟩⟩ <;> decide +kernel

def testVerdict : ImageVerdict := { readOk := true }
def testUnread : ImageVerdict := { readOk := false }
/-- An image header of a type, with 64 bytes of payload. -/
def testHeader (type : Nat) : List Byte := testBlock 32 [(0, 4, 0x4C54494D), (4, 2, 1), (6, 1, type), (16, 4, 64), (0x18, 4, 0x820), (0x1C, 1, 0x21)]
def testPower (s : State) (f : Power → Power) : State := { s with power := f s.power }
def testSup : State := { testDevice with fieldUsable := true, keeper := testKeeper.keeper }
def testReady (s : State) : State := testPower { s with refclk := true } (fun p => { p with path := .held })
/-- Every image area is blank. -/
def testBlank (s : State) : State := { s with boot := { s.boot with areas := [1, 2, 3, 5, 6, 7].map (fun k => (k, Memory.zero)) } }
def testLoading : State := testPower (testBlank testSup) (fun p => { p with path := .loading })
def testHostless (s : State) : State := { s with host := { s.host with rate := 0 } }

def testS24_1 : State := testPower testSup (fun p => { p with rails := tabSet p.rails 1 .off })
def testS24_2 : State := testPower testSup (fun p => { p with mode := 1, seq := .rising 6, rails := tabSet p.rails 8 .off })
def testS24_3 : State := testPower testSup (fun p => { p with rails := tabSet p.rails 2 .off })
def testS24_4 : State := testPower testSup (fun p => { p with mode := 1, upAsked := true, seq := .waiting 1, enabled := [3] })
def testS24_5 : State := testPower testSup (fun p => { p with mode := 2, upAsked := true, seq := .waiting 6, enabled := [3, 4, 5, 6, 7, 8] })
def testS24_6 : State := testPower testSup (fun p => { p with pwrok := false })
def testV24_7 : DictRow := testRow 0x2007 0
def testS24_8 : State := testPower testSup (fun p => { p with mode := 2 })
def testS24_9 : State := testPower (testReady testSup) (fun p => { p with rails := tabSet p.rails 7 .off })
def testS24_10 : State := testPower (testReady testSup) (fun p => { p with mode := 1, enabled := [3, 4], seq := .rising 2, rails := tabSet p.rails 1 .between })
def testS24_11 : State := testPower testSup (fun p => { p with mode := 1, path := .held, pmbFails := (4, 2), seq := .rising 2, enabled := [3, 4] })
def testS24_12 : State := testPower testSup (fun p => { p with mode := 1, path := .held, pmbFails := (4, 1), seq := .waiting 2, enabled := [3, 4] })
def testS24_13 : State := testPower testSup (fun p => { p with mode := 1, path := .held, pmbFails := (3, 2), seq := .rising 2, enabled := [3, 4] })

theorem witness_SuppliesComeUpInOrder :
  (∃ (s : State) (m id : Nat) (a b : ImageVerdict), s.rail 1 ≠ .good ∧ m < 3 ∧ recTrialType s.boot.inForce ≠ 1 ∧ recActive s.boot.inForce 1 ≤ 1) ∧
  (∃ (s : State) (r k : Nat), 2 ≤ r ∧ r ≤ 8 ∧ s.power.seq = .rising k ∧ r = k + 2) ∧
  (∃ (s : State) (r k : Nat), 2 ≤ r ∧ r ≤ 8 ∧ (∀ j, s.power.seq ≠ .rising j)) ∧
  (∃ (s : State) (k : Nat), s.power.seq = .waiting k ∧ s.keeperUp = true ∧ s.power.pwrok = true ∧ s.power.mode ≠ 0 ∧ s.power.upAsked = true ∧
    s.power.pmbSwapped = false ∧ s.power.trip = false ∧ (∃ (r : Nat),
    ([3, 4, 5, 6, 7, 8] : List Nat).find? (fun r => !s.power.enabled.contains r) = some r)) ∧
  (∃ (s : State) (k : Nat), s.power.seq = .waiting k ∧ s.keeperUp = true ∧ s.power.pwrok = true ∧ s.power.mode ≠ 0 ∧ s.power.upAsked = true ∧
    s.power.pmbSwapped = false ∧ s.power.trip = false ∧ ([3, 4, 5, 6, 7, 8] : List Nat).find? (fun r => !s.power.enabled.contains r) = none) ∧
  (∃ (s : State), s.power.mode = 0) ∧
  (∃ (s : State) (q : KdpRequest) (x : Session) (d : DictRow) (sub : Nat) (v : List Byte), KdpWrites s q x d 0x2007 sub v ∧ s.power.mode = 0) ∧
  (∃ (s : State) (q : KdpRequest) (x : Session) (d : DictRow) (sub : Nat) (v : List Byte), KdpWrites s q x d 0x2007 sub v ∧ s.power.mode ≠ 0 ∧
    s.power.seq = .idle ∧ s.power.pwrok = true ∧ s.power.pmbSwapped = false ∧ s.power.trip = false ∧ s.power.enabled = []) ∧
  (∃ (s : State) (code r : Nat), (s.power.path = .held ∨ s.power.path = .stopped) ∧ s.rail 1 ≠ .off ∧ s.orderBroken code r = true ∧ s.power.mode = 0) ∧
  (∃ (s : State) (code r : Nat), (s.power.path = .held ∨ s.power.path = .stopped) ∧ s.rail 1 ≠ .off ∧ s.orderBroken code r = true ∧ (∃ (e : Nat),
    s.power.mode ≠ 0 ∧ s.falling = false ∧ s.power.enabled.getLast? = some e)) ∧
  (∃ (s : State) (a p w : Nat), s.keeperUp = true ∧ s.power.pmbSwapped = false) ∧
  (∃ (s : State) (r : Nat), 1 ≤ r ∧ r ≤ 8 ∧ s.keeperUp = true ∧ s.power.pmbSwapped = false ∧ (∀ k, s.power.seq ≠ .rising k ∧
    s.power.seq ≠ .waiting k)) ∧
  (∃ (s : State) (r : Nat), 1 ≤ r ∧ r ≤ 8 ∧ s.keeperUp = true ∧ s.power.pmbSwapped = false ∧ (∃ (k : Nat),
    (s.power.seq = .rising k ∨ s.power.seq = .waiting k) ∧ s.power.pmbFails.1 = r ∧ 2 ≤ s.power.pmbFails.2 ∧ s.power.path = .held ∧
    s.power.recovering = false ∧ s.power.mode ≠ 0) ∧ (∃ (k : Nat), (s.power.seq = .rising k ∨ s.power.seq = .waiting k))) ∧
  (∃ (s : State) (r : Nat), 1 ≤ r ∧ r ≤ 8 ∧ s.keeperUp = true ∧ s.power.pmbSwapped = false ∧ (∃ (k : Nat),
    (s.power.seq = .rising k ∨ s.power.seq = .waiting k) ∧ s.power.pmbFails.1 = r ∧ s.power.pmbFails.2 < 2) ∧ (∃ (k : Nat),
    (s.power.seq = .rising k ∨ s.power.seq = .waiting k))) ∧
  (∃ (s : State) (r : Nat), 1 ≤ r ∧ r ≤ 8 ∧ s.keeperUp = true ∧ s.power.pmbSwapped = false ∧ (∃ (k : Nat),
    (s.power.seq = .rising k ∨ s.power.seq = .waiting k) ∧ s.power.pmbFails.1 ≠ r) ∧ (∃ (k : Nat),
    (s.power.seq = .rising k ∨ s.power.seq = .waiting k))) := by
  refine ⟨⟨testS24_1, 2, 7, testVerdict, testUnread, ?_, ?_, ?_, ?_⟩, ⟨testS24_2, 8, 6, ?_, ?_, ?_, ?_⟩, ⟨testS24_3, 2, 0, ?_,
      ?_, testNotRising (by decide +kernel)⟩, ⟨testS24_4, 1, ?_, ?_, ?_, ?_, ?_, ?_, ?_, ⟨4, ?_⟩⟩, ⟨testS24_5, 6, ?_, ?_, ?_, ?_, ?_, ?_, ?_, ?_⟩,
      ⟨testS24_6, ?_⟩, ⟨testSup, testWrite 0x2007 0 [1#8], testSession, testV24_7, 0, [1#8], testWrites _ _ _ _ (by constructor <;> decide +kernel) (by decide) (by decide +kernel) (by decide +kernel) (by decide +kernel) (by decide +kernel) (by decide +kernel),
      ?_⟩, ⟨testS24_8, testWrite 0x2007 0 [1#8], testSession, testV24_7, 0, [1#8], testWrites _ _ _ _ (by constructor <;> decide +kernel) (by decide) (by decide +kernel) (by decide +kernel) (by decide +kernel) (by decide +kernel) (by decide +kernel),
      ?_, ?_, ?_, ?_, ?_, ?_⟩, ⟨testS24_9, 2, 8, ?_, ?_, ?_, ?_⟩, ⟨testS24_10, 1, 2, ?_, ?_, ?_, ⟨4, ?_, ?_, ?_⟩⟩, ⟨testSup, 1, 0, 0, ?_, ?_⟩,
      ⟨testSup, 8, ?_, ?_, ?_, ?_, testStill (by decide +kernel)⟩, ⟨testS24_11, 4, ?_, ?_, ?_, ?_, ⟨⟨2, ?_, ?_, ?_, ?_, ?_, ?_⟩, ⟨2, ?_⟩⟩⟩,
      ⟨testS24_12, 4, ?_, ?_, ?_, ?_, ⟨⟨2, ?_, ?_, ?_⟩, ⟨2, ?_⟩⟩⟩, ⟨testS24_13, 4, ?_, ?_, ?_, ?_, ⟨⟨2, ?_, ?_⟩, ⟨2, ?_⟩⟩⟩⟩ <;> decide +kernel

def testS24_14 : State := testReady testSup
def testS24_15 : State := testPower (testReady testSup) (fun p => { p with mode := 2, seq := .up })
def testS24_16 : State := testPower testSup (fun p => { p with resetN := false })
def testS24_17 : State := testPower { testSup with host := { testSup.host with rate := 1 } } (fun p => { p with mode := 2 })
def testV24_18 : DictRow := testRow 0x2008 0
def testS24_19 : State := testPower (testHostless testSup) (fun p => { p with mode := 2, seq := .up, enabled := [3, 4, 5, 6, 7, 8] })
def testS24_20 : State := testPower (testHostless testSup) (fun p => { p with mode := 2, path := .held, seq := .falling 6, down := true, enabled := [3, 4, 5, 6, 7, 8] })
def testS24_21 : State := testPower testSup (fun p => { p with path := .stopped })
def testV24_22 : DictRow := testRow 0x6058 0
def testS24_23 : State := testPower testSup (fun p => { p with path := .stopped, trip := true, tripHolds := [8] })
def testS24_24 : State := testPower testSup (fun p => { p with path := .stopped, trip := true })
def testS24_25 : State := testPower { testSup with manager := { testSup.manager with edge := 1360 } } (fun p => { p with path := .stopped, trip := true })
def testS24_26 : State := { testHostless testSup with refclk := true }
def testS24_27 : State := { testSup with refclk := true, host := { testSup.host with rate := 1 } }
def testS24_28 : State := testPower testSup (fun p => { p with srefPresent := false })

theorem witness_TheDataPathStartsAndStops :
  (∃ (s : State), s.power.path = .held ∧ (∀ i, i < 8 → s.rail (i + 1) = .good) ∧ s.power.pwrok = true ∧ s.power.resetN = true ∧ s.refclk = true ∧
    s.power.orderHold = false ∧ (s.power.mode = 0 ∨ s.power.seq = .up) ∧ s.keeperUp = true ∧ s.power.trip = false) ∧
  (∃ (s : State), s.power.path = .held ∧ (∀ i, i < 8 → s.rail (i + 1) = .good) ∧ s.power.pwrok = true ∧ s.power.resetN = true ∧ s.refclk = true ∧
    s.power.orderHold = false ∧ (s.power.mode = 0 ∨ s.power.seq = .up) ∧ s.keeperUp = true ∧ s.power.trip = false) ∧
  (∃ (s : State) (fa fb ua ub : ImageVerdict), s.power.path = .loading ∧ s.keeperUp = true ∧ (let fw := s.loadType 2 fa fb
    let uc := fw.2.loadType 3 ua ub
    let z := uc.2
    z.power.poisonAll = false ∧ z.power.recovering = false)) ∧
  (∃ (s : State), s.power.path = .running ∧ s.power.pwrok = true ∧ s.power.mode = 0 ∧ s.power.trip = false ∧ s.power.recovering = false ∧
    s.capturing = false) ∧
  (∃ (s : State), s.power.path = .running ∧ s.capturing = false) ∧
  (∃ (s : State) (q : KdpRequest) (x : Session) (d : DictRow) (sub : Nat) (v : List Byte), KdpWrites s q x d 0x2008 sub v ∧ s.power.mode ≠ 0 ∧
    s.host.fn ≠ .disabled ∧ s.host.rate ≠ 0) ∧
  (∃ (s : State) (q : KdpRequest) (x : Session) (d : DictRow) (sub : Nat) (v : List Byte), KdpWrites s q x d 0x2008 sub v ∧ s.power.mode ≠ 0 ∧
    s.host.rate = 0 ∧ s.falling = false ∧ s.power.path = .running ∧ s.capturing = false) ∧
  (∃ (s : State), s.power.path = .running ∧ tabSorted s.power.rails = true ∧ s.capturing = false) ∧
  (∃ (s : State) (r : Nat), 2 ≤ r ∧ r ≤ 8 ∧ (r ≠ 8 ∨ s.host.rate = 0) ∧ s.power.seq ≠ .falling (r - 2) ∧ (r ≠ 6 ∧ r ≠ 7 ∨ s.rail r = .off)) ∧
  (∃ (s : State) (r : Nat), 2 ≤ r ∧ r ≤ 8 ∧ (r ≠ 8 ∨ s.host.rate = 0) ∧ s.power.seq ≠ .falling (r - 2) ∧ (r = 6 ∨ r = 7) ∧ s.rail r ≠ .off) ∧
  (∃ (s : State) (r : Nat), 2 ≤ r ∧ r ≤ 8 ∧ (r ≠ 8 ∨ s.host.rate = 0) ∧ (∃ (e : Nat), s.power.seq = .falling (r - 2) ∧ (r ≠ 6 ∧ r ≠ 7) ∧
    s.power.down = true ∧ s.power.enabled.getLast? = some e)) ∧
  (∃ (s : State) (dram : Bool) (n : Nat) (v : Int), (if dram then 1600 else 1792) ≤ v ∧ s.power.mode = 0) ∧
  (∃ (s : State) (dram : Bool) (n : Nat) (v : Int), (if dram then 1600 else 1792) ≤ v ∧ s.power.mode = 0) ∧
  (∃ (s : State) (r mv : Nat), (s.running = true ∨ s.power.path = .loading) ∧ 1 ≤ r ∧ r ≤ 8 ∧ s.supplyBad r mv = true ∧ s.power.mode = 0) ∧
  (∃ (s : State) (r mv : Nat), (s.running = true ∨ s.power.path = .loading) ∧ 1 ≤ r ∧ r ≤ 8 ∧ s.supplyBad r mv = true ∧ s.power.mode = 0) ∧
  (∃ (s : State) (r mv : Nat), (s.running = true ∨ s.power.path = .loading) ∧ 1 ≤ r ∧ r ≤ 8 ∧ s.supplyBad r mv = true ∧ s.power.mode = 0) ∧
  (∃ (s : State) (q : KdpRequest) (x : Session) (d : DictRow) (sub : Nat) (v : List Byte), KdpWrites s q x d 0x6058 sub v ∧ leNat v = 1 ∧
    s.power.path = .stopped ∧ s.power.recovering = false ∧ s.power.trip = false) ∧
  (∃ (s : State) (q : KdpRequest) (x : Session) (d : DictRow) (sub : Nat) (v : List Byte), KdpWrites s q x d 0x6058 sub v ∧ leNat v = 1 ∧
    s.power.path = .stopped ∧ s.power.recovering = false ∧ s.power.trip = true ∧ (1360 < s.manager.edge ∨ s.power.tripHolds ≠ [])) ∧
  (∃ (s : State) (q : KdpRequest) (x : Session) (d : DictRow) (sub : Nat) (v : List Byte), KdpWrites s q x d 0x6058 sub v ∧ leNat v = 1 ∧
    s.power.path = .stopped ∧ s.power.recovering = false ∧ s.power.trip = true ∧ s.power.tripHolds = [] ∧ (∀ c ∈ s.manager.combs, c.2.temp ≤ 1360) ∧
    s.manager.edge ≤ 1360 ∧ (∀ k ∈ s.therms, k.2.temp ≤ 1360) ∧ s.power.mode = 0) ∧
  (∃ (s : State) (q : KdpRequest) (x : Session) (d : DictRow) (sub : Nat) (v : List Byte), KdpWrites s q x d 0x6058 sub v ∧ leNat v = 1 ∧
    s.power.path = .stopped ∧ s.power.recovering = false ∧ s.power.trip = true ∧ s.power.tripHolds = [] ∧ (∀ c ∈ s.manager.combs, c.2.temp ≤ 1360) ∧
    s.manager.edge ≤ 1360 ∧ (∀ k ∈ s.therms, k.2.temp ≤ 1360) ∧ s.power.mode = 0) ∧
  (∃ (s : State), s.refclk = true ∧ s.power.path = .running ∧ s.host.rate = 0) ∧
  (∃ (s : State), s.refclk = true ∧ s.power.path = .running ∧ s.host.rate ≠ 0) := by
  refine ⟨⟨testS24_14, ?_, ?_, ?_, ?_, ?_, ?_, ?_, ?_, ?_⟩, ⟨testS24_15, ?_, ?_, ?_, ?_, ?_, ?_, ?_, ?_, ?_⟩,
      ⟨testLoading, testVerdict, testVerdict, testUnread, testUnread, ?_, ?_, ?_, ?_⟩, ⟨testSup, ?_, ?_, ?_, ?_, ?_, ?_⟩, ⟨testSup, ?_, ?_⟩,
      ⟨testS24_17, testWrite 0x2008 0 [1#8], testSession, testV24_18, 0, [1#8], testWrites _ _ _ _ (by constructor <;> decide +kernel) (by decide) (by decide +kernel) (by decide +kernel) (by decide +kernel) (by decide +kernel) (by decide +kernel),
      ?_, ?_, ?_⟩, ⟨testS24_19, testWrite 0x2008 0 [1#8], testSession, testV24_18, 0, [1#8], testWrites _ _ _ _ (by constructor <;> decide +kernel) (by decide) (by decide +kernel) (by decide +kernel) (by decide +kernel) (by decide +kernel) (by decide +kernel),
      ?_, ?_, ?_, ?_, ?_⟩, ⟨testSup, ?_, ?_, ?_⟩, ⟨testSup, 2, ?_, ?_, ?_, ?_, ?_⟩, ⟨testSup, 7, ?_, ?_, ?_, ?_, ?_, ?_⟩, ⟨testS24_20, 8, ?_, ?_, ?_,
      ⟨8, ?_, ?_, ?_, ?_⟩⟩, ⟨testSup, true, 3, 1600, ?_, ?_⟩, ⟨testSup, false, 0, 1792, ?_, ?_⟩, ⟨testSup, 7, 0, ?_, ?_, ?_, ?_, ?_⟩, ⟨testSup, 1, 0,
      ?_, ?_, ?_, ?_, ?_⟩, ⟨testLoading, 8, 99999, ?_, ?_, ?_, ?_, ?_⟩,
      ⟨testS24_21, testWrite 0x6058 0 [1#8], testSession, testV24_22, 0, [1#8], testWrites _ _ _ _ (by constructor <;> decide +kernel) (by decide) (by decide +kernel) (by decide +kernel) (by decide +kernel) (by decide +kernel) (by decide +kernel),
      ?_, ?_, ?_, ?_⟩, ⟨testS24_23, testWrite 0x6058 0 [1#8], testSession, testV24_22, 0, [1#8], testWrites _ _ _ _ (by constructor <;> decide +kernel) (by decide) (by decide +kernel) (by decide +kernel) (by decide +kernel) (by decide +kernel) (by decide +kernel),
      ?_, ?_, ?_, ?_, ?_⟩, ⟨testS24_24, testWrite 0x6058 0 [1#8], testSession, testV24_22, 0, [1#8], testWrites _ _ _ _ (by constructor <;> decide +kernel) (by decide) (by decide +kernel) (by decide +kernel) (by decide +kernel) (by decide +kernel) (by decide +kernel),
      ?_, ?_, ?_, ?_, ?_, ?_, ?_, ?_, ?_⟩,
      ⟨testS24_25, testWrite 0x6058 0 [1#8], testSession, testV24_22, 0, [1#8], testWrites _ _ _ _ (by constructor <;> decide +kernel) (by decide) (by decide +kernel) (by decide +kernel) (by decide +kernel) (by decide +kernel) (by decide +kernel),
      ?_, ?_, ?_, ?_, ?_, ?_, ?_, ?_, ?_⟩, ⟨testS24_26, ?_, ?_, ?_⟩, ⟨testS24_27, ?_, ?_, ?_⟩⟩ <;> decide +kernel

def testManaged (f : Manager → Manager) : State := { testSup with manager := f testSup.manager }
def testDown : State := { testKeeper with keeperUp := false, fieldUsable := false }
def testField (n : Nat) : State := { testKeeper with keeper := { testKeeper.keeper with field := n } }
def testTested : State := { testSup with partitions := [(0, testPart), (15, { testPart with selfTest := true })], launches := [], cells := [], queues := [], admin := { testSup.admin with work := [] } }

def testS25_1 : State := testManaged (fun m => { m with combs := [(15, { CombPower.p1 with temp := 1500, lstage := 2 })] })
def testS25_2 : State := testManaged (fun m => { m with combs := [(3, { CombPower.p1 with cap := 7 })] })
def testS25_3 : State := testManaged (fun m => { m with combs := [(3, { CombPower.p1 with cap := 3 })], calm := 10 })
def testS25_4 : State := { testSup with dict := [(dkey 0x2009 8, 4)] }
def testV25_5 : List Nat := [1, 2, 3, 4, 5, 6, 7, 8]
def testV25_6 : List (List Int) := [[1500, 1700], [], [3]]

theorem witness_PowerCapAndThermalStages :
  (∃ (s : State) (k : Nat), s.running = true ∧ k < 16 ∧ (let p := (s.ceilings k).foldl max 0
    let p := (s.ceilings k).foldl max 0
    p = (s.comb k).point)) ∧
  (∃ (s : State) (k : Nat), s.running = true ∧ k < 16 ∧ (let p := (s.ceilings k).foldl max 0
    let p := (s.ceilings k).foldl max 0
    p ≠ (s.comb k).point)) ∧
  (∃ (s : State) (combs rest : Nat), s.rail 1 = .good) ∧
  (∃ (s : State) (combs rest : Nat), s.rail 1 = .good) ∧
  (∃ (s : State) (mw mv : List Nat), s.keeperUp = true) := by
  refine ⟨⟨testDevice, 15, ?_, ?_, ?_⟩, ⟨testS25_1, 15, ?_, ?_, ?_⟩, ⟨testS25_2, 900000000, 5, ?_⟩, ⟨testS25_3, 0, 0, ?_⟩,
      ⟨testS25_4, testV25_5, [9, 10], ?_⟩⟩ <;> decide +kernel

def testS25_7 : State := { testSup with ports := [(7, { testUp with tuning := 15#4 })] }
def testS25_8 : State := testManaged (fun m => { m with combs := [(15, { CombPower.p1 with guard := 30, overdue := true })] })
def testV25_9 : DictRow := testRow 0x9011 8
def testV25_10 : DictRow := testRow 0x9012 16
def testV25_11 : DictRow := testRow 0x9020 1
def testS25_12 : State := { testTested with launches := [(1, testLaunch)], cells := testDevice.cells }
def testS25_13 : State := { testSup with counters := [(0x1FF, 4), (0x200, 5)] }
def testS25_14 : State := testManaged (fun m => { m with pinBad := [(47, 9)] })
def testS25_15 : State := testManaged (fun m => { m with pinBad := [(0, 8)] })

theorem witness_NurseTasksRun :
  (∃ (s : State) (p lane : Nat), s.running = true ∧ p < 8 ∧ lane < 4 ∧ s.keeperUp = true ∧ s.taskOn 11 = true ∧ (s.port p).ether = false ∧
    (s.port p).link = .up) ∧
  (∃ (s : State) (k : Nat) (delta : Int), s.running = true ∧ k < 16 ∧ s.keeperUp = true ∧ s.taskOn 12 = true ∧ s.combIdle k = true ∧
    (s.comb k).guard ≤ 30) ∧
  (∃ (s : State) (k : Nat) (delta : Int), s.running = true ∧ k < 16 ∧ s.keeperUp = true ∧ s.taskOn 12 = true ∧ s.combIdle k = true ∧
    (s.comb k).guard ≤ 30) ∧
  (∃ (s : State) (t k : Nat), s.keeperUp = true ∧ 1 ≤ t ∧ t ≤ 14 ∧ t ≠ 12 ∧ (t = 5 → k < 256)) ∧
  (∃ (s : State) (t k : Nat), s.keeperUp = true ∧ 1 ≤ t ∧ t ≤ 14 ∧ t ≠ 12 ∧ (t = 5 → k < 256)) ∧
  (∃ (s : State) (t k : Nat), s.keeperUp = true ∧ 1 ≤ t ∧ t ≤ 14 ∧ t = 12) ∧
  (∃ (s : State) (r : KdpRequest) (x : Session) (d : DictRow) (sub : Nat) (v : List Byte), KdpWrites s r x d 0x9011 sub v ∧ s.running = true ∧
    (s.port (sub - 1)).ether = false) ∧
  (∃ (s : State) (r : KdpRequest) (x : Session) (d : DictRow) (sub : Nat) (v : List Byte), KdpWrites s r x d 0x9012 sub v ∧ s.running = true) ∧
  (∃ (s : State) (r : KdpRequest) (x : Session) (d : DictRow) (sub : Nat) (v : List Byte), KdpWrites s r x d 0x9020 sub v ∧ s.running = true ∧
    (s.part (sub - 1)).state = .active ∧ (s.part (sub - 1)).selfTest = false ∧ s.partIdle (sub - 1) = true ∧ s.partMigrates (sub - 1) = false) ∧
  (∃ (s : State) (r : KdpRequest) (x : Session) (d : DictRow) (sub : Nat) (v : List Byte), KdpWrites s r x d 0x9020 sub v ∧ s.running = true ∧
    s.partIdle (sub - 1) = false) ∧
  (∃ (s : State) (p n : Nat), s.running = true ∧ p < 16 ∧ (s.part p).selfTest = true ∧ n < 2 ^ 30) ∧
  (∃ (s : State) (p n : Nat), s.running = true ∧ p < 16 ∧ (s.part p).selfTest = true ∧ n < 2 ^ 30) ∧
  (∃ (s : State), s.keeperUp = true) ∧
  (∃ (s : State) (n kind : Nat), s.keeperUp = true ∧ n < 48 ∧ s.manager.pinFaults = [] ∧ tabSorted s.manager.pinBad = true ∧
    tabGet 0 s.manager.pinBad n = 9) ∧
  (∃ (s : State) (n kind : Nat), s.keeperUp = true ∧ n < 48 ∧ s.manager.pinFaults = [] ∧ tabSorted s.manager.pinBad = true ∧
    tabGet 0 s.manager.pinBad n < 9) := by
  refine ⟨⟨testS25_7, 7, 3, ?_, ?_, ?_, ?_, ?_, ?_, ?_⟩, ⟨testS25_8, 15, 9, ?_, ?_, ?_, ?_, ?_, ?_⟩, ⟨testSup, 15, -9, ?_, ?_, ?_, ?_, ?_, ?_⟩,
      ⟨testSup, 14, 0, ?_, ?_, ?_, ?_, ?_⟩, ⟨testSup, 1, 0, ?_, ?_, ?_, ?_, ?_⟩, ⟨testSup, 12, 15, ?_, ?_, ?_, ?_⟩,
      ⟨testSup, testWrite 0x9011 8 [1#8], testSession, testV25_9, 8, [1#8], testWrites _ _ _ _ (by constructor <;> decide +kernel) (by decide) (by decide +kernel) (by decide +kernel) (by decide +kernel) (by decide +kernel) (by decide +kernel),
      ?_, ?_⟩, ⟨testSup, testWrite 0x9012 16 [1#8], testSession, testV25_10, 16, [1#8], testWrites _ _ _ _ (by constructor <;> decide +kernel) (by decide) (by decide +kernel) (by decide +kernel) (by decide +kernel) (by decide +kernel) (by decide +kernel),
      ?_⟩, ⟨testTested, testWrite 0x9020 1 [1#8], testSession, testV25_11, 1, [1#8], testWrites _ _ _ _ (by constructor <;> decide +kernel) (by decide) (by decide +kernel) (by decide +kernel) (by decide +kernel) (by decide +kernel) (by decide +kernel),
      ?_, ?_, ?_, ?_, ?_⟩, ⟨testS25_12, testWrite 0x9020 1 [1#8], testSession, testV25_11, 1, [1#8], testWrites _ _ _ _ (by constructor <;> decide +kernel) (by decide) (by decide +kernel) (by decide +kernel) (by decide +kernel) (by decide +kernel) (by decide +kernel),
      ?_, ?_⟩, ⟨testTested, 15, 2 ^ 30 - 1, ?_, ?_, ?_, ?_⟩, ⟨testTested, 15, 0, ?_, ?_, ?_, ?_⟩, ⟨testS25_13, ?_⟩, ⟨testS25_14, 47, 1, ?_, ?_, ?_,
      ?_, ?_⟩, ⟨testS25_15, 0, 1, ?_, ?_, ?_, ?_, ?_⟩⟩ <;> decide +kernel

def testS25_16 : State := { testKeeper with fieldUsable := false }
def testS25_17 : State := { testKeeper with fieldUsable := false, keeper := { testKeeper.keeper with duplicate := true } }
def testS25_18 : State := testField 1
def testS25_19 : State := testField 2
def testV25_20 : DictRow := testRow 0x100B 0

theorem witness_KeeperStartsAndRestarts :
  (∃ (s : State) (plca rev swap : Bool), s.keeperUp = false ∧ s.boot.recovery = false ∧ (tabFind s.boot.running 1).isSome = true ∧ s.rail 1 = .good) ∧
  (∃ (s : State), s.fieldUsable = false ∧ s.keeper.duplicate = false ∧ s.keeperUp = true) ∧
  (∃ (s : State), s.keeper.field = 1) ∧
  (∃ (s : State), s.keeper.field = 2) ∧
  (∃ (s : State) (a b : ImageVerdict), s.keeperUp = true) ∧
  (∃ (s : State) (r : KdpRequest) (x : Session) (d : DictRow) (sub : Nat) (v : List Byte), KdpWrites s r x d 0x100B sub v) ∧
  (∃ (s : State), s.keeperUp = true ∧ s.boot.aliasReady = false) := by
  refine ⟨⟨testDown, false, true, true, ?_, ?_, ?_, ?_⟩, ⟨testS25_16, ?_, ?_, ?_⟩, ⟨testS25_18, ?_⟩, ⟨testS25_19, ?_⟩,
      ⟨testSup, testVerdict, testUnread, ?_⟩,
      ⟨testSup, testWrite 0x100B 0 [1#8], testSession, testV25_20, 0, [1#8], testWrites _ _ _ _ (by constructor <;> decide +kernel) (by decide) (by decide +kernel) (by decide +kernel) (by decide +kernel) (by decide +kernel) (by decide +kernel)⟩,
      ⟨testSup, ?_, ?_⟩⟩ <;> decide +kernel

/-- A request without a tag. -/
def testPlain (op sess seg segs : Nat) (body : List Byte) : KdpRequest :=
  { frame := .udp, addr := 10, port := 20, dst := leNat allNodes, dstPort := 49820, aux := testAux, bytes := bytesLE 2 0x4B44 ++ bytesLE 1 1 ++ bytesLE 1 op ++ bytesLE 4 0 ++ bytesLE 4 sess ++ bytesLE 4 0 ++ bytesLE 2 body.length ++ bytesLE 1 0 ++ bytesLE 1 0
      ++ bytesLE 2 seg ++ bytesLE 2 segs ++ body }
def testReadBody (index sub off n : Nat) : List Byte := bytesLE 2 index ++ bytesLE 1 sub ++ bytesLE 1 0 ++ bytesLE 4 off ++ bytesLE 2 n ++ bytesLE 2 0
def testFull (index sub : Nat) : State := { testKeeper with keeper := { testKeeper.keeper with commits := [(dkey index sub, List.replicate 64 0#64)] } }
def testEntry32 : EventEntry := { time := 0#64, seq := 4, code := 0x30, severity := 3, flags := 0, data := [] }
def testUnacked : Unacked := { subscriber := 3, repeats := 2, entry := testEntry32 }
def testSlots : State := { testKeeper with blobs := [(dkey 0x7020 8, List.replicate 432 1#8)] }
def testPending : State := { testKeeper with keeper := { testKeeper.keeper with
  sessions := [(5, { testSession with opened := false })]
  assemblies := [{ path := .field 10 20, op := 6, session := 5, head := [], data := List.replicate 16984 1#8, next := 12, segs := 13 }] } }
def testBox : State := { testKeeper with keeper := { testKeeper.keeper with mailbox := { testKeeper.keeper.mailbox with request := testMemory [(0, (testPlain 2 0 0 1 (testReadBody 0x1001 0 0 4)).bytes)] } } }
def testUnserved : Option (List Byte) × State := ({ testKeeper with keeper := { testKeeper.keeper with mailbox := { testKeeper.keeper.mailbox with last := 1#64 } } }).kdpServe .mailbox (testKeeper.keeper.mailbox.request.read 0 1536) testAux
def testServed : Option (List Byte) × State := ({ testBox with keeper := { testBox.keeper with mailbox := { testBox.keeper.mailbox with last := 1#64 } } }).kdpServe .mailbox (testBox.keeper.mailbox.request.read 0 1536) testAux
def testStaging (f : Boot → Boot) : State := { testKeeper with boot := f { testKeeper.boot with update := { state := 1, type := 2, spans := [(0, 256)] } } }
def testData (off n : Nat) : List Byte := bytesLE 8 off ++ List.replicate n 3#8
def testTrial : State := { testKeeper with boot := { testKeeper.boot.writeRecord [0#8, 0#8, 0#8] 2 1 2 with running := [(2, ⟨1, true, testHeader 2⟩)], update := { state := 3, type := 2, spans := [] } } }
def testDebug (f : Debug → Debug) : State := { testSup with tracer := f testSup.tracer }
def testRecord : List Byte := List.replicate 32 1#8

def testV26_1 : Option Session := some testSession
def testV26_2 : DictRow := testRow 0x6055 0
def testV26_3 : DictRow := testRow 0x8005 0
def testS26_4 : State := testFull 0x6055 0
def testS26_5 : State := { testKeeper with log := { testKeeper.log with unacked := [testUnacked, { testUnacked with entry := { testEntry32 with seq := 3 } }] } }
def testS26_6 : State := { testKeeper with log := { testKeeper.log with unacked := [testUnacked] } }
def testS26_7 : State := { testKeeper with log := { testKeeper.log with unacked := [{ testUnacked with repeats := 1 }] } }
def testV26_8 : Unacked := { testUnacked with repeats := 1 }

theorem witness_RequestsAreAnswered :
  (∃ (s : State) (r : KdpRequest) (x : Option Session), KdpAccepts s r 0x01 x ∧ kBody r.bytes = []) ∧
  (∃ (s : State) (r : KdpRequest) (x : Option Session) (index sub off n : Nat), KdpAccepts s r 0x02 x ∧ index < 65536 ∧ sub < 256 ∧ off < 2 ^ 32 ∧
    n ≤ 1388 ∧ kBody r.bytes = bytesLE 2 index ++ bytesLE 1 sub ++ bytesLE 1 0 ++ bytesLE 4 off ++ bytesLE 2 n ++ bytesLE 2 0 ∧
    dictRow index sub = none) ∧
  (∃ (s : State) (r : KdpRequest) (x : Option Session) (index sub off n : Nat), KdpAccepts s r 0x02 x ∧ index < 65536 ∧ sub < 256 ∧ off < 2 ^ 32 ∧
    n ≤ 1388 ∧ kBody r.bytes = bytesLE 2 index ++ bytesLE 1 sub ++ bytesLE 1 0 ++ bytesLE 4 off ++ bytesLE 2 n ++ bytesLE 2 0 ∧ (∃ (d : _),
    dictRow index sub = some d ∧ (d.type.bits ≠ 0 → off = 0))) ∧
  (∃ (s : State) (r : KdpRequest) (x : Option Session) (index sub off n : Nat), KdpAccepts s r 0x02 x ∧ index < 65536 ∧ sub < 256 ∧ off < 2 ^ 32 ∧
    n ≤ 1388 ∧ kBody r.bytes = bytesLE 2 index ++ bytesLE 1 sub ++ bytesLE 1 0 ++ bytesLE 4 off ++ bytesLE 2 n ++ bytesLE 2 0 ∧ (∃ (d : _),
    dictRow index sub = some d ∧ (d.type.bits ≠ 0 → off = 0))) ∧
  (∃ (s : State) (r : KdpRequest) (x : Option Session), KdpAccepts s r 0x04 x) ∧
  (∃ (s : State) (r : KdpRequest) (x : Session) (d : DictRow) (index sub : Nat) (v : List Byte), KdpWrites s r x d index sub v ∧ index ∉ ownWrites ∧
    index ≠ 0x8020 ∧ index ≠ 0x9004 ∧ d.access = .rwp ∧ (s.hourCommits (dkey index sub)).length < 64) ∧
  (∃ (s : State) (r : KdpRequest) (x : Session) (d : DictRow) (index sub : Nat) (v : List Byte), KdpWrites s r x d index sub v ∧ index ∉ ownWrites ∧
    index ≠ 0x8020 ∧ index ≠ 0x9004 ∧ d.access = .rw) ∧
  (∃ (s : State) (r : KdpRequest) (x : Session) (d : DictRow) (index sub : Nat) (v : List Byte), KdpWrites s r x d index sub v ∧ index ∉ ownWrites ∧
    index ≠ 0x8020 ∧ index ≠ 0x9004 ∧ d.access = .rwp ∧ 64 ≤ (s.hourCommits (dkey index sub)).length) ∧
  (∃ (s : State) (r : KdpRequest) (x : Option Session) (seq : Nat), KdpAccepts s r 0x09 x ∧ kBody r.bytes = bytesLE 4 seq ∧ seq < 2 ^ 32) ∧
  (∃ (s : State) (i seq : Nat) (u : Unacked), s.log.unacked.find? (fun u => u.subscriber == i && u.entry.seq == seq) = some u ∧ s.fieldUsable = true) ∧
  (∃ (s : State) (i seq : Nat) (u : Unacked), s.log.unacked.find? (fun u => u.subscriber == i && u.entry.seq == seq) = some u ∧ s.fieldUsable = true) := by
  refine ⟨⟨testKeeper, testPlain 1 0 0 1 [], none, testAny rfl (by decide +kernel), ?_⟩,
      ⟨testKeeper, testReq (testMsg 2 (testReadBody 0x1FFF 255 0 1388)),
      testV26_1, 0x1FFF, 255, 0, 1388, testAccepts _ _ _ (by constructor <;> decide +kernel) (by decide) (by decide +kernel), ?_, ?_, ?_, ?_, ?_, ?_⟩,
      ⟨testKeeper, testReq (testMsg 2 (testReadBody 0x6055 0 0 4)),
      testV26_1, 0x6055, 0, 0, 4, testAccepts _ _ _ (by constructor <;> decide +kernel) (by decide) (by decide +kernel), ?_, ?_, ?_, ?_, ?_,
      ⟨testRow 0x6055 0, ?_, ?_⟩⟩, ⟨testKeeper, testReq (testMsg 2 (testReadBody 0x7020 8 100 50)),
      testV26_1, 0x7020, 8, 100, 50, testAccepts _ _ _ (by constructor <;> decide +kernel) (by decide) (by decide +kernel), ?_, ?_, ?_, ?_, ?_,
      ⟨testRow 0x7020 8, ?_, ?_⟩⟩, ⟨testKeeper, testReq (testMsg 4 []),
      testV26_1, testAccepts _ _ _ (by constructor <;> decide +kernel) (by decide) (by decide +kernel)⟩,
      ⟨testKeeper, testWrite 0x6055 0 [7#8], testSession, testV26_2, 0x6055, 0, [7#8], testWrites _ _ _ _ (by constructor <;> decide +kernel) (by decide) (by decide +kernel) (by decide +kernel) (by decide +kernel) (by decide +kernel) (by decide +kernel),
      ?_, ?_, ?_, ?_, ?_⟩, ⟨testKeeper, testWrite 0x8005 0 [15#8], testSession, testV26_3, 0x8005, 0, [15#8],
      testWrites _ _ _ _ (by constructor <;> decide +kernel) (by decide) (by decide +kernel) (by decide +kernel) (by decide +kernel) (by decide +kernel) (by decide +kernel),
      ?_, ?_, ?_, ?_⟩, ⟨testS26_4, testWrite 0x6055 0 [7#8], testSession, testV26_2, 0x6055, 0, [7#8],
      testWrites _ _ _ _ (by constructor <;> decide +kernel) (by decide) (by decide +kernel) (by decide +kernel) (by decide +kernel) (by decide +kernel) (by decide +kernel),
      ?_, ?_, ?_, ?_, ?_⟩, ⟨testS26_5, testPlain 9 0 0 1 (bytesLE 4 4), none, 4, testAny rfl (by decide +kernel), ?_, ?_⟩,
      ⟨testS26_6, 3, 4, testUnacked, ?_, ?_⟩, ⟨testS26_7, 3, 4, testV26_8, ?_, ?_⟩⟩ <;> decide +kernel

def testV26_9 : Session := { testSession with opened := false }
def testV26_10 : Assembly := { path := .field 10 20, op := 6, session := 5, head := [], data := List.replicate 16984 1#8, next := 12, segs := 13 }
def testS26_11 : State := { testKeeper with keeper := { testKeeper.keeper with locked := [0, 1] } }

theorem witness_SessionsOpenAndEnd :
  (∃ (s : State) (r : KdpRequest) (slot : Nat), KdpAccepts s r 0x05 none ∧ kBody r.bytes = bytesLE 1 slot ∧ slot ≤ 7 ∧ 0 ∉ s.keeper.locked ∧
    s.slotEmpty slot = false ∧ s.keeper.sessions.length < 4) ∧
  (∃ (s : State) (r : KdpRequest) (slot : Nat), KdpAccepts s r 0x05 none ∧ kBody r.bytes = bytesLE 1 slot ∧ slot ≤ 7 ∧ 0 ∉ s.keeper.locked ∧
    s.slotEmpty slot = true) ∧
  (∃ (s : State) (r : KdpRequest) (x : Session) (a : Assembly), KdpAccepts s r 0x06 (some x) ∧ 0 ∉ s.keeper.locked ∧
    s.keeper.assemblies.find? (fun a => a.path == .field r.addr r.port) = some a ∧ a.op = 0x06 ∧ a.session = kSess r.bytes ∧ a.head = [] ∧
    a.segs = kSegs r.bytes ∧ a.next = kSeg r.bytes ∧ kSeg r.bytes + 1 = kSegs r.bytes ∧ bitAt (kFlags r.bytes) 2 = false ∧
    (a.data ++ kBody r.bytes).length = 16992) ∧
  (∃ (s : State) (r : KdpRequest) (x : Session), KdpAccepts s r 0x07 (some x) ∧ kBody r.bytes = []) ∧
  (∃ (s : State) (n : Nat) (x : Session), tabFind s.keeper.sessions n = some x ∧ x.opened = true) ∧
  (∃ (s : State) (n : Nat) (x : Session), tabFind s.keeper.sessions n = some x ∧ x.opened = false) ∧
  (∃ (s : State) (v : DWord) (aux : KdpAux), (s.running = true ∨ s.power.path = .stopped) ∧ s.keeperUp = true ∧ s.keeper.mailbox.last.ult v = false) ∧
  (∃ (s : State) (v : DWord) (aux : KdpAux), (s.running = true ∨ s.power.path = .stopped) ∧ s.keeperUp = true ∧ s.keeper.mailbox.last.ult v = true ∧
    (∃ (bytes z : _), ({ s with keeper := { s.keeper with mailbox := { s.keeper.mailbox with last := v } } }).kdpServe .mailbox (s.keeper.mailbox.request.read 0 1536) aux = (some bytes,
    z))) ∧
  (∃ (s : State) (v : DWord) (aux : KdpAux), (s.running = true ∨ s.power.path = .stopped) ∧ s.keeperUp = true ∧ s.keeper.mailbox.last.ult v = true ∧
    (∃ (z : _), ({ s with keeper := { s.keeper with mailbox := { s.keeper.mailbox with last := v } } }).kdpServe .mailbox (s.keeper.mailbox.request.read 0 1536) aux = (none,
    z))) := by
  refine ⟨⟨testSlots, testPlain 5 0 0 1 [7#8], 7, testAny rfl (by decide +kernel), ?_, ?_, ?_, ?_, ?_⟩,
      ⟨testSlots, testPlain 5 0 0 1 [0#8], 0, testAny rfl (by decide +kernel), ?_, ?_, ?_, ?_⟩,
      ⟨testPending, testPlain 6 5 12 13 (List.replicate 8 2#8), testV26_9, testV26_10, testAny rfl (by decide +kernel), ?_, rfl, ?_, ?_, ?_, ?_, ?_,
      ?_, ?_, testSumLength (n := 8) (List.length_replicate (n := 16984) (a := 1#8)) (by decide +kernel)⟩, ⟨testKeeper, testReq (testMsg 7 []),
      testSession, testAccepts _ _ _ (by constructor <;> decide +kernel) (by decide) (by decide +kernel), ?_⟩, ⟨testKeeper, 5, testSession, ?_, ?_⟩,
      ⟨testPending, 5, testV26_9, ?_, ?_⟩, ⟨testKeeper, 0#64, testAux, ?_, ?_, ?_⟩, ⟨testBox, 1#64, testAux, ?_, ?_, ?_,
      ⟨testServed.1.getD [], testServed.2, testServes (by decide +kernel)⟩⟩, ⟨testKeeper, 1#64, testAux, ?_, ?_, ?_,
      ⟨testUnserved.2, testDrops (by decide +kernel)⟩⟩⟩ <;> decide +kernel

def testV26_12 : DictRow := testRow 0x7010 0
def testS26_13 : State := testStaging id
def testV26_14 : DictRow := testRow 0x7011 0
def testV26_15 : List Byte := testData 256 8
def testV26_16 : List Byte := testData (areaSize 2 - 256) 256
def testV26_17 : DictRow := testRow 0x7012 0
def testS26_18 : State := testStaging (fun b => { b with update := { state := 2, type := 3, spans := [] } })
def testV26_19 : DictRow := testRow 0x7013 0
def testV26_20 : DictRow := testRow 0x7014 0
def testV26_21 : RunningImage := ⟨1, true, testHeader 2⟩
def testV26_22 : DictRow := testRow 0x7015 0
def testV26_23 : DictRow := testRow 0x7020 8
def testV26_24 : List Byte := List.replicate 432 2#8
def testV26_25 : DictRow := testRow 0x7020 1
def testV26_26 : DictRow := testRow 0x7021 0
def testS26_27 : State := { testKeeper with boot := { testKeeper.boot with aliasReady := true } }
def testV26_28 : DictRow := testRow 0x7030 2
def testV26_29 : List Byte := List.replicate 48 2#8
def testS26_30 : State := { testKeeper with boot := { testKeeper.boot with aliasReady := false } }
def testV26_31 : DictRow := testRow 0x7030 1
def testS26_32 : State := { testKeeper with boot := { testKeeper.boot with attest := [(2, Attest.mk (some (List.replicate 48 2#8)) [])] } }
def testV26_33 : List Byte := List.replicate 384 1#8
def testV26_34 : List Byte := List.replicate 16224 1#8

theorem witness_ImagesAreUpdatedAndAttested :
  (∃ (s : State) (r : KdpRequest) (x : Session) (d : DictRow) (sub : Nat) (v : List Byte), KdpWrites s r x d 0x7010 sub v ∧
    s.boot.pendingUpdate = false) ∧
  (∃ (s : State) (r : KdpRequest) (x : Session) (d : DictRow) (sub : Nat) (v : List Byte), KdpWrites s r x d 0x7010 sub v ∧
    s.boot.pendingUpdate = true) ∧
  (∃ (s : State) (r : KdpRequest) (x : Session) (d : DictRow) (sub : Nat) (v : List Byte), KdpWrites s r x d 0x7011 sub v ∧ s.boot.update.state = 1 ∧
    (let u := s.boot.update
    let off := leAt v 0 8
    let n := v.length - 8
    off % 256 = 0 ∧ off + n ≤ areaSize u.type ∧ (∀ p ∈ u.spans, p.1 + p.2 ≤ off ∨ off + n ≤ p.1))) ∧
  (∃ (s : State) (r : KdpRequest) (x : Session) (d : DictRow) (sub : Nat) (v : List Byte), KdpWrites s r x d 0x7011 sub v ∧ s.boot.update.state = 1 ∧
    (let u := s.boot.update
    let off := leAt v 0 8
    let n := v.length - 8
    off % 256 = 0 ∧ off + n ≤ areaSize u.type ∧ (∀ p ∈ u.spans, p.1 + p.2 ≤ off ∨ off + n ≤ p.1))) ∧
  (∃ (s : State) (r : KdpRequest) (x : Session) (d : DictRow) (sub : Nat) (v : List Byte), KdpWrites s r x d 0x7012 sub v ∧ s.boot.update.state = 1) ∧
  (∃ (s : State) (r : KdpRequest) (x : Session) (d : DictRow) (sub : Nat) (v : List Byte), KdpWrites s r x d 0x7013 sub v ∧ s.boot.update.state = 2 ∧
    s.boot.update.type ≠ 1) ∧
  (∃ (s : State) (r : KdpRequest) (x : Session) (d : DictRow) (sub : Nat) (v : List Byte) (y : RunningImage), KdpWrites s r x d 0x7014 sub v ∧
    (let t := recTrialType s.boot.inForce
    tabFind s.boot.running t = some y ∧ y.trial = true)) ∧
  (∃ (s : State) (r : KdpRequest) (x : Session) (d : DictRow) (sub : Nat) (v : List Byte), KdpWrites s r x d 0x7015 sub v ∧ s.boot.trialRuns = true) ∧
  (∃ (s : State) (r : KdpRequest) (x : Session) (d : DictRow) (sub : Nat) (v : List Byte), KdpWrites s r x d 0x7015 sub v ∧ s.boot.trialRuns = false ∧
    recTrialType s.boot.inForce = 0) ∧
  (∃ (s : State) (r : KdpRequest) (x : Session) (d : DictRow) (sub : Nat) (v : List Byte), KdpWrites s r x d 0x7020 sub v ∧ 1 ≤ sub ∧
    (s.hourCommits (dkey 0x7020 sub)).length < 64 ∧ tabSorted s.keeper.sessions = true) ∧
  (∃ (s : State) (r : KdpRequest) (x : Session) (d : DictRow) (sub : Nat) (v : List Byte), KdpWrites s r x d 0x7020 sub v ∧ 1 ≤ sub ∧
    (s.hourCommits (dkey 0x7020 sub)).length < 64 ∧ tabSorted s.keeper.sessions = true) ∧
  (∃ (s : State) (r : KdpRequest) (x : Session) (d : DictRow) (sub : Nat) (v : List Byte), KdpWrites s r x d 0x7021 sub v) ∧
  (∃ (s : State) (r : KdpRequest) (x : Session) (d : DictRow) (sub : Nat) (v : List Byte), KdpWrites s r x d 0x7030 sub v ∧ s.boot.aliasReady = true ∧
    (s.attestOf sub).signing = none) ∧
  (∃ (s : State) (r : KdpRequest) (x : Session) (d : DictRow) (sub : Nat) (v : List Byte), KdpWrites s r x d 0x7030 sub v ∧
    (s.boot.aliasReady = false ∨ (s.attestOf sub).signing.isSome = true)) ∧
  (∃ (s : State) (sub : Nat) (rsa slh nonce : List Byte), (s.attestOf sub).signing = some nonce ∧ rsa.length = 384 ∧ slh.length = 16224 ∧
    s.keeperUp = true) := by
  refine ⟨⟨testKeeper, testWrite 0x7010 0 [3#8], testSession, testV26_12, 0, [3#8], testWrites _ _ _ _ (by constructor <;> decide +kernel) (by decide) (by decide +kernel) (by decide +kernel) (by decide +kernel) (by decide +kernel) (by decide +kernel),
      ?_⟩, ⟨testTrial, testWrite 0x7010 0 [1#8], testSession, testV26_12, 0, [1#8], testWrites _ _ _ _ (by constructor <;> decide +kernel) (by decide) (by decide +kernel) (by decide +kernel) (by decide +kernel) (by decide +kernel) (by decide +kernel),
      ?_⟩, ⟨testS26_13, testWrite 0x7011 0 (testData 256 8),
      testSession, testV26_14, 0, testV26_15, testWrites _ _ _ _ (by constructor <;> decide +kernel) (by decide) (by decide +kernel) (by decide +kernel) (by decide +kernel) (by decide +kernel) (by decide +kernel),
      ?_, ?_, ?_, ?_⟩, ⟨testS26_13, testWrite 0x7011 0 (testData (areaSize 2 - 256) 256),
      testSession, testV26_14, 0, testV26_16, testWrites _ _ _ _ (by constructor <;> decide +kernel) (by decide) (by decide +kernel) (by decide +kernel) (by decide +kernel) (by decide +kernel) (by decide +kernel),
      ?_, ?_, ?_, ?_⟩, ⟨testS26_13, testWrite 0x7012 0 [1#8], testSession, testV26_17, 0, [1#8], testWrites _ _ _ _ (by constructor <;> decide +kernel) (by decide) (by decide +kernel) (by decide +kernel) (by decide +kernel) (by decide +kernel) (by decide +kernel),
      ?_⟩, ⟨testS26_18, testWrite 0x7013 0 [1#8], testSession, testV26_19, 0, [1#8], testWrites _ _ _ _ (by constructor <;> decide +kernel) (by decide) (by decide +kernel) (by decide +kernel) (by decide +kernel) (by decide +kernel) (by decide +kernel),
      ?_, ?_⟩, ⟨testTrial, testWrite 0x7014 0 [1#8], testSession, testV26_20, 0, [1#8], testV26_21, testWrites _ _ _ _ (by constructor <;> decide +kernel) (by decide) (by decide +kernel) (by decide +kernel) (by decide +kernel) (by decide +kernel) (by decide +kernel),
      ?_, ?_⟩, ⟨testTrial, testWrite 0x7015 0 [1#8], testSession, testV26_22, 0, [1#8], testWrites _ _ _ _ (by constructor <;> decide +kernel) (by decide) (by decide +kernel) (by decide +kernel) (by decide +kernel) (by decide +kernel) (by decide +kernel),
      ?_⟩, ⟨testS26_13, testWrite 0x7015 0 [1#8], testSession, testV26_22, 0, [1#8], testWrites _ _ _ _ (by constructor <;> decide +kernel) (by decide) (by decide +kernel) (by decide +kernel) (by decide +kernel) (by decide +kernel) (by decide +kernel),
      ?_, ?_⟩, ⟨testSlots, testWrite 0x7020 8 (List.replicate 432 2#8),
      testSession, testV26_23, 8, testV26_24, testWrites _ _ _ _ (by constructor <;> decide +kernel) (by decide) (by decide +kernel) (by decide +kernel) (by decide +kernel) (by decide +kernel) (by decide +kernel),
      ?_, ?_, ?_⟩, ⟨testKeeper, testWrite 0x7020 1 (List.replicate 432 2#8),
      testSession, testV26_25, 1, testV26_24, testWrites _ _ _ _ (by constructor <;> decide +kernel) (by decide) (by decide +kernel) (by decide +kernel) (by decide +kernel) (by decide +kernel) (by decide +kernel),
      ?_, ?_, ?_⟩, ⟨testSlots, testWrite 0x7021 0 [1#8], testSession, testV26_26, 0, [1#8], testWrites _ _ _ _ (by constructor <;> decide +kernel) (by decide) (by decide +kernel) (by decide +kernel) (by decide +kernel) (by decide +kernel) (by decide +kernel)⟩,
      ⟨testS26_27, testWrite 0x7030 2 (List.replicate 48 2#8),
      testSession, testV26_28, 2, testV26_29, testWrites _ _ _ _ (by constructor <;> decide +kernel) (by decide) (by decide +kernel) (by decide +kernel) (by decide +kernel) (by decide +kernel) (by decide +kernel),
      ?_, ?_⟩, ⟨testS26_30, testWrite 0x7030 1 (List.replicate 48 2#8),
      testSession, testV26_31, 1, testV26_29, testWrites _ _ _ _ (by constructor <;> decide +kernel) (by decide) (by decide +kernel) (by decide +kernel) (by decide +kernel) (by decide +kernel) (by decide +kernel),
      ?_⟩, ⟨testS26_32, 2, testV26_33, testV26_34, testV26_29, ?_, ?_, ?_, ?_⟩⟩ <;> decide +kernel

def testS26_35 : State := testDebug (fun d => { d with frozen := true })
def testV26_36 : DictRow := testRow 0x8010 0
def testV26_37 : List Byte := [1#8, 2#8, 3#8, 4#8]
def testS26_38 : State := testDebug (fun d => { d with mode := .armed })
def testS26_39 : State := testDebug (fun d => { d with mode := .armed, next := 524159, staged := [(15, List.replicate 65 testRecord)] })
def testV26_40 : DictRow := testRow 0x8020 0
def testS26_41 : State := testDebug (fun d => { d with mode := .post })
def testV26_42 : DictRow := testRow 0x8002 0
def testV26_43 : DictRow := testRow 0x8003 0
def testV26_44 : DictRow := testRow 0x8004 0
def testV26_45 : DWord := BitVec.ofNat 64 (2 ^ 63)

theorem witness_TriggersTraceAndCounters :
  (∃ (s : State) (r : KdpRequest) (x : Session) (d : DictRow) (sub : Nat) (v : List Byte), KdpWrites s r x d 0x8010 sub v ∧
    bitAt (s.entry 0x8011 0) 0 = true ∧ s.tracer.frozen = true) ∧
  (∃ (s : State) (r : KdpRequest) (x : Session) (d : DictRow) (sub : Nat) (v : List Byte), KdpWrites s r x d 0x8010 sub v ∧
    bitAt (s.entry 0x8011 0) 0 = true ∧ s.tracer.frozen = false ∧ s.tracer.mode ≠ .stopped) ∧
  (∃ (s : State), bitAt (s.entry 0x8011 0) 3 = true ∧ s.tracer.frozen = false ∧ s.tracer.mode ≠ .stopped) ∧
  (∃ (s : State) (k : Nat), s.running = true ∧ k < 16 ∧ s.tracer.mode = .armed ∧ (let q := tabGet [] s.tracer.staged k
    64 ≤ q.length ∧ (∀ b ∈ q.take 64, leAt b 8 1 ≠ 0x0A))) ∧
  (∃ (s : State) (r : KdpRequest) (x : Session) (d : DictRow) (sub : Nat) (v : List Byte), KdpWrites s r x d 0x8020 sub v ∧ leNat v = 1 ∧
    s.tracer.mode ≠ .post) ∧
  (∃ (s : State) (r : KdpRequest) (x : Session) (d : DictRow) (sub : Nat) (v : List Byte), KdpWrites s r x d 0x8020 sub v ∧ leNat v = 1 ∧
    s.tracer.mode = .post) ∧
  (∃ (s : State) (r : KdpRequest) (x : Session) (d : DictRow) (sub : Nat) (v : List Byte), KdpWrites s r x d 0x8020 sub v ∧ leNat v = 2) ∧
  (∃ (s : State) (r : KdpRequest) (x : Session) (d : DictRow) (sub : Nat) (v : List Byte), KdpWrites s r x d 0x8002 sub v ∧ s.tracer.frozen = true) ∧
  (∃ (s : State) (r : KdpRequest) (x : Session) (d : DictRow) (sub : Nat) (v : List Byte), KdpWrites s r x d 0x8002 sub v ∧ s.tracer.frozen = false ∧
    (s.hourCommits (dkey 0x8002 sub)).length < 64) ∧
  (∃ (s : State) (r : KdpRequest) (x : Session) (d : DictRow) (sub : Nat) (v : List Byte), KdpWrites s r x d 0x8003 sub v) ∧
  (∃ (s : State) (r : KdpRequest) (x : Session) (d : DictRow) (sub : Nat) (v : List Byte), KdpWrites s r x d 0x8004 sub v) ∧
  (∃ (s : State) (v : DWord), (∃ (c : Nat), c < 128 ∧ v.getLsbD 63 = true) ∧ (∃ (c : Nat), c < 128 ∧ v.getLsbD 63 = true)) := by
  refine ⟨⟨testS26_35, testWrite 0x8010 0 [1#8, 2#8, 3#8, 4#8], testSession, testV26_36, 0, testV26_37,
      testWrites _ _ _ _ (by constructor <;> decide +kernel) (by decide) (by decide +kernel) (by decide +kernel) (by decide +kernel) (by decide +kernel) (by decide +kernel),
      ?_, ?_⟩, ⟨testS26_38, testWrite 0x8010 0 [1#8, 2#8, 3#8, 4#8], testSession, testV26_36, 0, testV26_37,
      testWrites _ _ _ _ (by constructor <;> decide +kernel) (by decide) (by decide +kernel) (by decide +kernel) (by decide +kernel) (by decide +kernel) (by decide +kernel),
      ?_, ?_, ?_⟩, ⟨testS26_38, ⟨?_, ?_, ?_⟩⟩, ⟨testS26_39, 15, ?_, ?_, ?_, ?_, ?_⟩,
      ⟨testSup, testWrite 0x8020 0 [1#8], testSession, testV26_40, 0, [1#8], testWrites _ _ _ _ (by constructor <;> decide +kernel) (by decide) (by decide +kernel) (by decide +kernel) (by decide +kernel) (by decide +kernel) (by decide +kernel),
      ?_, ?_⟩, ⟨testS26_41, testWrite 0x8020 0 [1#8], testSession, testV26_40, 0, [1#8], testWrites _ _ _ _ (by constructor <;> decide +kernel) (by decide) (by decide +kernel) (by decide +kernel) (by decide +kernel) (by decide +kernel) (by decide +kernel),
      ?_, ?_⟩, ⟨testS26_41, testWrite 0x8020 0 [2#8], testSession, testV26_40, 0, [2#8], testWrites _ _ _ _ (by constructor <;> decide +kernel) (by decide) (by decide +kernel) (by decide +kernel) (by decide +kernel) (by decide +kernel) (by decide +kernel),
      ?_⟩, ⟨testS26_35, testWrite 0x8002 0 [1#8], testSession, testV26_42, 0, [1#8], testWrites _ _ _ _ (by constructor <;> decide +kernel) (by decide) (by decide +kernel) (by decide +kernel) (by decide +kernel) (by decide +kernel) (by decide +kernel),
      ?_⟩, ⟨testSup, testWrite 0x8002 0 [0#8], testSession, testV26_42, 0, [0#8], testWrites _ _ _ _ (by constructor <;> decide +kernel) (by decide) (by decide +kernel) (by decide +kernel) (by decide +kernel) (by decide +kernel) (by decide +kernel),
      ?_, ?_⟩, ⟨testSup, testWrite 0x8003 0 [1#8], testSession, testV26_43, 0, [1#8], testWrites _ _ _ _ (by constructor <;> decide +kernel) (by decide) (by decide +kernel) (by decide +kernel) (by decide +kernel) (by decide +kernel) (by decide +kernel)⟩,
      ⟨testS26_35, testWrite 0x8004 0 [1#8], testSession, testV26_44, 0, [1#8], testWrites _ _ _ _ (by constructor <;> decide +kernel) (by decide) (by decide +kernel) (by decide +kernel) (by decide +kernel) (by decide +kernel) (by decide +kernel)⟩,
      ⟨testSup, testV26_45, ⟨⟨127, ?_, ?_⟩, ⟨0, ?_, ?_⟩⟩⟩⟩ <;> decide +kernel

/-! ## Ill-formed commands -/

theorem test_illFormedCells0 : ∀ i ∈ ([
    .intArith 128 0 0#32 none, .intArith 0 16 0#32 none, .divideComplete 128 0, .divideComplete 0 16, .comparePredicate 128 0 0#32 none,
    .comparePredicate 0 16 0#32 none, .branch 128 0 0#32, .branch 0 16 0#32, .indirectJump 128 0 0#32 none, .indirectJump 0 16 0#32 none,
    .spLoad 128 0 0#32 none, .spLoad 0 16 0#32 none, .spLoadReturn 128 0, .spLoadReturn 0 16, .spStore 128 0 0#32 none, .spStore 0 16 0#32 none,
    .vaLoad 128 0 0#32 none, .vaLoad 0 16 0#32 none, .vaLoadReturn 128 0, .vaLoadReturn 0 16, .vaStore 128 0 0#32 none, .vaStore 0 16 0#32 none,
    .fence 128 0 0#32, .fence 0 16 0#32, .fenceComplete 128 0, .fenceComplete 0 16, .icacheMissFill 128 none 0, .systemValueRead 128 0 0#32,
    .systemValueRead 0 16 0#32, .sig 128 0 ⟨0#32, false⟩, .sig 0 16 ⟨0#32, false⟩, .wait 128 0 ⟨0#32, false⟩, .wait 0 16 ⟨0#32, false⟩,
    .tryOp 128 0 ⟨0#32, false⟩, .tryOp 0 16 ⟨0#32, false⟩, .semRead 128 0 ⟨0#32, false⟩, .semRead 0 16 ⟨0#32, false⟩, .tspawn 128 0 ⟨0#32, false⟩,
    .tspawn 0 16 ⟨0#32, false⟩, .texit 128 0 ⟨0#32, false⟩, .texit 0 16 ⟨0#32, false⟩, .arrayCmd 128 0 0#32 0#32, .arrayCmd 0 16 0#32 0#32,
    .vectorCmd 128 0 0#32 0#32, .vectorCmd 0 16 0#32 0#32, .streamCmd 128 0 0#32 0#32, .streamCmd 0 16 0#32 0#32, .bagCmd 128 0 0#32 0#32,
    .bagCmd 0 16 0#32 0#32, .sampleCmd 128 0 0#32 0#32, .sampleCmd 0 16 0#32 0#32, .layer 128 0 0#32, .layer 0 16 0#32, .layerDrainDone 128,
    .layerw 128 0 0#32, .layerw 0 16 0#32, .engineSafePointAbandon 128 0 0, .arrayPassStart 128 false, .arrayPassComplete 128, .loadOnly 128] : List Instr), i.wellFormed = false := by decide +kernel

theorem test_illFormedCells1 : ∀ i ∈ ([
    .weightLoadComplete 128, .rampDown 128 0, .vectorCommandStart 128, .vecFloatOp 128 0#32 none, .vecIntOp 128 0#32 none,
    .vecCompare 128 0#32 none, .vecScratchAccess 128 0#32 none, .vecTileAccess 128 0#32 none, .vecConvert 128 0#32 none,
    .vecCrossLane 128 0#32 none, .vecRandomDraw 128 0#32 false, .vnext 128 0#32, .vend 128 0#32, .vectorComplete 128, .sampleStart 128,
    .sampleComplete 128, .bagDispatch 128, .residentLoadDone 128, .streamAccept 128, .streamChunkStart 128 0, .streamChunkStart 0 16,
    .streamSrcDone 128 0, .streamSrcDone 0 16, .streamChunkFill 128 0, .streamChunkFill 0 16, .streamComplete 128 0, .streamComplete 0 16,
    .streamStop 128 0, .streamStop 0 16, .tasterCheckerDispatch 0 128, .quarantineEffective 128] : List Instr), i.wellFormed = false := by decide +kernel

theorem test_wellFormedCells : ∀ i ∈ ([
    .intArith 0 0 0#32 none, .divideComplete 0 0, .comparePredicate 0 0 0#32 none, .branch 0 0 0#32, .indirectJump 0 0 0#32 none,
    .spLoad 0 0 0#32 none, .spLoadReturn 0 0, .spStore 0 0 0#32 none, .vaLoad 0 0 0#32 none, .vaLoadReturn 0 0, .vaStore 0 0 0#32 none,
    .fence 0 0 0#32] : List Instr), i.wellFormed = true := by decide +kernel

theorem test_illFormedOthers : ∀ i ∈ ([
    .lookupIntake 4 0, .foragerAbandon 4, .rcDecayPass 4, .windowClosed 16 0, .partitionResetDone 16, .winSlotWrite 64 0#64,
    .windowWrite (2 ^ 33) [0#8] false testAux, .windowWrite 0 [] false testAux, .windowWrite 63 ([0#8, 0#8]) false testAux,
    .windowRead (2 ^ 33) 1, .windowRead 0 0, .windowRead 63 2, .refreshCommand 256 0 0 0, .targetedRefresh 256, .dramSensorSample 4 [],
    .refreshPaceRestore 4, .recentreStep 256 false, .calibOverdue 256, .railGood 0, .railGood 9, .pmbusTransaction 0 false,
    .pmbusTransaction 9 false, .pointChangeComplete 16, .supplyTrip 0 0, .supplyTrip 9 0, .guardbandRun 16 0 false, .selftestDone 16 0,
    .traceDrainBlock 16, .railOff 0, .railOff 9] : List Instr), i.wellFormed = false := by decide +kernel

theorem test_wellFormedOthers : ∀ i ∈ ([
    .lookupIntake 0 0, .foragerAbandon 0, .rcDecayPass 0, .windowClosed 0 0, .partitionResetDone 0, .winSlotWrite 0 0#64,
    .windowWrite 0 [0#8] false testAux, .windowRead 0 1, .refreshCommand 0 0 0 0, .targetedRefresh 0, .dramSensorSample 0 [],
    .refreshPaceRestore 0] : List Instr), i.wellFormed = true := by decide +kernel

theorem test_illFormedQueues : ∀ i ∈ ([
    .publish 1024, .patch 1024, .epochAdvance 1024, .nop 1024, .launch 1024, .preemptWaitExpiry 1024, .dbTail 1024 false 0#64,
    .dbCqHead 1024 false 0#64, .completionPost 1024, .msixModTimer 1024, .queueTimeout 1024 (.launch 0), .queueFinalRecord 1024] : List Instr), i.wellFormed = false := by decide +kernel

theorem test_wellFormedQueues : ∀ i ∈ ([
    .publish 0, .patch 0, .epochAdvance 0, .nop 0, .launch 0, .preemptWaitExpiry 0, .dbTail 0 false 0#64, .dbCqHead 0 false 0#64,
    .completionPost 0, .msixModTimer 0, .queueTimeout 0 (.launch 0), .queueFinalRecord 0] : List Instr), i.wellFormed = true := by decide +kernel

theorem test_illFormedPorts : ∀ i ∈ ([
    .portSignalDetect 8, .trainingComplete 8 0#4 0#4 false 0 0, .trainingAttemptFail 8 false, .laneFail 8 0, .laneFail 0 4, .portElectricalIdle 8,
    .portRetrainComplete 8, .portRetrainTimeout 8, .portFailedRetry 8, .flitReceive 8 ⟨List.replicate 280 0#8, 0⟩,
    .flitReceive 0 ⟨List.replicate 256 0#8, 0⟩, .nakReceive 8 0 0, .frameDeliver 8, .waggleReceive 8, .waggleCreditTimeout 8,
    .ethFrameReceive 8 [] false, .rocePacket 8 (testPkt 0 .unsupported), .cnpReceive 8 0, .laneTuning 8 0, .laneTuning 0 4] : List Instr), i.wellFormed = false := by decide +kernel

theorem test_wellFormedPorts : ∀ i ∈ ([
    .portSignalDetect 0, .trainingComplete 0 0#4 0#4 false 0 0, .trainingAttemptFail 0 false, .laneFail 0 0, .portElectricalIdle 0,
    .portRetrainComplete 0, .portRetrainTimeout 0, .portFailedRetry 0, .flitReceive 0 ⟨List.replicate 280 0#8, 0⟩, .nakReceive 0 0 0,
    .frameDeliver 0, .waggleReceive 0] : List Instr), i.wellFormed = true := by decide +kernel

/-! ### Results the spec gives -/

/-- The address of the example of the stacked memory file: stack 1, channel 31, bank 15, rank 0, row 0x1A2B. -/
theorem test_addressExample :
    (stackOf 0x23456789C0, dramChannel 0x23456789C0, dramBank 0x23456789C0, dramRank .lt820_512_A 0x23456789C0,
      dramRow .lt820_512_A 0x23456789C0) = (1, 31, 15, 0, 0x1A2B) := by decide +kernel

/-- The requantisation example: -5248 with `T_SHIFT` -8 gives -21, away from zero. -/
theorem test_requantNearest : outputElement 0 0 (-8) false 0 (.int (-5248)) = (unsigned 8 (-21), false) := by decide +kernel

/-- The same accumulator to uint8 with zero point 128 gives 107. -/
theorem test_requantUint8 : outputElement 1 128 (-8) false 0 (.int (-5248)) = (107, false) := by decide +kernel

/-- The same with stochastic rounding and the word 0x9E3F_12A7 gives -20. -/
theorem test_requantStochastic : outputElement 0 0 (-8) true 0x9E3F12A7 (.int (-5248)) = (unsigned 8 (-20), false) := by
  decide +kernel

/-- R545: unsigned and signed division by zero, and -2^63 by -1. -/
theorem test_divideCorners :
    intResult .divu 7#64 0#64 = BitVec.allOnes 64 ∧ intResult .remu 7#64 0#64 = 7#64 ∧
    intResult .div 7#64 0#64 = BitVec.allOnes 64 ∧ intResult .rem 7#64 0#64 = 7#64 ∧
    intResult .div 0x8000000000000000#64 (BitVec.allOnes 64) = 0x8000000000000000#64 ∧
    intResult .rem 0x8000000000000000#64 (BitVec.allOnes 64) = 0#64 := by decide +kernel

/-- R545: signed division truncates towards zero and the remainder takes the sign of the dividend. -/
theorem test_divideSigned :
    intResult .div (0#64 - 7#64) 2#64 = 0#64 - 3#64 ∧ intResult .rem (0#64 - 7#64) 2#64 = 0#64 - 1#64 := by decide +kernel

/-- R545: addition wraps and a shift is by n mod 64. -/
theorem test_addWraps : intResult .add (BitVec.allOnes 64) 1#64 = 0#64 ∧ intResult .shl 1#64 65#64 = 2#64 := by decide +kernel

/-- R41, R42: the marker decodes as poison, and one wrong symbol is corrected. -/
theorem test_decodePoison : decode16 poisonPattern = .poison ∧ decode16 [(7, 0x1234)] = .corrected 7 ∧ decode16 [] = .clean := by
  decide +kernel

/-- The uint8 row slice of the lookup file's example: header 0xFB 0x80 and byte 0x93 stand for 19 × 2^-5 = 0.59375. -/
theorem test_rowExample : ∀ r ∈ [([6#8] : List Byte)], rowElement r (0xFB#8 :: 0x80#8 :: List.replicate 32 0x93#8) 0 = .fin false 19 (-5) := by
  decide +kernel

/-- The slot of ring index 0x1_1123 of a ring of 1,024 slots at `RING_OFF` 0x0120_0000 (the submission file's example). -/
theorem test_slotExample :
    ({ Queue.free with log2Slots := 10, ringOff := 0x1200000 } : Queue).slotAddr 0x11123 = 0x6000000000 + 0x1224600 := by
  decide +kernel

/-- `KIND`, `FP_LOG2`, `IRQ`, the constant and inline sizes and `RING_TAG` of the example's header bytes. -/
theorem test_headerExample : ∀ b ∈ [([0x01#8, 0x19#8, 0x04#8, 0x0C#8, 0x23#8, 0x11#8, 0x01#8, 0x00#8] : List Byte)],
    (chKind b, chFpLog2 b, chIrq b, 8 * chConstWords b, 8 * chInlineWords b, chRingTag b) = (1, 6, true, 32, 96, 0x11123) := by
  decide +kernel

/-- The check value of this CRC over the ASCII digits 1 to 9. PRESUMED: taken from the common catalogue of CRC codes, not from
the spec. -/
theorem test_crc32Check : crc32 ((List.range 9).map (fun i => BitVec.ofNat 8 (0x31 + i))) = 0xFC891918#32 := by decide +kernel

end Sys2Proof.Tests
end

/-! # Byte order and bit ranges (R8) -/

namespace Sys2Proof.Machine

/-- Byte `i` of a little-endian number is its `i`-th digit to base 256. -/
theorem bytesLE_getElem? (n x i : Nat) (h : i < n) : (bytesLE n x)[i]? = some (BitVec.ofNat 8 (x / 256 ^ i)) := by
  induction n generalizing x i with
  | zero => omega
  | succ n ih =>
    cases i with
    | zero => simp [bytesLE]
    | succ i =>
      have digit : x / 256 / 256 ^ i = x / 256 ^ (i + 1) := by rw [Nat.div_div_eq_div_mul, ← Nat.pow_succ']
      rw [bytesLE, List.getElem?_cons_succ, ih (x / 256) i (by omega), digit]

theorem leNat_bytesLE (n x : Nat) : leNat (bytesLE n x) = x % 256 ^ n := by
  induction n generalizing x with
  | zero => simp [bytesLE, leNat, Nat.mod_one]
  | succ n ih => rw [bytesLE, leNat, ih, Nat.pow_succ', Nat.mod_mul, BitVec.toNat_ofNat]

theorem leAt_within (pre bs post : List Byte) : leAt (pre ++ bs ++ post) pre.length bs.length = leNat bs := by
  rw [leAt, List.append_assoc, List.drop_left, List.take_left]

theorem bitAt_zero (x : Nat) : bitAt x 0 = decide (x % 2 = 1) := Nat.testBit_zero x

/-- A bit range keeps the bits from its lower to its upper end, both included, and has none above. -/
theorem bitAt_field (x hi lo i : Nat) (h : lo ≤ hi) : bitAt (field x hi lo) i = (decide (i ≤ hi - lo) && bitAt x (lo + i)) := by
  have width : i < hi + 1 - lo ↔ i ≤ hi - lo := by omega
  simp only [bitAt, field, Nat.testBit_mod_two_pow, Nat.testBit_shiftRight, width]

/-- Settles O9: the digits to base 256 by induction on the number of bytes, the bit range by the bits of a shift and a remainder. -/
theorem littleEndianFields : Obligations.LittleEndianFields := by
  unfold Obligations.LittleEndianFields
  refine ⟨bytesLE_getElem?, fun pre post n x => ?_, bitAt_zero, bitAt_field⟩
  have h := leAt_within pre (bytesLE n x) post
  rwa [bytesLE_length, leNat_bytesLE] at h

end Sys2Proof.Machine

/-! # How every command ends (R5, R14, R16) -/

namespace Sys2Proof.Machine

/-- A meaning with outcome `r` on `s` ends in a next state that keeps the waiting commands, the device counter and the ordering code, or
stops with noSuchUnit, which only a command that names a unit the device lacks (`ok = false`) may do. -/
def Answers (ok : Bool) (s : State) (r : Res) : Prop :=
  (∃ t, r = .next t ∧ t.pending = s.pending ∧ t.time = s.time ∧ t.code = s.code) ∨ (r = .fault .noSuchUnit ∧ ok = false)

/-- What keepQueue makes of a meaning's state moves none of the three. -/
theorem keepQueue_answers {ok : Bool} {s t : State} : Answers ok s (.next (keepQueue s t)) :=
  .inl ⟨keepQueue s t, rfl, keepQueue_pending s t, keepQueue_time s t, keepQueue_code s t⟩

/-- A meaning behind a check of the units it names answers where well-formed commands pass the check. -/
theorem guarded_answers {ok : Bool} {p : Prop} [Decidable p] {s : State} {r : Res} (named : ok = true → p) (h : Answers ok s r) :
    Answers ok s (if p then r else .fault .noSuchUnit) := by
  by_cases k : p
  · rwa [if_pos k]
  · rw [if_neg k]
    exact .inr ⟨rfl, Bool.eq_false_iff.2 (mt named k)⟩

theorem onUnit_answers {ok : Bool} {n b : Nat} {s : State} {f : State → State} (named : ok = true → n < b) :
    Answers ok s (onUnit n b s f) := guarded_answers named keepQueue_answers

theorem anyUnit_answers {ok : Bool} {n b : Nat} {s : State} {f : State → State} (named : ok = true → n < b) :
    Answers ok s (anyUnit n b s f) := guarded_answers named keepQueue_answers

theorem onHostUnit_answers {ok : Bool} {n b : Nat} {s : State} {f : State → State} (named : ok = true → n < b) :
    Answers ok s (onHostUnit n b s f) := guarded_answers named keepQueue_answers

theorem onThread_answers {ok : Bool} {c t : Nat} {s : State} {f : State → State} (named : ok = true → c < 128 ∧ t < 16) :
    Answers ok s (onThread c t s f) := guarded_answers named keepQueue_answers

theorem onLane_answers {ok : Bool} {p l : Nat} {s : State} {f : State → State} (named : ok = true → p < 8 ∧ l < 4) :
    Answers ok s (onLane p l s f) := guarded_answers named keepQueue_answers

theorem onRail_answers {ok : Bool} {r : Nat} {s : State} {f : State → State} (named : ok = true → 1 ≤ r ∧ r ≤ 8) :
    Answers ok s (onRail r s f) := guarded_answers named keepQueue_answers

/-- Every command answers: a case for each kind of unit that commands name, and one for the commands that name none. -/
theorem exec_answers (c : Instr) (s : State) : Answers c.wellFormed s (exec c s) := by
  have both : ∀ {p q : Prop} [Decidable p] [Decidable q], (decide p && decide q) = true → p ∧ q := by simp
  cases c
  -- A thread of a cell.
  case intArith | divideComplete | comparePredicate | branch | indirectJump | spLoad | spLoadReturn | spStore | vaLoad | vaLoadReturn
      | vaStore | fence | fenceComplete | systemValueRead | sig | wait | tryOp | semRead | tspawn | texit | arrayCmd | vectorCmd
      | streamCmd | bagCmd | sampleCmd | layer | layerw | streamChunkStart | streamSrcDone | streamChunkFill | streamComplete
      | streamStop => exact onThread_answers both
  -- A cell.
  case icacheMissFill | layerDrainDone | engineSafePointAbandon | arrayPassStart | arrayPassComplete | loadOnly | weightLoadComplete
      | rampDown | vectorCommandStart | vecFloatOp | vecIntOp | vecCompare | vecScratchAccess | vecTileAccess | vecConvert
      | vecCrossLane | vecRandomDraw | vnext | vend | vectorComplete | sampleStart | sampleComplete | bagDispatch | residentLoadDone
      | streamAccept | tasterCheckerDispatch | quarantineEffective => exact onUnit_answers of_decide_eq_true
  -- A user queue, which the doorbells reach in every state of the data path.
  case publish | patch | epochAdvance | nop | launch | preemptWaitExpiry | completionPost | msixModTimer | queueTimeout
      | queueFinalRecord => exact onUnit_answers of_decide_eq_true
  case dbTail | dbCqHead => exact anyUnit_answers of_decide_eq_true
  -- A partition, a comb, a forager, or a stack or channel of the memory.
  case windowClosed | partitionResetDone | selftestDone => exact onUnit_answers of_decide_eq_true
  case pointChangeComplete | guardbandRun | traceDrainBlock => exact onUnit_answers of_decide_eq_true
  case lookupIntake | foragerAbandon | rcDecayPass => exact onUnit_answers of_decide_eq_true
  case refreshPaceRestore | refreshCommand | targetedRefresh | recentreStep | calibOverdue => exact onUnit_answers of_decide_eq_true
  case dramSensorSample => exact anyUnit_answers of_decide_eq_true
  -- A window slot of the host port.
  case winSlotWrite => exact onHostUnit_answers of_decide_eq_true
  -- A fabric port or one of its lanes; a flit must also have its size, which no gate asks.
  case portSignalDetect | trainingComplete | trainingAttemptFail | portElectricalIdle | portRetrainComplete | portRetrainTimeout
      | portFailedRetry | nakReceive | frameDeliver | waggleReceive | waggleCreditTimeout | ethFrameReceive | rocePacket
      | cnpReceive => exact onUnit_answers of_decide_eq_true
  case flitReceive => exact onUnit_answers fun h => of_decide_eq_true (Bool.and_eq_true_iff.1 h).1
  case laneFail | laneTuning => exact onLane_answers both
  -- A rail.
  case railGood | pmbusTransaction | supplyTrip | railOff => exact onRail_answers both
  -- No unit: the meaning applies to the device, the data path or the host port as a whole.
  all_goals exact keepQueue_answers

/-- Settles O6: a case for each kind of unit that commands name. -/
theorem noCommandIsRefused : Obligations.NoCommandIsRefused := exec_answers

end Sys2Proof.Machine

/-! # The scratchpad behind a thread's loads and stores (R54, R57, R70) -/

namespace Sys2Proof.Machine

/-! ## Stores that land -/

theorem Memory.read_store_same (m : Memory) (unit a : Nat) (bs : List Byte) (p q : Bool) (h : m.wf = true) :
    (m.store unit a bs p q).read a bs.length = bs := by
  simp only [Memory.read, Memory.get_store]
  exact Memory.read_write_same m a bs h

theorem Memory.get_store_out (m : Memory) (unit a x : Nat) (bs : List Byte) (p q : Bool) (n : x < a ∨ a + bs.length ≤ x)
    (h : m.wf = true) : (m.store unit a bs p q).get x = m.get x := by
  rw [Memory.get_store, Memory.get_write_out m a x bs n h]

theorem Cell.landSp_none (x : Cell) (t : Nat) (h : (x.thread t).spStores = []) : x.landSp t = x := by simp [Cell.landSp, h]

theorem Cell.landSp_thread (x : Cell) (t : Nat) : (x.landSp t).thread t = { x.thread t with spStores := [] } := by
  by_cases h : (x.thread t).spStores = []
  · rw [Cell.landSp_none x t h, ← h]
  · simp only [Cell.landSp, List.isEmpty_iff, h, if_false]
    exact Cell.thread_setThread_same x t _

theorem Cell.landSp_scratch (x : Cell) (t : Nat) : (x.landSp t).scratch =
    (x.thread t).spStores.foldl (fun (m : Memory) p => m.store 64 p.1 p.2 false false) x.scratch := by
  by_cases h : (x.thread t).spStores = []
  · rw [Cell.landSp_none x t h, h, List.foldl_nil]
  · simp only [Cell.landSp, List.isEmpty_iff, h, if_false]

theorem Cell.landOne_thread (x : Cell) (t : Nat) :
    (x.landOne t).thread t = { x.thread t with spStores := (x.thread t).spStores.drop 1 } := by
  rcases h : (x.thread t).spStores with _ | ⟨p, rest⟩
  · simp only [Cell.landOne, h, List.drop_nil]
    rw [← h]
  · simp only [Cell.landOne, h, List.drop_succ_cons, List.drop_zero]
    exact Cell.thread_setThread_same x t _

/-- What lands of a thread's stores is the thread's own: neither the rest of the cell nor its other threads matter. -/
theorem Cell.landOne_scratch_congr {x y : Cell} {t : Nat} (hs : x.scratch = y.scratch)
    (ht : (x.thread t).spStores = (y.thread t).spStores) : (x.landOne t).scratch = (y.landOne t).scratch := by
  simp only [Cell.landOne, ht]
  split
  · exact hs
  · simp only [hs]

/-! ## A load that returns -/

/-- A register write does not touch what a thread has posted. -/
theorem Thread.setReg_spStores (h : Thread) (q : List (Nat × List Byte)) (r : Nat) (v : DWord) :
    ({ h with spStores := q } : Thread).setReg r v = { h.setReg r v with spStores := q } := by
  unfold Thread.setReg
  split <;> rfl

/-- The state that a scratchpad load of clean bytes leaves: the thread's posted stores have landed, and `v` is in `rd`. -/
def State.spReturned (s : State) (c t rd : Nat) (v : DWord) : State :=
  ((s.modCell c (fun x => x.landSp t)).modThread c t (fun h => h.setReg rd v)).unblock c t

theorem spLoadReturn_clean {s : State} {c t rd off n : Nat} {sx : Bool} (hw : (s.thread c t).waits = .spLoad rd off n sx)
    (hp : ((s.cell c).landSp t).spPoison off n = false) :
    s.spLoadReturn c t = s.spReturned c t rd (loadValue (((s.cell c).landSp t).scratch.read off n) sx) := by
  simp [State.spLoadReturn, State.spReturned, State.spRead, hw, hp]

theorem onlyCell_spReturned (s : State) (c t rd : Nat) (v : DWord) : OnlyCell s (s.spReturned c t rd v) c := by
  rw [State.spReturned, State.unblock]
  exact ((onlyCell_modCell _ _ _).trans (onlyThread_modThread _ _ t _).1).trans (onlyThread_modThread _ _ t _).1

theorem thread_spReturned (s : State) (c t rd : Nat) (v : DWord) : (s.spReturned c t rd v).thread c t =
    { ({ s.thread c t with spStores := [] } : Thread).setReg rd v with status := .running, waits := .nothing } := by
  have landed : (s.modCell c (fun x => x.landSp t)).thread c t = { s.thread c t with spStores := [] } := by
    rw [State.thread, State.cell_modCell_same, Cell.landSp_thread, State.thread]
  rw [State.spReturned, State.unblock, State.thread_modThread_same, State.thread_modThread_same, landed]

theorem scratch_spReturned (s : State) (c t rd : Nat) (v : DWord) :
    ((s.spReturned c t rd v).cell c).scratch = ((s.cell c).landSp t).scratch := by
  simp only [State.spReturned, State.unblock, State.cell_modThread, State.cell_modCell_same, Cell.setThread]

/-- With nothing posted the return touches its thread alone. -/
theorem onlyThread_spReturned {s : State} {c t : Nat} (h : (s.thread c t).spStores = []) (rd : Nat) (v : DWord) :
    OnlyThread s (s.spReturned c t rd v) c t := by
  have landed : OnlyThread s (s.modCell c (fun x => x.landSp t)) c t := by
    refine ⟨onlyCell_modCell _ _ _, ?_, fun k _ => ?_⟩ <;>
      simp only [State.thread, State.cell_modCell_same, Cell.landSp_none _ _ h]
  rw [State.spReturned, State.unblock]
  exact (landed.trans (onlyThread_modThread _ _ _ _)).trans (onlyThread_modThread _ _ _ _)

theorem exec_spLoadReturn {s : State} {c t rd off n : Nat} {sx : Bool} (h : OnThread s c t)
    (hw : (s.thread c t).waits = .spLoad rd off n sx) (hp : ((s.cell c).landSp t).spPoison off n = false) :
    exec (.spLoadReturn c t) s =
      .next (keepQueue s (s.spReturned c t rd (loadValue (((s.cell c).landSp t).scratch.read off n) sx))) := by
  rw [← spLoadReturn_clean hw hp]
  exact onThread_running c t s _ h.path h.cell h.thread

/-- A load that returns with nothing posted before it. -/
theorem exec_spLoadReturn_alone {s : State} {c t rd off n : Nat} {sx : Bool} (h : OnThread s c t)
    (hw : (s.thread c t).waits = .spLoad rd off n sx) (hq : (s.thread c t).spStores = []) (hp : (s.cell c).spPoison off n = false) :
    ∃ u, exec (.spLoadReturn c t) s = .next u ∧ OnlyThread s u c t ∧
      u.thread c t = { (s.thread c t).setReg rd (loadValue ((s.cell c).scratch.read off n) sx) with
                       status := .running, waits := .nothing } := by
  have stands := Cell.landSp_none (s.cell c) t hq
  refine ⟨_, exec_spLoadReturn h hw (by rwa [stands]), onlyThread_keepQueue (onlyThread_spReturned hq _ _), ?_⟩
  rw [State.thread_keepQueue, thread_spReturned, stands, ← hq]

/-- A load that returns behind one posted store. -/
theorem exec_spLoadReturn_behind {s : State} {c t rd off a : Nat} {bs : List Byte} {sx : Bool} (h : OnThread s c t)
    (hw : (s.thread c t).waits = .spLoad rd off bs.length sx) (hq : (s.thread c t).spStores = [(a, bs)])
    (hm : (s.cell c).scratch.wf = true) (hp : ((s.cell c).landSp t).spPoison off bs.length = false) :
    ∃ u, exec (.spLoadReturn c t) s = .next u ∧ OnlyCell s u c ∧ (u.thread c t).spStores = [] ∧ (u.thread c t).status = .running ∧
      (off = a → (u.thread c t).regs = ((s.thread c t).setReg rd (loadValue bs sx)).regs) ∧
      (∀ x, (x < a ∨ a + bs.length ≤ x) → (u.cell c).scratch.get x = (s.cell c).scratch.get x) := by
  have landed : ((s.cell c).landSp t).scratch = (s.cell c).scratch.store 64 a bs false false := by
    have hq' : ((s.cell c).thread t).spStores = [(a, bs)] := hq
    rw [Cell.landSp_scratch, hq', List.foldl_cons, List.foldl_nil]
  refine ⟨_, exec_spLoadReturn h hw hp, onlyCell_keepQueue (onlyCell_spReturned ..), ?_, ?_, ?_, ?_⟩
  · rw [State.thread_keepQueue, thread_spReturned, Thread.setReg_spStores]
  · rw [State.thread_keepQueue, thread_spReturned]
  · rintro rfl
    rw [State.thread_keepQueue, thread_spReturned, landed, Memory.read_store_same _ _ _ _ _ _ hm, Thread.setReg_spStores]
  · intro x hx
    rw [State.cell_keepQueue, scratch_spReturned, landed, Memory.get_store_out _ _ _ _ _ _ _ hx hm]

/-! ## Stores that are posted -/

/-- A store joins its thread's posted stores. -/
def Thread.posted (h : Thread) (p : Nat × List Byte) : Thread := { h with spStores := h.spStores ++ [p] }

theorem postSp_room {s : State} {c t : Nat} (h : (s.thread c t).spStores.length < 4) (a : Nat) (bs : List Byte) :
    s.postSp c t a bs = s.modThread c t (·.posted (a, bs)) := by
  rw [State.postSp, if_pos h]; rfl

theorem postSp_full {s : State} {c t : Nat} (h : 4 ≤ (s.thread c t).spStores.length) (a : Nat) (bs : List Byte) :
    s.postSp c t a bs = (s.modCell c (fun x => x.landOne t)).modThread c t (·.posted (a, bs)) := by
  rw [State.postSp, if_neg (Nat.not_lt.2 h)]; rfl

/-! ## Loads and stores that issue -/

/-- The state in which the effect of a 4-byte instruction of thread `t` begins: the issue counted and the pc past the word. -/
def State.started (s : State) (c t : Nat) : State := (s.issued c t).setPc c t ((s.thread c t).pc + 4#32)

theorem onlyThread_started (s : State) (c t : Nat) : OnlyThread s (s.started c t) c t := onlyThread_start s c t _

theorem thread_started (s : State) (c t : Nat) : (s.started c t).thread c t = { s.thread c t with pc := (s.thread c t).pc + 4#32 } := by
  rw [State.started, State.thread_setPc, State.thread_issued]

/-- The scratchpad offset that load or store `w` of thread `t` names. -/
def State.spAddr (s : State) (c t : Nat) (w : Word) (o : MemOp) : Nat := memAddr ((s.thread c t).reg (wRs1 w)) w o.log2

/-- The store that `w` of thread `t` posts: the low bytes of `rd`. -/
def State.spEntry (s : State) (c t : Nat) (w : Word) (o : MemOp) : Nat × List Byte :=
  (s.spAddr c t w o, bytesLE (2 ^ o.log2) ((s.thread c t).reg (wRd w)).toNat)

section
variable {s : State} {c t : Nat} {w : Word} {l : Launch} {o : MemOp} (h : Issues s c t w 4 4 l) (ho : o.log2 ≤ 3)
include h ho

theorem spLoad_issues (hf : (s.cell c).spFault .scalarRd (s.spAddr c t w o) (2 ^ o.log2) = none) :
    s.spLoad c t w (some o) = (s.started c t).blockThread c t (.spLoad (wRd w) (s.spAddr c t w o) (2 ^ o.log2) o.sext) := by
  rw [State.spAddr] at hf
  exact issue_done h (by decide) (by simpa [memOpOk] using ho)
    (f := fun z => z.blockThread c t (.spLoad (wRd w) (s.spAddr c t w o) (2 ^ o.log2) o.sext)) (by simp only [hf, State.spAddr])

theorem exec_spLoad (hf : (s.cell c).spFault .scalarRd (s.spAddr c t w o) (2 ^ o.log2) = none) :
    ∃ u, exec (.spLoad c t w (some o)) s = .next u ∧ OnlyThread s u c t ∧
      u.thread c t = { s.thread c t with
        pc := (s.thread c t).pc + 4#32, status := .blocked, waits := .spLoad (wRd w) (s.spAddr c t w o) (2 ^ o.log2) o.sext } := by
  refine ⟨_, issues_next h _, onlyThread_keepQueue ?_, ?_⟩
  · rw [spLoad_issues h ho hf, State.blockThread]
    exact (onlyThread_started s c t).trans (onlyThread_modThread _ _ _ _)
  · rw [State.thread_keepQueue, spLoad_issues h ho hf, State.blockThread, State.thread_modThread_same, thread_started]

variable (hx : o.sext = false) (hf : (s.cell c).spFault .scalarWr (s.spAddr c t w o) (2 ^ o.log2) = none)
include hx hf

theorem spStore_issues :
    s.spStore c t w (some o) = (s.started c t).postSp c t (s.spEntry c t w o).1 (s.spEntry c t w o).2 := by
  rw [State.spAddr] at hf
  exact issue_done h (by decide) (by simpa [memOpOk, hx] using ho)
    (f := fun z => z.postSp c t (s.spEntry c t w o).1 (s.spEntry c t w o).2) (by simp only [hf, State.spEntry, State.spAddr])

theorem exec_spStore_room (hq : (s.thread c t).spStores.length < 4) :
    ∃ u, exec (.spStore c t w (some o)) s = .next u ∧ OnlyThread s u c t ∧
      u.thread c t = { s.thread c t with
        pc := (s.thread c t).pc + 4#32, spStores := (s.thread c t).spStores ++ [s.spEntry c t w o] } := by
  have room : ((s.started c t).thread c t).spStores.length < 4 := by rwa [thread_started]
  refine ⟨_, issues_next h _, onlyThread_keepQueue ?_, ?_⟩
  · rw [spStore_issues h ho hx hf, postSp_room room]
    exact (onlyThread_started s c t).trans (onlyThread_modThread _ _ _ _)
  · rw [State.thread_keepQueue, spStore_issues h ho hx hf, postSp_room room, State.thread_modThread_same, thread_started]
    rfl

/-- A fifth store is posted once the oldest of four has landed. -/
theorem exec_spStore_full (hq : 4 ≤ (s.thread c t).spStores.length) :
    ∃ u, exec (.spStore c t w (some o)) s = .next u ∧ OnlyCell s u c ∧ (u.cell c).scratch = ((s.cell c).landOne t).scratch ∧
      u.thread c t = { s.thread c t with
        pc := (s.thread c t).pc + 4#32, spStores := (s.thread c t).spStores.drop 1 ++ [s.spEntry c t w o] } := by
  have own : ((s.started c t).cell c).thread t = { s.thread c t with pc := (s.thread c t).pc + 4#32 } := thread_started s c t
  have full : 4 ≤ ((s.started c t).thread c t).spStores.length := by rwa [thread_started]
  refine ⟨_, issues_next h _, onlyCell_keepQueue ?_, ?_, ?_⟩
  · rw [spStore_issues h ho hx hf, postSp_full full]
    exact ((onlyThread_started s c t).1.trans (onlyCell_modCell _ _ _)).trans (onlyThread_modThread _ _ t _).1
  · rw [State.cell_keepQueue, spStore_issues h ho hx hf, postSp_full full, State.cell_modThread, State.cell_modCell_same]
    refine Cell.landOne_scratch_congr (by rw [(onlyThread_started s c t).2.1]) ?_
    rw [own, State.thread]
  · rw [State.thread_keepQueue, spStore_issues h ho hx hf, postSp_full full, State.thread_modThread_same, State.thread,
      State.cell_modCell_same, Cell.landOne_thread, own]
    rfl

end

/-- Settles O17: each row from the state it leaves, and the bytes of a landed store from the laws of memories. -/
theorem scratchpadLoadsAndStores : Obligations.ScratchpadLoadsAndStores :=
  ⟨fun _ _ _ _ _ _ h ho hf => exec_spLoad h ho hf,
   fun _ _ _ _ _ _ _ h hw hq hp => exec_spLoadReturn_alone h hw hq hp,
   fun _ _ _ _ _ _ _ _ h hw hq hm hp => exec_spLoadReturn_behind h hw hq hm hp,
   fun _ _ _ _ _ _ h ho hx hf => ⟨exec_spStore_room h ho hx hf, exec_spStore_full h ho hx hf⟩⟩

end Sys2Proof.Machine

/-! # The queue of waiting commands (R14, R16, R303) -/

namespace Sys2Proof.Machine

/-- A command at the front of the queue is taken from it before it runs. -/
theorem step_of_front {s : State} {c : Instr} {rest : List Instr} (h : s.pending = c :: rest) :
    step s = exec c { s with pending := rest } := by simp only [step, h]

/-- With no command waiting a step lets time pass. -/
theorem step_of_empty {s : State} (h : s.pending = []) : step s = .next s.tick := by simp only [step, h]

/-- A well-formed command goes on from every state, and moves neither the queue, the device counter nor the ordering code. -/
theorem exec_wellFormed {c : Instr} (h : c.wellFormed = true) (s : State) :
    ∃ t, exec c s = .next t ∧ t.pending = s.pending ∧ t.time = s.time ∧ t.code = s.code := by
  rcases exec_answers c s with next | ⟨-, illFormed⟩
  · exact next
  · rw [h] at illFormed
    contradiction

theorem queueWellFormed_of_rest {s t : State} {c : Instr} {rest : List Instr} (wf : s.queueWellFormed) (h : s.pending = c :: rest)
    (left : t.pending = rest) : t.queueWellFormed :=
  fun d waits => wf d (h ▸ List.mem_cons_of_mem c (left ▸ waits))

/-- A step from a well-formed queue takes the front command alone. -/
theorem step_takes_front {s : State} {c : Instr} {rest : List Instr} (wf : s.queueWellFormed) (h : s.pending = c :: rest) :
    ∃ t, step s = .next t ∧ t.pending = rest ∧ t.time = s.time ∧ t.code = s.code := by
  rw [step_of_front h]
  exact exec_wellFormed (wf c (h ▸ List.mem_cons_self)) _

theorem queueWellFormed_of_empty {s : State} (h : s.pending = []) : s.queueWellFormed := by simp [State.queueWellFormed, h]

/-- Where nothing waits for time alone a step of an empty queue moves the device counter and the counter of free values. -/
theorem State.tick_of_settled {s : State} (h : s.settle = s) : s.tick = { s with time := s.time + 1#64, free := s.free + 1 } := by
  rw [State.tick, h, keepQueue_self]

/-- Settles O1: the two equations of a step. -/
theorem stepRunsTheFrontCommand : Obligations.StepRunsTheFrontCommand := by
  unfold Obligations.StepRunsTheFrontCommand
  exact ⟨fun _ _ _ front => step_of_front front, fun s empty => ⟨s.tick, step_of_empty empty, s.tick_time,
    s.tick_pending.trans empty, s.tick_code, State.tick_of_settled⟩⟩

/-- Settles O3: the empty queue only counts time, and a front command leaves the rest of the queue. -/
theorem everyStepKeepsTheQueueWellFormed : Obligations.EveryStepKeepsTheQueueWellFormed := by
  intro s wf
  cases h : s.pending with
  | nil => exact ⟨s.tick, step_of_empty h, queueWellFormed_of_empty (s.tick_pending.trans h)⟩
  | cons c rest =>
    obtain ⟨t, next, left, -, -⟩ := step_takes_front wf h
    exact ⟨t, next, queueWellFormed_of_rest wf h left⟩

/-- Settles O4: nothing waits after reset. -/
theorem resetQueueIsWellFormed : Obligations.ResetQueueIsWellFormed :=
  ⟨queueWellFormed_of_empty rfl, State.reset.tick, step_of_empty rfl⟩

/-- Settles O5, by induction on the number of steps: each takes the front command of a queue that stays well formed. -/
theorem waitingCommandsRunToTheEnd : Obligations.WaitingCommandsRunToTheEnd := by
  intro s n
  induction n generalizing s with
  | zero => exact fun _ _ => ⟨s, rfl, rfl, rfl, rfl⟩
  | succ n ih =>
    intro wf len
    cases h : s.pending with
    | nil => simp [h] at len
    | cons c rest =>
      obtain ⟨t, next, left, time, code⟩ := step_takes_front wf h
      have shorter : n ≤ t.pending.length := by
        rw [left]
        simpa [h] using len
      obtain ⟨u, run, drop, time', code'⟩ := ih t (queueWellFormed_of_rest wf h left) shorter
      refine ⟨u, ?_, ?_, time'.trans time, code'.trans code⟩
      · rw [runSteps, next]
        exact run
      · rw [drop, left, List.drop_succ_cons]

/-! ## Units that the device lacks (R14, R33, R242, R303, R353, R376, R436) -/

theorem onThread_out {c t : Nat} (s : State) (f : State → State) (h : ¬(c < 128 ∧ t < 16)) :
    onThread c t s f = .fault .noSuchUnit := if_neg h

theorem onHostUnit_out {n b : Nat} (s : State) (f : State → State) (h : ¬n < b) : onHostUnit n b s f = .fault .noSuchUnit := if_neg h

theorem onRail_out {r : Nat} (s : State) (f : State → State) (h : ¬(1 ≤ r ∧ r ≤ 8)) : onRail r s f = .fault .noSuchUnit := if_neg h

/-- Settles O7: every gate of a numbered unit stops a number beyond its bound. -/
theorem unitsTheDeviceLacksFault : Obligations.UnitsTheDeviceLacksFault :=
  ⟨fun s _ _ _ _ h => onThread_out s _ (by omega),
   fun s c h => onUnit_out c 128 s _ (Nat.not_lt.2 h),
   fun s q h => onUnit_out q 1024 s _ (Nat.not_lt.2 h),
   fun s p h => onUnit_out p 16 s _ (Nat.not_lt.2 h),
   fun s k h => onUnit_out k 16 s _ (Nat.not_lt.2 h),
   fun s k h => onUnit_out k 4 s _ (Nat.not_lt.2 h),
   fun s f h => onUnit_out f 4 s _ (Nat.not_lt.2 h),
   fun s p h => onUnit_out p 8 s _ (Nat.not_lt.2 h),
   fun s u h => onUnit_out u 256 s _ (Nat.not_lt.2 h),
   fun s _ _ h => onHostUnit_out s _ (Nat.not_lt.2 h),
   fun s _ h => onRail_out s _ (by omega)⟩

end Sys2Proof.Machine

/-! # A window region of a partition beyond the sixteenth (R14, R353, R362) -/

namespace Sys2Proof.Machine

/-! ## What answering an admin command leaves of the window slots -/

theorem State.slots_sendHost (s : State) (ms : List HostMsg) : (s.sendHost ms).host.slots = s.host.slots := by
  simp only [State.sendHost, State.countFull_host]

theorem State.slots_post (s : State) (m : HostMsg) : (s.post m).host.slots = s.host.slots := by
  unfold State.post
  split
  · rw [State.bump_host]
  · split
    · exact s.slots_sendHost [m]
    · split <;> rfl

theorem State.slots_adminIrq (s : State) : s.adminIrq.host.slots = s.host.slots := by
  unfold State.adminIrq
  split
  · rfl
  · split
    · rfl
    · rw [State.slots_post]

theorem State.slots_adminRecord (s : State) (n : Nat) (i : DWord) (a b d : Nat) (r : List Byte) :
    (s.adminRecord n i a b d r).host.slots = s.host.slots := by
  unfold State.adminRecord
  dsimp only
  split
  · rw [State.bump_host]
  · rw [State.slots_adminIrq, State.slots_post]
    split
    · rw [State.slots_post, State.bump_host]
    · rw [State.bump_host]

theorem State.slots_answered (s z : State) (st d : Nat) (r : List Byte) : (s.answered z st d r).host.slots = z.host.slots := by
  rw [State.answered, keepQueue_host, State.slots_adminRecord]

/-! ## The counterexample -/

/-- A REGION_REGISTER command (R299, R361): region 0, KIND 1, slot 0, context 1, one block of 64 MiB at virtual address 0. -/
def windowRegionPayload : List Byte := bytesLE 2 0 ++ [1#8, 0#8] ++ bytesLE 4 1 ++ bytesLE 8 0 ++ bytesLE 8 (2 ^ 26) ++ bytesLE 8 0

/-- The admin queue holds that command; its context maps the block for writes, and belongs to partition 32, for which the
4-bit PARTITION of WIN_SLOT has no room. CTX_CREATE makes no such context, but the
statement bounds no context's partition number. -/
def strayWindow : State :=
  { State.reset with
    contexts := [(1, { Context.unused with used := true, partition := 32, large := [(0, mkPte (2 ^ 29) 3)] })]
    admin := { Admin.reset with running := true, tail := 1#64 }
    dram := Memory.zero.write 0x6000000000 ([0x48#8, 0#8] ++ bytesLE 2 32 ++ bytesLE 28 0 ++ windowRegionPayload) }

theorem strayWindow_head : AdminHead strayWindow 0x48 32 windowRegionPayload := by
  constructor <;> decide +kernel

/-- Is window slot `k` enabled in what a command answers? -/
def enabledAfter (k : Nat) : Res → Bool
  | .next t => slotEn (tabGet 0#64 t.host.slots k).toNat
  | _ => false

theorem strayWindow_disabled : enabledAfter 0 (exec .regionRegister strayWindow) = false := by decide +kernel

/-- Refutes O40: a WINDOW_IN region of a context in partition 32 leaves its slot disabled, since 32 at bit 58 carries into EN. -/
theorem not_hostWindowsAndSlots : ¬ Obligations.HostWindowsAndSlots := by
  unfold Obligations.HostWindowsAndSlots
  rintro ⟨-, -, -, register, -⟩
  obtain ⟨-, window, -⟩ := register strayWindow windowRegionPayload strayWindow_head (by decide +kernel) (by decide +kernel)
  obtain ⟨z, answer, -, -, enabled⟩ := window (by decide +kernel) (by decide +kernel)
  have disabled := strayWindow_disabled
  rw [answer, enabledAfter, State.slots_answered] at disabled
  have slot : leAt windowRegionPayload 3 1 + 0 = 0 := by decide +kernel
  have held := enabled 0 (by decide +kernel)
  rw [slot, disabled] at held
  contradiction

end Sys2Proof.Machine

/-! # Faults: the launch ends, and no register and no DRAM byte changes (R56, R71, R546) -/

namespace Sys2Proof.Machine

/-! ## Tables and cells -/

theorem tabFind_map_values {α β : Type} (f : α → β) (t : Table α) (k : Nat) :
    tabFind (t.map (fun p => (p.1, f p.2))) k = (tabFind t k).map f := by
  induction t with
  | nil => rfl
  | cons p r ih =>
    simp only [List.map_cons, tabFind, ih]
    split
    · rfl
    · split <;> rfl

theorem tabGet_map_values {α β : Type} (f : α → β) (d : α) (t : Table α) (k : Nat) :
    tabGet (f d) (t.map (fun p => (p.1, f p.2))) k = f (tabGet d t k) := by
  rw [tabGet, tabFind_map_values, tabGet, Option.getD_map]

theorem tabSet_tabSet_same {α : Type} (t : Table α) (k : Nat) (a b : α) : tabSet (tabSet t k a) k b = tabSet t k b := by
  induction t with
  | nil => simp [tabSet]
  | cons p r ih =>
    by_cases same : p.1 = k
    · simp [tabSet, same]
    · by_cases below : k < p.1
      · simp [tabSet, same, below]
      · simp [tabSet, same, below, ih]

/-- A relation that every step of a fold keeps holds from its start to its end. -/
theorem foldl_related {σ α : Type} {R : σ → σ → Prop} (refl : ∀ s, R s s) (trans : ∀ {s u v}, R s u → R u v → R s v)
    {f : σ → α → σ} (step : ∀ s a, R s (f s a)) (l : List α) (s : σ) : R s (l.foldl f s) := by
  induction l generalizing s with
  | nil => exact refl s
  | cons a l ih => exact trans (step s a) (ih (f s a))

/-! ## What ending a launch leaves of a cell -/

/-- Threads may have stopped and posted scratchpad stores have landed; registers, the recorded fault and, with no store posted, the
scratchpad stand. -/
structure CellStops (x y : Cell) : Prop where
  fault : y.fault = x.fault
  regs : ∀ k, (y.thread k).regs = (x.thread k).regs
  quiet : (∀ k, (x.thread k).spStores = []) → y.scratch = x.scratch ∧ ∀ k, (y.thread k).spStores = []

theorem CellStops.refl (x : Cell) : CellStops x x := ⟨rfl, fun _ => rfl, fun h => ⟨rfl, h⟩⟩

theorem CellStops.trans {x y z : Cell} (h : CellStops x y) (k : CellStops y z) : CellStops x z :=
  ⟨k.fault.trans h.fault, fun j => (k.regs j).trans (h.regs j), fun q =>
    have ⟨scratch, landed⟩ := h.quiet q
    have ⟨scratch', landed'⟩ := k.quiet landed
    ⟨scratch'.trans scratch, landed'⟩⟩

/-- A change of the threads that moves no register and posts nothing stops the cell at most. -/
theorem CellStops.mapThreads {x y : Cell} (f : Thread → Thread) (threads : y.threads = x.threads.map (fun p => (p.1, f p.2)))
    (fault : y.fault = x.fault) (scratch : y.scratch = x.scratch) (regs : ∀ h, (f h).regs = h.regs)
    (stores : ∀ h, (f h).spStores = h.spStores) : CellStops x y := by
  have found : ∀ k, tabFind y.threads k = (tabFind x.threads k).map f := fun k => by rw [threads, tabFind_map_values]
  refine ⟨fault, fun k => ?_, fun q => ⟨scratch, fun k => ?_⟩⟩
  · simp only [Cell.thread, tabGet, found k]
    cases tabFind x.threads k <;> simp [regs]
  · have idle := q k
    simp only [Cell.thread, tabGet, found k] at idle ⊢
    cases h : tabFind x.threads k <;> simp_all

theorem cellStops_landSp (x : Cell) (t : Nat) : CellStops x (x.landSp t) := by
  by_cases h : (x.thread t).spStores = []
  · rw [Cell.landSp_none x t h]
    exact CellStops.refl x
  · refine ⟨?_, fun k => ?_, fun q => absurd (q t) h⟩
    · simp [Cell.landSp, h, Cell.setThread]
    · by_cases same : k = t
      · rw [same, Cell.landSp_thread]
      · simp only [Cell.landSp, List.isEmpty_iff, h, if_false]
        exact congrArg Thread.regs (Cell.thread_setThread_other x t k _ same)

theorem cellStops_landAllSp (x : Cell) : CellStops x x.landAllSp :=
  foldl_related CellStops.refl CellStops.trans (f := fun y (p : Nat × Thread) => y.landSp p.1) (fun y p => cellStops_landSp y p.1) _ _

theorem cellStops_stopThreads (x : Cell) : CellStops x x.stopThreads :=
  (cellStops_landAllSp x).trans
    (CellStops.mapThreads (fun h => { h with status := .idle, waits := .nothing }) rfl rfl rfl (fun _ => rfl) (fun _ => rfl))

theorem cellStops_dropUntranslated (x : Cell) : CellStops x x.dropUntranslated :=
  CellStops.mapThreads Thread.dropUntranslated rfl rfl rfl (fun _ => rfl) (fun _ => rfl)

/-! ## What ending a launch leaves of the state -/

/-- The launches and DRAM stand, and no cell is more than stopped. -/
structure CellsStop (s u : State) : Prop where
  launches : u.launches = s.launches
  dram : u.dram = s.dram
  cells : ∀ c, CellStops (s.cell c) (u.cell c)

theorem CellsStop.refl (s : State) : CellsStop s s := ⟨rfl, rfl, fun _ => CellStops.refl _⟩

theorem CellsStop.trans {s u v : State} (h : CellsStop s u) (k : CellsStop u v) : CellsStop s v :=
  ⟨k.launches.trans h.launches, k.dram.trans h.dram, fun c => (h.cells c).trans (k.cells c)⟩

theorem CellsStop.of_cells {s u : State} (launches : u.launches = s.launches) (dram : u.dram = s.dram) (cells : u.cells = s.cells) :
    CellsStop s u := by
  refine ⟨launches, dram, fun c => ?_⟩
  rw [State.cell, State.cell, cells]
  exact CellStops.refl _

theorem cellsStop_modCell (s : State) (c : Nat) (f : Cell → Cell) (h : CellStops (s.cell c) (f (s.cell c))) :
    CellsStop s (s.modCell c f) := by
  refine ⟨rfl, rfl, fun d => ?_⟩
  by_cases same : d = c
  · rw [same, State.cell_modCell_same]
    exact h
  · rw [State.cell_modCell_other s c d f same]
    exact CellStops.refl _

theorem cellsStop_dropWalks (s : State) (l : Nat) : CellsStop s (s.dropWalks l) := by
  refine ⟨rfl, rfl, fun c => ?_⟩
  have dropped : (s.dropWalks l).cell c =
      (fun x : Cell => if x.launch == some l then x.dropUntranslated else x) (s.cell c) :=
    tabGet_map_values (fun x : Cell => if x.launch == some l then x.dropUntranslated else x) Cell.reset s.cells c
  rw [dropped]
  dsimp only
  split
  · exact cellStops_dropUntranslated _
  · exact CellStops.refl _

theorem cellsStop_sendPeers (s : State) (g : Group) (b : FabBody) : CellsStop s (s.sendPeers g b) :=
  foldl_related CellsStop.refl CellsStop.trans (f := fun acc r => acc.sendRank g r b) (fun _ _ => CellsStop.of_cells rfl rfl rfl) _ s

theorem cellsStop_releasePeers (s : State) (l : Nat) : CellsStop s (s.releasePeers l) := by
  have told : ∀ (u : State) (h : Nat), CellsStop u (match tabFind u.groups h with | some g => u.sendPeers g (.abandon l) | none => u) := by
    intro u h
    split
    · exact cellsStop_sendPeers _ _ _
    · exact CellsStop.refl _
  have folded := fun hs => foldl_related CellsStop.refl CellsStop.trans told hs s
  exact (folded _).trans (CellsStop.of_cells rfl rfl rfl)

theorem cellsStop_failHop (s : State) (x : Launch) (st : Option Nat) : CellsStop s (s.failHop x st) := by
  unfold State.failHop
  split
  · split
    · exact CellsStop.refl _
    · exact CellsStop.of_cells rfl rfl rfl
  · exact CellsStop.refl _

theorem cellsStop_settleCell (s : State) (c : Nat) : CellsStop s (s.settleCell c) := by
  have released : CellsStop s (s.modCell c (fun y => { y with launch := none })) :=
    cellsStop_modCell s c _ ⟨rfl, fun _ => rfl, fun h => ⟨rfl, h⟩⟩
  unfold State.settleCell
  split
  · exact CellsStop.refl _
  · split
    · split
      · exact released
      · exact CellsStop.refl _
    · exact released

theorem cellsStop_count (s : State) (o n : Nat) : CellsStop s (s.count o n) := .of_cells (by simp) (by simp) (by simp)
theorem cellsStop_countFull (s : State) (o n : Nat) : CellsStop s (s.countFull o n) := .of_cells (by simp) (by simp) (by simp)
theorem cellsStop_bump (s : State) (i j n : Nat) : CellsStop s (s.bump i j n) := .of_cells (by simp) (by simp) (by simp)
theorem cellsStop_traceLaunch (s : State) (k : Nat) (l : Launch) (d : List Byte) : CellsStop s (s.traceLaunch k l d) :=
  .of_cells (by simp) (by simp) (by simp)

/-- A step that some condition makes. -/
theorem CellsStop.when {s u : State} (b : Bool) (h : CellsStop s u) : CellsStop s (if b then u else s) := by
  cases b
  · exact CellsStop.refl s
  · exact h

/-- The entry that an ending launch leaves (R71, R291). -/
def State.endedLaunch (s : State) (x : Launch) (status : Option Nat) (detail : Nat) : Launch :=
  { x with phase := .ended, status := status, detail := detail, elapsed := s.elapsedNs x, sticky := s.stickyOf x, save := none }

/-- A launch that has not ended ends: its entry is set, and nothing more than stopping follows. -/
theorem endLaunch_stops {s : State} {l : Nat} {x : Launch} (found : s.launch? l = some x) (open_ : x.phase ≠ .ended) (st : Option Nat)
    (d : Nat) : CellsStop (s.setLaunch l (s.endedLaunch x st d)) (s.endLaunch l st d) := by
  have settled := fun (u : State) => foldl_related CellsStop.refl CellsStop.trans (fun u c => cellsStop_settleCell u c) x.cells u
  have stopped := fun (u : State) => foldl_related CellsStop.refl CellsStop.trans
    (fun u c => cellsStop_modCell u c Cell.stopThreads (cellStops_stopThreads _)) x.cells u
  have left := (cellsStop_dropWalks (s.setLaunch l (s.endedLaunch x st d)) l).trans (cellsStop_releasePeers _ l)
  have cells : ∀ u : State, CellsStop u (if x.phase == .saved then u else x.cells.foldl (fun acc c => acc.modCell c Cell.stopThreads) u) := by
    intro u
    split
    · exact CellsStop.refl u
    · exact stopped u
  have poison : ∀ (u : State) (b : Bool) (o : Nat), CellsStop u (if b then (u.bump 0x6060 0 1).countFull o 1 else u) :=
    fun u b o => .when b ((cellsStop_bump u _ _ _).trans (cellsStop_countFull _ _ _))
  have bad : ∀ (u : State) (b : Bool) (o : Nat), CellsStop u (if b then (u.count (8 * 43) 1).countFull o 1 else u) :=
    fun u b o => .when b ((cellsStop_count u _ _).trans (cellsStop_countFull _ _ _))
  have listed : ∀ u : State, CellsStop u ((u.pushReady x.queue (.launch l)).count (8 * 42) 1) := fun u =>
    CellsStop.trans (u := u.pushReady x.queue (.launch l)) (.of_cells rfl rfl rfl) (cellsStop_count _ _ _)
  unfold State.endLaunch
  rw [found]
  dsimp only
  rw [if_neg (by simpa using open_)]
  exact (((((((left.trans (cells _)).trans (poison _ _ _)).trans (cellsStop_failHop _ x st)).trans (listed _)).trans (bad _ _ _)).trans
    (cellsStop_traceLaunch _ _ _ _)).trans (settled _))

/-! ## Cell faults -/

/-- The active launch of a cell stands on it and runs. -/
theorem activeLaunch_some {s : State} {c id : Nat} {l : Launch} (h : s.activeLaunch c = some (id, l)) :
    s.launchOn c = some id ∧ s.launch? id = some l ∧ l.phase ≠ .ended := by
  unfold State.activeLaunch at h
  split at h
  case h_2 => contradiction
  case h_1 j on =>
    split at h
    case h_2 => contradiction
    case h_1 x found =>
      split at h
      case isFalse => contradiction
      case isTrue phase =>
        obtain ⟨rfl, rfl⟩ : j = id ∧ x = l := by simpa using h
        refine ⟨on, found, fun ended => ?_⟩
        rw [ended] at phase
        contradiction

/-- The cell with its fault recorded where none is, and else counted (R74). -/
def Cell.faulted (x : Cell) (code t cls : Nat) (pc : Word) : Cell :=
  if x.fault.getLsbD 63 then { x with faultCount := x.faultCount + 1 } else { x with fault := cellFaultWord code t cls pc }

theorem Cell.faulted_fault (x : Cell) (code t cls : Nat) (pc : Word) :
    (x.faulted code t cls pc).fault = if x.fault.getLsbD 63 then x.fault else cellFaultWord code t cls pc := by
  unfold Cell.faulted
  split <;> rfl

theorem Cell.faulted_threads (x : Cell) (code t cls : Nat) (pc : Word) : (x.faulted code t cls pc).threads = x.threads := by
  unfold Cell.faulted
  split <;> rfl

theorem Cell.faulted_thread (x : Cell) (code t cls : Nat) (pc : Word) (k : Nat) : (x.faulted code t cls pc).thread k = x.thread k := by
  rw [Cell.thread, Cell.faulted_threads, Cell.thread]

theorem Cell.faulted_scratch (x : Cell) (code t cls : Nat) (pc : Word) : (x.faulted code t cls pc).scratch = x.scratch := by
  unfold Cell.faulted
  split <;> rfl

theorem Cell.faulted_launch (x : Cell) (code t cls : Nat) (pc : Word) : (x.faulted code t cls pc).launch = x.launch := by
  unfold Cell.faulted
  split <;> rfl

theorem cellFault_eq (s : State) (c code t cls : Nat) (pc : Word) :
    s.cellFault c code t cls pc = (s.setCell c ((s.cell c).faulted code t cls pc)).endOn c stIllegalOp (64 + code) := rfl

theorem endOn_launch {s : State} {c id : Nat} (on : s.launchOn c = some id) (st d : Nat) :
    s.endOn c st d = s.endLaunch id (some st) d := by rw [State.endOn, on]

/-- A fault of a cell with an active launch ends that launch (R71). -/
theorem cellFault_ends {s : State} {c id : Nat} {l : Launch} (active : s.activeLaunch c = some (id, l)) (code t cls : Nat) :
    FaultEnds s (s.cellFault c code t cls (s.thread c t).pc) c code t cls := by
  obtain ⟨on, found, open_⟩ := activeLaunch_some active
  generalize hx : (s.cell c).faulted code t cls (s.thread c t).pc = x
  have on' : (s.setCell c x).launchOn c = some id := by
    rw [State.launchOn, State.cell_setCell_same, ← hx, Cell.faulted_launch]
    exact on
  have stops := endLaunch_stops (s := s.setCell c x) found open_ (some stIllegalOp) (64 + code)
  have cell := stops.cells c
  rw [show ((s.setCell c x).setLaunch id _).cell c = x from State.cell_setCell_same s c x] at cell
  rw [cellFault_eq, hx, endOn_launch on']
  refine ⟨?_, fun id' l' active' => ?_, fun quiet => ?_, fun k => ?_, stops.dram⟩
  · rw [cell.fault, ← hx, Cell.faulted_fault]
  · obtain ⟨rfl, rfl⟩ : id = id' ∧ l = l' := by simpa [active] using active'
    refine ⟨(s.setCell c x).endedLaunch l (some stIllegalOp) (64 + code), ?_, rfl, rfl, rfl⟩
    rw [State.launch?, stops.launches]
    exact tabFind_tabSet_same _ _ _
  · rw [(cell.quiet fun k => by rw [← hx, Cell.faulted_thread]; exact quiet k).1, ← hx, Cell.faulted_scratch]
  · rw [State.thread, cell.regs, ← hx, Cell.faulted_thread, State.thread]

theorem FaultEnds.keepQueue {s u : State} {c code t cls : Nat} (h : FaultEnds s u c code t cls) :
    FaultEnds s (keepQueue s u) c code t cls := h

/-- What was issued before a fault is no part of what the fault leaves. -/
theorem faultEnds_of_issued {s u : State} {c code t cls : Nat} (h : FaultEnds (s.issued c t) u c code t cls) :
    FaultEnds s u c code t cls := by
  obtain ⟨fault, ends, scratch, regs, dram⟩ := h
  have active : (s.issued c t).activeLaunch c = s.activeLaunch c := by
    simp only [State.activeLaunch, State.launchOn, State.launch?, State.cell_issued]
    simp [State.issued]
  rw [active] at ends
  simp only [State.thread_issued, State.cell_issued] at fault scratch regs
  exact ⟨fault, ends, scratch, regs, dram.trans (by simp [State.issued])⟩

/-! ## Words that fault, and words whose guard is false -/

theorem Issues.toThreadReady {s : State} {c t cls size : Nat} {w : Word} {l : Launch} (h : Issues s c t w cls size l) :
    ThreadReady s c t l := ⟨h.path, h.cell, h.thread, h.launch, h.ready, h.turn, h.unchecked⟩

section
variable {s : State} {c t cls size : Nat} {w : Word} {l : Launch} {legal : Bool} {body : Thread → Launch → Body}

/-- An illegal word faults whatever its guard (R56). -/
theorem issue_illegal (h : ThreadReady s c t l) (bad : 0xB ≤ wClass w ∨ (wClass w = cls ∧ legal = false)) :
    FaultEnds s (s.issue c t w cls size legal body) c 1 t (wClass w) := by
  obtain ⟨id, active⟩ := h.launch
  have fault : s.issue c t w cls size legal body = s.cellFault c 1 t (wClass w) (s.thread c t).pc := by
    simp [State.issue, active, h.ready, h.turn, h.unchecked, bad]
  rw [fault]
  exact cellFault_ends active _ _ _

/-- A fault after the issue has been counted. -/
theorem cellFault_issued (h : ThreadReady s c t l) (code : Nat) :
    FaultEnds s ((s.issued c t).cellFault c code t cls (s.thread c t).pc) c code t cls := by
  obtain ⟨id, active⟩ := h.launch
  have active' : (s.issued c t).activeLaunch c = some (id, l) := by
    rw [← active]
    simp only [State.activeLaunch, State.launchOn, State.launch?, State.cell_issued]
    simp [State.issued]
  have ends := cellFault_ends active' code t cls
  rw [State.thread_issued] at ends
  exact faultEnds_of_issued ends

/-- An instruction whose body faults. -/
theorem issue_fault (h : Issues s c t w cls size l) (hc : cls < 0xB) (hl : legal = true) {code : Nat}
    (hb : body (s.thread c t) l = .fault code) : FaultEnds s (s.issue c t w cls size legal body) c code t cls := by
  obtain ⟨id, active⟩ := h.launch
  have low : ¬ 0xB ≤ cls := Nat.not_le.2 hc
  have fault : s.issue c t w cls size legal body = (s.issued c t).cellFault c code t cls (s.thread c t).pc := by
    simp [State.issue, active, h.ready, h.turn, h.unchecked, low, h.cls, hl, h.guard, hb]
  rw [fault]
  exact cellFault_issued h.toThreadReady code

section
variable (h : ThreadReady s c t l) (hw : wClass w = cls) (hc : cls < 0xB) (hl : legal = true) (hg : (s.thread c t).guard w = false)
include h hw hc hl hg

/-- A legal word whose guard is false only falls through to the next word (R55). -/
theorem issue_unguarded : s.issue c t w cls size legal body = (s.issued c t).fallThrough c t cls size l id := by
  obtain ⟨id, active⟩ := h.launch
  have low : ¬ 0xB ≤ cls := Nat.not_le.2 hc
  simp [State.issue, active, h.ready, h.turn, h.unchecked, low, hw, hl, hg]
  rfl

theorem issue_skips (inCode : l.inCode ((s.thread c t).pc.toNat + size) = true) :
    s.issue c t w cls size legal body = (s.issued c t).setPc c t ((s.thread c t).pc + BitVec.ofNat 32 size) := by
  rw [issue_unguarded h hw hc hl hg]
  simp [State.fallThrough, inCode]

/-- A word behind which the pc would leave the code faults (R546). -/
theorem issue_leaves_code (out : l.inCode ((s.thread c t).pc.toNat + size) = false) :
    FaultEnds s (s.issue c t w cls size legal body) c 1 t cls := by
  rw [issue_unguarded h hw hc hl hg]
  simp only [State.fallThrough, State.thread_issued, out]
  exact cellFault_issued h 1

end

end

theorem ready_next {s : State} {c t : Nat} {l : Launch} (h : ThreadReady s c t l) (f : State → State) :
    onThread c t s f = .next (keepQueue s (f s)) := onThread_running c t s f h.path h.cell h.thread

/-- Settles O13: each word faults or is skipped by what issuing does before it reads the operation. -/
theorem illegalWordsFaultAndFalseGuardsSkip : Obligations.IllegalWordsFaultAndFalseGuardsSkip := by
  have skipped : ∀ (s : State) (c t : Nat) (l : Launch) (f : State → State), ThreadReady s c t l →
      f s = (s.issued c t).setPc c t ((s.thread c t).pc + 4#32) →
      ∃ u, onThread c t s f = .next u ∧ OnlyThread s u c t ∧ u.thread c t = { s.thread c t with pc := (s.thread c t).pc + 4#32 } := by
    intro s c t l f h skips
    refine ⟨_, ready_next h f, onlyThread_keepQueue ?_, ?_⟩
    · rw [skips]
      exact onlyThread_start s c t _
    · rw [State.thread_keepQueue, skips, State.thread_setPc, State.thread_issued]
  refine ⟨fun s c t w l op h high => ⟨_, ready_next h _, issue_illegal h (.inl high)⟩,
    fun s c t w l h cls => ⟨_, ready_next h _, ?_⟩, fun s c t w l h cls => ⟨_, ready_next h _, ?_⟩,
    fun s c t w l h guard inCode => ⟨fun o cls => ?_, fun cls => ?_, fun o cls size sext => ⟨?_, ?_⟩, fun o cls size sext => ⟨?_, ?_⟩⟩,
    fun s c t w l o h cls out guard => ⟨_, ready_next h _, ?_⟩⟩
  · simp only [State.intArith, cls]
    exact (cls ▸ issue_illegal h (.inr ⟨cls, rfl⟩)).keepQueue
  · exact (cls ▸ issue_illegal h (.inr ⟨cls, rfl⟩)).keepQueue
  · exact skipped s c t l _ h (by simpa [State.intArith, cls] using issue_skips h cls (by decide) rfl guard inCode)
  · exact skipped s c t l _ h (issue_skips h cls (by decide) rfl guard inCode)
  · exact skipped s c t l _ h (issue_skips h cls (by decide) (by simpa [memOpOk] using size) guard inCode)
  · exact skipped s c t l _ h (issue_skips h cls (by decide) (by simpa [memOpOk, sext] using size) guard inCode)
  · exact skipped s c t l _ h (issue_skips h cls (by decide) (by simpa [memOpOk] using size) guard inCode)
  · exact skipped s c t l _ h (issue_skips h cls (by decide) (by simpa [memOpOk, sext] using size) guard inCode)
  · simp only [State.intArith, cls]
    exact (issue_leaves_code h cls (by decide) rfl guard out).keepQueue

end Sys2Proof.Machine

/-! # Scratchpad accesses and posted stores (R54, R57, R71) -/

namespace Sys2Proof.Machine

theorem Cell.spFault_misaligned {x : Cell} {a n : Nat} (r : Role) (h : a % n ≠ 0) : x.spFault r a n = some 2 := by
  simp [Cell.spFault, h]

theorem Cell.spFault_hole {x : Cell} {a n : Nat} (r : Role) (h : a % n = 0) (out : 0x300000 ≤ a) : x.spFault r a n = some 3 := by
  simp [Cell.spFault, h, scratchBytes, out]

theorem Cell.spFault_reached {x : Cell} {r : Role} {a n : Nat} (h : a % n = 0) (inside : a < 0x300000)
    (reach : calReaches x.calendar r a n = true) : x.spFault r a n = none := by
  simp [Cell.spFault, h, scratchBytes, Nat.not_le.2 inside, reach]

/-! ## Accesses that fault -/

section
variable {s : State} {c t : Nat} {w : Word} {l : Launch} {o : MemOp}

theorem spLoad_faults (h : Issues s c t w 4 4 l) (size : o.log2 ≤ 3) {e : Nat}
    (hf : (s.cell c).spFault .scalarRd (s.spAddr c t w o) (2 ^ o.log2) = some e) :
    ∃ u, exec (.spLoad c t w (some o)) s = .next u ∧ FaultEnds s u c e t 4 := by
  rw [State.spAddr] at hf
  exact ⟨_, issues_next h _, (issue_fault h (by decide) (by simpa [memOpOk] using size) (by simp only [hf])).keepQueue⟩

theorem spStore_faults (h : Issues s c t w 4 4 l) (size : o.log2 ≤ 3) (sext : o.sext = false) {e : Nat}
    (hf : (s.cell c).spFault .scalarWr (s.spAddr c t w o) (2 ^ o.log2) = some e) :
    ∃ u, exec (.spStore c t w (some o)) s = .next u ∧ FaultEnds s u c e t 4 := by
  rw [State.spAddr] at hf
  exact ⟨_, issues_next h _, (issue_fault h (by decide) (by simpa [memOpOk, sext] using size) (by simp only [hf])).keepQueue⟩

theorem vaLoad_misaligned (h : Issues s c t w 5 4 l) (size : o.log2 ≤ 3) (hf : s.spAddr c t w o % 2 ^ o.log2 ≠ 0) :
    ∃ u, exec (.vaLoad c t w (some o)) s = .next u ∧ FaultEnds s u c 2 t 5 := by
  rw [State.spAddr] at hf
  exact ⟨_, issues_next h _, (issue_fault h (by decide) (by simpa [memOpOk] using size) (by simp [hf])).keepQueue⟩

theorem vaStore_misaligned (h : Issues s c t w 5 4 l) (size : o.log2 ≤ 3) (sext : o.sext = false)
    (hf : s.spAddr c t w o % 2 ^ o.log2 ≠ 0) :
    ∃ u, exec (.vaStore c t w (some o)) s = .next u ∧ FaultEnds s u c 2 t 5 := by
  rw [State.spAddr] at hf
  exact ⟨_, issues_next h _, (issue_fault h (by decide) (by simpa [memOpOk, sext] using size) (by simp [hf])).keepQueue⟩

end

/-! ## Stores that land -/

theorem Cell.landOne_cons {x : Cell} {t off : Nat} {bs : List Byte} {rest : List (Nat × List Byte)}
    (h : (x.thread t).spStores = (off, bs) :: rest) :
    x.landOne t = { x.setThread t { x.thread t with spStores := rest } with scratch := x.scratch.store 64 off bs false false } := by
  simp only [Cell.landOne, h]

/-- Landing all that a thread has posted lands its oldest store first. -/
theorem Cell.landSp_landOne (x : Cell) (t : Nat) : x.landSp t = (x.landOne t).landSp t := by
  rcases h : (x.thread t).spStores with _ | ⟨⟨off, bs⟩, rest⟩
  · simp only [Cell.landOne, h]
  · have own := Cell.landOne_thread x t
    rw [h, List.drop_succ_cons, List.drop_zero] at own
    by_cases none : rest = []
    · rw [Cell.landSp_none (x.landOne t) t (by rw [own, none]), Cell.landOne_cons h]
      simp [Cell.landSp, h, none]
    · simp only [Cell.landSp, own, h, List.isEmpty_iff, none, List.cons_ne_nil, if_false]
      simp [Cell.landOne_cons h, Cell.setThread, tabSet_tabSet_same]

/-- What the oldest posted store leaves when it lands: its bytes at their offset, every other byte as it was. -/
theorem Cell.landOne_lands {x : Cell} {t off : Nat} {bs : List Byte} {rest : List (Nat × List Byte)}
    (h : (x.thread t).spStores = (off, bs) :: rest) (wf : x.scratch.wf = true) :
    (∀ i, i < bs.length → bs[i]? = some ((x.landOne t).scratch.get (off + i))) ∧
    (∀ a, (a < off ∨ off + bs.length ≤ a) → (x.landOne t).scratch.get a = x.scratch.get a) ∧
    ((x.landOne t).thread t).spStores = rest ∧ (x.landOne t).scratch.wf = true := by
  have scratch : (x.landOne t).scratch = x.scratch.store 64 off bs false false := by rw [Cell.landOne_cons h]
  refine ⟨fun i lt => ?_, fun a out => ?_, ?_, ?_⟩
  · rw [scratch, Memory.get_store, Memory.get_write_in _ _ _ _ bs[i] (List.getElem?_eq_getElem lt) wf, List.getElem?_eq_getElem lt]
  · rw [scratch, Memory.get_store_out _ _ _ _ _ _ _ out wf]
  · rw [Cell.landOne_thread, h, List.drop_succ_cons, List.drop_zero]
  · rw [scratch]
    exact Memory.wf_store _ _ _ _ _ _ wf

/-! ## A FENCE that ends -/

theorem landStores_none {s : State} {c t : Nat} (h : (s.thread c t).stores = []) : s.landStores c t = s := by
  simp [State.landStores, h]

theorem State.thread_landSp (s : State) (c t : Nat) :
    (s.modCell c (fun x => x.landSp t)).thread c t = { s.thread c t with spStores := [] } := by
  rw [State.thread, State.cell_modCell_same, Cell.landSp_thread, State.thread]

theorem exec_fenceComplete {s : State} {c t : Nat} (h : OnThread s c t) (hw : (s.thread c t).waits = .fence)
    (none : (s.thread c t).stores = []) :
    ∃ u, exec (.fenceComplete c t) s = .next u ∧ OnlyCell s u c ∧ (u.cell c).scratch = ((s.cell c).landSp t).scratch ∧
      u.thread c t = { s.thread c t with status := .running, waits := .nothing, spStores := [] } := by
  have ends : s.fenceComplete c t = (s.modCell c (fun x => x.landSp t)).unblock c t := by
    have landed : ((s.modCell c (fun x => x.landSp t)).thread c t).stores = [] := by rw [State.thread_landSp, none]
    simp [State.fenceComplete, hw, landStores_none landed, landed]
  refine ⟨_, onThread_running c t s _ h.path h.cell h.thread, onlyCell_keepQueue ?_, ?_, ?_⟩
  · rw [ends, State.unblock]
    exact (onlyCell_modCell _ _ _).trans (onlyThread_modThread _ _ t _).1
  · rw [State.cell_keepQueue, ends, State.unblock, State.cell_modThread, State.cell_modCell_same, Cell.setThread]
  · rw [State.thread_keepQueue, ends, State.unblock, State.thread_modThread_same, State.thread_landSp]

theorem Thread.setReg_waiting (h : Thread) (q : List (Nat × List Byte)) (r : Nat) (v : DWord) (b : ThreadStatus) (w : ThreadWait) :
    { ({ h with spStores := q } : Thread).setReg r v with status := b, waits := w } =
      { h.setReg r v with status := b, waits := w, spStores := q } := by rw [Thread.setReg_spStores]

/-- Settles O10: the fault of an access by where its address lies, and what lands by the laws of memories. -/
theorem accessesAreAlignedAndInRange : Obligations.AccessesAreAlignedAndInRange := by
  unfold Obligations.AccessesAreAlignedAndInRange
  refine ⟨fun s c t w l o h size => ⟨fun off => ⟨?_, fun sext => ?_⟩, fun al out => ⟨?_, fun sext => ?_⟩,
    fun al inside => ⟨fun reach => ?_, fun reach sext => ?_⟩⟩, fun x t off bs rest h wf => ?_, fun s c t rd off n sx h hw hp => ?_,
    fun s c t h hw none => exec_fenceComplete h hw none, fun s c t w l o h size off => ⟨?_, fun sext => ?_⟩⟩
  · exact spLoad_faults h size (Cell.spFault_misaligned _ off)
  · exact spStore_faults h size sext (Cell.spFault_misaligned _ off)
  · exact spLoad_faults h size (Cell.spFault_hole _ al out)
  · exact spStore_faults h size sext (Cell.spFault_hole _ al out)
  · obtain ⟨u, next, only, thread⟩ := exec_spLoad h size (Cell.spFault_reached al inside reach)
    exact ⟨u, next, only, by rw [thread]; rfl⟩
  · have free := Cell.spFault_reached al inside reach
    dsimp only
    split
    case isTrue room =>
      obtain ⟨u, next, only, thread⟩ := exec_spStore_room h size sext free room
      refine ⟨u, next, only.1, ?_, ?_, ?_⟩
      · rw [only.2.1]
      · rw [thread]; rfl
      · rw [thread]
    case isFalse full =>
      obtain ⟨u, next, only, scratch, thread⟩ := exec_spStore_full h size sext free (Nat.not_lt.1 full)
      refine ⟨u, next, only, scratch, ?_, ?_⟩
      · rw [thread, Cell.landOne_thread]; rfl
      · rw [thread]
  · obtain ⟨bytes, others, posted, form⟩ := Cell.landOne_lands h wf
    exact ⟨bytes, others, posted, form, Cell.landSp_landOne x t⟩
  · refine ⟨_, exec_spLoadReturn h hw hp, onlyCell_keepQueue (onlyCell_spReturned ..), ?_, ?_⟩
    · rw [State.cell_keepQueue, scratch_spReturned]
    · rw [State.thread_keepQueue, thread_spReturned, Thread.setReg_waiting]
  · exact vaLoad_misaligned h size off
  · exact vaStore_misaligned h size sext off

end Sys2Proof.Machine

/-! # Scalar results and control transfers (R51, R54–R58, R545, R546) -/

namespace Sys2Proof.Machine

theorem State.modCell_modCell (s : State) (c : Nat) (f g : Cell → Cell) : (s.modCell c f).modCell c g = s.modCell c (fun x => g (f x)) := by
  simp [State.modCell, State.setCell, State.cell, tabSet_tabSet_same]

theorem State.modThread_modThread (s : State) (c t : Nat) (f g : Thread → Thread) :
    (s.modThread c t f).modThread c t g = s.modThread c t (fun h => g (f h)) := by
  rw [State.modThread, State.thread_modThread_same, State.modThread, State.modThread, State.setThread, State.setThread,
    State.modCell_modCell, State.setThread]
  simp only [Cell.setThread, tabSet_tabSet_same]

theorem OnlyCell.free {s u : State} {c : Nat} (h : OnlyCell s u c) : u.free = s.free := by rw [h.1]
theorem OnlyCell.dram {s u : State} {c : Nat} (h : OnlyCell s u c) : u.dram = s.dram := by rw [h.1]

section
variable {s : State} {c t cls size : Nat} {w : Word} {l : Launch} (h : Issues s c t w cls size l) (f : State → State) {g : Thread → Thread}
include h

/-- An instruction whose effect is a change `g` of its own thread leaves that change, made with the pc past the word. -/
theorem exec_changes_thread (hf : f s = (s.started c t).modThread c t g) :
    ∃ u, onThread c t s f = .next u ∧ OnlyThread s u c t ∧ u.thread c t = g { s.thread c t with pc := (s.thread c t).pc + 4#32 } := by
  refine ⟨_, issues_next h f, onlyThread_keepQueue ?_, ?_⟩
  · rw [hf]
    exact (onlyThread_started s c t).trans (onlyThread_modThread _ _ _ _)
  · rw [State.thread_keepQueue, hf, State.thread_modThread_same, thread_started]

/-- The same for an instruction that gives its own pc. -/
theorem exec_moves_thread (hf : f s = (s.issued c t).modThread c t g) :
    ∃ u, onThread c t s f = .next u ∧ OnlyThread s u c t ∧ u.thread c t = g (s.thread c t) := by
  refine ⟨_, issues_next h f, onlyThread_keepQueue ?_, ?_⟩
  · rw [hf]
    exact (onlyThread_issued s c t).trans (onlyThread_modThread _ _ _ _)
  · rw [State.thread_keepQueue, hf, State.thread_modThread_same, State.thread_issued]

end

/-! ## Arithmetic, divides and predicates -/

/-- What the result `v` of operation `o` makes of a thread: a divide blocks it, and any other goes to `rd` (R54). -/
def Thread.intDone (h : Thread) (o : IntOp) (rd : Nat) (v : DWord) : Thread :=
  if intBlocks o then { h with status := .blocked, waits := .divide rd v } else h.setReg rd v

theorem exec_intArith {s : State} {c t : Nat} {w : Word} {l : Launch} (o : IntOp) {cls : Nat} {b : DWord} (h : Issues s c t w cls 4 l)
    (two : cls = 0 ∨ cls = 1) (hb : (if cls = 1 then BitVec.ofInt 64 (wImm10 w) else (s.thread c t).reg (wRs2 w)) = b) :
    ∃ u, exec (.intArith c t w (some o)) s = .next u ∧ OnlyThread s u c t ∧
      u.thread c t = ({ s.thread c t with pc := (s.thread c t).pc + 4#32 }).intDone o (wRd w)
        (intResult o ((s.thread c t).reg (wRs1 w)) b) := by
  have own : (if cls = 1 then 1 else 0) = cls := by rcases two with rfl | rfl <;> rfl
  refine exec_changes_thread h (fun z => z.intArith c t w (some o))
    (g := fun y => y.intDone o (wRd w) (intResult o ((s.thread c t).reg (wRs1 w)) b)) ?_
  simp only [State.intArith, h.cls, own]
  refine issue_done h (by omega) rfl (f := fun z => z.modThread c t _) (congrArg Body.done (funext fun z => ?_))
  simp only [Thread.intDone, State.blockThread, hb]
  split <;> rfl

/-- DIVIDE_COMPLETE puts the result in its register and lets the thread go on. -/
theorem exec_divideComplete {s : State} {c t rd : Nat} {v : DWord} (h : OnThread s c t) (hw : (s.thread c t).waits = .divide rd v) :
    ∃ u, exec (.divideComplete c t) s = .next u ∧ OnlyThread s u c t ∧
      u.thread c t = { (s.thread c t).setReg rd v with status := .running, waits := .nothing } := by
  have ends : s.divideComplete c t = (s.modThread c t (fun k => k.setReg rd v)).unblock c t := by simp only [State.divideComplete, hw]
  refine ⟨_, onThread_running c t s _ h.path h.cell h.thread, onlyThread_keepQueue ?_, ?_⟩
  · rw [ends, State.unblock]
    exact (onlyThread_modThread _ _ _ _).trans (onlyThread_modThread _ _ _ _)
  · rw [State.thread_keepQueue, ends, State.unblock, State.thread_modThread_same, State.thread_modThread_same]

section
variable {s : State} {c t : Nat} {w : Word} {l : Launch} (h : Issues s c t w 2 4 l) (rd : wRd w < 8)
include h rd

theorem exec_compare (k : Cmp) :
    ∃ u, exec (.comparePredicate c t w (some (.compare k))) s = .next u ∧ OnlyThread s u c t ∧
      u.thread c t = ({ s.thread c t with pc := (s.thread c t).pc + 4#32 }).setPred (wRd w)
        (cmpResult k ((s.thread c t).reg (wRs1 w)) ((s.thread c t).reg (wRs2 w))) :=
  have done : s.comparePredicate c t w (some (.compare k)) = _ := issue_done h (by decide) (by simpa [predLegal] using rd) rfl
  exec_changes_thread h (fun z => z.comparePredicate c t w (some (.compare k)))
    (g := fun x => x.setPred (wRd w) (cmpResult k ((s.thread c t).reg (wRs1 w)) ((s.thread c t).reg (wRs2 w)))) done

theorem exec_logic (tt : BitVec 4) (rs1 : wRs1 w < 8) (rs2 : wRs2 w < 8) :
    ∃ u, exec (.comparePredicate c t w (some (.logic tt))) s = .next u ∧ OnlyThread s u c t ∧
      u.thread c t = ({ s.thread c t with pc := (s.thread c t).pc + 4#32 }).setPred (wRd w)
        (logicResult tt ((s.thread c t).pred (wRs1 w)) ((s.thread c t).pred (wRs2 w))) :=
  have done : s.comparePredicate c t w (some (.logic tt)) = _ := issue_done h (by decide) (by simp [predLegal, rd, rs1, rs2]) rfl
  exec_changes_thread h (fun z => z.comparePredicate c t w (some (.logic tt)))
    (g := fun x => x.setPred (wRd w) (logicResult tt ((s.thread c t).pred (wRs1 w)) ((s.thread c t).pred (wRs2 w)))) done

end

/-- Settles O15: each row is a change of its own thread. -/
theorem scalarResultsReachTheirRegister : Obligations.ScalarResultsReachTheirRegister :=
  ⟨fun _ _ _ _ _ o h => exec_intArith o h (.inl rfl) rfl,
   fun _ _ _ _ _ o h => exec_intArith o h (.inr rfl) rfl,
   fun _ _ _ _ _ h hw => exec_divideComplete h hw,
   fun _ _ _ _ _ k h rd => exec_compare h rd k,
   fun _ _ _ _ _ tt h rd rs1 rs2 => exec_logic h rd tt rs1 rs2⟩

/-! ## Branches and jumps -/

theorem exec_branch {s : State} {c t : Nat} {w : Word} {l : Launch} (h : Issues s c t w 3 4 l) (pos : 0 ≤ branchTarget (s.thread c t).pc w)
    (code : l.inCode (branchTarget (s.thread c t).pc w).toNat = true) :
    ∃ u, exec (.branch c t w) s = .next u ∧ OnlyThread s u c t ∧
      u.thread c t = { s.thread c t with pc := BitVec.ofNat 32 (branchTarget (s.thread c t).pc w).toNat } :=
  have moved : s.branch c t w = _ := issue_moved h (by decide) rfl (if_neg (by simp [Int.not_lt.2 pos, code]))
  exec_moves_thread h (fun z => z.branch c t w)
    (g := fun k => { k with pc := BitVec.ofNat 32 (branchTarget (s.thread c t).pc w).toNat }) moved

section
variable {s : State} {c t : Nat} {w : Word} {l : Launch} (h : Issues s c t w 0xA 4 l) (rs2 : wRs2 w = 0)
  (al : ((s.thread c t).reg (wRs1 w)).toNat % 4 = 0) (code : l.inCode ((s.thread c t).reg (wRs1 w)).toNat = true)
include h rs2 al code

theorem exec_jump (rd : wRd w = 0) :
    ∃ u, exec (.indirectJump c t w (some .jump)) s = .next u ∧ OnlyThread s u c t ∧
      u.thread c t = { s.thread c t with pc := BitVec.ofNat 32 ((s.thread c t).reg (wRs1 w)).toNat } :=
  have moved : s.indirectJump c t w (some .jump) = _ :=
    issue_moved h (by decide) (by simp [jumpLegal, rs2, rd]) ((if_neg (by simp [al])).trans (if_neg (by simp [code])))
  exec_moves_thread h (fun z => z.indirectJump c t w (some .jump))
    (g := fun k => { k with pc := BitVec.ofNat 32 ((s.thread c t).reg (wRs1 w)).toNat }) moved

/-- A jump-and-link leaves the offset of the next word in `rd` (R546). -/
theorem exec_jumpLink :
    ∃ u, exec (.indirectJump c t w (some .jumpLink)) s = .next u ∧ OnlyThread s u c t ∧
      u.thread c t = { (s.thread c t).setReg (wRd w) (((s.thread c t).pc + 4#32).setWidth 64) with
        pc := BitVec.ofNat 32 ((s.thread c t).reg (wRs1 w)).toNat } := by
  have moved : s.indirectJump c t w (some .jumpLink) = _ :=
    issue_moved h (by decide) (by simp [jumpLegal, rs2]) ((if_neg (by simp [al])).trans (if_neg (by simp [code])))
  exact exec_moves_thread h (fun z => z.indirectJump c t w (some .jumpLink)) (moved.trans (State.modThread_modThread (s.issued c t) c t
    (fun k => k.setReg (wRd w) (((s.thread c t).pc + 4#32).setWidth 64))
    (fun k => { k with pc := BitVec.ofNat 32 ((s.thread c t).reg (wRs1 w)).toNat })))

end

/-! ## System values -/

/-- A count read never lies below the last one (R58). -/
theorem le_countOn (n : DWord) (k : Nat) : n.toNat ≤ (countOn n k).toNat := by
  have room : 0 < 2 ^ 64 - n.toNat := by omega
  have grow := Nat.mod_lt (Config.freeNat k) room
  rw [countOn, BitVec.toNat_ofNat, Nat.mod_eq_of_lt (by omega)]
  exact Nat.le_add_right _ _

/-- Only the nine operations of R58 have a value. -/
theorem systemValue_op {s : State} {c t op : Nat} {l : Launch} {v : DWord} (h : s.systemValue c t op l = some v) : op ≤ 8 := by
  unfold State.systemValue at h
  split at h
  case h_10 => contradiction
  all_goals decide

/-- What a CYCLES read leaves besides its register: the cell keeps the count that was read, and one free value is used. -/
def State.cyclesRead (z : State) (c : Nat) (v : DWord) : State :=
  { z.modCell c (fun x => { x with cycles := v }) with free := z.free + 1 }

theorem State.cell_cyclesRead (z : State) (c : Nat) (v : DWord) : (z.cyclesRead c v).cell c = { z.cell c with cycles := v } :=
  State.cell_modCell_same z c (fun x => { x with cycles := v })

theorem State.thread_cyclesRead (z : State) (c k : Nat) (v : DWord) : (z.cyclesRead c v).thread c k = z.thread c k := by
  rw [State.thread, State.cell_cyclesRead, State.thread, Cell.thread, Cell.thread]

theorem onlyCell_cyclesRead (z : State) (c : Nat) (v : DWord) : OnlyCell z { z.cyclesRead c v with free := z.free } c :=
  onlyCell_modCell z c (fun x => { x with cycles := v })

section
variable {s : State} {c t : Nat} {w : Word} {l : Launch} {v : DWord} (h : Issues s c t w 9 4 l) (rs1 : wRs1 w = 0) (rs2 : wRs2 w = 0)
  (value : s.systemValue c t (wOpR w) l = some v)
include h rs1 rs2 value

theorem systemValueRead_issues : s.systemValueRead c t w =
    if wOpR w = 6 then ((s.started c t).modThread c t (fun k => k.setReg (wRd w) v)).cyclesRead c v
    else (s.started c t).modThread c t (fun k => k.setReg (wRd w) v) := by
  unfold State.systemValueRead
  exact issue_done h (by decide) (by simp [rs1, rs2, systemValue_op value])
    (f := fun z => if wOpR w = 6 then (z.modThread c t (fun k => k.setReg (wRd w) v)).cyclesRead c v
      else z.modThread c t (fun k => k.setReg (wRd w) v)) (by simp only [value]; rfl)

theorem exec_systemValueRead (op : wOpR w ≠ 6) :
    ∃ u, exec (.systemValueRead c t w) s = .next u ∧ OnlyThread s u c t ∧
      u.thread c t = ({ s.thread c t with pc := (s.thread c t).pc + 4#32 }).setReg (wRd w) v :=
  exec_changes_thread h (fun z => z.systemValueRead c t w) ((systemValueRead_issues h rs1 rs2 value).trans (if_neg op))

/-- Operation 6 reads CYCLES, and the cell keeps the count that was read (R58). -/
theorem exec_cyclesRead (op : wOpR w = 6) :
    ∃ u, exec (.systemValueRead c t w) s = .next u ∧ OnlyCell s { u with free := s.free } c ∧ u.free = s.free + 1 ∧
      (u.cell c).cycles = v ∧ u.thread c t = ({ s.thread c t with pc := (s.thread c t).pc + 4#32 }).setReg (wRd w) v ∧
      ∀ k, k ≠ t → u.thread c k = s.thread c k := by
  have reads := (systemValueRead_issues h rs1 rs2 value).trans (if_pos op)
  have thread := (onlyThread_started s c t).trans (onlyThread_modThread (s.started c t) c t (fun k => k.setReg (wRd w) v))
  have own := State.thread_modThread_same (s.started c t) c t (fun k => k.setReg (wRd w) v)
  generalize (s.started c t).modThread c t (fun k => k.setReg (wRd w) v) = z at reads thread own
  refine ⟨keepQueue s (z.cyclesRead c v), reads ▸ issues_next h _, ?_, ?_, ?_, ?_, fun k ne => ?_⟩
  · have only := onlyCell_keepQueue (thread.1.trans (onlyCell_cyclesRead z c v))
    rwa [thread.1.free] at only
  · exact congrArg (· + 1) thread.1.free
  · rw [State.cell_keepQueue, State.cell_cyclesRead]
  · rw [State.thread_keepQueue, State.thread_cyclesRead, own, thread_started]
  · rw [State.thread_keepQueue, State.thread_cyclesRead]
    exact thread.2.2 k ne

end

/-- Settles O16: every row but a CYCLES read is a change of its own thread. -/
theorem controlTransfersMoveThePc : Obligations.ControlTransfersMoveThePc :=
  ⟨fun _ _ _ _ _ h pos code => exec_branch h pos code,
   fun _ _ _ _ _ h rs2 rd al code => exec_jump h rs2 al code rd,
   fun _ _ _ _ _ h rs2 al code => exec_jumpLink h rs2 al code,
   fun _ _ _ _ _ _ h rs1 rs2 value op => exec_systemValueRead h rs1 rs2 value op,
   fun _ _ _ _ _ h rs1 rs2 op => ⟨le_countOn _ _, exec_cyclesRead h rs1 rs2 (by rw [op]; rfl) op⟩⟩

end Sys2Proof.Machine

/-! # Semaphores (R61–R63) -/

namespace Sys2Proof.Machine

/-! ## Counts and lines of a cell -/

@[simp] theorem Cell.sem_setSem_same (x : Cell) (i : Nat) (v : Half) (w : List (SemWaiter × Nat)) : (x.setSem i v w).sem i = v :=
  tabGet_tabSet_same _ _ _ _
theorem Cell.sem_setSem_other (x : Cell) (i j : Nat) (v : Half) (w : List (SemWaiter × Nat)) (n : j ≠ i) :
    (x.setSem i v w).sem j = x.sem j := tabGet_tabSet_other _ _ _ _ _ n
@[simp] theorem Cell.semWaiters_setSem_same (x : Cell) (i : Nat) (v : Half) (w : List (SemWaiter × Nat)) :
    (x.setSem i v w).semWaiters i = w := tabGet_tabSet_same _ _ _ _
@[simp] theorem Cell.thread_setSem (x : Cell) (i k : Nat) (v : Half) (w : List (SemWaiter × Nat)) :
    (x.setSem i v w).thread k = x.thread k := rfl
@[simp] theorem Cell.sem_setThread (x : Cell) (t i : Nat) (h : Thread) : (x.setThread t h).sem i = x.sem i := rfl
@[simp] theorem Cell.semWaiters_setThread (x : Cell) (t i : Nat) (h : Thread) : (x.setThread t h).semWaiters i = x.semWaiters i := rfl
theorem Cell.setSem_setSem_same (x : Cell) (i : Nat) (v v' : Half) (w w' : List (SemWaiter × Nat)) :
    (x.setSem i v w).setSem i v' w' = x.setSem i v' w' := by simp only [Cell.setSem, tabSet_tabSet_same]

theorem State.setCell_setCell_same (s : State) (c : Nat) (x y : Cell) : (s.setCell c x).setCell c y = s.setCell c y := by
  simp only [State.setCell, tabSet_tabSet_same]

theorem OnlyThread.sem {s u : State} {c t : Nat} (h : OnlyThread s u c t) (i : Nat) : (u.cell c).sem i = (s.cell c).sem i := by
  rw [h.2.1]; rfl
theorem OnlyThread.semWaiters {s u : State} {c t : Nat} (h : OnlyThread s u c t) (i : Nat) :
    (u.cell c).semWaiters i = (s.cell c).semWaiters i := by rw [h.2.1]; rfl

theorem thread_setCell_setSem (s : State) (c i k : Nat) (v : Half) (w : List (SemWaiter × Nat)) :
    (s.setCell c ((s.cell c).setSem i v w)).thread c k = s.thread c k := by
  rw [State.thread, State.cell_setCell_same, Cell.thread_setSem, State.thread]

/-! ## Grants -/

/-- The waiters granted are the first `k` of the line; each took its `n`, and the next asks for more than is left (R62). -/
theorem grantLoop_grants (v : Nat) (line : List (SemWaiter × Nat)) : ∃ k,
    (grantLoop v line).1 = (line.take k).map (·.1) ∧ (grantLoop v line).2.2 = line.drop k ∧
    (grantLoop v line).2.1 + ((line.take k).map (·.2)).sum = v ∧ ∀ p, (line.drop k).head? = some p → (grantLoop v line).2.1 < p.2 := by
  induction line generalizing v with
  | nil => exact ⟨0, rfl, rfl, rfl, fun p h => by simp at h⟩
  | cons p rest ih =>
    obtain ⟨w, n⟩ := p
    by_cases fits : n ≤ v
    · obtain ⟨k, granted, left, sum, next⟩ := ih (v - n)
      have granting : grantLoop v ((w, n) :: rest) =
          (w :: (grantLoop (v - n) rest).1, (grantLoop (v - n) rest).2.1, (grantLoop (v - n) rest).2.2) := by
        rw [grantLoop, if_pos fits]
      rw [granting]
      refine ⟨k + 1, by simp [granted], left, ?_, next⟩
      simp only [List.take_succ_cons, List.map_cons, List.sum_cons]
      omega
    · have stuck : grantLoop v ((w, n) :: rest) = ([], v, (w, n) :: rest) := by rw [grantLoop, if_neg fits]
      rw [stuck]
      refine ⟨0, rfl, rfl, rfl, fun p h => ?_⟩
      obtain rfl : (w, n) = p := by simpa using h
      exact Nat.not_le.1 fits

/-- A thread that goes on. -/
def Thread.goesOn (h : Thread) : Thread := { h with status := .running, waits := .nothing }

/-- Grants to threads let those threads go on, and touch nothing else. -/
theorem applyGrants_threads (c : Nat) (g : List SemWaiter) (s : State) (threads : ∀ w ∈ g, ∃ j, w = .thread j) :
    OnlyCell s (g.foldl (fun acc w => acc.applyGrant c w) s) c ∧
    (∀ i, ((g.foldl (fun acc w => acc.applyGrant c w) s).cell c).sem i = (s.cell c).sem i) ∧
    (∀ i, ((g.foldl (fun acc w => acc.applyGrant c w) s).cell c).semWaiters i = (s.cell c).semWaiters i) ∧
    ∀ j, (g.foldl (fun acc w => acc.applyGrant c w) s).thread c j =
      if .thread j ∈ g then (s.thread c j).goesOn else s.thread c j := by
  induction g generalizing s with
  | nil => exact ⟨OnlyCell.refl s c, fun _ => rfl, fun _ => rfl, fun _ => rfl⟩
  | cons w g ih =>
    obtain ⟨k, rfl⟩ := threads w List.mem_cons_self
    obtain ⟨only, sems, lines, ran⟩ := ih (s.modThread c k Thread.goesOn) fun w m => threads w (List.mem_cons_of_mem _ m)
    have first := onlyThread_modThread s c k Thread.goesOn
    rw [List.foldl_cons]
    refine ⟨first.1.trans only, fun i => (sems i).trans (first.sem i), fun i => (lines i).trans (first.semWaiters i), fun j => ?_⟩
    refine (ran j).trans ?_
    by_cases same : j = k
    · rw [same, State.thread_modThread_same]
      simp [Thread.goesOn]
    · rw [State.thread_modThread_other s c k j _ same]
      simp [same]

/-- A signal that the count has room for raises it and grants what it can. -/
theorem signal_grants {s : State} {c i n : Nat} (room : ((s.cell c).sem i).toNat + n ≤ 65535) (t cls : Nat) (pc : Word) :
    s.signal c i n t cls pc =
      (grantLoop (((s.cell c).sem i).toNat + n) ((s.cell c).semWaiters i)).1.foldl (fun acc w => acc.applyGrant c w)
        (s.setCell c ((s.cell c).setSem i
          (BitVec.ofNat 16 (grantLoop (((s.cell c).sem i).toNat + n) ((s.cell c).semWaiters i)).2.1)
          (grantLoop (((s.cell c).sem i).toNat + n) ((s.cell c).semWaiters i)).2.2)) := by
  have raised : ((s.cell c).sem i + BitVec.ofNat 16 n).toNat = ((s.cell c).sem i).toNat + n := by
    rw [BitVec.toNat_add, BitVec.toNat_ofNat]
    omega
  rw [State.signal, if_neg (Nat.not_lt.2 room), State.grantSem]
  simp only [State.cell_setCell_same, Cell.sem_setSem_same, Cell.semWaiters_setSem_same, raised, State.setCell_setCell_same,
    Cell.setSem_setSem_same]

/-- Taking no more than a count holds leaves the difference. -/
theorem sub_ofNat_toNat {v : Half} {n : Nat} (h : n ≤ v.toNat) : (v - BitVec.ofNat 16 n).toNat = v.toNat - n := by
  have small := v.isLt
  rw [BitVec.toNat_sub, BitVec.toNat_ofNat]
  omega

/-! ## SIG -/

section
variable {s : State} {c t : Nat} {w : Word} {l : Launch} (h : Issues s c t w 6 4 l)
include h

theorem sig_issues {i n : Nat} (rd : wRd w = 0) (rs1 : ((s.thread c t).reg (wRs1 w)).toNat = i) (hi : i ≤ 63)
    (rs2 : ((s.thread c t).reg (wRs2 w)).toNat = n) (pos : 1 ≤ n) (room : ((s.cell c).sem i).toNat + n ≤ 65535) :
    s.sig c t w true = (s.started c t).signal c i n t 6 (s.thread c t).pc := by
  have legal : ¬ (63 < i ∨ n = 0 ∨ 65535 < n ∨ 65535 < ((s.cell c).sem i).toNat + n) := by omega
  exact issue_done h (by decide) (by simp [rd]) (f := fun z => z.signal c i n t 6 (s.thread c t).pc)
    (by simp only [rs1, rs2, if_neg legal])

/-- A SIG whose waiters are threads: those granted are a first part of the line. -/
theorem exec_sig {i n : Nat} (rd : wRd w = 0) (rs1 : ((s.thread c t).reg (wRs1 w)).toNat = i) (hi : i ≤ 63)
    (rs2 : ((s.thread c t).reg (wRs2 w)).toNat = n) (pos : 1 ≤ n) (room : ((s.cell c).sem i).toNat + n ≤ 65535)
    (threads : ∀ p ∈ (s.cell c).semWaiters i, ∃ k, p.1 = .thread k) :
    ∃ u k, exec (.sig c t ⟨w, true⟩) s = .next u ∧ OnlyCell s u c ∧
      (u.cell c).semWaiters i = ((s.cell c).semWaiters i).drop k ∧
      ((u.cell c).sem i).toNat + ((((s.cell c).semWaiters i).take k).map (·.2)).sum = ((s.cell c).sem i).toNat + n ∧
      (∀ p, (((s.cell c).semWaiters i).drop k).head? = some p → ((u.cell c).sem i).toNat < p.2) ∧
      (∀ j, j ≠ i → (u.cell c).sem j = (s.cell c).sem j) ∧
      ∀ j, u.thread c j = if .thread j ∈ (((s.cell c).semWaiters i).take k).map (·.1) then ((s.started c t).thread c j).goesOn
        else (s.started c t).thread c j := by
  have start := onlyThread_started s c t
  have issued := sig_issues h rd rs1 hi rs2 pos room
  rw [signal_grants (by rwa [start.sem]), start.sem, start.semWaiters] at issued
  obtain ⟨k, granted, left, sum, next⟩ := grantLoop_grants (((s.cell c).sem i).toNat + n) ((s.cell c).semWaiters i)
  generalize grantLoop (((s.cell c).sem i).toNat + n) ((s.cell c).semWaiters i) = g at issued granted left sum next
  obtain ⟨only, sems, lines, ran⟩ := applyGrants_threads c g.1
    ((s.started c t).setCell c (((s.started c t).cell c).setSem i (BitVec.ofNat 16 g.2.1) g.2.2)) (by
      rw [granted]
      intro w m
      obtain ⟨p, mp, rfl⟩ := List.mem_map.1 m
      exact threads p (List.mem_of_mem_take mp))
  rw [← issued] at only sems lines ran
  have count : ((s.sig c t w true).cell c).sem i = BitVec.ofNat 16 g.2.1 := by rw [sems, State.cell_setCell_same, Cell.sem_setSem_same]
  have value : (((s.sig c t w true).cell c).sem i).toNat = g.2.1 := by
    rw [count, BitVec.toNat_ofNat]
    omega
  refine ⟨_, k, issues_next h _, onlyCell_keepQueue ((start.1.trans (onlyCell_setCell _ _ _)).trans only), ?_, ?_, ?_, ?_, fun j => ?_⟩
  · rw [State.cell_keepQueue, lines, State.cell_setCell_same, Cell.semWaiters_setSem_same, left]
  · rw [State.cell_keepQueue, value, sum]
  · rw [State.cell_keepQueue, value]
    exact next
  · intro j ne
    rw [State.cell_keepQueue, sems, State.cell_setCell_same, Cell.sem_setSem_other _ _ _ _ _ ne, start.sem]
  · rw [State.thread_keepQueue, ran, thread_setCell_setSem, granted]

/-! ## WAIT -/

theorem wait_issues {i n : Nat} (rd : wRd w = 0) (rs1 : ((s.thread c t).reg (wRs1 w)).toNat = i) (hi : i ≤ 63)
    (rs2 : ((s.thread c t).reg (wRs2 w)).toNat = n) (hn : n ≤ 65535) :
    s.wait c t w true = ((s.started c t).blockThread c t (.semaphore i n)).waitSem c i n (.thread t) := by
  have legal : ¬ (63 < i ∨ 65535 < n) := by omega
  exact issue_done h (by decide) (by simp [rd]) (f := fun z => (z.blockThread c t (.semaphore i n)).waitSem c i n (.thread t))
    (by simp only [rs1, rs2, if_neg legal])

end

theorem onlyThread_blockThread (s : State) (c t : Nat) (w : ThreadWait) : OnlyThread s (s.blockThread c t w) c t :=
  onlyThread_modThread s c t _

theorem thread_blockThread (s : State) (c t : Nat) (w : ThreadWait) :
    (s.blockThread c t w).thread c t = { s.thread c t with status := .blocked, waits := w } := State.thread_modThread_same s c t _

theorem waitSem_granted {s : State} {c i n : Nat} (w : SemWaiter) (pos : 1 ≤ n) (enough : n ≤ ((s.cell c).sem i).toNat)
    (first : (s.cell c).semWaiters i = []) :
    s.waitSem c i n w = (s.setCell c ((s.cell c).setSem i ((s.cell c).sem i - BitVec.ofNat 16 n) [])).applyGrant c w := by
  simp [State.waitSem, Nat.ne_of_gt pos, enough, first]

/-- A waiter that cannot be satisfied, or finds others waiting, goes to the end of the line (R62). -/
theorem waitSem_queued {s : State} {c i n : Nat} (w : SemWaiter) (pos : 1 ≤ n)
    (wait : ((s.cell c).sem i).toNat < n ∨ (s.cell c).semWaiters i ≠ []) :
    s.waitSem c i n w = s.setCell c ((s.cell c).setSem i ((s.cell c).sem i) ((s.cell c).semWaiters i ++ [(w, n)])) := by
  have none : ¬ (((s.cell c).semWaiters i).isEmpty && decide (n ≤ ((s.cell c).sem i).toNat)) = true := by
    rcases wait with few | others
    · simp [Nat.not_le.2 few]
    · simp [others]
  rw [State.waitSem, if_neg (Nat.ne_of_gt pos), if_neg none]

section
variable {s : State} {c t i n : Nat} {w : Word} {l : Launch} (h : Issues s c t w 6 4 l) (rd : wRd w = 0)
  (rs1 : ((s.thread c t).reg (wRs1 w)).toNat = i) (hi : i ≤ 63) (rs2 : ((s.thread c t).reg (wRs2 w)).toNat = n) (pos : 1 ≤ n)
include h rd rs1 hi rs2 pos

theorem exec_wait_granted (enough : n ≤ ((s.cell c).sem i).toNat) (first : (s.cell c).semWaiters i = [])
    (idle : (s.thread c t).waits = .nothing) :
    ∃ u, exec (.wait c t ⟨w, true⟩) s = .next u ∧ OnlyCell s u c ∧ ((u.cell c).sem i).toNat = ((s.cell c).sem i).toNat - n ∧
      u.thread c t = { s.thread c t with pc := (s.thread c t).pc + 4#32 } := by
  have small := ((s.cell c).sem i).isLt
  have blocked := (onlyThread_started s c t).trans (onlyThread_blockThread (s.started c t) c t (.semaphore i n))
  have own : ((s.started c t).blockThread c t (.semaphore i n)).thread c t = _ := thread_blockThread _ _ _ _
  have issued := wait_issues h rd rs1 hi rs2 (by omega)
  rw [waitSem_granted _ pos (by rwa [blocked.sem]) (by rw [blocked.semWaiters, first])] at issued
  generalize (s.started c t).blockThread c t (.semaphore i n) = z at blocked own issued
  have went := onlyThread_modThread (z.setCell c ((z.cell c).setSem i ((z.cell c).sem i - BitVec.ofNat 16 n) [])) c t Thread.goesOn
  refine ⟨_, issues_next h _, onlyCell_keepQueue ?_, ?_, ?_⟩
  · rw [issued]
    exact (blocked.1.trans (onlyCell_setCell _ _ _)).trans went.1
  · rw [State.cell_keepQueue, issued]
    refine (congrArg BitVec.toNat (went.sem i)).trans ?_
    rw [State.cell_setCell_same, Cell.sem_setSem_same, blocked.sem, sub_ofNat_toNat enough]
  · rw [State.thread_keepQueue, issued]
    refine (State.thread_modThread_same _ _ _ _).trans ?_
    rw [thread_setCell_setSem, own, thread_started]
    simp only [← h.ready, ← idle]

theorem exec_wait_queued (hn : n ≤ 65535) (wait : ((s.cell c).sem i).toNat < n ∨ (s.cell c).semWaiters i ≠ []) :
    ∃ u, exec (.wait c t ⟨w, true⟩) s = .next u ∧ OnlyCell s u c ∧ (u.cell c).sem i = (s.cell c).sem i ∧
      (u.cell c).semWaiters i = (s.cell c).semWaiters i ++ [(.thread t, n)] ∧
      u.thread c t = { s.thread c t with pc := (s.thread c t).pc + 4#32, status := .blocked, waits := .semaphore i n } := by
  have blocked := (onlyThread_started s c t).trans (onlyThread_blockThread (s.started c t) c t (.semaphore i n))
  have own : ((s.started c t).blockThread c t (.semaphore i n)).thread c t = _ := thread_blockThread _ _ _ _
  have issued := wait_issues h rd rs1 hi rs2 hn
  rw [waitSem_queued _ pos (by rwa [blocked.sem, blocked.semWaiters])] at issued
  generalize (s.started c t).blockThread c t (.semaphore i n) = z at blocked own issued
  refine ⟨_, issues_next h _, onlyCell_keepQueue ?_, ?_, ?_, ?_⟩
  · rw [issued]
    exact blocked.1.trans (onlyCell_setCell _ _ _)
  · rw [State.cell_keepQueue, issued, State.cell_setCell_same, Cell.sem_setSem_same, blocked.sem]
  · rw [State.cell_keepQueue, issued, State.cell_setCell_same, Cell.semWaiters_setSem_same, blocked.semWaiters]
  · rw [State.thread_keepQueue, issued, thread_setCell_setSem, own, thread_started]

end

/-! ## TRY and SEM_READ -/

/-- What a TRY that is granted, or is not, leaves of its semaphore. -/
def State.trySem (z : State) (c i n : Nat) (ok : Bool) : State :=
  if ok then z.modCell c (fun y => y.setSem i (y.sem i - BitVec.ofNat 16 n) (y.semWaiters i)) else z

theorem onlyCell_trySem (z : State) (c i n : Nat) (ok : Bool) : OnlyCell z (z.trySem c i n ok) c := by
  cases ok
  · exact OnlyCell.refl z c
  · rw [State.trySem, if_pos rfl]
    exact onlyCell_modCell z c _

theorem thread_trySem (z : State) (c i n k : Nat) (ok : Bool) : (z.trySem c i n ok).thread c k = z.thread c k := by
  cases ok
  · rfl
  · exact thread_setCell_setSem z c i k _ _

theorem sem_trySem {z : State} {c i n : Nat} {ok : Bool} (enough : ok = true → n ≤ ((z.cell c).sem i).toNat) :
    (((z.trySem c i n ok).cell c).sem i).toNat = ((z.cell c).sem i).toNat - (if ok then n else 0) := by
  cases ok
  · rfl
  · rw [State.trySem, if_pos rfl, State.cell_modCell_same, Cell.sem_setSem_same, sub_ofNat_toNat (enough rfl), if_pos rfl]

section
variable {s : State} {c t i n : Nat} {w : Word} {l : Launch} (h : Issues s c t w 6 4 l)
  (rs1 : ((s.thread c t).reg (wRs1 w)).toNat = i) (hi : i ≤ 63)
include h rs1 hi

/-- A TRY takes `n` and sets its predicate exactly where a WAIT would have been granted. -/
theorem exec_tryOp (rd : wRd w < 8) (rs2 : ((s.thread c t).reg (wRs2 w)).toNat = n) (hn : n ≤ 65535) {ok : Bool}
    (wins : ok = decide ((s.cell c).semWaiters i = [] ∧ n ≤ ((s.cell c).sem i).toNat)) :
    ∃ u, exec (.tryOp c t ⟨w, true⟩) s = .next u ∧ OnlyCell s u c ∧
      ((u.cell c).sem i).toNat = ((s.cell c).sem i).toNat - (if ok then n else 0) ∧
      u.thread c t = ({ s.thread c t with pc := (s.thread c t).pc + 4#32 }).setPred (wRd w) ok := by
  have legal : ¬ (63 < i ∨ 65535 < n) := by omega
  have test : (((s.cell c).semWaiters i).isEmpty && decide (n ≤ ((s.cell c).sem i).toNat)) = ok := by
    rw [wins, Bool.decide_and]
    cases (s.cell c).semWaiters i <;> rfl
  have enough : ok = true → n ≤ ((s.cell c).sem i).toNat := fun won => (of_decide_eq_true (wins.symm.trans won)).2
  have issued : s.tryOp c t w true = ((s.started c t).trySem c i n ok).modThread c t (fun k => k.setPred (wRd w) ok) :=
    issue_done h (by decide) (by simp [rd]) (f := fun z => (z.trySem c i n ok).modThread c t (fun k => k.setPred (wRd w) ok))
      (by simp only [rs1, rs2, if_neg legal, test]; rfl)
  have start := onlyThread_started s c t
  have set := onlyThread_modThread ((s.started c t).trySem c i n ok) c t (fun k => k.setPred (wRd w) ok)
  refine ⟨_, issues_next h _, onlyCell_keepQueue ?_, ?_, ?_⟩
  · rw [issued]
    exact (start.1.trans (onlyCell_trySem _ _ _ _ _)).trans set.1
  · rw [State.cell_keepQueue, issued, set.sem, sem_trySem (by rwa [start.sem]), start.sem]
  · rw [State.thread_keepQueue, issued, State.thread_modThread_same, thread_trySem, thread_started]

theorem exec_semRead (rs2 : wRs2 w = 0) :
    ∃ u, exec (.semRead c t ⟨w, true⟩) s = .next u ∧ OnlyThread s u c t ∧
      u.thread c t = ({ s.thread c t with pc := (s.thread c t).pc + 4#32 }).setReg (wRd w) (((s.cell c).sem i).setWidth 64) :=
  have done : s.semRead c t w true = _ := issue_done h (by decide) (by simp [rs2])
    (f := fun z => z.modThread c t (fun k => k.setReg (wRd w) (((s.cell c).sem i).setWidth 64)))
    (by simp only [rs1, if_neg (Nat.not_lt.2 hi)])
  exec_changes_thread h (fun z => z.semRead c t w true) (g := fun k => k.setReg (wRd w) (((s.cell c).sem i).setWidth 64)) done

end

/-- Settles O19: SIG as the grant of an empty line, WAIT by whether it must wait, TRY and SEM_READ as they issue. -/
theorem semaphoreOperations : Obligations.SemaphoreOperations := by
  unfold Obligations.SemaphoreOperations
  refine ⟨fun s c t i n w l h rd rs1 hi rs2 pos room none => ?_,
    fun s c t i n w l h rd rs1 hi rs2 pos enough first idle => exec_wait_granted h rd rs1 hi rs2 pos enough first idle,
    fun s c t i n w l h rd rs1 hi rs2 pos hn wait => exec_wait_queued h rd rs1 hi rs2 pos hn wait,
    fun s c t i n w l h rd rs1 hi rs2 hn => exec_tryOp h rs1 hi rd rs2 hn rfl,
    fun s c t i w l h rs2 rs1 hi => exec_semRead h rs1 hi rs2⟩
  obtain ⟨u, k, next, only, -, sum, -, others, threads⟩ := exec_sig h rd rs1 hi rs2 pos room (by simp [none])
  refine ⟨u, next, only, by simpa [none] using sum, others, ?_⟩
  rw [threads t]
  simp [none, thread_started]

end Sys2Proof.Machine

/-! # Threads and engine queues (R51, R59, R60, R64–R66) -/

namespace Sys2Proof.Machine

/-! ## Threads that start and end -/

/-- A thread as TSPAWN starts it: registers 0, predicates false but p0 (R59). -/
def Thread.spawned (h : Thread) (off : Nat) : Thread :=
  { h with regs := [], preds := 1#8, pc := BitVec.ofNat 32 off, status := .running, waits := .nothing }

theorem Thread.reg_spawned (h : Thread) (off r : Nat) : (h.spawned off).reg r = 0#64 := by
  unfold Thread.reg
  split
  · rfl
  · rfl

theorem Thread.pred_spawned (h : Thread) (off : Nat) {p : Nat} (lt : p < 8) : (h.spawned off).pred p = decide (p = 0) := by
  have bits : ∀ q : Fin 8, (q.1 == 0 || (1#8).getLsbD q.1) = decide (q.1 = 0) := by decide
  exact bits ⟨p, lt⟩

/-- A thread other than the issuing one, changed by an instruction. -/
theorem exec_changes_other {s : State} {c t n cls size : Nat} {w : Word} {l : Launch} (h : Issues s c t w cls size l) (ne : n ≠ t)
    (f : State → State) {g : Thread → Thread} (hf : f s = (s.started c t).modThread c n g) :
    ∃ u, onThread c t s f = .next u ∧ OnlyCell s u c ∧ u.thread c n = g (s.thread c n) ∧
      u.thread c t = { s.thread c t with pc := (s.thread c t).pc + 4#32 } := by
  have start := onlyThread_started s c t
  refine ⟨_, issues_next h f, onlyCell_keepQueue ?_, ?_, ?_⟩
  · rw [hf]
    exact start.1.trans (onlyThread_modThread _ _ n _).1
  · rw [State.thread_keepQueue, hf, State.thread_modThread_same, start.2.2 n ne]
  · rw [State.thread_keepQueue, hf, State.thread_modThread_other _ _ _ _ _ (Ne.symm ne), thread_started]

theorem exec_tspawn {s : State} {c t n off : Nat} {w : Word} {l : Launch} (h : Issues s c t w 7 4 l) (rd : wRd w = 0)
    (rs1 : ((s.thread c t).reg (wRs1 w)).toNat = n) (hn : n ≤ 15) (rs2 : ((s.thread c t).reg (wRs2 w)).toNat = off)
    (idle : (s.thread c n).status = .idle) (al : off % 4 = 0) (code : l.inCode off = true) :
    ∃ u, exec (.tspawn c t ⟨w, true⟩) s = .next u ∧ OnlyCell s u c ∧ u.thread c n = (s.thread c n).spawned off ∧
      u.thread c t = { s.thread c t with pc := (s.thread c t).pc + 4#32 } := by
  have ne : n ≠ t := by
    rintro rfl
    rw [h.ready] at idle
    contradiction
  have legal : ¬ (15 < n ∨ (s.thread c n).status ≠ .idle ∨ off % 4 ≠ 0 ∨ (!l.inCode off) = true) := by
    simp [Nat.not_lt.2 hn, idle, al, code]
  have done : s.tspawn c t w true = _ := issue_done h (by decide) (by simp [rd]) (f := fun z => z.modThread c n (·.spawned off))
    (by simp only [rs1, rs2, if_neg legal]; rfl)
  exact exec_changes_other h ne (fun z => z.tspawn c t w true) (g := (·.spawned off)) done

/-- A key other than the one set keeps its entries. -/
theorem mem_tabSet_other {α : Type} {t : Table α} {k j : Nat} {a b : α} (ne : j ≠ k) (h : (j, b) ∈ t) : (j, b) ∈ tabSet t k a := by
  induction t with
  | nil => exact absurd h List.not_mem_nil
  | cons p r ih =>
    obtain ⟨i, x⟩ := p
    simp only [tabSet]
    split
    case isTrue same =>
      rcases List.mem_cons.1 h with first | rest
      · exact absurd ((congrArg Prod.fst first).trans (beq_iff_eq.1 same)) ne
      · exact List.mem_cons_of_mem _ rest
    case isFalse =>
      split
      · exact List.mem_cons_of_mem _ h
      · rcases List.mem_cons.1 h with first | rest
        · exact first ▸ List.mem_cons_self
        · exact List.mem_cons_of_mem _ (ih rest)

/-- While some thread runs and is not at the barrier, the barrier is not complete (R68). -/
theorem barrierFull_runs {x : Cell} {k : Nat} {h : Thread} (mem : (k, h) ∈ x.threads) (running : h.status = .running)
    (waits : h.waits = .nothing) : x.barrierFull = false := by
  have apart : x.threads.all (fun p => p.2.status == .idle || p.2.atBarrier) = false :=
    List.all_eq_false.2 ⟨_, mem, by simp [running, waits, Thread.atBarrier]⟩
  rw [Cell.barrierFull, apart, Bool.and_false]

theorem onlyThread_setCell_self (s : State) (c t : Nat) : OnlyThread s (s.setCell c (s.cell c)) c t := by
  refine ⟨onlyCell_setCell s c _, ?_, fun k _ => ?_⟩
  · rw [State.cell_setCell_same]
  · rw [State.thread, State.cell_setCell_same, State.thread]

theorem exec_texit {s : State} {c t k : Nat} {w : Word} {l : Launch} (h : Issues s c t w 7 4 l) (rd : wRd w = 0) (rs1 : wRs1 w = 0)
    (rs2 : wRs2 w = 0) (ne : k ≠ t) (other : ∃ h, (k, h) ∈ (s.cell c).threads ∧ h.status = .running ∧ h.waits = .nothing) :
    ∃ u, exec (.texit c t ⟨w, true⟩) s = .next u ∧ OnlyThread s u c t ∧
      u.thread c t = { s.thread c t with status := .idle, waits := .nothing } ∧ (u.cell c).launch = (s.cell c).launch := by
  obtain ⟨g, mem, running, waits⟩ := other
  have issued : s.texit c t w true = _ := issue_moved h (by decide) (by simp [rd, rs1, rs2])
    (f := fun z => ((z.modThread c t (fun h => { h with status := .idle, waits := .nothing })).barrierCheck c).checkCellEnd c) rfl
  have idled := (onlyThread_issued s c t).trans
    (onlyThread_modThread (s.issued c t) c t (fun h => { h with status := .idle, waits := .nothing }))
  have own := State.thread_modThread_same (s.issued c t) c t (fun h => { h with status := .idle, waits := .nothing })
  have mem' : (k, g) ∈ (((s.issued c t).modThread c t (fun h => { h with status := .idle, waits := .nothing })).cell c).threads := by
    rw [State.cell_modThread, State.cell_issued]
    exact mem_tabSet_other ne mem
  generalize (s.issued c t).modThread c t (fun h => { h with status := .idle, waits := .nothing }) = z at issued idled own mem'
  have check : z.barrierCheck c = z.setCell c (z.cell c) := by
    simp only [State.barrierCheck, State.modCell, barrierFull_runs mem' running waits]
    rfl
  have stays : ThreadRuns (z.barrierCheck c) c := ⟨k, g, by rw [check, State.cell_setCell_same]; exact mem', running⟩
  rw [checkCellEnd_runs _ _ stays, check] at issued
  have whole := idled.trans (onlyThread_setCell_self z c t)
  rw [← issued] at whole
  refine ⟨_, issues_next h _, onlyThread_keepQueue whole, ?_, ?_⟩
  · rw [State.thread_keepQueue, issued, State.thread, State.cell_setCell_same]
    exact own.trans (by rw [State.thread_issued])
  · rw [State.cell_keepQueue]
    exact (congrArg Cell.launch whole.2.1).trans rfl

/-- Settles O20. -/
theorem threadsStartAndEnd : Obligations.ThreadsStartAndEnd := by
  unfold Obligations.ThreadsStartAndEnd
  refine ⟨fun s c t n off w l h rd rs1 hn rs2 idle al code => ?_,
    fun s c t k w l h rd rs1 rs2 ne other => exec_texit h rd rs1 rs2 ne other⟩
  obtain ⟨u, next, only, spawned, own⟩ := exec_tspawn h rd rs1 hn rs2 idle al code
  refine ⟨u, next, only, ?_, ?_, fun r => ?_, fun p lt => ?_, own⟩
  · rw [spawned]; rfl
  · rw [spawned]; rfl
  · rw [spawned, Thread.reg_spawned]
  · rw [spawned, Thread.pred_spawned _ _ lt]

/-! ## Engine commands -/

theorem Cell.equeue_setQueueOf_same (x : Cell) (e : Nat) (q : List EngineCmd) : (x.setQueueOf e q).equeue e = q :=
  tabGet_tabSet_same _ _ _ _
theorem Cell.equeue_setQueueOf_other (x : Cell) (e k : Nat) (q : List EngineCmd) (n : k ≠ e) : (x.setQueueOf e q).equeue k = x.equeue k :=
  tabGet_tabSet_other _ _ _ _ _ n

/-- The state after a command joined its engine's queue, before its head is looked at. -/
def State.queued (s : State) (c : Nat) (k : EngineCmd) : State :=
  (s.modCell c (fun x => x.setQueueOf k.engine (x.equeue k.engine ++ [k]))).traceCell c 4 k.traceData

theorem enqueue_eq (s : State) (c : Nat) (k : EngineCmd) : s.enqueue c k =
    if ((s.cell c).equeue k.engine).isEmpty then ((s.queued c k).stampHead c k.engine).armHead c k.engine else s.queued c k := rfl

theorem State.cell_queued (s : State) (c : Nat) (k : EngineCmd) :
    (s.queued c k).cell c = (s.cell c).setQueueOf k.engine ((s.cell c).equeue k.engine ++ [k]) := by
  rw [State.queued, State.cell_traceCell, State.cell_modCell_same]

theorem State.cell_queued_other (s : State) (c d : Nat) (k : EngineCmd) (ne : d ≠ c) : (s.queued c k).cell d = s.cell d := by
  rw [State.queued, State.cell_traceCell, State.cell_modCell_other _ _ _ _ ne]

theorem State.dram_queued (s : State) (c : Nat) (k : EngineCmd) : (s.queued c k).dram = s.dram := by
  rw [State.queued, State.traceCell_dram]
  rfl

/-- `u` is `s` with command `k` at the end of its engine's queue on cell `c`; every thread, DRAM, every other queue and cell stand. -/
structure Joins (s u : State) (c : Nat) (k : EngineCmd) : Prop where
  own : (u.cell c).equeue k.engine = (s.cell c).equeue k.engine ++ [k]
  others : ∀ e, e ≠ k.engine → (u.cell c).equeue e = (s.cell c).equeue e
  threads : ∀ t, u.thread c t = s.thread c t
  dram : u.dram = s.dram
  cells : ∀ d, d ≠ c → u.cell d = s.cell d

theorem joins_queued (s : State) (c : Nat) (k : EngineCmd) : Joins s (s.queued c k) c k := by
  refine ⟨?_, fun e ne => ?_, fun t => ?_, s.dram_queued c k, fun d ne => s.cell_queued_other c d k ne⟩
  · rw [State.cell_queued, Cell.equeue_setQueueOf_same]
  · rw [State.cell_queued, Cell.equeue_setQueueOf_other _ _ _ _ ne]
  · rw [State.thread, State.cell_queued]
    rfl

theorem Joins.stampHead {s u : State} {c : Nat} {k : EngineCmd} (h : Joins s u c k) (e : Nat) : Joins s (u.stampHead c e) c k := by
  have own : (u.stampHead c e).cell c = _ := State.cell_modCell_same u c _
  refine ⟨?_, fun e ne => ?_, fun t => ?_, h.dram, fun d ne => ?_⟩
  · rw [own]; exact h.own
  · rw [own]; exact h.others e ne
  · rw [State.thread, own]; exact h.threads t
  · exact (State.cell_modCell_other u c d _ ne).trans (h.cells d ne)

theorem joins_enqueue {s : State} {c : Nat} {k : EngineCmd} (granted : k.granted = true) : Joins s (s.enqueue c k) c k := by
  rw [enqueue_eq]
  split
  case isFalse => exact joins_queued s c k
  case isTrue empty =>
    have stamped := (joins_queued s c k).stampHead k.engine
    have head : (((s.queued c k).stampHead c k.engine).cell c).head k.engine = some k := by
      rw [Cell.head, stamped.own, List.isEmpty_iff.1 empty]
      rfl
    have armed : ((s.queued c k).stampHead c k.engine).armHead c k.engine = (s.queued c k).stampHead c k.engine := by
      simp only [State.armHead, head, granted, if_true]
    rwa [armed]

/-- The state in which an engine command is accepted: the pc past its two words and its position in the order of issue taken. -/
def State.issuedCmd (s : State) (c t : Nat) : State :=
  ((s.issued c t).setPc c t ((s.thread c t).pc + 8#32)).modCell c (fun y => { y with nextSeq := y.nextSeq + 1 })

/-- But for the order of issue, that is what issuing leaves of any instruction. -/
theorem State.cell_issuedCmd (s : State) (c t : Nat) : ∃ z, OnlyThread s z c t ∧
    z.thread c t = { s.thread c t with pc := (s.thread c t).pc + 8#32 } ∧
    s.issuedCmd c t = z.modCell c (fun y => { y with nextSeq := y.nextSeq + 1 }) :=
  ⟨_, onlyThread_start s c t _, by rw [State.thread_setPc, State.thread_issued], rfl⟩

section
variable (s : State) (c t : Nat)

theorem State.equeue_issuedCmd (e : Nat) : ((s.issuedCmd c t).cell c).equeue e = (s.cell c).equeue e := by
  obtain ⟨z, only, -, eq⟩ := s.cell_issuedCmd c t
  rw [eq, State.cell_modCell_same, only.2.1]
  rfl

theorem State.sem_issuedCmd (i : Nat) : ((s.issuedCmd c t).cell c).sem i = (s.cell c).sem i := by
  obtain ⟨z, only, -, eq⟩ := s.cell_issuedCmd c t
  rw [eq, State.cell_modCell_same]
  exact only.sem i

theorem State.semWaiters_issuedCmd (i : Nat) : ((s.issuedCmd c t).cell c).semWaiters i = (s.cell c).semWaiters i := by
  obtain ⟨z, only, -, eq⟩ := s.cell_issuedCmd c t
  rw [eq, State.cell_modCell_same]
  exact only.semWaiters i

theorem State.thread_issuedCmd : (s.issuedCmd c t).thread c t = { s.thread c t with pc := (s.thread c t).pc + 8#32 } := by
  obtain ⟨z, -, own, eq⟩ := s.cell_issuedCmd c t
  rw [eq, State.thread, State.cell_modCell_same]
  exact own

theorem State.cell_issuedCmd_other (d : Nat) (ne : d ≠ c) : (s.issuedCmd c t).cell d = s.cell d := by
  obtain ⟨z, only, -, eq⟩ := s.cell_issuedCmd c t
  rw [eq, State.cell_modCell_other _ _ _ _ ne, only.1.2 d ne]

theorem State.dram_issuedCmd : (s.issuedCmd c t).dram = s.dram := by
  obtain ⟨z, only, -, eq⟩ := s.cell_issuedCmd c t
  rw [eq, State.modCell_dram, only.1.dram]

end

section
variable {s : State} {c t e : Nat} {w w1 : Word} {l : Launch} {immOk : Bool} {ranges : EngineCmd → Bool} {roles : EngineCmd → List Role}
  (h : Issues s c t w 8 8 l) (engine : eEngine w = e) (known : e < 5) (legal : eLegal w w1 = true) (imm : immOk = true)
  (range : ranges (engineCmd (s.cell c) (s.thread c t) t w w1) = true)
  (slots : (roles (engineCmd (s.cell c) (s.thread c t) t w w1)).any (fun r => !calHasRole (s.cell c).calendar r) = false)
  (room : ((s.cell c).equeue e).length < engineDepth e)
include h engine known legal imm range slots room

/-- A command whose operands are in range and whose roles hold slots is put into its engine's queue where that has room. -/
theorem engineIssue_enqueues : s.engineIssue c t w w1 e immOk ranges roles =
    (s.issuedCmd c t).enqueue c (engineCmd (s.cell c) (s.thread c t) t w w1) := by
  have same : ¬ (wClass w = 8 ∧ eEngine w ≠ e ∧ eEngine w < 5) := fun other => other.2.1 engine
  have fits : ¬ (5 ≤ eEngine w ∨ ranges (engineCmd (s.cell c) (s.thread c t) t w w1) = false) := by
    rw [range, engine]
    simpa using known
  have accepted : s.engineIssue c t w w1 e immOk ranges roles =
      (s.issuedCmd c t).acceptCmd c (engineCmd (s.cell c) (s.thread c t) t w w1) := by
    rw [State.engineIssue, if_neg same]
    exact issue_done h (by decide) (by simp [legal, imm])
      (f := fun z => (z.modCell c (fun y => { y with nextSeq := y.nextSeq + 1 })).acceptCmd c
        (engineCmd (s.cell c) (s.thread c t) t w w1))
      ((if_neg fits).trans (if_neg (Bool.eq_false_iff.1 slots)))
  rw [accepted, State.acceptCmd, if_pos]
  rw [State.equeue_issuedCmd, show (engineCmd (s.cell c) (s.thread c t) t w w1).engine = e from engine]
  exact room

variable (free : eWaitEn w = false) (f : State → State) (hf : f s = s.engineIssue c t w w1 e immOk ranges roles)
include free hf

/-- Without a start semaphore the command joins the end of its queue and nothing else is touched. -/
theorem exec_engineIssue : ∃ u, onThread c t s f = .next u ∧
    (u.cell c).equeue e = (s.cell c).equeue e ++ [engineCmd (s.cell c) (s.thread c t) t w w1] ∧
    (∀ d, d ≠ e → (u.cell c).equeue d = (s.cell c).equeue d) ∧
    u.thread c t = { s.thread c t with pc := (s.thread c t).pc + 8#32 } ∧ u.dram = s.dram ∧ ∀ d, d ≠ c → u.cell d = s.cell d := by
  have joined : Joins (s.issuedCmd c t) (f s) c (engineCmd (s.cell c) (s.thread c t) t w w1) := by
    rw [hf, engineIssue_enqueues h engine known legal imm range slots room]
    exact joins_enqueue (by simp [engineCmd, free])
  have own := joined.own
  have others := joined.others
  rw [show (engineCmd (s.cell c) (s.thread c t) t w w1).engine = e from engine] at own others
  refine ⟨_, issues_next h f, ?_, fun d ne => ?_, ?_, ?_, fun d ne => ?_⟩
  · rw [State.cell_keepQueue, own, State.equeue_issuedCmd]
  · rw [State.cell_keepQueue, others d ne, State.equeue_issuedCmd]
  · rw [State.thread_keepQueue, joined.threads, State.thread_issuedCmd]
  · exact joined.dram.trans (State.dram_issuedCmd s c t)
  · rw [State.cell_keepQueue, joined.cells d ne, State.cell_issuedCmd_other s c t d ne]

end

/-- An array command that is no LOAD_ONLY needs slots of the weight and activation roles, and of the output role unless a tile buffer
takes its rows. -/
theorem arrayRoles_granted {cal : List Word} (wt : calHasRole cal .arrayWt = true) (act : calHasRole cal .arrayAct = true)
    (out : calHasRole cal .arrayOut = true) (lo dest : Bool) (notLo : lo = false) :
    (if lo then [Role.arrayWt] else if dest then [.arrayWt, .arrayAct] else [.arrayWt, .arrayAct, .arrayOut]).any
      (fun r => !calHasRole cal r) = false := by
  subst notLo
  cases dest <;> simp [wt, act, out]

/-- Settles O21: each engine's operands are in range and its roles hold slots. -/
theorem engineCommandsJoinTheirQueue : Obligations.EngineCommandsJoinTheirQueue := by
  unfold Obligations.EngineCommandsJoinTheirQueue
  dsimp only
  refine ⟨fun s c t w w1 l h e legal free imm lo ew al inside pos small wt act out room => ?_,
    fun s c t w w1 l h e legal free pos small rd room => ?_, fun s c t w w1 l h e legal free imm sb eg room => ?_,
    fun s c t w w1 l h e legal free pos small ing room => ?_, fun s c t w w1 l h e legal free imm pos small rd wr room => ?_⟩
  · refine exec_engineIssue h e (by decide) legal imm ?_ (arrayRoles_granted wt act out _ _ lo) room free
      (fun z => z.arrayCmd c t w w1) rfl
    simp only [lo, Bool.or_false, ew]
    simp [al, inside, pos, small]
  · exact exec_engineIssue h e (by decide) legal rfl (by simp [pos, small]) (by simp [rd]) room free (fun z => z.vectorCmd c t w w1) rfl
  · exact exec_engineIssue h e (by decide) legal (by simp [imm]) (by simp [sb]) (by simp [eg]) room free
      (fun z => z.streamCmd c t w w1) rfl
  · exact exec_engineIssue h e (by decide) legal rfl (by simp [pos, small]) (by simp [ing]) room free (fun z => z.bagCmd c t w w1) rfl
  · exact exec_engineIssue h e (by decide) legal (by simp [imm]) (by simp [pos, small]) (by simp [rd, wr]) room free
      (fun z => z.sampleCmd c t w w1) rfl

/-! ## Semaphores behind engine commands -/

/-- A command with a start semaphore that it cannot have joins the end of that semaphore's line when it reaches the head (R64, R66). -/
theorem enqueue_waits {s : State} {c : Nat} {k : EngineCmd} (granted : k.granted = false) (empty : (s.cell c).equeue k.engine = [])
    (wait : (s.cell c).sem k.semWait = 0#16 ∨ (s.cell c).semWaiters k.semWait ≠ [])
    (absent : ∀ p ∈ (s.cell c).semWaiters k.semWait, p.1 ≠ .engine k.engine) :
    ((s.enqueue c k).cell c).semWaiters k.semWait = (s.cell c).semWaiters k.semWait ++ [(.engine k.engine, 1)] ∧
    ((s.enqueue c k).cell c).equeue k.engine = [k] := by
  have stamped := (joins_queued s c k).stampHead k.engine
  have own : ((s.queued c k).stampHead c k.engine).cell c = _ := State.cell_modCell_same (s.queued c k) c _
  have sem : (((s.queued c k).stampHead c k.engine).cell c).sem k.semWait = (s.cell c).sem k.semWait := by
    rw [own, State.cell_queued]; rfl
  have line : (((s.queued c k).stampHead c k.engine).cell c).semWaiters k.semWait = (s.cell c).semWaiters k.semWait := by
    rw [own, State.cell_queued]; rfl
  have head : (((s.queued c k).stampHead c k.engine).cell c).head k.engine = some k := by
    rw [Cell.head, stamped.own, empty]
    rfl
  have new : ¬ ((s.cell c).semWaiters k.semWait).any (fun p => p.1 == .engine k.engine) = true := by
    rw [List.any_eq_true]
    rintro ⟨p, m, is⟩
    exact absent p m (beq_iff_eq.1 is)
  rw [enqueue_eq, empty, List.isEmpty_nil, if_pos rfl]
  generalize (s.queued c k).stampHead c k.engine = z at stamped sem line head
  have waits : ((z.cell c).sem k.semWait).toNat < 1 ∨ (z.cell c).semWaiters k.semWait ≠ [] := by
    rw [sem, line]
    exact wait.imp (fun zero => by simp [zero]) id
  have armed : z.armHead c k.engine = z.setCell c ((z.cell c).setSem k.semWait ((z.cell c).sem k.semWait)
      ((z.cell c).semWaiters k.semWait ++ [(.engine k.engine, 1)])) := by
    rw [← waitSem_queued (.engine k.engine) (Nat.le_refl 1) waits]
    simp only [State.armHead, head, granted, line, if_neg new]
    rfl
  rw [armed, State.cell_setCell_same, Cell.semWaiters_setSem_same, line]
  exact ⟨rfl, stamped.own.trans (by rw [empty]; rfl)⟩

theorem exec_vectorCmd_waits {s : State} {c t : Nat} {w w1 : Word} {l : Launch} (h : Issues s c t w 8 8 l) (engine : eEngine w = 1)
    (legal : eLegal w w1 = true) (waitEn : eWaitEn w = true) (pos : 1 ≤ ((s.thread c t).reg (eSb w)).toNat)
    (small : ((s.thread c t).reg (eSb w)).toNat ≤ 16777216) (rd : calHasRole (s.cell c).calendar .vecRd = true)
    (empty : (s.cell c).equeue 1 = []) (wait : (s.cell c).sem (eSemWait w1) = 0#16 ∨ (s.cell c).semWaiters (eSemWait w1) ≠ [])
    (absent : ∀ p ∈ (s.cell c).semWaiters (eSemWait w1), p.1 ≠ .engine 1) :
    ∃ u, exec (.vectorCmd c t w w1) s = .next u ∧
      (u.cell c).semWaiters (eSemWait w1) = (s.cell c).semWaiters (eSemWait w1) ++ [(.engine 1, 1)] ∧
      (u.cell c).equeue 1 = [engineCmd (s.cell c) (s.thread c t) t w w1] := by
  have issued : s.vectorCmd c t w w1 = (s.issuedCmd c t).enqueue c (engineCmd (s.cell c) (s.thread c t) t w w1) :=
    engineIssue_enqueues h engine (by decide) legal rfl (by simp [engineCmd, pos, small]) (by simp [rd])
      (by rw [empty]; decide)
  have names : (engineCmd (s.cell c) (s.thread c t) t w w1).engine = 1 := engine
  have waits := enqueue_waits (s := s.issuedCmd c t) (c := c) (k := engineCmd (s.cell c) (s.thread c t) t w w1)
    (by simp [engineCmd, waitEn]) (by rw [names, State.equeue_issuedCmd, empty])
    (by rw [State.sem_issuedCmd, State.semWaiters_issuedCmd]; exact wait)
    (by rw [names, State.semWaiters_issuedCmd]; exact absent)
  rw [← issued, names, State.semWaiters_issuedCmd] at waits
  exact ⟨_, issues_next h _, waits⟩

/-- Settles O11: the grants of a SIG as a first part of the line, and each waiter at the end of it. -/
theorem semaphoresGrantInArrivalOrder : Obligations.SemaphoresGrantInArrivalOrder := by
  unfold Obligations.SemaphoresGrantInArrivalOrder
  refine ⟨fun s c t i n w l h rd rs1 hi rs2 pos room threads => ?_, fun s c t i n w l h rd rs1 hi rs2 pos hn wait => ?_,
    fun s c t w w1 l h engine legal waitEn pos small rd empty wait absent =>
      exec_vectorCmd_waits h engine legal waitEn pos small rd empty wait absent⟩
  · obtain ⟨u, k, next, only, left, sum, head, -, ran⟩ := exec_sig h rd rs1 hi rs2 pos room threads
    refine ⟨u, k, next, only, left, sum, head, fun p m j is => ?_, fun j ne others => ?_⟩
    · have granted : .thread j ∈ (((s.cell c).semWaiters i).take k).map (·.1) := is ▸ List.mem_map_of_mem m
      rw [ran j, if_pos granted]
      exact ⟨rfl, rfl⟩
    · have waits : .thread j ∉ (((s.cell c).semWaiters i).take k).map (·.1) := fun m => by
        obtain ⟨p, mp, is⟩ := List.mem_map.1 m
        exact others p mp is
      rw [ran j, if_neg waits]
      exact (onlyThread_started s c t).2.2 j ne
  · obtain ⟨u, next, only, sem, line, thread⟩ := exec_wait_queued h rd rs1 hi rs2 pos hn wait
    exact ⟨u, next, only, sem, line, by rw [thread]⟩

end Sys2Proof.Machine

/-! # Layer boundaries (R68, R71, R97, R115, R261) -/

namespace Sys2Proof.Machine

/-! ## Arriving at the barrier -/

/-- The last to arrive is noted, and a complete barrier makes the cell drain; nothing else of the cell changes. -/
theorem State.cell_barrier (s : State) (c t : Nat) :
    (s.barrier c t).cell c = { s.cell c with arrived := t, layer := ((s.barrier c t).cell c).layer } := by
  have full : ∀ x : Cell, (if x.barrierFull then { x with layer := .draining x.arrived } else x) =
      { x with layer := (if x.barrierFull then { x with layer := .draining x.arrived } else x).layer } := by
    intro x
    split <;> rfl
  have checked : (s.barrier c t).cell c = (fun x : Cell => if x.barrierFull then { x with layer := .draining x.arrived } else x)
      { s.cell c with arrived := t } := by
    rw [State.barrier, State.barrierCheck, State.cell_modCell_same, State.cell_modCell_same]
  rw [checked]
  exact full _

theorem onlyCell_barrier (s : State) (c t : Nat) : OnlyCell s (s.barrier c t) c :=
  (onlyCell_modCell s c _).trans (onlyCell_modCell _ c _)

theorem State.thread_barrier (s : State) (c t k : Nat) : (s.barrier c t).thread c k = s.thread c k := by
  rw [State.thread, State.cell_barrier, State.thread]
  rfl

/-- An instruction that leaves its thread at the barrier. -/
theorem exec_arrives {s : State} {c t : Nat} {w : Word} {l : Launch} (h : Issues s c t w 9 4 l) (f : State → State) (wait : ThreadWait)
    (hf : f s = ((s.started c t).blockThread c t wait).barrier c t) :
    ∃ u, onThread c t s f = .next u ∧ OnlyCell s u c ∧
      u.thread c t = { s.thread c t with pc := (s.thread c t).pc + 4#32, status := .blocked, waits := wait } := by
  refine ⟨_, issues_next h f, onlyCell_keepQueue ?_, ?_⟩
  · rw [hf]
    exact ((onlyThread_started s c t).trans (onlyThread_blockThread _ c t _)).1.trans (onlyCell_barrier _ c t)
  · rw [State.thread_keepQueue, hf, State.thread_barrier, thread_blockThread, thread_started]

/-! ## Loading a calendar -/

theorem Cell.drainList_eq (x : Cell) (ws : List IngressWrite) :
    x.drainList ws = { x with scratch := (x.drainList ws).scratch, ingress := (x.drainList ws).ingress } := by
  induction ws generalizing x with
  | nil => rfl
  | cons w r ih =>
    rw [Cell.drainList]
    split
    · rw [ih]
    · rfl

/-- A cell at a layer boundary with calendar `cal` loaded: its layer count raised, its ingress buffer drained under it (R68, R70). -/
def Cell.loaded (x : Cell) (cal : List Word) : Cell := Cell.drainIngress { x with calendar := cal, layerCount := x.layerCount + 1#14 }

theorem Cell.loaded_eq (x : Cell) (cal : List Word) : x.loaded cal =
    { x with calendar := cal, layerCount := x.layerCount + 1#14, scratch := (x.loaded cal).scratch, ingress := (x.loaded cal).ingress } :=
  Cell.drainList_eq _ _

theorem Cell.loaded_scratch {x : Cell} (cal : List Word) (empty : x.ingress = []) : (x.loaded cal).scratch = x.scratch := by
  simp [Cell.loaded, Cell.drainIngress, empty, Cell.drainList]

theorem traceOnly_traceLayer (s : State) (c v : Nat) : TraceOnly s (s.traceLayer c v) := by
  unfold State.traceLayer
  split
  · exact TraceOnly.refl s
  · exact traceOnly_traceCell s c 3 _

theorem TraceOnly.cell {s u : State} (h : TraceOnly s u) (c : Nat) : u.cell c = s.cell c := by rw [State.cell, h.cells, State.cell]

/-- The calendar block at an offset of a cell can be loaded: inside the scratchpad, unpoisoned and valid (R68, R69). -/
structure CalendarAt (x : Cell) (off : Nat) : Prop where
  inside : off + 64 ≤ scratchBytes
  clean : x.spPoison off 64 = false
  valid : calValid (calOfBytes (x.scratch.read off 64)) = true

/-- The boundary of a cell that no pre-emption mark holds loads its calendar and releases the barrier, on that cell alone. -/
theorem loadCalendar_releases {s : State} {c off : Nat} (h : CalendarAt (s.cell c) off) (mark : (s.cell c).mark = .none) (t site v : Nat) :
    let u := s.loadCalendar c t site off (fun z => (z.traceLayer c v).layerEnd c)
    u.cell c = ((s.cell c).loaded (calOfBytes ((s.cell c).scratch.read off 64))).releaseBarrier ∧
      (∀ d, d ≠ c → u.cell d = s.cell d) ∧ u.dram = s.dram ∧ u.launches = s.launches := by
  intro u
  generalize hx : (s.cell c).loaded (calOfBytes ((s.cell c).scratch.read off 64)) = x
  have traced := traceOnly_traceLayer (s.setCell c x) c v
  have own : ((s.setCell c x).traceLayer c v).cell c = x := by rw [traced.cell, State.cell_setCell_same]
  have unmarked : x.mark = .none := by
    rw [← hx, Cell.loaded_eq]
    exact mark
  have ends : u = ((s.setCell c x).traceLayer c v).setCell c x.releaseBarrier := by
    have load : u = ((s.setCell c x).traceLayer c v).layerEnd c := by
      rw [← hx]
      exact (if_neg (Nat.not_lt.2 h.inside)).trans ((if_neg (Bool.eq_false_iff.1 h.clean)).trans (if_pos h.valid))
    rw [load, State.layerEnd, own, unmarked]
  refine ⟨?_, fun d ne => ?_, ?_, ?_⟩
  · rw [ends, State.cell_setCell_same]
  · rw [ends, State.cell_setCell_other _ _ _ _ ne, traced.cell, State.cell_setCell_other _ _ _ _ ne]
  · rw [ends]; exact traced.dram
  · rw [ends]; exact traced.launches

/-! ## LAYER_DRAIN_DONE of a LAYER -/

theorem Cell.landAllSp_none {x : Cell} (none : ∀ k, (x.thread k).spStores = []) : x.landAllSp = x := by
  have fold : ∀ l : List (Nat × Thread), l.foldl (fun (acc : Cell) p => acc.landSp p.1) x = x := by
    intro l
    induction l with
    | nil => rfl
    | cons p l ih => rw [List.foldl_cons, Cell.landSp_none x p.1 (none p.1), ih]
  exact fold x.threads

theorem exec_layerDrainDone {s : State} {c t site off : Nat} (h : OnCell s c) (layer : (s.cell c).layer = .draining t)
    (active : s.cellActive c = true) (drained : (s.cell c).drained = true) (waits : ((s.cell c).thread t).waits = .layer site off)
    (noTrip : (s.cell c).quant.trip = false) (cal : CalendarAt (s.cell c) off) (mark : (s.cell c).mark = .none)
    (none : ∀ k, (s.thread c k).spStores = []) :
    ∃ u, exec (.layerDrainDone c) s = .next u ∧
      u.cell c = ((s.cell c).loaded (calOfBytes ((s.cell c).scratch.read off 64))).releaseBarrier ∧
      u.dram = s.dram ∧ ∀ d, d ≠ c → u.cell d = s.cell d := by
  have landed : s.modCell c Cell.landAllSp = s.setCell c (s.cell c) := by rw [State.modCell, Cell.landAllSp_none none]
  have same : (s.setCell c (s.cell c)).cell c = s.cell c := State.cell_setCell_same _ _ _
  have boundary := loadCalendar_releases (s := s.setCell c (s.cell c)) (by rwa [same]) (by rwa [same]) t site 0
  have done : s.layerDrainDone c =
      (s.setCell c (s.cell c)).loadCalendar c t site off (fun z => (z.traceLayer c 0).layerEnd c) := by
    simp only [State.layerDrainDone, layer, landed, same, active, drained, waits, State.reportClip, noTrip]
    rfl
  rw [same, ← done] at boundary
  obtain ⟨own, others, dram, -⟩ := boundary
  exact ⟨_, onCell_running c s _ h.path h.cell, own, dram, fun d ne => (others d ne).trans (State.cell_setCell_other _ _ _ _ ne)⟩

/-! ## Threads that the barrier lets go -/

/-- A thread at the barrier goes on; any other stands. -/
def Thread.released (h : Thread) : Thread := if h.atBarrier then h.goesOn else h

/-- A thread of a cell whose table has been changed entry by entry. -/
theorem Cell.thread_map {x y : Cell} {f : Thread → Thread} (threads : y.threads = x.threads.map (fun p => (p.1, f p.2)))
    (idle : f Thread.idle = Thread.idle) (t : Nat) : y.thread t = f (x.thread t) := by
  have mapped := tabGet_map_values f Thread.idle x.threads t
  rw [idle, ← threads] at mapped
  exact mapped

theorem Cell.thread_releaseBarrier (x : Cell) (t : Nat) : x.releaseBarrier.thread t = (x.thread t).released := by
  refine Cell.thread_map (f := Thread.released) ?_ rfl t
  refine List.map_congr_left fun p _ => ?_
  unfold Thread.released
  split <;> rfl

theorem Cell.thread_loaded (x : Cell) (cal : List Word) (t : Nat) : (x.loaded cal).thread t = x.thread t := by
  rw [Cell.loaded_eq]
  rfl

theorem Thread.pred_setPred_same (h : Thread) {p : Nat} (v : Bool) (pos : p ≠ 0) (lt : p < 8) : (h.setPred p v).pred p = v := by
  cases v <;> simp [Thread.pred, Thread.setPred, pos, lt]

/-! ## LAYERW_VERDICT -/

/-- A thread with the verdict in its predicate: the one its own word names, or the one that the last arrival names (R115). -/
def Thread.judged (h : Thread) (replay : Bool) (pred : Nat) : Thread :=
  match h.waits with
  | .layerW _ _ _ p => h.setPred p replay
  | .layer _ _ => h.setPred pred replay
  | _ => h

/-- A cell whose verdict is in: its trip bit cleared, a replay counted, and the verdict in its threads' predicates. -/
def Cell.judged (x : Cell) (replay : Bool) (pred : Nat) : Cell :=
  { x with
    quant := { x.quant with trip := false, voteWait := false
                            widened := if replay then BitVec.ofNat 8 (satAdd 8 x.quant.widened.toNat 1) else x.quant.widened }
    threads := x.threads.map (fun p => (p.1, p.2.judged replay pred)) }

theorem verdictAt_voting {s : State} {replay : Bool} {c t site cal wide p : Nat} (voting : (s.cell c).layer = .voting t)
    (waits : ((s.cell c).thread t).waits = .layerW site cal wide p) :
    s.verdictAt replay c = (s.setCell c ((s.cell c).judged replay p)).loadCalendar c t site (if replay then wide else cal)
      (fun z => (z.traceLayer c (b2n replay)).layerEnd c) := by
  simp only [State.verdictAt, voting, waits, Cell.judged]
  rfl

/-- The verdict at a cell that awaits it: that cell alone loads the calendar the verdict chooses and goes on. -/
theorem verdictAt_ready {s : State} {replay : Bool} {c t off p : Nat} (h : VoteReady s replay c t off p) :
    let u := s.verdictAt replay c
    u.cell c = (((s.cell c).judged replay p).loaded (calOfBytes ((s.cell c).scratch.read off 64))).releaseBarrier ∧
      (∀ d, d ≠ c → u.cell d = s.cell d) ∧ u.dram = s.dram ∧ u.launches = s.launches := by
  obtain ⟨voting, mark, ⟨site, cal, wide, waits, rfl⟩, inside, clean, valid⟩ := h
  rw [verdictAt_voting voting waits]
  have own : (s.setCell c ((s.cell c).judged replay p)).cell c = _ := State.cell_setCell_same _ _ _
  have boundary := loadCalendar_releases (s := s.setCell c ((s.cell c).judged replay p)) (c := c)
    (off := if replay then wide else cal) (by rw [own]; exact ⟨inside, clean, valid⟩) (by rw [own]; exact mark) t site (b2n replay)
  rw [own] at boundary
  obtain ⟨cell, others, dram, launches⟩ := boundary
  exact ⟨cell, fun d ne => (others d ne).trans (State.cell_setCell_other _ _ _ _ ne), dram, launches⟩

/-- The verdict lets the thread that arrived last go on, with the verdict in the predicate its word names. -/
theorem thread_verdict {x : Cell} {t site cal wide p : Nat} (waits : (x.thread t).waits = .layerW site cal wide p) (replay : Bool)
    (block : List Word) :
    (((x.judged replay p).loaded block).releaseBarrier).thread t = ((x.thread t).setPred p replay).goesOn := by
  have judged : (x.judged replay p).thread t = (x.thread t).judged replay p :=
    Cell.thread_map (f := fun h => h.judged replay p) rfl rfl t
  have stays : ((x.thread t).setPred p replay).waits = (x.thread t).waits := by
    unfold Thread.setPred
    split <;> rfl
  rw [Cell.thread_releaseBarrier, Cell.thread_loaded, judged]
  simp [Thread.judged, waits, Thread.released, Thread.atBarrier, stays]

/-- A fold over different cells, each step changing the cell of its own entry only: every cell listed is left as its own step leaves it. -/
theorem foldl_each_cell {κ α : Type} (kept : State → κ) (cellOf : α → Nat) {f : State → α → State} {s : State} {Q : α → Cell → Prop}
    {items : List α} (nodup : (items.map cellOf).Nodup)
    (step : ∀ u : State, ∀ a ∈ items, u.cell (cellOf a) = s.cell (cellOf a) →
      Q a ((f u a).cell (cellOf a)) ∧ (∀ d, d ≠ cellOf a → (f u a).cell d = u.cell d) ∧ kept (f u a) = kept u) :
    (∀ a ∈ items, Q a ((items.foldl f s).cell (cellOf a))) ∧ (∀ d, d ∉ items.map cellOf → (items.foldl f s).cell d = s.cell d) ∧
      kept (items.foldl f s) = kept s := by
  have from_ : ∀ u : State, (∀ a ∈ items, u.cell (cellOf a) = s.cell (cellOf a)) →
      (∀ a ∈ items, Q a ((items.foldl f u).cell (cellOf a))) ∧ (∀ d, d ∉ items.map cellOf → (items.foldl f u).cell d = u.cell d) ∧
        kept (items.foldl f u) = kept u := by
    induction items with
    | nil => exact fun u _ => ⟨by simp, fun _ _ => rfl, rfl⟩
    | cons a as ih =>
      intro u fresh
      obtain ⟨new, nodup'⟩ := List.nodup_cons.1 nodup
      obtain ⟨own, others, same⟩ := step u a List.mem_cons_self (fresh a List.mem_cons_self)
      obtain ⟨each, rest, same'⟩ := ih nodup' (fun v d m => step v d (List.mem_cons_of_mem a m)) (f u a) fun d m =>
        (others _ fun is => new (is ▸ List.mem_map_of_mem m)).trans (fresh d (List.mem_cons_of_mem a m))
      refine ⟨fun d m => ?_, fun d m => ?_, same'.trans same⟩
      · rcases List.mem_cons.1 m with rfl | m'
        · rw [List.foldl_cons, rest _ new]
          exact own
        · exact each d m'
      · rw [List.map_cons, List.mem_cons, not_or] at m
        rw [List.foldl_cons, rest d m.2, others d m.1]
  exact from_ s fun _ _ => rfl

theorem VoteReady.of_cell {s u : State} {replay : Bool} {c t off p : Nat} (h : VoteReady s replay c t off p)
    (same : u.cell c = s.cell c) : VoteReady u replay c t off p := by
  unfold VoteReady at h ⊢
  rwa [same]

/-- What a verdict leaves of a cell that awaited it. -/
def Cell.Judged (s : State) (replay : Bool) (c : Nat) (y : Cell) : Prop :=
  ∀ t off p, VoteReady s replay c t off p →
    y.layer = .running ∧ y.quant.trip = false ∧ y.calendar = calOfBytes ((s.cell c).scratch.read off 64) ∧
    y.layerCount = (s.cell c).layerCount + 1#14 ∧ (y.thread t).status = .running ∧ (p ≠ 0 → p < 8 → (y.thread t).pred p = replay)

theorem judged_verdictAt (s : State) (replay : Bool) (c : Nat) :
    Cell.Judged s replay c ((s.verdictAt replay c).cell c) := by
  intro t off p h
  rw [(verdictAt_ready h).1]
  obtain ⟨-, -, ⟨site, cal, wide, waits, -⟩, -⟩ := h
  have thread := thread_verdict waits replay (calOfBytes ((s.cell c).scratch.read off 64))
  refine ⟨rfl, ?_, ?_, ?_, ?_, fun pos lt => ?_⟩
  · exact (congrArg (fun y : Cell => y.quant.trip) (Cell.loaded_eq _ _))
  · exact (congrArg Cell.calendar (Cell.loaded_eq _ _))
  · exact (congrArg Cell.layerCount (Cell.loaded_eq _ _))
  · rw [thread]; rfl
  · rw [thread]
    exact Thread.pred_setPred_same _ _ pos lt

theorem exec_layerwVerdict {s : State} {l : Nat} {x : Launch} (path : s.running = true) (found : s.launch? l = some x)
    (some_ : x.cells ≠ []) (nodup : x.cells.Nodup) (votes : ∀ r, r < x.cells.length → r ∈ x.votes)
    (ready : ∀ c ∈ x.cells, ∃ t off p, VoteReady s x.tripped c t off p) :
    ∃ u, exec (.layerwVerdict l) s = .next u ∧
      u.launch? l = some { x with votes := [], tripped := false, replayed := if x.tripped then satAdd 8 x.replayed 1 else x.replayed } ∧
      ∀ c ∈ x.cells, Cell.Judged s x.tripped c (u.cell c) := by
  have all : (x.cells.isEmpty || !(List.range x.cells.length).all (fun r => x.votes.contains r)) = false := by
    rw [Bool.or_eq_false_iff]
    refine ⟨by simp [some_], ?_⟩
    rw [Bool.not_eq_false', List.all_eq_true]
    exact fun r m => List.contains_iff_mem.2 (votes r (List.mem_range.1 m))
  generalize hx : ({ x with votes := [], tripped := false, replayed := if x.tripped then satAdd 8 x.replayed 1 else x.replayed } :
    Launch) = x'
  have done : s.layerwVerdict l = x.cells.foldl (State.verdictAt x.tripped) (s.setLaunch l x') := by
    rw [State.layerwVerdict, found, ← hx]
    exact if_neg (Bool.eq_false_iff.1 all)
  obtain ⟨each, -, launches⟩ := foldl_each_cell (s := s.setLaunch l x') State.launches id (f := State.verdictAt x.tripped)
    (Q := Cell.Judged s x.tripped) (by rwa [List.map_id]) (fun u c m kept => by
      have same : u.cell c = s.cell c := kept
      obtain ⟨t, off, p, h⟩ := ready c m
      have h' : VoteReady u x.tripped c t off p := h.of_cell same
      obtain ⟨-, others, -, kept⟩ := verdictAt_ready h'
      refine ⟨fun t' off' p' k => ?_, others, kept⟩
      have judged := judged_verdictAt u x.tripped c t' off' p' (k.of_cell same)
      rwa [same] at judged)
  rw [← done] at each launches
  refine ⟨_, onPath_running s _ path, ?_, each⟩
  show tabFind (s.layerwVerdict l).launches l = _
  rw [launches]
  exact tabFind_tabSet_same _ _ _

/-! ## ENGINE_SAFE_POINT_ABANDON -/

theorem Cell.queues_putRow (x : Cell) (p : ArrayPass) (fl : Bool × Bool) (m : Nat) (codes : List Nat) :
    (x.putRow p fl m codes).queues = x.queues := by
  unfold Cell.putRow
  split <;> rfl

theorem RowRun.queues_run (r : RowRun) (key : BitVec 128) (cell : Nat) (g : DWord) (free : Nat) (p : ArrayPass) (fl : Bool × Bool)
    (a b : Nat) : (r.run key cell g free p fl a b).cell.queues = r.cell.queues := by
  refine foldl_related (R := fun r q : RowRun => q.cell.queues = r.cell.queues) (fun _ => rfl) (fun h k => k.trans h) (fun q j => ?_) _ r
  show (q.settle p fl j).cell.queues = q.cell.queues
  unfold RowRun.settle
  split
  · split
    · exact Cell.queues_putRow _ _ _ _ _
    · rfl
  · rfl

/-- Writing rows of a pass touches no engine's queue. -/
theorem Cell.queues_writeRows (x : Cell) (key : BitVec 128) (cell : Nat) (g : DWord) (free : Nat) (p : ArrayPass) (fl : Bool × Bool)
    (rows : Nat) : (x.writeRows key cell g free p fl rows).1.queues = x.queues := by
  have run := RowRun.queues_run (RowRun.start x p rows) key cell g free p fl p.early.length rows
  unfold Cell.writeRows
  generalize (RowRun.start x p rows).run key cell g free p fl p.early.length rows = r at run ⊢
  have finish := foldl_related (R := fun y z : Cell => z.queues = y.queues) (fun _ => rfl) (fun h k => k.trans h)
    (f := fun y (w : Nat × List Nat) => y.putRow p fl w.1 w.2) (fun y w => Cell.queues_putRow y p fl w.1 w.2) r.waiting r.cell
  exact finish.trans run

/-- `u` is `s` with the commands of engine `e` of cell `c` dropped: every other queue of the cell and DRAM stand. -/
structure DropsQueue (s u : State) (c e : Nat) : Prop where
  own : (u.cell c).equeue e = []
  others : ∀ d, d ≠ e → (u.cell c).equeue d = (s.cell c).equeue d
  dram : u.dram = s.dram

/-- A cell with an engine's queue emptied, whatever else of the engine becomes idle. -/
theorem dropsQueue_setCell {s : State} {c e : Nat} {y : Cell} (queues : y.queues = ((s.cell c).setQueueOf e []).queues) :
    DropsQueue s (s.setCell c y) c e := by
  have same : ∀ d, y.equeue d = ((s.cell c).setQueueOf e []).equeue d := fun d => by rw [Cell.equeue, queues, Cell.equeue]
  refine ⟨?_, fun d ne => ?_, rfl⟩
  · rw [State.cell_setCell_same, same, Cell.equeue_setQueueOf_same]
  · rw [State.cell_setCell_same, same, Cell.equeue_setQueueOf_other _ _ _ _ ne]

/-- The array drops its commands, whichever rows of the pass under way are written first (R97). -/
theorem dropsQueue_abandonArray (s : State) (c rows : Nat) : DropsQueue s (s.abandonArray c rows) c 0 := by
  have drops : ∀ y : Cell, y.queues = tabSet (s.cell c).queues 0 [] → DropsQueue s { s.setCell c y with free := s.free + 4 * rows + 96 } c 0 :=
    fun y same => ⟨(dropsQueue_setCell same).own, (dropsQueue_setCell same).others, rfl⟩
  unfold State.abandonArray
  dsimp only
  split
  · exact drops _ (congrArg (tabSet · 0 []) (Cell.queues_writeRows _ _ _ _ _ _ _ _))
  · exact drops _ rfl

theorem DropsQueue.keepQueue {s u : State} {c e : Nat} (h : DropsQueue s u c e) : DropsQueue s (keepQueue s u) c e :=
  ⟨h.own, h.others, h.dram⟩

theorem DropsQueue.settleCell {s u : State} {c e : Nat} (h : DropsQueue s u c e) : DropsQueue s (u.settleCell c) c e := by
  have left : DropsQueue s (u.modCell c (fun y => { y with launch := none })) c e := by
    refine ⟨?_, fun d ne => ?_, h.dram⟩
    · rw [State.cell_modCell_same]; exact h.own
    · rw [State.cell_modCell_same]; exact h.others d ne
  unfold State.settleCell
  split
  · exact h
  · split
    · split
      · exact left
      · exact h
    · exact left

/-- At its safe point an engine of a cell whose launch has ended drops the commands of its queue (R71). -/
theorem exec_engineAbandon {s : State} {c e rows : Nat} (h : OnCell s c) (he : e ≤ 4) (ended : s.cellEnded c = true) :
    ∃ u, exec (.engineSafePointAbandon c e rows) s = .next u ∧ DropsQueue s u c e := by
  refine ⟨_, onCell_running c s (fun z => z.engineAbandon c e rows) h.path h.cell, DropsQueue.keepQueue ?_⟩
  have drops : ∀ (d : Nat) (f : Cell → Cell), (∀ x, (f x).queues = (x.setQueueOf d []).queues) → DropsQueue s (s.modCell c f) c d :=
    fun d f same => dropsQueue_setCell (same _)
  have goes : ¬ (!s.cellEnded c) = true := by simp [ended]
  rcases e with _ | _ | _ | _ | _ | e
  · unfold State.engineAbandon; rw [if_neg goes]; exact DropsQueue.settleCell (dropsQueue_abandonArray s c rows)
  · unfold State.engineAbandon; rw [if_neg goes]; exact DropsQueue.settleCell (drops 1 _ fun _ => rfl)
  · unfold State.engineAbandon; rw [if_neg goes]; exact DropsQueue.settleCell (drops 2 _ fun _ => rfl)
  · unfold State.engineAbandon; rw [if_neg goes]; exact DropsQueue.settleCell (drops 3 _ fun _ => rfl)
  · unfold State.engineAbandon; rw [if_neg goes]; exact DropsQueue.settleCell (drops 4 _ fun _ => rfl)
  · omega

/-- Settles O22: the barrier by what arriving at it leaves, the boundary of one cell and of all by the calendar each loads. -/
theorem layerBoundaries : Obligations.LayerBoundaries := by
  unfold Obligations.LayerBoundaries
  refine ⟨fun s c t w l h rd rs2 => ?_, fun s c t w l h rd => ?_,
    fun s c t site off h layer active drained waits noTrip inside clean valid mark none => ?_,
    fun s l x path found some_ nodup votes ready => exec_layerwVerdict path found some_ nodup votes ready, fun s c e rows h he ended => ?_⟩
  · have done : s.layer c t w = _ := issue_done h (by decide) (by simp [rd, rs2]) rfl
    exact exec_arrives h (fun z => z.layer c t w) _ done
  · have done : s.layerW c t w = _ := issue_done h (by decide) (by simp [rd]) rfl
    exact exec_arrives h (fun z => z.layerW c t w) _ done
  · obtain ⟨u, next, own, dram, others⟩ := exec_layerDrainDone h layer active drained waits noTrip ⟨inside, clean, valid⟩ mark none
    have empty : (s.cell c).ingress = [] := by
      rw [Cell.drained, Bool.and_eq_true] at drained
      exact List.isEmpty_iff.1 drained.2
    refine ⟨u, next, ?_, ?_, ?_, dram, ?_, others⟩
    · rw [own]; exact congrArg Cell.calendar (Cell.loaded_eq _ _)
    · rw [own]; exact congrArg Cell.layerCount (Cell.loaded_eq _ _)
    · rw [own]; rfl
    · rw [own]; exact Cell.loaded_scratch _ empty
  · obtain ⟨u, next, own, others, dram⟩ := exec_engineAbandon (rows := rows) h he ended
    exact ⟨u, next, own, others, dram⟩

end Sys2Proof.Machine

/-! # Taking and placing launches (R52, R247–R254, R280, R282) -/

namespace Sys2Proof.Machine

/-! ## Folds -/

/-- What each step of a fold establishes for its own entry and every step keeps holds of all entries at the end. -/
theorem foldl_establishes {σ α : Type} {P : α → σ → Prop} {f : σ → α → σ} (here : ∀ s a, P a (f s a))
    (keep : ∀ s a b, P a s → P a (f s b)) {l : List α} {a : α} (mem : a ∈ l) (s : σ) : P a (l.foldl f s) := by
  have stays : ∀ (l : List α) (s : σ), P a s → P a (l.foldl f s) := by
    intro l
    induction l with
    | nil => exact fun _ h => h
    | cons b l ih => exact fun s h => ih _ (keep s a b h)
  induction l generalizing s with
  | nil => simp at mem
  | cons b l ih =>
    rcases List.mem_cons.1 mem with rfl | m
    · exact stays l _ (here s a)
    · exact ih m _

/-- A fold whose steps each change one cell leaves every other cell as it was. -/
theorem foldl_other_cells {α : Type} {f : State → α → State} (cellOf : α → Nat)
    (step : ∀ s a d, d ≠ cellOf a → (f s a).cell d = s.cell d) {l : List α} {d : Nat} (out : d ∉ l.map cellOf) (s : State) :
    (l.foldl f s).cell d = s.cell d := by
  induction l generalizing s with
  | nil => rfl
  | cons a l ih =>
    rw [List.map_cons, List.mem_cons, not_or] at out
    exact (ih out.2 _).trans (step s a d out.1)

/-! ## Taking the head command -/

/-- One command taken: its queue moves on, the partition remembers the queue, and the count of taken commands may rise (R272). -/
theorem State.countTaken_eq (s : State) (q : Nat) : s.countTaken q =
    { s with queues := tabSet s.queues q (s.queue q).tookOne, partitions := (s.countTaken q).partitions,
             counters := (s.countTaken q).counters } := by
  unfold State.countTaken
  rw [State.countFull_eq]
  rfl

theorem State.queue_countTaken (s : State) (q : Nat) : (s.countTaken q).queue q = (s.queue q).tookOne := by
  rw [State.countTaken_eq]
  exact tabGet_tabSet_same _ _ _ _

section
variable {s : State} {q k : Nat} {b : List Byte} (h : QueueHead s q k b)
include h

theorem QueueHead.takeable : s.takeable q = true := by
  have next := h.next
  unfold State.isNext at next
  exact (Bool.and_eq_true_iff.1 next).1

theorem QueueHead.active : (s.queue q).status = .active := by
  have takeable := h.takeable
  simp only [State.takeable, State.headReady, Bool.and_eq_true] at takeable
  simpa using takeable.1.1.1.1.1.1.1

/-- A LAUNCH at a head that can be taken now waits for no cells. -/
theorem QueueHead.headWaits : s.headWaits q = false := by
  have takeable := h.takeable
  simp only [State.takeable, State.mayPlace, Bool.and_eq_true, Bool.or_eq_true, Bool.not_eq_true'] at takeable
  rcases takeable.2 with none | ⟨-, fits⟩
  · simp [State.headWaits, none]
  · simp [State.headWaits, Option.isNone_eq_false_iff.2 fits]

/-- A sound head command of a row's kind runs the row. -/
theorem QueueHead.takeHead (f : State → List Byte → State) : s.takeHead q k f = f s b := by
  simp [State.takeHead, h.next, h.slot, h.clean, h.kind, h.sound]

end

/-- A command that ends when it is taken leaves its completion at the end of its queue's list. -/
theorem State.endTaken_eq {s : State} {q : Nat} (active : (s.queue q).status = .active) (b : List Byte) (st d : Nat) : s.endTaken q b st d =
    { s.countTaken q with queues := tabSet s.queues q { (s.queue q).tookOne with
        ready := (s.queue q).ready ++ [.cmd (chLaunchId b) ((s.queue q).taken.toNat % 2 ^ 32) st d (chIrq b) 0] } } := by
  have live : ((s.queue q).tookOne.status == .dying) = false := by simp [Queue.tookOne, active]
  rw [State.endTaken, State.pushReady, State.modQueue, State.queue_countTaken, live, if_neg Bool.false_ne_true, State.setQueue]
  rw [State.countTaken_eq]
  simp only [tabSet_tabSet_same]
  rfl

theorem exec_nop {s : State} {q : Nat} {b : List Byte} (h : QueueHead s q 0 b) :
    ∃ u, exec (.nop q) s = .next u ∧ EndsAs s u q b stOk 0 ∧
      u = { s with queues := u.queues, partitions := u.partitions, dict := u.dict, counters := u.counters } := by
  have done : s.nop q = s.endTaken q b stOk 0 := h.takeHead _
  refine ⟨_, onQueue_running q s (fun z => z.nop q) h.path h.queue, ?_, ?_⟩
  · rw [done, State.endTaken_eq h.active]
    exact tabGet_tabSet_same _ _ _ _
  · rw [done, State.endTaken_eq h.active, State.countTaken_eq]
    rfl

/-! ## Admitting a launch -/

/-- `u` is `s` but for its tables. -/
def TablesOnly (s u : State) : Prop := u = { s with tables := u.tables }

theorem TablesOnly.refl (s : State) : TablesOnly s s := rfl
theorem TablesOnly.trans {s u v : State} (h : TablesOnly s u) (k : TablesOnly u v) : TablesOnly s v := by
  unfold TablesOnly at *; rw [k]; rw [h]

theorem tablesOnly_arriveEpoch (s : State) (handle e : Nat) : TablesOnly s (s.arriveEpoch handle e) :=
  foldl_related (R := TablesOnly) (f := fun acc (p : Nat × TableDesc) => acc.setTable handle p.1 (p.2.arrive e)) .refl .trans
    (fun _ _ => rfl) _ s

/-- An admitted launch has the next number; the epochs of its groups may change tables. -/
theorem State.admitted_eq (s : State) (l : Launch) : s.admitted l =
    { s with launches := tabSet s.launches s.nextLaunch l, nextLaunch := s.nextLaunch + 1, tables := (s.admitted l).tables } := by
  have only : TablesOnly { s.setLaunch s.nextLaunch l with nextLaunch := s.nextLaunch + 1 } (s.admitted l) :=
    foldl_related (f := fun acc (g : Nat × DWord) => acc.arriveEpoch g.1 g.2.toNat) .refl .trans
      (fun z g => tablesOnly_arriveEpoch z g.1 g.2.toNat) l.groups _
  exact only

theorem exec_launch {s : State} {q : Nat} {b : List Byte} {im : Image} {v : Variant} (h : QueueHead s q 1 b)
    (image : tabFind s.images (chImageId b) = some im) (variant : im.variant (2 ^ chFpLog2 b) = some v) :
    ∃ u, exec (.launch q) s = .next u ∧ u.launch? s.nextLaunch = some (s.newLaunch q b im v) ∧ u.nextLaunch = s.nextLaunch + 1 ∧
      u.queue q = (s.queue q).tookOne ∧
      u = { s with
        launches := u.launches, nextLaunch := u.nextLaunch, tables := u.tables, queues := u.queues, partitions := u.partitions, dict := u.dict
        counters := u.counters } := by
  have done : s.launch q = (s.countTaken q).admitted (s.newLaunch q b im v) := by
    rw [State.launch, if_neg (by simp [h.headWaits]), h.takeHead]
    simp only [image, variant]
  have next : (s.countTaken q).nextLaunch = s.nextLaunch := by rw [State.countTaken_eq]
  refine ⟨_, onQueue_running q s (fun z => z.launch q) h.path h.queue, ?_, ?_, ?_, ?_⟩
  · rw [done, State.admitted_eq, next]
    exact tabFind_tabSet_same _ _ _
  · rw [done, State.admitted_eq, next]
    rfl
  · rw [done, State.admitted_eq]
    exact s.queue_countTaken q
  · rw [done, State.admitted_eq, State.countTaken_eq]
    rfl

end Sys2Proof.Machine

/-! # A launch on its cells: placing it and loading resident regions (R51, R52, R251–R254) -/

namespace Sys2Proof.Machine

/-! ## Scratchpad writes of one cell -/

/-- `u` is `s` but for the scratchpad of cell `c`. -/
structure CopiesIn (s u : State) (c : Nat) : Prop where
  rest : u = { s with cells := u.cells }
  own : u.cell c = { s.cell c with scratch := (u.cell c).scratch }
  others : ∀ d, d ≠ c → u.cell d = s.cell d

theorem CopiesIn.refl (s : State) (c : Nat) : CopiesIn s s c := ⟨rfl, rfl, fun _ _ => rfl⟩

theorem CopiesIn.trans {s u v : State} {c : Nat} (h : CopiesIn s u c) (k : CopiesIn u v c) : CopiesIn s v c := by
  refine ⟨?_, ?_, fun d ne => (k.others d ne).trans (h.others d ne)⟩
  · rw [k.rest]; rw [h.rest]
  · rw [k.own]; rw [h.own]

theorem copiesIn_spWrite (s : State) (c off : Nat) (bs : List Byte) (po su : Bool) : CopiesIn s (s.spWrite c off bs po su) c := by
  refine ⟨rfl, ?_, fun d ne => State.cell_modCell_other _ _ _ _ ne⟩
  rw [State.spWrite, State.cell_modCell_same]

theorem copiesIn_landHop (s : State) (l : Launch) (c : Nat) : CopiesIn s (s.landHop l c) c :=
  foldl_related (R := fun s u => CopiesIn s u c)
    (f := fun acc i => acc.spWrite c (0x200 + 64 * i) (((l.hop.drop 320).drop (64 * i)).take 64) (l.hopPoison.contains (i + 5)) false)
    (fun s => .refl s c) .trans (fun _ _ => copiesIn_spWrite _ _ _ _ _ _) _ s

theorem copiesIn_copyIn (s : State) (ctx va c off n : Nat) : CopiesIn s (s.copyIn ctx va c off n) c := by
  unfold State.copyIn
  refine foldl_related (R := fun s u => CopiesIn s u c) (fun s => .refl s c) .trans (fun z i => ?_) _ s
  split
  · exact copiesIn_spWrite _ _ _ _ _ _
  · exact .refl _ _

/-! ## Placing a launch -/

/-- A cell as the launch that was put on it finds it (R51, R252). -/
structure Cell.Starts (y : Cell) (lid : Nat) (l : Launch) (rank : Nat) (hold : Bool) : Prop where
  launch : y.launch = some lid
  rank : y.rank = rank
  calendar : y.calendar = bootCalendar
  pc : (y.thread 0).pc = BitVec.ofNat 32 l.variant.entry
  status : (y.thread 0).status = if hold then .idle else .running

theorem Cell.starts_atLaunch (x : Cell) (lid : Nat) (l : Launch) (rank k : Nat) (keep load hold : Bool) :
    (x.atLaunch lid l rank k keep load hold).Starts lid l rank hold := ⟨rfl, rfl, rfl, rfl, rfl⟩

theorem Cell.Starts.of_scratch {x y : Cell} {lid : Nat} {l : Launch} {rank : Nat} {hold : Bool} (h : x.Starts lid l rank hold)
    (same : y = { x with scratch := y.scratch }) : y.Starts lid l rank hold := by
  rw [same]
  exact ⟨h.launch, h.rank, h.calendar, h.pc, h.status⟩

/-- One rank put on its cell: that cell is as at launch start, every other cell and DRAM stand. -/
theorem placeRank_starts (s : State) (lid : Nat) (l : Launch) (hold : Bool) (rc : Nat × Nat) :
    ((s.placeRank lid l hold rc).cell rc.2).Starts lid l rc.1 hold ∧
      (∀ d, d ≠ rc.2 → (s.placeRank lid l hold rc).cell d = s.cell d) ∧ (s.placeRank lid l hold rc).dram = s.dram := by
  have cells : (s.placeRank lid l hold rc).cells =
      tabSet s.cells rc.2 ((s.cell rc.2).atLaunch lid l rc.1 s.free (s.resides l rc) (s.mustLoad l rc) hold) := by
    unfold State.placeRank
    dsimp only
    split
    · rw [State.bump_cells]; rfl
    · rfl
  refine ⟨?_, fun d ne => ?_, ?_⟩
  · rw [State.cell, cells, tabGet_tabSet_same]
    exact Cell.starts_atLaunch _ _ _ _ _ _ _ _
  · rw [State.cell, cells, tabGet_tabSet_other _ _ _ _ _ ne, State.cell]
  · unfold State.placeRank
    dsimp only
    split
    · rw [State.bump_dram]; rfl
    · rfl

/-- The ranks whose resident regions have yet to be loaded on their cells (R252). -/
def State.ranksToLoad (s : State) (l : Launch) (cells : List Nat) : List Nat :=
  (((List.range cells.length).zip cells).filter (s.mustLoad l)).map (fun rc => rc.1)

/-- What placing a launch on its cells leaves (R251, R252). -/
structure Placed (s u : State) (lid : Nat) (l : Launch) (cells : List Nat) : Prop where
  launch : u.launch? lid =
    some { l with phase := .running, cells := cells, startTime := s.time, order := s.nextOrder, loadsLeft := s.ranksToLoad l cells }
  dram : u.dram = s.dram
  starts : ∀ r c, cells[r]? = some c → (u.cell c).Starts lid l r (!(s.ranksToLoad l cells).isEmpty)
  others : ∀ d, d ∉ cells → d ≠ cells.headD 0 → u.cell d = s.cell d

theorem placeOn_placed (s : State) (lid : Nat) (l : Launch) {cells : List Nat} (nodup : cells.Nodup) :
    Placed s (s.placeOn lid l cells) lid l cells := by
  have names : ((List.range cells.length).zip cells).map Prod.snd = cells := List.map_snd_zip (by simp)
  obtain ⟨each, others, dram⟩ := foldl_each_cell (s := s) State.dram Prod.snd
    (f := fun acc rc => acc.placeRank lid l (!(s.ranksToLoad l cells).isEmpty) rc)
    (Q := fun rc y => y.Starts lid l rc.1 (!(s.ranksToLoad l cells).isEmpty)) (items := (List.range cells.length).zip cells)
    (by rwa [names]) (fun u rc _ _ => placeRank_starts u lid l _ rc)
  rw [names] at others
  generalize hz : ((List.range cells.length).zip cells).foldl
    (fun acc rc => acc.placeRank lid l (!(s.ranksToLoad l cells).isEmpty) rc) s = z at each others dram
  have hop := copiesIn_landHop z l (cells.headD 0)
  have done : s.placeOn lid l cells = (z.landHop l (cells.headD 0)).setLaunch lid
      { l with phase := .running, cells := cells, startTime := s.time, order := s.nextOrder, loadsLeft := s.ranksToLoad l cells } := by
    rw [← hz]; rfl
  rw [done]
  refine ⟨tabFind_tabSet_same _ _ _, ?_, fun r c at_ => ?_, fun d out ne => ?_⟩
  · exact (congrArg State.dram hop.rest).trans dram
  · obtain ⟨lt, rfl⟩ := List.getElem?_eq_some_iff.1 at_
    have start := each (r, cells[r]) (List.mem_iff_getElem?.2 ⟨r, by simp [lt]⟩)
    show ((z.landHop l (cells.headD 0)).cell cells[r]).Starts lid l r _
    by_cases is : cells[r] = cells.headD 0
    · rw [is] at start ⊢; exact start.of_scratch hop.own
    · rw [hop.others _ is]; exact start
  · exact (hop.others d ne).trans (others d out)

theorem exec_launchPlace {s : State} {lid : Nat} {l : Launch} {cells : List Nat} (path : s.running = true) (found : s.launch? lid = some l)
    (taken : l.phase = .taken) (fits : s.everFits l.queue l.variant.footprint = true) (first : s.outranked l.partition l.priority = false)
    (chosen : s.choosePlacement l.queue l.image l.variant.footprint (s.freeCells l.queue) = some cells) (nodup : cells.Nodup) :
    ∃ u, exec (.launchPlace lid) s = .next u ∧ u.nextOrder = s.nextOrder + 1 ∧ Placed s u lid l cells := by
  have placed := placeOn_placed s lid l nodup
  have done : ∃ w k k' d,
      w = ({ s.placeOn lid l cells with nextOrder := s.nextOrder + 1 }).modQueue l.queue (fun q => { q with preempting := false }) ∧
      s.launchPlace lid = (((w.countFull k 1).countFull k' 1).traceLaunch 1 l d) := by
    refine ⟨_, 0x20000 + 0x400 * (s.part l.partition).leadComb + 8 * 25, 0x43000 + 0x100 * l.partition,
      bytesLE 2 l.queue ++ bytesLE 1 l.variant.footprint ++ bytesLE 1 (cells.headD 0), rfl, ?_⟩
    rw [State.launchPlace, found]
    simp only [taken, fits, first, chosen]
    rfl
  obtain ⟨w, k, k', d, hw, done⟩ := done
  have only : TraceOnly w (s.launchPlace lid) := done ▸ (((TraceOnly.refl w).countFull k 1).countFull k' 1).traceLaunch 1 l d
  refine ⟨_, onPath_running s _ path, ?_, ?_, ?_, fun r c at_ => ?_, fun e out ne => ?_⟩
  · show (s.launchPlace lid).nextOrder = _
    rw [only.nextOrder, hw]; rfl
  · show tabFind (s.launchPlace lid).launches lid = _
    rw [only.launches, hw]; exact placed.launch
  · show (s.launchPlace lid).dram = _
    rw [only.dram, hw]; exact placed.dram
  · rw [State.cell_keepQueue, only.cell, hw]; exact placed.starts r c at_
  · rw [State.cell_keepQueue, only.cell, hw]; exact placed.others e out ne

/-! ## Loading a resident region -/

/-- `u` is `s` but for its TLBs. -/
def TlbsOnly (s u : State) : Prop := u = { s with tlbs := u.tlbs }

theorem TlbsOnly.refl (s : State) : TlbsOnly s s := rfl
theorem TlbsOnly.trans {s u v : State} (h : TlbsOnly s u) (k : TlbsOnly u v) : TlbsOnly s v := by
  unfold TlbsOnly at *; rw [k]; rw [h]

theorem TlbsOnly.cell {s u : State} (h : TlbsOnly s u) (c : Nat) : u.cell c = s.cell c :=
  Eq.trans (congrArg (State.cell · c) (show u = _ from h)) rfl
theorem TlbsOnly.dram {s u : State} (h : TlbsOnly s u) : u.dram = s.dram := Eq.trans (congrArg State.dram (show u = _ from h)) rfl

theorem tlbsOnly_touchSpan (s : State) (k ctx va n : Nat) : TlbsOnly s (s.touchSpan k ctx va n) :=
  foldl_related (f := fun acc p => acc.tlbTouch k ctx (pagePart va n p).1) .refl .trans (fun z p => z.tlbTouch_eq k ctx (pagePart va n p).1) _ s

/-- `u` is `s` but for its cells, which keep their residency tags. -/
structure KeepsTags (s u : State) : Prop where
  rest : u = { s with cells := u.cells }
  residency : ∀ d, (u.cell d).residency = (s.cell d).residency

theorem keepsTags_startThreads (s : State) (l : Launch) : KeepsTags s (s.startThreads l) := by
  refine foldl_related (R := KeepsTags) (fun _ => ⟨rfl, fun _ => rfl⟩)
    (fun h k => ⟨by rw [k.rest]; rw [h.rest], fun d => (k.residency d).trans (h.residency d)⟩) (fun z c => ⟨rfl, fun d => ?_⟩) _ s
  by_cases is : d = c
  · rw [is, State.cell_modThread]; rfl
  · rw [State.cell_modThread_other _ _ _ _ _ is]

/-- Thread 0 of every cell of a launch runs once they are started. -/
theorem startThreads_running (s : State) {l : Launch} {d : Nat} (mem : d ∈ l.cells) : ((s.startThreads l).thread d 0).status = .running := by
  refine foldl_establishes (P := fun d z => (z.thread d 0).status = .running) (fun z c => ?_) (fun z c b running => ?_) mem s
  · rw [State.thread_modThread_same]
  · by_cases is : c = b
    · rw [is, State.thread_modThread_same]
    · rw [State.thread, State.cell_modThread_other _ _ _ _ _ is]; exact running

theorem startThreads_other (s : State) {l : Launch} {d : Nat} (out : d ∉ l.cells) : (s.startThreads l).cell d = s.cell d :=
  foldl_other_cells id (fun _ _ _ ne => State.cell_modThread_other _ _ _ _ _ ne) (by rwa [List.map_id]) s

/-- Cell `c` with the tag of its resident region set; where none is left to load, the threads of its launch start (R252). -/
def State.tagged (s : State) (c : Nat) (tag : ResTag) (l : Launch) (left : List Nat) : State :=
  let s2 := s.modCell c (fun y => { y with residency := some tag })
  if left.isEmpty then s2.startThreads l else s2

theorem tagged_rest (s : State) (c : Nat) (tag : ResTag) (l : Launch) (left : List Nat) :
    s.tagged c tag l left = { s with cells := (s.tagged c tag l left).cells } := by
  unfold State.tagged
  dsimp only
  split
  · exact (keepsTags_startThreads _ l).rest
  · rfl

theorem residency_tagged (s : State) (c : Nat) (tag : ResTag) (l : Launch) (left : List Nat) :
    ((s.tagged c tag l left).cell c).residency = some tag := by
  unfold State.tagged
  dsimp only
  split
  · rw [(keepsTags_startThreads _ l).residency, State.cell_modCell_same]
  · rw [State.cell_modCell_same]

theorem cell_tagged_other (s : State) {c d : Nat} {tag : ResTag} {l : Launch} {left : List Nat} (ne : d ≠ c) (out : left ≠ [] ∨ d ∉ l.cells) :
    (s.tagged c tag l left).cell d = s.cell d := by
  unfold State.tagged
  dsimp only
  split
  · next none =>
    rw [startThreads_other _ (out.resolve_left fun h => h (List.isEmpty_iff.1 none)), State.cell_modCell_other _ _ _ _ ne]
  · exact State.cell_modCell_other _ _ _ _ ne

theorem exec_residentLoadDone {s : State} {c lid : Nat} {l : Launch} (on : OnCell s c) (active : s.activeLaunch c = some (lid, l))
    (loads : (s.cell c).rank ∈ l.loadsLeft) {left : List Nat} (hleft : left = l.loadsLeft.filter (· != (s.cell c).rank))
    (read : ∃ b po su, s.tread (tlbOf (.resident c)) (match tabFind s.images l.image with | some im => im.context | none => l.context) .read
      (l.imageBase + (l.variant.resident (s.cell c).rank).dataOff) (l.variant.resident (s.cell c).rank).spLen = .ok b po su) :
    ∃ u, exec (.residentLoadDone c) s = .next u ∧ (u.cell c).residency = some (l.tag (s.cell c).rank) ∧
      u.launch? lid = some { l with loadsLeft := left } ∧ u.dram = s.dram ∧
      (left = [] → ∀ d ∈ l.cells, (u.thread d 0).status = .running) ∧ (left ≠ [] → ∀ d, d ≠ c → u.cell d = s.cell d) ∧
      ∀ d, d ≠ c → d ∉ l.cells → u.cell d = s.cell d := by
  obtain ⟨b, po, su, read⟩ := read
  obtain ⟨t, touched, z, copied, done⟩ : ∃ t, TlbsOnly s t ∧ ∃ z, CopiesIn t z c ∧
      s.residentLoadDone c = (((z.tagged c (l.tag (s.cell c).rank) l left).setLaunch lid { l with loadsLeft := left }).bump 0x6027 0 1).countFull
          (0x20000 + 0x400 * combOf c + 8 * 27) 1 := by
    obtain ⟨ctx, done⟩ : ∃ ctx, s.residentLoadDone c = ((((((s.touchSpan (tlbOf (.resident c)) ctx
        (l.imageBase + (l.variant.resident (s.cell c).rank).dataOff) (l.variant.resident (s.cell c).rank).spLen).copyIn ctx
        (l.imageBase + (l.variant.resident (s.cell c).rank).dataOff) c (l.variant.resident (s.cell c).rank).spOff
        (l.variant.resident (s.cell c).rank).spLen).tagged c (l.tag (s.cell c).rank) l left).setLaunch lid { l with loadsLeft := left }).bump
        0x6027 0 1).countFull (0x20000 + 0x400 * combOf c + 8 * 27) 1) := by
      rw [State.residentLoadDone, active, hleft]
      cases image : tabFind s.images l.image <;>
        simp only [image] at read <;>
        simp only [List.contains_iff_mem.2 loads, Bool.not_true, Bool.false_eq_true, if_false, image, read] <;>
        exact ⟨_, rfl⟩
    exact ⟨_, tlbsOnly_touchSpan _ _ _ _ _, _, copiesIn_copyIn _ _ _ c _ _, done⟩
  have cells : ∀ d, (s.residentLoadDone c).cell d = (z.tagged c (l.tag (s.cell c).rank) l left).cell d := by
    intro d
    rw [done, State.cell_countFull, State.cell_bump]; rfl
  have others : ∀ d, d ≠ c → left ≠ [] ∨ d ∉ l.cells → (s.residentLoadDone c).cell d = s.cell d := fun d ne out => by
    rw [cells, cell_tagged_other _ ne out, copied.others d ne, touched.cell]
  refine ⟨_, onCell_running c s _ on.path on.cell, ?_, ?_, ?_, fun none d mem => ?_, fun more d ne => ?_, fun d ne out => ?_⟩
  · rw [State.cell_keepQueue, cells, residency_tagged]
  · show tabFind (s.residentLoadDone c).launches lid = _
    rw [done, State.countFull_launches, State.bump_launches]
    exact tabFind_tabSet_same _ _ _
  · show (s.residentLoadDone c).dram = _
    rw [done, State.countFull_dram, State.bump_dram]
    show (z.tagged c (l.tag (s.cell c).rank) l left).dram = _
    rw [tagged_rest]
    exact (congrArg State.dram copied.rest).trans touched.dram
  · rw [State.thread_keepQueue, State.thread, cells, State.tagged, none]
    exact startThreads_running _ mem
  · exact others d ne (.inl more)
  · exact others d ne (.inr out)

end Sys2Proof.Machine

/-! # Pre-empting, saving and resuming launches (R260–R266) -/

namespace Sys2Proof.Machine

/-! ## Marks -/

/-- The mark sent to each of a list of cells (R261). -/
def State.markCells (z : State) (cells : List Nat) : State := cells.foldl (fun acc c => acc.modCell c (fun x => { x with mark := .marked })) z

theorem State.markCells_eq (z : State) (cells : List Nat) : z.markCells cells = { z with cells := (z.markCells cells).cells } :=
  foldl_related (R := fun s u : State => u = { s with cells := u.cells }) (fun _ => rfl) (fun h k => by rw [k]; rw [h])
    (f := fun acc c => acc.modCell c (fun x => { x with mark := .marked })) (fun _ _ => rfl) cells z

/-- The cells that are sent the mark bear it, and so does every cell that bore it before. -/
theorem marked_markCells (z : State) {cells : List Nat} {c : Nat} (h : c ∈ cells ∨ (z.cell c).mark = .marked) :
    ((z.markCells cells).cell c).mark = .marked := by
  have own : ∀ (y : State) (b : Nat), ((y.modCell b (fun x => { x with mark := .marked })).cell b).mark = .marked := fun y b => by
    rw [State.cell_modCell_same]
  have keep : ∀ (y : State) (c b : Nat), (y.cell c).mark = .marked →
      ((y.modCell b (fun x => { x with mark := .marked })).cell c).mark = .marked := by
    intro y c b was
    by_cases is : c = b
    · rw [is]; exact own y b
    · rw [State.cell_modCell_other _ _ _ _ is]; exact was
  rcases h with mem | was
  · exact foldl_establishes (P := fun c z => (z.cell c).mark = .marked) own (fun y a b => keep y a b) mem z
  · exact foldl_related (R := fun s u : State => (s.cell c).mark = .marked → (u.cell c).mark = .marked) (fun _ h => h) (fun h k m => k (h m))
      (fun y b => keep y c b) cells z was

/-- A victim marked: its cells get the mark, and its record says so and names no target yet. -/
theorem State.mark_eq (z : State) (v : Nat × Launch) : ∃ x : Launch, x.phase = .marked ∧ x.target = none ∧
    z.mark v = (z.markCells v.2.cells).setLaunch v.1 x := ⟨_, rfl, rfl, rfl⟩

/-- Victim `v` is marked: its record, which names no target yet, and every cell of it. -/
def Marked (v : Nat × Launch) (z : State) : Prop :=
  (∃ x, z.launch? v.1 = some x ∧ x.phase = .marked ∧ x.target = none) ∧ ∀ c ∈ v.2.cells, (z.cell c).mark = .marked

theorem marked_mark (z : State) (v : Nat × Launch) : Marked v (z.mark v) := by
  obtain ⟨x, phase, target, done⟩ := z.mark_eq v
  rw [done]
  exact ⟨⟨x, tabFind_tabSet_same _ _ _, phase, target⟩, fun c m => marked_markCells z (.inl m)⟩

/-- Marking a victim, be it the same one again, leaves a marked one marked. -/
theorem Marked.mark {z : State} {v : Nat × Launch} (h : Marked v z) (w : Nat × Launch) : Marked v (z.mark w) := by
  obtain ⟨⟨x, found, was⟩, cells⟩ := h
  obtain ⟨y, phase, target, done⟩ := z.mark_eq w
  rw [done]
  refine ⟨?_, fun c m => marked_markCells z (.inr (cells c m))⟩
  by_cases is : v.1 = w.1
  · rw [is]; exact ⟨y, tabFind_tabSet_same _ _ _, phase, target⟩
  · refine ⟨x, (tabFind_tabSet_other _ _ _ _ is).trans ?_, was⟩
    rw [State.markCells_eq]
    exact found

theorem marked_victims {vs : List (Nat × Launch)} {v : Nat × Launch} (mem : v ∈ vs) (z : State) : Marked v (vs.foldl State.mark z) :=
  foldl_establishes (P := Marked) marked_mark (fun _ _ w h => h.mark w) mem z

theorem marks_rest (vs : List (Nat × Launch)) (z : State) :
    (vs.foldl State.mark z).queues = z.queues ∧ (vs.foldl State.mark z).dram = z.dram := by
  refine foldl_related (R := fun s u : State => u.queues = s.queues ∧ u.dram = s.dram) (fun _ => ⟨rfl, rfl⟩)
    (fun h k => ⟨k.1.trans h.1, k.2.trans h.2⟩) (fun y v => ?_) vs z
  obtain ⟨x, -, -, done⟩ := y.mark_eq v
  rw [done, State.markCells_eq]
  exact ⟨rfl, rfl⟩

theorem exec_preemptWaitExpiry {s : State} {q im f : Nat} {vs : List (Nat × Launch)} (path : s.running = true) (hq : q < 1024)
    (waits : s.waitingFor q = some (im, f)) (idle : ((s.queue q).preempting && s.preempts (s.queuePart q)) = false)
    (found : (s.victimPrefix q im f (s.freeCells q) []
      ((s.candidates q).filter (fun l => (s.freeRun l.2.context (saveBytes l.2.variant) []).isSome))).1 = some vs) :
    ∃ u, exec (.preemptWaitExpiry q) s = .next u ∧ u.queue q = { s.queue q with preempting := !vs.isEmpty } ∧ u.dram = s.dram ∧
      ∀ v ∈ vs, Marked v u := by
  obtain ⟨n, done⟩ : ∃ n, s.preemptWaitExpiry q =
      vs.foldl State.mark ((s.bump 0x6025 0 n).modQueue q (fun y => { y with preempting := !vs.isEmpty })) := by
    rw [State.preemptWaitExpiry, waits]
    simp only [idle, Bool.false_eq_true, if_false, found]
    exact ⟨_, rfl⟩
  have rest := marks_rest vs ((s.bump 0x6025 0 n).modQueue q (fun y => { y with preempting := !vs.isEmpty }))
  rw [← done] at rest
  refine ⟨_, onQueue_running q s (fun z => z.preemptWaitExpiry q) path hq, ?_, ?_, fun v mem => ?_⟩
  · show tabGet _ (s.preemptWaitExpiry q).queues q = _
    rw [rest.1]
    refine (tabGet_tabSet_same _ _ _ _).trans ?_
    rw [State.queue, State.bump_queues, State.queue]
  · exact rest.2.trans (s.bump_dram _ _ _)
  · have marked := marked_victims mem ((s.bump 0x6025 0 n).modQueue q (fun y => { y with preempting := !vs.isEmpty }))
    rw [← done] at marked
    exact marked

theorem exec_preemptMarkReply {s : State} {lid : Nat} {l : Launch} (path : s.running = true) (found : s.launch? lid = some l)
    (phase : l.phase = .marked) (open_ : l.target = none) (nodup : l.cells.Nodup) {n : Nat}
    (hn : n = (highestCount (l.reports.map (fun r => r.2)) + 1) % 16384) :
    ∃ u, exec (.preemptMarkReply lid) s = .next u ∧
      u = { s with launches := tabSet s.launches lid { l with target := some n }, cells := u.cells } ∧
      (∀ c ∈ l.cells, u.cell c = (s.cell c).learnTarget n) ∧ ∀ c, c ∉ l.cells → u.cell c = s.cell c := by
  have done : s.preemptMarkReply lid =
      l.cells.foldl (fun acc c => acc.modCell c (fun x => x.learnTarget n)) (s.setLaunch lid { l with target := some n }) := by
    rw [State.preemptMarkReply, found, hn]
    simp only [phase, open_]
    rfl
  obtain ⟨each, others, rest⟩ := foldl_each_cell (s := s.setLaunch lid { l with target := some n }) (fun z => { z with cells := [] }) id
    (f := fun acc c => acc.modCell c (fun x => x.learnTarget n)) (Q := fun c y => y = (s.cell c).learnTarget n) (items := l.cells)
    (by rwa [List.map_id]) (fun u c _ same => by
      refine ⟨?_, fun d ne => State.cell_modCell_other _ _ _ _ ne, rfl⟩
      rw [id, State.cell_modCell_same]
      exact congrArg (Cell.learnTarget · n) same)
  rw [List.map_id] at others
  rw [← done] at each others rest
  refine ⟨_, onPath_running s _ path, ?_, each, others⟩
  have whole := congrArg (fun z : State => { z with cells := (s.preemptMarkReply lid).cells }) rest
  have same : s.preemptMarkReply lid = { s.setLaunch lid { l with target := some n } with cells := (s.preemptMarkReply lid).cells } := whole
  rw [same]
  rfl

/-! ## Writing memory of a context -/

/-- `u` is `s` but for DRAM, what the controllers note of its errors, and the counts of them (R42–R44). -/
def MemOnly (s u : State) : Prop :=
  u = { s with dram := u.dram, damage := u.damage, fixups := u.fixups, struck := u.struck, memLog := u.memLog, channels := u.channels,
               dict := u.dict, counters := u.counters }

theorem MemOnly.refl (s : State) : MemOnly s s := rfl
theorem MemOnly.trans {s u v : State} (h : MemOnly s u) (k : MemOnly u v) : MemOnly s v := by
  unfold MemOnly at *; rw [k]; rw [h]
theorem MemOnly.cell {s u : State} (h : MemOnly s u) (c : Nat) : u.cell c = s.cell c :=
  Eq.trans (congrArg (State.cell · c) (show u = _ from h)) rfl
theorem MemOnly.tables {s u : State} (h : MemOnly s u) : u.tables = s.tables := Eq.trans (congrArg State.tables (show u = _ from h)) rfl

theorem memOnly_bump (s : State) (i j n : Nat) : MemOnly s (s.bump i j n) := by unfold MemOnly; rw [State.bump_eq]
theorem memOnly_countChannel (s : State) (u i n : Nat) : MemOnly s (s.countChannel u i n) := by
  unfold MemOnly State.countChannel; rw [State.countFull_eq]

theorem memOnly_countMerge (s : State) (g : Nat) : MemOnly s (s.countMerge g) :=
  (memOnly_bump s _ _ _).trans (memOnly_countChannel _ _ _ _)

theorem memOnly_addressError (s : State) (u : Nat) : MemOnly s (s.addressError u) :=
  (show MemOnly s (s.setChannel u _) from rfl).trans ((memOnly_bump _ _ _ _).trans (memOnly_countChannel _ _ _ _))

theorem memOnly_noteCorrected (s : State) (u p : Nat) : MemOnly s (s.noteCorrected u p) :=
  (show MemOnly s (s.noteMem _) from rfl).trans ((memOnly_bump _ _ _ _).trans (memOnly_countChannel _ _ _ _))

theorem memOnly_mergeAs (s : State) (g : Nat) (errs : List (Nat × Nat)) : MemOnly s (s.mergeAs g errs) := by
  have decoded : ∀ (b : Bool) (m : Memory), MemOnly s (if b then s else { s with dram := m }) := fun b m => by cases b <;> rfl
  have marked : ∀ z, MemOnly s z → MemOnly s (State.countMerge { z with dram := z.dram.setPoison g true } g) := fun z h =>
    (h.trans (show MemOnly z { z with dram := z.dram.setPoison g true } from rfl)).trans (memOnly_countMerge _ _)
  unfold State.mergeAs
  dsimp only
  split
  · exact decoded _ _
  · exact (decoded _ _).trans (memOnly_noteCorrected _ _ _)
  · exact marked _ (decoded _ _)
  · exact marked _ ((decoded _ _).trans ((show MemOnly _ (State.noteMem _ _) from rfl).trans (memOnly_addressError _ _)))
  · exact marked _ ((decoded _ _).trans (show MemOnly _ (State.noteMem _ _) from rfl))

theorem memOnly_mergeRead (s : State) (g : Nat) (errs again : List (Nat × Nat)) : MemOnly s (s.mergeRead g errs again) := by
  unfold State.mergeRead
  split
  · exact ((show MemOnly s (s.noteMem _) from rfl).trans (memOnly_addressError _ _)).trans (memOnly_mergeAs _ _ _)
  · exact memOnly_mergeAs s g errs

theorem memOnly_dramWrite (s : State) (pa : Nat) (bs : List Byte) (po : Bool) : MemOnly s (s.dramWrite pa bs po) :=
  (foldl_related (R := MemOnly) .refl .trans (f := fun acc g => acc.mergeRead g (acc.storedErrs g) (acc.storedErrs g))
    (fun _ _ => memOnly_mergeRead _ _ _ _) (partGranules pa bs.length) s).trans rfl

theorem memOnly_vwrite (s : State) (ctx va : Nat) (bs : List Byte) (po : Bool) : MemOnly s (s.vwrite ctx va bs po) := by
  unfold State.vwrite
  refine foldl_related .refl .trans (fun z p => ?_) _ s
  dsimp only
  split
  · exact memOnly_dramWrite _ _ _ _
  · exact .refl z

end Sys2Proof.Machine

/-! # Saves (R262–R266) -/

namespace Sys2Proof.Machine

/-! ## The pages of a save -/

/-- Page `p` of a span of launch `lid` has been translated, or is page `p0`, which the TLB holds and whose memory can be reached: one
page of `PagesWalked`. -/
def Reached (s : State) (lid : Nat) (l : Launch) (at_ : Nat → Nat) (ctx : Nat) (a : Access) (va p0 p : Nat) : Prop :=
  (combOf (at_ (max va p)), p) ∈ l.walked ∨
    (p = p0 ∧ ∃ pa, s.xlate (tlbOf (.save lid (at_ (max va p)))) ctx (max va p) a = .hit pa ∧ s.populated pa = true ∧ s.stackOpen pa = true)

/-- `z` is `s` after launch `lid`, which is `l` there, has translated pages that were `Reached`: what could be reached still can. -/
structure Walked (s z : State) (lid : Nat) (l : Launch) (p0 : Nat) : Prop where
  rest : z = { s with tlbs := z.tlbs, launches := z.launches }
  launch : ∃ w, z.launch? lid = some { l with walked := w } ∧
    ∀ at_ ctx a va p, Reached s lid l at_ ctx a va p0 p → Reached z lid { l with walked := w } at_ ctx a va p0 p

theorem Walked.refl {s : State} {lid : Nat} {l : Launch} (found : s.launch? lid = some l) (p0 : Nat) : Walked s s lid l p0 :=
  ⟨rfl, l.walked, found, fun _ _ _ _ _ h => h⟩

theorem tlbStream_zero_ne {k j : Nat} (ne : k ≠ j) : tlbStream k 0 ≠ tlbStream j 0 := by unfold tlbStream; omega

/-- Page `p0` taken from the TLB of comb `k` is translated for that comb, and every other comb's TLB stands. -/
theorem walked_touch {s : State} {lid : Nat} {l : Launch} (found : s.launch? lid = some l) (k ctx va p0 : Nat) :
    Walked s ((s.tlbTouch (tlbStream k 0) ctx va).modLaunch lid (fun l => { l with walked := (k, p0) :: l.walked })) lid l p0 := by
  have done : (s.tlbTouch (tlbStream k 0) ctx va).modLaunch lid (fun l => { l with walked := (k, p0) :: l.walked }) =
      (s.tlbTouch (tlbStream k 0) ctx va).setLaunch lid { l with walked := (k, p0) :: l.walked } := by
    have found' : (s.tlbTouch (tlbStream k 0) ctx va).launch? lid = some l := by rw [State.tlbTouch_eq]; exact found
    rw [State.modLaunch, found']
  rw [done]
  refine ⟨?_, (k, p0) :: l.walked, tabFind_tabSet_same _ _ _, fun at_ ctx' a va' p reached => ?_⟩
  · rw [State.tlbTouch_eq]; rfl
  · rcases reached with walked | ⟨rfl, pa, hit, populated, open_⟩
    · exact .inl (List.mem_cons_of_mem _ walked)
    · by_cases is : combOf (at_ (max va' p)) = k
      · exact .inl (by rw [is]; exact List.mem_cons_self)
      · refine .inr ⟨rfl, pa, ?_, ?_, ?_⟩
        · have tlb : tabGet [] (s.tlbTouch (tlbStream k 0) ctx va).tlbs (tlbStream (combOf (at_ (max va' p))) 0) =
              tabGet [] s.tlbs (tlbStream (combOf (at_ (max va' p))) 0) := by
            unfold State.tlbTouch
            dsimp only
            split
            · exact tabGet_tabSet_other _ _ _ _ _ (tlbStream_zero_ne is)
            · rfl
          rw [← hit]
          simp only [State.xlate, State.tlbHit, tlbOf]
          rw [show ((s.tlbTouch (tlbStream k 0) ctx va).setLaunch lid { l with walked := (k, p) :: l.walked }).tlbs =
            (s.tlbTouch (tlbStream k 0) ctx va).tlbs from rfl, tlb]
        · rw [← populated, State.tlbTouch_eq]; rfl
        · rw [← open_, State.tlbTouch_eq]; rfl

theorem Walked.trans {s u v : State} {lid : Nat} {l : Launch} {p0 : Nat} (h : Walked s u lid l p0)
    (k : ∀ l', u.launch? lid = some l' → Walked u v lid l' p0) : Walked s v lid l p0 := by
  obtain ⟨rest, w, found, keeps⟩ := h
  obtain ⟨rest', w', found', keeps'⟩ := k _ found
  exact ⟨by rw [rest']; rw [rest], w', found', fun at_ ctx a va p r => keeps' _ _ _ _ _ (keeps _ _ _ _ _ r)⟩

/-- A save or restore whose pages can all be reached runs on. -/
theorem throughPages_runs {lid : Nat} {at_ : Nat → Nat} {ctx : Nat} {a : Access} {va p0 : Nat} (f : State → State) {pages : List Nat} :
    ∀ {s : State} {l : Launch}, s.launch? lid = some l → (∀ p ∈ pages, Reached s lid l at_ ctx a va p0 p) →
      ∃ z, s.throughPages lid at_ ctx a va f pages = f z ∧ Walked s z lid l p0 := by
  induction pages with
  | nil => exact fun {s l} found _ => ⟨s, rfl, .refl found p0⟩
  | cons p rest ih =>
    intro s l found reached
    have rest_ : ∀ q ∈ rest, Reached s lid l at_ ctx a va p0 q := fun q m => reached q (List.mem_cons_of_mem p m)
    by_cases done : l.walked.contains (combOf (at_ (max va p)), p) = true
    · rw [State.throughPages]
      simp only [found, done, if_true]
      exact ih found rest_
    · obtain ⟨rfl, pa, hit, populated, open_⟩ := (reached p List.mem_cons_self).resolve_left fun m => done (List.contains_iff_mem.2 m)
      have step := walked_touch found (combOf (at_ (max va p))) ctx (max va p) p
      obtain ⟨-, w, found', keeps⟩ := id step
      obtain ⟨z, runs, walked⟩ := ih found' fun q m => keeps _ _ _ _ _ (rest_ q m)
      refine ⟨z, ?_, step.trans fun l' is => ?_⟩
      · rw [State.throughPages]
        simp only [found, done, hit, populated, open_, Bool.not_true, Bool.false_eq_true, if_false]
        exact runs
      · rw [found', Option.some.injEq] at is
        rw [← is]
        exact walked

theorem withPages_runs {s : State} {lid : Nat} {l : Launch} (found : s.launch? lid = some l) {at_ : Nat → Nat} {ctx : Nat} {a : Access}
    {va n p0 : Nat} (h : PagesWalked s lid l at_ ctx a va n p0) (f : State → State) :
    ∃ z, s.withPages lid at_ ctx a va n f = f z ∧ Walked s z lid l p0 := throughPages_runs f found h

theorem Walked.cell {s z : State} {lid : Nat} {l : Launch} {p0 : Nat} (h : Walked s z lid l p0) (c : Nat) : z.cell c = s.cell c := by
  rw [h.rest]; rfl

/-! ## SAVE_START -/

/-- `u` is `s` as far as a save of records leaves it: cells may only have lost residency tags, and the tables stand. -/
structure SavesCells (s u : State) : Prop where
  cell : ∀ c, u.cell c = { s.cell c with residency := (u.cell c).residency }
  tables : u.tables = s.tables

theorem SavesCells.refl (s : State) : SavesCells s s := ⟨fun _ => rfl, rfl⟩
theorem SavesCells.trans {s u v : State} (h : SavesCells s u) (k : SavesCells u v) : SavesCells s v :=
  ⟨fun c => by rw [k.cell]; rw [h.cell], k.tables.trans h.tables⟩

theorem savesCells_vwrite (s : State) (ctx va : Nat) (bs : List Byte) (po : Bool) : SavesCells s (s.vwrite ctx va bs po) :=
  ⟨fun c => by rw [(memOnly_vwrite s ctx va bs po).cell], (memOnly_vwrite s ctx va bs po).tables⟩

theorem savesCells_noteResident (s : State) (c off n : Nat) : SavesCells s (s.noteResident c off n) := by
  unfold State.noteResident
  split
  · split
    · refine ⟨fun d => ?_, rfl⟩
      by_cases is : d = c
      · rw [is, State.cell_modCell_same]
      · rw [State.cell_modCell_other _ _ _ _ is]
    · exact .refl s
  · exact .refl s

theorem savesCells_copyOut (s : State) (c off ctx va n : Nat) : SavesCells s (s.copyOut c off ctx va n) :=
  (savesCells_noteResident s c off n).trans (foldl_related (R := SavesCells) .refl .trans (fun _ _ => savesCells_vwrite _ _ _ _ _) _ _)

/-- The record of one rank, as `z` has it, written into the run of memory at `a` (R262, R263). -/
def State.saveRecord (z : State) (l : Launch) (a : Nat) (acc : State) (rc : Nat × Nat) : State :=
  (acc.vwrite l.context (a + 256 + rc.1 * (0x1200 + l.variant.extent)) ((z.cell rc.2).recordHead l.variant) false).copyOut rc.2 0 l.context
    (a + 256 + rc.1 * (0x1200 + l.variant.extent) + 0x1200) l.variant.extent

/-- The records of every rank written, and the launch on its way to being saved. -/
def State.saved (z : State) (lid : Nat) (l : Launch) (a : Nat) : State :=
  (((List.range l.cells.length).zip l.cells).foldl (z.saveRecord l a) z).setLaunch lid { l with phase := .saving, restored := false, walked := [] }

theorem savesCells_saved (z : State) (lid : Nat) (l : Launch) (a : Nat) : SavesCells z (z.saved lid l a) := by
  have records := foldl_related (R := SavesCells) .refl .trans (f := z.saveRecord l a)
    (fun y rc => (savesCells_vwrite y _ _ _ _).trans (savesCells_copyOut _ _ _ _ _ _)) ((List.range l.cells.length).zip l.cells) z
  exact ⟨records.cell, records.tables⟩

theorem exec_saveStart {s : State} {lid a n p0 : Nat} {l : Launch} (path : s.running = true) (found : s.launch? lid = some l)
    (phase : l.phase = .marked) (halted : ∀ c ∈ l.cells, (s.cell c).layer = .halted ∧ (s.cell c).quiet = true)
    (none : ∀ r ∈ s.returns, r.2.launch ≠ lid) (save : l.save = some (a, n))
    (walked : PagesWalked s lid l (saveCell l.cells a (0x1200 + l.variant.extent)) l.context .write a (saveBytes l.variant) p0) :
    ∃ u, exec (.saveStart lid) s = .next u ∧ u.launch? lid = some { l with phase := .saving, restored := false, walked := [] } ∧
      SavesCells s u := by
  have goes : (l.phase != .marked || !l.cells.all (fun c => (s.cell c).layer == .halted && (s.cell c).quiet)
      || s.returns.any (fun (r : Nat × RetEntry) => r.2.launch == lid)) = false := by
    rw [Bool.or_eq_false_iff, Bool.or_eq_false_iff]
    refine ⟨⟨by simp [phase], ?_⟩, ?_⟩
    · rw [Bool.not_eq_false', List.all_eq_true]
      exact fun c m => by simp [halted c m]
    · rw [List.any_eq_false]
      exact fun r m => by simp [none r m]
  have done : s.saveStart lid = s.withPages lid (saveCell l.cells a (0x1200 + l.variant.extent)) l.context .write a (saveBytes l.variant)
      (fun z => z.saved lid l a) := by
    rw [State.saveStart, found]
    dsimp only
    rw [if_neg (Bool.eq_false_iff.1 goes)]
    split
    · next unsaved => cases save.symm.trans unsaved
    · next saved => cases save.symm.trans saved; rfl
  obtain ⟨z, runs, w⟩ := withPages_runs found walked (fun z => z.saved lid l a)
  have saves : SavesCells s (z.saved lid l a) := SavesCells.trans ⟨fun c => by rw [w.cell], by rw [w.rest]⟩ (savesCells_saved z lid l a)
  refine ⟨_, onPath_running s _ path, ?_, ?_⟩
  · rw [done, runs]; exact tabFind_tabSet_same _ _ _
  · rw [done, runs]; exact ⟨saves.cell, saves.tables⟩

/-- A list of cells given up by the launch that held them (R264). -/
def State.vacated (z : State) (cells : List Nat) : State :=
  cells.foldl (fun acc c => acc.modCell c (fun x => { x.stopThreads with launch := none })) z

theorem launch_vacated (z : State) {cells : List Nat} {c : Nat} (mem : c ∈ cells) : ((z.vacated cells).cell c).launch = none := by
  refine foldl_establishes (P := fun c z => (z.cell c).launch = none) (fun y c => ?_) (fun y c d free => ?_) mem z
  · rw [State.cell_modCell_same]
  · by_cases is : c = d
    · rw [is, State.cell_modCell_same]
    · rw [State.cell_modCell_other _ _ _ _ is]; exact free

theorem cell_vacated_other (z : State) {cells : List Nat} {c : Nat} (out : c ∉ cells) : (z.vacated cells).cell c = z.cell c :=
  foldl_other_cells id (fun _ _ _ ne => State.cell_modCell_other _ _ _ _ ne) (by rwa [List.map_id]) z

theorem exec_saveComplete {s : State} {lid a n : Nat} {l : Launch} (path : s.running = true) (found : s.launch? lid = some l)
    (phase : l.phase = .saving) (save : l.save = some (a, n)) :
    ∃ u, exec (.saveComplete lid) s = .next u ∧ u.launch? lid = some { l with
      phase := .saved
      preempted := true
      elapsed := s.elapsedNs l
      sticky := s.stickyOf l
      cells := []
      target := none
      reports := [] } ∧ (∀ c ∈ l.cells, (u.cell c).launch = none) ∧ ∀ c, c ∉ l.cells → u.cell c = s.cell c := by
  obtain ⟨header, o, done⟩ : ∃ header o, s.saveComplete lid = ((((s.vwrite l.context a header false).vacated l.cells).setLaunch lid { l with
        phase := .saved, preempted := true, elapsed := s.elapsedNs l, sticky := s.stickyOf l, cells := [], target := none, reports := [] }).bump
        0x6022 0 1).countFull o 1 := by
    rw [State.saveComplete, found]
    dsimp only
    split
    · next saved => cases save.symm.trans saved; exact ⟨_, _, rfl⟩
    · next other => exact absurd save (other a n phase)
  have cells : ∀ c, (s.saveComplete lid).cell c = ((s.vwrite l.context a header false).vacated l.cells).cell c := fun c => by
    rw [done, State.cell_countFull, State.cell_bump]; rfl
  refine ⟨_, onPath_running s _ path, ?_, fun c mem => ?_, fun c out => ?_⟩
  · show tabFind (s.saveComplete lid).launches lid = _
    rw [done, State.countFull_launches, State.bump_launches]
    exact tabFind_tabSet_same _ _ _
  · rw [State.cell_keepQueue, cells]
    exact launch_vacated _ mem
  · rw [State.cell_keepQueue, cells, cell_vacated_other _ out]
    exact (memOnly_vwrite _ _ _ _ _).cell c

end Sys2Proof.Machine

/-! # Resuming, restoring and dropping saved launches (R265, R266) -/

namespace Sys2Proof.Machine

/-! ## RESUME -/

/-- What a virtual read of memory returns depends on no TLB and no launch. -/
theorem readPages_walked {s z : State} (rest : z = { s with tlbs := z.tlbs, launches := z.launches }) (ctx : Nat) (a : Access) (va n : Nat)
    (pages : List Nat) : z.readPages ctx a va n pages = s.readPages ctx a va n pages := by
  induction pages with
  | nil => rfl
  | cons p ps ih =>
    rw [State.readPages, State.readPages, ih, rest]
    rfl

theorem Walked.vread {s z : State} {lid : Nat} {l : Launch} {p0 : Nat} (h : Walked s z lid l p0) (ctx : Nat) (a : Access) (va n : Nat) :
    z.vread ctx a va n = s.vread ctx a va n := readPages_walked h.rest ctx a va n _

/-- A record restored changes its own cell at most, and no DRAM. -/
theorem restoreCell_rest (s : State) (lid : Nat) (l : Launch) (a size extent count : Nat) (rc : Nat × Nat) :
    (∀ d, d ≠ rc.2 → (s.restoreCell lid l a size extent count rc).cell d = s.cell d) ∧
      (s.restoreCell lid l a size extent count rc).dram = s.dram := by
  have copied : ∀ (y : Cell) (f ctx va n : Nat), (∀ d, d ≠ rc.2 →
      ((({ s with free := f }).setCell rc.2 y).copyIn ctx va rc.2 0 n).cell d = s.cell d) ∧
      ((({ s with free := f }).setCell rc.2 y).copyIn ctx va rc.2 0 n).dram = s.dram := by
    intro y f ctx va n
    have copy := copiesIn_copyIn (({ s with free := f }).setCell rc.2 y) ctx va rc.2 0 n
    refine ⟨fun d ne => (copy.others d ne).trans ?_, ?_⟩
    · exact State.cell_setCell_other _ _ _ _ ne
    · rw [copy.rest]; rfl
  unfold State.restoreCell
  dsimp only
  split
  · exact copied _ _ _ _ _
  · exact ⟨fun _ _ => rfl, rfl⟩

/-- Every rank's record of a save at `a` restored on its cell, and the launch running again (R265). -/
def State.restored (z : State) (lid : Nat) (l : Launch) (cells : List Nat) (a size extent count : Nat) : State :=
  ({ (((List.range cells.length).zip cells).foldl (fun (acc : State) rc => acc.restoreCell lid l a size extent count rc) z).setLaunch lid { l with
      phase := .running, cells := cells, save := none, startTime := z.time, order := z.nextOrder, loadsLeft := [], walked := [] } with
    nextOrder := z.nextOrder + 1 }).bump 0x6023 0 1

theorem State.restoreOn_eq (z : State) (lid : Nat) (l : Launch) (cells : List Nat) (a size extent count : Nat) :
    z.restoreOn lid l cells a size extent count = z.withPages lid (saveCell cells a size) l.context .read a (256 + l.variant.footprint * size)
      (fun y => y.restored lid l cells a size extent count) := rfl

/-- What a launch restored on cells leaves. -/
structure Resumed (s u : State) (lid : Nat) (l : Launch) (cells : List Nat) : Prop where
  launch : u.launch? lid = some { l with
    phase := .running, cells := cells, save := none, startTime := s.time, order := s.nextOrder, loadsLeft := [], walked := [] }
  order : u.nextOrder = s.nextOrder + 1
  dram : u.dram = s.dram
  others : ∀ d, d ∉ cells → u.cell d = s.cell d

theorem resumed_restored (z : State) (lid : Nat) (l : Launch) (cells : List Nat) (a size extent count : Nat) :
    Resumed z (z.restored lid l cells a size extent count) lid l cells := by
  have names : ((List.range cells.length).zip cells).map Prod.snd = cells := List.map_snd_zip (by simp)
  refine ⟨?_, ?_, ?_, fun d out => ?_⟩
  · rw [State.launch?, State.restored, State.bump_launches]
    exact tabFind_tabSet_same _ _ _
  · rw [State.restored, State.bump_nextOrder]
  · rw [State.restored, State.bump_dram]
    exact foldl_related (R := fun s u : State => u.dram = s.dram) (fun _ => rfl) (fun h k => k.trans h)
      (f := fun (acc : State) rc => acc.restoreCell lid l a size extent count rc)
      (fun y rc => (restoreCell_rest y lid l a size extent count rc).2) _ z
  · rw [State.restored, State.cell_bump]
    exact foldl_other_cells (f := fun (acc : State) rc => acc.restoreCell lid l a size extent count rc) Prod.snd
      (fun y rc d ne => (restoreCell_rest y lid l a size extent count rc).1 d ne) (by rwa [names]) z

theorem Walked.resumed {s z u : State} {lid : Nat} {l l' : Launch} {p0 : Nat} {cells : List Nat} (h : Walked s z lid l' p0)
    (k : Resumed z u lid l cells) : Resumed s u lid l cells := by
  have time : z.time = s.time := by rw [h.rest]
  have order : z.nextOrder = s.nextOrder := by rw [h.rest]
  refine ⟨?_, ?_, ?_, fun d out => (k.others d out).trans (h.cell d)⟩
  · rw [k.launch, time, order]
  · rw [k.order, order]
  · rw [k.dram, h.rest]

theorem exec_resume {s : State} {lid a n p0 : Nat} {l : Launch} {cells : List Nat} {h : List Byte} {po su : Bool} (path : s.running = true)
    (found : s.launch? lid = some l) (phase : l.phase = .saved) (save : l.save = some (a, n))
    (fits : s.everFits l.queue l.variant.footprint = true) (may : s.mayResume l = true)
    (chosen : s.choosePlacement l.queue l.image l.variant.footprint (s.freeCells l.queue) = some cells)
    (header : PagesWalked s lid l (fun _ => cells.headD 0) l.context .read a 256 p0) (read : s.vread l.context .read a 256 = .ok h po su)
    (records : PagesWalked s lid l (saveCell cells a (leAt h 0x30 4)) l.context .read a (256 + l.variant.footprint * leAt h 0x30 4) p0) :
    ∃ u, exec (.resume lid) s = .next u ∧ Resumed s u lid l cells := by
  have done : s.resume lid = s.withPages lid (fun _ => cells.headD 0) l.context .read a 256 (fun z =>
      match z.vread l.context .read a 256 with
      | .ok h _ _ => z.restoreOn lid l cells a (leAt h 0x30 4) (leAt h 0x2C 4) (leAt h 0x2A 2 % 16384)
      | _ => z) := by
    rw [State.resume, found]
    dsimp only
    split
    · next saved =>
      cases save.symm.trans saved
      rw [fits, may, chosen]
      rfl
    · next other => exact absurd save (other a n phase)
  obtain ⟨z, runs, walked⟩ := withPages_runs found header (fun z =>
      match z.vread l.context .read a 256 with
      | .ok h _ _ => z.restoreOn lid l cells a (leAt h 0x30 4) (leAt h 0x2C 4) (leAt h 0x2A 2 % 16384)
      | _ => z)
  rw [walked.vread, read] at runs
  dsimp only at runs
  rw [State.restoreOn_eq] at runs
  obtain ⟨-, w, found', keeps⟩ := id walked
  obtain ⟨y, runs', walked'⟩ := withPages_runs found' (at_ := saveCell cells a (leAt h 0x30 4)) (fun p m => keeps _ _ _ _ _ (records p m))
    (fun z => z.restored lid l cells a (leAt h 0x30 4) (leAt h 0x2C 4) (leAt h 0x2A 2 % 16384))
  have resumed := walked.resumed (walked'.resumed (resumed_restored y lid l cells a (leAt h 0x30 4) (leAt h 0x2C 4) (leAt h 0x2A 2 % 16384)))
  have all : s.resume lid = y.restored lid l cells a (leAt h 0x30 4) (leAt h 0x2C 4) (leAt h 0x2A 2 % 16384) :=
    done.trans (runs.trans runs')
  refine ⟨_, onPath_running s _ path, ?_⟩
  rw [all]
  exact ⟨resumed.launch, resumed.order, resumed.dram, resumed.others⟩

/-! ## Admin commands -/

/-- The head admin command of a row's opcode and length runs the row. -/
theorem AdminHead.admRun {s : State} {op n : Nat} {p : List Byte} (h : AdminHead s op n p) (f : State → List Byte → AdminEnd) :
    s.admRun op (some n) f = s.admAnswer s.admSlot (f s p) := by
  have still : s.admSkip 256 = s := by
    rw [State.admSkip, if_neg (by simp [h.ready]), h.sound]
  simp [State.admRun, still, h.ready, h.opcode, h.held, h.length, h.payload]

theorem AdminHead.running {s : State} {op n : Nat} {p : List Byte} (h : AdminHead s op n p) : s.running = true := by
  have ready := h.ready
  simp only [State.admReady, Bool.and_eq_true] at ready
  exact ready.1.1.1.1.1.1

/-- A row of the admin queue whose head command ends with OK. -/
theorem AdminHead.answered {s z : State} {op n : Nat} {p r : List Byte} (h : AdminHead s op n p) {f : State → List Byte → AdminEnd}
    (ends : f s p = .ok z r) : onPath s (fun y => y.admRun op (some n) f) = .next (s.answered z stOk 0 r) := by
  rw [onPath_running s _ h.running, h.admRun, ends]
  rfl

theorem exec_dropSave {s : State} {p : List Byte} {lid : Nat} {l : Launch} (h : AdminHead s 0x3A 16 p)
    (found : s.launches.find? (fun l => l.2.queue == leAt p 0 2 && l.2.launchId.toNat == leAt p 8 8 && l.2.phase == .saved) = some (lid, l))
    (rsv : leAt p 2 6 = 0) :
    exec .dropSave s = .next (s.answered (({ s with launches := tabErase s.launches lid }).modQueue (leAt p 0 2)
      (fun x => { x with outstanding := x.outstanding - 1 })) stOk 0
      (bytesLE 8 (l.save.getD (0, 0)).1 ++ bytesLE 8 (l.save.getD (0, 0)).2)) := by
  refine h.answered ?_
  dsimp only
  rw [found]
  dsimp only
  rw [if_neg (by simp [rsv])]

/-- A save header, whole and of version 1, whose reserved bytes are clear, and the launch of queue `q` that it describes can be placed
with the groups it names (R262, R266). -/
structure SaveSound (s : State) (q : Nat) (h : List Byte) (im : Image) (v : Variant) : Prop where
  magic : leAt h 0 2 = 0x5356
  version : leAt h 2 2 = 1
  rsv : saveRsvOk h = true
  image : tabFind s.images (leAt h 8 8) = some im
  partition : im.partition = s.queuePart q
  variant : im.variant (leAt h 0x28 2) = some v
  extent : leAt h 0x2C 4 ≤ scratchBytes
  fits : s.everFits q (leAt h 0x28 2) = true
  groups : ∀ i, i < leAt h 0x42 1 → ∃ g, s.handleOf (leAt h (0x48 + 16 * i) 4) = some g ∧ s.handleIn (s.queuePart q) g = true

theorem exec_restoreLaunch {s : State} {p h : List Byte} {su : Bool} {im : Image} {v : Variant} (head : AdminHead s 0x39 16 p) {q a : Nat}
    (hq : leAt p 0 2 = q) (ha : leAt p 8 8 = a) (small : q ≤ 1023) (active : (s.queue q).status = .active) (rsv : leAt p 2 6 = 0)
    (aligned : a % 256 = 0) (open_ : s.saveOpen (s.queue q).context a = true)
    (read : s.vread (s.queue q).context .read a 256 = .ok h false su) (sound : SaveSound s q h im v)
    (records : ∀ r ∈ (List.range (leAt h 0x28 2)).map (fun i => s.vread (s.queue q).context .read (a + 256 + i * leAt h 0x30 4) 0x1200),
      ∃ b po s2, r = .ok b po s2 ∧ recordRsvOk b = true) :
    exec .restoreLaunch s = .next (s.answered
      ((({ s with free := s.free + 2 }).modQueue q (fun y => { y with outstanding := y.outstanding + 1 })).admitted (s.restoredLaunch q a h im v)) stOk 0 []) := by
  refine head.answered ?_
  dsimp only
  rw [hq, ha, if_neg (by simp [active, rsv, aligned]; omega), if_neg (by simp [active]), if_neg (by simp [open_]), read]
  dsimp only
  rw [if_neg Bool.false_ne_true, if_neg (by simp [sound.magic, sound.version, sound.rsv]), sound.image]
  simp only [Option.bind_some, sound.partition, beq_self_eq_true, if_true, sound.variant, Option.map_some]
  rw [if_neg, if_neg, if_neg]
  · rw [Bool.not_eq_true, List.any_eq_false]
    intro r m
    obtain ⟨b, po, s2, rfl, clear⟩ := records r m
    simp [clear]
  · rw [Bool.not_eq_true, List.any_eq_false]
    intro r m
    obtain ⟨b, po, s2, rfl, -⟩ := records r m
    simp
  · rw [Bool.not_eq_true, Bool.or_eq_false_iff, Bool.or_eq_false_iff]
    refine ⟨⟨by simp [sound.extent], by rw [sound.fits]; rfl⟩, ?_⟩
    rw [Bool.not_eq_false', List.all_eq_true]
    intro i m
    obtain ⟨g, named, inside⟩ := sound.groups i (List.mem_range.1 m)
    rw [named]
    exact inside

/-- Thread 0 is held exactly while ranks are left to load. -/
theorem heldStatus_eq (left : List Nat) : (if !left.isEmpty then ThreadStatus.idle else .running) = if left = [] then .running else .idle := by
  cases left <;> rfl

/-- Settles O34, row by row: each row's conditions let it run to its last line, and its effect is read off there. -/
theorem launchesAreTakenPlacedAndPreempted : Obligations.LaunchesAreTakenPlacedAndPreempted := by
  unfold Obligations.LaunchesAreTakenPlacedAndPreempted
  refine ⟨fun s q b h => exec_nop h, fun s q b im v h image variant => exec_launch h image variant,
    fun s lid l cells path found taken fits first chosen nodup => ?_,
    fun s c lid l on active loads read => exec_residentLoadDone on active loads rfl read,
    fun s q im f vs path hq waits idle found => exec_preemptWaitExpiry path hq waits idle found,
    fun s lid l path found phase open_ nodup => exec_preemptMarkReply path found phase open_ nodup rfl,
    fun s lid a n p0 l path found phase halted none save walked => ?_,
    fun s lid a n l path found phase save => exec_saveComplete path found phase save,
    fun s lid a n p0 l cells h po su path found phase save fits may chosen header read records => ?_,
    fun s p h su im v head small active rsv aligned open_ read magic version clear image partition variant extent fits groups records =>
      exec_restoreLaunch head rfl rfl small active rsv aligned open_ read
        ⟨magic, version, clear, image, partition, variant, extent, fits, groups⟩ records,
    fun s p lid l h found rsv => exec_dropSave h found rsv⟩
  · obtain ⟨u, next, order, placed⟩ := exec_launchPlace path found taken fits first chosen nodup
    refine ⟨u, next, placed.launch, order, placed.dram, fun r c at_ => ?_, placed.others⟩
    have start := placed.starts r c at_
    exact ⟨start.launch, start.rank, start.calendar, start.pc, start.status.trans (heldStatus_eq _)⟩
  · obtain ⟨u, next, launch, saves⟩ := exec_saveStart path found phase halted none save walked
    exact ⟨u, next, launch, saves.cell, saves.tables⟩
  · obtain ⟨u, next, resumed⟩ := exec_resume path found phase save fits may chosen header read records
    exact ⟨u, next, resumed.launch, resumed.order, resumed.dram, resumed.others⟩

end Sys2Proof.Machine

/-! # Passes of the matrix array (R76, R79, R83, R87–R91, R94, R109, R253) -/

namespace Sys2Proof.Machine

/-! ## A command that leaves its queue -/

/-- `y` is cell `x` after a command left a queue: the queues, the threads they held back and the semaphores moved, and all else stands. -/
def Cell.MovesOn (x y : Cell) : Prop :=
  y = { x with queues := y.queues, headAt := y.headAt, nextSeq := y.nextSeq, threads := y.threads, sems := y.sems, waiters := y.waiters }

theorem Cell.movesOn_setQueueOf (x : Cell) (e : Nat) (q : List EngineCmd) : x.MovesOn (x.setQueueOf e q) := rfl
theorem Cell.movesOn_setThread (x : Cell) (t : Nat) (h : Thread) : x.MovesOn (x.setThread t h) := rfl
theorem Cell.movesOn_setSem (x : Cell) (i : Nat) (v : Half) (w : List (SemWaiter × Nat)) : x.MovesOn (x.setSem i v w) := rfl

theorem Cell.MovesOn.array {x y : Cell} (h : x.MovesOn y) : y.array = x.array := by rw [h]
theorem Cell.MovesOn.scratch {x y : Cell} (h : x.MovesOn y) : y.scratch = x.scratch := by rw [h]

/-- `u` is `s` after a command left a queue of cell `c`: DRAM and every other cell stand. -/
structure Dequeues (s u : State) (c : Nat) : Prop where
  own : (s.cell c).MovesOn (u.cell c)
  dram : u.dram = s.dram
  others : ∀ d, d ≠ c → u.cell d = s.cell d

theorem Dequeues.refl (s : State) (c : Nat) : Dequeues s s c := ⟨rfl, rfl, fun _ _ => rfl⟩

theorem Dequeues.trans {s u v : State} {c : Nat} (h : Dequeues s u c) (k : Dequeues u v c) : Dequeues s v c := by
  refine ⟨?_, k.dram.trans h.dram, fun d ne => (k.others d ne).trans (h.others d ne)⟩
  unfold Cell.MovesOn
  rw [k.own]; rw [h.own]

theorem dequeues_setCell {s : State} {c : Nat} {x : Cell} (h : (s.cell c).MovesOn x) : Dequeues s (s.setCell c x) c :=
  ⟨by rw [State.cell_setCell_same]; exact h, rfl, fun _ ne => State.cell_setCell_other _ _ _ _ ne⟩

theorem dequeues_traceCell (s : State) (c k : Nat) (b : List Byte) : Dequeues s (s.traceCell c k b) c :=
  ⟨by rw [State.cell_traceCell]; rfl, State.traceCell_dram .., fun _ _ => State.cell_traceCell ..⟩

theorem dequeues_waitSem_engine (s : State) (c i n e : Nat) : Dequeues s (s.waitSem c i n (.engine e)) c := by
  have grant : ∀ z : State, Dequeues z (z.applyGrant c (.engine e)) c := fun _ => dequeues_setCell (Cell.movesOn_setQueueOf ..)
  unfold State.waitSem
  dsimp only
  split
  · exact grant s
  · split
    · exact (dequeues_setCell (Cell.movesOn_setSem ..)).trans (grant _)
    · exact dequeues_setCell (Cell.movesOn_setSem ..)

theorem dequeues_armHead (s : State) (c e : Nat) : Dequeues s (s.armHead c e) c := by
  unfold State.armHead
  split
  · exact .refl s c
  · split
    · exact .refl s c
    · split
      · exact .refl s c
      · exact dequeues_waitSem_engine ..

theorem dequeues_stampHead (s : State) (c e : Nat) : Dequeues s (s.stampHead c e) c :=
  dequeues_setCell (x := { s.cell c with headAt := tabSet (s.cell c).headAt e (s.cell c).nextSeq, nextSeq := (s.cell c).nextSeq + 1 }) rfl

theorem dequeues_popCmd (s : State) (c e : Nat) : Dequeues s (s.popCmd c e) c := by
  have queue : ∀ (z : State) (f : Cell → List EngineCmd), Dequeues z (z.modCell c (fun x => x.setQueueOf e (f x))) c := fun _ _ =>
    dequeues_setCell (Cell.movesOn_setQueueOf ..)
  have thread : ∀ (z : State) (t : Nat) (f : Thread → Thread), Dequeues z (z.modThread c t f) c := fun _ _ _ =>
    dequeues_setCell (Cell.movesOn_setThread ..)
  have headed : ∀ z : State, Dequeues z ((z.stampHead c e).armHead c e) c := fun z =>
    (dequeues_stampHead z c e).trans (dequeues_armHead ..)
  unfold State.popCmd
  dsimp only
  split
  · exact ((((queue s _).trans (thread ..)).trans (queue ..)).trans (dequeues_traceCell ..)).trans (headed _)
  · exact (queue s _).trans (headed _)

/-- A row of the array that makes of its cell what `g` makes of it and takes the head command off queue 0; before that it may do what
touches no cell and no DRAM. -/
theorem exec_leavesQueue {s z : State} {c : Nat} {f : State → State} (h : CellWorks s c) (cells : z.cells = s.cells)
    (dram : z.dram = s.dram) (g : Cell → Cell) (done : f s = (z.modCell c g).popCmd c 0) :
    ∃ u, onCell c s f = .next u ∧ (g (s.cell c)).MovesOn (u.cell c) ∧ u.dram = s.dram ∧ ∀ d, d ≠ c → u.cell d = s.cell d := by
  have pops := dequeues_popCmd (z.modCell c g) c 0
  have same : ∀ d, z.cell d = s.cell d := fun d => by rw [State.cell, cells, State.cell]
  have own := pops.own
  rw [State.cell_modCell_same, same] at own
  rw [← done] at pops own
  exact ⟨_, onCell_running c s f h.path h.cell, own, pops.dram.trans dram,
    fun d ne => (pops.others d ne).trans ((State.cell_modCell_other _ _ _ _ ne).trans (same d))⟩

/-! ## ARRAY_PASS_START -/

/-- Choosing a pass for the taster touches no cell and no DRAM (R418). -/
theorem tasterPick_stands (s : State) (c : Nat) (drawn : Bool) :
    (s.tasterPick c drawn).2.cells = s.cells ∧ (s.tasterPick c drawn).2.dram = s.dram := by
  unfold State.tasterPick
  dsimp only
  split
  · exact ⟨rfl, rfl⟩
  · split <;> simp [State.setHealth]

theorem exec_arrayPassStart {s : State} {c : Nat} {sampled : Bool} {k : EngineCmd} {p : ArrayPass} (h : CellWorks s c)
    (head : (s.cell c).head 0 = some k) (whole : aLoadOnly k.imm = false) (may : (s.cell c).mayStart k = true)
    (gate : (s.cell c).passGate k (s.cell c).tbFreeForArray = .go p) :
    ∃ pick u, exec (.arrayPassStart c sampled) s = .next u ∧ ((s.cell c).startPass { p with sampled := pick }).MovesOn (u.cell c) ∧
      u.dram = s.dram ∧ ∀ d, d ≠ c → u.cell d = s.cell d := by
  obtain ⟨pick, z, cells, dram, done⟩ : ∃ (pick : Bool) (z : State), z.cells = s.cells ∧ z.dram = s.dram ∧
      s.arrayPassStart c sampled = (z.modCell c (fun y => y.startPass { p with sampled := pick })).popCmd c 0 := by
    simp only [State.arrayPassStart, h.active, head, whole, may, gate, Bool.not_true, Bool.or_self, Bool.false_eq_true, if_false]
    split
    · exact ⟨_, _, (tasterPick_stands s c sampled).1, (tasterPick_stands s c sampled).2, rfl⟩
    · exact ⟨_, _, rfl, rfl, rfl⟩
  exact ⟨pick, exec_leavesQueue (f := fun s => s.arrayPassStart c sampled) h cells dram _ done⟩

/-! ## LOAD_ONLY and WEIGHT_LOAD_COMPLETE -/

/-- The load that a LOAD_ONLY command `k` with pass block `b` asks for (R79). -/
def loadOf (k : EngineCmd) (b : List Byte) : LoadReq :=
  { reg := aWsel k.imm, off := pbWtOff b, fmt := pbWtFmt b, only := some k, pass := none }

/-- The cell with a load at the end of its weight loader's line. -/
def Cell.addLoad (x : Cell) (l : LoadReq) : Cell := { x with array := { x.array with loader := x.array.loader ++ [l] } }

/-- The weight tile that pass block `b` names is sound and in reach (R79, R81). -/
structure TileOk (x : Cell) (b : List Byte) : Prop where
  fmt : operandFmt (pbWtFmt b) = true
  aligned : pbWtOff b % 256 = 0
  inside : pbWtOff b + tileBytes (pbWtFmt b) ≤ scratchBytes
  reach : calReaches x.calendar .arrayWt (pbWtOff b) (tileBytes (pbWtFmt b)) = true

theorem exec_loadOnly {s : State} {c : Nat} {k : EngineCmd} {b : List Byte} (h : CellWorks s c) (head : (s.cell c).head 0 = some k)
    (only : aLoadOnly k.imm = true) (may : (s.cell c).mayStart k = true) (read : (s.cell c).ctl .arrayWt k.opA.toNat 64 = .ok b)
    (clean : (s.cell c).spPoison k.opA.toNat 64 = false) (tile : TileOk (s.cell c) b) :
    ∃ u, exec (.loadOnly c) s = .next u ∧ ((s.cell c).addLoad (loadOf k b)).MovesOn (u.cell c) ∧
      u.dram = s.dram ∧ ∀ d, d ≠ c → u.cell d = s.cell d := by
  refine exec_leavesQueue (z := s) (f := fun s => s.loadOnly c) h rfl rfl (·.addLoad (loadOf k b)) ?_
  have inside := Nat.not_lt.2 tile.inside
  simp only [State.loadOnly, h.active, head, only, may, read, clean, tile.fmt, tile.aligned, inside, tile.reach]
  rfl

/-- Noting a read clears the residency tag of the cell or nothing (R253). -/
theorem noteResident_cases (s : State) (c off n : Nat) :
    s.noteResident c off n = s ∨ s.noteResident c off n = s.modCell c (fun x => { x with residency := none }) := by
  unfold State.noteResident
  split
  · split
    · exact .inr rfl
    · exact .inl rfl
  · exact .inl rfl

theorem onlyCell_noteResident (s : State) (c off n : Nat) : OnlyCell s (s.noteResident c off n) c := by
  rcases noteResident_cases s c off n with same | cleared
  · rw [same]; exact .refl s c
  · rw [cleared]; exact onlyCell_modCell _ _ _

theorem onlyCell_noteSpans (s : State) (c : Nat) (spans : List (Nat × Nat)) : OnlyCell s (s.noteSpans c spans) c :=
  foldl_related (R := fun s u => OnlyCell s u c) (fun s => .refl s c) .trans (fun _ _ => onlyCell_noteResident _ _ _ _) _ s

/-- `u` is `s` with the load at the head of the loader of cell `c` finished: the residency tag is kept or cleared. -/
structure Loads (s u : State) (c : Nat) (l : LoadReq) : Prop where
  only : OnlyCell s u c
  own : u.cell c = { (s.cell c).finishLoad l with residency := (u.cell c).residency }
  tag : (u.cell c).residency = (s.cell c).residency ∨ (u.cell c).residency = none

/-- The state with load `l` of cell `c` finished and the read of its tile noted (R87, R253). -/
def State.loadEnded (s : State) (c : Nat) (l : LoadReq) : State :=
  (s.setCell c ((s.cell c).finishLoad l)).noteResident c l.off (tileBytes l.fmt)

theorem loads_loadEnded (s : State) (c : Nat) (l : LoadReq) : Loads s (s.loadEnded c l) c l := by
  refine ⟨(onlyCell_setCell _ _ _).trans (onlyCell_noteResident _ _ _ _), ?_, ?_⟩ <;> unfold State.loadEnded
  all_goals rcases noteResident_cases (s.setCell c ((s.cell c).finishLoad l)) c l.off (tileBytes l.fmt) with same | cleared
  · rw [same, State.cell_setCell_same]
  · rw [cleared, State.cell_modCell_same, State.cell_setCell_same]
  · rw [same, State.cell_setCell_same]; exact .inl rfl
  · rw [cleared, State.cell_modCell_same]; exact .inr rfl

theorem Loads.wreg {s u : State} {c : Nat} {l : LoadReq} (h : Loads s u c l) : tabFind (u.cell c).array.wregs l.reg =
    some (WReg.mk ((s.cell c).scratch.read l.off (tileBytes l.fmt)) (some (fmtClass l.fmt))
      ((s.cell c).spPoison l.off (tileBytes l.fmt)) ((s.cell c).spSuspect l.off (tileBytes l.fmt))) := by
  rw [h.own]
  exact tabFind_tabSet_same _ _ _

theorem Loads.loader {s u : State} {c : Nat} {l : LoadReq} {rest : List LoadReq} (h : Loads s u c l)
    (line : (s.cell c).array.loader = l :: rest) : (u.cell c).array.loader = rest := by
  rw [h.own]
  exact congrArg (List.drop 1) line

theorem Loads.threads {s u : State} {c : Nat} {l : LoadReq} (h : Loads s u c l) : (u.cell c).threads = (s.cell c).threads := by
  rw [h.own]
  rfl

/-- A command without `SEM_DONE` that completes while a thread of its cell runs ends nothing (R60, R64). -/
theorem completeCmd_runs {s : State} {c : Nat} {k : EngineCmd} (runs : ThreadRuns s c) (silent : k.doneEn = false) :
    s.completeCmd c k = s := by
  rw [State.completeCmd, silent]
  exact checkCellEnd_runs s c runs

/-- A thread runs as long as the cell's threads stand. -/
theorem ThreadRuns.of_threads {s u : State} {c : Nat} (h : ThreadRuns s c) (threads : (u.cell c).threads = (s.cell c).threads) :
    ThreadRuns u c := by
  obtain ⟨j, g, mem, running⟩ := h
  exact ⟨j, g, threads ▸ mem, running⟩

theorem exec_weightLoad {s : State} {c : Nat} {l : LoadReq} (h : CellWorks s c) (done : s.weightLoadComplete c = s.loadEnded c l) :
    ∃ u, exec (.weightLoadComplete c) s = .next u ∧ Loads s u c l := by
  have loads := loads_loadEnded s c l
  rw [← done] at loads
  exact ⟨_, onCell_running c s _ h.path h.cell, onlyCell_keepQueue loads.only, loads.own, loads.tag⟩

/-- A load that neither a pass nor a command waits for ends alone. -/
theorem weightLoadComplete_alone {s : State} {c : Nat} {l : LoadReq} {rest : List LoadReq} (h : CellWorks s c)
    (line : (s.cell c).array.loader = l :: rest) (only : l.only = none) (pass : l.pass = none) :
    s.weightLoadComplete c = s.loadEnded c l := by
  simp only [State.weightLoadComplete, h.active, line, only, pass]
  rfl

/-- A LOAD_ONLY without `SEM_DONE` completes with its load, and while a thread runs that ends nothing more. -/
theorem weightLoadComplete_command {s : State} {c : Nat} {l : LoadReq} {k : EngineCmd} {rest : List LoadReq} (h : CellWorks s c)
    (runs : ThreadRuns s c) (line : (s.cell c).array.loader = l :: rest) (only : l.only = some k) (silent : k.doneEn = false) :
    s.weightLoadComplete c = s.loadEnded c l := by
  have done : s.weightLoadComplete c = (s.loadEnded c l).completeCmd c k := by
    simp only [State.weightLoadComplete, h.active, line, only]
    rfl
  rw [done, completeCmd_runs (runs.of_threads (loads_loadEnded s c l).threads) silent]

/-! ## The rows of a pass -/

/-- Rows of a pass written to cell `x` leave `y`: its scratchpad and tile buffers may have changed. -/
def Cell.RowsPut (x y : Cell) : Prop := y = { x with scratch := y.scratch, tbufs := y.tbufs }

theorem Cell.RowsPut.trans {x y z : Cell} (h : x.RowsPut y) (k : y.RowsPut z) : x.RowsPut z := by
  unfold Cell.RowsPut
  rw [k]; rw [h]

theorem Cell.RowsPut.threads {x y : Cell} (h : x.RowsPut y) : y.threads = x.threads := by rw [h]

theorem Cell.rowsPut_putRow (x : Cell) (p : ArrayPass) (fl : Bool × Bool) (m : Nat) (codes : List Nat) :
    x.RowsPut (x.putRow p fl m codes) := by
  unfold Cell.RowsPut Cell.putRow
  split <;> rfl

theorem RowRun.rowsPut_settle (r : RowRun) (p : ArrayPass) (fl : Bool × Bool) (j : Nat) : r.cell.RowsPut (r.settle p fl j).cell := by
  unfold RowRun.settle
  split
  · split
    · exact Cell.rowsPut_putRow ..
    · rfl
  · rfl

theorem RowRun.rowsPut_run (r : RowRun) (key : BitVec 128) (cell : Nat) (g : DWord) (free : Nat) (p : ArrayPass) (fl : Bool × Bool)
    (a b : Nat) : r.cell.RowsPut (r.run key cell g free p fl a b).cell :=
  foldl_related (R := fun r q : RowRun => r.cell.RowsPut q.cell) (fun _ => rfl) .trans
    (f := fun q j => (q.settle p fl j).feed key cell g free p fl j) (fun q j => q.rowsPut_settle p fl j) _ r

theorem Cell.rowsPut_writeRows (x : Cell) (key : BitVec 128) (cell : Nat) (g : DWord) (free : Nat) (p : ArrayPass) (fl : Bool × Bool)
    (rows : Nat) : x.RowsPut (x.writeRows key cell g free p fl rows).1 :=
  ((RowRun.start x p rows).rowsPut_run key cell g free p fl p.early.length rows).trans
    (foldl_related (R := Cell.RowsPut) (fun _ => rfl) .trans (fun y (w : Nat × List Nat) => y.rowsPut_putRow p fl w.1 w.2) _ _)

/-- A row written before another enters is one of the rows that finishing would write first. -/
theorem RowRun.finish_settle (r : RowRun) (p : ArrayPass) (fl : Bool × Bool) (j : Nat) :
    (r.settle p fl j).finish p fl = r.finish p fl := by
  unfold RowRun.settle
  split
  · next waiting =>
    split
    · rw [RowRun.finish, RowRun.finish, waiting, List.foldl_cons]
    · rfl
  · rfl

/-- What a pass writes does not depend on the rows of later passes that enter meanwhile (R83). -/
theorem RowRun.finish_chain (key : BitVec 128) (cell : Nat) (p : ArrayPass) (fl : Bool × Bool) (qs : List ArrayPass) :
    ∀ (r : RowRun) (g : DWord) (free j left : Nat), (RowRun.chain key cell p fl r g free j left qs).1.finish p fl = r.finish p fl := by
  induction qs with
  | nil => exact fun _ _ _ _ _ => rfl
  | cons q qs ih =>
    intro r g free j left
    have entered := foldl_related (R := fun a b : RowRun × ArrayPass => b.1.finish p fl = a.1.finish p fl) (fun _ => rfl)
      (fun h k => k.trans h) (f := fun a m => RowRun.behind a key cell g free p fl (j + m) m)
      (fun a m => a.1.finish_settle p fl (j + m)) ((List.range (min left q.cmd.opB.toNat)).drop q.early.length) (r, q)
    exact (ih _ _ _ _ _).trans entered

/-! ## ARRAY_PASS_COMPLETE -/

/-- Cell `c` with every row of pass `p` written, and the clips that the pass counts. -/
def State.passRows (s : State) (c : Nat) (p : ArrayPass) : Cell × Nat :=
  (s.cell c).writeRows (s.genKeyOn c) c (s.cell c).genSteps s.free p ((s.cell c).passFlags p) p.cmd.opB.toNat

theorem State.threads_passRows (s : State) (c : Nat) (p : ArrayPass) : (s.passRows c p).1.threads = (s.cell c).threads :=
  Cell.RowsPut.threads (Cell.rowsPut_writeRows ..)

/-- `x` is cell `c` after pass `p`: its rows written, the checksum of their bytes, and the trip of its clips (R94, R109). -/
structure PassOut (s : State) (c : Nat) (p : ArrayPass) (x : Cell) : Prop where
  scratch : x.scratch = (s.passRows c p).1.scratch
  tbufs : x.tbufs = (s.passRows c p).1.tbufs
  checksum : x.array.checksum = crc64 ((s.passRows c p).1.passBytes p)
  trip : x.quant.trip = (passTrips p (s.passRows c p).2 || (s.passRows c p).1.quant.trip)
  threads : x.threads = (s.cell c).threads

/-- `u` is `s` with pass `p` of cell `c` written: DRAM and every other cell stand. -/
structure PassWritten (s u : State) (c : Nat) (p : ArrayPass) : Prop where
  own : PassOut s c p (u.cell c)
  dram : u.dram = s.dram
  others : ∀ d, d ≠ c → u.cell d = s.cell d

theorem modLaunch_stands (s : State) (l : Nat) (f : Launch → Launch) :
    (s.modLaunch l f).cells = s.cells ∧ (s.modLaunch l f).dram = s.dram := by
  unfold State.modLaunch
  split <;> exact ⟨rfl, rfl⟩

/-- Keeping a sampled pass for a checker touches no cell and no DRAM (R420). -/
theorem tasterCapture_stands (s : State) (c : Nat) (p : ArrayPass) :
    (s.tasterCapture c p).cells = s.cells ∧ (s.tasterCapture c p).dram = s.dram := by
  unfold State.tasterCapture
  split
  · split
    · exact modLaunch_stands _ _ _
    · exact ⟨rfl, rfl⟩
  · exact ⟨rfl, rfl⟩

theorem passWritten_capture {s z : State} {c : Nat} {p q : ArrayPass} {x : Cell} (only : OnlyCell s z c) (out : PassOut s c p x) (f : Nat) :
    PassWritten s (({ z.setCell c x with free := f } : State).tasterCapture c q) c p := by
  have ⟨cells, dram⟩ := tasterCapture_stands { z.setCell c x with free := f } c q
  have cell : ∀ d, (({ z.setCell c x with free := f } : State).tasterCapture c q).cell d = (z.setCell c x).cell d := fun d => by
    rw [State.cell, cells, State.cell]
  refine ⟨?_, dram.trans only.dram, fun d ne => ?_⟩
  · rw [cell, State.cell_setCell_same]; exact out
  · rw [cell, State.cell_setCell_other _ _ _ _ ne, only.2 d ne]

theorem passWritten_finishPass (s : State) (c : Nat) (p : ArrayPass) : PassWritten s (s.finishPass c p) c p := by
  have counted : ∀ a b d m n o, OnlyCell s (((s.countFull a m).countFull b n).countFull d o) c := fun _ _ _ _ _ _ =>
    ((onlyCell_countFull _ _ _ _).trans (onlyCell_countFull _ _ _ _)).trans (onlyCell_countFull _ _ _ _)
  unfold State.finishPass
  dsimp only
  rw [RowRun.finish_chain]
  refine passWritten_capture ?_ ?_ _
  · split
    · exact (counted ..).trans (onlyCell_noteSpans ..)
    · exact counted ..
  · refine ⟨rfl, rfl, rfl, ?_, s.threads_passRows c p⟩
    show (if passTrips p (s.passRows c p).2 = true then _ else _ : QuantState).trip = _
    cases passTrips p (s.passRows c p).2 <;> rfl

/-- The command of a written pass leaves the array, at once or with its weight load (R87). -/
theorem PassWritten.closePass {s u : State} {c : Nat} {p : ArrayPass} (h : PassWritten s u c p) (runs : ThreadRuns s c)
    (silent : p.cmd.doneEn = false) : PassWritten s (u.closePass c p) c p := by
  obtain ⟨⟨scratch, tbufs, checksum, trip, threads⟩, dram, others⟩ := h
  unfold State.closePass
  split
  · exact ⟨⟨scratch, tbufs, checksum, trip, threads⟩, dram, others⟩
  · have own : (u.modCell c (fun x => x.dropPass p.cmd.seq)).cell c = (u.cell c).dropPass p.cmd.seq := State.cell_modCell_same _ _ _
    rw [completeCmd_runs (runs.of_threads ((congrArg Cell.threads own).trans threads)) silent]
    refine ⟨?_, dram, fun d ne => (State.cell_modCell_other _ _ _ _ ne).trans (others d ne)⟩
    rw [own]
    exact ⟨scratch, tbufs, checksum, trip, threads⟩

theorem exec_arrayPassComplete {s : State} {c : Nat} {p : ArrayPass} (h : CellWorks s c) (runs : ThreadRuns s c)
    (oldest : (s.cell c).array.passes.find? (fun q => !q.written) = some p) (silent : p.cmd.doneEn = false) :
    ∃ u, exec (.arrayPassComplete c) s = .next u ∧ PassWritten s u c p := by
  have done : s.arrayPassComplete c = (s.finishPass c p).closePass c p := by
    simp only [State.arrayPassComplete, h.active, oldest]
    rfl
  have written := (passWritten_finishPass s c p).closePass runs silent
  rw [← done] at written
  exact ⟨_, onCell_running c s _ h.path h.cell, written.own, written.dram, written.others⟩

/-! ## RAMP_DOWN -/

theorem exec_rampDown {s : State} {c cols : Nat} (h : OnCell s c) (idle : (s.cell c).arrayRampIdle = true)
    (lower : cols < (s.cell c).array.actCols) :
    ∃ u, exec (.rampDown c cols) s = .next u ∧ OnlyCell s u c ∧
      u.cell c = { s.cell c with array := { (s.cell c).array with actCols := cols } } := by
  refine ⟨_, onCell_running c s (fun z => z.rampDown c cols) h.path h.cell, onlyCell_keepQueue (onlyCell_modCell _ _ _), ?_⟩
  rw [State.cell_keepQueue, State.rampDown, State.cell_modCell_same, idle, if_pos]
  simpa using lower

/-- Settles O23: starting and loading by what leaving the queue moves, completion by the order in which rows are written. -/
theorem matrixArrayPasses : Obligations.MatrixArrayPasses := by
  unfold Obligations.MatrixArrayPasses
  refine ⟨fun s c sampled k p h head whole may gate => ?_, fun s c p h runs oldest silent => ?_,
    fun s c k b h head only may read clean fmt aligned inside reach => ?_, fun s c l rest h line only pass => ?_,
    fun s c l k rest h runs line only silent => ?_, fun s c cols h idle lower => exec_rampDown h idle lower⟩
  · obtain ⟨pick, u, next, own, dram, others⟩ := exec_arrayPassStart (sampled := sampled) h head whole may gate
    exact ⟨u, next, ⟨pick, own.array⟩, own.scratch, dram, others⟩
  · obtain ⟨u, next, ⟨scratch, tbufs, checksum, trip, -⟩, dram, others⟩ := exec_arrayPassComplete h runs oldest silent
    exact ⟨u, next, scratch, tbufs, checksum, trip, dram, others⟩
  · obtain ⟨u, next, own, dram, others⟩ := exec_loadOnly h head only may read clean ⟨fmt, aligned, inside, reach⟩
    exact ⟨u, next, own.array, own.scratch, dram, others⟩
  · obtain ⟨u, next, loads⟩ := exec_weightLoad h (weightLoadComplete_alone h line only pass)
    exact ⟨u, next, loads.only, loads.loader line, loads.wreg⟩
  · obtain ⟨u, next, loads⟩ := exec_weightLoad h (weightLoadComplete_command h runs line only silent)
    exact ⟨u, next, loads.only, loads.own, loads.tag⟩

end Sys2Proof.Machine

/-! # Registers of the vector engine (R122, R125, R134) -/

namespace Sys2Proof.Machine

/-! ## Elements of a register file -/

/-- The bytes of element `e` of width `b` of register `r`. -/
def Memory.elemBytes (m : Memory) (b r e : Nat) : List Byte := m.read (256 * r + b * e) b

/-- The register file `m` with the result of element `e` written, where it has one. -/
def Memory.putElem (m : Memory) (b r : Nat) (f : Nat → Option VElem) (e : Nat) : Memory :=
  match f e with
  | some x => m.write (256 * r + b * e) (bytesLE b x.code)
  | none => m

/-- What an element with bytes `old` holds after an instruction: its result's bytes, or `old` where it has none (R134). -/
def resultBytes (b : Nat) (old : List Byte) : Option VElem → List Byte
  | some x => bytesLE b x.code
  | none => old

theorem resultBytes_twice (b : Nat) (old : List Byte) (x : Option VElem) : resultBytes b (resultBytes b old x) x = resultBytes b old x := by
  cases x <;> rfl

theorem leNat_resultBytes_some (b : Nat) (old : List Byte) (x : VElem) : leNat (resultBytes b old (some x)) = x.code % 2 ^ (8 * b) := by
  rw [resultBytes, leNat_bytesLE, Nat.pow_mul]

theorem Memory.read_congr {m k : Memory} {a n : Nat} (h : ∀ i, i < n → m.get (a + i) = k.get (a + i)) : m.read a n = k.read a n :=
  List.map_congr_left fun i mem => h i (List.mem_range.1 mem)

theorem Memory.read_write_out (m : Memory) (a x n : Nat) (bs : List Byte) (out : x + n ≤ a ∨ a + bs.length ≤ x) (h : m.wf = true) :
    (m.write a bs).read x n = m.read x n :=
  Memory.read_congr fun i _ => Memory.get_write_out m a (x + i) bs (by omega) h

/-- Elements of one width lie apart: those of two registers, and those of one register. -/
theorem elements_apart {b q r e d : Nat} (he : b * e + b ≤ 256) (hd : b * d + b ≤ 256) (ne : q ≠ r ∨ e ≠ d) :
    256 * q + b * e + b ≤ 256 * r + b * d ∨ 256 * r + b * d + b ≤ 256 * q + b * e := by
  rcases Nat.lt_trichotomy q r with lt | eq | gt
  · omega
  · have ne : e ≠ d := ne.resolve_left fun other => other eq
    rcases Nat.lt_or_gt_of_ne ne with lt | gt
    · have := Nat.mul_le_mul_left b (Nat.succ_le_of_lt lt)
      rw [Nat.mul_succ] at this
      omega
    · have := Nat.mul_le_mul_left b (Nat.succ_le_of_lt gt)
      rw [Nat.mul_succ] at this
      omega
  · omega

theorem element_within {b e : Nat} (h : e < vcount b) : b * e + b ≤ 256 := by
  rw [← Nat.mul_succ]
  exact Nat.le_trans (Nat.mul_le_mul_left b h) (Nat.mul_div_le 256 b)

/-! ## What writing results leaves -/

/-- `k` is the register file `m` with the results `f` written to the elements `es` of width `b` of register `r`: each of them
takes its result, and all other elements stand. -/
structure ElemsPut (b r : Nat) (f : Nat → Option VElem) (es : List Nat) (m k : Memory) : Prop where
  wf : k.wf = true
  taken : ∀ e ∈ es, e < vcount b → k.elemBytes b r e = resultBytes b (m.elemBytes b r e) (f e)
  kept : ∀ q e, e < vcount b → (q ≠ r ∨ e ∉ es) → k.elemBytes b q e = m.elemBytes b q e

section
variable {b r : Nat} {f : Nat → Option VElem}

/-- Elements without a result are written by doing nothing. -/
theorem elemsPut_none {es : List Nat} {m : Memory} (h : m.wf = true) (none_ : ∀ e ∈ es, f e = none) : ElemsPut b r f es m m :=
  ⟨h, fun e mem _ => by rw [none_ e mem]; rfl, fun _ _ _ _ => rfl⟩

theorem elemsPut_putElem {e : Nat} {m : Memory} (h : m.wf = true) (he : e < vcount b) : ElemsPut b r f [e] m (m.putElem b r f e) := by
  unfold Memory.putElem
  split
  · next x result =>
    refine ⟨Memory.wf_write _ _ _ h, fun d mem _ => ?_, fun q d hd out => ?_⟩
    · have same := Memory.read_write_same m (256 * r + b * e) (bytesLE b x.code) h
      rw [bytesLE_length] at same
      rw [List.mem_singleton.1 mem, result]
      exact same
    · have apart := elements_apart (element_within hd) (element_within he) (out.imp_right (mt List.mem_singleton.2))
      exact Memory.read_write_out _ _ _ _ _ (by rw [bytesLE_length]; exact apart) h
  · next result => exact elemsPut_none h fun d mem => List.mem_singleton.1 mem ▸ result

theorem ElemsPut.append {es ds : List Nat} {m k n : Memory} (h : ElemsPut b r f es m k) (g : ElemsPut b r f ds k n) :
    ElemsPut b r f (es ++ ds) m n := by
  refine ⟨g.wf, fun e mem he => ?_, fun q e he out => ?_⟩
  · by_cases late : e ∈ ds
    · by_cases early : e ∈ es
      · rw [g.taken e late he, h.taken e early he, resultBytes_twice]
      · rw [g.taken e late he, h.kept r e he (.inr early)]
    · have early : e ∈ es := (List.mem_append.1 mem).resolve_right late
      rw [g.kept r e he (.inr late), h.taken e early he]
  · rw [List.mem_append, not_or] at out
    rw [g.kept q e he (out.imp_right And.right), h.kept q e he (out.imp_right And.left)]

/-- A fold whose steps each write the elements that `here` names writes the elements of all its steps. -/
theorem elemsPut_foldl {σ : Type} (regs : σ → Memory) (here : Nat → List Nat) {step : σ → Nat → σ} {l : List Nat}
    (puts : ∀ z, ∀ a ∈ l, (regs z).wf = true → ElemsPut b r f (here a) (regs z) (regs (step z a))) (z : σ) (h : (regs z).wf = true) :
    ElemsPut b r f (l.flatMap here) (regs z) (regs (l.foldl step z)) := by
  induction l generalizing z with
  | nil => exact elemsPut_none h (by simp)
  | cons a l ih =>
    have first := puts z a List.mem_cons_self h
    exact first.append (ih (fun z d mem => puts z d (List.mem_cons_of_mem _ mem)) (step z a) first.wf)

/-! ## Lanes -/

/-- The elements of width `b` in lane `l` (R122). -/
def laneElems (b l : Nat) : List Nat := (List.range (4 / b)).map (fun i => l * (4 / b) + i)

theorem lt_vcount_of_mem_laneElems {l e : Nat} (width : b = 1 ∨ b = 2 ∨ b = 4) (hl : l < 64) (mem : e ∈ laneElems b l) : e < vcount b := by
  obtain ⟨i, hi, rfl⟩ := List.mem_map.1 mem
  have hi := List.mem_range.1 hi
  rcases width with rfl | rfl | rfl <;> simp only [vcount] <;> omega

/-- Every element of a register lies in one of its 64 lanes. -/
theorem mem_lanes {e : Nat} (width : b = 1 ∨ b = 2 ∨ b = 4) (he : e < vcount b) : e ∈ (List.range 64).flatMap (laneElems b) := by
  refine List.mem_flatMap.2 ⟨e / (4 / b), List.mem_range.2 ?_, List.mem_map.2 ⟨e % (4 / b), List.mem_range.2 ?_, ?_⟩⟩
  · rcases width with rfl | rfl | rfl <;> simp only [vcount] at he <;> omega
  · rcases width with rfl | rfl | rfl <;> omega
  · exact Nat.div_add_mod' e (4 / b)

/-- The engine with the results of lane `l` written: its elements, its poison and suspect, its flags (R134, R136, R138). -/
def VecState.putLane (v : VecState) (b r : Nat) (f : Nat → Option VElem) (l : Nat) : VecState :=
  let got := (laneElems b l).filterMap f
  if got.isEmpty then v
  else
    let all := (laneElems b l).all (fun e => (f e).isSome)
    let fl := got.foldl (fun a x => a ||| x.flags) 0
    { v with
      regs := (((laneElems b l).foldl (fun m e => m.putElem b r f e) v.regs).setPoison (64 * r + l)
          (got.any (·.poison) || (!all && v.lanePoison r l))).setSuspect (64 * r + l)
          (got.any (·.suspect) || (!all && v.laneSuspect r l))
      lanes := if fl = 0 then v.lanes else tabMod 0 v.lanes l (fun o => o ||| fl) }

/-- Writing results is writing those of each lane. -/
theorem VecState.put_eq_lanes (v : VecState) (b r : Nat) (f : Nat → Option VElem) :
    v.put b r f = (List.range 64).foldl (fun acc l => acc.putLane b r f l) v := by
  unfold VecState.put VecState.putLane laneElems
  simp only [List.filterMap_map, List.all_map, List.foldl_map, Memory.putElem] <;> rfl

theorem elemsPut_putLane {l : Nat} (width : b = 1 ∨ b = 2 ∨ b = 4) (hl : l < 64) (v : VecState) (h : v.regs.wf = true) :
    ElemsPut b r f (laneElems b l) v.regs (v.putLane b r f l).regs := by
  unfold VecState.putLane
  dsimp only
  split
  · next empty =>
    exact elemsPut_none h (List.filterMap_eq_nil_iff.1 (List.isEmpty_iff.1 empty))
  · have puts := elemsPut_foldl (b := b) (r := r) (f := f) id (fun e => [e]) (step := fun m e => m.putElem b r f e) (l := laneElems b l)
      (fun m e mem wf => elemsPut_putElem wf (lt_vcount_of_mem_laneElems width hl mem)) v.regs h
    rw [List.flatMap_singleton'] at puts
    exact ⟨Memory.wf_setSuspect _ _ _ (Memory.wf_setPoison _ _ _ puts.wf), puts.taken, puts.kept⟩

theorem VecState.elemsPut_put (width : b = 1 ∨ b = 2 ∨ b = 4) (v : VecState) (h : v.regs.wf = true) :
    ElemsPut b r f ((List.range 64).flatMap (laneElems b)) v.regs (v.put b r f).regs := by
  rw [VecState.put_eq_lanes]
  exact elemsPut_foldl VecState.regs (laneElems b) (fun z l mem => elemsPut_putLane width (List.mem_range.1 mem) z) v h

end

/-- Settles O25: the lanes of a register hold each of its elements, and writing the results of a lane writes its elements alone. -/
theorem vectorElementsKeepOrChange : Obligations.VectorElementsKeepOrChange := by
  unfold Obligations.VectorElementsKeepOrChange
  intro v b r f width wf
  have puts := v.elemsPut_put (r := r) (f := f) width wf
  refine ⟨fun e he => ?_, fun q e ne he => congrArg leNat (puts.kept q e he (.inl ne))⟩
  have taken := congrArg leNat (puts.taken e (mem_lanes width he) he)
  cases result : f e with
  | none => rwa [result] at taken
  | some x => rwa [result, leNat_resultBytes_some] at taken

end Sys2Proof.Machine

/-! # Vector instructions (R121, R122, R124, R126, R127, R129–R135, R137) -/

namespace Sys2Proof.Machine

/-! ## What writing results leaves of the engine -/

/-- Writing results moves registers and lane flags, and nothing else of the engine (R134, R136). -/
theorem VecState.put_eq (v : VecState) (b r : Nat) (f : Nat → Option VElem) :
    v.put b r f = { v with regs := (v.put b r f).regs, lanes := (v.put b r f).lanes } := by
  have lane : ∀ (z : VecState) l, z.putLane b r f l = { z with regs := (z.putLane b r f l).regs, lanes := (z.putLane b r f l).lanes } :=
    fun z l => by
      unfold VecState.putLane
      dsimp only
      split <;> rfl
  rw [VecState.put_eq_lanes]
  refine foldl_related (R := fun v u : VecState => u = { v with regs := u.regs, lanes := u.lanes }) (fun _ => rfl) (fun h k => ?_) lane _ v
  rw [k]; rw [h]

@[simp] theorem VecState.put_pc (v : VecState) (b r : Nat) (f : Nat → Option VElem) : (v.put b r f).pc = v.pc := by rw [VecState.put_eq]
@[simp] theorem VecState.put_lineUse (v : VecState) (b r : Nat) (f : Nat → Option VElem) : (v.put b r f).lineUse = v.lineUse := by
  rw [VecState.put_eq]

@[simp] theorem VecState.useLine_regs (v : VecState) (p : Nat) : (v.useLine p).regs = v.regs := rfl
@[simp] theorem VecState.useLine_pc (v : VecState) (p : Nat) : (v.useLine p).pc = v.pc := rfl
@[simp] theorem VecState.useLine_lineUse (v : VecState) (p : Nat) : (v.useLine p).lineUse = v.lineUse ||| (1#8 <<< p) := rfl
@[simp] theorem Cell.vecDone_regs (x : Cell) (v : VecState) : (x.vecDone v).vec.regs = v.regs := rfl
@[simp] theorem Cell.vecDone_pc (x : Cell) (v : VecState) : (x.vecDone v).vec.pc = v.pc + 4#32 := rfl
@[simp] theorem Cell.vecDone_lineUse (x : Cell) (v : VecState) : (x.vecDone v).vec.lineUse = v.lineUse := rfl
@[simp] theorem Cell.vecDone_draws (x : Cell) (v : VecState) : (x.vecDone v).vec.draws = v.draws := rfl
@[simp] theorem Cell.vecDone_scratch (x : Cell) (v : VecState) : (x.vecDone v).scratch = x.scratch := rfl

/-! ## A word that issues -/

/-- The state whose cell `c` is left as `x` with engine `v` by a vector instruction, the pc past the word and the instruction counted
(R127). -/
def State.vecLeaves (s : State) (c : Nat) (x : Cell) (v : VecState) : State :=
  (s.setCell c (x.vecDone v)).countFull (0x10000 + 0x200 * c + 8 * 15) 1

theorem State.cell_vecLeaves (s : State) (c : Nat) (x : Cell) (v : VecState) : (s.vecLeaves c x v).cell c = x.vecDone v :=
  (State.cell_countFull ..).trans (State.cell_setCell_same ..)

theorem onlyCell_vecLeaves (s : State) (c : Nat) (x : Cell) (v : VecState) : OnlyCell s (s.vecLeaves c x v) c :=
  (onlyCell_setCell s c _).trans (onlyCell_countFull _ _ _ _)

/-- A word that issues, and whose body leaves cell `x` with engine `v`, leaves them so with the pc past it (R127). -/
theorem vecIssue_leaves {s : State} {c cls : Nat} {w : Word} {legal : Bool} {body : Cell → VBody} {x : Cell} {v : VecState}
    (h : VecIssues s c w cls) (hc : cls < 0xA) (ok : legal = true) (done : body (s.cell c) = .done { x with vec := v }) :
    s.vecIssue c w cls legal body = s.vecLeaves c x v :=
  vecIssue_done h hc ok body _ done

/-- A row that, behind what touches its cell alone, leaves the cell as an instruction does. -/
theorem exec_vecLeaves {s z : State} {c : Nat} {x : Cell} {v : VecState} {f : State → State} (works : CellWorks s c) (only : OnlyCell s z c)
    (row : f s = z.vecLeaves c x v) : ∃ u, onCell c s f = .next u ∧ OnlyCell s u c ∧ u.cell c = x.vecDone v := by
  have left := onlyCell_keepQueue (only.trans (onlyCell_vecLeaves z c x v))
  refine ⟨_, onCell_running c s f works.path works.cell, ?_, ?_⟩ <;> rw [row]
  · exact left
  · exact z.cell_vecLeaves c x v

/-- The state with `n` free values taken. -/
def State.takeFree (n : Nat) (s : State) : State := { s with free := s.free + n }

/-- A row that leaves the cell as an instruction does and takes `n` free values. -/
theorem exec_vecLeaves_free {s : State} {c n : Nat} {x : Cell} {v : VecState} {f : State → State} (works : CellWorks s c)
    (row : f s = State.takeFree n (s.vecLeaves c x v)) :
    ∃ u, onCell c s f = .next u ∧ OnlyCell s { u with free := s.free } c ∧ u.free = s.free + n ∧ u.cell c = x.vecDone v := by
  have left := onlyCell_vecLeaves s c x v
  refine ⟨_, onCell_running c s f works.path works.cell, ?_, ?_, ?_⟩ <;> rw [row]
  · refine ⟨?_, left.2⟩
    rw [left.1]
    rfl
  · exact congrArg (· + n) left.free
  · exact s.cell_vecLeaves c x v

/-! ## VECTOR_COMMAND_START -/

theorem Cell.MovesOn.vec {x y : Cell} (h : x.MovesOn y) : y.vec = x.vec := by rw [h]

/-- The parameter block `b` that command `k` names is sound and in reach, and the buffers it asks for are free (R123, R126, R141). -/
structure VecBlockOk (x : Cell) (k : EngineCmd) (b : List Byte) : Prop where
  aligned : k.opA.toNat % 128 = 0
  inside : k.opA.toNat + 128 ≤ scratchBytes
  reach : calReaches x.calendar .vecRd k.opA.toNat 128 = true
  clean : x.spPoison k.opA.toNat 128 = false
  read : x.scratch.read k.opA.toNat 128 = b
  rsv : vecRsvOk b = true
  sound : vecBlockOk b = true
  buffers : ∀ t, t < 4 → bitAt (vbTbUse b) t = true → x.tbFreeForVector t = true

/-- The state in which the engine of cell `c` has begun command `k`, before the command leaves its queue (R121). -/
def State.vecBegun (s : State) (c : Nat) (k : EngineCmd) (b : List Byte) : State :=
  { s.modCell c (fun x => { x with vec := VecState.start k b s.free }) with free := s.free + 25 }

theorem vectorCommandStart_begins {s : State} {c : Nat} {k : EngineCmd} {b : List Byte} (h : CellWorks s c) (head : (s.cell c).head 1 = some k)
    (idle : (s.cell c).vec.cmd = none) (may : (s.cell c).mayStart k = true) (block : VecBlockOk (s.cell c) k b) :
    s.vectorCommandStart c = (s.vecBegun c k b).popCmd c 1 := by
  have inside := Nat.not_lt.2 block.inside
  have buffers : (List.range 4).all (fun t => !bitAt (vbTbUse b) t || (s.cell c).tbFreeForVector t) = true :=
    List.all_eq_true.2 fun t mem => by
      have free := block.buffers t (List.mem_range.1 mem)
      cases asked : bitAt (vbTbUse b) t
      · rfl
      · exact free asked
  simp only [State.vectorCommandStart, h.active, head, idle, may, block.aligned, inside, block.reach, block.clean, block.read, block.rsv,
    block.sound, buffers]
  rfl

theorem exec_vectorCommandStart {s : State} {c : Nat} {k : EngineCmd} {b : List Byte} (h : CellWorks s c) (head : (s.cell c).head 1 = some k)
    (idle : (s.cell c).vec.cmd = none) (may : (s.cell c).mayStart k = true) (block : VecBlockOk (s.cell c) k b) :
    ∃ u, exec (.vectorCommandStart c) s = .next u ∧ ({ s.cell c with vec := VecState.start k b s.free } : Cell).MovesOn (u.cell c) ∧
      u.dram = s.dram := by
  have pops := dequeues_popCmd (s.vecBegun c k b) c 1
  have begun : (s.vecBegun c k b).cell c = { s.cell c with vec := VecState.start k b s.free } :=
    State.cell_modCell_same s c (fun x => { x with vec := VecState.start k b s.free })
  have own := pops.own
  rw [begun] at own
  rw [← vectorCommandStart_begins h head idle may block] at pops own
  exact ⟨_, onCell_running c s (fun z => z.vectorCommandStart c) h.path h.cell, own, pops.dram⟩

/-! ## Operations, compares, conversions and permutes -/

section
variable {s : State} {c : Nat} {w : Word}

theorem exec_vecFloatOp {o : FloatOp} (f : FloatFmt) (h : VecIssues s c w 0) (rsv : floatUsesB o = true ∨ vwVb w = 0) :
    ∃ u, exec (.vecFloatOp c w (some (o, f))) s = .next u ∧ OnlyCell s u c ∧
      u.cell c = (s.cell c).vecDone ((s.cell c).vec.elementwise w (widthBytes (floatWidth f))
        ([vwVa w] ++ (if floatUsesB o then [vwVb w] else []) ++ (if o = .fma then [vwVd w] else []))
        (fun a b d => floatResult o (floatOf f) a b d)) := by
  simp only [← beq_iff_eq (a := o)]
  refine exec_vecLeaves (f := fun z => z.vecFloatOp c w (some (o, f))) h.works (.refl s c) ?_
  simp only [State.vecFloatOp]
  exact vecIssue_leaves h (by decide) (by simpa using rsv) rfl

theorem exec_vecIntOp {o : VIntOp} (f : IntFmt) (h : VecIssues s c w 1) (rsv : vintUsesB o = true ∨ vwVb w = 0) :
    ∃ u, exec (.vecIntOp c w (some (o, f))) s = .next u ∧ OnlyCell s u c ∧
      u.cell c = (s.cell c).vecDone ((s.cell c).vec.elementwise w (widthBytes (intWidth f))
        ([vwVa w] ++ (if vintUsesB o then [vwVb w] else []) ++ (if o = .mulAdd then [vwVd w] else []))
        (fun a b d => vintResult o (intBits f) a b d)) := by
  simp only [← beq_iff_eq (a := o)]
  refine exec_vecLeaves (f := fun z => z.vecIntOp c w (some (o, f))) h.works (.refl s c) ?_
  simp only [State.vecIntOp]
  exact vecIssue_leaves h (by decide) (by simpa using rsv) rfl

theorem exec_vecCompare (k : VCmp) (f : IntFmt) (h : VecIssues s c w 2) (mask : vwVd w < 7) :
    ∃ u, exec (.vecCompare c w (some (.compareI k f))) s = .next u ∧ OnlyCell s u c ∧
      u.cell c = (s.cell c).vecDone ((s.cell c).vec.setMask (vwVd w) ((s.cell c).vec.compareMask w (widthBytes (intWidth f))
        (fun a b => intCompare k (intBits f) a b))) := by
  refine exec_vecLeaves (f := fun z => z.vecCompare c w (some (.compareI k f))) h.works (.refl s c) ?_
  unfold State.vecCompare
  dsimp only
  exact vecIssue_leaves h (by decide) (by simpa using mask) rfl

theorem exec_vecConvert {o : ConvertOp} (h : VecIssues s c w 5) (ok : convertOk o = true) (rsv : convertUsesB o = true ∨ vwVb w = 0) :
    ∃ u, exec (.vecConvert c w (some o)) s = .next u ∧ OnlyCell s { u with free := s.free } c ∧ u.free = s.free + 512 ∧
      u.cell c = ((s.cell c).stepGen s.free 1 (b2n (vbRound (s.cell c).vec.block == 1)) (convertCycles o - 1)).vecDone
        ((s.cell c).vec.convert w o (s.genKeyOn c) c (s.cell c).genSteps s.free) := by
  refine exec_vecLeaves_free (f := fun z => z.vecConvert c w (some o)) h.works ?_
  exact congrArg (State.takeFree 512) (vecIssue_leaves h (by decide) (by simpa [ok] using rsv) rfl)

theorem exec_vecCrossLane_permute (k : ElemWidth) (h : VecIssues s c w 6) :
    ∃ u, exec (.vecCrossLane c w (some (.permute k))) s = .next u ∧ OnlyCell s { u with free := s.free } c ∧
      u.cell c = (s.cell c).vecDone ((s.cell c).vec.cross w (.permute k) s.free) := by
  obtain ⟨u, next, only, -, own⟩ := exec_vecLeaves_free (f := fun z => z.vecCrossLane c w (some (.permute k))) h.works
    (congrArg (State.takeFree 1) (vecIssue_leaves h (by decide) rfl rfl))
  exact ⟨u, next, only, own⟩

/-! ## Random draws -/

/-- What a draw gives lane `l` of cell `c`: its generator word where the lane is enabled (R133). -/
def State.drawAt (s : State) (c : Nat) (w : Word) (l : Nat) : Option VElem :=
  let v := (s.cell c).vec
  if v.enabled w 4 l then
    some (VElem.mk (v.word (s.genKeyOn c) c domVector l (genCount 1 (s.cell c).genSteps s.free 0) (l * (vbE v.block / 64))
      ((vbDraw v.block + v.draws) % 65536)) false false 0)
  else none

theorem exec_vecRandomDraw (h : VecIssues s c w 7) (rsvA : vwVa w = 0) (rsvB : vwVb w = 0) :
    ∃ u, exec (.vecRandomDraw c w true) s = .next u ∧ OnlyCell s { u with free := s.free } c ∧
      u.cell c = ((s.cell c).stepGen s.free 1 1 0).vecDone
        { (s.cell c).vec.put 4 (vwVd w) (s.drawAt c w) with draws := (s.cell c).vec.draws + 1 } := by
  obtain ⟨u, next, only, -, own⟩ := exec_vecLeaves_free (f := fun z => z.vecRandomDraw c w true) h.works
    (congrArg (State.takeFree 1) (vecIssue_leaves h (by decide) (by simp [rsvA, rsvB]) rfl))
  exact ⟨u, next, only, own⟩

/-! ## Line loads -/

/-- Noting reads moves nothing of the cell but its residency tag (R253). -/
theorem cell_noteSpans (s : State) (c : Nat) (spans : List (Nat × Nat)) :
    (s.noteSpans c spans).cell c = { s.cell c with residency := ((s.noteSpans c spans).cell c).residency } := by
  refine foldl_related (R := fun z u : State => u.cell c = { z.cell c with residency := (u.cell c).residency })
    (f := fun acc (p : Nat × Nat) => acc.noteResident c p.1 p.2) (fun _ => rfl) (fun h k => ?_) (fun z p => ?_) _ s
  · rw [k]; rw [h]
  · rcases noteResident_cases z c p.1 p.2 with same | cleared
    · rw [same]
    · rw [cleared, State.cell_modCell_same]

/-- What is noted of reads leaves a vector word to issue as it did. -/
theorem VecIssues.noteSpans {cls : Nat} (h : VecIssues s c w cls) (spans : List (Nat × Nat)) : VecIssues (s.noteSpans c spans) c w cls := by
  have only := onlyCell_noteSpans s c spans
  have own := cell_noteSpans s c spans
  refine ⟨⟨?_, h.works.cell, ?_⟩, ?_, ?_, h.cls⟩
  · rw [only.1]; exact h.works.path
  · have launches : (s.noteSpans c spans).launches = s.launches := by rw [only.1]
    have active := h.works.active
    unfold State.cellActive State.launchOn State.launch? at active ⊢
    rw [launches, own]
    exact active
  · rw [own]; exact h.busy
  · rw [own]; exact h.open_

/-- The faults of a line access do not depend on the residency tag. -/
theorem Cell.lineFault_residency (x : Cell) (tag : Option ResTag) (p off : Nat) (store : Bool) :
    ({ x with residency := tag } : Cell).lineFault p off store = x.lineFault p off store := rfl

/-- What a line load of width `b` through the pointer of word `w` gives element `e` (R134). -/
def Cell.lineElem (x : Cell) (w : Word) (b e : Nat) : Option VElem :=
  let a := (x.vec.ptrAddr (vwVa w) (256 * vwVb w)).toNat
  if x.vec.enabled w b e then
    some (VElem.mk (leNat (x.scratch.read (a + b * e) b)) (x.unitPoison (a + b * e)) (x.unitSuspect (a + b * e)) 0)
  else none

/-- The engine after a line load of width `b` of word `w` (R134). -/
def Cell.lineLoaded (x : Cell) (w : Word) (b : Nat) : VecState := (x.vec.put b (vwVd w) (x.lineElem w b)).useLine (vwVa w)

/-- The state that has noted the span a line load of word `w` reads (R253). -/
def State.lineNoted (s : State) (c : Nat) (w : Word) (k : ElemWidth) : State :=
  s.noteSpans c ((s.cell c).vecReads w (some (.lineLoad k)))

theorem vecScratchAccess_lineLoad (k : ElemWidth) (h : VecIssues s c w 3) (pointer : vwVa w < 8)
    (sound : (s.cell c).lineFault (vwVa w) (256 * vwVb w) false = none) :
    s.vecScratchAccess c w (some (.lineLoad k)) = (s.lineNoted c w k).vecLeaves c
      { s.cell c with residency := ((s.lineNoted c w k).cell c).residency } ((s.cell c).lineLoaded w (widthBytes k)) := by
  have busy : (s.cellActive c && (s.cell c).vec.cmd.isSome) = true := by rw [h.works.active, h.busy]; rfl
  unfold State.vecScratchAccess State.lineNoted
  simp only [busy, if_true]
  refine vecIssue_leaves (h.noteSpans _) (by decide) (by simp [pointer]) ?_
  rw [cell_noteSpans]
  simp only [Cell.lineFault_residency, sound]
  rfl

theorem exec_vecScratchAccess_lineLoad (k : ElemWidth) (h : VecIssues s c w 3) (pointer : vwVa w < 8)
    (sound : (s.cell c).lineFault (vwVa w) (256 * vwVb w) false = none) :
    ∃ u tag, exec (.vecScratchAccess c w (some (.lineLoad k))) s = .next u ∧ OnlyCell s u c ∧
      u.cell c = ({ s.cell c with residency := tag } : Cell).vecDone ((s.cell c).lineLoaded w (widthBytes k)) := by
  obtain ⟨u, next, only, own⟩ := exec_vecLeaves (f := fun z => z.vecScratchAccess c w (some (.lineLoad k))) h.works
    (onlyCell_noteSpans s c _) (vecScratchAccess_lineLoad k h pointer sound)
  exact ⟨u, _, next, only, own⟩

/-! ## Tile stores -/

/-- Words stored one after another stand in a memory, at the word of each; one that stood there before stands on. -/
theorem Memory.read_foldl_store {code : Nat → Nat} {po su : Nat → Bool} {base l : Nat} {ls : List Nat} {m : Memory} (h : m.wf = true)
    (held : l ∈ ls ∨ m.read (4 * (base + l)) 4 = bytesLE 4 (code l)) :
    (ls.foldl (fun (a : Memory) l => a.store 4 (4 * (base + l)) (bytesLE 4 (code l)) (po l) (su l)) m).read (4 * (base + l)) 4
      = bytesLE 4 (code l) := by
  induction ls generalizing m with
  | nil => exact held.resolve_left List.not_mem_nil
  | cons d ls ih =>
    rw [List.foldl_cons]
    refine ih (Memory.wf_store m _ _ _ _ _ h) ?_
    by_cases here : l = d
    · have stored := Memory.read_store_same m 4 (4 * (base + d)) (bytesLE 4 (code d)) (po d) (su d) h
      rw [bytesLE_length] at stored
      rw [here]
      exact .inr stored
    · rcases held with mem | same
      · exact .inl ((List.mem_cons.1 mem).resolve_left here)
      · refine .inr ((Memory.read_congr fun i hi => Memory.get_store_out _ _ _ _ _ _ _ ?_ h).trans same)
        rw [bytesLE_length]
        omega

theorem leNat_lt (bs : List Byte) : leNat bs < 256 ^ bs.length := by
  induction bs with
  | nil => simp [leNat]
  | cons b bs ih =>
    have := b.isLt
    rw [leNat, List.length_cons, Nat.pow_succ']
    omega

theorem VecState.elem_lt (v : VecState) (b r e : Nat) : v.elem b r e < 256 ^ b := by
  have := leNat_lt (v.regs.read (256 * r + b * e) b)
  rwa [Memory.read, List.length_map, List.length_range] at this

/-- The word of its buffer at which a tile access of word `w` begins (R135). -/
def VecState.tileBase (v : VecState) (w : Word) : Nat := vbTbBase v.block (vwVa w) + 64 * v.strip + 32 * vwVb w

/-- The lanes that a tile store of word `w` writes (R135). -/
def VecState.tileLanes (v : VecState) (w : Word) : List Nat :=
  (List.range 64).filter (fun l => v.enabled w 4 l && decide (v.tileBase w + l < 9216))

/-- Buffer `m` after a tile store of word `w` (R135). -/
def VecState.tileStored (v : VecState) (w : Word) (m : Memory) : Memory :=
  (v.tileLanes w).foldl (fun (a : Memory) l =>
    a.store 4 (4 * (v.tileBase w + l)) (bytesLE 4 (v.elem 4 (vwVd w) l)) (v.lanePoison (vwVd w) l) (v.laneSuspect (vwVd w) l)) m

/-- The engine after a tile store of word `w`, which notes whether it stored poison (R137). -/
def VecState.noteStored (v : VecState) (w : Word) : VecState :=
  { v with stored := v.stored || (v.tileLanes w).any (fun l => v.lanePoison (vwVd w) l) }

/-- The cell after a tile store of word `w`: the buffer that it names holds the words stored (R135). -/
def Cell.tileStored (x : Cell) (w : Word) : Cell :=
  { x with tbufs := tabSet x.tbufs (vwVa w) (x.vec.tileStored w (tabGet Memory.zero x.tbufs (vwVa w))) }

/-- The buffer that a tile store of word `w` names, after it. -/
theorem tileBuffer_vecDone (x : Cell) (w : Word) (v : VecState) :
    tabGet Memory.zero ((x.tileStored w).vecDone v).tbufs (vwVa w) = x.vec.tileStored w (tabGet Memory.zero x.tbufs (vwVa w)) :=
  tabGet_tabSet_same ..

theorem VecState.read_tileStored (v : VecState) {l : Nat} {m : Memory} (h : m.wf = true) (lane : l < 64) (on : v.enabled w 4 l = true)
    (inside : v.tileBase w + l < 9216) : leNat ((v.tileStored w m).read (4 * (v.tileBase w + l)) 4) = v.elem 4 (vwVd w) l := by
  have mem : l ∈ v.tileLanes w := List.mem_filter.2 ⟨List.mem_range.2 lane, by simp [on, inside]⟩
  rw [VecState.tileStored, Memory.read_foldl_store h (.inl mem), leNat_bytesLE, Nat.mod_eq_of_lt (v.elem_lt 4 _ l)]

theorem exec_vecTileAccess_store (h : VecIssues s c w 4) (tile : vwVa w < 4) (held : bitAt (vbTbUse (s.cell c).vec.block) (vwVa w) = true) :
    ∃ u, exec (.vecTileAccess c w (some .store)) s = .next u ∧ OnlyCell s u c ∧
      u.cell c = ((s.cell c).tileStored w).vecDone ((s.cell c).vec.noteStored w) := by
  have mine : ¬ (!bitAt (vbTbUse (s.cell c).vec.block) (vwVa w)) = true := by rw [held]; decide
  exact exec_vecLeaves (f := fun z => z.vecTileAccess c w (some .store)) h.works (.refl s c)
    (vecIssue_leaves h (by decide) (by simp [tile]) (if_neg mine))

/-! ## Strips and the end of a command -/

theorem exec_vnext_strip (h : VecIssues s c w 8) (rsv : field w.toNat 27 24 = 0) (more : (s.cell c).vec.strip + 1 < (s.cell c).vec.strips) :
    ∃ u, exec (.vnext c w) s = .next u ∧ OnlyCell s u c ∧
      u.cell c = (s.cell c).vecDone { (s.cell c).vec with
        strip := (s.cell c).vec.strip + 1
        draws := 0
        masks := tabSet (s.cell c).vec.masks 7 (tailMask (vbE (s.cell c).vec.block) ((s.cell c).vec.strip + 1) (s.cell c).vec.count)
        pc := (s.cell c).vec.pc + BitVec.ofInt 32 (4 * signed 24 (field w.toNat 23 0)) - 4#32 } :=
  exec_vecLeaves (f := fun z => z.vnext c w) h.works (.refl s c) (vecIssue_leaves h (by decide) (by simp [rsv]) (if_pos more))

theorem exec_vnext_last (h : VecIssues s c w 8) (rsv : field w.toNat 27 24 = 0) (last : ¬ (s.cell c).vec.strip + 1 < (s.cell c).vec.strips) :
    ∃ u, exec (.vnext c w) s = .next u ∧ OnlyCell s u c ∧ u.cell c = (s.cell c).vecDone (s.cell c).vec :=
  exec_vecLeaves (f := fun z => z.vnext c w) h.works (.refl s c) (vecIssue_leaves h (by decide) (by simp [rsv]) (if_neg last))

theorem exec_vend (h : VecIssues s c w 9) (rsv : field w.toNat 27 0 = 0) :
    ∃ u, exec (.vend c w) s = .next u ∧ OnlyCell s u c ∧
      u.cell c = ((s.cell c).spMerge ((s.cell c).vec.part.flatMap (fun p => p.2))).vecDone { (s.cell c).vec with part := [], ended := true } :=
  exec_vecLeaves (f := fun z => z.vend c w) h.works (.refl s c) (vecIssue_leaves h (by decide) (by simp [rsv]) rfl)

end

/-! ## VECTOR_COMPLETE -/

theorem mem_tabSet_self {α : Type} (t : Table α) (k : Nat) (a : α) : (k, a) ∈ tabSet t k a := by
  induction t with
  | nil => simp [tabSet]
  | cons p r ih =>
    obtain ⟨i, b⟩ := p
    unfold tabSet
    split
    · exact List.mem_cons_self
    · split
      · exact List.mem_cons_self
      · exact List.mem_cons_of_mem _ ih

/-- An entry of a table still stands when that of key `k` is set, or it is the entry that was found at `k`. -/
theorem mem_tabSet_or_found {α : Type} {t : Table α} {k j : Nat} {a b : α} (h : (j, b) ∈ t) :
    (j, b) ∈ tabSet t k a ∨ (j = k ∧ tabFind t k = some b) := by
  by_cases at_ : j = k
  · subst at_
    induction t with
    | nil => simp at h
    | cons p r ih =>
      obtain ⟨i, d⟩ := p
      by_cases same : i = j
      · subst same
        rcases List.mem_cons.1 h with head | tail
        · cases head
          exact .inr ⟨rfl, by simp [tabFind]⟩
        · exact .inl (by simp [tabSet, tail])
      · have tail : (j, b) ∈ r := (List.mem_cons.1 h).resolve_left fun e => same (congrArg Prod.fst e).symm
        by_cases below : j < i
        · exact .inl (by simp [tabSet, same, below, tail])
        · rcases ih tail with stays | found
          · exact .inl (by simp [tabSet, same, below, stays])
          · exact .inr ⟨rfl, by simp [tabFind, same, below, found.2]⟩
  · exact .inl (mem_tabSet_other at_ h)

/-- A thread still runs after one is changed without its status. -/
theorem ThreadRuns.modThread {s : State} {c : Nat} (h : ThreadRuns s c) (t : Nat) {f : Thread → Thread} (keeps : ∀ g, (f g).status = g.status) :
    ThreadRuns (s.modThread c t f) c := by
  obtain ⟨j, g, mem, running⟩ := h
  have own : ((s.modThread c t f).cell c).threads = tabSet (s.cell c).threads t (f (s.thread c t)) := by rw [State.cell_modThread]; rfl
  rcases mem_tabSet_or_found (k := t) (a := f (s.thread c t)) mem with stays | ⟨rfl, found⟩
  · exact ⟨j, g, own ▸ stays, running⟩
  · have thread : s.thread c j = g := by rw [State.thread, Cell.thread, tabGet, found]; rfl
    refine ⟨j, f g, ?_, (keeps g).trans running⟩
    rw [own, thread]
    exact mem_tabSet_self ..

/-- The state with the engine of cell `c` idle and its lane flags in the thread of its command (R136, R137). -/
def State.vecEnded (s : State) (c : Nat) (k : EngineCmd) : State :=
  (s.setCell c { s.cell c with vec := VecState.idle }).modThread c k.thread (fun h => h.orSticky (s.cell c).vec.allFlags)

theorem State.cell_vecEnded (s : State) (c : Nat) (k : EngineCmd) : (s.vecEnded c k).cell c =
    ({ s.cell c with vec := VecState.idle } : Cell).setThread k.thread ((s.thread c k.thread).orSticky (s.cell c).vec.allFlags) := by
  rw [State.vecEnded, State.cell_modThread, State.thread, State.cell_setCell_same]
  rfl

theorem onlyCell_vecEnded (s : State) (c : Nat) (k : EngineCmd) : OnlyCell s (s.vecEnded c k) c :=
  (onlyCell_setCell s c _).trans (onlyThread_modThread _ _ _ _).1

theorem vectorComplete_ends {s : State} {c : Nat} {k : EngineCmd} (h : CellWorks s c) (runs : ThreadRuns s c) (cmd : (s.cell c).vec.cmd = some k)
    (ended : (s.cell c).vec.ended = true) (record : vbCountOff (s.cell c).vec.block = 0xFFFFFFFF) (silent : k.doneEn = false) :
    s.vectorComplete c = s.vecEnded c k := by
  have done : s.vectorComplete c = (s.vecEnded c k).completeCmd c k := by
    simp only [State.vectorComplete, h.active, cmd, ended, record]
    rfl
  have idle : ThreadRuns (s.setCell c { s.cell c with vec := VecState.idle }) c :=
    runs.of_threads (by rw [State.cell_setCell_same])
  rw [done]
  exact completeCmd_runs (idle.modThread k.thread fun _ => rfl) silent

theorem exec_vectorComplete {s : State} {c : Nat} {k : EngineCmd} (h : CellWorks s c) (runs : ThreadRuns s c)
    (cmd : (s.cell c).vec.cmd = some k) (ended : (s.cell c).vec.ended = true) (record : vbCountOff (s.cell c).vec.block = 0xFFFFFFFF)
    (silent : k.doneEn = false) : ∃ u, exec (.vectorComplete c) s = .next u ∧ OnlyCell s u c ∧
      u.cell c = ({ s.cell c with vec := VecState.idle } : Cell).setThread k.thread
        ((s.thread c k.thread).orSticky (s.cell c).vec.allFlags) := by
  have done := vectorComplete_ends h runs cmd ended record silent
  refine ⟨_, onCell_running c s (fun z => z.vectorComplete c) h.path h.cell, ?_, ?_⟩ <;> rw [done]
  · exact onlyCell_keepQueue (onlyCell_vecEnded s c k)
  · exact State.cell_vecEnded s c k

/-- Settles O24, row by row: each word issues and leaves the engine that its body gives, the pc past it; starting is read off what leaving
the queue moves, and completing off a cell whose threads still run. -/
theorem vectorInstructions : Obligations.VectorInstructions := by
  unfold Obligations.VectorInstructions
  refine ⟨fun s c k h head idle may aligned inside reach clean rsv sound buffers => ?_,
    fun s c w o f h rsv => exec_vecFloatOp f h rsv, fun s c w o f h rsv => exec_vecIntOp f h rsv,
    fun s c w k f h mask => exec_vecCompare k f h mask, fun s c w k h pointer sound => ?_, fun s c w h tile held => ?_,
    fun s c w o h ok rsv => exec_vecConvert h ok rsv, fun s c w k h => exec_vecCrossLane_permute k h, fun s c w h rsvA rsvB => ?_,
    fun s c w h rsv more => ?_, fun s c w h rsv last => exec_vnext_last h rsv last, fun s c w h rsv => ?_,
    fun s c k h runs cmd ended record silent => ?_⟩
  · obtain ⟨u, next, own, dram⟩ := exec_vectorCommandStart h head idle may ⟨aligned, inside, reach, clean, rfl, rsv, sound, buffers⟩
    exact ⟨u, next, own.vec, own.scratch, dram⟩
  · obtain ⟨u, tag, next, only, own⟩ := exec_vecScratchAccess_lineLoad k h pointer sound
    refine ⟨u, next, only, ?_, ?_, ?_, ?_⟩ <;> rw [own]
    · rw [Cell.vecDone_scratch]
    · rw [Cell.vecDone_pc, Cell.lineLoaded, VecState.useLine_pc, VecState.put_pc]
    · rw [Cell.vecDone_lineUse, Cell.lineLoaded, VecState.useLine_lineUse, VecState.put_lineUse]
    · rw [Cell.vecDone_regs, Cell.lineLoaded, VecState.useLine_regs]
      rfl
  · obtain ⟨u, next, only, own⟩ := exec_vecTileAccess_store h tile held
    refine ⟨u, next, only, ?_, fun t other => ?_, ?_, ?_, fun wf l lane on inside => ?_⟩ <;> rw [own]
    · rfl
    · exact tabFind_tabSet_other _ _ _ _ other
    · rfl
    · rfl
    · rw [tileBuffer_vecDone]
      exact VecState.read_tileStored _ wf lane on inside
  · obtain ⟨u, next, only, own⟩ := exec_vecRandomDraw h rsvA rsvB
    refine ⟨u, next, only, ?_, ?_, ?_⟩ <;> rw [own]
    · rw [Cell.vecDone_draws]
    · rw [Cell.vecDone_pc, VecState.put_pc]
    · rw [Cell.vecDone_regs]
      rfl
  · obtain ⟨u, next, only, own⟩ := exec_vnext_strip h rsv more
    refine ⟨u, next, only, ?_, ?_, ?_, ?_⟩ <;> rw [own]
    · rfl
    · rfl
    · exact tabGet_tabSet_same ..
    · exact BitVec.sub_add_cancel ..
  · obtain ⟨u, next, only, own⟩ := exec_vend h rsv
    refine ⟨u, next, only, ?_, ?_, ?_⟩ <;> rw [own] <;> rfl
  · obtain ⟨u, next, only, own⟩ := exec_vectorComplete h runs cmd ended record silent
    refine ⟨u, next, only, ?_, ?_, ?_⟩
    · rw [own]; rfl
    · rw [State.thread, own, Cell.thread_setThread_same]
    · rw [own]; rfl

end Sys2Proof.Machine

/-! # A SAMPLE command that leaves a full queue while the trace captures (R54, R65, R517, R519) -/

namespace Sys2Proof.Machine

/-- A sampler block (R150): the first and last segment of an fp32 vector at 0x1000, TOPK with `TOP_K` 1, `TEMP` and `TOP_P` 1.0, the
state area at 0x2000 and the result at 0x3000. -/
def wholeVectorBlock : List Byte :=
  [0#8, 0#8, 3#8, 0#8] ++ bytesLE 2 1 ++ bytesLE 2 0 ++ bytesLE 4 0x3F800000 ++ bytesLE 4 0x3F800000 ++ bytesLE 4 0x1000 ++ bytesLE 4 0
  ++ bytesLE 4 0x2000 ++ bytesLE 4 0x3000 ++ bytesLE 32 0

/-- The `seq`-th SAMPLE command of thread 0: one score, by the block at 0x100. -/
def topOneCmd (seq : Nat) : EngineCmd :=
  { engine := 4, opA := 0x100#64, opB := 1#64, imm := 0#24, semDone := 0, doneEn := false, waitEn := false, semWait := 0, serial := false,
    thread := 0, pc := 0#32, seq := seq, granted := true }

/-- A calendar (R69) whose slots are AUX_RD and AUX_WR by turns, each on every bank group. -/
def samplingCalendar : List Word := (List.replicate 8 [0x00000057#32, 0x0017C000#32]).flatten

/-- A launch that runs on cell 0. -/
def samplingLaunch : Launch :=
  { State.reset.newLaunch 0 [] ⟨0, 1, 0x10000, 64, false, false, [], 0, 0, 0, 0⟩ ⟨1, 0, 0, 64, 64, 64, [], []⟩ with
    phase := .running, cells := [0] }

/-- Cell 0 with two SAMPLE commands in the sampler's queue, which holds no more (R65), and thread 0 blocked on a third (R54). -/
def fullSamplerCell : Cell :=
  { Cell.reset with
    launch := some 1, calendar := samplingCalendar, queues := [(4, [topOneCmd 0, topOneCmd 1])]
    scratch := Memory.zero.write 0x100 wholeVectorBlock
    threads := [(0, { Thread.idle with status := .blocked, waits := .engine (topOneCmd 2) })] }

/-- The device with that cell, its trace armed for records of kind 4, an engine command accepted (R517, R518). -/
def tracedSampler : State :=
  { (State.reset.setEntry 0x8021 0 (2 ^ 4)).traceArm with launches := [(1, samplingLaunch)], cells := [(0, fullSamplerCell)] }

theorem tracedSampler_works : CellWorks tracedSampler 0 := by constructor <;> decide +kernel

/-- The bytes of the block that the head command names. -/
theorem tracedSampler_block : (tracedSampler.cell 0).scratch.read (topOneCmd 0).opA.toNat 64 = wholeVectorBlock := by decide +kernel

/-- The trace records that are staged in what a command answers. -/
def stagedAfter : Res → List (List Byte)
  | .next t => t.tracer.staged.flatMap (·.2)
  | _ => []

theorem tracedSampler_unstaged : stagedAfter (.next tracedSampler) = [] := by decide +kernel

/-- Taking the head off the full queue accepts the blocked thread's command, and the trace stages the record of it. -/
theorem sampleStart_stages : (stagedAfter (exec (.sampleStart 0) tracedSampler)).length = 1 := by decide +kernel

/-- Refutes O26: SAMPLE_START makes room in a full queue, so the command of the thread blocked on it is accepted, and a trace that captures
such events stages a record of it; the statement lets nothing but cells and counters change. -/
theorem not_samplerAndBagCommands : ¬ Obligations.SamplerAndBagCommands := by
  unfold Obligations.SamplerAndBagCommands
  rintro ⟨start, -⟩
  obtain ⟨u, answer, only, -⟩ := start tracedSampler 0 (topOneCmd 0) tracedSampler_works (by decide +kernel) (by decide +kernel)
    (by decide +kernel) (by decide +kernel) (by decide +kernel) (by decide +kernel) (by decide +kernel)
    (by rw [tracedSampler_block]; decide +kernel) (by rw [tracedSampler_block]; decide +kernel)
    (by rw [tracedSampler_block]; exact fun later => absurd later (by decide +kernel))
  have staged := sampleStart_stages
  have kept : u.tracer = tracedSampler.tracer := by rw [only.1]
  have same : stagedAfter (.next u) = stagedAfter (.next tracedSampler) := by rw [stagedAfter, kept, stagedAfter]
  rw [answer, same, tracedSampler_unstaged] at staged
  contradiction

end Sys2Proof.Machine

/-! # A PUBLISH that fetches a pinned row (R194, R196, R256) -/

namespace Sys2Proof.Machine

/-- A table of 100 rows of 16 fp32 elements, row 0 of it pinned, with four FREE slots. -/
def pinnedTable : TableDesc :=
  { record := bytesLE 2 0 ++ bytesLE 2 16 ++ bytesLE 4 0 ++ bytesLE 8 100, tverLast := 0, slots := List.replicate 4 VerSlot.none, pins := [0] }

/-- A PUBLISH of that table (R196, R279): `TVER` 1 from epoch 1 on, its rows at the start of the context's page 1. -/
def publishPinned : List Byte :=
  bytesLE 1 2 ++ bytesLE 1 0 ++ bytesLE 1 5 ++ bytesLE 61 0
    ++ (bytesLE 4 16 ++ bytesLE 2 3 ++ bytesLE 2 0 ++ bytesLE 8 1 ++ bytesLE 8 1 ++ bytesLE 8 0x10000 ++ bytesLE 8 0)

/-- The table's group, of this member alone (R224). -/
def loneGroup : Group := groupOf 0 0 (bytesLE 4 5 ++ bytesLE 2 0 ++ bytesLE 2 1 ++ bytesLE 24 0)

/-- Queue 5 of context 1 holds that command; the context's page 1 lies in quarter 0. -/
def pinnedPublisher : State :=
  { State.reset with
    contexts := [(1, { Context.unused with used := true, leaves := [(1, mkPte 0x30000 7)] })]
    quarters := [(0, ⟨0, 1, 0, 0, 0⟩)]
    groups := [(16, loneGroup)]
    tables := [(tableKey 16 3, pinnedTable)]
    queues := [(5, { Queue.free with status := .active, context := 1, log2Slots := 6, ringOff := 0x100000, tail := 1#64 })]
    host := { State.reset.host with fn := .active, bme := true }
    dram := Memory.zero.write 0x6000100000 publishPinned }

theorem pinnedPublisher_head : QueueHead pinnedPublisher 5 2 (pinnedPublisher.slotOf 5) := by
  constructor <;> decide +kernel

/-- The sectors fetched from each quarter, as what a command answers counts them (R256). -/
def fetchedAfter : Res → List Nat
  | .next t => t.quarters.map (·.2.fetched)
  | _ => []

theorem pinnedPublisher_fetches : fetchedAfter (exec (.publish 5) pinnedPublisher) = [1] := by decide +kernel

/-- Refutes O29: a PUBLISH fetches the row pinned in the slot it fills, and the sector read counts for the heat of its quarter; the
statement lets no quarter change. -/
theorem not_tablesRegisterPublishAndRelease : ¬ Obligations.TablesRegisterPublishAndRelease := by
  unfold Obligations.TablesRegisterPublishAndRelease
  rintro ⟨-, -, -, -, -, publish, -⟩
  obtain ⟨u, answer, -, only, -⟩ := publish pinnedPublisher 5 0 _ loneGroup pinnedTable pinnedPublisher_head (by decide +kernel) (by decide +kernel)
    (by decide +kernel) (by decide +kernel) (by decide +kernel)
  have kept : u.quarters = pinnedPublisher.quarters := by rw [only]
  have fetched := pinnedPublisher_fetches
  rw [answer, fetchedAfter, kept] at fetched
  contradiction

end Sys2Proof.Machine

/-! # Embedding lookups: intake, row requests and row service (R158, R160, R164, R170–R172, R189–R192, R206, R244) -/

namespace Sys2Proof.Machine

/-! ## Commands that count -/

theorem CountOnly.refl (s : State) : CountOnly s s := rfl
theorem CountOnly.trans {s u v : State} (h : CountOnly s u) (k : CountOnly u v) : CountOnly s v := by
  unfold CountOnly at *; rw [k]; rw [h]
theorem CountOnly.count {s u : State} (h : CountOnly s u) (o n : Nat) : CountOnly s (u.count o n) :=
  h.trans (by unfold CountOnly; rw [State.count_eq])
theorem CountOnly.countFull {s u : State} (h : CountOnly s u) (o n : Nat) : CountOnly s (u.countFull o n) :=
  h.trans (by unfold CountOnly; rw [State.countFull_eq])
theorem CountOnly.bump {s u : State} (h : CountOnly s u) (i j n : Nat) : CountOnly s (u.bump i j n) :=
  h.trans (by unfold CountOnly; rw [State.bump_eq])

/-- A state that stands but for the counts is what a gate answers, where the queue of waiting commands stands too. -/
theorem CountOnly.answered {s z u : State} {r : Res} (h : CountOnly z u) (kept : keepQueue s z = z) (runs : r = .next (keepQueue s u)) :
    ∃ v, r = .next v ∧ CountOnly z v := by
  refine ⟨u, ?_, h⟩
  have queue : keepQueue s u = { keepQueue s z with dict := u.dict, counters := u.counters } := by rw [h]; rfl
  rw [runs, queue, kept, ← h]

/-! ## Row caches -/

/-- The row caches and the counts may have changed, and each forager's `kept` part stands. -/
structure CachesOnly {α : Type} (kept : Forager → α) (s u : State) : Prop where
  rest : CountOnly { s with foragers := u.foragers } u
  keeps : ∀ k, kept (u.forager k) = kept (s.forager k)

section
variable {α : Type} {kept : Forager → α}

theorem CachesOnly.refl (s : State) : CachesOnly kept s s := ⟨rfl, fun _ => rfl⟩

theorem CachesOnly.trans {s u v : State} (h : CachesOnly kept s u) (k : CachesOnly kept u v) : CachesOnly kept s v := by
  refine ⟨?_, fun j => (k.keeps j).trans (h.keeps j)⟩
  have first := h.rest
  have second := k.rest
  unfold CountOnly at *
  rw [second]; rw [first]

theorem CachesOnly.of_count {s u : State} (h : CountOnly s u) : CachesOnly kept s u :=
  ⟨by unfold CountOnly at *; rw [h], fun k => by rw [h]; rfl⟩

theorem cachesOnly_setForager (s : State) (k : Nat) (f : Forager) (same : kept f = kept (s.forager k)) :
    CachesOnly kept s (s.setForager k f) := by
  refine ⟨rfl, fun j => ?_⟩
  by_cases e : j = k
  · subst e
    exact (congrArg kept (tabGet_tabSet_same ..)).trans same
  · exact congrArg kept (tabGet_tabSet_other _ _ _ _ _ e)

/-- Adding a multiplicity changes one counter of one line (R172). -/
theorem cachesOnly_addMult (lines : ∀ (f : Forager) (l : Table RcLine), kept { f with lines := l } = kept f) (s : State) (pa e m : Nat) :
    CachesOnly kept s (s.addMult pa e m) := by
  refine cachesOnly_setForager _ _ _ ?_
  dsimp only
  split
  · exact lines _ _
  · rfl

end

theorem addMult_serve {s : State} {pa e key : Nat} {line : RcLine} (served : (s.forager (stackOf pa)).serve (pa / 64) e = some (key, line))
    (m : Nat) : s.addMult pa e m = { s with
      foragers := tabSet s.foragers (stackOf pa) { s.forager (stackOf pa) with
        lines := tabSet (s.forager (stackOf pa)).lines key { line with counter := min 255 (line.counter + m) } } } := by
  rw [State.addMult, State.modForager, served, State.setForager]

theorem Forager.place_sketch (f : Forager) (vs : List (Nat × RcLine)) (l : RcLine) : (f.place vs l).sketch = f.sketch := by
  unfold Forager.place
  dsimp only
  split <;> rfl

theorem cachesOnly_placeLine (s : State) (k : Nat) (vs : List (Nat × RcLine)) (l : RcLine) :
    CachesOnly Forager.sketch s (s.placeLine k vs l) := by
  have counts : CountOnly (s.setForager k ((s.forager k).place vs l)) (s.placeLine k vs l) := by
    unfold State.placeLine
    exact (((CountOnly.refl _).count ..).countFull ..).bump ..
  exact (cachesOnly_setForager s k _ (Forager.place_sketch ..)).trans (.of_count counts)

/-- Admission places a line or counts a bypass; either way the sketch stands (R191). -/
theorem cachesOnly_admitRow (s : State) (k p addr : Nat) (row : RowData) (pin : Bool) :
    CachesOnly Forager.sketch s (s.admitRow k p addr row pin) := by
  have bypass : CachesOnly Forager.sketch s (s.bump 0x4203 (k + 1) 1) := .of_count ((CountOnly.refl s).bump ..)
  unfold State.admitRow
  dsimp only
  split
  · exact cachesOnly_placeLine ..
  · split
    · exact bypass
    · split
      · exact cachesOnly_placeLine ..
      · exact bypass

/-- Late multiplicities change lines and sketches alone (R172, R191). -/
theorem cachesOnly_lateMults (s : State) (e : Nat) (old new : List Fetch) :
    CachesOnly (fun f => (f.turn, f.deficits)) s (s.lateMults e old new) := by
  have late : ∀ (z : State) (x : Fetch) (pa m : Nat), CachesOnly (fun f => (f.turn, f.deficits)) z (z.lateMult e x pa m) := by
    intro z x pa m
    refine CachesOnly.trans ?_ (cachesOnly_addMult (fun _ _ => rfl) _ pa e m)
    split
    · exact cachesOnly_setForager _ _ _ rfl
    · exact .refl z
  refine foldl_related (R := CachesOnly (fun f => (f.turn, f.deficits))) .refl .trans (fun z p => ?_) _ _
  split
  · exact late ..
  · exact late ..
  · exact .refl z

/-- What `RC_MISS_FILL` does to the row cache of a stack whose row has come (R188, R191). -/
def State.filled (s : State) (w : BagWork) (x : Fetch) (d : TableDesc) (pa : Nat) : State :=
  let z := s.modForager (stackOf pa) (fun f => f.sketchAdd (pa / 64) x.mult)
  if (z.forager (stackOf pa)).lines.any (fun l => l.2.addr == pa / 64 && l.2.ref == 0) then z.addMult pa w.epoch x.mult
  else z.admitRow (stackOf pa) w.partition (pa / 64) (s.rowInDram pa (rowStride d.record)) (d.pins.contains x.row)

theorem filled_rest (s : State) (w : BagWork) (x : Fetch) (d : TableDesc) (pa : Nat) :
    CountOnly { s with foragers := (s.filled w x d pa).foragers } (s.filled w x d pa) ∧
      ((s.filled w x d pa).forager (stackOf pa)).sketch = ((s.forager (stackOf pa)).sketchAdd (pa / 64) x.mult).sketch := by
  have fills : CachesOnly Forager.sketch (s.modForager (stackOf pa) (fun f => f.sketchAdd (pa / 64) x.mult)) (s.filled w x d pa) := by
    unfold State.filled
    dsimp only
    split
    · exact cachesOnly_addMult (fun _ _ => rfl) ..
    · exact cachesOnly_admitRow ..
  exact ⟨fills.rest, (fills.keeps _).trans (congrArg Forager.sketch (tabGet_tabSet_same ..))⟩

/-! ## Fetches of a work -/

/-- Work `w` with its fetch `i` changed by `g`. -/
def BagWork.modFetch (w : BagWork) (i : Nat) (g : Fetch → Fetch) : BagWork := { w with fetches := w.fetches.modify i g }

/-- Fetch `y` placed at `pa` and served from a row. -/
def Fetch.serve (pa : Nat) (row : RowData) (y : Fetch) : Fetch := { y with place := some pa, state := .served row }

/-- Fetch `y` placed at `pa`, where no line of the row cache serves it. -/
def Fetch.misses (pa : Nat) (y : Fetch) : Fetch := { y with place := some pa, miss := true, state := .missed pa }

/-- What sets the state of a fetch does not depend on the state that it had. -/
theorem BagWork.modFetch_setFetch (w : BagWork) (i : Nat) (st : FetchState) {g : Fetch → Fetch} (overwrites : ∀ y, g { y with state := st } = g y) :
    (w.setFetch i st).modFetch i g = w.modFetch i g := by
  have same : g ∘ (fun y : Fetch => { y with state := st }) = g := funext overwrites
  rw [BagWork.modFetch, BagWork.setFetch, List.modify_modify_eq, same, BagWork.modFetch]

/-- Serving a fetch leaves it served; the images may count it and the header of its row is checked (R164, R254). -/
theorem countOnly_serveFetch (s : State) (id i : Nat) (w : BagWork) (k pa : Nat) (row : RowData) (r : List Byte) :
    ∃ im, CountOnly { s with works := tabSet s.works id (w.modFetch i (Fetch.serve pa row)), images := im } (s.serveFetch id i w k pa row r) := by
  have noted : ∀ z : State, ∃ im, z.noteFetch w k = { z with images := im } := by
    intro z
    unfold State.noteFetch
    split
    · exact ⟨_, rfl⟩
    · exact ⟨_, rfl⟩
  obtain ⟨im, note⟩ := noted (s.setWork id (w.modFetch i (Fetch.serve pa row)))
  refine ⟨im, ?_⟩
  have first : CountOnly { s with works := tabSet s.works id (w.modFetch i (Fetch.serve pa row)), images := im }
      ((s.setWork id (w.modFetch i (Fetch.serve pa row))).noteFetch w k) := by rw [note]; rfl
  unfold State.serveFetch
  dsimp only
  split
  · exact first
  · exact first.bump ..

/-! ## ROW_REQUEST -/

section
variable {z : State} {id i pa : Nat} {v : BagWork} {x : Fetch} {d : TableDesc} {ctx : Nat}
  (hit : z.xlate (tlbForager x.forager) ctx x.va .read = .hit pa) (populated : z.populated pa = true)
include hit populated

theorem requestRow_served {key : Nat} {line : RcLine} (served : (z.forager (stackOf pa)).serve (pa / 64) v.epoch = some (key, line)) :
    ∃ t im, CountOnly { z with
      works := tabSet z.works id (v.modFetch i (Fetch.serve pa line.row))
      foragers := tabSet z.foragers (stackOf pa) { z.forager (stackOf pa) with
        lines := tabSet (z.forager (stackOf pa)).lines key { line with counter := min 255 (line.counter + x.mult) } }
      tlbs := t, images := im } (z.requestRow id i v x d ctx) := by
  have touched : ((z.tlbTouch (tlbForager x.forager) ctx x.va).forager (stackOf pa)).serve (pa / 64) v.epoch = some (key, line) := by
    rw [State.tlbTouch_eq]; exact served
  obtain ⟨im, counts⟩ := countOnly_serveFetch ((z.tlbTouch (tlbForager x.forager) ctx x.va).addMult pa v.epoch x.mult) id i v (stackOf pa) pa
    line.row d.record
  refine ⟨(z.tlbTouch (tlbForager x.forager) ctx x.va).tlbs, im, ?_⟩
  have goes : z.requestRow id i v x d ctx = (((((z.tlbTouch (tlbForager x.forager) ctx x.va).addMult pa v.epoch x.mult).serveFetch id i v
      (stackOf pa) pa line.row d.record).bump 0x4201 (stackOf pa + 1) 1).countFull (0x40000 + 0x400 * stackOf pa) line.row.bytes.length).count
      (8 * (8 + 2 * stackOf pa)) line.row.bytes.length := by
    unfold State.requestRow
    simp only [hit, populated, touched, Bool.not_true, Bool.false_eq_true, if_false]
  rw [goes]
  refine CountOnly.trans ?_ (((counts.bump ..).countFull ..).count ..)
  rw [addMult_serve touched, State.tlbTouch_eq]
  rfl

theorem requestRow_missed (missed : (z.forager (stackOf pa)).serve (pa / 64) v.epoch = none) :
    ∃ t, CountOnly { z with works := tabSet z.works id (v.modFetch i (Fetch.misses pa)), tlbs := t } (z.requestRow id i v x d ctx) := by
  have touched : ((z.tlbTouch (tlbForager x.forager) ctx x.va).forager (stackOf pa)).serve (pa / 64) v.epoch = none := by
    rw [State.tlbTouch_eq]; exact missed
  refine ⟨(z.tlbTouch (tlbForager x.forager) ctx x.va).tlbs, ?_⟩
  have goes : z.requestRow id i v x d ctx = (((z.tlbTouch (tlbForager x.forager) ctx x.va).setWork id (v.modFetch i (Fetch.misses pa))).bump
      0x4202 (stackOf pa + 1) 1).countFull (0x40000 + 0x400 * stackOf pa + 8 * 3) 1 := by
    unfold State.requestRow
    simp only [hit, populated, touched, Bool.not_true, Bool.false_eq_true, if_false]
    rfl
  rw [goes]
  refine CountOnly.trans ?_ (((CountOnly.refl _).bump ..).countFull ..)
  rw [State.tlbTouch_eq]
  rfl

end

/-- Fetch `x`, number `n` of work `id`, issued on a slot of its slice, and counted (R158, R186). -/
def State.slotTaken (s : State) (id n : Nat) (w : BagWork) (x : Fetch) : State :=
  ((s.setWork id (w.setFetch n .issued)).bump 0x4102 (x.forager + 1) 1).countFull (0x40000 + 0x400 * x.forager + 8 * (37 + w.partition)) 1

theorem countOnly_slotTaken (s : State) (id n : Nat) (w : BagWork) (x : Fetch) :
    CountOnly { s with works := tabSet s.works id (w.setFetch n .issued) } (s.slotTaken id n w x) :=
  ((CountOnly.refl (s.setWork id (w.setFetch n .issued))).bump ..).countFull ..

section
variable {s : State} {id n : Nat} {w : BagWork} {x : Fetch} {d : TableDesc} {sl : VerSlot} (h : FetchAt s id n w x d sl)
include h

/-- A fetch that gets a slot takes it, and goes on unless a patch holds it (R158, R206). -/
theorem rowRequest_takes (waiting : x.state = .waiting) (runs : s.workRuns w = true) (slot : s.slotFree w x = true)
    (free : s.bagStalled id n w x = false) : s.rowRequest id n =
      if s.patchHolds w.handle x.table x.slot x.row w.epoch then s.slotTaken id n w x
      else (s.slotTaken id n w x).requestRow id n (w.setFetch n .issued) x d sl.context := by
  have holds : (s.slotTaken id n w x).patchHolds w.handle x.table x.slot x.row w.epoch = s.patchHolds w.handle x.table x.slot x.row w.epoch := by
    rw [countOnly_slotTaken s id n w x]; rfl
  rw [← holds]
  simp only [State.rowRequest, h.work, h.fetch, h.slot, waiting, runs, slot, free, Bool.not_true, Bool.or_self, Bool.false_eq_true, if_false]
  rfl

/-- A fetch that takes its slot, or holds one, goes to the owning forager: only the counts and its own state have changed (R158, R160). -/
theorem rowRequest_goes (may : x.state = .issued ∨ (x.state = .waiting ∧ s.workRuns w = true ∧ s.slotFree w x = true))
    (free : s.bagStalled id n w x = false) (open_ : s.patchHolds w.handle x.table x.slot x.row w.epoch = false) :
    ∃ (z : State) (v : BagWork), s.rowRequest id n = z.requestRow id n v x d sl.context ∧ CountOnly { s with works := z.works } z ∧
      (∀ a, tabSet z.works id a = tabSet s.works id a) ∧ v.epoch = w.epoch ∧
      ∀ g : Fetch → Fetch, (∀ y, g { y with state := .issued } = g y) → v.modFetch n g = w.modFetch n g := by
  rcases may with issued | ⟨waiting, runs, slot⟩
  · refine ⟨s, w, ?_, .refl s, fun _ => rfl, rfl, fun _ _ => rfl⟩
    simp only [State.rowRequest, h.work, h.fetch, h.slot, issued, open_, free, Bool.or_self, Bool.false_eq_true, if_false]
  · have counts := countOnly_slotTaken s id n w x
    have works : (s.slotTaken id n w x).works = tabSet s.works id (w.setFetch n .issued) := by rw [counts]
    refine ⟨s.slotTaken id n w x, w.setFetch n .issued, ?_, works ▸ counts, fun a => by rw [works, tabSet_tabSet_same], rfl,
      fun _ => w.modFetch_setFetch n _⟩
    rw [rowRequest_takes h waiting runs slot free, open_]
    exact if_neg Bool.false_ne_true

/-- A fetch behind an unresolved patch takes its slot and waits with it (R206). -/
theorem exec_rowRequest_held (waiting : x.state = .waiting) (runs : s.workRuns w = true) (slot : s.slotFree w x = true)
    (free : s.bagStalled id n w x = false) (holds : s.patchHolds w.handle x.table x.slot x.row w.epoch = true) :
    ∃ u, exec (.rowRequest id n) s = .next u ∧
      u = { s with works := tabSet s.works id (w.setFetch n .issued), dict := u.dict, counters := u.counters } := by
  have counts := countOnly_slotTaken s id n w x
  have stays : s.rowRequest id n = s.slotTaken id n w x := by
    rw [rowRequest_takes h waiting runs slot free, holds]
    rfl
  rw [← stays] at counts
  exact counts.answered rfl (onPath_running s _ h.path)

section
variable {pa : Nat} (may : x.state = .issued ∨ (x.state = .waiting ∧ s.workRuns w = true ∧ s.slotFree w x = true))
  (free : s.bagStalled id n w x = false) (open_ : s.patchHolds w.handle x.table x.slot x.row w.epoch = false)
  (hit : s.xlate (tlbForager x.forager) sl.context x.va .read = .hit pa) (populated : s.populated pa = true)
include may free open_ hit populated

theorem exec_rowRequest_served {key : Nat} {line : RcLine} (served : (s.forager (stackOf pa)).serve (pa / 64) w.epoch = some (key, line)) :
    ∃ u, exec (.rowRequest id n) s = .next u ∧ u = { s with
      works := tabSet s.works id (w.modFetch n (Fetch.serve pa line.row))
      foragers := tabSet s.foragers (stackOf pa) { s.forager (stackOf pa) with
        lines := tabSet (s.forager (stackOf pa)).lines key { line with counter := min 255 (line.counter + x.mult) } }
      tlbs := u.tlbs, images := u.images, dict := u.dict, counters := u.counters } := by
  obtain ⟨z, v, goes, counts, works, epoch, same⟩ := rowRequest_goes h may free open_
  have hit' : z.xlate (tlbForager x.forager) sl.context x.va .read = .hit pa := by rw [counts]; exact hit
  have populated' : z.populated pa = true := by rw [counts]; exact populated
  have served' : (z.forager (stackOf pa)).serve (pa / 64) v.epoch = some (key, line) := by rw [epoch, counts]; exact served
  obtain ⟨t, im, all⟩ := requestRow_served (id := id) (i := n) (d := d) hit' populated' served'
  rw [works, same _ fun _ => rfl, ← goes] at all
  rw [counts] at all
  obtain ⟨u, answer, only⟩ := CountOnly.answered (r := exec (.rowRequest id n) s)
    (z := { s with works := _, foragers := _, tlbs := t, images := im }) all rfl (onPath_running s _ h.path)
  exact ⟨u, answer, by rw [only]; rfl⟩

theorem exec_rowRequest_missed (missed : (s.forager (stackOf pa)).serve (pa / 64) w.epoch = none) :
    ∃ u, exec (.rowRequest id n) s = .next u ∧ u = { s with
      works := tabSet s.works id (w.modFetch n (Fetch.misses pa)), tlbs := u.tlbs, dict := u.dict, counters := u.counters } := by
  obtain ⟨z, v, goes, counts, works, epoch, same⟩ := rowRequest_goes h may free open_
  have hit' : z.xlate (tlbForager x.forager) sl.context x.va .read = .hit pa := by rw [counts]; exact hit
  have populated' : z.populated pa = true := by rw [counts]; exact populated
  have missed' : (z.forager (stackOf pa)).serve (pa / 64) v.epoch = none := by rw [epoch, counts]; exact missed
  obtain ⟨t, all⟩ := requestRow_missed (id := id) (i := n) (d := d) hit' populated' missed'
  rw [works, same _ fun _ => rfl, ← goes] at all
  rw [counts] at all
  obtain ⟨u, answer, only⟩ := CountOnly.answered (r := exec (.rowRequest id n) s) (z := { s with works := _, tlbs := t }) all rfl
    (onPath_running s _ h.path)
  exact ⟨u, answer, by rw [only]⟩

end

/-! ## RC_MISS_FILL and ROW_SECTORS_RETURN -/

theorem exec_rcMissFill {pa : Nat} (missed : x.state = .missed pa) (open_ : s.stackOpen pa = true) :
    ∃ u, exec (.rcMissFill id n) s = .next u ∧ u = { s with
      works := tabSet s.works id (w.modFetch n (Fetch.serve pa (s.rowInDram pa (rowStride d.record))))
      foragers := u.foragers, images := u.images, quarters := u.quarters, dict := u.dict, counters := u.counters } ∧
      (u.forager (stackOf pa)).sketch = ((s.forager (stackOf pa)).sketchAdd (pa / 64) x.mult).sketch := by
  obtain ⟨rest, sketch⟩ := filled_rest s w x d pa
  obtain ⟨im, serves⟩ := countOnly_serveFetch (s.filled w x d pa) id n w (stackOf pa) pa (s.rowInDram pa (rowStride d.record)) d.record
  have fills : s.rcMissFill id n = (((s.filled w x d pa).serveFetch id n w (stackOf pa) pa (s.rowInDram pa (rowStride d.record)) d.record).noteSectors
      pa ((s.rowInDram pa (rowStride d.record)).bytes.length / 64)) := by
    simp only [State.rcMissFill, h.work, h.fetch, h.slot, missed, open_, Bool.not_true, Bool.false_eq_true, if_false]
    rfl
  generalize (s.filled w x d pa).serveFetch id n w (stackOf pa) pa (s.rowInDram pa (rowStride d.record)) d.record = z at serves fills
  generalize s.filled w x d pa = y at rest sketch serves
  have all : CountOnly { s with
      works := tabSet s.works id (w.modFetch n (Fetch.serve pa (s.rowInDram pa (rowStride d.record)))), foragers := y.foragers, images := im
      quarters := (s.rcMissFill id n).quarters } (s.rcMissFill id n) := by
    rw [rest] at serves
    rw [fills, State.noteSectors]
    unfold CountOnly
    rw [serves]
  obtain ⟨u, answer, only⟩ := all.answered (r := exec (.rcMissFill id n) s) rfl (onPath_running s _ h.path)
  have caches : u.foragers = y.foragers := by rw [only]
  exact ⟨u, answer, by rw [only], by rw [State.forager, caches]; exact sketch⟩

theorem exec_rowSectorsReturn {row : RowData} (served : x.state = .served row) (runs : s.workRuns w = true) :
    ∃ u, exec (.rowSectorsReturn id n) s = .next u ∧
      u = { s with works := tabSet s.works id (w.setFetch n (.done row)), dict := u.dict, counters := u.counters } := by
  have counts : CountOnly { s with works := tabSet s.works id (w.setFetch n (.done row)) } (s.rowSectorsReturn id n) := by
    simp only [State.rowSectorsReturn, h.work, h.fetch, h.slot, served, runs, Bool.not_true, Bool.false_eq_true, if_false]
    split
    · exact .refl _
    · exact (CountOnly.refl _).bump ..
  exact counts.answered rfl (onPath_running s _ h.path)

end

/-! ## LOOKUP_INTAKE -/

theorem countOnly_countBag (s : State) (f k p : Nat) (b : RawBag) (made : Nat) : CountOnly s (s.countBag f k p b made) := by
  unfold State.countBag
  exact ((((((((CountOnly.refl s).bump ..).bump ..).bump ..).countFull ..).countFull ..).countFull ..).countFull ..).bump ..

/-- The pages of a bag touched, the round-robin past it, and the bag opened on its slice (R158, R244). -/
def State.bagOpened (s : State) (f id sl : Nat) (w : BagWork) (segs : List Seg) (bag : Nat) (ds : Table Nat) (b : RawBag) (rows : Nat × Nat) : State :=
  (((s.bagPages (tlbForager f) w segs bag).foldl (fun (acc : State) p => acc.touchSpan (tlbForager f) p.1 p.2.1 p.2.2) s).modForager f
    (fun x => { x with turn := w.partition, deficits := ds })).setWork id (w.openBag f sl b rows)

theorem bagOpened_eq (s : State) (f id sl : Nat) (w : BagWork) (segs : List Seg) (bag : Nat) (ds : Table Nat) (b : RawBag) (rows : Nat × Nat) :
    ∃ t, s.bagOpened f id sl w segs bag ds b rows = { s with
      works := tabSet s.works id (w.openBag f sl b rows)
      foragers := tabSet s.foragers f { s.forager f with turn := w.partition, deficits := ds }, tlbs := t } := by
  have touches : TlbsOnly s ((s.bagPages (tlbForager f) w segs bag).foldl (fun (acc : State) p =>
      acc.touchSpan (tlbForager f) p.1 p.2.1 p.2.2) s) :=
    foldl_related (R := TlbsOnly) TlbsOnly.refl TlbsOnly.trans (fun z p => tlbsOnly_touchSpan z ..) _ _
  unfold State.bagOpened
  generalize (s.bagPages (tlbForager f) w segs bag).foldl (fun (acc : State) p => acc.touchSpan (tlbForager f) p.1 p.2.1 p.2.2) s = y at touches ⊢
  exact ⟨y.tlbs, by rw [touches]; rfl⟩

/-- Taking in a bag that reads whole opens it; the deficits of the round-robin that served it are the forager's (R158, R244). -/
theorem takeBag_opens {s : State} {f id sl bag : Nat} {w : BagWork} {segs : List Seg} {ds : Table Nat} {b : RawBag} {rows : Nat × Nat}
    (read : s.readBag (tlbForager f) w segs bag = .ok b)
    (room : s.outputRows (tlbForager f) w (segs.getD b.seg (segOf [] 0)) bag b.lookups.length = .ok rows) :
    ∃ c t, CountOnly { s with works := tabSet s.works id (w.openBag f sl b rows), foragers := c, tlbs := t } (s.takeBag f id sl w segs bag ds) ∧
      (tabGet Forager.idle c f).turn = w.partition ∧ (tabGet Forager.idle c f).deficits = ds := by
  have takes : s.takeBag f id sl w segs bag ds = ((s.bagOpened f id sl w segs bag ds b rows).countBag f sl w.partition b
      ((w.openBag f sl b rows).fetches.length - w.fetches.length)).lateMults w.epoch w.fetches (w.openBag f sl b rows).fetches := by
    simp only [State.takeBag, read, room]
    rfl
  obtain ⟨t, opened⟩ := bagOpened_eq s f id sl w segs bag ds b rows
  have late := (CachesOnly.of_count (countOnly_countBag (s.bagOpened f id sl w segs bag ds b rows) f sl w.partition b
    ((w.openBag f sl b rows).fetches.length - w.fetches.length))).trans (cachesOnly_lateMults _ w.epoch w.fetches (w.openBag f sl b rows).fetches)
  rw [← takes, opened] at late
  have kept := (late.keeps f).trans (congrArg (fun x : Forager => (x.turn, x.deficits)) (tabGet_tabSet_same ..))
  exact ⟨(s.takeBag f id sl w segs bag ds).foragers, t, late.rest, congrArg Prod.fst kept, congrArg Prod.snd kept⟩

theorem exec_lookupIntake {s : State} {f id i j n sl : Nat} {w : BagWork} {segs : List Seg} {g : Seg} {ds : Table Nat} {b : RawBag}
    {rows : Nat × Nat} (path : s.running = true) (hf : f < 4) (work : s.work? id = some w) (runs : s.workRuns w = true)
    (goes : s.stalled (.bag f id 0) = false) (next : w.nextBag f = some i) (block : s.readBlock (tlbForager f) w = .ok segs)
    (seg : segOfBag segs (w.first + i) = some (j, g)) (lookups : s.bagLookupCount (tlbForager f) w g (w.first + i - g.start) = .ok n)
    (slice : s.sliceFor f (s.tableWidth w.handle (g.table (w.first + i - g.start))) = some sl) (turn : s.drrTake f w.partition n = some ds)
    (read : s.readBag (tlbForager f) w segs (w.first + i) = .ok b)
    (room : s.outputRows (tlbForager f) w (segs.getD b.seg (segOf [] 0)) (w.first + i) b.lookups.length = .ok rows) :
    ∃ u, exec (.lookupIntake f id) s = .next u ∧ u = { s with
      works := tabSet s.works id (w.openBag f sl b rows), foragers := u.foragers, tlbs := u.tlbs, dict := u.dict, counters := u.counters } ∧
      (u.forager f).turn = w.partition ∧ (u.forager f).deficits = ds := by
  have takes : s.lookupIntake f id = s.takeBag f id sl w segs (w.first + i) ds := by
    simp only [State.lookupIntake, work, next, runs, goes, block, seg, lookups, slice, turn, Bool.not_true, Bool.or_self, Bool.false_eq_true,
      if_false]
  obtain ⟨c, t, opens, served⟩ := takeBag_opens (id := id) (sl := sl) (ds := ds) read room
  rw [← takes] at opens
  obtain ⟨u, answer, only⟩ := CountOnly.answered (r := exec (.lookupIntake f id) s)
    (z := { s with works := _, foragers := c, tlbs := t }) opens rfl (onStack_running f s _ path hf)
  have caches : u.foragers = c := by rw [only]
  refine ⟨u, answer, by rw [only], ?_⟩
  rw [State.forager, caches]
  exact served

/-! ## RC_DECAY_PASS -/

theorem exec_rcDecayPass {s : State} {f : Nat} (path : s.running = true) (hf : f < 4) :
    ∃ u, exec (.rcDecayPass f) s = .next u ∧ u = { s with foragers := u.foragers, manager := u.manager, dict := u.dict, counters := u.counters } ∧
      u.forager f = { s.forager f with
        lines := (s.forager f).lines.map (fun p => (p.1, { p.2 with counter := p.2.counter / 2 }))
        sketch := (s.forager f).sketch.filterMap (fun p => if p.2 / 2 = 0 then none else some (p.1, p.2 / 2)) } ∧
      ∀ k, k ≠ f → u.forager k = s.forager k := by
  have halves : ∃ x m, CountOnly { s with foragers := tabSet s.foragers f x, manager := m } (s.rcDecayPass f) ∧ x = { s.forager f with
      lines := (s.forager f).lines.map (fun p => (p.1, { p.2 with counter := p.2.counter / 2 }))
      sketch := (s.forager f).sketch.filterMap (fun p => if p.2 / 2 = 0 then none else some (p.1, p.2 / 2)) } :=
    ⟨_, _, ((CountOnly.refl _).bump ..).countFull .., rfl⟩
  obtain ⟨x, m, counts, own⟩ := halves
  obtain ⟨u, answer, only⟩ := counts.answered (r := exec (.rcDecayPass f) s) rfl (onStack_running f s _ path hf)
  have caches : u.foragers = tabSet s.foragers f x := by rw [only]
  refine ⟨u, answer, by rw [only], ?_, fun k ne => ?_⟩
  · rw [State.forager, caches, tabGet_tabSet_same, own]
  · rw [State.forager, caches, tabGet_tabSet_other _ _ _ _ _ ne, State.forager]

end Sys2Proof.Machine

/-! # Embedding lookups: commands that start, their slices and their end (R159, R165, R179, R182) -/

namespace Sys2Proof.Machine

/-! ## BAG_DISPATCH -/

/-- The pooling work in progress stands. -/
def WorksStand (s u : State) : Prop := u.works = s.works ∧ u.nextWork = s.nextWork

theorem WorksStand.trans {s u v : State} (h : WorksStand s u) (k : WorksStand u v) : WorksStand s v := ⟨k.1.trans h.1, k.2.trans h.2⟩

theorem worksStand_popCmd (s : State) (c e : Nat) : WorksStand s (s.popCmd c e) := by
  have waits : ∀ (z : State) (i n : Nat), WorksStand z (z.waitSem c i n (.engine e)) := by
    intro z i n
    unfold State.waitSem
    dsimp only
    split
    · exact ⟨rfl, rfl⟩
    · split <;> exact ⟨rfl, rfl⟩
  have arms : ∀ z : State, WorksStand z (z.armHead c e) := by
    intro z
    unfold State.armHead
    split
    · exact ⟨rfl, rfl⟩
    · split
      · exact ⟨rfl, rfl⟩
      · split
        · exact ⟨rfl, rfl⟩
        · exact waits ..
  have headed : ∀ z : State, WorksStand z ((z.stampHead c e).armHead c e) := fun z => WorksStand.trans ⟨rfl, rfl⟩ (arms (z.stampHead c e))
  unfold State.popCmd
  dsimp only
  split
  · refine WorksStand.trans ⟨?_, ?_⟩ (headed _)
    · rw [State.traceCell_works]; rfl
    · rw [State.traceCell_nextWork]; rfl
  · exact WorksStand.trans ⟨rfl, rfl⟩ (headed _)

/-- Work `w` opened for cell `c`, its command still at the head of the BAG queue. -/
def State.workListed (s : State) (c : Nat) (w : BagWork) : State :=
  { (s.modCell c (fun x => { x with bags := x.bags ++ [w.cmd] })).setWork s.nextWork w with nextWork := s.nextWork + 1 }

theorem State.cell_workListed (s : State) (c : Nat) (w : BagWork) :
    (s.workListed c w).cell c = { s.cell c with bags := (s.cell c).bags ++ [w.cmd] } :=
  State.cell_modCell_same s c (fun x => { x with bags := x.bags ++ [w.cmd] })

theorem State.cell_workListed_other (s : State) {c d : Nat} (w : BagWork) (ne : d ≠ c) : (s.workListed c w).cell d = s.cell d :=
  State.cell_modCell_other s c d (fun x => { x with bags := x.bags ++ [w.cmd] }) ne

theorem dequeues_openWork (s : State) (c : Nat) (w : BagWork) : Dequeues (s.workListed c w) (s.openWork c w) c :=
  (dequeues_popCmd (s.workListed c w) c 3).trans (dequeues_traceCell ..)

theorem worksStand_openWork (s : State) (c : Nat) (w : BagWork) : WorksStand (s.workListed c w) (s.openWork c w) :=
  (worksStand_popCmd (s.workListed c w) c 3).trans ⟨State.traceCell_works .., State.traceCell_nextWork ..⟩

theorem exec_bagDispatch {s : State} {c l h : Nat} {x : Launch} {k : EngineCmd} {g : Group} {e : DWord} (on : OnCell s c)
    (active : s.activeLaunch c = some (l, x)) (head : (s.cell c).head 3 = some k) (may : (s.cell c).mayStart k = true)
    (group : s.group? k.imm.toNat = some g) (named : x.groups.find? (fun p => p.1 == k.imm.toNat) = some (h, e))
    (own : g.partition = x.partition) (whole : g.split = 1) :
    ∃ u, exec (.bagDispatch c) s = .next u ∧ u.works = tabSet s.works s.nextWork (bagWork c c l x k e.toNat) ∧ u.nextWork = s.nextWork + 1 ∧
      (u.cell c).bags = (s.cell c).bags ++ [k] ∧ (u.cell c).scratch = (s.cell c).scratch ∧ u.dram = s.dram ∧ ∀ d, d ≠ c → u.cell d = s.cell d := by
  have opens : s.bagDispatch c = s.openWork c (bagWork c c l x k e.toNat) := by
    simp [State.bagDispatch, active, head, may, group, named, own, whole]
  have moves := dequeues_openWork s c (bagWork c c l x k e.toNat)
  have stand := worksStand_openWork s c (bagWork c c l x k e.toNat)
  rw [← opens] at moves stand
  refine ⟨_, onCell_running c s _ on.path on.cell, stand.1, stand.2, ?_, ?_, moves.dram, fun d ne => ?_⟩
  · rw [State.cell_keepQueue, moves.own, State.cell_workListed]
    rfl
  · rw [State.cell_keepQueue, moves.own, State.cell_workListed]
  · exact (moves.others d ne).trans (State.cell_workListed_other s _ ne)

/-! ## SLICE_WRITE -/

/-- Nothing but the scratchpad of cell `c` changed, which is `m` now. -/
structure Lands (s u : State) (c : Nat) (m : Memory) : Prop where
  rest : u = { s with cells := u.cells }
  others : ∀ d, d ≠ c → u.cell d = s.cell d
  own : u.cell c = { s.cell c with scratch := m }

theorem Lands.refl (s : State) (c : Nat) : Lands s s c (s.cell c).scratch := ⟨rfl, fun _ _ => rfl, rfl⟩

theorem Lands.trans {s u v : State} {c : Nat} {m n : Memory} (h : Lands s u c m) (k : Lands u v c n) : Lands s v c n := by
  refine ⟨?_, fun d ne => (k.others d ne).trans (h.others d ne), ?_⟩
  · rw [k.rest]; rw [h.rest]
  · rw [k.own, h.own]

/-- A write that the calendar reaches lands at once in a cell whose crossing holds none (R70). -/
theorem lands_land {s : State} {c off : Nat} {bs : List Byte} (empty : (s.cell c).ingress = [])
    (reach : calReaches (s.cell c).calendar .ingress off bs.length = true) (id : Nat) (po su : Bool) (t : Nat) (pc : Word) :
    Lands s (s.land c id off bs po su t pc) c ((s.cell c).scratch.store 64 off bs po su) := by
  have lands : s.land c id off bs po su t pc = s.setCell c { s.cell c with scratch := (s.cell c).scratch.store 64 off bs po su } := by
    rw [State.land, reach, State.ingest, State.modCell, empty, Cell.drainIngress]
    simp only [Bool.not_true, Bool.false_eq_true, if_false, List.nil_append, Cell.drainList, reach, if_true]
    rw [← empty]
  rw [lands]
  exact ⟨rfl, fun d ne => State.cell_setCell_other _ _ _ _ ne, State.cell_setCell_same ..⟩

/-- The output rows of a bag land in turn (R179). -/
theorem lands_outputs {c id : Nat} {g : Seg} {t : Nat} {pc : Word} {outs : List (Nat × List Byte × Bool × Bool)} {s : State}
    (empty : (s.cell c).ingress = [])
    (reach : ∀ o ∈ outs, calReaches (s.cell c).calendar .ingress (g.outOff + o.1 * g.outStride) o.2.1.length = true) :
    Lands s (outs.foldl (fun acc o => acc.land c id (g.outOff + o.1 * g.outStride) o.2.1 o.2.2.1 o.2.2.2 t pc) s) c
      (outs.foldl (fun (m : Memory) o => m.store 64 (g.outOff + o.1 * g.outStride) o.2.1 o.2.2.1 o.2.2.2) (s.cell c).scratch) := by
  induction outs generalizing s with
  | nil => exact .refl s c
  | cons o outs ih =>
    have first := lands_land empty (reach o List.mem_cons_self) id o.2.2.1 o.2.2.2 t pc
    have rest := ih (s := s.land c id (g.outOff + o.1 * g.outStride) o.2.1 o.2.2.1 o.2.2.2 t pc) (by rw [first.own]; exact empty)
      (by rw [first.own]; exact fun p mem => reach p (List.mem_cons_of_mem o mem))
    rw [first.own] at rest
    exact first.trans rest

theorem exec_sliceWrite {s : State} {id bag c : Nat} {w : BagWork} {b : OpenBag} {segs : List Seg} {d : TableDesc} (path : s.running = true)
    (work : s.work? id = some w) (found : w.bags.find? (fun b => b.bag == bag) = some b) (runs : s.workRuns w = true)
    (ready : w.bagReady b = true) (block : s.readBlock (tlbForager b.forager) w = .ok segs) {g : Seg} (seg : segs.getD b.seg (segOf [] 0) = g)
    (table : s.table? w.handle (g.table (bag - g.start)) = some d) (cell : w.cell = some c) (empty : (s.cell c).ingress = [])
    (reach : ∀ o ∈ w.outputs g d.record b s.free,
      calReaches (s.cell c).calendar .ingress (g.outOff + o.1 * g.outStride) o.2.1.length = true) :
    ∃ u, exec (.sliceWrite id bag) s = .next u ∧ u = { s with
      works := tabSet s.works id { w with bags := w.bags.filter (fun x => x.bag != bag), written := w.written + 1 }
      free := s.free + 1, cells := u.cells } ∧ (∀ e, e ≠ c → u.cell e = s.cell e) ∧
      u.cell c = { s.cell c with scratch := (w.outputs g d.record b s.free).foldl (fun (m : Memory) o =>
        m.store 64 (g.outOff + o.1 * g.outStride) o.2.1 o.2.2.1 o.2.2.2) (s.cell c).scratch } := by
  have writes : s.sliceWrite id bag = (w.outputs g d.record b s.free).foldl (fun acc o =>
      acc.land c id (g.outOff + o.1 * g.outStride) o.2.1 o.2.2.1 o.2.2.2 w.cmd.thread w.cmd.pc)
      { s with works := tabSet s.works id { w with bags := w.bags.filter (fun x => x.bag != bag), written := w.written + 1 }, free := s.free + 1 } := by
    simp only [State.sliceWrite, work, found, runs, ready, block, seg, table, cell, State.crossingRoom, empty, List.isEmpty_nil, Bool.true_or,
      Bool.not_true, Bool.or_self, Bool.false_eq_true, if_false]
    rfl
  have lands := lands_outputs (id := id) (t := w.cmd.thread) (pc := w.cmd.pc) (outs := w.outputs g d.record b s.free) (s := { s with
    works := tabSet s.works id { w with bags := w.bags.filter (fun x => x.bag != bag), written := w.written + 1 }, free := s.free + 1 })
    empty reach
  rw [← writes] at lands
  have stands : keepQueue s (s.sliceWrite id bag) = s.sliceWrite id bag := by
    refine keepQueue_of _ _ ?_ ?_ ?_ <;> rw [lands.rest]
  refine ⟨s.sliceWrite id bag, ?_, lands.rest, lands.others, lands.own⟩
  rw [← stands]
  exact onPath_running s _ path

/-! ## BAG_COMMAND_COMPLETE and FORAGER_ABANDON -/

/-- Cell `x` without the BAG command numbered `seq`. -/
def Cell.dropBag (seq : Nat) (x : Cell) : Cell := { x with bags := x.bags.filter (fun k => k.seq != seq) }

theorem exec_bagCommandComplete {s : State} {id c : Nat} {w : BagWork} (path : s.running = true) (work : s.work? id = some w)
    (runs : s.workRuns w = true) (written : w.count ≤ w.written) (cell : w.cell = some c) (landed : s.landed c (.forager id) = true)
    (silent : w.cmd.doneEn = false) (threads : ThreadRuns s c) :
    ∃ u, exec (.bagCommandComplete id) s = .next u ∧ u = { s with works := tabErase s.works id, cells := u.cells } ∧
      u.cell c = { s.cell c with bags := (s.cell c).bags.filter (fun k => k.seq != w.cmd.seq) } ∧ ∀ d, d ≠ c → u.cell d = s.cell d := by
  have frees : s.bagCommandComplete id = ({ s with works := tabErase s.works id }).modCell c (Cell.dropBag w.cmd.seq) := by
    simp only [State.bagCommandComplete, work, runs, cell, landed, Nat.not_lt.2 written, decide_false, Bool.not_true, Bool.or_self,
      Bool.false_eq_true, if_false]
    exact completeCmd_runs (threads.of_threads (by rw [State.cell_modCell_same]; rfl)) silent
  refine ⟨_, onPath_running s _ path, ?_⟩
  rw [frees]
  exact ⟨rfl, State.cell_modCell_same _ c (Cell.dropBag w.cmd.seq), fun d ne => State.cell_modCell_other _ c d (Cell.dropBag w.cmd.seq) ne⟩

/-- Work `w` after forager `f` has left it (R182). -/
def BagWork.leftBy (w : BagWork) (f : Nat) : BagWork := { w with left := f :: w.left, bags := w.bags.filter (fun b => b.forager != f) }

/-- A work that a forager still pools stands when another leaves it (R182). -/
theorem leaveWork_stays {s : State} {f id : Nat} {w : BagWork} (new : f ∉ w.left) (others : w.left.length < 3) :
    s.leaveWork f id w = s.setWork id (w.leftBy f) := by
  have work : (s.setWork id (w.leftBy f)).work? id = some (w.leftBy f) := tabFind_tabSet_same ..
  have few : (w.leftBy f).left.length < 4 := Nat.succ_lt_succ others
  have retires : (s.setWork id (w.leftBy f)).retireWork id = s.setWork id (w.leftBy f) := by
    simp [State.retireWork, work, Nat.ne_of_lt few]
  have leaves : { w with left := if w.left.contains f then w.left else f :: w.left, bags := w.bags.filter (fun b => b.forager != f) } = w.leftBy f := by
    simp [BagWork.leftBy, new]
  rw [State.leaveWork, leaves, retires]
  exact if_pos few

theorem exec_foragerAbandon {s : State} {f id : Nat} {w : BagWork} (path : s.running = true) (hf : f < 4) (works : s.works = [(id, w)])
    (ended : s.workRuns w = false) (new : f ∉ w.left) (others : w.left.length < 3) :
    exec (.foragerAbandon f) s = .next { s with works := [(id, w.leftBy f)] } := by
  have one : s.works.filter (fun p => !s.workRuns p.2) = [(id, w)] := by simp [works, ended]
  have work : s.work? id = some w := by simp [State.work?, works, tabFind]
  have leaves : s.foragerAbandon f = s.setWork id (w.leftBy f) := by
    rw [State.foragerAbandon, one, List.foldl_cons, List.foldl_nil, work]
    exact leaveWork_stays new others
  have sets : s.setWork id (w.leftBy f) = { s with works := [(id, w.leftBy f)] } := by simp [State.setWork, works, tabSet]
  exact (onStack_running f s _ path hf).trans (by rw [leaves, sets]; rfl)

/-- Settles O27, row by row: a row's conditions let it run to its last line, the counts apart from what it does. -/
theorem embeddingLookupsReadAndPool : Obligations.EmbeddingLookupsReadAndPool :=
  ⟨fun _ _ _ _ _ _ _ _ => exec_bagDispatch,
    fun _ _ _ _ _ _ _ _ _ _ _ _ _ => exec_lookupIntake,
    fun _ _ _ _ _ _ _ _ _ _ h may free open_ hit populated served => exec_rowRequest_served h may free open_ hit populated served,
    fun _ _ _ _ _ _ _ _ h may free open_ hit populated missed => exec_rowRequest_missed h may free open_ hit populated missed,
    fun _ _ _ _ _ _ _ h waiting runs slot free holds => exec_rowRequest_held h waiting runs slot free holds,
    fun _ _ _ _ _ _ _ _ h missed open_ => exec_rcMissFill h missed open_,
    fun _ _ _ _ _ _ _ _ h => exec_rowSectorsReturn h,
    fun _ _ _ _ _ _ _ _ path work found runs ready block table cell empty reach =>
      exec_sliceWrite path work found runs ready block rfl table cell empty reach,
    fun _ _ _ _ => exec_bagCommandComplete,
    fun _ _ _ _ => exec_foragerAbandon,
    fun _ _ => exec_rcDecayPass⟩

end Sys2Proof.Machine

/-! # Row patches: staging, the outcome, commitment and write-back (R200–R209) -/

namespace Sys2Proof.Machine

/-! ## A PREPARE that staged entries hold back (R225) -/

theorem mem_of_tabFind {α : Type} {t : Table α} {k : Nat} {a : α} (found : tabFind t k = some a) : (k, a) ∈ t := by
  induction t with
  | nil => cases found
  | cons p t ih =>
    obtain ⟨i, b⟩ := p
    simp only [tabFind] at found
    split at found
    · rename_i here
      obtain rfl := eq_of_beq here
      exact Option.some.inj found ▸ List.mem_cons_self
    · split at found
      · cases found
      · exact List.mem_cons_of_mem _ (ih found)

/-- A fold whose every step leaves its start as it was ends there. -/
theorem foldl_stands {σ α : Type} {f : σ → α → σ} {s : σ} (stands : ∀ a, f s a = s) (l : List α) : l.foldl f s = s := by
  induction l with
  | nil => rfl
  | cons a l ih => rw [List.foldl_cons, stands, ih]

/-- Where no member has a PREPARE to answer, none is answered. -/
theorem answerAll_unprepared {s : State} (idle : ∀ x ∈ s.groups, x.2.prepared = none) : s.answerAll = s := by
  have stands : ∀ h, s.answerPrepared h = s := by
    intro h
    unfold State.answerPrepared
    cases group : s.group? h with
    | none => rfl
    | some g =>
      have none_ : g.prepared = none := idle _ (mem_of_tabFind group)
      simp only [none_]
  exact foldl_stands stands _

/-- The tables and the staged entries stand. -/
def EntriesStand (s u : State) : Prop := u.tables = s.tables ∧ u.staged = s.staged

theorem EntriesStand.refl (s : State) : EntriesStand s s := ⟨rfl, rfl⟩
theorem EntriesStand.trans {s u v : State} (h : EntriesStand s u) (k : EntriesStand u v) : EntriesStand s v :=
  ⟨k.1.trans h.1, k.2.trans h.2⟩

theorem State.workDone_eq (s : State) (q n st d : Nat) : s.workDone q n st d = { s with queues := (s.workDone q n st d).queues } := by
  unfold State.workDone
  split <;> rfl

theorem State.sendPeers_eq (s : State) (g : Group) (b : FabBody) : s.sendPeers g b = { s with fabricOut := (s.sendPeers g b).fabricOut } :=
  foldl_related (R := fun s u : State => u = { s with fabricOut := u.fabricOut }) (fun _ => rfl) (fun h k => by rw [k]; rw [h])
    (fun _ _ => rfl) _ s

theorem entriesStand_workDone (s : State) (q n st d : Nat) : EntriesStand s (s.workDone q n st d) := by
  rw [State.workDone_eq]; exact ⟨rfl, rfl⟩

theorem entriesStand_sendPeers (s : State) (g : Group) (b : FabBody) : EntriesStand s (s.sendPeers g b) := by
  rw [State.sendPeers_eq]; exact ⟨rfl, rfl⟩

theorem entriesStand_raiseEpoch (s : State) (h : Nat) (t : DWord) : EntriesStand s (s.raiseEpoch h t) := by
  unfold State.raiseEpoch
  split
  · exact .refl s
  · split
    · exact .refl s
    · refine .trans ?_ (foldl_related .refl .trans (fun z (w : Nat × Nat) => entriesStand_workDone z w.1 w.2 stOk 0) _ _)
      exact ⟨State.bump_tables .., State.bump_staged ..⟩

theorem entriesStand_startAdvance (s : State) (h : Nat) (g : Group) (t : DWord) : EntriesStand s (s.startAdvance h g t) := by
  unfold State.startAdvance
  dsimp only
  split
  · split
    · exact ⟨rfl, rfl⟩
    · exact entriesStand_raiseEpoch s h t
  · exact .trans ⟨rfl, rfl⟩ (entriesStand_sendPeers _ g _)

theorem entriesStand_decideAdvance (s : State) (h : Nat) : EntriesStand s (s.decideAdvance h) := by
  have raised : ∀ (g : Group) (b : List Byte) (t : DWord), EntriesStand s (((s.setGroup h g).waggle 1 b).raiseEpoch h t) := fun g b t =>
    .trans ⟨rfl, rfl⟩ (entriesStand_raiseEpoch _ h t)
  unfold State.decideAdvance
  split
  · exact .refl s
  split
  · exact .refl s
  split
  · exact .refl s
  split
  · dsimp only
    split
    · split
      · exact (raised _ _ _).trans (entriesStand_startAdvance _ h _ _)
      · exact raised _ _ _
    · exact raised _ _ _
  · exact .refl s

theorem entriesStand_reportMismatch (s : State) (h : Nat) : EntriesStand s (s.reportMismatch h) := by
  unfold State.reportMismatch
  split
  · exact .refl s
  split
  · exact .refl s
  split
  · exact .refl s
  · exact entriesStand_sendPeers s _ _

/-- Answering a PREPARE, which may raise an epoch, patches nothing and publishes nothing. -/
theorem entriesStand_answerAll (s : State) : EntriesStand s s.answerAll := by
  refine foldl_related .refl .trans (fun z h => ?_) _ s
  unfold State.answerPrepared
  split
  · exact .refl z
  split
  · exact .refl z
  split
  · exact .refl z
  dsimp only
  split
  · exact .trans ⟨rfl, rfl⟩ (entriesStand_raiseEpoch _ h _)
  split
  · refine .trans ?_ (entriesStand_reportMismatch _ h)
    exact .trans ⟨rfl, rfl⟩ (entriesStand_decideAdvance _ h)
  · exact ⟨rfl, rfl⟩

/-! ## Resolving rows (R205, R206) -/

/-- A staged entry but for what resolving its row notes. -/
def Staged.unresolved (x : Staged) : Staged := { x with stack := 0, resolved := false, lost := false }

/-- Groups and tables stand, and so do the staged entries but for what resolving their rows notes. -/
structure Resolves (s u : State) : Prop where
  groups : u.groups = s.groups
  tables : u.tables = s.tables
  entries : u.staged.map Staged.unresolved = s.staged.map Staged.unresolved

theorem Resolves.refl (s : State) : Resolves s s := ⟨rfl, rfl, rfl⟩
theorem Resolves.trans {s u v : State} (h : Resolves s u) (k : Resolves u v) : Resolves s v :=
  ⟨k.groups.trans h.groups, k.tables.trans h.tables, k.entries.trans h.entries⟩

theorem Resolves.of_eq {s u : State} (groups : u.groups = s.groups) (tables : u.tables = s.tables) (staged : u.staged = s.staged) :
    Resolves s u := ⟨groups, tables, congrArg _ staged⟩

theorem Resolves.bump {s u : State} (h : Resolves s u) (i j n : Nat) : Resolves s (u.bump i j n) :=
  h.trans (.of_eq (by simp) (by simp) (by simp))

theorem Resolves.countFull {s u : State} (h : Resolves s u) (o n : Nat) : Resolves s (u.countFull o n) :=
  h.trans (.of_eq (by simp) (by simp) (by simp))

theorem Resolves.notice {s u : State} (h : Resolves s u) (c : Nat) (b : List Byte) : Resolves s (u.notice c b) :=
  h.trans (.of_eq (by simp) (by simp) (by simp))

theorem Resolves.traceFault {s u : State} (h : Resolves s u) (col ctx kind r va : Nat) : Resolves s (u.traceFault col ctx kind r va) := by
  unfold State.traceFault
  exact h.trans (.of_eq (by simp) (by simp) (by simp))

theorem resolves_mapStaged (s : State) (f : Staged → Staged) (keeps : ∀ x, (f x).unresolved = x.unresolved) :
    Resolves s { s with staged := s.staged.map f } :=
  ⟨rfl, rfl, by rw [List.map_map]; exact List.map_congr_left fun x _ => keeps x⟩

theorem resolves_markResolved (s : State) (h t row e k : Nat) : Resolves s (s.markResolved h t row e k) :=
  resolves_mapStaged s _ fun x => by split <;> rfl

theorem resolves_markLost (s : State) (h t row e : Nat) : Resolves s (s.markLost h t row e) :=
  resolves_mapStaged s _ fun x => by split <;> rfl

theorem resolves_holdForward (s : State) (p k addr e : Nat) (row : RowData) : Resolves s (s.holdForward p k addr e row).1 := by
  unfold State.holdForward
  dsimp only
  split
  · exact .of_eq rfl rfl rfl
  split
  · exact .refl s
  split
  · dsimp only
    refine Resolves.bump ?_ ..
    exact .of_eq rfl rfl rfl
  · exact .refl s

/-- A row's result held, its clipped elements counted and its entries marked as resolved, if it found room. -/
theorem resolves_held {s z : State} (start : Resolves s z) (h t row e p k addr n : Nat) (data : RowData) :
    Resolves s (if (z.holdForward p k addr e data).2 then ((z.holdForward p k addr e data).1.bump 0x4207 (k + 1) n).markResolved h t row e k
      else (z.holdForward p k addr e data).1) := by
  have held : Resolves s (z.holdForward p k addr e data).1 := start.trans (resolves_holdForward z p k addr e data)
  split
  · exact (held.bump ..).trans (resolves_markResolved ..)
  · exact held

theorem resolves_resolveOnto (s : State) (h t row e : Nat) (g : Group) (d : TableDesc) (pa : Nat) (base : RowData) :
    Resolves s (s.resolveOnto h t row e g d pa base) := by
  have free : ∀ b : Bool, Resolves s (if b then { s with free := s.free + 1 } else s) := fun b => by cases b <;> exact .of_eq rfl rfl rfl
  unfold State.resolveOnto
  exact resolves_held (free _) h t row e g.partition (stackOf pa) (pa / 64) _ _

theorem resolves_fatalFault (s : State) (col kind check : Nat) (a : Access) (cell ctx va st : Nat) :
    Resolves s (s.fatalFault col kind check a cell ctx va none st) := by
  refine Resolves.traceFault (Resolves.notice (Resolves.bump ?_ ..) ..) ..
  exact .of_eq rfl rfl rfl

theorem resolves_joinRecord (s : State) (col r : Nat) (w : Walk) : Resolves s (s.joinRecord col r w) := by
  unfold State.joinRecord
  dsimp only
  split <;> exact .of_eq rfl rfl rfl

theorem resolves_resumable (s : State) (w : Walk) : Resolves s (s.resumable w) := by
  unfold State.resumable State.openRecord
  dsimp only
  cases (s.collector w.collector).find w.context w.va with
  | some r => exact resolves_joinRecord s _ r w
  | none =>
    cases tabFree (s.collector w.collector).records 0 32 with
    | some r =>
      refine Resolves.traceFault (Resolves.notice (Resolves.bump (Resolves.countFull ?_ ..) ..) ..) ..
      exact .of_eq rfl rfl rfl
    | none =>
      refine Resolves.bump (Resolves.countFull ?_ ..) ..
      exact .of_eq rfl rfl rfl

theorem resolves_resolveOne (s : State) (h t row e : Nat) (lost : Bool) : Resolves s (s.resolveOne h t row e lost) := by
  unfold State.resolveOne
  dsimp only
  split
  · rename_i g d x _ _ _
    have onLost : ∀ z : State, Resolves z (match s.blockPa (d.slot x.slot).context (rowVa d x.slot row) with
        | some pa => z.resolveOnto h t row e g d pa
          { bytes := List.replicate (rowStride d.record) 0#8, poison := List.range (rowStride d.record / 64), suspect := [] }
        | none => z.markLost h t row e) := by
      intro z
      cases s.blockPa (d.slot x.slot).context (rowVa d x.slot row) with
      | some pa => exact resolves_resolveOnto ..
      | none => exact resolves_markLost ..
    split
    · exact onLost s
    split
    · exact resolves_resolveOnto ..
    · split
      · refine .trans ?_ (resolves_resolveOnto ..)
        exact .of_eq rfl rfl rfl
      · exact .refl s
    · split
      · exact .refl s
      · exact resolves_resumable ..
    · refine .trans (.trans ?_ (resolves_fatalFault ..)) (onLost _)
      exact resolves_markLost ..
    · exact .refl s
  · exact .refl s

theorem resolves_resolveRow (s : State) (h t row e : Nat) (lost : Bool) : Resolves s (s.resolveRow h t row e lost) :=
  (resolves_resolveOne s h t row e lost).trans
    (foldl_related .refl .trans (fun z x => resolves_resolveOne z h t row x false) _ _)

/-! ## Commitment (R203) -/

/-- What an entry becomes when identity `src`, `seq` commits: an entry of it is committed to the slot in force at its epoch, or gone
where there is none. -/
def State.committedEntry (s : State) (src seq : Nat) (x : Staged) : Option Staged :=
  if x.tentative src seq then
    (match s.table? x.handle x.entry.table, s.targetSlot x with
     | some d, some i => some { x with committed := true, slot := i, va := rowVa d i x.entry.row }
     | _, _ => none)
  else some x

theorem resolves_commitEntries (s : State) (src seq : Nat) :
    Resolves { s with staged := s.staged.filterMap (s.committedEntry src seq) } (s.commitEntries src seq) :=
  (foldl_related .refl .trans (fun z (_ : Staged) => (Resolves.refl z).bump ..) _ _).trans
    (foldl_related .refl .trans (fun z (r : Nat × Nat × Nat × Nat) => resolves_resolveRow z r.1 r.2.1 r.2.2.1 r.2.2.2 false) _ _)

theorem committedEntry_decided {s : State} {src seq : Nat} {x y : Staged} (becomes : s.committedEntry src seq x = some y) :
    y.tentative src seq = false := by
  unfold State.committedEntry at becomes
  split at becomes
  · split at becomes
    · obtain rfl := Option.some.inj becomes
      rfl
    · cases becomes
  · rename_i other
    exact Option.some.inj becomes ▸ Bool.eq_false_iff.2 other

theorem committedEntry_isSome (s : State) (src seq : Nat) (x : Staged) :
    (s.committedEntry src seq x).isSome = (!x.tentative src seq || (s.targetSlot x).isSome) := by
  unfold State.committedEntry State.targetSlot
  cases x.tentative src seq with
  | false => rfl
  | true =>
    cases s.table? x.handle x.entry.table with
    | none => rfl
    | some d =>
      dsimp only
      cases d.inForce x.entry.epoch <;> rfl

/-- Being tentative does not depend on what resolving a row notes. -/
theorem tentative_unresolved (x : Staged) (src seq : Nat) : x.unresolved.tentative src seq = x.tentative src seq := rfl

theorem commitEntries_decides (s : State) (src seq : Nat) : ∀ y ∈ (s.commitEntries src seq).staged, y.tentative src seq = false := by
  intro y mem
  have mem' := List.mem_map_of_mem (f := Staged.unresolved) mem
  rw [(resolves_commitEntries s src seq).entries] at mem'
  obtain ⟨z, zmem, same⟩ := List.mem_map.1 mem'
  obtain ⟨x, -, becomes⟩ := List.mem_filterMap.1 zmem
  rw [← tentative_unresolved y, ← same, tentative_unresolved]
  exact committedEntry_decided becomes

theorem commitEntries_length (s : State) (src seq : Nat) : (s.commitEntries src seq).staged.length =
    (s.staged.filter (fun x => !x.tentative src seq || (s.targetSlot x).isSome)).length := by
  have same := congrArg List.length (resolves_commitEntries s src seq).entries
  rw [List.length_map, List.length_map] at same
  rw [same, ← List.countP_eq_length_filter, List.length_filterMap_eq_countP]
  exact congrArg (List.countP · s.staged) (funext (committedEntry_isSome s src seq))

theorem exec_patchCommitReceive {s : State} (path : s.running = true) (src seq : Nat) :
    ∃ u, exec (.patchCommitReceive src seq) s = .next u ∧ (∀ y ∈ u.staged, y.tentative src seq = false) ∧ u.tables = s.tables ∧
      u.staged.length = (s.staged.filter (fun x => !x.tentative src seq || (s.targetSlot x).isSome)).length := by
  obtain ⟨tables, staged⟩ := entriesStand_answerAll (s.commitEntries src seq)
  refine ⟨_, onPath_running s (fun z => (z.patchCommitReceive src seq).answerAll) path, ?_, ?_, ?_⟩
  · rw [keepQueue_staged, State.patchCommitReceive, staged]
    exact commitEntries_decides s src seq
  · exact tables.trans (resolves_commitEntries s src seq).tables
  · rw [keepQueue_staged, State.patchCommitReceive, staged]
    exact commitEntries_length s src seq

/-! ## PATCH at the entry member (R200–R203) -/

/-- The work of a PATCH that queue `q` takes with its head command `b` (R202, R204). -/
def State.patchWork (s : State) (q : Nat) (b : List Byte) : CmdWork :=
  { index := (s.queue q).taken.toNat % 2 ^ 32, launchId := chLaunchId b, kind := 3, irq := chIrq b, handle := 0, target := 0#64,
    patch := ((s.queue q).patches + 1) % 2 ^ 32, va := leAt (chConsts b) 0 8, count := leAt (chConsts b) 8 4, checked := false, start := s.time }

/-- A PATCH taken and listed, its checks to come. -/
def State.patchListed (s : State) (q : Nat) (b : List Byte) : State :=
  ((s.modQueue q (fun x => { x with patches := ((s.queue q).patches + 1) % 2 ^ 32 })).countTaken q).modQueue q
    (fun x => { x with work := x.work ++ [s.patchWork q b] })

theorem State.queue_modQueue (s : State) (q : Nat) (f : Queue → Queue) : (s.modQueue q f).queue q = f (s.queue q) :=
  tabGet_tabSet_same _ _ _ _

theorem patchListed_work (s : State) (q : Nat) (b : List Byte) :
    ((s.patchListed q b).queue q).work = (s.queue q).work ++ [s.patchWork q b] := by
  rw [State.patchListed, State.queue_modQueue, State.queue_countTaken, State.queue_modQueue]
  rfl

/-- The listed state but for queues, partitions and counters is the state before. -/
theorem patchListed_eq (s : State) (q : Nat) (b : List Byte) : s.patchListed q b =
    { s with queues := (s.patchListed q b).queues, partitions := (s.patchListed q b).partitions, counters := (s.patchListed q b).counters } := by
  unfold State.patchListed
  rw [State.countTaken_eq]
  rfl

/-- A listed PATCH that passes its checks and concerns this member alone is decided at once. -/
theorem patchCheck_alone {z : State} {q n h : Nat} {w : CmdWork} {g : Group} {own : List PatchEntry}
    (found : (z.queue q).work.find? (fun j => j.index == n && j.kind == 3 && !j.checked) = some w)
    (read : z.patchRead q w = .ok (h, g, [(g.rank, own)])) :
    z.patchCheck q n = { (z.stageEntries h own).commitEntries (z.patchSrc q) w.patch with
      committed := (z.patchSrc q, w.patch, h) :: z.committed }.workDone q n stOk 0 := by
  unfold State.patchCheck
  rw [found]
  dsimp only
  rw [read]
  simp [State.stageEntries]

theorem exec_patch {s : State} {q h : Nat} {b : List Byte} {g : Group} {own : List PatchEntry} (head : QueueHead s q 3 b)
    (aligned : leAt (chConsts b) 0 8 % 64 = 0) (some_ : 1 ≤ leAt (chConsts b) 8 4) (bound : leAt (chConsts b) 8 4 ≤ 4096)
    (rsv : allZero ((chConsts b).drop 12) = true) (fresh : ∀ j ∈ (s.queue q).work, j.index ≠ (s.patchWork q b).index)
    (read : (s.patchListed q b).patchRead q (s.patchWork q b) = .ok (h, g, [(g.rank, own)])) :
    exec (.patch q) s = .next (keepQueue s ({ ((s.patchListed q b).stageEntries h own).commitEntries (s.patchSrc q) (s.patchWork q b).patch with
      committed := (s.patchSrc q, (s.patchWork q b).patch, h) :: s.committed }.workDone q (s.patchWork q b).index stOk 0)) := by
  have found : ((s.patchListed q b).queue q).work.find? (fun j => j.index == (s.patchWork q b).index && j.kind == 3 && !j.checked) =
      some (s.patchWork q b) := by
    rw [patchListed_work, List.find?_append, List.find?_eq_none.2 (fun j mem => by simp [fresh j mem])]
    simp [State.patchWork]
  have done : s.patch q = (s.patchListed q b).patchCheck q (s.patchWork q b).index := by
    rw [State.patch, head.takeHead]
    exact if_neg (by simp [aligned, bound, rsv]; omega)
  have src : (s.patchListed q b).patchSrc q = s.patchSrc q := by rw [patchListed_eq]; rfl
  have committed : (s.patchListed q b).committed = s.committed := by rw [patchListed_eq]
  rw [← src, ← committed, ← patchCheck_alone found read, ← done]
  exact onQueue_running q s (fun z => z.patch q) head.path head.queue

/-! ## The other members and the outcome (R202) -/

theorem exec_patchStageReceive_accepts {s : State} {gid h src seq : Nat} {recs : Table (List Byte)} {es : List PatchEntry} {g : Group}
    (path : s.running = true) (handle : s.handleOf gid = some h) (group : s.group? h = some g) (sound : s.entriesCheck h g recs es = none) :
    exec (.patchStageReceive gid src seq recs es) s = .next { s.stageEntries h (es.map PatchEntry.framed) with
      fabricOut := s.fabricOut ++ [{ dst := src / 1024, body := .patchAnswer src seq g.rank stOk 0 }] } := by
  have done : s.patchStageReceive gid src seq recs es = { s.stageEntries h (es.map PatchEntry.framed) with
      fabricOut := s.fabricOut ++ [{ dst := src / 1024, body := .patchAnswer src seq g.rank stOk 0 }] } := by
    simp only [State.patchStageReceive, handle, group, sound]
    rfl
  exact (onPath_running s _ path).trans (by rw [done]; rfl)

theorem exec_patchStageReceive_refuses {s : State} {gid h src seq st code t i row : Nat} {recs : Table (List Byte)} {es : List PatchEntry}
    {g : Group} (path : s.running = true) (handle : s.handleOf gid = some h) (group : s.group? h = some g)
    (fails : s.entriesCheck h g recs es = some (.refuse st code t i row)) :
    ∃ u, exec (.patchStageReceive gid src seq recs es) s = .next u ∧ u = { s with
      foragers := u.foragers
      fabricOut := s.fabricOut ++ [{ dst := src / 1024, body := .patchAnswer src seq g.rank st code }] } := by
  have done : s.patchStageReceive gid src seq recs es = { s.rcError code t g.partition i row with
      fabricOut := s.fabricOut ++ [{ dst := src / 1024, body := .patchAnswer src seq g.rank st code }] } := by
    simp only [State.patchStageReceive, handle, group, fails]
    rfl
  refine ⟨_, onPath_running s (fun z => z.patchStageReceive gid src seq recs es) path, ?_⟩
  rw [done]
  rfl

theorem resolves_workDone (s : State) (q n st d : Nat) : Resolves s (s.workDone q n st d) := by
  rw [State.workDone_eq]; exact .of_eq rfl rfl rfl

theorem resolves_sendOutcome (s : State) (h src seq : Nat) (commit : Bool) : Resolves s (s.sendOutcome h src seq commit) := by
  unfold State.sendOutcome
  split
  · split
    · exact .refl s
    · rw [State.sendPeers_eq]; exact .of_eq rfl rfl rfl
  · exact .refl s

theorem sendOutcome_committed (s : State) (h src seq : Nat) (commit : Bool) : (s.sendOutcome h src seq commit).committed = s.committed := by
  unfold State.sendOutcome
  split
  · split
    · rfl
    · rw [State.sendPeers_eq]
  · rfl

section
variable {s : State} {src seq rank st code a b : Nat} {w : PatchWork} {g : Group} (path : s.running = true)
  (found : s.patches.find? (fun p => p.1 == src && p.2.1 == seq) = some (a, b, w)) (group : s.group? w.handle = some g)
  (member : rank < g.size) (other : rank ≠ g.rank) (idle : ∀ x ∈ s.groups, x.2.prepared = none)
include path found group member other idle

theorem exec_patchAnswerReceive_notes (more : (tabSet w.answers rank (st, code)).length + 1 < g.size) :
    exec (.patchAnswerReceive src seq rank st code) s = .next { s with
      patches := s.patches.filter (fun p => !(p.1 == src && p.2.1 == seq)) ++ [(src, seq, { w with answers := tabSet w.answers rank (st, code) })] } := by
  have done : s.patchAnswerReceive src seq rank st code = { s with
      patches := s.patches.filter (fun p => !(p.1 == src && p.2.1 == seq)) ++ [(src, seq, { w with answers := tabSet w.answers rank (st, code) })] } := by
    simp only [State.patchAnswerReceive, found, group, more, if_true, if_neg (not_or.2 ⟨Nat.not_le.2 member, other⟩)]
  refine (onPath_running s (fun z => (z.patchAnswerReceive src seq rank st code).answerAll) path).trans ?_
  rw [done, answerAll_unprepared (by exact idle)]
  rfl

/-- The last of the answers, none of which refuses, decides for COMMIT. -/
theorem exec_patchAnswerReceive_commits (last : ¬ (tabSet w.answers rank (st, code)).length + 1 < g.size)
    (accepted : ∀ x ∈ tabSet w.answers rank (st, code), x.2.1 = 0) :
    exec (.patchAnswerReceive src seq rank st code) s = .next (keepQueue s
      ({ (({ s with patches := s.patches.filter (fun p => !(p.1 == src && p.2.1 == seq)) }).sendOutcome w.handle src seq true).commitEntries src seq with
        committed := (src, seq, w.handle) :: s.committed }.workDone w.queue w.index stOk 0)) := by
  have none_refuses : (tabSet w.answers rank (st, code)).find? (fun x => x.2.1 != 0) = none :=
    List.find?_eq_none.2 fun x mem => by simp [accepted x mem]
  have done : s.patchAnswerReceive src seq rank st code =
      { (({ s with patches := s.patches.filter (fun p => !(p.1 == src && p.2.1 == seq)) }).sendOutcome w.handle src seq true).commitEntries src seq with
        committed := (src, seq, w.handle) :: s.committed }.workDone w.queue w.index stOk 0 := by
    simp only [State.patchAnswerReceive, found, group, if_neg (not_or.2 ⟨Nat.not_le.2 member, other⟩), if_neg last, none_refuses]
    rw [sendOutcome_committed]
  have groups : (s.patchAnswerReceive src seq rank st code).groups = s.groups := by
    rw [done]
    exact (resolves_workDone ..).groups.trans ((resolves_commitEntries ..).groups.trans (resolves_sendOutcome ..).groups)
  refine (onPath_running s (fun z => (z.patchAnswerReceive src seq rank st code).answerAll) path).trans ?_
  rw [answerAll_unprepared (by rw [groups]; exact idle), done]

end

theorem exec_patchCancelReceive {s : State} (src seq : Nat) (path : s.running = true) (idle : ∀ x ∈ s.groups, x.2.prepared = none) :
    exec (.patchCancelReceive src seq) s = .next (s.cancelEntries src seq) := by
  refine (onPath_running s (fun z => (z.patchCancelReceive src seq).answerAll) path).trans ?_
  rw [State.patchCancelReceive, answerAll_unprepared (by exact idle)]
  rfl

/-- Of one group, whose member this is, a PREPARE that no tentative entry holds back any more is answered (R225). -/
theorem answerAll_ready {z : State} {h : Nat} {t : DWord} {g : Group} (only : z.groups = [(h, g)]) (waits : g.prepared = some t)
    (member : g.rank ≠ 0) (several : g.size ≠ 1) (free : z.tentativeBelow h t.toNat = false) :
    z.answerAll = { z with
      groups := [(h, { g with prepared := none })]
      fabricOut := z.fabricOut ++ [{ dst := g.members.getD 0 0, body := .ready g.id g.rank t (z.versionDigest h t.toNat) }] } := by
  have group : z.group? h = some g := by simp [State.group?, only, tabFind]
  have set_ : tabSet z.groups h { g with prepared := none } = [(h, { g with prepared := none })] := by simp [only, tabSet]
  have one : z.answerAll = z.answerPrepared h := by rw [State.answerAll, only]; rfl
  rw [one, State.answerPrepared]
  simp only [group, waits, free, Bool.false_eq_true, if_false, beq_iff_eq, several, member, State.setGroup, set_]
  rfl

theorem exec_patchCancelReceive_answers {s : State} {src seq h : Nat} {t : DWord} {g : Group} (path : s.running = true)
    (only : s.groups = [(h, g)]) (waits : g.prepared = some t) (member : g.rank ≠ 0) (several : g.size ≠ 1)
    (free : (s.cancelEntries src seq).tentativeBelow h t.toNat = false) :
    exec (.patchCancelReceive src seq) s = .next { s.cancelEntries src seq with
      groups := [(h, { g with prepared := none })]
      fabricOut := s.fabricOut ++ [{ dst := g.members.getD 0 0, body := .ready g.id g.rank t (s.versionDigest h t.toNat) }] } := by
  refine (onPath_running s (fun z => (z.patchCancelReceive src seq).answerAll) path).trans ?_
  rw [State.patchCancelReceive, answerAll_ready (z := s.cancelEntries src seq) only waits member several free]
  rfl

theorem exec_patchOutcomeQuery {s : State} {src seq : Nat} (path : s.running = true) (waits : ∃ x ∈ s.staged, x.tentative src seq = true)
    (away : src / 1024 ≠ s.ownAddr) :
    exec (.patchOutcomeQuery src seq) s =
      .next { s with fabricOut := s.fabricOut ++ [{ dst := src / 1024, body := .patchQuery src seq s.ownAddr }] } := by
  refine (onPath_running s (fun z => z.patchOutcomeQuery src seq) path).trans ?_
  rw [State.patchOutcomeQuery, if_pos (by simp [List.any_eq_true.2 waits, away])]
  rfl

theorem exec_patchQueryReceive {s : State} {src seq : Nat} (asker : Nat) (path : s.running = true)
    (decided : ∀ p ∈ s.patches, ¬ (p.1 = src ∧ p.2.1 = seq)) :
    exec (.patchQueryReceive src seq asker) s = .next { s with
      fabricOut := s.fabricOut ++ [{ dst := asker, body := .patchOutcome src seq (s.committed.any (fun c => c.1 == src && c.2.1 == seq)) }] } := by
  have none_waits : s.patches.any (fun p => p.1 == src && p.2.1 == seq) = false :=
    List.any_eq_false.2 fun p mem => by simpa using decided p mem
  refine (onPath_running s (fun z => z.patchQueryReceive src seq asker) path).trans ?_
  rw [State.patchQueryReceive, none_waits]
  rfl

/-! ## Write-back (R207) -/

/-- A nurse run marks its unit as not overdue, and counts (R459, R463). -/
theorem State.taskRun_eq (s : State) (t : Nat) : s.taskRun t =
    { s with manager := (s.taskRun t).manager, dict := (s.taskRun t).dict, counters := (s.taskRun t).counters } := by
  unfold State.taskRun State.taskRunOn
  rw [State.countFull_eq, State.bump_eq]

/-- Undamaged DRAM takes whole granules with nothing to merge. -/
theorem State.dramWrite_whole {s : State} {pa : Nat} {bs : List Byte} (po : Bool) (whole : partGranules pa bs.length = []) (damage : s.damage = [])
    (fixups : s.fixups = []) (struck : s.struck = []) : s.dramWrite pa bs po = { s with dram := s.dram.store 64 pa bs po false } := by
  rw [State.dramWrite, whole, List.foldl_nil, State.dramStore, damage, fixups, struck]
  cases s
  cases damage
  cases fixups
  cases struck
  rfl

/-- The state without the committed entries of a row at an epoch. -/
def State.retired (s : State) (h t row e : Nat) : State :=
  { s with staged := s.staged.filter (fun y => !(y.committed && y.handle == h && y.entry.table == t && y.entry.row == row && y.entry.epoch == e)) }

section
variable {s : State} {h t row e pa key : Nat} {g : Group} {d : TableDesc} {x : Staged} {l : RcLine}
  (group : s.group? h = some g) (table : s.table? h t = some d)
  (found : s.staged.find? (fun y => y.committed && y.resolved && y.handle == h && y.entry.table == t && y.entry.row == row && y.entry.epoch == e) =
    some x)
  (low : e ≤ s.lowMark h g) (still : s.migrating (d.slot x.slot).context x.va = false)
  (block : s.blockPa (d.slot x.slot).context x.va = some pa)
  (earliest : ∀ y ∈ (s.forager (stackOf pa)).lines, y.2.addr = pa / 64 → y.2.ref ≠ 0 → e ≤ tabGet 0 (s.forager (stackOf pa)).epochs y.2.ref)
  (line : (s.forager (stackOf pa)).forward (pa / 64) e = some (key, l))
include group table found low still block earliest line

/-- A row whose forward line is the earliest at its address, once the low-water mark has reached its epoch, is written back. -/
theorem patchWriteback_writes :
    ∃ f, s.patchWriteback h t row e = ((((s.retired h t row e).setForager (stackOf pa) f).bump 0x4208 (stackOf pa + 1) 1).dramWrite pa l.row.bytes
      (!l.row.poison.isEmpty)).taskRun 8 := by
  have first : (s.forager (stackOf pa)).lines.any (fun y => y.2.addr == pa / 64 && y.2.ref != 0 &&
      decide (tabGet 0 (s.forager (stackOf pa)).epochs y.2.ref < e)) = false := by
    refine List.any_eq_false.2 fun y mem => ?_
    simp only [Bool.and_eq_true, beq_iff_eq, bne_iff_ne, decide_eq_true_eq]
    exact fun ⟨⟨here, pending⟩, below⟩ => Nat.not_lt.2 (earliest y mem here pending) below
  unfold State.patchWriteback
  rw [group, table, found]
  simp only [still, Nat.not_lt.2 low, decide_false, Bool.or_self, Bool.false_eq_true, if_false, block, line, first]
  exact ⟨_, rfl⟩

theorem exec_patchWriteback (path : s.running = true) (damage : s.damage = []) (fixups : s.fixups = [])
    (struck : s.struck = []) (whole : partGranules pa l.row.bytes.length = []) :
    ∃ u, exec (.patchWriteback h t row e) s = .next u ∧ u = { s.retired h t row e with
      dram := s.dram.store 64 pa l.row.bytes (!l.row.poison.isEmpty) false
      foragers := u.foragers, manager := u.manager, dict := u.dict, counters := u.counters } := by
  obtain ⟨f, done⟩ := patchWriteback_writes group table found low still block earliest line
  generalize counted : ((s.retired h t row e).setForager (stackOf pa) f).bump 0x4208 (stackOf pa + 1) 1 = w at done
  have rest : w = { s.retired h t row e with foragers := w.foragers, dict := w.dict, counters := w.counters } := by
    rw [← counted, State.bump_eq]; rfl
  have written : w.dramWrite pa l.row.bytes (!l.row.poison.isEmpty) =
      { w with dram := w.dram.store 64 pa l.row.bytes (!l.row.poison.isEmpty) false } :=
    State.dramWrite_whole _ whole (by rw [rest]; exact damage) (by rw [rest]; exact fixups) (by rw [rest]; exact struck)
  refine ⟨_, onPath_running s (fun z => z.patchWriteback h t row e) path, ?_⟩
  rw [done, written, State.taskRun_eq, rest]
  rfl

end

/-- Settles O30, row by row: what a commitment leaves of the staged entries and the groups decides what its row answers. -/
theorem rowPatchesStageCommitAndWriteBack : Obligations.RowPatchesStageCommitAndWriteBack := by
  unfold Obligations.RowPatchesStageCommitAndWriteBack
  refine ⟨fun _ _ _ _ _ _ head aligned some_ bound rsv fresh read => exec_patch head aligned some_ bound rsv fresh read,
    fun _ _ _ _ _ _ _ _ => exec_patchStageReceive_accepts,
    fun _ _ _ _ _ _ _ _ _ _ _ _ _ => exec_patchStageReceive_refuses,
    fun _ _ _ _ _ _ _ _ _ _ path found group member other idle =>
      ⟨exec_patchAnswerReceive_notes path found group member other idle, exec_patchAnswerReceive_commits path found group member other idle⟩,
    fun _ src seq path => exec_patchCommitReceive path src seq,
    fun _ => exec_patchCancelReceive,
    fun _ _ _ _ _ _ => exec_patchCancelReceive_answers,
    fun _ _ _ => exec_patchOutcomeQuery,
    fun _ _ _ asker => exec_patchQueryReceive asker,
    fun _ _ _ _ _ _ _ _ _ _ _ path group table found low still block earliest line damage fixups struck whole =>
      exec_patchWriteback group table found low still block earliest line path damage fixups struck whole⟩

end Sys2Proof.Machine

/-! # Pins, the placement period and migrations (R211, R254–R259, R304) -/

namespace Sys2Proof.Machine

/-! ## SET_PIN (R259, R304) -/

/-- A SET_PIN `p` at the head of the admin queue whose common fields are sound. -/
structure PinHead (s : State) (p : List Byte) : Prop where
  head : AdminHead s 0x38 32 p
  set_ : leAt p 2 1 ≤ 1
  rsv : leAt p 3 1 = 0
  rsv' : leAt p 6 2 = 0

section
variable {s z : State} {p : List Byte} (h : PinHead s p)
include h

theorem PinHead.sound : ¬ (leAt p 3 1 != 0 || leAt p 6 2 != 0 || decide (1 < leAt p 2 1)) = true := by
  simpa [h.rsv, h.rsv'] using h.set_

/-- A pin of kind 0 is one of a quarter. -/
theorem PinHead.quarter (kind : leAt p 0 1 = 0) (ends : s.pinQuarter p = .ok z []) : exec .setPin s = .next (s.answered z stOk 0 []) := by
  refine h.head.answered ((if_neg h.sound).trans ?_)
  rw [kind]
  exact ends

/-- A pin of kind 1 is one of a queue. -/
theorem PinHead.queue (kind : leAt p 0 1 = 1) (ends : s.pinQueue p = .ok z []) : exec .setPin s = .next (s.answered z stOk 0 []) := by
  refine h.head.answered ((if_neg h.sound).trans ?_)
  rw [kind]
  exact ends

theorem exec_setPin_image {im : Image} (kind : leAt p 0 1 = 2) (attr : leAt p 1 1 = 4) (rsv : leAt p 4 2 = 0)
    (zero : allZero ((p.drop 0x10).take 16) = true) (found : tabFind s.images (leAt p 8 8) = some im) :
    exec .setPin s = .next (s.answered { s with images := tabSet s.images (leAt p 8 8) { im with pinned := leAt p 2 1 == 0 } } stOk 0 []) := by
  refine h.head.answered ((if_neg h.sound).trans ?_)
  rw [kind]
  simp [attr, rsv, zero, found]

end

/-- Pin `y` kept for block `b` of context `c` (R259). -/
def State.putPin (s : State) (c b : Nat) (y : FramePin) : State := s.setCtx c { s.ctx c with pins := tabSet (s.ctx c).pins b y }

section
variable {s : State} {p : List Byte} {k : Nat} (h : PinHead s p) (kind : leAt p 0 1 = 0) (used : (s.ctx (leAt p 4 2)).used = true)
  (base : leAt p 8 8 % 2 ^ 28 = 0) (block : tabFind (s.ctx (leAt p 4 2)).blocks (leAt p 8 8 / 2 ^ 28) = some k)

include used base block in
/-- What is left of a pin of a bound block, once its attribute and its reserved bytes are found sound: `NO_MOVE` is set or cleared, or
`STACK` where its stack has room. -/
theorem pinQuarter_checked {n : Nat} (attr : leAt p 1 1 ≤ 1) (operand : (if leAt p 1 1 == 0 then 1 else 0) = n)
    (zero : allZero ((p.drop (0x10 + n)).take (16 - n)) = true) : s.pinQuarter p =
      if leAt p 1 1 == 1 then
        .ok (s.putPin (leAt p 4 2) (leAt p 8 8 / 2 ^ 28)
          { (s.ctx (leAt p 4 2)).pin (leAt p 8 8 / 2 ^ 28) with noMove := !(leAt p 2 1 == 1) }) []
      else if leAt p 2 1 == 1 then
        .ok (s.putPin (leAt p 4 2) (leAt p 8 8 / 2 ^ 28) { (s.ctx (leAt p 4 2)).pin (leAt p 8 8 / 2 ^ 28) with stack := none }) []
      else if decide (3 < leAt p 0x10 1) then .no s stIllegalOp
      else if quarterStack k != leAt p 0x10 1 && (s.freeIn (s.ctx (leAt p 4 2)).partition (leAt p 0x10 1)).isNone then .no s stBusy
      else .ok (s.putPin (leAt p 4 2) (leAt p 8 8 / 2 ^ 28)
        { (s.ctx (leAt p 4 2)).pin (leAt p 8 8 / 2 ^ 28) with stack := some (leAt p 0x10 1) }).pinMove [] := by
  simp only [State.pinQuarter, operand]
  rw [if_neg (by simp [-Nat.reducePow, used, base, Nat.not_lt.2 attr, zero]), block]
  rfl

include h kind used base block

theorem exec_setPin_noMove (attr : leAt p 1 1 = 1) (zero : allZero ((p.drop 0x10).take 16) = true) :
    exec .setPin s = .next (s.answered (s.putPin (leAt p 4 2) (leAt p 8 8 / 2 ^ 28)
      { (s.ctx (leAt p 4 2)).pin (leAt p 8 8 / 2 ^ 28) with noMove := leAt p 2 1 == 0 }) stOk 0 []) := by
  have set_ : (!(leAt p 2 1 == 1)) = (leAt p 2 1 == 0) := by
    rcases Nat.le_one_iff_eq_zero_or_eq_one.1 h.set_ with e | e <;> simp [e]
  refine h.quarter kind ?_
  rw [pinQuarter_checked used base block (Nat.le_of_eq attr) (n := 0) (by simp [attr]) zero, if_pos (by simp [attr]), set_]

theorem exec_setPin_unstack (attr : leAt p 1 1 = 0) (clear : leAt p 2 1 = 1) (zero : allZero ((p.drop 0x11).take 15) = true) :
    exec .setPin s = .next (s.answered (s.putPin (leAt p 4 2) (leAt p 8 8 / 2 ^ 28)
      { (s.ctx (leAt p 4 2)).pin (leAt p 8 8 / 2 ^ 28) with stack := none }) stOk 0 []) := by
  refine h.quarter kind ?_
  rw [pinQuarter_checked used base block (attr ▸ Nat.zero_le 1) (n := 1) (by simp [attr]) zero, if_neg (by simp [attr]), if_pos (by simp [clear])]

theorem exec_setPin_stack (attr : leAt p 1 1 = 0) (set_ : leAt p 2 1 = 0) (zero : allZero ((p.drop 0x11).take 15) = true)
    (stack : leAt p 0x10 1 ≤ 3)
    (room : quarterStack k = leAt p 0x10 1 ∨ (s.freeIn (s.ctx (leAt p 4 2)).partition (leAt p 0x10 1)).isSome = true) :
    exec .setPin s = .next (s.answered (s.putPin (leAt p 4 2) (leAt p 8 8 / 2 ^ 28)
      { (s.ctx (leAt p 4 2)).pin (leAt p 8 8 / 2 ^ 28) with stack := some (leAt p 0x10 1) }).pinMove stOk 0 []) := by
  have goes : (quarterStack k != leAt p 0x10 1 && (s.freeIn (s.ctx (leAt p 4 2)).partition (leAt p 0x10 1)).isNone) = false := by
    rcases room with same | free
    · simp [same]
    · simp [Option.isNone_eq_false_iff.2 free]
  refine h.quarter kind ?_
  rw [pinQuarter_checked used base block (attr ▸ Nat.zero_le 1) (n := 1) (by simp [attr]) zero, if_neg (by simp [attr]),
    if_neg (by simp [set_]), if_neg (by simpa using stack), if_neg (by simp [goes])]

end

section
variable {s : State} {p : List Byte} (h : PinHead s p) (kind : leAt p 0 1 = 1) (small : leAt p 4 2 ≤ 1023) (rsv : leAt p 8 8 = 0)
  (live : (s.queue (leAt p 4 2)).status ≠ .free)
include h kind small rsv live

theorem exec_setPin_unmask (clear : leAt p 2 1 = 1) (attr : leAt p 1 1 = 2) (zero : allZero ((p.drop 0x12).take 14) = true) :
    exec .setPin s = .next (s.answered (s.setQueue (leAt p 4 2) { s.queue (leAt p 4 2) with pinMask := none }) stOk 0 []) := by
  refine h.queue kind ?_
  simp [State.pinQueue, Nat.not_lt.2 small, live, rsv, attr, zero, clear]

theorem exec_setPin_unset (clear : leAt p 2 1 = 1) (attr : leAt p 1 1 = 3) :
    exec .setPin s = .next (s.answered (s.setQueue (leAt p 4 2) { s.queue (leAt p 4 2) with pinSet := none }) stOk 0 []) := by
  refine h.queue kind ?_
  simp [State.pinQueue, Nat.not_lt.2 small, live, rsv, attr, clear]

theorem exec_setPin_mask (set_ : leAt p 2 1 = 0) (attr : leAt p 1 1 = 2) (zero : allZero ((p.drop 0x12).take 14) = true) {mask : BitVec 16}
    (names : BitVec.ofNat 16 (leAt p 0x10 2) = mask) (some_ : mask ≠ 0#16)
    (within : mask &&& ~~~ (s.part (s.queuePart (leAt p 4 2))).combMask = 0#16) :
    exec .setPin s = .next (s.answered (s.setQueue (leAt p 4 2) { s.queue (leAt p 4 2) with pinMask := some mask }) stOk 0 []) := by
  refine h.queue kind ?_
  simp [State.pinQueue, Nat.not_lt.2 small, live, rsv, attr, zero, set_, names, some_, within]

theorem exec_setPin_set (set_ : leAt p 2 1 = 0) (attr : leAt p 1 1 = 3) {cells : List Nat}
    (names : (List.range 128).filter (fun c => (BitVec.ofNat 128 (leAt p 0x10 16)).getLsbD c) = cells)
    (able : ∀ c ∈ cells, (s.part (s.queuePart (leAt p 4 2))).combMask.getLsbD (combOf c) = true ∧ s.outOfUse c = false)
    (shape : shapeSet cells = true) :
    exec .setPin s = .next (s.answered (s.setQueue (leAt p 4 2) { s.queue (leAt p 4 2) with
      pinSet := some (BitVec.ofNat 128 (leAt p 0x10 16)) }) stOk 0 []) := by
  have able' : cells.all (fun c => (s.part (s.queuePart (leAt p 4 2))).combMask.getLsbD (combOf c) && !s.outOfUse c) = true :=
    List.all_eq_true.2 fun c mem => by simp [able c mem]
  refine h.queue kind ?_
  simp only [State.pinQueue]
  rw [if_neg (by simp [Nat.not_lt.2 small, live, rsv, attr]), if_neg (by simp [attr]), if_pos (by simp [attr]), if_neg (by simp [set_]), names,
    if_neg (by simp [able', shape])]

end

/-! ## PLACEMENT_PERIOD (R254, R256) -/

/-- A `STACK` pin that asks for a move may start a migration, and does nothing else. -/
theorem State.pinMove_eq (s : State) : s.pinMove = { s with migration := s.pinMove.migration } := by
  unfold State.pinMove
  split
  · rfl
  · dsimp only
    split <;> rfl

/-- While a migration runs, no pin starts another. -/
theorem pinMove_migrating {s : State} (runs : s.migration.isSome = true) : s.pinMove = s := if_pos runs

/-- Where no quarter has a `STACK` pin, none asks for a move. -/
theorem pinMove_unpinned {s : State} (free : ∀ q ∈ s.quarters, ((s.ctx q.2.context).pin q.2.block).stack = none) : s.pinMove = s := by
  unfold State.pinMove
  split
  · rfl
  · rw [List.findSome?_eq_none_iff.2 (fun q mem => by rw [free q mem])]

/-- The state after a placement period, but for what the heats then ask for. -/
def State.aged (s : State) : State := { s with
  quarters := s.quarters.map (fun q => (q.1, { q.2 with heat := q.2.heat - q.2.heat / 4 + q.2.fetched, fetched := 0 }))
  images := s.images.map (fun i => (i.1, { i.2 with lastFetchA := i.2.fetchA, lastFetchB := i.2.fetchB, fetchA := 0, fetchB := 0 })) }

/-- The heats of the stacks told in the dictionary. -/
def State.heatsTold (s : State) : State := (List.range 4).foldl (fun acc k => acc.setEntry 0x6020 (k + 1) (s.stackHeat k % 2 ^ 64)) s

theorem State.heatsTold_eq (s : State) : s.heatsTold = { s with dict := s.heatsTold.dict } :=
  foldl_related (R := fun s u : State => u = { s with dict := u.dict }) (fun _ => rfl) (fun h k => by rw [k]; rw [h])
    (f := fun acc k => acc.setEntry 0x6020 (k + 1) (s.stackHeat k % 2 ^ 64)) (fun _ _ => rfl) _ s

/-- The migration that a `STACK` pin asks for, or else the heats, where none runs. -/
def State.balanced (s : State) : State :=
  if s.pinMove.migration.isSome then s.pinMove
  else match s.pinMove.heatMove with
    | some (q, d, x) => s.pinMove.startMove q d x
    | none => s.pinMove

theorem placementPeriod_eq (s : State) : s.placementPeriod = s.aged.heatsTold.balanced := rfl

theorem State.balanced_eq (s : State) : s.balanced = { s with migration := s.balanced.migration } := by
  have started : ∀ q d x, s.pinMove.startMove q d x = { s with migration := (s.pinMove.startMove q d x).migration } := fun q d x => by
    rw [State.startMove, State.pinMove_eq]
  unfold State.balanced
  split
  · exact s.pinMove_eq
  · split
    · exact started _ _ _
    · exact s.pinMove_eq

theorem balanced_migrating {s : State} (runs : s.migration.isSome = true) : s.balanced = s := by
  rw [State.balanced, pinMove_migrating runs, if_pos runs]

theorem exec_placementPeriod {s : State} (path : s.running = true) :
    ∃ u, exec .placementPeriod s = .next u ∧ u = { s with quarters := u.quarters, images := u.images, dict := u.dict, migration := u.migration } ∧
      u.quarters = s.aged.quarters ∧ u.images = s.aged.images ∧ (s.migration.isSome = true → u.migration = s.migration) := by
  have ages : s.placementPeriod = { s.aged with dict := s.aged.heatsTold.dict, migration := s.aged.heatsTold.balanced.migration } := by
    rw [placementPeriod_eq, State.balanced_eq, State.heatsTold_eq]
  have same : s.aged.heatsTold.migration = s.migration := by rw [State.heatsTold_eq]; rfl
  refine ⟨_, onPath_running s (fun z => z.placementPeriod) path, ?_, ?_, ?_, fun runs => ?_⟩
  · rw [ages]
    rfl
  · rw [keepQueue_quarters, ages]
  · rw [keepQueue_images, ages]
  · have still : s.aged.heatsTold.balanced = s.aged.heatsTold := balanced_migrating (by rw [same]; exact runs)
    rw [keepQueue_migration, placementPeriod_eq, still, same]

/-! ## Moving the row-cache lines of a quarter (R211) -/

theorem foldl_bind_none {σ α : Type} (f : σ → α → Option σ) (l : List α) : l.foldl (fun acc a => acc.bind (f · a)) none = none :=
  foldl_stands (fun _ => rfl) l

/-- What each successful step of a fold relates, the whole fold relates. -/
theorem foldl_bind_related {σ α : Type} {R : σ → σ → Prop} (refl : ∀ s, R s s) (trans : ∀ {s u v}, R s u → R u v → R s v)
    {f : σ → α → Option σ} (step : ∀ {s a u}, f s a = some u → R s u) {l : List α} {s u : σ}
    (done : l.foldl (fun acc a => acc.bind (f · a)) (some s) = some u) : R s u := by
  induction l generalizing s with
  | nil => exact Option.some.inj done ▸ refl s
  | cons a l ih =>
    rw [List.foldl_cons, Option.bind_some] at done
    cases next : f s a with
    | none => rw [next, foldl_bind_none] at done; cases done
    | some v => rw [next] at done; exact trans (step next) (ih done)

/-- Two states whose row caches and partitions agree. -/
def CachesAgree (s u : State) : Prop := u.foragers = s.foragers ∧ u.partitions = s.partitions

/-- Whether a line finds room, and where, follows from the row caches and the partitions' shares (R193). -/
theorem tryPlace_agree {s u : State} (h : CachesAgree s u) (k : Nat) (l : RcLine) :
    Option.Rel CachesAgree (s.tryPlace k l) (u.tryPlace k l) := by
  obtain ⟨foragers, partitions⟩ := h
  have same : u.forager k = s.forager k := by rw [State.forager, foragers, State.forager]
  have quota : ∀ p, u.quota p = s.quota p := fun p => by rw [State.quota, State.part, partitions, State.quota, State.part]
  have victims : ∀ f p set, u.victims f p set = s.victims f p set := fun f p set => by simp only [State.victims, quota]
  simp only [State.tryPlace, same, victims]
  cases takeVictims l.sectors ((s.forager k).freeSectors (rcSet l.addr)) (32 - ((s.forager k).setLines (rcSet l.addr)).length)
      (s.victims (s.forager k) l.partition (rcSet l.addr)) with
  | none => exact .none
  | some vs =>
    refine .some ⟨?_, ?_⟩
    · simp only [State.placeLine, State.bump_foragers, State.countFull_foragers, State.count_foragers, State.setForager, same, foragers]
    · simp only [State.placeLine, State.bump_partitions, State.countFull_partitions, State.count_partitions, State.setForager, partitions]

theorem isSome_moveLines_agree {s u : State} (h : CachesAgree s u) (src dst : Nat) :
    (u.moveLines src dst).isSome = (s.moveLines src dst).isSome := by
  have placed : ∀ (ls : List RcLine) (a b : Option State), Option.Rel CachesAgree a b →
      (ls.foldl (fun acc l => acc.bind (fun z => z.tryPlace (quarterStack dst) { l with addr := l.addr - src * 2 ^ 22 + dst * 2 ^ 22 })) b).isSome =
      (ls.foldl (fun acc l => acc.bind (fun z => z.tryPlace (quarterStack dst) { l with addr := l.addr - src * 2 ^ 22 + dst * 2 ^ 22 })) a).isSome := by
    intro ls
    induction ls with
    | nil => intro a b agree; cases agree <;> rfl
    | cons l ls ih =>
      intro a b agree
      refine ih _ _ ?_
      cases agree with
      | none => exact .none
      | some agree => exact tryPlace_agree agree _ _
  have same : u.forager (quarterStack src) = s.forager (quarterStack src) := by rw [State.forager, h.1, State.forager]
  simp only [State.moveLines, State.modForager, same]
  exact placed _ _ _ (.some ⟨by rw [State.setForager, h.1, State.setForager], h.2⟩)

/-- Moving lines touches the row caches and counts. -/
theorem moveLines_rest {s u : State} {src dst : Nat} (moved : s.moveLines src dst = some u) : CountOnly { s with foragers := u.foragers } u := by
  have placed : ∀ {z v : State} {l : RcLine}, z.tryPlace (quarterStack dst) { l with addr := l.addr - src * 2 ^ 22 + dst * 2 ^ 22 } = some v →
      CachesOnly Forager.sketch z v := fun {z _ _} found => by
    obtain ⟨vs, -, rfl⟩ := Option.map_eq_some_iff.1 found
    exact cachesOnly_placeLine z _ vs _
  have dropped : CachesOnly Forager.sketch s (s.modForager (quarterStack src)
      (fun f => { f with lines := f.lines.filter (fun l => !(l.2.addr * 64 / 2 ^ 28 == src)) })) := cachesOnly_setForager _ _ _ rfl
  exact (dropped.trans (foldl_bind_related .refl .trans
    (f := fun (z : State) (l : RcLine) => z.tryPlace (quarterStack dst) { l with addr := l.addr - src * 2 ^ 22 + dst * 2 ^ 22 }) placed moved)).rest

/-! ## The remap of a quarter (R258) -/

/-- With no stored error the copy of a quarter changes no more than DRAM and what is struck there. -/
theorem State.copyQuarter_eq {s : State} (damage : s.damage = []) (fixups : s.fixups = []) (src dst : Nat) : s.copyQuarter src dst =
    { s with dram := s.dram.copySpan 64 (src * 2 ^ 28) (dst * 2 ^ 28) (2 ^ 28), struck := (s.copyQuarter src dst).struck } := by
  unfold State.copyQuarter
  rw [damage, fixups]
  cases s
  cases damage
  cases fixups
  rfl

/-- The state `z`, whose lines have moved, with the quarter `q` of migration `m` bound to its new place and its drain to come. -/
def State.remapped (z : State) (m : Migration) (q : Quarter) : State :=
  { z.setCtx m.context ((z.ctx m.context).remap m.block m.src m.dst) with
    quarters := tabSet (tabErase z.quarters m.src) m.dst q
    migration := some { m with phase := .draining } }

/-- A copied quarter that nothing holds is remapped, and the old translations drain. -/
theorem remapNow_remaps {s z : State} {m : Migration} {q : Quarter} (runs : s.migration = some m) (phase : m.phase = .copied)
    (forward : s.forwardIn m.src = false) (quarter : tabFind s.quarters m.src = some q) (outside : s.outsideHolds m.src q = false)
    (moved : (s.copyQuarter m.src m.dst).moveLines m.src m.dst = some z)
    (store : (z.setCtx m.context ((z.ctx m.context).remap m.block m.src m.dst)).ptStoreBytes ≤ 671088640) :
    ∃ va len, s.remapNow = ((z.remapped m q).startDrain m.context va len none true).1.taskRun 6 := by
  unfold State.remapNow
  rw [runs]
  dsimp only
  rw [if_neg (by simp [phase, forward]), quarter, moved]
  dsimp only
  rw [if_neg (by simp [outside, store])]
  cases tabFind (s.ctx m.context).large (m.block / 2) <;> exact ⟨_, _, rfl⟩

/-- What a remap leaves of a state. -/
structure Remaps (s u : State) (m : Migration) (q : Quarter) : Prop where
  migration : u.migration = some { m with phase := .draining }
  quarters : u.quarters = tabSet (tabErase s.quarters m.src) m.dst q
  blocks : (u.ctx m.context).blocks = tabSet (s.ctx m.context).blocks m.block m.dst
  dram : u.dram = s.dram.copySpan 64 (m.src * 2 ^ 28) (m.dst * 2 ^ 28) (2 ^ 28)
  cells : u.cells = s.cells
  tables : u.tables = s.tables

theorem remaps_remapNow {s : State} {m : Migration} {q : Quarter} (runs : s.migration = some m) (phase : m.phase = .copied)
    (forward : s.forwardIn m.src = false) (quarter : tabFind s.quarters m.src = some q) (damage : s.damage = []) (fixups : s.fixups = [])
    (outside : s.outsideHolds m.src q = false)
    (store : (s.setCtx m.context ((s.ctx m.context).remap m.block m.src m.dst)).ptStoreBytes ≤ 671088640)
    (room : ((s.copyQuarter m.src m.dst).moveLines m.src m.dst).isSome = true) : Remaps s s.remapNow m q := by
  obtain ⟨z, moved⟩ := Option.isSome_iff_exists.1 room
  have rest : z = { s with
      dram := s.dram.copySpan 64 (m.src * 2 ^ 28) (m.dst * 2 ^ 28) (2 ^ 28), struck := z.struck, foragers := z.foragers
      dict := z.dict, counters := z.counters } := by
    have only := moveLines_rest moved
    unfold CountOnly at only
    rw [only, State.copyQuarter_eq damage fixups]
  have contexts : z.contexts = s.contexts := by rw [rest]
  have ctx : z.ctx m.context = s.ctx m.context := by rw [State.ctx, contexts, State.ctx]
  have store' : (z.setCtx m.context ((z.ctx m.context).remap m.block m.src m.dst)).ptStoreBytes ≤ 671088640 := by
    rw [ctx]
    refine Nat.le_trans (Nat.le_of_eq ?_) store
    rw [State.ptStoreBytes, State.setCtx, contexts]
    rfl
  obtain ⟨va, len, done⟩ := remapNow_remaps runs phase forward quarter outside moved store'
  rw [done, State.taskRun_eq]
  have blocks : tabGet Context.unused (tabSet z.contexts m.context ((z.ctx m.context).remap m.block m.src m.dst)) m.context =
      (s.ctx m.context).remap m.block m.src m.dst := by rw [tabGet_tabSet_same, ctx]
  refine ⟨rfl, ?_, congrArg Context.blocks blocks, ?_, ?_, ?_⟩
  · show tabSet (tabErase z.quarters m.src) m.dst q = _
    rw [rest]
  · show z.dram = _
    rw [rest]
  · show z.cells = _
    rw [rest]
  · show z.tables = _
    rw [rest]

/-- The copy of migration `m` stands, and its remap is to come. -/
def State.copied (s : State) (m : Migration) : State := { s with migration := some { m with phase := .copied } }

/-- A migration whose copy is done, now or before, is remapped. -/
theorem remaps_migrationCopyDone {s : State} {m : Migration} {q : Quarter} (runs : s.migration = some m)
    (phase : m.phase = .copied ∨
      (m.phase = .copying ∧ (s.stackTherm (quarterStack m.src)).stage = 0 ∧ (s.stackTherm (quarterStack m.dst)).stage = 0))
    (forward : s.forwardIn m.src = false) (quarter : tabFind s.quarters m.src = some q) (damage : s.damage = []) (fixups : s.fixups = [])
    (outside : s.outsideHolds m.src q = false)
    (store : (s.setCtx m.context ((s.ctx m.context).remap m.block m.src m.dst)).ptStoreBytes ≤ 671088640)
    (room : ((s.copyQuarter m.src m.dst).moveLines m.src m.dst).isSome = true) : Remaps s s.migrationCopyDone m q := by
  rcases phase with copied | ⟨copying, source, target⟩
  · have done : s.migrationCopyDone = s.remapNow := by
      rw [State.migrationCopyDone, runs]
      simp [copied]
    rw [done]
    exact remaps_remapNow runs copied forward quarter damage fixups outside store room
  · have done : s.migrationCopyDone = (s.copied m).remapNow := by
      rw [State.migrationCopyDone, runs]
      simp [copying, source, target, State.copied]
    have agree : CachesAgree (s.copyQuarter m.src m.dst) ((s.copied m).copyQuarter m.src m.dst) := by
      rw [State.copyQuarter_eq damage fixups, State.copyQuarter_eq (s := s.copied m) damage fixups]
      exact ⟨rfl, rfl⟩
    obtain ⟨migration, quarters, blocks, dram, cells, tables⟩ := remaps_remapNow (s := s.copied m) (m := { m with phase := .copied }) rfl rfl
      forward quarter damage fixups outside store ((isSome_moveLines_agree agree _ _).trans room)
    rw [done]
    exact ⟨migration, quarters, blocks, dram, cells, tables⟩

theorem exec_migrationCopyDone {s : State} {m : Migration} {q : Quarter} (path : s.running = true) (remaps : Remaps s s.migrationCopyDone m q) :
    ∃ u, exec .migrationCopyDone s = .next u ∧ u.migration = some { m with phase := .draining } ∧
      u.quarters = tabSet (tabErase s.quarters m.src) m.dst q ∧ (u.ctx m.context).blocks = tabSet (s.ctx m.context).blocks m.block m.dst ∧
      u.dram = s.dram.copySpan 64 (m.src * 2 ^ 28) (m.dst * 2 ^ 28) (2 ^ 28) ∧ u.cells = s.cells ∧ u.tables = s.tables :=
  ⟨_, onPath_running s (fun z => z.migrationCopyDone) path, remaps.migration, remaps.quarters, remaps.blocks, remaps.dram, remaps.cells,
    remaps.tables⟩

/-! ## FRAME_MOVED (R258) -/

/-- Once its drains are done, and no pin asks for another move, a migration ends, and posting to the host follows. -/
theorem frameMoved_ends {s : State} {m : Migration} (runs : s.migration = some m) (phase : m.phase = .draining)
    (drained : ∀ d ∈ s.drains, d.move = true → s.drained d = true)
    (free : ∀ q ∈ s.quarters, ((s.ctx q.2.context).pin q.2.block).stack = none) :
    HostOnly { s with migration := none, drains := s.drains.filter (fun d => !d.move) } s.frameMoved := by
  have all : (s.drains.filter (fun d => d.move)).all s.drained = true :=
    List.all_eq_true.2 fun d mem => drained d (List.mem_filter.1 mem).1 (List.mem_filter.1 mem).2
  obtain ⟨n, b, done⟩ : ∃ n b, s.frameMoved =
      (((({ s with migration := none, drains := s.drains.filter (fun d => !d.move) } : State).bump 0x6021 0 1).bump 0x6043 0 n).notice 3 b).pinMove := by
    rw [State.frameMoved, runs]
    dsimp only
    rw [if_neg (by simp [phase, all])]
    exact ⟨_, _, rfl⟩
  have tells : HostOnly { s with migration := none, drains := s.drains.filter (fun d => !d.move) }
      (((({ s with migration := none, drains := s.drains.filter (fun d => !d.move) } : State).bump 0x6021 0 1).bump 0x6043 0 n).notice 3 b) :=
    (((HostOnly.refl _).bump ..).bump ..).notice ..
  rw [done, pinMove_unpinned]
  · exact tells
  · intro q mem
    rw [tells.quarters] at mem
    rw [State.ctx, tells.contexts]
    exact free q mem

theorem exec_frameMoved {s : State} {m : Migration} (path : s.running = true) (runs : s.migration = some m) (phase : m.phase = .draining)
    (drained : ∀ d ∈ s.drains, d.move = true → s.drained d = true)
    (free : ∀ q ∈ s.quarters, ((s.ctx q.2.context).pin q.2.block).stack = none) :
    ∃ u, exec .frameMoved s = .next u ∧ u.migration = none ∧ u.drains = s.drains.filter (fun d => !d.move) ∧ u.dram = s.dram ∧
      HostOnly { s with migration := none, drains := u.drains } u := by
  have ends := frameMoved_ends runs phase drained free
  have kept : keepQueue s s.frameMoved = s.frameMoved := keepQueue_of s _ ends.pending ends.time ends.code
  refine ⟨_, onPath_running s (fun z => z.frameMoved) path, ?_⟩
  rw [kept]
  refine ⟨ends.migration, ends.drains, ends.dram, ?_⟩
  rw [ends.drains]
  exact ends

/-- Settles O35: each form of SET_PIN, then the rows of a migration in their order. -/
theorem pinsAndMigration : Obligations.PinsAndMigration := by
  unfold Obligations.PinsAndMigration
  refine ⟨?_, ?_, ?_, ?_, ?_, ?_⟩
  · intro s p im head kind attr set_ rsv ctx rsv' zero found
    exact exec_setPin_image ⟨head, set_, rsv, rsv'⟩ kind attr ctx zero found
  · intro s p k head kind set_ rsv rsv' used base block
    have h : PinHead s p := ⟨head, set_, rsv, rsv'⟩
    exact ⟨exec_setPin_noMove h kind used base block, exec_setPin_unstack h kind used base block, exec_setPin_stack h kind used base block⟩
  · intro s p head kind set_ rsv rsv' small base q combs mask set cells live
    have h : PinHead s p := ⟨head, set_, rsv, rsv'⟩
    exact ⟨exec_setPin_unmask h kind small base live, exec_setPin_unset h kind small base live,
      fun on attr zero => exec_setPin_mask h kind small base live on attr zero rfl, fun on attr => exec_setPin_set h kind small base live on attr rfl⟩
  · exact fun _ => exec_placementPeriod
  · exact fun _ _ _ path runs phase forward quarter damage fixups outside store room =>
      exec_migrationCopyDone path (remaps_migrationCopyDone runs phase forward quarter damage fixups outside store room)
  · exact fun _ _ => exec_frameMoved

end Sys2Proof.Machine

/-! # Records of admin commands, launches and queues that end, and what teardown releases (R267, R268, R290, R300, R346) -/

namespace Sys2Proof.Machine

/-! ## Records of commands that waited -/

theorem State.dict_count (s : State) (o n : Nat) : (s.count o n).dict = s.dict := by rw [State.count_eq]

theorem State.dict_countFull (s : State) (o n : Nat) : (s.countFull o n).dict = s.dict := by rw [State.countFull_eq]

/-- Counting in a dictionary entry changes that entry alone. -/
theorem State.dict_bump (s : State) (i j n : Nat) :
    (s.bump i j n).dict = tabSet s.dict (dkey i j) (satAdd (dictBits (dkey i j)) (s.entry i j) n) := by
  unfold State.bump
  dsimp only
  split <;> split <;> simp only [State.dict_countFull, State.dict_count, State.setEntry]

theorem State.entry_bump_same (s : State) (i j n : Nat) : (s.bump i j n).entry i j = satAdd (dictBits (dkey i j)) (s.entry i j) n := by
  rw [State.entry, State.dict_bump, tabFind_tabSet_same, Option.getD_some]

/-- Messages to the host were posted: the work that waits stands, and of the dictionary at most the counts of records and of discarded
messages rose. -/
structure Posts (s u : State) : Prop where
  host : HostOnly s u
  work : u.admin.work = s.admin.work
  counts : ∀ k, k ≠ dkey 0xA107 0 → k ≠ dkey 0xA004 0 → tabFind u.dict k = tabFind s.dict k

theorem Posts.refl (s : State) : Posts s s := ⟨HostOnly.refl s, rfl, fun _ _ _ => rfl⟩

theorem Posts.trans {s u v : State} (h : Posts s u) (k : Posts u v) : Posts s v :=
  ⟨h.host.trans k.host, k.work.trans h.work, fun i a b => (k.counts i a b).trans (h.counts i a b)⟩

/-- A change of the admin registers. -/
theorem Posts.registers {s u : State} (h : Posts s u) {a : Admin} (work : a.work = u.admin.work) : Posts s { u with admin := a } :=
  ⟨h.host.admin a, work.trans h.work, h.counts⟩

theorem posts_bump (s : State) {i j : Nat} (counted : dkey i j = dkey 0xA107 0 ∨ dkey i j = dkey 0xA004 0) (n : Nat) : Posts s (s.bump i j n) := by
  refine ⟨(HostOnly.refl s).bump i j n, by rw [State.bump_admin], fun k record discard => ?_⟩
  rw [State.dict_bump, tabFind_tabSet_other]
  rcases counted with e | e
  · rwa [e]
  · rwa [e]

theorem posts_sendHost (s : State) (ms : List HostMsg) : Posts s (s.sendHost ms) := by
  refine ⟨(HostOnly.refl s).sendHost ms, ?_, fun k _ _ => ?_⟩
  · simp only [State.sendHost, State.countFull_admin]
  · simp only [State.sendHost, State.dict_countFull]

theorem posts_post (s : State) (m : HostMsg) : Posts s (s.post m) := by
  have held : ∀ x : HostPort, Posts s { s with host := x } := fun x => ⟨(HostOnly.refl s).host x, rfl, fun _ _ _ => rfl⟩
  unfold State.post
  split
  · exact posts_bump s (.inr rfl) 1
  · split
    · exact posts_sendHost s [m]
    · split <;> exact held _

theorem posts_adminIrq (s : State) : Posts s s.adminIrq := by
  unfold State.adminIrq
  split
  · exact Posts.refl s
  · split
    · exact (Posts.refl s).registers rfl
    · refine Posts.trans ?_ (posts_post _ _)
      exact (Posts.refl s).registers rfl

theorem posts_adminRecord (s : State) (n : Nat) (i : DWord) (a b d : Nat) (r : List Byte) : Posts s (s.adminRecord n i a b d r) := by
  have counted : Posts s (s.bump 0xA107 0 1) := posts_bump s (.inl rfl) 1
  have reply : ∀ (long : Bool) (m : HostMsg), Posts s (if long then (s.bump 0xA107 0 1).post m else s.bump 0xA107 0 1) := by
    intro long m
    cases long
    · exact counted
    · exact counted.trans (posts_post _ m)
  unfold State.adminRecord
  dsimp only
  split
  · exact counted
  · refine Posts.trans ?_ (posts_adminIrq _)
    exact ((reply _ _).trans (posts_post _ _)).registers rfl

/-- Answering commands that waited takes them off the list, and posts their records. -/
theorem posts_adminDone (s : State) (p : AdminWaitFor → Bool) (st : Nat) (r : List Byte) :
    Posts { s with admin := { s.admin with work := s.admin.work.filter (fun w => !p w.waits) } } (s.adminDone p st r) :=
  foldl_related Posts.refl Posts.trans (f := fun (acc : State) (w : AdminWork) => acc.adminRecord w.index w.cmdId w.start st 0 r)
    (fun u w => posts_adminRecord u w.index w.cmdId w.start st 0 r) _ _

theorem hostOnly_adminDone (s : State) (p : AdminWaitFor → Bool) (st : Nat) (r : List Byte) : HostOnly s (s.adminDone p st r) :=
  ((HostOnly.refl s).admin _).trans (posts_adminDone s p st r).host

/-- No command that was answered waits on. -/
theorem adminDone_leaves {s : State} {p : AdminWaitFor → Bool} {st : Nat} {r : List Byte} {w : AdminWork}
    (mem : w ∈ (s.adminDone p st r).admin.work) : p w.waits = false := by
  rw [(posts_adminDone s p st r).work] at mem
  simpa using (List.mem_filter.1 mem).2

/-- A row of the admin queue whose head command begins and waits. -/
theorem AdminHead.awaits {s z : State} {op n : Nat} {p : List Byte} (h : AdminHead s op n p) {f : State → List Byte → AdminEnd} {w : AdminWaitFor}
    {holds : Bool} (begins : f s p = .wait z w holds) : onPath s (fun y => y.admRun op (some n) f) = .next (s.awaits z w holds) := by
  rw [onPath_running s _ h.running, h.admRun, begins]
  rfl

/-! ## Launches and queues that end -/

/-- `u` is `s` but for the fields that ending launches and queues may change. -/
abbrev WorkOnly (s u : State) : Prop :=
  u = { s with
    launches := u.launches, queues := u.queues, cells := u.cells, walks := u.walks, collectors := u.collectors, fabricOut := u.fabricOut
    fanned := u.fanned, returns := u.returns, dict := u.dict, counters := u.counters, free := u.free, tracer := u.tracer
    wagglesOut := u.wagglesOut, waggleSeq := u.waggleSeq }

/-- Launches and queues may have ended: whatever they do not use stands, and the state of a queue is as it was, or DYING. -/
structure WorkEnds (s u : State) : Prop where
  rest : WorkOnly s u
  status : ∀ q, (u.queue q).status = (s.queue q).status ∨ (u.queue q).status = .dying

theorem WorkEnds.refl (s : State) : WorkEnds s s := ⟨rfl, fun _ => .inl rfl⟩

theorem WorkEnds.trans {s u v : State} (h : WorkEnds s u) (k : WorkEnds u v) : WorkEnds s v := by
  refine ⟨?_, fun q => ?_⟩
  · rw [k.rest]
    rw [h.rest]
  · rcases k.status q with same | dies
    · rw [same]
      exact h.status q
    · exact .inr dies

/-- A step that leaves the queues alone. -/
theorem WorkEnds.of_rest {s u : State} (queues : u.queues = s.queues) (rest : WorkOnly s u) : WorkEnds s u :=
  ⟨rest, fun q => .inl (by rw [State.queue, queues, State.queue])⟩

/-- A step that some condition makes. -/
theorem WorkEnds.when {s u : State} (b : Bool) (h : WorkEnds s u) : WorkEnds s (if b then u else s) := by
  cases b
  · exact WorkEnds.refl s
  · exact h

theorem workEnds_setQueue (s : State) (q : Nat) (x : Queue) (status : x.status = (s.queue q).status ∨ x.status = .dying) :
    WorkEnds s (s.setQueue q x) := by
  refine ⟨rfl, fun j => ?_⟩
  by_cases same : j = q
  · subst same
    rwa [State.queue, State.setQueue, tabGet_tabSet_same]
  · rw [State.queue, State.setQueue, tabGet_tabSet_other _ _ _ _ _ same]
    exact .inl rfl

theorem workEnds_count (s : State) (o n : Nat) : WorkEnds s (s.count o n) := .of_rest (by simp) (by rw [State.count_eq])
theorem workEnds_countFull (s : State) (o n : Nat) : WorkEnds s (s.countFull o n) := .of_rest (by simp) (by rw [State.countFull_eq])
theorem workEnds_bump (s : State) (i j n : Nat) : WorkEnds s (s.bump i j n) := .of_rest (by simp) (by rw [State.bump_eq])

theorem workEnds_traceLaunch (s : State) (k : Nat) (l : Launch) (d : List Byte) : WorkEnds s (s.traceLaunch k l d) := by
  have traces := traceOnly_traceLaunch s k l d
  exact .of_rest traces.queues (by rw [show s.traceLaunch k l d = _ from traces])

theorem workEnds_sendPeers (s : State) (g : Group) (b : FabBody) : WorkEnds s (s.sendPeers g b) :=
  foldl_related WorkEnds.refl WorkEnds.trans (f := fun acc r => acc.sendRank g r b) (fun _ _ => .of_rest rfl rfl) _ s

theorem workEnds_releasePeers (s : State) (l : Nat) : WorkEnds s (s.releasePeers l) := by
  have told : ∀ (u : State) (h : Nat), WorkEnds u (match tabFind u.groups h with | some g => u.sendPeers g (.abandon l) | none => u) := by
    intro u h
    split
    · exact workEnds_sendPeers _ _ _
    · exact WorkEnds.refl _
  have folded := fun hs => foldl_related WorkEnds.refl WorkEnds.trans told hs s
  exact (folded _).trans (.of_rest rfl rfl)

theorem workEnds_failHop (s : State) (x : Launch) (st : Option Nat) : WorkEnds s (s.failHop x st) := by
  unfold State.failHop
  split
  · split
    · exact WorkEnds.refl _
    · exact .of_rest rfl rfl
  · exact WorkEnds.refl _

theorem workEnds_pushReady (s : State) (q : Nat) (r : Ready) : WorkEnds s (s.pushReady q r) := by
  refine workEnds_setQueue s q _ (.inl ?_)
  dsimp only
  split <;> rfl

theorem workEnds_settleCell (s : State) (c : Nat) : WorkEnds s (s.settleCell c) := by
  unfold State.settleCell
  split
  · exact WorkEnds.refl _
  · split
    · split
      · exact .of_rest rfl rfl
      · exact WorkEnds.refl _
    · exact .of_rest rfl rfl

theorem workEnds_endLaunch (s : State) (l : Nat) (st : Option Nat) (d : Nat) : WorkEnds s (s.endLaunch l st d) := by
  have stopped : ∀ (u : State) (b : Bool) (cs : List Nat), WorkEnds u (if b then u else cs.foldl (fun acc c => acc.modCell c Cell.stopThreads) u) := by
    intro u b cs
    cases b
    · exact foldl_related WorkEnds.refl WorkEnds.trans (f := fun (acc : State) c => acc.modCell c Cell.stopThreads) (fun _ _ => .of_rest rfl rfl) cs u
    · exact WorkEnds.refl u
  have settled : ∀ (u : State) (cs : List Nat), WorkEnds u (cs.foldl (fun acc c => acc.settleCell c) u) := fun u cs =>
    foldl_related WorkEnds.refl WorkEnds.trans workEnds_settleCell cs u
  have poison : ∀ (u : State) (b : Bool) (o : Nat), WorkEnds u (if b then (u.bump 0x6060 0 1).countFull o 1 else u) :=
    fun u b o => .when b ((workEnds_bump u _ _ _).trans (workEnds_countFull _ _ _))
  have bad : ∀ (u : State) (b : Bool) (o : Nat), WorkEnds u (if b then (u.count (8 * 43) 1).countFull o 1 else u) :=
    fun u b o => .when b ((workEnds_count u _ _).trans (workEnds_countFull _ _ _))
  have listed : ∀ (u : State) (q : Nat), WorkEnds u ((u.pushReady q (.launch l)).count (8 * 42) 1) :=
    fun u q => (workEnds_pushReady u q _).trans (workEnds_count _ _ _)
  unfold State.endLaunch
  split
  · exact WorkEnds.refl s
  next x _ =>
    split
    · exact WorkEnds.refl s
    · have dropped : WorkEnds s ((s.setLaunch l (s.endedLaunch x st d)).dropWalks l) := .of_rest rfl rfl
      have left := dropped.trans (workEnds_releasePeers _ l)
      exact ((((((left.trans (stopped _ _ x.cells)).trans (poison _ _ _)).trans (workEnds_failHop _ x st)).trans (listed _ x.queue)).trans
        (bad _ _ _)).trans (workEnds_traceLaunch _ _ _ _)).trans (settled _ _)

theorem workEnds_endLaunches (s : State) (ls : List Nat) (st : Option Nat) : WorkEnds s (ls.foldl (fun acc l => acc.endLaunch l st 0) s) :=
  foldl_related WorkEnds.refl WorkEnds.trans (fun u l => workEnds_endLaunch u l st 0) ls s

/-- A live queue with the state and the cause of its death set (R295). -/
def Queue.struck (x : Queue) (cause : Nat) : Queue :=
  { x with status := .dying, cause := cause, waits := false, preempting := false, work := x.work.filter (fun w => w.kind != 4) }

/-- A queue that dies: a free or dying one stands, another is struck, and its launches end. -/
theorem State.queueDie_eq (s : State) (q cause : Nat) : s.queueDie q cause =
    if (s.queue q).status == .free || (s.queue q).status == .dying then s
    else ((s.setQueue q ((s.queue q).struck cause)).queueLaunches q).foldl (fun acc l => acc.endLaunch l.1 (some cause) 0)
      (s.setQueue q ((s.queue q).struck cause)) := rfl

theorem workEnds_queueDie (s : State) (q cause : Nat) : WorkEnds s (s.queueDie q cause) := by
  rw [State.queueDie_eq]
  split
  · exact WorkEnds.refl s
  · exact (workEnds_setQueue s q _ (.inr rfl)).trans
      (foldl_related WorkEnds.refl WorkEnds.trans (fun u (l : Nat × Launch) => workEnds_endLaunch u l.1 (some cause) 0) _ _)

theorem workEnds_queuesDie (s : State) (qs : List Nat) (cause : Nat) : WorkEnds s (qs.foldl (fun acc q => acc.queueDie q cause) s) :=
  foldl_related WorkEnds.refl WorkEnds.trans (fun u q => workEnds_queueDie u q cause) qs s

/-- Queue `q` holds no work that could go on. -/
def QueueGone (q : Nat) (s : State) : Prop := (s.queue q).status = .free ∨ (s.queue q).status = .dying

theorem WorkEnds.queueGone {s u : State} {q : Nat} (h : WorkEnds s u) (gone : QueueGone q s) : QueueGone q u := by
  rcases h.status q with same | dies
  · rwa [QueueGone, same]
  · exact .inr dies

theorem queueGone_queueDie (s : State) (q cause : Nat) : QueueGone q (s.queueDie q cause) := by
  by_cases gone : QueueGone q s
  · exact (workEnds_queueDie s q cause).queueGone gone
  · rw [State.queueDie_eq, if_neg (by simpa [QueueGone] using gone)]
    refine WorkEnds.queueGone
      (foldl_related WorkEnds.refl WorkEnds.trans (fun u (l : Nat × Launch) => workEnds_endLaunch u l.1 (some cause) 0) _ _) (.inr ?_)
    rw [State.queue, State.setQueue, tabGet_tabSet_same]
    rfl

/-- Of the queues that die together, one that was not free is DYING. -/
theorem queuesDie_dying {s : State} {qs : List Nat} {cause q : Nat} (mem : q ∈ qs) (live : (s.queue q).status ≠ .free) :
    ((qs.foldl (fun acc j => acc.queueDie j cause) s).queue q).status = .dying := by
  have gone : QueueGone q (qs.foldl (fun acc j => acc.queueDie j cause) s) :=
    foldl_establishes (P := QueueGone) (f := fun (acc : State) j => acc.queueDie j cause) (fun u j => queueGone_queueDie u j cause)
      (fun u _ j => (workEnds_queueDie u j cause).queueGone) mem s
  rcases (workEnds_queuesDie s qs cause).status q with same | dies
  · exact gone.resolve_left (by rwa [same])
  · exact dies

/-! ## What teardown keeps of partitions, groups and contexts -/

/-- The partitions, the groups and the contexts stand. -/
structure OwnersStand (s u : State) : Prop where
  partitions : u.partitions = s.partitions
  groups : u.groups = s.groups
  contexts : u.contexts = s.contexts

theorem OwnersStand.refl (s : State) : OwnersStand s s := ⟨rfl, rfl, rfl⟩

theorem OwnersStand.trans {s u v : State} (h : OwnersStand s u) (k : OwnersStand u v) : OwnersStand s v :=
  ⟨k.partitions.trans h.partitions, k.groups.trans h.groups, k.contexts.trans h.contexts⟩

theorem HostOnly.ownersStand {s u : State} (h : HostOnly s u) : OwnersStand s u := ⟨h.partitions, h.groups, h.contexts⟩

theorem TraceOnly.ownersStand {s u : State} (h : TraceOnly s u) : OwnersStand s u := ⟨h.partitions, h.groups, h.contexts⟩

theorem ownersStand_bump (s : State) (i j n : Nat) : OwnersStand s (s.bump i j n) := ((HostOnly.refl s).bump i j n).ownersStand

theorem ownersStand_post (s : State) (m : HostMsg) : OwnersStand s (s.post m) := (hostOnly_post s m).ownersStand

theorem ownersStand_adminDone (s : State) (p : AdminWaitFor → Bool) (st : Nat) (r : List Byte) : OwnersStand s (s.adminDone p st r) :=
  (hostOnly_adminDone s p st r).ownersStand

theorem ownersStand_cmdEnd (s : State) (i j st : Nat) : OwnersStand s (s.cmdEnd i j st) := by
  unfold State.cmdEnd
  dsimp only
  split <;> exact ⟨rfl, rfl, rfl⟩

theorem ownersStand_countRecord (s : State) : OwnersStand s s.countRecord := by
  unfold State.countRecord
  exact ⟨by simp, by simp, by simp⟩

theorem ownersStand_freeRegion (s : State) (r : Nat) : OwnersStand s (s.freeRegion r) := by
  unfold State.freeRegion
  split
  · exact OwnersStand.refl s
  · dsimp only
    split
    · refine OwnersStand.trans ?_ (foldl_related OwnersStand.refl OwnersStand.trans (fun u i => ?_) _ _)
      · exact ⟨rfl, rfl, rfl⟩
      · exact ⟨rfl, rfl, rfl⟩
    · split <;> exact ⟨rfl, rfl, rfl⟩

theorem ownersStand_freeRegions (s : State) (p : Nat → Bool) : OwnersStand s (s.freeRegions p) := by
  refine foldl_related OwnersStand.refl OwnersStand.trans (fun u (r : Nat × Region) => ?_) _ s
  split
  · exact ⟨rfl, rfl, rfl⟩
  · exact ownersStand_freeRegion u r.1

theorem ownersStand_postRecord (s : State) (q : Nat) (mk : Nat → List Byte) (irq : Bool) : OwnersStand s (s.postRecord q mk irq) := by
  have set_ : ∀ x : Queue, OwnersStand s (s.setQueue q x) := fun _ => ⟨rfl, rfl, rfl⟩
  have recorded : ∀ (x : Queue) (m : HostMsg), OwnersStand s ((s.setQueue q x).countRecord.post m) := fun x m =>
    ((set_ x).trans (ownersStand_countRecord _)).trans (ownersStand_post _ m)
  have queued : ∀ (u : State) (f : Queue → Queue), OwnersStand u (u.modQueue q f) := fun _ _ => ⟨rfl, rfl, rfl⟩
  unfold State.postRecord
  dsimp only
  split
  · exact (set_ _).trans (ownersStand_bump _ _ _ _)
  · split
    · exact recorded _ _
    · split
      · exact ((recorded _ _).trans (queued _ _)).trans (ownersStand_post _ _)
      · exact (recorded _ _).trans (queued _ _)

theorem ownersStand_queueFinalRecord (s : State) (q : Nat) : OwnersStand s (s.queueFinalRecord q) := by
  have freed : ∀ (u : State) (f : Nat × Launch → Bool) (x : Queue),
      OwnersStand u (({ u with launches := u.launches.filter f } : State).setQueue q x) := fun _ _ _ => ⟨rfl, rfl, rfl⟩
  unfold State.queueFinalRecord
  dsimp only
  split
  · exact OwnersStand.refl s
  · exact ((ownersStand_postRecord s q _ _).trans (freed _ _ _)).trans (ownersStand_adminDone _ _ _ _)

theorem ownersStand_finalRecords (s : State) (p : Queue → Bool) : OwnersStand s (s.finalRecords p) := by
  unfold State.finalRecords
  exact foldl_related OwnersStand.refl OwnersStand.trans ownersStand_queueFinalRecord _ s

theorem ownersStand_windowClosed (s : State) (p w : Nat) : OwnersStand s (s.windowClosed p w) := by
  unfold State.windowClosed
  dsimp only
  split
  · exact OwnersStand.refl s
  · have set_ : ∀ x : Window, OwnersStand s (s.setWin p w x) := fun _ => ⟨rfl, rfl, rfl⟩
    exact (set_ _).trans (ownersStand_adminDone _ _ _ _)

theorem ownersStand_joinRecord (s : State) (k r : Nat) (w : Walk) : OwnersStand s (s.joinRecord k r w) := by
  unfold State.joinRecord
  dsimp only
  split <;> exact ⟨rfl, rfl, rfl⟩

theorem ownersStand_openRecord {s u : State} {w : Walk} (opened : s.openRecord w = some u) : OwnersStand s u := by
  unfold State.openRecord at opened
  dsimp only at opened
  split at opened
  · exact Option.some.inj opened ▸ ownersStand_joinRecord s _ _ w
  · split at opened
    · obtain rfl := Option.some.inj opened
      have set_ : ∀ x : Collector, OwnersStand s (s.setCollector w.collector x) := fun _ => ⟨rfl, rfl, rfl⟩
      have noticed : ∀ (x : Collector) (o n c : Nat) (b : List Byte),
          OwnersStand s ((((s.setCollector w.collector x).countFull o n).bump 0x6040 0 1).notice c b) := fun x o n c b =>
        (set_ x).trans ((((HostOnly.refl _).countFull o n).bump 0x6040 0 1).notice c b).ownersStand
      exact (noticed _ _ _ _ _).trans (traceOnly_trace _ _ _ _ _ _).ownersStand
    · cases opened

theorem ownersStand_openAllQueued (s : State) : OwnersStand s s.openAllQueued := by
  have queued : ∀ (u : State) (w : Walk), OwnersStand u ((u.openRecord w).getD (u.queueFault w)) := by
    intro u w
    cases opened : u.openRecord w with
    | none => exact ⟨rfl, rfl, rfl⟩
    | some v => exact ownersStand_openRecord opened
  have emptied : ∀ (u : State) (k : Nat) (x : Collector), OwnersStand u (u.setCollector k x) := fun _ _ _ => ⟨rfl, rfl, rfl⟩
  exact foldl_related OwnersStand.refl OwnersStand.trans (f := State.openQueued) (fun u k =>
    (emptied u k _).trans (foldl_related OwnersStand.refl OwnersStand.trans queued _ _)) _ s

/-- Records of commands that ended with what they waited for. -/
theorem ownersStand_adminDones {α : Type} (s : State) (p : α → AdminWaitFor → Bool) (st : Nat) (r : List Byte) (l : List α) :
    OwnersStand s (l.foldl (fun (acc : State) a => acc.adminDone (p a) st r) s) :=
  foldl_related OwnersStand.refl OwnersStand.trans (fun u a => ownersStand_adminDone u (p a) st r) l s

/-- The partitions and the groups stand, and the table of contexts stays sorted. -/
structure Releases (s u : State) : Prop where
  partitions : u.partitions = s.partitions
  groups : u.groups = s.groups
  sorted : tabSorted s.contexts = true → tabSorted u.contexts = true

theorem Releases.refl (s : State) : Releases s s := ⟨rfl, rfl, id⟩

theorem Releases.trans {s u v : State} (h : Releases s u) (k : Releases u v) : Releases s v :=
  ⟨k.partitions.trans h.partitions, k.groups.trans h.groups, k.sorted ∘ h.sorted⟩

theorem OwnersStand.releases {s u : State} (h : OwnersStand s u) : Releases s u :=
  ⟨h.partitions, h.groups, fun sorted => by rwa [h.contexts]⟩

/-- Whether a table is sorted follows from its keys. -/
theorem tabSorted_of_keys {α β : Type} {t : Table α} {u : Table β} (keys : u.map Prod.fst = t.map Prod.fst) : tabSorted u = tabSorted t := by
  have rising : ∀ {γ : Type} (v : Table γ), tabSorted v = true ↔ (v.map Prod.fst).Pairwise (· < ·) := fun v => by
    rw [tabSorted_iff, List.pairwise_map]
  rw [Bool.eq_iff_iff, rising, rising, keys]

theorem releases_unmapSlot (s : State) (i : Nat) : Releases s (s.unmapSlot i) := by
  refine ⟨rfl, rfl, fun sorted => (tabSorted_of_keys ?_).trans sorted⟩
  rw [State.unmapSlot, List.map_map]
  rfl

theorem releases_endImports (s : State) (p : Import → Bool) : Releases s (s.endImports p) := by
  have drained : ∀ (u : State) (i : Nat), Releases u (u.startDrain 0 0 0 (some i) false).1 := fun _ _ => ⟨rfl, rfl, id⟩
  have marked : ∀ (u : State) (t : Table Import), Releases u { u with imports := t } := fun _ _ => ⟨rfl, rfl, id⟩
  refine foldl_related Releases.refl Releases.trans (fun u i => ?_) _ s
  split
  · exact ((marked u _).trans (releases_unmapSlot _ i)).trans (drained _ i)
  · exact Releases.refl u

/-- A context dropped is gone from the table; the partitions and the groups stand. -/
theorem ownersStand_dropContext (s : State) (c : Nat) : OwnersStand { s with contexts := tabErase s.contexts c } (s.dropContext c) := by
  have left : ∀ u : State, OwnersStand { s with contexts := tabErase s.contexts c } u →
      ∀ ts : List Nat, OwnersStand { s with contexts := tabErase s.contexts c }
        (ts.foldl (fun (acc : State) t => acc.adminDone (fun a => a == AdminWaitFor.probe t) stTranslationFatal []) u).openAllQueued :=
    fun u h ts => (h.trans (ownersStand_adminDones u (fun t a => a == AdminWaitFor.probe t) _ _ ts)).trans (ownersStand_openAllQueued _)
  have counted := ownersStand_bump s 0x6043 0 (s.drains.filter (fun d => d.move && d.context == c)).length
  refine left _ ?_ _
  exact ⟨counted.partitions, counted.groups, congrArg (tabErase · c) counted.contexts⟩

theorem releases_dropContext (s : State) (c : Nat) : Releases s (s.dropContext c) :=
  Releases.trans (u := { s with contexts := tabErase s.contexts c }) ⟨rfl, rfl, tabSorted_tabErase _ c⟩ (ownersStand_dropContext s c).releases

theorem ctx_dropContext {s : State} (sorted : tabSorted s.contexts = true) (c : Nat) : (s.dropContext c).ctx c = Context.unused := by
  rw [State.ctx, (ownersStand_dropContext s c).contexts, tabGet, tabFind_tabErase_same _ _ sorted, Option.getD_none]

/-- The groups of a partition go; its row caches are no part of any owner. -/
theorem ownersStand_dropGroups (s : State) (p : Nat) :
    OwnersStand { s with groups := s.groups.filter (fun g => g.2.partition != p) } (s.dropGroups p) := by
  have cached : ∀ (u : State) (f : Nat → Forager → Forager),
      OwnersStand u ((List.range 4).foldl (fun (acc : State) k => acc.modForager k (f k)) u) := by
    intro u f
    refine foldl_related OwnersStand.refl OwnersStand.trans (fun v k => ?_) _ u
    exact ⟨rfl, rfl, rfl⟩
  unfold State.dropGroups
  dsimp only
  split
  · refine OwnersStand.trans ?_ (cached _ _)
    exact ⟨rfl, rfl, rfl⟩
  · have drawn : ∀ (u : State) (n : Nat), OwnersStand u { u with free := n } := fun _ _ => ⟨rfl, rfl, rfl⟩
    refine OwnersStand.trans ?_ (drawn _ _)
    refine OwnersStand.trans ?_ (cached _ _)
    exact ⟨rfl, rfl, rfl⟩

theorem releases_dropOutside (s : State) (p : Nat) : Releases s (s.dropOutside p) := by
  have ended := (releases_endImports s (fun i => i.partition == p)).trans (ownersStand_bump _ 0x6043 0
    (s.drains.filter (fun d => d.slot.isNone && (s.ctx d.context).used && (s.ctx d.context).partition == p)).length).releases
  unfold State.dropOutside
  dsimp only
  refine Releases.trans (Releases.trans ?_ (ownersStand_adminDones _ _ _ _ _).releases) (ownersStand_adminDones _ _ _ _ _).releases
  exact ⟨ended.partitions, ended.groups, (releases_endImports s (fun i => i.partition == p)).sorted⟩

/-- Clearing a partition drops its groups; of partitions and other groups it changes nothing. -/
theorem releases_clearPart (s : State) (p : Nat) :
    Releases { s with groups := s.groups.filter (fun g => g.2.partition != p) } (s.clearPart p) := by
  have dropped : ∀ (u : State) (cs : List Nat), Releases u (cs.foldl (fun (acc : State) c =>
      ((acc.dropContext c).bump 0x6043 0 (b2n (s.ctx c).dying)).adminDone (fun a => a == AdminWaitFor.context c) stOk []) u) :=
    fun u cs => foldl_related Releases.refl Releases.trans (fun v c =>
      ((releases_dropContext v c).trans (ownersStand_bump _ _ _ _).releases).trans (ownersStand_adminDone _ _ _ _).releases) cs u
  have outside := (ownersStand_dropGroups s p).releases.trans (releases_dropOutside (s.dropGroups p) p)
  refine Releases.trans ?_ (dropped _ _)
  exact ⟨outside.partitions, outside.groups, outside.sorted⟩

end Sys2Proof.Machine

/-! # Partitions and contexts are created, reset, torn down and destroyed (R242, R243, R267, R268, R335, R346, R501) -/

namespace Sys2Proof.Machine

/-! ## Creating and destroying -/

theorem exec_partCreate {s : State} {r : List Byte} (h : AdminHead s 0x01 64 r) (sound : partRecordOk r = true)
    (free : (s.part (leAt r 0 1)).state = .free) (fits : s.partFits r = true) {frames : List Nat} {mask : BitVec 16}
    (drawn : drawFrames (leAt r 4 2) ((List.range 4).map s.freeFrames) [0, 0, 0, 0] [] = frames) (masked : BitVec.ofNat 16 (leAt r 2 2) = mask) :
    exec .partCreate s = .next (s.answered ((s.zeroPart frames mask).setPart (leAt r 0 1) { Partition.none with
      state := .active
      combMask := mask
      frames := BitVec.ofNat 16 (leAt r 4 2)
      rcShare := BitVec.ofNat 8 (leAt r 6 1)
      foragerWt := BitVec.ofNat 8 (leAt r 7 1)
      contexts := BitVec.ofNat 16 (leAt r 8 2)
      queues := BitVec.ofNat 16 (leAt r 0xA 2)
      frameList := frames
      resets := (s.part (leAt r 0 1)).resets }) stOk 0 []) := by
  subst drawn masked
  refine h.answered ?_
  dsimp only
  rw [if_neg (by simp [sound]), if_neg (by simp [free, fits])]

theorem exec_partDestroy {s : State} {r : List Byte} (h : AdminHead s 0x02 8 r) (small : leAt r 0 1 ≤ 15) (rsv : leAt r 1 7 = 0)
    (active : (s.part (leAt r 0 1)).state = .active) (empty : ∀ c ∈ s.contexts, ¬ (c.2.used = true ∧ c.2.partition = leAt r 0 1)) :
    exec .partDestroy s = .next (s.answered ((s.clearPart (leAt r 0 1)).setPart (leAt r 0 1)
      { Partition.none with resets := (s.part (leAt r 0 1)).resets }) stOk 0 []) := by
  have none_ : s.contexts.any (fun c => c.2.used && c.2.partition == leAt r 0 1) = false :=
    List.any_eq_false.2 fun c mem => by simpa using empty c mem
  refine h.answered ?_
  dsimp only
  rw [if_neg (by simp [Nat.not_lt.2 small, rsv, active]), if_neg (by simp [active, none_])]

theorem exec_ctxCreate {s : State} {b : List Byte} (h : AdminHead s 0x08 24 b) (context : leAt b 0 2 ≤ 255) (small : leAt b 2 1 ≤ 15)
    (active : (s.part (leAt b 2 1)).state = .active) (rsv : leAt b 3 5 = 0) (base : leAt b 8 8 % 65536 = 0) (size : leAt b 0x10 8 % 65536 = 0)
    (within : leAt b 8 8 + leAt b 0x10 8 ≤ 2 ^ 48) (unused : (s.ctx (leAt b 0 2)).used = false)
    (room : (s.contexts.filter (fun x => x.2.used && x.2.partition == leAt b 2 1)).length < (s.part (leAt b 2 1)).contexts.toNat) :
    exec .ctxCreate s = .next (s.answered (s.setCtx (leAt b 0 2) { Context.unused with
      used := true
      partition := leAt b 2 1
      saveBase := leAt b 8 8
      saveSize := leAt b 0x10 8 }) stOk 0 []) := by
  refine h.answered ?_
  dsimp only
  rw [if_neg (by simp [-Nat.reducePow, Nat.not_lt.2 context, Nat.not_lt.2 small, active, rsv, base, size, Nat.not_lt.2 within]),
    if_neg (by simp [unused, Nat.not_le.2 room])]

/-! ## Resetting a partition -/

/-- An active partition that resets is RESETTING with the cause. -/
theorem part_resetPart {s : State} {p : Nat} (active : (s.part p).state = .active) (cause : Nat) :
    (s.resetPart p cause).part p = { s.part p with state := .resetting, cause := cause } := by
  have begins : ∃ qs ls : List Nat, s.beginReset p cause = ls.foldl (fun acc l => acc.endLaunch l (some stPartitionReset) 0)
      (qs.foldl (fun acc q => acc.queueDie q stPartitionReset) (s.modPart p (fun x => { x with state := .resetting, cause := cause }))) := by
    rw [State.beginReset, if_neg (by simp [active])]
    exact ⟨_, _, rfl⟩
  obtain ⟨qs, ls, begun⟩ := begins
  have ends := (workEnds_queuesDie (s.modPart p (fun x => { x with state := .resetting, cause := cause })) qs stPartitionReset).trans
    (workEnds_endLaunches _ ls (some stPartitionReset))
  rw [State.resetPart, if_neg (by simp [active]), State.part, State.notice_partitions, begun, ends.rest]
  exact tabGet_tabSet_same _ _ _ _

theorem exec_partReset {s : State} {r : List Byte} (h : AdminHead s 0x03 8 r) (small : leAt r 0 1 ≤ 15) (rsv : leAt r 1 7 = 0)
    (active : (s.part (leAt r 0 1)).state = .active) :
    ∃ u, exec .partReset s = .next u ∧ u = s.awaits (s.resetPart (leAt r 0 1) 2) (.partition (leAt r 0 1)) false ∧
      (u.part (leAt r 0 1)).state = .resetting := by
  refine ⟨_, h.awaits (z := s.resetPart (leAt r 0 1) 2) (w := .partition (leAt r 0 1)) (holds := false) ?_, rfl, ?_⟩
  · dsimp only
    rw [if_neg (by simp [Nat.not_lt.2 small, rsv]), if_neg (by simp [active])]
  · exact congrArg Partition.state (part_resetPart active 2)

/-- The reset column makes its partition ACTIVE, counts the reset, and leaves no group of the partition (R267). -/
theorem resetColumn_renews (s : State) (p : Nat) :
    ((s.resetColumn p).part p).state = .active ∧
      ((s.resetColumn p).part p).resets = BitVec.ofNat 64 (satAdd 64 (s.part p).resets.toNat 1) ∧
      ∀ g ∈ (s.resetColumn p).groups, g.2.partition ≠ p := by
  have posted : ∀ u : State, OwnersStand u (((u.bump 0x6028 0 1).cmdEnd 0x9020 (p + 1) (Config.actionFailed 0x9020).toNat).adminDone
      (fun a => a == AdminWaitFor.partition p) stOk []) := fun u =>
    ((ownersStand_bump u _ _ _).trans (ownersStand_cmdEnd _ _ _ _)).trans (ownersStand_adminDone _ _ _ _)
  obtain ⟨z, cleared, column⟩ : ∃ z, Releases { s with groups := s.groups.filter (fun g => g.2.partition != p) } z ∧
      OwnersStand (z.modPart p (fun x => { x with
        state := .active, lastQueue := [], selfTest := false
        resets := BitVec.ofNat 64 (satAdd 64 x.resets.toNat 1) })) (s.resetColumn p) := by
    refine ⟨_, ?_, posted _⟩
    have stand := (ownersStand_freeRegions s (fun c => (s.ctx c).used && (s.ctx c).partition == p)).trans
      (ownersStand_finalRecords _ (fun q => (s.ctx q.context).partition == p))
    refine Releases.trans ?_ (releases_clearPart _ p)
    exact ⟨stand.partitions, congrArg (List.filter _) stand.groups, fun sorted => by rwa [stand.contexts]⟩
  have part : (s.resetColumn p).part p = { s.part p with
      state := .active, lastQueue := [], selfTest := false
      resets := BitVec.ofNat 64 (satAdd 64 (s.part p).resets.toNat 1) } := by
    have kept : z.part p = s.part p := by rw [State.part, cleared.partitions, State.part]
    rw [State.part, column.partitions, State.modPart, kept]
    exact tabGet_tabSet_same _ _ _ _
  refine ⟨by rw [part], by rw [part], fun g mem => ?_⟩
  rw [column.groups, show (z.modPart p _).groups = z.groups from rfl, cleared.groups] at mem
  simpa using (List.mem_filter.1 mem).2

/-- The live queues of an owner are all dead where each is. -/
theorem queuesDead {s : State} {own : Nat × Queue → Bool}
    (dead : ∀ q ∈ s.queues, q.2.status ≠ .free → own q = true → s.queueDead q.1 = true) :
    (s.queues.filter (fun q => q.2.status != QueueStatus.free && own q)).all (fun q => s.queueDead q.1) = true := by
  refine List.all_eq_true.2 fun q mem => ?_
  obtain ⟨mem, is_⟩ := List.mem_filter.1 mem
  obtain ⟨live, owned⟩ := Bool.and_eq_true_iff.1 is_
  exact dead q mem (bne_iff_ne.1 live) owned

theorem exec_partitionResetDone {s : State} {p : Nat} (path : s.running = true) (small : p < 16) (resetting : (s.part p).state = .resetting)
    (quiet : s.launchesQuiet (fun l => l.partition == p) = true)
    (dead : ∀ q ∈ s.queues, q.2.status ≠ .free → s.queuePart q.1 = p → s.queueDead q.1 = true) :
    ∃ u, exec (.partitionResetDone p) s = .next u ∧ (u.part p).state = .active ∧
      (u.part p).resets = BitVec.ofNat 64 (satAdd 64 (s.part p).resets.toNat 1) ∧ ∀ g ∈ u.groups, g.2.partition ≠ p := by
  have all := queuesDead (own := fun q => s.queuePart q.1 == p) fun q mem live own => dead q mem live (beq_iff_eq.1 own)
  have done : s.partitionResetDone p = s.resetColumn p := by
    rw [State.partitionResetDone, all, if_neg (by simp [resetting, quiet])]
  refine ⟨_, onUnit_running p 16 s (fun z => z.partitionResetDone p) path small, ?_⟩
  rw [done]
  exact resetColumn_renews s p

theorem exec_teardownTimeout {s : State} {c : Nat} (path : s.running = true) (dying : (s.ctx c).dying = true) (late : s.teardownSafe c = false)
    (active : (s.part (s.ctx c).partition).state = .active) :
    ∃ u, exec (.teardownTimeout c) s = .next u ∧ (u.part (s.ctx c).partition).state = .resetting ∧ (u.part (s.ctx c).partition).cause = 0 := by
  have done : s.teardownTimeout c = s.resetPart (s.ctx c).partition 0 := by
    rw [State.teardownTimeout, if_neg (by simp [dying, late])]
  have part := part_resetPart active 0
  refine ⟨_, onPath_running s (fun z => z.teardownTimeout c) path, ?_, ?_⟩
  · rw [done]
    exact congrArg Partition.state part
  · rw [done]
    exact congrArg Partition.cause part

/-! ## Tearing down a context -/

/-- The live queues of a context. -/
def State.contextQueues (s : State) (c : Nat) : List Nat :=
  (s.queues.filter (fun (q : Nat × Queue) => q.2.status != QueueStatus.free && q.2.context == c)).map (·.1)

/-- The launches that run an image of a context. -/
def State.imageLaunches (s : State) (c : Nat) : List Nat :=
  (s.launches.filter (fun (l : Nat × Launch) => match tabFind s.images l.2.image with
    | some im => im.context == c
    | none => false)).map (·.1)

/-- A context marked as dying, and its queues dead. -/
def State.queuesDie (s : State) (c : Nat) : State :=
  (s.contextQueues c).foldl (fun (acc : State) q => acc.queueDie q stContextTornDown) (s.setCtx c { s.ctx c with dying := true })

/-- The launches elsewhere that run an image of the context have ended as well. -/
def State.contextDies (s : State) (c : Nat) : State :=
  ((s.queuesDie c).imageLaunches c).foldl (fun (acc : State) l => acc.endLaunch l (some stContextTornDown) 0) (s.queuesDie c)

/-- Destroying a context ends its work, closes its windows and waits. -/
theorem exec_ctxDestroy_awaits {s : State} {b : List Byte} (h : AdminHead s 0x09 8 b) (used : (s.ctx (leAt b 0 2)).used = true)
    (alive : (s.ctx (leAt b 0 2)).dying = false) (rsv : leAt b 2 6 = 0) :
    exec .ctxDestroy s = .next (s.awaits { s.contextDies (leAt b 0 2) with
      windows := (s.contextDies (leAt b 0 2)).windows.map (fun (w : Nat × Window) =>
        if w.2.opened && w.2.context == leAt b 0 2 then (w.1, { w.2 with closing := true }) else w) } (.context (leAt b 0 2)) false) := by
  refine h.awaits ?_
  dsimp only
  rw [if_neg (by simp [used, alive, rsv])]
  rfl

theorem exec_ctxDestroy {s : State} {b : List Byte} (h : AdminHead s 0x09 8 b) (used : (s.ctx (leAt b 0 2)).used = true)
    (alive : (s.ctx (leAt b 0 2)).dying = false) (rsv : leAt b 2 6 = 0) :
    ∃ u, exec .ctxDestroy s = .next u ∧ u.ctx (leAt b 0 2) = { s.ctx (leAt b 0 2) with dying := true } ∧
      u.admin = { s.admin with
        taken := s.admin.taken + 1#64
        work := s.admin.work ++ [{ index := s.admin.taken.toNat, cmdId := ahCmdId s.admSlot, waits := .context (leAt b 0 2)
                                   start := s.admin.start, blocks := false }] } ∧
      (∀ q x, tabFind s.queues q = some x → x.status ≠ .free → x.context = leAt b 0 2 → (u.queue q).status = .dying) ∧
      u.dram = s.dram ∧ u.tables = s.tables := by
  have died := workEnds_queuesDie (s.setCtx (leAt b 0 2) { s.ctx (leAt b 0 2) with dying := true }) (s.contextQueues (leAt b 0 2)) stContextTornDown
  have ends := workEnds_endLaunches (s.queuesDie (leAt b 0 2)) ((s.queuesDie (leAt b 0 2)).imageLaunches (leAt b 0 2)) (some stContextTornDown)
  have rest : s.contextDies (leAt b 0 2) = _ := (died.trans ends).rest
  have admin : (s.contextDies (leAt b 0 2)).admin = s.admin := by rw [rest]; rfl
  have contexts : (s.contextDies (leAt b 0 2)).contexts = tabSet s.contexts (leAt b 0 2) { s.ctx (leAt b 0 2) with dying := true } := by
    rw [rest]; rfl
  have dram : (s.contextDies (leAt b 0 2)).dram = s.dram := by rw [rest]; rfl
  have tables : (s.contextDies (leAt b 0 2)).tables = s.tables := by rw [rest]; rfl
  refine ⟨_, exec_ctxDestroy_awaits h used alive rsv, ?_, ?_, fun q x found live own => ?_, dram, tables⟩
  · exact (congrArg (tabGet Context.unused · (leAt b 0 2)) contexts).trans (tabGet_tabSet_same _ _ _ _)
  · simp only [State.awaits, keepQueue_admin, admin]
  · have listed : q ∈ s.contextQueues (leAt b 0 2) :=
      List.mem_map.2 ⟨(q, x), List.mem_filter.2 ⟨mem_of_tabFind found, by simp [live, own]⟩, rfl⟩
    have dying : ((s.queuesDie (leAt b 0 2)).queue q).status = .dying :=
      queuesDie_dying listed (by rwa [State.queue, State.setCtx_queues, tabGet, found])
    rcases ends.status q with same | dies
    · exact same.trans dying
    · exact dies

theorem exec_contextTornDown {s : State} {c : Nat} (path : s.running = true) (dying : (s.ctx c).dying = true)
    (active : (s.part (s.ctx c).partition).state = .active) (safe : s.teardownSafe c = true)
    (dead : ∀ q ∈ s.queues, q.2.status ≠ .free → q.2.context = c → s.queueDead q.1 = true)
    (drained : s.drained { id := 0, context := c, va := 0, length := 0, big := [], slot := none, move := false } = true)
    (sorted : tabSorted s.contexts = true) :
    ∃ u, exec (.contextTornDown c) s = .next u ∧ u.ctx c = Context.unused ∧ ∀ w ∈ u.admin.work, w.waits ≠ .context c := by
  have all := queuesDead (own := fun q => q.2.context == c) fun q mem live own => dead q mem live (beq_iff_eq.1 own)
  obtain ⟨z, released, done⟩ : ∃ z, Releases s z ∧
      s.contextTornDown c = ((z.dropContext c).bump 0x6043 0 1).adminDone (fun a => a == AdminWaitFor.context c) stOk [] := by
    rw [State.contextTornDown]
    dsimp only
    rw [all, drained, if_neg (by simp [dying, active, safe])]
    refine ⟨_, ?_, rfl⟩
    have recorded : Releases s ((s.freeRegions (fun k => k == c)).finalRecords (fun q => q.context == c)) :=
      ((ownersStand_freeRegions s _).trans (ownersStand_finalRecords _ _)).releases
    have unloaded : ∀ u : State, Releases u (u.dropImages (fun i => i.context == c)) := fun _ => ⟨rfl, rfl, id⟩
    have ended := (recorded.trans (unloaded _)).trans (releases_endImports _ (fun i => i.context == c))
    exact ended.trans (foldl_related OwnersStand.refl OwnersStand.trans
      (f := fun (acc : State) w => acc.windowClosed (w / 256) (w % 256)) (fun u w => ownersStand_windowClosed u _ _) _ _).releases
  refine ⟨_, onPath_running s (fun z => z.contextTornDown c) path, ?_, fun w mem => ?_⟩
  · have gone := ctx_dropContext (released.sorted sorted) c
    have kept := (ownersStand_bump (z.dropContext c) 0x6043 0 1).trans (ownersStand_adminDone _ (fun a => a == AdminWaitFor.context c) stOk [])
    rw [done, State.ctx, keepQueue_contexts, kept.contexts]
    exact gone
  · rw [done, keepQueue_admin] at mem
    simpa using adminDone_leaves mem

/-! ## Drains -/

/-- A drain that ended: it is gone, the slot it freed is empty, and it is counted. -/
def State.drainEnded (s : State) (id : Nat) (d : Drain) : State :=
  { ({ s with drains := s.drains.filter (fun e => e.id != id) } : State).bump 0x6043 0 1 with
    imports := match d.slot with
      | some i => tabErase s.imports i
      | none => s.imports }

/-- The commands that wait for a drain. -/
def drainWaits (id : Nat) : AdminWaitFor → Bool
  | .drain e => e == id
  | .unmap e _ => e == id
  | .release e _ => e == id
  | _ => false

theorem hostOnly_drainEnded (s : State) (id : Nat) (d : Drain) : HostOnly { s with
    drains := s.drains.filter (fun e => e.id != id)
    imports := match d.slot with
      | some i => tabErase s.imports i
      | none => s.imports } (s.drainEnded id d) := by
  rw [State.drainEnded, State.bump_eq]
  exact HostOnly.refl _

/-- A drain whose accesses have finished ends, and the commands that wait for it are answered. -/
theorem drainComplete_answers {s : State} {id : Nat} {d : Drain} (found : s.drains.find? (fun d => d.id == id) = some d) (drained : s.drained d = true)
    (mapped : ∀ w ∈ s.admin.work, w.waits ≠ .unmap id d.context) : s.drainComplete id = (s.drainEnded id d).adminDone (drainWaits id) stOk [] := by
  have unmapped : s.admin.work.any (fun w => w.waits == AdminWaitFor.unmap id d.context) = false :=
    List.any_eq_false.2 fun w mem => by simpa using mapped w mem
  rw [State.drainComplete, found]
  dsimp only
  rw [drained, if_neg (by simp), unmapped, if_neg Bool.false_ne_true]
  unfold State.drainEnded
  cases d.slot <;> rfl

theorem exec_drainComplete {s : State} {id : Nat} {d : Drain} (path : s.running = true) (found : s.drains.find? (fun d => d.id == id) = some d)
    (drained : s.drained d = true) (mapped : ∀ w ∈ s.admin.work, w.waits ≠ .unmap id d.context) :
    ∃ u, exec (.drainComplete id) s = .next u ∧ HostOnly { s with
      drains := s.drains.filter (fun e => e.id != id)
      imports := match d.slot with
        | some i => tabErase s.imports i
        | none => s.imports } u ∧
      u.entry 0x6043 0 = satAdd (dictBits (dkey 0x6043 0)) (s.entry 0x6043 0) 1 ∧ ∀ w ∈ u.admin.work, w.waits ≠ .drain id := by
  have answers := drainComplete_answers found drained mapped
  have ends := (hostOnly_drainEnded s id d).trans (hostOnly_adminDone _ (drainWaits id) stOk [])
  refine ⟨_, onPath_running s (fun z => z.drainComplete id) path, ?_⟩
  rw [answers, keepQueue_of s _ ends.pending ends.time ends.code]
  refine ⟨ends, ?_, fun w mem waits => ?_⟩
  · rw [State.entry, (posts_adminDone _ (drainWaits id) stOk []).counts _ (by decide) (by decide)]
    exact State.entry_bump_same { s with drains := s.drains.filter (fun e => e.id != id) } 0x6043 0 1
  · have left := adminDone_leaves mem
    rw [waits] at left
    simp [drainWaits] at left

/-- Settles O33: creation and destruction run to their last line, a reset and a teardown by what ending work and releasing leave. -/
theorem partitionsAndContexts : Obligations.PartitionsAndContexts := by
  unfold Obligations.PartitionsAndContexts
  refine ⟨fun s r h sound free fits => exec_partCreate h sound free fits rfl rfl, fun _ _ => exec_partDestroy, fun _ _ => exec_partReset,
    fun _ _ => exec_partitionResetDone, fun _ _ => exec_ctxCreate, fun _ _ => exec_ctxDestroy, fun _ _ => exec_contextTornDown,
    fun _ _ => exec_teardownTimeout, fun _ _ _ => exec_drainComplete⟩

end Sys2Proof.Machine
